-- ==== Sys2Proof/Word.lean ====
section
/-! DEFINITION. The word and byte types of the model and their plainest arithmetic. Registers of block pages are 32 bits
wide (R39); memories are held byte by byte. -/

namespace Sys2Proof

/-- One 32-bit register word (R39). -/
abbrev Word := BitVec 32

/-- One byte of a memory. -/
abbrev Byte := BitVec 8

/-- `1` for true and `0` for false, as a register field shows it. -/
def b2n (b : Bool) : Nat := if b then 1 else 0

@[simp] theorem b2n_true : b2n true = 1 := rfl
@[simp] theorem b2n_false : b2n false = 0 := rfl

end Sys2Proof
end

