-- ==== Sys2Proof/Machine/Fields.lean ====
section
/-! DEFINITION. The shape of a register field (R39, R41): where it lies in its page, its width, its access type, its reset
value, and whether a command of its own writes it. -/

namespace Sys2Proof.Machine

/-- The access types of R41. -/
inductive Acc where
  | rw | ro | wo | w1c | w1s | rwl | rws | rc
deriving DecidableEq, Repr

/-- One register field: byte offset of its word in the page or table entry, lowest bit, width, access type, reset value,
and `own`: true when another command of the table than REGISTER_WRITE writes it. -/
structure Fld where
  off : Nat
  lo : Nat
  w : Nat
  acc : Acc
  rst : Nat
  own : Bool
deriving DecidableEq, Repr

/-- A family of words of a page: first offset, how many, the distance between them, and the fields of word `i`. -/
structure Row where
  base : Nat
  cnt : Nat
  stride : Nat
  flds : Nat → List Fld

/-- The fields of the word at an offset of a page, as its rows list them. A row may share words with another row only
where their offsets interleave. -/
def fieldsAt : List Row → Nat → List Fld
  | [], _ => []
  | r :: t, off =>
    if r.base ≤ off ∧ off < r.base + r.cnt * r.stride ∧ (off - r.base) % r.stride = 0
    then r.flds ((off - r.base) / r.stride) else fieldsAt t off

/-- The one key under which a field of the page (or table entry) at BAR0 address `p` is held. -/
def fkey (p : Nat) (f : Fld) : Nat := 32 * (p + f.off) + f.lo

end Sys2Proof.Machine
end

