-- ==== Sys2Proof/Machine/Pages.lean ====
section
/-! DEFINITION. The BAR0 map (R38), page bases and function IDs (R55). -/

namespace Sys2Proof.Machine

/-- The block types with pages in BAR0 (R38). -/
inductive Blk where
  | sys | own | pwr | clk | mss | dbk | far | upd | sag | tb | pci | tst | xb | grd | hit | loft | dmc | dec | enc | cmp
  | bay | feed | yk | gate | bl | tch | net | cvu | drv | ln | hd
deriving DecidableEq, Repr

/-- The table windows and MSI-X pages of BAR0, which carry no page header (R38). -/
inductive Win where
  | msixTable | msixPend | feedTable | bayTable | stallTable | touchBase
deriving DecidableEq, Repr

/-- The BAR0 map: block, first page address, lowest instance number, number of instances (R38). -/
def blkMap : List (Blk × Nat × Nat × Nat) := [
  (.sys, 0x0, 0, 1), (.own, 0x1000, 1, 2), (.pwr, 0x3000, 0, 1), (.clk, 0x4000, 0, 1), (.mss, 0x5000, 0, 1),
  (.dbk, 0x6000, 0, 1), (.far, 0x7000, 0, 1), (.upd, 0x8000, 0, 1), (.sag, 0x9000, 0, 1), (.tb, 0xA000, 0, 1),
  (.pci, 0xB000, 0, 1), (.tst, 0xC000, 0, 1), (.xb, 0x10000, 0, 1), (.grd, 0x11000, 0, 12), (.hit, 0x1D000, 0, 1),
  (.loft, 0x1E000, 0, 1), (.dmc, 0x20000, 0, 8), (.dec, 0x30000, 0, 8), (.enc, 0x38000, 0, 2), (.cmp, 0x3A000, 0, 2),
  (.bay, 0x3C000, 0, 1), (.feed, 0x3D000, 0, 1), (.yk, 0x3E000, 0, 1), (.gate, 0x40000, 0, 4), (.bl, 0x44000, 0, 4),
  (.tch, 0x48000, 0, 3), (.net, 0x50000, 0, 18), (.cvu, 0x70000, 0, 24), (.drv, 0x90000, 0, 8), (.ln, 0x100000, 0, 64),
  (.hd, 0x1000000, 0, 64)]

/-- The type code of a block (R38). -/
def Blk.typeCode : Blk → Nat
  | .sys => 0x01 | .own => 0x01 | .pwr => 0x02 | .clk => 0x03 | .mss => 0x17 | .dbk => 0x19 | .far => 0x1A | .upd => 0x1B
  | .sag => 0x1E | .tb => 0x0C | .pci => 0x1D | .tst => 0x1C | .xb => 0x04 | .grd => 0x05 | .hit => 0x06 | .loft => 0x08
  | .dmc => 0x07 | .dec => 0x0D | .enc => 0x0E | .cmp => 0x0F | .bay => 0x09 | .feed => 0x0B | .yk => 0x16 | .gate => 0x11
  | .bl => 0x12 | .tch => 0x15 | .net => 0x0A | .cvu => 0x14 | .drv => 0x18 | .ln => 0x13 | .hd => 0x10

/-- First page address of a block and its lowest instance. -/
def Blk.base : Blk → Nat
  | .sys => 0x0 | .own => 0x1000 | .pwr => 0x3000 | .clk => 0x4000 | .mss => 0x5000 | .dbk => 0x6000 | .far => 0x7000
  | .upd => 0x8000 | .sag => 0x9000 | .tb => 0xA000 | .pci => 0xB000 | .tst => 0xC000 | .xb => 0x10000 | .grd => 0x11000
  | .hit => 0x1D000 | .loft => 0x1E000 | .dmc => 0x20000 | .dec => 0x30000 | .enc => 0x38000 | .cmp => 0x3A000
  | .bay => 0x3C000 | .feed => 0x3D000 | .yk => 0x3E000 | .gate => 0x40000 | .bl => 0x44000 | .tch => 0x48000
  | .net => 0x50000 | .cvu => 0x70000 | .drv => 0x90000 | .ln => 0x100000 | .hd => 0x1000000

/-- The page of instance `i` of a block (R38); the registry's lowest instance is 1. -/
def pg (b : Blk) (i : Nat) : Nat := b.base + 0x1000 * (match b with | .own => (i - 1) | _ => i)

/-- The function ID of instance `i` of a block (R55). -/
def fidOf (b : Blk) (i : Nat) : Nat := b.typeCode * 256 + i

/-- The block and instance of the page that holds a BAR0 address (R38). -/
def pageOf (a : Nat) : Option (Blk × Nat) :=
  match blkMap.find? (fun e => decide (e.2.1 ≤ a) && decide (a < e.2.1 + 0x1000 * e.2.2.2)) with
  | some e => some (e.1, e.2.2.1 + (a - e.2.1) / 0x1000)
  | none => none

/-- The table window that holds a BAR0 address, with the entry's base address (R38). -/
def winOf (a : Nat) : Option (Win × Nat) :=
  if 0xD000 ≤ a ∧ a < 0xE000 then some (.msixTable, a / 16 * 16)
  else if 0xE000 ≤ a ∧ a < 0xE020 then some (.msixPend, 0xE000)
  else if 0x2000000 ≤ a ∧ a < 0x2010000 then some (.feedTable, a / 128 * 128)
  else if 0x3000000 ≤ a ∧ a < 0x3080000 then some (.bayTable, a / 64 * 64)
  else if 0x3400000 ≤ a ∧ a < 0x3440000 then some (.stallTable, a / 64 * 64)
  else if 0x3800000 ≤ a ∧ a < 0x3810000 then some (.touchBase, a / 8 * 8)
  else none

/-- Entry `b` of the bay table window. -/
def bayE (b : Nat) : Nat := 0x3000000 + 64 * b

/-- Entry `f` of the feed table window. -/
def feedE (f : Nat) : Nat := 0x2000000 + 128 * f

/-- Entry `n` of the stall table window. -/
def stallE (n : Nat) : Nat := 0x3400000 + 64 * n

/-- The touch baseline window entry of node `n` of port `p`. -/
def touchE (p n : Nat) : Nat := 0x3800000 + 0x8000 * p + 8 * n

/-- The pages whose event registers read 0: HD pages (R46) and the registry pages (R56). -/
def Blk.noEvents : Blk → Bool
  | .hd => true
  | .own => true
  | _ => false

/-- CAPS of the blocks whose chapter gives it as a constant. -/
def Blk.capsConst : Blk → Option Nat
  | .tb => some 0x00040888
  | .dec => some 0x00000240
  | .cmp => some 0x00010440
  | .hd => some 0x10E01E00
  | .gate => some 0x00040834
  | .bl => some 0x00000408
  | .enc => some 0x00000120
  | .yk => some 0x00001454
  | .tch => some 0x00005030
  | _ => none

end Sys2Proof.Machine
end

