-- ==== Sys2Proof/Machine/Types.lean ====
section
/-! DEFINITION. The kinds of thing that commands and state name: writers, access kinds, line tags, emissions, records. -/

namespace Sys2Proof

/-- Who writes or reads a register: the masters that reach register space (R55, R64). -/
inductive Writer where
  | host
  | mss
  | drover (d : Fin 8)
  | yoke
  | debug
deriving DecidableEq, Repr

/-- The function ID of a writer (R36, R55). -/
def Writer.fid : Writer → Nat
  | .host => 0x1D00
  | .mss => 0x1700
  | .drover d => 0x1800 + d.val
  | .yoke => 0x1600
  | .debug => 0x1C00

/-- The fabric master number of a writer (R64). -/
def Writer.master : Writer → Nat
  | .host => 0
  | .mss => 1
  | .drover d => 2 + d.val
  | .yoke => 29
  | .debug => 31

/-- The hitch owner slot of a writer; only host, MSS and drovers have one (R88). -/
def Writer.hitSlot : Writer → Option Nat
  | .host => some 0
  | .mss => some 1
  | .drover d => some (2 + d.val)
  | .yoke => none
  | .debug => none

/-- Kinds of access (R80), in the order of their code in records (R79). -/
inductive AccKind where
  | read | write | fetch | atomic
deriving DecidableEq, Repr

/-- The code of an access kind in records (R79, R87). -/
def AccKind.code : AccKind → Nat
  | .read => 0 | .write => 1 | .fetch => 2 | .atomic => 3

/-- A DRAM request's tag (R107, R143). -/
structure Tag where
  bay : Nat
  gen : Nat
  kind : Nat
  fseq : Nat
  fseqChk : Bool
deriving DecidableEq, Repr

/-- The 56-bit metadata a tag stores with a line (R103). -/
def Tag.meta (t : Tag) : Nat :=
  t.bay % 2 ^ 13 + t.gen % 2 ^ 16 * 2 ^ 13 + t.kind % 8 * 2 ^ 29 + t.fseq % 2 ^ 16 * 2 ^ 32

end Sys2Proof
end

