-- ==== Sys2Proof/Syntax.lean ====
section
/-! DEFINITION. The commands of the block: one constructor per row of spec/opcode_table.json, with the row's operands. -/

namespace Sys2Proof

/-- What self-test and training found, one bit per unit that failed or is absent (R31, R35). -/
structure SelfTest where
  dec : BitVec 8
  enc : BitVec 2
  cmp : BitVec 2
  so : BitVec 4
  dmc : BitVec 8
  drv : BitVec 8
  quad : BitVec 16
  scaler : BitVec 32
  cvu : BitVec 24
  loft : BitVec 48
  /-- Line-buffer banks (R36, R62). -/
  bank : BitVec 64
  /-- The always-on domain or the MSS failed (R32). -/
  aonFail : Bool
  /-- The lane reference clock or the fabric failed (R31). -/
  baseFail : Bool
deriving DecidableEq, Repr

/-- A request that the fabric carries (R63): 1 to 16 beats of 64 bytes, none across a 4 KiB boundary; an atomic of at most 8 bytes,
naturally aligned. -/
def reqShape (k : AccKind) (addr len : Nat) : Bool :=
  if k = .atomic then decide (len = 1 ∨ len = 2 ∨ len = 4 ∨ len = 8) && decide (addr % len = 0)
  else decide (0 < len) && decide (addr / 4096 = (addr + len - 1) / 4096) && decide ((addr % 64 + len + 63) / 64 ≤ 16)

/-- What a frame outside the feeds asks of the unmatched queue's drover (R175, R196). -/
inductive Ask where
  | nothing | arp | nd | echo
  /-- A membership query: 0 IGMPv3 or MLDv2, 1 IGMPv1, 2 IGMPv2, 3 MLDv1 (R199); the group it asks for, 0 for all; the sources. -/
  | query (version group : Nat) (sources : List Nat)
deriving DecidableEq, Repr

/-- A PTP message that a frame carries (R162): message type, domain, sequenceId. -/
structure PtpMsg where
  msgType : Nat
  domain : Nat
  seqId : Nat
deriving DecidableEq, Repr

/-- The UDP datagram that a frame carries (R178, R183). -/
structure Udp where
  sport : Nat
  dport : Nat
  /-- The checksum is wrong, or 0 over IPv6 (R178). -/
  badSum : Bool
  payload : List Nat
deriving DecidableEq, Repr

/-- A received frame, as its headers parse (R175 to R183). Addresses are numbers whose least significant byte is the first
octet. -/
structure NetFrame where
  fcsOk : Bool
  /-- Length in bytes, FCS included. -/
  len : Nat
  /-- IEEE 802.1Q tags it carries. -/
  tags : Nat
  /-- VLAN ID of the tag, 0 where there is none. -/
  vlan : Nat
  pause : Bool
  frag : Bool
  v6 : Bool
  /-- IPv6 extension headers stand before UDP (R178). -/
  v6ext : Bool
  dmac : Nat
  src : Nat
  dst : Nat
  udp : Option Udp
  ptp : Option PtpMsg
  ask : Ask
  /-- Its bytes without the FCS, as a team forwards them (R368). -/
  raw : List Nat
deriving DecidableEq, Repr

/-- An edge at a time input (R170): its sense, and the length in ns of the shorter of the two pulses that it bounds. -/
structure TiEdge where
  rising : Bool
  pulse : Nat
deriving DecidableEq, Repr

/-- A lane of a receiver's input and the rate code at which it receives (R286, R304). -/
structure LaneRate where
  lane : Fin 4
  rate : Nat
deriving DecidableEq, Repr

/-- The kind of a coded picture (R214, R219 to R221). -/
inductive PicKind where
  | idr | bla | cra | rasl | other
deriving DecidableEq, Repr, Inhabited

/-- What a coded access unit's headers say (R202, R212, R214): the result of the standards' parse, which the spec names and
does not restate (log entry 12). -/
structure AuHead where
  /-- The access unit activates parameter sets. -/
  activates : Bool
  /-- The parameter sets it refers to have been received. -/
  psetOk : Bool
  kind : PicKind
  isRef : Bool
  tid : Nat
  width : Nat
  height : Nat
  /-- Luma and chroma bit depths, and chroma_format_idc. -/
  depth : Nat
  chromaDepth : Nat
  chromaFormat : Nat
  /-- profile_idc or general_profile_idc, with what R200 reads beside it: general_profile_compatibility_flag[1] and [2], and
  constraint_set1_flag. -/
  profile : Nat
  compat1 : Bool
  compat2 : Bool
  cset1 : Bool
  level : Nat
  /-- frame_mbs_only_flag 0, or field_seq_flag 1 (R202). -/
  interlaced : Bool
  /-- An explicit scaling list is present (R202). -/
  scaling : Bool
  /-- num_slice_groups_minus1. -/
  sliceGroups : Nat
  /-- An extension flag that R202 names is 1. -/
  extension : Bool
  /-- Identifiers in use at once: SPS, PPS, VPS. -/
  spsCount : Nat
  ppsCount : Nat
  vpsCount : Nat
  /-- sps_max_num_reorder_pics by sub-layer; max_num_reorder_frames where the VUI carries it (R214). -/
  subReorder : List Nat
  vuiReorder : Option Nat
  /-- H.264 gaps_in_frame_num_value_allowed_flag. -/
  gapsAllowed : Bool
  /-- The access unit ends with an end of sequence NAL unit (R221). -/
  endOfSeq : Bool
  ctbLog2 : Nat
  cropL : Nat
  cropR : Nat
  cropT : Nat
  cropB : Nat
  /-- The context's private bytes once the access unit's parameter sets have been taken (R208). -/
  priv : List Nat
deriving DecidableEq, Repr, Inhabited

/-- How a coding tree unit stands (R218): decoded, covered by no slice segment, or after the point where parsing of its slice
segment stopped. -/
inductive CtuState where
  | decoded | noSlice | afterError
deriving DecidableEq, Repr, Inhabited

/-- One coding tree unit as its entropy decode gives it (R225). -/
structure Ctu where
  state : CtuState
  /-- Per 8 × 8 luma block, the motion vectors, in quarter samples, of the lists that its prediction blocks use; none for a block
  without inter prediction. -/
  blocks : List (List (Int × Int))
  skip : Bool
  qp : Int
  /-- Positions in the picture's reads that it predicts from. -/
  uses : List Nat
  /-- Bitstream positions at its start and its end. -/
  from_ : Nat
  upTo_ : Nat
  /-- Its transform coefficient levels. -/
  levels : List Int
deriving DecidableEq, Repr, Inhabited

/-- A read of a reference picture, one request part of it (R218): its picture order count, byte offset in its bay, bytes. -/
structure RefRead where
  poc : Int
  off : Nat
  len : Nat
deriving DecidableEq, Repr, Inhabited

/-- What entropy decode of a picture gives by its standard (R214, R218, R224). -/
structure AuBody where
  poc : Int
  /-- pic_output_flag; 1 for every H.264 picture. -/
  output : Bool
  noOutPrior : Bool
  /-- H.264: frame_num, MaxFrameNum, max_num_ref_frames, long_term_reference_flag of an IDR picture. -/
  frameNum : Nat
  maxFrameNum : Nat
  numRefFrames : Nat
  longIdr : Bool
  /-- H.264: memory management control operations with their two operands; none for the sliding window. -/
  mmco : Option (List (Nat × Nat × Nat))
  /-- H.265: picture order counts of the reference picture set, short-term and long-term. -/
  rpsShort : List Int
  rpsLong : List Int
  /-- Picture order counts this picture may refer to. -/
  needs : List Int
  reads : List RefRead
  /-- Address of the coding tree unit where parsing stopped (R229 STREAM_ERR). -/
  err : Option Nat
  sliceBits : Nat
  ctus : List Ctu
  /-- The context's private bytes after the picture (R208). -/
  priv : List Nat
deriving DecidableEq, Repr, Inhabited

/-- A reference picture as the standards' processes see it: picture order count, marks, frame_num, long-term index. -/
structure RefDesc where
  poc : Int
  long : Bool
  frameNum : Nat
  longIdx : Nat
deriving DecidableEq, Repr, Inhabited

/-- A row of coding tree units as the coder gives it (R332, R334): the bytes of its slice segment before the units (start code, NAL unit
header, slice segment header), and for each unit the bits of its forms at the picture's QP, at QP_MAX and as the fallback. -/
structure EncRow where
  head : List Nat
  ctbs : List (List Bool × List Bool × List Bool)
deriving DecidableEq, Repr, Inhabited

/-- What coding a picture by H.265 gives (R332 to R334): the rows of coding tree units, the bytes of the parameter sets, the mean QP where
a fallback unit has one by prediction, and the reconstruction, luma row by row, then Cb and Cr interleaved. -/
structure EncCoded where
  rows : List EncRow
  psets : List Nat
  qpAvg : Nat
  luma : List Nat
  chroma : List Nat
deriving DecidableEq, Repr, Inhabited

/-- What the coding of a picture depends on (R332): its kind, the active and the coded size, general_level_idc, the QPs, the cap, the
pictures since the latest IDR picture, the samples after conversion, and what the reads of the reference delivered. -/
structure EncIn where
  idr : Bool
  act : Nat × Nat
  size : Nat × Nat
  level : Nat
  qp : Nat
  qpMax : Nat
  cap : Nat
  since : Nat
  luma : List Nat
  chroma : List Nat
  ref : List Nat
deriving DecidableEq, Repr

/-- A datagram with a SET_CLAIM message (R387): the NET port it came by, the UDP port it is sent to, and its bytes. -/
structure SetClaimMsg where
  net : Fin 18
  dport : Nat
  bytes : List Nat
deriving DecidableEq, Repr

/-- A request of the update protocol (R427 to R430). -/
structure UpdReq where
  /-- 1 a register write over PCI Express, 2 a datagram, 3 a UART message. -/
  path : Fin 4
  /-- Path 1: who writes, and the value written to UPD_BLOCK.LEN. -/
  w : Writer
  len : Nat
  /-- Path 2: the NET port it came by, its source address and port, and the port it is sent to. -/
  port : Fin 18
  v6 : Bool
  src : Nat
  sport : Nat
  dport : Nat
  /-- Paths 2 and 3: the bytes of the datagram, or of the UART message with its framing (R429). -/
  bytes : List Nat
deriving DecidableEq, Repr

/-- How a mirror batch ends (R405, R408): its header is written and read back, rightly or not; or a sag stops it after so many of its
bytes. -/
inductive BatchEnd where
  | whole (readback : Bool)
  | cut (bytes : Nat)
deriving DecidableEq, Repr

/-- The commands and events that change the block's state, one per row of the table. -/
inductive Instr where
  /-- R41 REGISTER_WRITE: A write to a register field that has no row of its own sets the field according to its access type. -/
  | registerWrite (w : Writer) (addr : BitVec 26) (v : Word)
  /-- R41 RC_COUNTER_READ: A read of an RC register returns its value and clears it. -/
  | rcCounterRead (w : Writer) (addr : BitVec 26)
  /-- R173 LATCHING_READ: A read of a low word such as TB_NOW_LO, CAP_LO or HD_TS_LO latches the matching high word. -/
  | latchingRead (w : Writer) (addr : BitVec 26)
  /-- R44 ENABLE_WRITE: A write of CTRL.ENABLE is judged against SYS_CAPS, fencing and the registry, and the block either starts or reads back 0. -/
  | enableWrite (w : Writer) (page : BitVec 26) (v : Bool)
  /-- R43 SOFT_RESET: A write of CTRL.SOFT_RESET resets the block's datapath and state, clears ENABLE, and completes within 2 µs. -/
  | softReset (w : Writer) (page : BitVec 26) (en : Bool)
  /-- R43 PAGE_LOCK: A write of CTRL.LOCK freezes every RWL field of the page until a reset that clears the block. -/
  | pageLock (w : Writer) (page : BitVec 26)
  /-- R54 EVT_PEND_CLEAR: A W1C write to EVT_PEND clears raw event bits and raises an interrupt again if pending bits remain. -/
  | evtPendClear (w : Writer) (page : BitVec 26) (v : Word)
  /-- R53 RING_ENABLE: Setting EN of an event or report ring is checked and then initialises the ring header before EN reads 1. -/
  | ringEnable (w : Writer) (page : BitVec 26) (rpt : Bool) (v : Word)
  /-- R54 MSIX_UNMASK: Unmasking an MSI-X vector sends the message that was pending while the vector was masked. -/
  | msixUnmask (w : Writer) (vec : Fin 256)
  /-- R58 OWNER_WRITE: A write to a registry entry's OWNER is accepted or refused by the registry check. -/
  | ownerWrite (w : Writer) (idx : Fin 2048) (v : BitVec 16)
  /-- R57 OWN_ENTRY_LOCK: A write of a registry entry's LOCK freezes OWNER until a reset that clears SYS. -/
  | ownEntryLock (w : Writer) (idx : Fin 2048)
  /-- R33 SELF_TEST_DONE: Self-test and DRAM training complete, fenced units are set, and SYS_CAPS becomes final. -/
  | selfTestDone (t : SelfTest)
  /-- R30 NODE_WRITE: A write of SYS_NODE sets or clears the node ID, and a write of VALID 0 closes the yoke link. -/
  | nodeWrite (w : Writer) (v : Word)
  /-- R63 FABRIC_REQUEST: A master issues a request, which is split at boundaries and routed to the targets it addresses. -/
  | fabricRequest (m : Fin 32) (fid : BitVec 16) (k : AccKind) (addr : BitVec 40) (len : Nat) (data : List Nat) (tag : Option Tag)
  /-- R68 SLOT_GRANT: A target port's arbiter grants a free queue slot to the winning waiting request. -/
  | slotGrant (t : Fin 16)
  /-- R71 FABRIC_RESPONSE: A response with its code returns to the master and frees the request's tag. -/
  | fabricResponse (tag : Fin 1024)
  /-- R83 GUARD_RULE_WRITE: A write to a guard rule register takes effect at the end of its cycle and increments GRD_FENCE.GEN. -/
  | guardRuleWrite (w : Writer) (g : Fin 12) (off : BitVec 12) (v : Word)
  /-- R84 GUARD_DRAINED: The last part judged under an older generation completes, so DRAINED becomes 1 and a DRAIN record is written. -/
  | guardDrained (g : Fin 12)
  /-- R86 GUARD_REGION_LOCK: A write of GRD_RG_CTRL.LOCK freezes the registers of that region. -/
  | guardRegionLock (w : Writer) (g : Fin 12) (k : Fin 64)
  /-- R89 HIT_TAKE: A read of HIT_TAKE attempts to take the hitch and returns the outcome. -/
  | hitTake (w : Writer) (n : Fin 256)
  /-- R90 HIT_RELEASE: A write of RELEASE by the owner frees the hitch or hands it to the longest waiter. -/
  | hitRelease (w : Writer) (n : Fin 256) (rel : Bool)
  /-- R93 HIT_WAIT: A write of HIT_WAIT with a non-zero timeout starts a wait for a hitch, or grants it at once. -/
  | hitWait (w : Writer) (slot : Fin 10) (n : Fin 256) (tmo : BitVec 20)
  /-- R93 HIT_WAIT_CANCEL: A write of HIT_WAIT with timeout 0 cancels the owner's wait. -/
  | hitWaitCancel (w : Writer) (slot : Fin 10)
  /-- R93 HIT_WAIT_TIMEOUT: A hitch wait reaches its timeout and writes a TIMEOUT record. -/
  | hitWaitTimeout (slot : Fin 10)
  /-- R96 HIT_WAIT_READ: A read of HIT_WAIT that returns granted or timed out returns the register to idle. -/
  | hitWaitRead (w : Writer) (slot : Fin 10)
  /-- R92 OWNER_EPOCH_INCREMENT: A reset of a hitch owner increments its epoch, abandons its hitches and cancels its wait. -/
  | ownerEpochIncrement (slot : Fin 10)
  /-- R113 DMC_TOKEN_TAKE: A queued DRAM request takes a token and leaves the fabric queue, which frees its slot. -/
  | dmcTokenTake (n : Fin 8)
  /-- R116 DMC_COMMAND_ISSUE: The controller chooses a request by urgency, slot and open row, and issues its command. -/
  | dmcCommandIssue (n : Fin 8)
  /-- R114 DMC_TOK_WRITE: A write of DMC_TOK is refused if the reserves would sum above 112, and otherwise changes the reserve without withdrawing tokens. -/
  | dmcTokWrite (w : Writer) (n : Fin 8) (m : Fin 32) (v : Word)
  /-- R120 REFRESH_INTERVAL: A refresh interval elapses and adds 1 to the owed count P of each rank. -/
  | refreshInterval (n : Fin 8)
  /-- R120 REFRESH_ISSUE: An owed refresh is issued when no urgent request waits for the rank. -/
  | refreshIssue (n : Fin 8) (rank : Fin 2) (sub : Fin 2)
  /-- R121 MR4_POLL: Every 32 ms the controller reads MR4 and halves or restores the refresh interval. -/
  | mr4Poll (n : Fin 8) (hot : Bool)
  /-- R112 DRAM_INIT_DONE: Initialisation of every mapped line of a channel completes and DMC_INIT.DONE becomes 1. -/
  | dramInitDone (n : Fin 8)
  /-- R122 SR_ENTRY_REQUEST: A write of SR_REQ 1 starts entry to self-refresh. -/
  | srEntryRequest (w : Writer) (n : Fin 8)
  /-- R122 SR_ENTRY: The channel completes entry to self-refresh and its clocks stop. -/
  | srEntry (n : Fin 8)
  /-- R122 SR_EXIT_REQUEST: A write of SR_REQ 0, or a request that arrives, starts exit from self-refresh. -/
  | srExitRequest (n : Fin 8) (cause : Option Writer)
  /-- R122 SR_EXIT: The channel completes exit from self-refresh and tokens are given again. -/
  | srExit (n : Fin 8)
  /-- R123 RETRAIN_CHECK: Every 10 ms the temperature change is compared with DELTA, which can trigger retraining. -/
  | retrainCheck (n : Fin 8)
  /-- R123 RETRAIN_NOW: A write of DMC_TRN.NOW requests retraining. -/
  | retrainNow (w : Writer) (n : Fin 8)
  /-- R123 RETRAIN_STEP: One of the 16 retraining steps holds a subchannel for at most 1.5 µs. -/
  | retrainStep (n : Fin 8) (ok : Bool)
  /-- R124 SCRUB_READ: When no other request is a candidate, the scrubber reads and corrects the next line. -/
  | scrubRead (n : Fin 8)
  /-- R119 QOS_SLOT_WRITE: A write to a QoS slot entry takes effect at once, or at the next slot boundary for the slot in use. -/
  | qosSlotWrite (w : Writer) (n : Fin 8) (copyB : Bool) (slot : Fin 64) (v : Word)
  /-- R118 QOS_SLOT_SWAP_REQUEST: A write of DMC_SLOT_CTRL.SWAP requests a change of copy at the next wrap. -/
  | qosSlotSwapRequest (w : Writer) (n : Fin 8)
  /-- R119 QOS_SLOT_BOUNDARY: A QoS slot ends and the next begins, applying deferred writes. -/
  | qosSlotBoundary (n : Fin 8)
  /-- R128 LOFT_SERVE: A loft port serves one beat and corrects or fails each word by its check byte. -/
  | loftServe (port : Fin 4)
  /-- R129 LOFT_SCRUB: The loft scrubber checks and corrects the next word. -/
  | loftScrub (word : Fin 6291456)
  /-- R130 LOFT_PART_WRITE: A write of LOFT_PART is checked, and EN is set or refused. -/
  | loftPartWrite (w : Writer) (p : Fin 16) (v : Word)
  /-- R133 BAY_DESC_WRITE: A write to a bay descriptor is checked against state, owner and READY, and takes effect or writes DESC_REFUSED. -/
  | bayDescWrite (w : Writer) (b : Fin 8192) (word : Fin 16) (v : Word)
  /-- R136 BAY_ENLIST: A write of BAY_ENLIST moves a bay between UNSET and FREE. -/
  | bayEnlist (w : Writer) (b : Fin 8192) (enlist : Bool)
  /-- R137 BAY_ALLOC: A read of BAY_ALLOC allocates the lowest FREE bay of the class, increments its GEN and returns it. -/
  | bayAlloc (w : Writer) (cls : Fin 16)
  /-- R140 BAY_FREE: A BAY_FREE without FORCE from the owner releases the owner hold, or writes FREE_REFUSED. -/
  | bayFree (w : Writer) (b : Fin 8192) (gen : BitVec 16)
  /-- R140 BAY_FORCE_FREE: A BAY_FREE with FORCE from the host or the MSS drops every hold and mark and frees the bay. -/
  | bayForceFree (w : Writer) (b : Fin 8192) (gen : BitVec 16)
  /-- R144 APERTURE_OPEN: A write of BAY_APT with EN 1 opens an aperture on a held bay, or writes APT_REFUSED. -/
  | apertureOpen (w : Writer) (a : Fin 16) (b : Fin 8192) (gen : BitVec 16)
  /-- R144 APERTURE_CLOSE: A write of BAY_APT with EN 0 closes the aperture and releases its hold. -/
  | apertureClose (w : Writer) (a : Fin 16)
  /-- R156 TIME_STEP_REQUEST: A write of TB_STEP_HI applies the step, or refuses it and holds it pending. -/
  | timeStepRequest (w : Writer) (hi : Word)
  /-- R157 STEP_ACCEPT: A TB_ACCEPT write with ACCEPT and the matching KEY applies the pending step. -/
  | stepAccept (w : Writer) (key : BitVec 16)
  /-- R157 STEP_DISCARD: A TB_ACCEPT write with DISCARD and the matching KEY drops the pending step. -/
  | stepDiscard (w : Writer) (key : BitVec 16)
  /-- R158 TB_RATE_WRITE: A write of TB_RATE by the mode's writer trims the rate, and a write by anyone else writes WRONG_WRITER. -/
  | tbRateWrite (w : Writer) (v : Word)
  /-- R160 SERVO_STATE_WRITE: An MSS write of TB_SERVO sets the lock state and writes a STATE record. -/
  | servoStateWrite (w : Writer) (v : BitVec 3)
  /-- R160 HOLDOVER_EXPIRE: In HOLDOVER, ELAPSED reaching LIMIT moves STATE to UNLOCKED. -/
  | holdoverExpire
  /-- R164 SFD_DETECT: A MAC detects an SFD on a PTP port and takes a latency entry with its preload. -/
  | sfdDetect (port : Fin 18) (align : Nat)
  /-- R165 ENTRY_LATCH: The MSS fetching the PTP trap handler's first instruction latches TB_ENTRY and stops the entry counts. -/
  | entryLatch
  /-- R165 LATENCY_COUNT_SATURATE: A latency entry count reaches 0xFF_FFFF, stops and sets SAT. -/
  | latencyCountSaturate (e : Fin 8)
  /-- R167 TXQ_POP: A read of TB_TXQ_TS_HI pops the oldest transmit stamp. -/
  | txqPop (w : Writer)
  /-- R170 TI_CAPTURE: An enabled time input captures a selected edge in yard time. -/
  | tiCapture (pin : Fin 8) (edge : TiEdge)
  /-- R171 TIME_OUTPUT_ARM: A write of ARM schedules a pulse, or refuses it or misses it when START has passed. -/
  | timeOutputArm (w : Writer) (j : Fin 8)
  /-- R171 TIME_OUTPUT_EDGE: Yard time reaches a scheduled output edge and the pin starts its pulse. -/
  | timeOutputEdge (j : Fin 8)
  /-- R171 TIME_OUTPUT_PULSE_END: A pulse's WIDTH elapses and the pin returns to its inactive level. -/
  | timeOutputPulseEnd (j : Fin 8)
  /-- R175 NET_FRAME_RECEIVE: A NET instance accepts a frame into a packet slot and classifies it, or drops it. -/
  | netFrameReceive (port : Fin 18) (fr : NetFrame) (ago : Nat)
  /-- R176 NET_FRAME_TRANSMIT: A NET instance sends a frame queued by firmware. -/
  | netFrameTransmit (port : Fin 18) (bytes : List Nat) (stamp : Option (Nat × Nat × Nat))
  /-- R175 UNMATCHED_REPLY: The unmatched-queue drover answers an ARP, neighbour discovery, ICMP echo or membership query frame. -/
  | unmatchedReply
  /-- R181 NET_LINK_CHANGE: Block lock or link indication is found or lost, and UP changes with a LINK_UP or LINK_DOWN record. -/
  | netLinkChange (port : Fin 18) (up : Bool) (fec : Bool)
  /-- R182 FEED_DESC_WRITE: A write to a feed descriptor takes effect only while EN is 0. -/
  | feedDescWrite (w : Writer) (f : Fin 512) (word : Fin 32) (v : Word)
  /-- R184 FEED_ENABLE: Setting a feed's EN is checked and either starts the feed or writes FEED_REFUSED. -/
  | feedEnable (w : Writer) (f : Fin 512) (v : Word)
  /-- R196 FEED_DISABLE: Clearing a feed's EN stops matching and leaves the multicast membership when no other feed shares it. -/
  | feedDisable (w : Writer) (f : Fin 512) (v : Word)
  /-- R185 RTP_PACKET: Ingress firmware accepts or rejects a matched RTP packet and places it in its access unit. -/
  | rtpPacket (f : Fin 512)
  /-- R188 AU_TIMEOUT: AU_TIMEOUT elapses after an open access unit's newest packet and closes it. -/
  | auTimeout (f : Fin 512)
  /-- R188 AU_ADMIT: Yard time reaches an access unit's admission stamp A, and the unit is written to the coded ring and queued or dropped. -/
  | auAdmit (f : Fin 512)
  /-- R193 SENDER_REPORT: An RTCP sender report from the feed's source is accepted and maps RTP time to yard time. -/
  | senderReport (f : Fin 512)
  /-- R195 RECEIVER_REPORT_SEND: Every INTERVAL ms firmware sends an RTCP receiver report for each enabled feed. -/
  | receiverReportSend (f : Fin 512)
  /-- R196 MEMBERSHIP_REPORT: Firmware sends an unsolicited IGMPv3 or MLDv2 report for a joined group, repeated ROBUST times. -/
  | membershipReport (port : Fin 18) (f : Fin 512)
  /-- R196 MEMBERSHIP_QUERY: A membership query is answered, or an old-version query writes OLD_QUERIER. -/
  | membershipQuery
  /-- R197 FEED_SILENT: No packet accepted for SILENT ms moves HEALTH to SILENT and writes FEED_SILENT. -/
  | feedSilent (f : Fin 512)
  /-- R204 DEC_PICTURE_START: At a picture boundary the pipeline takes the next waiting slot's oldest record, allocates a bay and begins decoding, or drops the access unit. `switch`: how long the context switch took, in ns, where there was one. -/
  | decPictureStart (n : Fin 8) (switch : Nat)
  /-- R210 AU_RECORD_CONSUME: Entropy decode reads the last byte of an access unit and AU_RD advances. -/
  | auRecordConsume (n : Fin 8)
  /-- R216 DEC_PICTURE_DONE: A picture finishes: READY is set, marks and outputs are updated, and the completion entry is written. `feed`: the feed of the picture. -/
  | decPictureDone (n : Fin 8) (feed : Fin 512)
  /-- R217 CANDIDATE_EXPIRE: KEEP elapses after a later output and CANDIDATE clears from a picture. -/
  | candidateExpire (f : Fin 512)
  /-- R206 DEC_SLOT_WRITE: A write to a decode slot takes effect at once or at DONE, or writes SLOT_REFUSED for a feed bound elsewhere. -/
  | decSlotWrite (w : Writer) (n : Fin 8) (copyB : Bool) (slot : Fin 64) (v : Word)
  /-- R205 DEC_SLOT_SWAP_REQUEST: A write of DEC_SCHED_CTRL.SWAP makes the other copy active at the next wrap, or at once when idle. -/
  | decSlotSwapRequest (w : Writer) (n : Fin 8)
  /-- R227 DEC_FLUSH: A write of DEC_FLUSH restarts a feed's decode and clears its candidates, or writes FLUSH_REFUSED. -/
  | decFlush (w : Writer) (n : Fin 8) (f : Fin 512)
  /-- R230 STALL_DESC_WRITE: A write to a stall descriptor sets its shadows, with CANVAS writable only while disabled. -/
  | stallDescWrite (w : Writer) (n : Fin 4096) (word : Fin 16) (v : Word)
  /-- R235 CANVAS_COMMIT: A write of CMP_CV_CTRL.COMMIT checks the canvas and its stalls and accepts or refuses the commit. -/
  | canvasCommit (w : Writer) (e : Fin 2) (c : Fin 64)
  /-- R234 EPOCH_CUT: Yard time reaches a canvas cut, pending commits take effect, and every stall admits its frame. -/
  | epochCut (e : Fin 2) (c : Fin 64)
  /-- R252 EPOCH_COMMIT: At r_n with all writes acknowledged, the epoch commits its bays and holds, or is missed. -/
  | epochCommit (e : Fin 2) (c : Fin 64) (ack : Option Nat) (led : Bool)
  /-- R252 EPOCH_WRITES_DRAIN: The outstanding writes of a missed epoch complete and its bays and holds are released. -/
  | epochWritesDrain (e : Fin 2) (c : Fin 64)
  /-- R264 HEAD_COMMIT: A write of HD_COMMIT.COMMIT requests a commit of the head's shadows. -/
  | headCommit (w : Writer) (h : Fin 64)
  /-- R264 COMMIT_WINDOW_CLOSE: A frame's commit window closes, and pending shadows are captured and judged. -/
  | commitWindowClose (h : Fin 64)
  /-- R261 FRAME_START: A head starts a frame from a ready bay, or repeats at VMAX, takes its hold, and the gate judges its stalls. -/
  | frameStart (h : Fin 64)
  /-- R260 END_OF_ACTIVE: The last active line of a frame ends: FRAME_END is handed over, blanking begins, and committed values apply. -/
  | endOfActive (h : Fin 64)
  /-- R266 LINE_DUE: An active line falls due, and it is sent or the frame is aborted as an underrun. -/
  | lineDue (h : Fin 64)
  /-- R267 SCANOUT_READ_COMPLETE: A scan-out bay read returns, and a failure makes stalls G from that point of the frame. -/
  | scanoutReadComplete (h : Fin 64)
  /-- R270 HEAD_DISABLE: Clearing a head's ENABLE aborts its frame in progress and clears its verdict history. -/
  | headDisable (w : Writer) (h : Fin 64)
  /-- R281 CRC_HOLD_CLEAR: A host W1C write to GATE_CRC_HOLD ends a canvas's CRC hold. -/
  | crcHoldClear (w : Writer) (e : Fin 4) (hi : Bool) (v : Word)
  /-- R299 BELJA_PACKET_SEND: At a slot turn, or ahead of turns for FRAME_START and ABORT, a lane sends a head's oldest queued packet. -/
  | beljaPacketSend (l : Fin 64)
  /-- R289 BELJA_IDLE_TIMER: BL_IDLE.INT elapses with no packet of a head on a lane, and an IDLE packet is queued. -/
  | beljaIdleTimer (l : Fin 64) (h : Fin 64)
  /-- R300 BL_SCHED_WRITE: A write to a lane schedule slot takes effect at once or after the packet in use, or is refused. -/
  | blSchedWrite (w : Writer) (e : Fin 4) (copy : Bool) (l : Fin 64) (hi : Bool) (v : Word)
  /-- R300 BL_SCHED_SWAP_REQUEST: A write of BL_SCHED_CTRL.SWAP requests a copy change on each lane, or is refused. -/
  | blSchedSwapRequest (w : Writer) (e : Fin 4)
  /-- R300 BL_LANE_WRAP: A lane passes from slot 7 to slot 0 and swaps copies if requested, writing SCHED_SWAP when all lanes have swapped. -/
  | blLaneWrap (l : Fin 64)
  /-- R286 RECEIVER_ALIGN_ACQUIRE: A receiver acquires symbol alignment after three clean /I/. -/
  | receiverAlignAcquire (h : Fin 64) (input : Fin 2) (lane : LaneRate)
  /-- R286 RECEIVER_ALIGN_LOSS: A receiver loses alignment on four code-group errors within 64. -/
  | receiverAlignLoss (h : Fin 64) (input : Fin 2) (lane : Fin 4)
  /-- R305 RECEIVER_PACKET: A receiver judges a valid packet by claim and frame number and accepts or discards it. -/
  | receiverPacket (h : Fin 64) (input : Fin 2) (lane : Fin 4) (clean : Bool) (d : List Nat)
  /-- R306 RECEIVER_LINE_PRESENT: A line's presentation time arrives and the receiver shows it, the previous frame's line, or no-signal. -/
  | receiverLinePresent (h : Fin 64)
  /-- R307 RECEIVER_LOSS_TIMEOUT: T_LOSS elapses without a valid packet or FRAME_START, and the receiver blanks. -/
  | receiverLossTimeout (h : Fin 64)
  /-- R308 RECEIVER_STATUS_SEND: A receiver sends its status datagram every second or after a change. -/
  | receiverStatusSend (h : Fin 64)
  /-- R311 PLL_LOCKED: A quad PLL locks and its lanes leave electrical idle. -/
  | pllLocked (q : Fin 16) (k : Fin 2)
  /-- R311 PLL_LOST: A quad PLL loses lock, or fails to lock within 1 ms, and its lanes return to idle. -/
  | pllLost (q : Fin 16) (k : Fin 2)
  /-- R311 PLL_RETRY: Every 1 ms a lost quad PLL retries its lock. -/
  | pllRetry (q : Fin 16) (k : Fin 2)
  /-- R314 LOS_CHANGE: A receiving lane's input crosses the LOS thresholds, writing LOS_ON or LOS_OFF. -/
  | losChange (l : Fin 64) (los : Bool)
  /-- R316 PATTERN_CHECK_LOCK: A pattern checker locks or unlocks and writes PAT_LOCK or PAT_UNLOCK. Its bits arrive: `rx`, `good` without
  an error, `more`. -/
  | patternCheckLock (l : Fin 64) (rx : List Bool) (good : Nat) (more : List Bool)
  /-- R316 INJECT_ONE: A write of INJ_ONE inverts the next generated bit. -/
  | injectOne (w : Writer) (l : Fin 64)
  /-- R320 CVU_DATA_WRITE: A write of CVU_DATA feeds four bytes into the unit's block. -/
  | cvuDataWrite (w : Writer) (u : Fin 24) (v : Word)
  /-- R320 CVU_DATA_B_WRITE: A write of CVU_DATA_B feeds one byte into the unit's block. -/
  | cvuDataBWrite (w : Writer) (u : Fin 24) (v : BitVec 8)
  /-- R321 CVU_END: A write of CVU_END closes the block and pushes or checks its value. -/
  | cvuEnd (w : Writer) (u : Fin 24)
  /-- R320 CVU_SNOOP_BLOCK: A snooped write request or network frame forms a block whose value is pushed, appended or checked. -/
  | cvuSnoopBlock (u : Fin 24) (k : Nat)
  /-- R324 CVU_RESULT_POP: A read of CVU_RES_HI pops the oldest result. -/
  | cvuResultPop (w : Writer) (u : Fin 24)
  /-- R327 ENC_CHANNEL_ENABLE: Setting a recording channel's EN is checked, and the channel starts or writes CH_REFUSED. -/
  | encChannelEnable (w : Writer) (p : Fin 2) (k : Fin 32) (v : Word)
  /-- R330 TAP_RECORD_COMPLETE: At FRAME_END with all writes acknowledged, the tap completes the record bay and queues it. -/
  | tapRecordComplete (p : Fin 2) (k : Fin 32)
  /-- R339 ENC_PICTURE_START: The encode pipeline takes the next queued bay and checks ring room before it encodes. -/
  | encPictureStart (p : Fin 2)
  /-- R336 ENC_PICTURE_DONE: A picture's record is written to the ring and ENC_CH_WR advances. -/
  | encPictureDone (p : Fin 2) (c : EncCoded)
  /-- R337 ENC_STREAM_SEND: The drover sends a record's access unit as RTP and advances ENC_CH_RD. -/
  | encStreamSend (p : Fin 2) (k : Fin 32) (port : Fin 18) (sr : Bool)
  /-- R342 SCAN_FRAME_START: A touch scan frame, or a calibration frame in its place, begins at the scan rate. -/
  | scanFrameStart (p : Fin 2)
  /-- R345 SCAN_FRAME_END: At the end of a scan frame the port updates noise, baselines and contacts, judges them and writes reports. -/
  | scanFrameEnd (p : Fin 2) (m : List Nat) (lcur : Nat) (lcand : Nat)
  /-- R354 KEY_FRAME: A key frame measures every enabled key channel and writes key, slider and wheel reports. -/
  | keyFrame (counts : List Nat)
  /-- R363 YK_LOWER: A write of YK_LOWER below the current claim lowers the claim and sends a CLAIM frame. -/
  | ykLower (w : Writer) (v : BitVec 8)
  /-- R363 YK_SET: An MSS write of YK_SET sets the claim, or writes SET_REFUSED. -/
  | ykSet (w : Writer) (v : BitVec 8)
  /-- R373 YOKE_TRAIN: Yoke training completes with a lane width and a HELLO exchange, or is held down. -/
  | yokeTrain (aligned : BitVec 4)
  /-- R370 YOKE_FRAME_RECEIVE: A yoke frame is received, checked and delivered in order, or held, discarded or NAKed. -/
  | yokeFrameReceive (bytes : List Nat) (fr : Option NetFrame)
  /-- R370 YOKE_ACK_TIMER: Every 10 µs ACK and credit returns are sent, in a LINK frame if nothing else is sent. -/
  | yokeAckTimer
  /-- R370 YOKE_REPLAY_TIMEOUT: 50 µs without ACK progress resends unacknowledged frames with REPLAY set. -/
  | yokeReplayTimeout (v : Fin 5)
  /-- R370 YOKE_SILENCE_TIMEOUT: 100 µs without a valid frame takes the link down and moves the unit to SPLIT. -/
  | yokeSilenceTimeout
  /-- R375 YOKE_RETRY: Every 1 s a SPLIT or refused unit returns to SEEKING and trains again. -/
  | yokeRetry
  /-- R376 YOKE_TIME_SEND: Every 1 ms a unit sends a TIME frame, and the wheel trims or steps yard time. -/
  | yokeTimeSend
  /-- R374 YOKE_JOIN_START: An offset held within limit for 1 s moves the team to JOINING and the lead sends snapshot sections. -/
  | yokeJoinStart
  /-- R377 FWD_DROP: A FWD frame without credit for 1 ms is dropped and counted. -/
  | fwdDrop
  /-- R377 MERGE_EMIT: A pending entry whose merge window has passed is numbered, sent as MERGE and given to ingress. -/
  | mergeEmit
  /-- R377 MERGE_MARK_SEND: Every 50 µs the lead sends a MARK frame. -/
  | mergeMarkSend
  /-- R381 CHECK_HOLD_EXPIRE: An unmatched check value outlasts its hold and a MISSING divergence is recorded. -/
  | checkHoldExpire
  /-- R383 SAMPLES_LOST: No complete sample set for 3 scan periods ends the mirror page's contacts and writes SAMPLES_LOST. -/
  | samplesLost (p : Fin 2)
  /-- R385 HEARTBEAT: Every YK_HB.INT ms the unit sends a HEARTBEAT to the yardmaster. -/
  | heartbeat
  /-- R387 SET_CLAIM: A SET_CLAIM message is verified and applied or refused, and a RESULT is sent. -/
  | setClaim (m : Option SetClaimMsg)
  /-- R393 MSS_BOOT_STAGE: An MSS boot stage completes and the next begins, or the device enters recovery. -/
  | mssBootStage (ok : Bool)
  /-- R394 LOCKSTEP: A lockstep mismatch drops the claim, restarts the MSS and writes LOCKSTEP. -/
  | lockstep (a : Word) (b : Word)
  /-- R451 MSS_WATCHDOG_EXPIRE: The watchdog period expires, resetting the MSS and writing WATCHDOG. -/
  | mssWatchdogExpire
  /-- R451 WATCHDOG_KICK: An MSS write of KICK restarts the watchdog period. -/
  | watchdogKick (w : Writer)
  /-- R397 SENSOR_SAMPLE: Every PERIOD ms the sensors are sampled and warnings are recorded. -/
  | sensorSample (temps : List Nat) (volts : List Nat)
  /-- R398 LOG_EMIT: An MSS write of MSS_LOG_CODE emits one record with the staged DATA. -/
  | logEmit (w : Writer) (code : BitVec 16)
  /-- R402 DBK_CLEAR: An MSS write of DBK_CLEAR empties the daybook and writes CLEARED. -/
  | dbkClear (w : Writer)
  /-- R403 SAG_DETECT: PFAIL_N or a watched rail detects a sag, dropping the claim and starting the save. -/
  | sagDetect (rail : Option (Fin 15))
  /-- R404 SAG_TAIL: TAIL after detection every head stops, lanes idle, and the fast domains are held in reset. -/
  | sagTail
  /-- R404 SAVE_DONE: The NVM save completes, NVM_VCC is switched off, and SAVE_DONE or SAVE_FAIL is written. -/
  | saveDone (us : Nat) (resp : Bool)
  /-- R407 SAG_RESTART: The supply returns and stays good for SAG_SETTLE, and the device resets with cause SAG_RESTART. -/
  | sagRestart
  /-- R407 VHOLD_COLLAPSE: VHOLD falls below 2.7 V and the always-on domain stops. -/
  | vholdCollapse
  /-- R409 VHOLD_CHARGE_CHANGE: VHOLD crosses the charge thresholds and CHARGED changes. -/
  | vholdChargeChange (mv : Nat)
  /-- R405 MIRROR_BATCH: Every BATCH ms newly appended records are mirrored to the NVM and a header is written. -/
  | mirrorBatch (resp : Bool) (how : BatchEnd)
  /-- R414 FARRIER_TRIGGER_CHECK: Every 100 ms a temperature change beyond DELTA starts a farrier run. -/
  | farrierTriggerCheck
  /-- R414 FARRIER_RUN_REQUEST: A write of FAR_CTRL.RUN starts a run, or queues one behind the run in progress. -/
  | farrierRunRequest (w : Writer)
  /-- R415 FARRIER_RUN_END: A run's second pass ends and new values are applied, or the run is rejected. -/
  | farrierRunEnd (a : List Nat) (b : List Nat) (vrefBad : Bool) (crefBad : Bool)
  /-- R416 FARRIER_VALUE_WRITE: A host write of a farrier value sets it and sets SOURCE to HOST. -/
  | farrierValueWrite (w : Writer) (ix : Fin 192) (v : Word)
  /-- R427 UPDATE_OPEN: OPEN starts a staging session and erases slot B, or is refused. -/
  | updateOpen (r : UpdReq)
  /-- R427 SLOT_ERASE_DONE: Erase of slot B completes and the session begins RECEIVING. -/
  | slotEraseDone
  /-- R428 UPDATE_BLOCK: A block write takes bytes from UPD_BUF to the NOR at UPD_OFFSET, or is refused. -/
  | updateBlock (r : UpdReq)
  /-- R428 BLOCK_WRITE_DONE: A block's bytes are in the NOR and UPD_BLOCK.BUSY clears. -/
  | blockWriteDone
  /-- R427 UPDATE_CLOSE: CLOSE starts the check of the whole package, or is refused as INCOMPLETE. -/
  | updateClose (r : UpdReq)
  /-- R423 VERIFY_DONE: The package check ends with STAGED or VERIFY_FAIL. -/
  | verifyDone (norOk : Bool)
  /-- R427 UPDATE_ABORT: ABORT ends the session and leaves slot B invalid. -/
  | updateAbort (r : UpdReq)
  /-- R431 UPDATE_ACTIVATE: ACTIVATE writes the marker, lowers the claim to 0, and schedules the reset. -/
  | updateActivate (r : UpdReq) (norOk : Bool)
  /-- R431 ACTIVATE_GRACE_EXPIRE: GRACE elapses after activation and the device resets with cause SOFT. -/
  | activateGraceExpire
  /-- R429 UPDATE_STATUS: A STATUS message returns UPD_STATE, UPD_RECEIVED and UPD_STAGED. -/
  | updateStatus (r : UpdReq)
  /-- R435 UPDATE_RECOVER: A write of UPD_CTRL.RECOVER restarts the device into ROM recovery mode. -/
  | updateRecover (w : Writer)
  /-- R426 SLOT_COPY_DONE: The copy of slot B to slot A ends and writes COPY_DONE or COPY_FAIL. -/
  | slotCopyDone (fail : Option (Fin 3))
  /-- R432 UPDATE_HANDOVER: HANDOVER checks and loads the staged drover component for a live handover. -/
  | updateHandover (w : Writer)
  /-- R432 HANDOVER_INTERRUPT: At the first cut after the load the MSS interrupts every drover to write the handover record. -/
  | handoverInterrupt
  /-- R432 HANDOVER_READY: A drover write of UPD_HO_READY signals the record written or the new image running. -/
  | handoverReady (w : Writer)
  /-- R432 HANDOVER_TIMEOUT: LIMIT ms pass without READY and the old image is restarted with HO_FAIL. -/
  | handoverTimeout
  /-- R445 STABLE_REQUEST: A write of PWR_CTRL.STABLE starts entry to the stabled state, or is refused. -/
  | stableRequest (w : Writer)
  /-- R446 STABLED: Entry completes with clocks stopped and STABLED is written. -/
  | stabled
  /-- R447 WAKE_REQUEST: A write of PWR_CTRL.WAKE latches a host wake cause. -/
  | wakeRequest (w : Writer)
  /-- R447 WAKE_ALARM: Yard time reaches PWR_WAKE_AT and a wake starts. -/
  | wakeAlarm
  /-- R446 WAKE_COMPLETE: PLLs lock, channels exit self-refresh, and STATE becomes ACTIVE with a WAKE record. -/
  | wakeComplete
  /-- R446 DROVER_RELEASE: After the drover code check the MSS releases the drovers from reset. -/
  | droverRelease
  /-- R449 POWER_ON_RESET: VHOLD rising above 4.0 V clears everything and sets yard time UNSET. -/
  | powerOnReset
  /-- R449 RESET_N_ASSERT: RESET_N low clears everything except the always-on domain. -/
  | resetNAssert
  /-- R450 RESET_RELEASE: RESET_N rising lets the ROM begin stage 0. -/
  | resetRelease (pfailLow : Bool) (recoveryLow : Bool)
  /-- R451 SYS_RESET_GO: A host or MSS write of SYS_RESET.GO resets the device with cause SOFT. -/
  | sysResetGo (w : Writer)
  /-- R449 PCI_RESET: PERST_N, hot reset, link down or FLR resets the PCI page, the DMA engine and MSI-X, and increments the host epoch. -/
  | pciReset (kind : Fin 4)
  /-- R443 PLL_FAIL: A device PLL not locked within 1 ms writes PLL_FAIL and retries. -/
  | pllFail (k : Fin 16)
  /-- R444 REF_CLOCK_CHANGE: A reference clock input is lost or found, writing REF_LOST or REF_FOUND. -/
  | refClockChange (ix : Fin 4) (found : Bool)
  /-- R463 PCIE_LINK_CHANGE: The PCI Express link's state, speed or width changes and a LINK record is written. -/
  | pcieLinkChange (up : Bool) (speed : Fin 5) (width : Fin 9)
  /-- R460 PCIE_COMPLETION_TIMEOUT: An outbound read exceeds PCI_CPL_TO and returns TGTERR to its master. -/
  | pcieCompletionTimeout (tag : Fin 1024)
  /-- R462 DMA_TAIL_WRITE: A write of PCI_DMA_TAIL posts descriptors for the DMA engine. -/
  | dmaTailWrite (w : Writer) (idx : BitVec 16)
  /-- R462 DMA_DESCRIPTOR_DONE: A DMA descriptor completes or fails, updating STATUS and HEAD and possibly stopping the engine. -/
  | dmaDescriptorDone
  /-- R462 DMA_RESUME: A W1C write of STOPPED resumes the engine at the next descriptor. -/
  | dmaResume (w : Writer)
  /-- R456 GPIO_WRITE: A write of a GPIO register changes only the bits of balls that the writer owns. -/
  | gpioWrite (w : Writer) (oe : Bool) (k : Fin 8) (v : Word)
  /-- R478 TEST_UNLOCK: A write of TST_UNLOCK.KEY unlocks test access, or writes UNLOCK_REFUSED. -/
  | testUnlock (w : Writer) (key : BitVec 16)
  /-- R479 TEST_RELOCK: A write of TST_UNLOCK.LOCK relocks, stops perturbations and returns taken balls. -/
  | testRelock (w : Writer)
  /-- R480 TEST_SEED_WRITE: A write of TST_SEED reloads every perturbation LFSR. -/
  | testSeedWrite (w : Writer) (v : Word)
  /-- R482 MUX_TAKE: A TST_MUX write with EN 1 takes a ball and drives an internal signal on it, or writes MUX_REFUSED. -/
  | muxTake (w : Writer) (k : Fin 4) (ball : BitVec 8) (signal : BitVec 16)
  /-- R482 MUX_RETURN: A TST_MUX write with EN 0 returns the ball to its owner. -/
  | muxReturn (w : Writer) (k : Fin 4) (ball : BitVec 8) (signal : BitVec 16)
  /-- R484 DEBUG_REQUEST: The debug port issues a fabric request through its TAP as master 31. -/
  | debugRequest (k : AccKind) (addr : BitVec 40) (len : Nat) (data : List Nat)
  /-- R156 SLEW_ABSORBED: TB_SLEW falls to 0 as the withheld time is absorbed, so yard time resumes full rate and STATUS.SLEWING clears. -/
  | slewAbsorbed
  /-- R197 FEED_DEGRADED_LAPSE: 1,000 ms pass after the last access unit with LOSS or GAP, and a feed's HEALTH moves from DEGRADED to LIVE. -/
  | feedDegradedLapse (f : Fin 512)
  /-- R261 VMIN_REACHED: A head's blanking reaches VMIN with no bay ready, and HD_STATE.PHASE moves from BLANK to WAIT. -/
  | vminReached (h : Fin 64)
  /-- R443 DEVICE_PLL_LOCK: A core, MSS, codec, drover or DMC PLL locks, CLK_STAT.LOCK sets, and the datapath of its enabled blocks starts. -/
  | devicePllLock (k : Fin 16)
  /-- R443 CODEC_PLL_IDLE_STOP: 1 ms after the last DEC or ENC page is disabled, the codec PLL stops. -/
  | codecPllIdleStop
  /-- R314 CDR_LOCK_CHANGE: A receiving lane's clock recovery gains or loses lock, and STATUS.CDR_LOCK changes. -/
  | cdrLockChange (l : Fin 64) (locked : Bool)
deriving DecidableEq, Repr

end Sys2Proof
end

