-- ==== Sys2Proof/Decode.lean ====
section
/-! DEFINITION. The command a table word spells. spec/opcode_table.json gives no bits for any row, so no word spells a
command (log entry 2). -/

namespace Sys2Proof

/-- The command that a word of `nbits` bits spells by the table's bits: none, because the table gives none. -/
def decodeTableWord (_nbits _w : Nat) : Option Instr := none

end Sys2Proof
end

