-- ==== Sys2Proof/Machine/Bits.lean ====
section
/-! DEFINITION. Bit fields, two's complement readings, little-endian byte lists, saturating counts and CRC-32C (R5, R6). -/

namespace Sys2Proof.Machine

/-- Bits `[lo + w - 1 : lo]` of `v`. -/
def bits (v lo w : Nat) : Nat := v / 2 ^ lo % 2 ^ w

/-- Bit `i` of `v`. -/
def bit (v i : Nat) : Bool := v / 2 ^ i % 2 = 1

/-- `v` with bit `i` set. -/
def setBit (v i : Nat) : Nat := if bit v i then v else v + 2 ^ i

/-- `v` with bit `i` cleared. -/
def clrBit (v i : Nat) : Nat := if bit v i then v - 2 ^ i else v

/-- The bits of `v` that are 0 in `m`. -/
def andNot (v m : Nat) : Nat := v - (v &&& m)

/-- The two's complement reading of a `w`-bit number. -/
def sint (w v : Nat) : Int := if v % 2 ^ w < 2 ^ (w - 1) then (v % 2 ^ w : Nat) else (v % 2 ^ w : Nat) - (2 ^ w : Nat)

/-- The `w`-bit two's complement pattern of an integer. -/
def uint (w : Nat) (i : Int) : Nat := (i % (2 ^ w : Nat)).toNat

/-- `v + 1`, staying at the largest 32-bit value (the saturating counters). -/
def sat32 (v : Nat) : Nat := if v + 1 < 2 ^ 32 then v + 1 else 2 ^ 32 - 1

/-- `v + n`, staying at the largest `w`-bit value. -/
def satAdd (w v n : Nat) : Nat := if v + n < 2 ^ w then v + n else 2 ^ w - 1

/-- `n` little-endian bytes of `v` (R5). -/
def leBytes (v : Nat) : Nat → List Nat
  | 0 => []
  | n + 1 => v % 256 :: leBytes (v / 256) n

/-- `n` big-endian bytes of `v`. -/
def beBytes (v n : Nat) : List Nat := (leBytes v n).reverse

/-- The number a little-endian byte list spells (R5). -/
def ofLE : List Nat → Nat
  | [] => 0
  | b :: t => b % 256 + 256 * ofLE t

/-- The number a big-endian byte list spells. -/
def ofBE (l : List Nat) : Nat := ofLE l.reverse

/-- `l` cut or padded with zeros to `n` bytes. -/
def padTo (n : Nat) (l : List Nat) : List Nat := (l ++ List.replicate (n - l.length) 0).take n

/-- `v` kept within `lo` and `hi`. -/
def clamp (lo hi v : Int) : Int := if v < lo then lo else if hi < v then hi else v

/-- Division rounding towards minus infinity. -/
def floorDiv (a b : Int) : Int := Int.fdiv a b

/-- One bit of the reflected CRC with polynomial `poly` (already reflected). -/
def crcBit (poly c : Nat) : Nat := if c % 2 = 1 then (c / 2) ^^^ poly else c / 2

/-- Eight bits of the reflected CRC over one byte. -/
def crcByte (poly c b : Nat) : Nat :=
  crcBit poly (crcBit poly (crcBit poly (crcBit poly (crcBit poly (crcBit poly (crcBit poly (crcBit poly (c ^^^ b))))))))

/-- The running CRC-32C register over bytes (R6): 0x1EDC_6F41 reflected is 0x82F6_3B78. -/
def crc32cRun (c : Nat) : List Nat → Nat
  | [] => c
  | b :: t => crc32cRun (crcByte 0x82F63B78 c b) t

/-- CRC-32C of a byte list (R6). -/
def crc32c (l : List Nat) : Nat := crc32cRun 0xFFFFFFFF l ^^^ 0xFFFFFFFF

/-- The little-endian number in bytes `off … off + n − 1` of a message or record. -/
def recNum (l : List Nat) (off n : Nat) : Nat := ofLE ((l.drop off).take n)

/-- The numbers `0 … n - 1`. -/
def upTo (n : Nat) : List Nat := List.range n

/-- The first element of a list that passes `p`. -/
def firstWhere {α : Type} (p : α → Bool) (l : List α) : Option α := l.find? p

/-- The position of the first element that passes `p`. -/
def firstIdx {α : Type} (p : α → Bool) : List α → Option Nat
  | [] => none
  | a :: t => if p a then some 0 else (firstIdx p t).map (· + 1)

/-- Replace the elements that pass `p` by `f` of them. -/
def mapWhere {α : Type} (p : α → Bool) (f : α → α) (l : List α) : List α := l.map fun a => if p a then f a else a

/-- Split off the first element that passes `p`. -/
def takeFirst {α : Type} (p : α → Bool) : List α → Option (α × List α)
  | [] => none
  | a :: t => if p a then some (a, t) else (takeFirst p t).map fun r => (r.1, a :: r.2)

end Sys2Proof.Machine
end

