-- ==== Sys2Proof/Machine/Ecc.lean ====
section
/-! DEFINITION. The SECDED check bytes of words and metadata and the decoding of syndromes (R104 to R106, R129). -/

namespace Sys2Proof.Machine

/-- How many of the low eight bits of a number are 1. -/
def pop8 (v : Nat) : Nat := (upTo 8).foldl (fun c i => c + v / 2 ^ i % 2) 0

/-- The 8-bit values with exactly `k` bits set, ascending. -/
def withBits (k : Nat) : List Nat := (upTo 256).filter fun v => decide (pop8 v = k)

/-- The columns of data bits 0 to 63 (R104). -/
def dataCols : List Nat := withBits 3 ++ [0x1F, 0x2F, 0x37, 0x3B, 0x3D, 0x3E, 0x4F, 0x57]

/-- The columns of the folded address bits, k = 0 to 33 (R104). -/
def addrCols : List Nat := withBits 2 ++ [0x0F, 0x17, 0x1B, 0x1D, 0x1E, 0x27]

/-- XOR of the columns of the bits of `v` that are 1. -/
def foldCols : List Nat → Nat → Nat
  | [], _ => 0
  | c :: t, v => (if v % 2 = 1 then c else 0) ^^^ foldCols t (v / 2)

/-- The check byte of a data word at DRAM or loft offset `a` (R104, R129). -/
def wordCheck (data a : Nat) : Nat := foldCols dataCols data ^^^ foldCols addrCols (a / 8 % 2 ^ 34)

/-- The check byte of line metadata at DRAM offset `a` (R105): the line offset bits A[36:6] are folded in. -/
def metaCheck (m a : Nat) : Nat := foldCols (withBits 3) m ^^^ foldCols (addrCols.take 31) (a / 64 % 2 ^ 31)

/-- What a syndrome says (R106): good, one bit of data or check to invert, or uncorrectable. -/
inductive Decoded where
  | good
  | dataBit (i : Nat)
  | checkBit
  | bad
deriving DecidableEq, Repr

/-- Decode a syndrome against the columns of the data bits (R106). -/
def decodeSyn (cols : List Nat) (syn : Nat) : Decoded :=
  if syn = 0 then .good
  else match firstIdx (fun c => decide (c = syn)) cols with
    | some i => .dataBit i
    | none => if pop8 syn = 1 then .checkBit else .bad

/-- Invert bit `i` of a number. -/
def flipBit (v i : Nat) : Nat := v ^^^ 2 ^ i

/-- The word as delivered: corrected where one bit is wrong; none where it is uncorrectable. -/
def correctWord (data syn : Nat) : Option Nat :=
  match decodeSyn dataCols syn with
  | .good => some data
  | .dataBit i => some (flipBit data i)
  | .checkBit => some data
  | .bad => none

end Sys2Proof.Machine
end

