-- ==== Sys2Proof/Config.lean ====
section
/-! DEFINITION. What an implementation fixes and what the spec leaves open: constants without a body, so that no proof can
see a value of them. A statement about one holds whatever it is. -/

namespace Sys2Proof

/-- The free values: a value the spec leaves open is `Config.free n`, with `n` the count of free values drawn so far
(log entry 5). -/
opaque Config.free : Nat → Nat

/-- Free values that come as a whole picture or table: element `i` of the `n`-th draw is `Config.freeAt n i` (log entry 5). -/
opaque Config.freeAt : Nat → Nat → Nat

/-- The fuse value of farrier word `i`, counted from offset 0x400 of the FAR page (R413, R417: reset "fuses"). -/
opaque Config.farFuse : Nat → Nat

/-- The device's unique ID in the fuses (R406). -/
opaque Config.fuseUid : Nat

/-- The key hash in the fuses (R420, R423), as a list of byte values. -/
opaque Config.fuseKeyHash : List Nat

/-- SHA-384 (FIPS 180-4) of a byte list; the spec names the standard and gives no text of it (R420). -/
opaque Config.sha384 : List Nat → List Nat

/-- ECDSA P-384 verification (FIPS 186-5): public key, digest, signature; the spec names the standard only (R420). -/
opaque Config.ecdsaOk : List Nat → List Nat → List Nat → Bool

/-- One step of a page's perturbation LFSR; R480 gives its width and no polynomial. -/
opaque Config.lfsrStep : Nat → Nat

/-- Whether an LFSR state chooses the event considered at a RATE other than 0 (R480 gives the probability only). -/
opaque Config.lfsrPick : Nat → Nat → Bool

/-- The parse of an access unit's headers by H.264 (false) or H.265 (true), from the context's private bytes and the coded bytes; the
spec names the standards only (R200, R208; log entry 12). -/
opaque Config.auHead : Bool → List Nat → List Nat → AuHead

/-- Entropy decode of an access unit by its standard, from the private bytes, the coded bytes and the reference pictures (R200,
R223; log entry 12). -/
opaque Config.auBody : Bool → List Nat → List Nat → List RefDesc → AuBody

/-- The samples that the standard's reconstruction and in-loop filters give, from the private bytes, the coded bytes and what the
picture's reference reads delivered: luma row by row; then Cb and Cr interleaved, row by row (R200, R223; log entry 12). -/
opaque Config.decodeSamples : Bool → List Nat → List Nat → List (List Nat) → List Nat × List Nat

/-- The coding of a picture by H.265 Main profile: one function for every FQ960 (R332, which names the standard and leaves the search and
the decisions open; log entry 180). -/
opaque Config.encCode : EncIn → EncCoded

/-- Where the firmware configuration sends the stream of channel `k` of all (32 × pipeline + channel): IPv6, address, destination port,
own port (R337; log entry 181). -/
opaque Config.streamDest : Nat → Bool × Nat × Nat × Nat

/-- The RTP SSRC of a channel's stream (R337, RFC 3550; log entry 181). -/
opaque Config.streamSsrc : Nat → Nat

/-- The RTP sequence number of a stream's first packet (R337, RFC 3550; log entry 181). -/
opaque Config.streamSeq : Nat → Nat

/-- The largest RTP payload of a stream, as drover firmware sets it (R337; log entry 181). -/
opaque Config.streamMtu : Nat → Nat

/-- The fixed delay D of a receiver, in ns (R306): set in the receiver. -/
opaque Config.rcvDelay : Nat → Nat

/-- A receiver's serial number (R308). -/
opaque Config.rcvSerial : Nat → Nat

/-- The version of the snapshot sections that this unit's images write (R368, R374). -/
opaque Config.snapVersion : Nat

/-- Snapshot section versions that this unit's images understand (R374). -/
opaque Config.snapAccepts : Nat → Bool

/-- The guard region by which the MSS protects the drover code area, taken modulo 64: R459 does not number it (log entry 169). -/
opaque Config.codeRegion : Nat

/-- Where the 64 KiB area of MSS SRAM for the frames of the stabled state begins: R445 does not say (log entry 170). -/
opaque Config.stabledArea : Nat

/-- Handover record versions that the new drover image accepts (R433). -/
opaque Config.hoAccepts : Nat → Bool

end Sys2Proof
end

