-- ==== Sys2Proof/Machine/RegsA.lean ====
section
/-! DEFINITION. The register fields of the system, fabric, memory, yard, time, host and test pages, one descriptor per
field of the register tables of spec/ (rules R29 to R57, R79, R87, R96, R126, R131, R134, R151, R173, R398, R402, R410, R417,
R436, R444 to R463, R480, R485): offset, lowest bit, width, access type, reset value. -/

namespace Sys2Proof.Machine

/-- Reset of `XB_PARK t.MASTER` (R65). -/
def xbParkMasterRst (t : Nat) : Nat :=
  if t < 8 then 22 + t % 4 else if t < 12 then 26 else if t = 12 then 0 else if t = 13 then 30
  else if t = 14 then 1 else 0

/-- Reset of `XB_TAGS m.LIMIT` (R64). -/
def xbTagsRst (m : Nat) : Nat :=
  if m = 0 then 64 else if m = 1 then 16 else if m ≤ 19 then 64 else if m ≤ 21 then 128
  else if m ≤ 25 then 96 else if m = 26 then 64 else if m = 27 then 32 else if m = 28 then 8
  else if m = 29 then 32 else if m = 30 then 64 else 16

/-- Reset of `DMC_LAT m.TARGET` (R127). -/
def dmcLatRst (m : Nat) : Nat :=
  if m = 0 ∨ m = 30 then 2000 else if m = 1 then 2000 else if m ≤ 9 then 300
  else if m ≤ 19 then 1000 else if m ≤ 21 then 500 else if m ≤ 25 then 200
  else if m ≤ 29 then 500 else 100

/-- Reset of `DMC_TOK m.RESERVE` (R127). -/
def dmcTokRst (m : Nat) : Nat :=
  if m = 0 ∨ m = 30 then 2 else if m = 1 then 1 else if m ≤ 9 then 1 else if m ≤ 19 then 4
  else if m ≤ 21 then 8 else if m ≤ 25 then 8 else if m = 26 then 4 else if m = 27 then 2
  else if m = 28 then 1 else if m = 29 then 2 else 0

/-- Nominal value of voltage sensor `v`, in mV (R396). -/
def vsNominal (v : Nat) : Nat :=
  match v with
  | 0 => 750 | 1 => 750 | 2 => 800 | 3 => 850 | 4 => 800 | 5 => 1100 | 6 => 1100 | 7 => 1800
  | 8 => 900 | 9 => 900 | 10 => 1200 | 11 => 900 | 12 => 1800 | 13 => 3300 | 14 => 3300 | _ => 5000

/-- Reset of `MSS_VS_LIM v.LOW`: nominal minus 5 %, truncated to whole mV (R396). -/
def vsLowRst (v : Nat) : Nat := vsNominal v * 95 / 100

/-- Reset of `MSS_VS_LIM v.HIGH`: nominal plus 5 %, truncated to whole mV (R396). -/
def vsHighRst (v : Nat) : Nat := vsNominal v * 105 / 100

/-- Reset of `MSS_VS_SAG v.SAG` (R396); sensor 15 is not watchable and reads 0. -/
def vsSagRst (v : Nat) : Nat :=
  match v with
  | 0 => 700 | 1 => 700 | 2 => 740 | 3 => 790 | 4 => 740 | 5 => 1020 | 6 => 1020 | 7 => 1650
  | 8 => 830 | 9 => 830 | 10 => 1110 | 11 => 830 | 12 => 1650 | 13 => 3000 | 14 => 3000 | _ => 0

/-- Reset of `MSS_VS_SAG v.WATCH` (R396). -/
def vsWatchRst (v : Nat) : Nat := if v = 0 ∨ v = 14 then 1 else 0

/-- Reset of `DBK_FILT_SRC k.SOURCE` (R401). -/
def dbkSrcRst (k : Nat) : Nat :=
  match k with
  | 0 => 0x0100 | 1 => 0x1700 | 2 => 0x1A00 | 3 => 0x1E00 | 4 => 0x0C00 | 5 => 0x1600 | 6 => 0x0700
  | 7 => 0x1100 | _ => 0

/-- Reset of `DBK_FILT_SRC k.ANY_INST` (R401). -/
def dbkAnyRst (k : Nat) : Nat := if k = 6 ∨ k = 7 then 1 else 0

/-- Reset of `DBK_FILT_SRC k.EN`: filters 8 to 15 reset disabled (R401). -/
def dbkEnRst (k : Nat) : Nat := if k < 8 then 1 else 0

/-- Reset of `DBK_FILT_CLS k.CLASSES` (R401). -/
def dbkClsRst (k : Nat) : Nat :=
  match k with
  | 0 => 0x2 | 1 => 0xFFFFFFFF | 2 => 0xFFFFFFFF | 3 => 0xFFFFFFFF | 4 => 0xE | 5 => 0x8A | 6 => 0xE
  | 7 => 0x10 | _ => 0

/-! ## HDR -/

/-- R43 `HDR_CTRL.ENABLE` -/
def HDR_CTRL_ENABLE : Fld := ⟨0x8, 0, 1, .rw, 0, true⟩
/-- R43 `HDR_CTRL.SOFT_RESET` -/
def HDR_CTRL_SOFT_RESET : Fld := ⟨0x8, 1, 1, .w1s, 0, true⟩
/-- R43 `HDR_CTRL.LOCK` -/
def HDR_CTRL_LOCK : Fld := ⟨0x8, 2, 1, .w1s, 0, true⟩
/-- R43 `HDR_EVT_RAW.RAW` -/
def HDR_EVT_RAW_RAW : Fld := ⟨0x10, 0, 32, .ro, 0, false⟩
/-- R43 `HDR_EVT_MASK.MASK` -/
def HDR_EVT_MASK_MASK : Fld := ⟨0x14, 0, 32, .rw, 0, false⟩
/-- R43 `HDR_EVT_PEND.PEND` -/
def HDR_EVT_PEND_PEND : Fld := ⟨0x18, 0, 32, .w1c, 0, true⟩
/-- R50 `EVT_RING.BASE` -/
def EVT_RING_BASE : Fld := ⟨0x1C, 0, 14, .rw, 0, false⟩
/-- R50 `EVT_RING.SIZE` -/
def EVT_RING_SIZE : Fld := ⟨0x1C, 14, 4, .rw, 0, false⟩
/-- R50 `EVT_RING.VECTOR` -/
def EVT_RING_VECTOR : Fld := ⟨0x1C, 18, 8, .rw, 0, false⟩
/-- R50 `EVT_RING.TARGET` -/
def EVT_RING_TARGET : Fld := ⟨0x1C, 26, 4, .rw, 0, false⟩
/-- R50 `EVT_RING.EN` -/
def EVT_RING_EN : Fld := ⟨0x1C, 31, 1, .rw, 0, true⟩
/-- R43 `HDR_OWN.TAKEN` -/
def HDR_OWN_TAKEN : Fld := ⟨0x20, 31, 1, .w1c, 0, false⟩
/-- R480 `PERTURB.AMOUNT` -/
def PERTURB_AMOUNT : Fld := ⟨0x24, 0, 12, .rw, 0, false⟩
/-- R480 `PERTURB.SELECT` -/
def PERTURB_SELECT : Fld := ⟨0x24, 12, 6, .rw, 0, false⟩
/-- R480 `PERTURB.KIND` -/
def PERTURB_KIND : Fld := ⟨0x24, 18, 4, .rw, 0, false⟩
/-- R480 `PERTURB.RATE` -/
def PERTURB_RATE : Fld := ⟨0x24, 22, 5, .rw, 0, false⟩
/-- R480 `PERTURB.ONCE` -/
def PERTURB_ONCE : Fld := ⟨0x24, 30, 1, .rw, 0, false⟩
/-- R480 `PERTURB.EN` -/
def PERTURB_EN : Fld := ⟨0x24, 31, 1, .rw, 0, false⟩

/-- The words of a HDR page or entry and the fields of each. -/
def rowsHDR : List Row := [
  ⟨0x8, 1, 4, fun _ => [HDR_CTRL_ENABLE, HDR_CTRL_SOFT_RESET, HDR_CTRL_LOCK]⟩,
  ⟨0x10, 1, 4, fun _ => [HDR_EVT_RAW_RAW]⟩,
  ⟨0x14, 1, 4, fun _ => [HDR_EVT_MASK_MASK]⟩,
  ⟨0x18, 1, 4, fun _ => [HDR_EVT_PEND_PEND]⟩,
  ⟨0x1C, 1, 4, fun _ => [EVT_RING_BASE, EVT_RING_SIZE, EVT_RING_VECTOR, EVT_RING_TARGET, EVT_RING_EN]⟩,
  ⟨0x20, 1, 4, fun _ => [HDR_OWN_TAKEN]⟩,
  ⟨0x24, 1, 4, fun _ => [PERTURB_AMOUNT, PERTURB_SELECT, PERTURB_KIND, PERTURB_RATE, PERTURB_ONCE, PERTURB_EN]⟩]

/-! ## SYS -/

/-- R34 `SYS_CAPS.DEC_N` -/
def SYS_CAPS_DEC_N : Fld := ⟨0x4, 0, 4, .ro, 0, false⟩
/-- R34 `SYS_CAPS.ENC_N` -/
def SYS_CAPS_ENC_N : Fld := ⟨0x4, 4, 2, .ro, 0, false⟩
/-- R34 `SYS_CAPS.CMP_N` -/
def SYS_CAPS_CMP_N : Fld := ⟨0x4, 6, 2, .ro, 0, false⟩
/-- R34 `SYS_CAPS.SO_N` -/
def SYS_CAPS_SO_N : Fld := ⟨0x4, 8, 3, .ro, 0, false⟩
/-- R34 `SYS_CAPS.DMC_N` -/
def SYS_CAPS_DMC_N : Fld := ⟨0x4, 11, 4, .ro, 0, false⟩
/-- R34 `SYS_CAPS.QUAD_N` -/
def SYS_CAPS_QUAD_N : Fld := ⟨0x4, 15, 5, .ro, 0, false⟩
/-- R34 `SYS_CAPS.DRV_N` -/
def SYS_CAPS_DRV_N : Fld := ⟨0x4, 20, 4, .ro, 0, false⟩
/-- R34 `SYS_CAPS.LOFT_MIB` -/
def SYS_CAPS_LOFT_MIB : Fld := ⟨0x4, 24, 6, .ro, 0, false⟩
/-- R34 `SYS_CAPS.DEGRADED` -/
def SYS_CAPS_DEGRADED : Fld := ⟨0x4, 31, 1, .ro, 0, false⟩
/-- R35 `SYS_FENCE_A.DEC` -/
def SYS_FENCE_A_DEC : Fld := ⟨0x100, 0, 8, .ro, 0, false⟩
/-- R35 `SYS_FENCE_A.ENC` -/
def SYS_FENCE_A_ENC : Fld := ⟨0x100, 8, 2, .ro, 0, false⟩
/-- R35 `SYS_FENCE_A.CMP` -/
def SYS_FENCE_A_CMP : Fld := ⟨0x100, 10, 2, .ro, 0, false⟩
/-- R35 `SYS_FENCE_A.SO` -/
def SYS_FENCE_A_SO : Fld := ⟨0x100, 12, 4, .ro, 0, false⟩
/-- R35 `SYS_FENCE_A.DMC` -/
def SYS_FENCE_A_DMC : Fld := ⟨0x100, 16, 8, .ro, 0, false⟩
/-- R35 `SYS_FENCE_A.DRV` -/
def SYS_FENCE_A_DRV : Fld := ⟨0x100, 24, 8, .ro, 0, false⟩
/-- R35 `SYS_FENCE_B.QUAD` -/
def SYS_FENCE_B_QUAD : Fld := ⟨0x104, 0, 16, .ro, 0, false⟩
/-- R35 `SYS_FENCE_C.SCALER` -/
def SYS_FENCE_C_SCALER : Fld := ⟨0x108, 0, 32, .ro, 0, false⟩
/-- R35 `SYS_FENCE_D.CVU` -/
def SYS_FENCE_D_CVU : Fld := ⟨0x10C, 0, 24, .ro, 0, false⟩
/-- R35 `SYS_FENCE_E.LOFT_LO` -/
def SYS_FENCE_E_LOFT_LO : Fld := ⟨0x110, 0, 32, .ro, 0, false⟩
/-- R35 `SYS_FENCE_F.LOFT_HI` -/
def SYS_FENCE_F_LOFT_HI : Fld := ⟨0x114, 0, 16, .ro, 0, false⟩
/-- R29 `SYS_NODE.NODE_ID` -/
def SYS_NODE_NODE_ID : Fld := ⟨0x120, 0, 14, .rwl, 0, true⟩
/-- R29 `SYS_NODE.VALID` -/
def SYS_NODE_VALID : Fld := ⟨0x120, 31, 1, .rwl, 0, true⟩
/-- R451 `SYS_RESET.GO` -/
def SYS_RESET_GO : Fld := ⟨0x130, 0, 1, .wo, 0, true⟩
/-- R451 `SYS_WDOG.TIMEOUT` -/
def SYS_WDOG_TIMEOUT : Fld := ⟨0x134, 0, 16, .rw, 2000, false⟩
/-- R451 `SYS_WDOG.KICK` -/
def SYS_WDOG_KICK : Fld := ⟨0x134, 16, 1, .wo, 0, true⟩
/-- R451 `SYS_WDOG.EN` -/
def SYS_WDOG_EN : Fld := ⟨0x134, 31, 1, .rw, 1, false⟩
/-- R451 `SYS_DRV_HALF.HALF` -/
def SYS_DRV_HALF_HALF : Fld := ⟨0x138, 0, 1, .ro, 0, false⟩
/-- R456 `SYS_GPIO_OUT.OUT` of instance `i` -/
def SYS_GPIO_OUT_OUT (i : Nat) : Fld := ⟨0x200 + 4 * i, 0, 32, .rw, 0, true⟩
/-- R456 `SYS_GPIO_OE.OE` of instance `i` -/
def SYS_GPIO_OE_OE (i : Nat) : Fld := ⟨0x220 + 4 * i, 0, 32, .rw, 0, true⟩
/-- R456 `SYS_GPIO_IN.IN` of instance `i` -/
def SYS_GPIO_IN_IN (i : Nat) : Fld := ⟨0x240 + 4 * i, 0, 32, .ro, 0, false⟩

/-- The words of a SYS page or entry and the fields of each. -/
def rowsSYS : List Row := [
  ⟨0x4, 1, 4, fun _ => [SYS_CAPS_DEC_N, SYS_CAPS_ENC_N, SYS_CAPS_CMP_N, SYS_CAPS_SO_N, SYS_CAPS_DMC_N, SYS_CAPS_QUAD_N, SYS_CAPS_DRV_N, SYS_CAPS_LOFT_MIB, SYS_CAPS_DEGRADED]⟩,
  ⟨0x100, 1, 4, fun _ => [SYS_FENCE_A_DEC, SYS_FENCE_A_ENC, SYS_FENCE_A_CMP, SYS_FENCE_A_SO, SYS_FENCE_A_DMC, SYS_FENCE_A_DRV]⟩,
  ⟨0x104, 1, 4, fun _ => [SYS_FENCE_B_QUAD]⟩,
  ⟨0x108, 1, 4, fun _ => [SYS_FENCE_C_SCALER]⟩,
  ⟨0x10C, 1, 4, fun _ => [SYS_FENCE_D_CVU]⟩,
  ⟨0x110, 1, 4, fun _ => [SYS_FENCE_E_LOFT_LO]⟩,
  ⟨0x114, 1, 4, fun _ => [SYS_FENCE_F_LOFT_HI]⟩,
  ⟨0x120, 1, 4, fun _ => [SYS_NODE_NODE_ID, SYS_NODE_VALID]⟩,
  ⟨0x130, 1, 4, fun _ => [SYS_RESET_GO]⟩,
  ⟨0x134, 1, 4, fun _ => [SYS_WDOG_TIMEOUT, SYS_WDOG_KICK, SYS_WDOG_EN]⟩,
  ⟨0x138, 1, 4, fun _ => [SYS_DRV_HALF_HALF]⟩,
  ⟨0x200, 8, 4, fun i => [SYS_GPIO_OUT_OUT i]⟩,
  ⟨0x220, 8, 4, fun i => [SYS_GPIO_OE_OE i]⟩,
  ⟨0x240, 8, 4, fun i => [SYS_GPIO_IN_IN i]⟩]

/-! ## OWN -/

/-- R57 `OWN_ENT.OWNER` of instance `i` -/
def OWN_ENT_OWNER (i : Nat) : Fld := ⟨0x100 + 4 * i, 0, 16, .rwl, 0, true⟩
/-- R57 `OWN_ENT.TAKEN` of instance `i` -/
def OWN_ENT_TAKEN (i : Nat) : Fld := ⟨0x100 + 4 * i, 24, 1, .ro, 0, false⟩
/-- R57 `OWN_ENT.IN_USE` of instance `i` -/
def OWN_ENT_IN_USE (i : Nat) : Fld := ⟨0x100 + 4 * i, 25, 1, .ro, 0, false⟩
/-- R57 `OWN_ENT.FENCED` of instance `i` -/
def OWN_ENT_FENCED (i : Nat) : Fld := ⟨0x100 + 4 * i, 26, 1, .ro, 0, false⟩
/-- R57 `OWN_ENT.LOCK` of instance `i` -/
def OWN_ENT_LOCK (i : Nat) : Fld := ⟨0x100 + 4 * i, 31, 1, .w1s, 0, true⟩

/-- The words of a OWN page or entry and the fields of each. -/
def rowsOWN : List Row := [
  ⟨0x100, 960, 4, fun i => [OWN_ENT_OWNER i, OWN_ENT_TAKEN i, OWN_ENT_IN_USE i, OWN_ENT_FENCED i, OWN_ENT_LOCK i]⟩]

/-! ## PWR -/

/-- R448 `PWR_CTRL.STABLE` -/
def PWR_CTRL_STABLE : Fld := ⟨0x100, 0, 1, .w1s, 0, true⟩
/-- R448 `PWR_CTRL.WAKE` -/
def PWR_CTRL_WAKE : Fld := ⟨0x100, 1, 1, .w1s, 0, true⟩
/-- R448 `PWR_STATE.STATE` -/
def PWR_STATE_STATE : Fld := ⟨0x104, 0, 2, .ro, 0, false⟩
/-- R448 `PWR_WAKE_EN.KEY` -/
def PWR_WAKE_EN_KEY : Fld := ⟨0x108, 0, 1, .rw, 1, false⟩
/-- R448 `PWR_WAKE_EN.NET` -/
def PWR_WAKE_EN_NET : Fld := ⟨0x108, 1, 1, .rw, 1, false⟩
/-- R448 `PWR_WAKE_EN.ALARM` -/
def PWR_WAKE_EN_ALARM : Fld := ⟨0x108, 2, 1, .rw, 0, false⟩
/-- R448 `PWR_WAKE_EN.PCIE` -/
def PWR_WAKE_EN_PCIE : Fld := ⟨0x108, 3, 1, .rw, 0, false⟩
/-- R448 `PWR_WAKE_EN.TIN` -/
def PWR_WAKE_EN_TIN : Fld := ⟨0x108, 16, 8, .rw, 0, false⟩
/-- R448 `PWR_WAKE_NET.NET` -/
def PWR_WAKE_NET_NET : Fld := ⟨0x10C, 0, 5, .rw, 0, false⟩
/-- R448 `PWR_WAKE_NET.PORT` -/
def PWR_WAKE_NET_PORT : Fld := ⟨0x10C, 16, 16, .rw, 7962, false⟩
/-- R448 `PWR_WAKE_AT_LO.T` -/
def PWR_WAKE_AT_LO_T : Fld := ⟨0x110, 0, 32, .rw, 0, false⟩
/-- R448 `PWR_WAKE_AT_HI.T` -/
def PWR_WAKE_AT_HI_T : Fld := ⟨0x114, 0, 32, .rw, 0, false⟩
/-- R448 `PWR_WAKE_CAUSE.CAUSE` -/
def PWR_WAKE_CAUSE_CAUSE : Fld := ⟨0x118, 0, 5, .w1c, 0, false⟩

/-- The words of a PWR page or entry and the fields of each. -/
def rowsPWR : List Row := [
  ⟨0x100, 1, 4, fun _ => [PWR_CTRL_STABLE, PWR_CTRL_WAKE]⟩,
  ⟨0x104, 1, 4, fun _ => [PWR_STATE_STATE]⟩,
  ⟨0x108, 1, 4, fun _ => [PWR_WAKE_EN_KEY, PWR_WAKE_EN_NET, PWR_WAKE_EN_ALARM, PWR_WAKE_EN_PCIE, PWR_WAKE_EN_TIN]⟩,
  ⟨0x10C, 1, 4, fun _ => [PWR_WAKE_NET_NET, PWR_WAKE_NET_PORT]⟩,
  ⟨0x110, 1, 4, fun _ => [PWR_WAKE_AT_LO_T]⟩,
  ⟨0x114, 1, 4, fun _ => [PWR_WAKE_AT_HI_T]⟩,
  ⟨0x118, 1, 4, fun _ => [PWR_WAKE_CAUSE_CAUSE]⟩]

/-! ## CLK -/

/-- R444 `CLK_STAT.TCXO_OK` -/
def CLK_STAT_TCXO_OK : Fld := ⟨0x100, 0, 1, .ro, 0, false⟩
/-- R444 `CLK_STAT.LREF0_OK` -/
def CLK_STAT_LREF0_OK : Fld := ⟨0x100, 1, 1, .ro, 0, false⟩
/-- R444 `CLK_STAT.LREF1_OK` -/
def CLK_STAT_LREF1_OK : Fld := ⟨0x100, 2, 1, .ro, 0, false⟩
/-- R444 `CLK_STAT.PCIE_REF_OK` -/
def CLK_STAT_PCIE_REF_OK : Fld := ⟨0x100, 3, 1, .ro, 0, false⟩
/-- R444 `CLK_STAT.LOCK` -/
def CLK_STAT_LOCK : Fld := ⟨0x100, 4, 4, .ro, 0, false⟩
/-- R444 `CLK_STAT.DMC_LOCK` -/
def CLK_STAT_DMC_LOCK : Fld := ⟨0x100, 8, 8, .ro, 0, false⟩

/-- The words of a CLK page or entry and the fields of each. -/
def rowsCLK : List Row := [
  ⟨0x100, 1, 4, fun _ => [CLK_STAT_TCXO_OK, CLK_STAT_LREF0_OK, CLK_STAT_LREF1_OK, CLK_STAT_PCIE_REF_OK, CLK_STAT_LOCK, CLK_STAT_DMC_LOCK]⟩]

/-! ## MSS -/

/-- R398 `MSS_BOOT.STAGE` -/
def MSS_BOOT_STAGE : Fld := ⟨0x100, 0, 4, .ro, 0, false⟩
/-- R398 `MSS_BOOT.SLOT` -/
def MSS_BOOT_SLOT : Fld := ⟨0x100, 4, 1, .ro, 0, false⟩
/-- R398 `MSS_BOOT.RECOVERY` -/
def MSS_BOOT_RECOVERY : Fld := ⟨0x100, 5, 1, .ro, 0, false⟩
/-- R398 `MSS_BOOT.IMAGE_VER` -/
def MSS_BOOT_IMAGE_VER : Fld := ⟨0x100, 16, 16, .ro, 0, false⟩
/-- R398 `MSS_RESET_CAUSE.CAUSE` -/
def MSS_RESET_CAUSE_CAUSE : Fld := ⟨0x104, 0, 7, .w1c, 1, false⟩
/-- R398 `MSS_LOCKSTEP.COUNT` -/
def MSS_LOCKSTEP_COUNT : Fld := ⟨0x108, 0, 16, .ro, 0, false⟩
/-- R398 `MSS_LIFE_S.S` -/
def MSS_LIFE_S_S : Fld := ⟨0x10C, 0, 32, .ro, 0, false⟩
/-- R398 `MSS_LIFE_TAVG.T` -/
def MSS_LIFE_TAVG_T : Fld := ⟨0x110, 0, 16, .ro, 0, false⟩
/-- R398 `MSS_SENSE.PERIOD` -/
def MSS_SENSE_PERIOD : Fld := ⟨0x114, 0, 8, .rw, 10, false⟩
/-- R398 `MSS_LOG_CODE.CODE` -/
def MSS_LOG_CODE_CODE : Fld := ⟨0x120, 0, 16, .wo, 0, true⟩
/-- R398 `MSS_LOG_DATA.DATA` of instance `i` -/
def MSS_LOG_DATA_DATA (i : Nat) : Fld := ⟨0x130 + 4 * i, 0, 32, .rw, 0, false⟩
/-- R398 `MSS_TS_VAL.T` of instance `i` -/
def MSS_TS_VAL_T (i : Nat) : Fld := ⟨0x200 + 16 * i, 0, 16, .ro, 0, false⟩
/-- R398 `MSS_TS_VAL.VALID` of instance `i` -/
def MSS_TS_VAL_VALID (i : Nat) : Fld := ⟨0x200 + 16 * i, 31, 1, .ro, 0, false⟩
/-- R398 `MSS_TS_LIM.WARN` of instance `i` -/
def MSS_TS_LIM_WARN (i : Nat) : Fld := ⟨0x204 + 16 * i, 0, 8, .rw, 100, false⟩
/-- R398 `MSS_TS_LIM.CRIT` of instance `i` -/
def MSS_TS_LIM_CRIT (i : Nat) : Fld := ⟨0x204 + 16 * i, 8, 8, .rw, 115, false⟩
/-- R398 `MSS_TS_MAX.T` of instance `i` -/
def MSS_TS_MAX_T (i : Nat) : Fld := ⟨0x208 + 16 * i, 0, 16, .rc, 32768, false⟩
/-- R398 `MSS_VS_VAL.MV` of instance `i` -/
def MSS_VS_VAL_MV (i : Nat) : Fld := ⟨0x300 + 16 * i, 0, 16, .ro, 0, false⟩
/-- R398 `MSS_VS_VAL.VALID` of instance `i` -/
def MSS_VS_VAL_VALID (i : Nat) : Fld := ⟨0x300 + 16 * i, 31, 1, .ro, 0, false⟩
/-- R398 `MSS_VS_LIM.LOW` of instance `i` -/
def MSS_VS_LIM_LOW (i : Nat) : Fld := ⟨0x304 + 16 * i, 0, 16, .rw, vsLowRst i, false⟩
/-- R398 `MSS_VS_LIM.HIGH` of instance `i` -/
def MSS_VS_LIM_HIGH (i : Nat) : Fld := ⟨0x304 + 16 * i, 16, 16, .rw, vsHighRst i, false⟩
/-- R398 `MSS_VS_SAG.SAG` of instance `i` -/
def MSS_VS_SAG_SAG (i : Nat) : Fld := ⟨0x308 + 16 * i, 0, 16, .rwl, vsSagRst i, false⟩
/-- R398 `MSS_VS_SAG.WATCH` of instance `i` -/
def MSS_VS_SAG_WATCH (i : Nat) : Fld := ⟨0x308 + 16 * i, 31, 1, .rwl, vsWatchRst i, false⟩
/-- R398 `MSS_VS_MIN.MV` of instance `i` -/
def MSS_VS_MIN_MV (i : Nat) : Fld := ⟨0x30C + 16 * i, 0, 16, .rc, 65535, false⟩

/-- The words of a MSS page or entry and the fields of each. -/
def rowsMSS : List Row := [
  ⟨0x100, 1, 4, fun _ => [MSS_BOOT_STAGE, MSS_BOOT_SLOT, MSS_BOOT_RECOVERY, MSS_BOOT_IMAGE_VER]⟩,
  ⟨0x104, 1, 4, fun _ => [MSS_RESET_CAUSE_CAUSE]⟩,
  ⟨0x108, 1, 4, fun _ => [MSS_LOCKSTEP_COUNT]⟩,
  ⟨0x10C, 1, 4, fun _ => [MSS_LIFE_S_S]⟩,
  ⟨0x110, 1, 4, fun _ => [MSS_LIFE_TAVG_T]⟩,
  ⟨0x114, 1, 4, fun _ => [MSS_SENSE_PERIOD]⟩,
  ⟨0x120, 1, 4, fun _ => [MSS_LOG_CODE_CODE]⟩,
  ⟨0x130, 4, 4, fun i => [MSS_LOG_DATA_DATA i]⟩,
  ⟨0x200, 12, 16, fun i => [MSS_TS_VAL_T i, MSS_TS_VAL_VALID i]⟩,
  ⟨0x204, 12, 16, fun i => [MSS_TS_LIM_WARN i, MSS_TS_LIM_CRIT i]⟩,
  ⟨0x208, 12, 16, fun i => [MSS_TS_MAX_T i]⟩,
  ⟨0x300, 16, 16, fun i => [MSS_VS_VAL_MV i, MSS_VS_VAL_VALID i]⟩,
  ⟨0x304, 16, 16, fun i => [MSS_VS_LIM_LOW i, MSS_VS_LIM_HIGH i]⟩,
  ⟨0x308, 16, 16, fun i => [MSS_VS_SAG_SAG i, MSS_VS_SAG_WATCH i]⟩,
  ⟨0x30C, 16, 16, fun i => [MSS_VS_MIN_MV i]⟩]

/-! ## DBK -/

/-- R402 `DBK_CTRL.MODE` -/
def DBK_CTRL_MODE : Fld := ⟨0x100, 0, 1, .rw, 0, false⟩
/-- R402 `DBK_WR.COUNT` -/
def DBK_WR_COUNT : Fld := ⟨0x104, 0, 32, .ro, 0, false⟩
/-- R402 `DBK_LOST.COUNT` -/
def DBK_LOST_COUNT : Fld := ⟨0x108, 0, 32, .rc, 0, false⟩
/-- R402 `DBK_SEL.SLOT` -/
def DBK_SEL_SLOT : Fld := ⟨0x10C, 0, 11, .rw, 0, false⟩
/-- R402 `DBK_REC.WORD` of instance `i` -/
def DBK_REC_WORD (i : Nat) : Fld := ⟨0x110 + 4 * i, 0, 32, .ro, 0, false⟩
/-- R402 `DBK_CLEAR.GO` -/
def DBK_CLEAR_GO : Fld := ⟨0x130, 0, 1, .wo, 0, true⟩
/-- R402 `DBK_FILT_SRC.SOURCE` of instance `i` -/
def DBK_FILT_SRC_SOURCE (i : Nat) : Fld := ⟨0x140 + 8 * i, 0, 16, .rw, dbkSrcRst i, false⟩
/-- R402 `DBK_FILT_SRC.ANY_INST` of instance `i` -/
def DBK_FILT_SRC_ANY_INST (i : Nat) : Fld := ⟨0x140 + 8 * i, 16, 1, .rw, dbkAnyRst i, false⟩
/-- R402 `DBK_FILT_SRC.EN` of instance `i` -/
def DBK_FILT_SRC_EN (i : Nat) : Fld := ⟨0x140 + 8 * i, 31, 1, .rw, dbkEnRst i, false⟩
/-- R402 `DBK_FILT_CLS.CLASSES` of instance `i` -/
def DBK_FILT_CLS_CLASSES (i : Nat) : Fld := ⟨0x144 + 8 * i, 0, 32, .rw, dbkClsRst i, false⟩

/-- The words of a DBK page or entry and the fields of each. -/
def rowsDBK : List Row := [
  ⟨0x100, 1, 4, fun _ => [DBK_CTRL_MODE]⟩,
  ⟨0x104, 1, 4, fun _ => [DBK_WR_COUNT]⟩,
  ⟨0x108, 1, 4, fun _ => [DBK_LOST_COUNT]⟩,
  ⟨0x10C, 1, 4, fun _ => [DBK_SEL_SLOT]⟩,
  ⟨0x110, 8, 4, fun i => [DBK_REC_WORD i]⟩,
  ⟨0x130, 1, 4, fun _ => [DBK_CLEAR_GO]⟩,
  ⟨0x140, 16, 8, fun i => [DBK_FILT_SRC_SOURCE i, DBK_FILT_SRC_ANY_INST i, DBK_FILT_SRC_EN i]⟩,
  ⟨0x144, 16, 8, fun i => [DBK_FILT_CLS_CLASSES i]⟩]

/-! ## SAG -/

/-- R410 `SAG_CFG.PFAIL_EN` -/
def SAG_CFG_PFAIL_EN : Fld := ⟨0x100, 0, 1, .rwl, 1, false⟩
/-- R410 `SAG_CFG.MIRROR` -/
def SAG_CFG_MIRROR : Fld := ⟨0x100, 1, 1, .rwl, 1, false⟩
/-- R410 `SAG_CFG.TAIL` -/
def SAG_CFG_TAIL : Fld := ⟨0x100, 8, 8, .rwl, 50, false⟩
/-- R410 `SAG_CFG.MAXREC` -/
def SAG_CFG_MAXREC : Fld := ⟨0x100, 16, 12, .rwl, 512, false⟩
/-- R410 `SAG_NVM.CLK` -/
def SAG_NVM_CLK : Fld := ⟨0x104, 0, 2, .rwl, 2, false⟩
/-- R410 `SAG_NVM.SIZE` -/
def SAG_NVM_SIZE : Fld := ⟨0x104, 2, 2, .rwl, 0, false⟩
/-- R410 `SAG_NVM.TPWRUP` -/
def SAG_NVM_TPWRUP : Fld := ⟨0x104, 4, 8, .rwl, 25, false⟩
/-- R410 `SAG_NVM.BATCH` -/
def SAG_NVM_BATCH : Fld := ⟨0x104, 16, 16, .rwl, 100, false⟩
/-- R410 `SAG_STAT.STATE` -/
def SAG_STAT_STATE : Fld := ⟨0x108, 0, 2, .ro, 0, false⟩
/-- R410 `SAG_STAT.CHARGED` -/
def SAG_STAT_CHARGED : Fld := ⟨0x108, 2, 1, .ro, 0, false⟩
/-- R410 `SAG_STAT.NVM_OK` -/
def SAG_STAT_NVM_OK : Fld := ⟨0x108, 3, 1, .ro, 0, false⟩
/-- R410 `SAG_STAT.LAST` -/
def SAG_STAT_LAST : Fld := ⟨0x108, 4, 2, .ro, 0, false⟩
/-- R410 `SAG_COUNT.COUNT` -/
def SAG_COUNT_COUNT : Fld := ⟨0x10C, 0, 32, .ro, 0, false⟩
/-- R410 `SAG_LAST_LO.T` -/
def SAG_LAST_LO_T : Fld := ⟨0x110, 0, 32, .ro, 0, false⟩
/-- R410 `SAG_LAST_HI.T` -/
def SAG_LAST_HI_T : Fld := ⟨0x114, 0, 32, .ro, 0, false⟩
/-- R410 `SAG_SAVE.US` -/
def SAG_SAVE_US : Fld := ⟨0x118, 0, 16, .ro, 0, false⟩
/-- R410 `SAG_SAVE.RECORDS` -/
def SAG_SAVE_RECORDS : Fld := ⟨0x118, 16, 16, .ro, 0, false⟩
/-- R410 `SAG_SETTLE.MS` -/
def SAG_SETTLE_MS : Fld := ⟨0x11C, 0, 8, .rw, 20, false⟩
/-- R410 `SAG_UNSAVED.COUNT` -/
def SAG_UNSAVED_COUNT : Fld := ⟨0x120, 0, 12, .ro, 0, false⟩

/-- The words of a SAG page or entry and the fields of each. -/
def rowsSAG : List Row := [
  ⟨0x100, 1, 4, fun _ => [SAG_CFG_PFAIL_EN, SAG_CFG_MIRROR, SAG_CFG_TAIL, SAG_CFG_MAXREC]⟩,
  ⟨0x104, 1, 4, fun _ => [SAG_NVM_CLK, SAG_NVM_SIZE, SAG_NVM_TPWRUP, SAG_NVM_BATCH]⟩,
  ⟨0x108, 1, 4, fun _ => [SAG_STAT_STATE, SAG_STAT_CHARGED, SAG_STAT_NVM_OK, SAG_STAT_LAST]⟩,
  ⟨0x10C, 1, 4, fun _ => [SAG_COUNT_COUNT]⟩,
  ⟨0x110, 1, 4, fun _ => [SAG_LAST_LO_T]⟩,
  ⟨0x114, 1, 4, fun _ => [SAG_LAST_HI_T]⟩,
  ⟨0x118, 1, 4, fun _ => [SAG_SAVE_US, SAG_SAVE_RECORDS]⟩,
  ⟨0x11C, 1, 4, fun _ => [SAG_SETTLE_MS]⟩,
  ⟨0x120, 1, 4, fun _ => [SAG_UNSAVED_COUNT]⟩]

/-! ## FAR -/

/-- R417 `FAR_CTRL.RUN` -/
def FAR_CTRL_RUN : Fld := ⟨0x100, 0, 1, .w1s, 0, true⟩
/-- R417 `FAR_CTRL.AUTO` -/
def FAR_CTRL_AUTO : Fld := ⟨0x100, 1, 1, .rw, 1, false⟩
/-- R417 `FAR_TRIG.DELTA` -/
def FAR_TRIG_DELTA : Fld := ⟨0x104, 0, 8, .rw, 8, false⟩
/-- R417 `FAR_TRIG.RETRY` -/
def FAR_TRIG_RETRY : Fld := ⟨0x104, 8, 16, .rw, 10, false⟩
/-- R417 `FAR_TOL.CODES` -/
def FAR_TOL_CODES : Fld := ⟨0x108, 0, 8, .rw, 4, false⟩
/-- R417 `FAR_COUNT.ACCEPTED` -/
def FAR_COUNT_ACCEPTED : Fld := ⟨0x10C, 0, 16, .ro, 0, false⟩
/-- R417 `FAR_COUNT.REJECTED` -/
def FAR_COUNT_REJECTED : Fld := ⟨0x10C, 16, 16, .ro, 0, false⟩
/-- R417 `FAR_LAST_LO.T` -/
def FAR_LAST_LO_T : Fld := ⟨0x110, 0, 32, .ro, 0, false⟩
/-- R417 `FAR_LAST_HI.T` -/
def FAR_LAST_HI_T : Fld := ⟨0x114, 0, 32, .ro, 0, false⟩
/-- R417 `FAR_SUM.CRC` -/
def FAR_SUM_CRC : Fld := ⟨0x118, 0, 32, .ro, 0, false⟩
/-- R417 `FAR_DIFF.CODES` -/
def FAR_DIFF_CODES : Fld := ⟨0x11C, 0, 16, .ro, 0, false⟩
/-- R417 `FAR_DIFF.INDEX` -/
def FAR_DIFF_INDEX : Fld := ⟨0x11C, 16, 16, .ro, 0, false⟩
/-- R417 `FAR_BASE_T.T` of instance `i` -/
def FAR_BASE_T_T (i : Nat) : Fld := ⟨0x180 + 4 * i, 0, 16, .ro, 0, false⟩
/-- R417 `FAR_STATUS.BUSY` -/
def FAR_STATUS_BUSY : Fld := ⟨0xC, 0, 1, .ro, 0, false⟩
/-- R417 `FAR_STATUS.SOURCE` -/
def FAR_STATUS_SOURCE : Fld := ⟨0xC, 1, 2, .ro, 0, false⟩
/-- R417 `FAR_STATUS.PORTS` -/
def FAR_STATUS_PORTS : Fld := ⟨0xC, 3, 2, .ro, 0, false⟩
/-- R413 `FAR_VAL.VALUE` of instance `i` -/
def FAR_VAL_VALUE (i : Nat) : Fld := ⟨0x400 + 4 * i, 0, 32, .rw, Config.farFuse i % (if i = 28 ∨ i = 29 then 2 ^ 16 else 2 ^ 32), true⟩

/-- The words of a FAR page or entry and the fields of each. -/
def rowsFAR : List Row := [
  ⟨0x100, 1, 4, fun _ => [FAR_CTRL_RUN, FAR_CTRL_AUTO]⟩,
  ⟨0x104, 1, 4, fun _ => [FAR_TRIG_DELTA, FAR_TRIG_RETRY]⟩,
  ⟨0x108, 1, 4, fun _ => [FAR_TOL_CODES]⟩,
  ⟨0x10C, 1, 4, fun _ => [FAR_COUNT_ACCEPTED, FAR_COUNT_REJECTED]⟩,
  ⟨0x110, 1, 4, fun _ => [FAR_LAST_LO_T]⟩,
  ⟨0x114, 1, 4, fun _ => [FAR_LAST_HI_T]⟩,
  ⟨0x118, 1, 4, fun _ => [FAR_SUM_CRC]⟩,
  ⟨0x11C, 1, 4, fun _ => [FAR_DIFF_CODES, FAR_DIFF_INDEX]⟩,
  ⟨0x180, 12, 4, fun i => [FAR_BASE_T_T i]⟩,
  ⟨0xC, 1, 4, fun _ => [FAR_STATUS_BUSY, FAR_STATUS_SOURCE, FAR_STATUS_PORTS]⟩,
  ⟨0x400, 192, 4, fun i => if i = 30 ∨ i = 31 then [] else [FAR_VAL_VALUE i]⟩]

/-! ## UPD -/

/-- R436 `UPD_CTRL.OPEN` -/
def UPD_CTRL_OPEN : Fld := ⟨0x100, 0, 1, .w1s, 0, true⟩
/-- R436 `UPD_CTRL.CLOSE` -/
def UPD_CTRL_CLOSE : Fld := ⟨0x100, 1, 1, .w1s, 0, true⟩
/-- R436 `UPD_CTRL.ACTIVATE` -/
def UPD_CTRL_ACTIVATE : Fld := ⟨0x100, 2, 1, .w1s, 0, true⟩
/-- R436 `UPD_CTRL.ABORT` -/
def UPD_CTRL_ABORT : Fld := ⟨0x100, 3, 1, .w1s, 0, true⟩
/-- R436 `UPD_CTRL.RECOVER` -/
def UPD_CTRL_RECOVER : Fld := ⟨0x100, 4, 1, .w1s, 0, true⟩
/-- R436 `UPD_CTRL.HANDOVER` -/
def UPD_CTRL_HANDOVER : Fld := ⟨0x100, 5, 1, .w1s, 0, true⟩
/-- R436 `UPD_STATE.STATE` -/
def UPD_STATE_STATE : Fld := ⟨0x104, 0, 4, .ro, 0, false⟩
/-- R436 `UPD_STATE.PATH` -/
def UPD_STATE_PATH : Fld := ⟨0x104, 4, 2, .ro, 0, false⟩
/-- R436 `UPD_STATE.CODE` -/
def UPD_STATE_CODE : Fld := ⟨0x104, 8, 8, .ro, 0, false⟩
/-- R436 `UPD_LENGTH.BYTES` -/
def UPD_LENGTH_BYTES : Fld := ⟨0x108, 0, 25, .rw, 0, false⟩
/-- R436 `UPD_OFFSET.BYTES` -/
def UPD_OFFSET_BYTES : Fld := ⟨0x10C, 0, 25, .rw, 0, false⟩
/-- R436 `UPD_BLOCK.LEN` -/
def UPD_BLOCK_LEN : Fld := ⟨0x110, 0, 11, .wo, 0, true⟩
/-- R436 `UPD_BLOCK.BUSY` -/
def UPD_BLOCK_BUSY : Fld := ⟨0x110, 31, 1, .ro, 0, false⟩
/-- R436 `UPD_RECEIVED.GRANULES` -/
def UPD_RECEIVED_GRANULES : Fld := ⟨0x114, 0, 16, .ro, 0, false⟩
/-- R436 `UPD_GUARD.HOLD` -/
def UPD_GUARD_HOLD : Fld := ⟨0x118, 0, 1, .rwl, 0, false⟩
/-- R436 `UPD_STAGED.VERSION` -/
def UPD_STAGED_VERSION : Fld := ⟨0x11C, 0, 16, .ro, 0, false⟩
/-- R436 `UPD_STAGED.VALID` -/
def UPD_STAGED_VALID : Fld := ⟨0x11C, 31, 1, .ro, 0, false⟩
/-- R436 `UPD_ACT.GRACE` -/
def UPD_ACT_GRACE : Fld := ⟨0x120, 0, 8, .rw, 20, false⟩
/-- R436 `UPD_HO_CFG.CANVAS` -/
def UPD_HO_CFG_CANVAS : Fld := ⟨0x124, 0, 6, .rw, 0, false⟩
/-- R436 `UPD_HO_CFG.LIMIT` -/
def UPD_HO_CFG_LIMIT : Fld := ⟨0x124, 8, 8, .rw, 5, false⟩
/-- R436 `UPD_HO_READY.READY` -/
def UPD_HO_READY_READY : Fld := ⟨0x128, 0, 1, .wo, 0, true⟩
/-- R436 `UPD_COPY.MIB` -/
def UPD_COPY_MIB : Fld := ⟨0x12C, 0, 16, .ro, 0, false⟩
/-- R436 `UPD_BUF.DATA` of instance `i` -/
def UPD_BUF_DATA (i : Nat) : Fld := ⟨0x800 + 4 * i, 0, 32, .rw, 0, false⟩

/-- The words of a UPD page or entry and the fields of each. -/
def rowsUPD : List Row := [
  ⟨0x100, 1, 4, fun _ => [UPD_CTRL_OPEN, UPD_CTRL_CLOSE, UPD_CTRL_ACTIVATE, UPD_CTRL_ABORT, UPD_CTRL_RECOVER, UPD_CTRL_HANDOVER]⟩,
  ⟨0x104, 1, 4, fun _ => [UPD_STATE_STATE, UPD_STATE_PATH, UPD_STATE_CODE]⟩,
  ⟨0x108, 1, 4, fun _ => [UPD_LENGTH_BYTES]⟩,
  ⟨0x10C, 1, 4, fun _ => [UPD_OFFSET_BYTES]⟩,
  ⟨0x110, 1, 4, fun _ => [UPD_BLOCK_LEN, UPD_BLOCK_BUSY]⟩,
  ⟨0x114, 1, 4, fun _ => [UPD_RECEIVED_GRANULES]⟩,
  ⟨0x118, 1, 4, fun _ => [UPD_GUARD_HOLD]⟩,
  ⟨0x11C, 1, 4, fun _ => [UPD_STAGED_VERSION, UPD_STAGED_VALID]⟩,
  ⟨0x120, 1, 4, fun _ => [UPD_ACT_GRACE]⟩,
  ⟨0x124, 1, 4, fun _ => [UPD_HO_CFG_CANVAS, UPD_HO_CFG_LIMIT]⟩,
  ⟨0x128, 1, 4, fun _ => [UPD_HO_READY_READY]⟩,
  ⟨0x12C, 1, 4, fun _ => [UPD_COPY_MIB]⟩,
  ⟨0x800, 256, 4, fun i => [UPD_BUF_DATA i]⟩]

/-! ## TB -/

/-- R173 `TB_STATUS.STATE` -/
def TB_STATUS_STATE : Fld := ⟨0xC, 0, 3, .ro, 0, false⟩
/-- R173 `TB_STATUS.SLEWING` -/
def TB_STATUS_SLEWING : Fld := ⟨0xC, 3, 1, .ro, 0, false⟩
/-- R173 `TB_STATUS.STEP_PENDING` -/
def TB_STATUS_STEP_PENDING : Fld := ⟨0xC, 4, 1, .ro, 0, false⟩
/-- R173 `TB_STATUS.COARSE` -/
def TB_STATUS_COARSE : Fld := ⟨0xC, 5, 1, .ro, 0, false⟩
/-- R173 `TB_NOW_LO.NOW` -/
def TB_NOW_LO_NOW : Fld := ⟨0x100, 0, 32, .ro, 0, false⟩
/-- R173 `TB_NOW_HI.NOW` -/
def TB_NOW_HI_NOW : Fld := ⟨0x104, 0, 32, .ro, 0, false⟩
/-- R173 `TB_CTRL.MODE` -/
def TB_CTRL_MODE : Fld := ⟨0x108, 0, 2, .rw, 0, false⟩
/-- R173 `TB_RATE.RATE` -/
def TB_RATE_RATE : Fld := ⟨0x10C, 0, 32, .rw, 0, true⟩
/-- R173 `TB_STEP_LO.S` -/
def TB_STEP_LO_S : Fld := ⟨0x110, 0, 32, .wo, 0, true⟩
/-- R173 `TB_STEP_HI.S` -/
def TB_STEP_HI_S : Fld := ⟨0x114, 0, 32, .wo, 0, true⟩
/-- R173 `TB_JUMP.THRESH` -/
def TB_JUMP_THRESH : Fld := ⟨0x118, 0, 32, .rw, 1000000, false⟩
/-- R173 `TB_PEND_LO.S` -/
def TB_PEND_LO_S : Fld := ⟨0x11C, 0, 32, .ro, 0, false⟩
/-- R173 `TB_PEND_HI.S` -/
def TB_PEND_HI_S : Fld := ⟨0x120, 0, 32, .ro, 0, false⟩
/-- R173 `TB_ACCEPT.ACCEPT` -/
def TB_ACCEPT_ACCEPT : Fld := ⟨0x124, 0, 1, .wo, 0, true⟩
/-- R173 `TB_ACCEPT.DISCARD` -/
def TB_ACCEPT_DISCARD : Fld := ⟨0x124, 1, 1, .wo, 0, true⟩
/-- R173 `TB_ACCEPT.KEY` -/
def TB_ACCEPT_KEY : Fld := ⟨0x124, 16, 16, .wo, 0, true⟩
/-- R173 `TB_SLEW_LO.REMAIN` -/
def TB_SLEW_LO_REMAIN : Fld := ⟨0x128, 0, 32, .ro, 0, false⟩
/-- R173 `TB_SLEW_HI.REMAIN` -/
def TB_SLEW_HI_REMAIN : Fld := ⟨0x12C, 0, 32, .ro, 0, false⟩
/-- R173 `TB_HOLD.LIMIT` -/
def TB_HOLD_LIMIT : Fld := ⟨0x130, 0, 16, .rw, 600, false⟩
/-- R173 `TB_HOLD.ELAPSED` -/
def TB_HOLD_ELAPSED : Fld := ⟨0x130, 16, 16, .ro, 0, false⟩
/-- R173 `TB_SERVO.STATE` -/
def TB_SERVO_STATE : Fld := ⟨0x134, 0, 3, .rw, 0, true⟩
/-- R173 `TB_UTC.OFFSET` -/
def TB_UTC_OFFSET : Fld := ⟨0x138, 0, 16, .rw, 0, false⟩
/-- R173 `TB_UTC.VALID` -/
def TB_UTC_VALID : Fld := ⟨0x138, 16, 1, .rw, 0, false⟩
/-- R173 `TB_ENTRY_LO.T` -/
def TB_ENTRY_LO_T : Fld := ⟨0x140, 0, 32, .ro, 0, false⟩
/-- R173 `TB_ENTRY_HI.T` -/
def TB_ENTRY_HI_T : Fld := ⟨0x144, 0, 32, .ro, 0, false⟩
/-- R173 `TB_ENTRY_CTRL.LINE` -/
def TB_ENTRY_CTRL_LINE : Fld := ⟨0x148, 0, 5, .rw, 4, false⟩
/-- R173 `TB_PTP_CFG.DOMAIN` -/
def TB_PTP_CFG_DOMAIN : Fld := ⟨0x150, 0, 8, .rw, 0, false⟩
/-- R173 `TB_PTP_CFG.MECH` -/
def TB_PTP_CFG_MECH : Fld := ⟨0x150, 8, 1, .rw, 0, false⟩
/-- R173 `TB_PTP_CFG.TRANSPORT` -/
def TB_PTP_CFG_TRANSPORT : Fld := ⟨0x150, 9, 2, .rw, 0, false⟩
/-- R173 `TB_PTP_PORTS.PORTS` -/
def TB_PTP_PORTS_PORTS : Fld := ⟨0x154, 0, 18, .rw, 0, false⟩
/-- R173 `TB_RXL.COUNT` of instance `i` -/
def TB_RXL_COUNT (i : Nat) : Fld := ⟨0x180 + 16 * i, 0, 24, .ro, 0, false⟩
/-- R173 `TB_RXL.SAT` of instance `i` -/
def TB_RXL_SAT (i : Nat) : Fld := ⟨0x180 + 16 * i, 24, 1, .ro, 0, false⟩
/-- R173 `TB_RXL.RUN` of instance `i` -/
def TB_RXL_RUN (i : Nat) : Fld := ⟨0x180 + 16 * i, 25, 1, .ro, 0, false⟩
/-- R173 `TB_RXL.VALID` of instance `i` -/
def TB_RXL_VALID (i : Nat) : Fld := ⟨0x180 + 16 * i, 31, 1, .w1c, 0, false⟩
/-- R173 `TB_RXL_ID.SEQ_ID` of instance `i` -/
def TB_RXL_ID_SEQ_ID (i : Nat) : Fld := ⟨0x184 + 16 * i, 0, 16, .ro, 0, false⟩
/-- R173 `TB_RXL_ID.MSG_TYPE` of instance `i` -/
def TB_RXL_ID_MSG_TYPE (i : Nat) : Fld := ⟨0x184 + 16 * i, 16, 4, .ro, 0, false⟩
/-- R173 `TB_RXL_ID.PORT` of instance `i` -/
def TB_RXL_ID_PORT (i : Nat) : Fld := ⟨0x184 + 16 * i, 20, 5, .ro, 0, false⟩
/-- R173 `TB_TXQ_ID.SEQ_ID` -/
def TB_TXQ_ID_SEQ_ID : Fld := ⟨0x200, 0, 16, .ro, 0, false⟩
/-- R173 `TB_TXQ_ID.MSG_TYPE` -/
def TB_TXQ_ID_MSG_TYPE : Fld := ⟨0x200, 16, 4, .ro, 0, false⟩
/-- R173 `TB_TXQ_ID.PORT` -/
def TB_TXQ_ID_PORT : Fld := ⟨0x200, 20, 5, .ro, 0, false⟩
/-- R173 `TB_TXQ_ID.VALID` -/
def TB_TXQ_ID_VALID : Fld := ⟨0x200, 31, 1, .ro, 0, false⟩
/-- R173 `TB_TXQ_TS_LO.T` -/
def TB_TXQ_TS_LO_T : Fld := ⟨0x204, 0, 32, .ro, 0, false⟩
/-- R173 `TB_TXQ_TS_HI.T` -/
def TB_TXQ_TS_HI_T : Fld := ⟨0x208, 0, 32, .ro, 0, false⟩
/-- R173 `TB_TXQ_STAT.USED` -/
def TB_TXQ_STAT_USED : Fld := ⟨0x20C, 0, 7, .ro, 0, false⟩
/-- R173 `TB_TXQ_STAT.OVF` -/
def TB_TXQ_STAT_OVF : Fld := ⟨0x20C, 7, 1, .w1c, 0, false⟩
/-- R173 `TB_TXQ_LOST.COUNT` -/
def TB_TXQ_LOST_COUNT : Fld := ⟨0x210, 0, 32, .rc, 0, false⟩
/-- R173 `TB_TI_CTRL.EN` of instance `i` -/
def TB_TI_CTRL_EN (i : Nat) : Fld := ⟨0x300 + 16 * i, 0, 1, .rw, 0, false⟩
/-- R173 `TB_TI_CTRL.EDGE` of instance `i` -/
def TB_TI_CTRL_EDGE (i : Nat) : Fld := ⟨0x300 + 16 * i, 1, 2, .rw, 0, false⟩
/-- R173 `TB_TI_CTRL.RECORD` of instance `i` -/
def TB_TI_CTRL_RECORD (i : Nat) : Fld := ⟨0x300 + 16 * i, 3, 1, .rw, 0, false⟩
/-- R173 `TB_TI_CAP_LO.T` of instance `i` -/
def TB_TI_CAP_LO_T (i : Nat) : Fld := ⟨0x304 + 16 * i, 0, 32, .ro, 0, false⟩
/-- R173 `TB_TI_CAP_HI.T` of instance `i` -/
def TB_TI_CAP_HI_T (i : Nat) : Fld := ⟨0x308 + 16 * i, 0, 32, .ro, 0, false⟩
/-- R173 `TB_TI_STAT.COUNT` of instance `i` -/
def TB_TI_STAT_COUNT (i : Nat) : Fld := ⟨0x30C + 16 * i, 0, 16, .ro, 0, false⟩
/-- R173 `TB_TI_STAT.LAST_EDGE` of instance `i` -/
def TB_TI_STAT_LAST_EDGE (i : Nat) : Fld := ⟨0x30C + 16 * i, 16, 1, .ro, 0, false⟩
/-- R173 `TB_TO_CTRL.EN` of instance `i` -/
def TB_TO_CTRL_EN (i : Nat) : Fld := ⟨0x400 + 32 * i, 0, 1, .rw, 0, false⟩
/-- R173 `TB_TO_CTRL.PERIODIC` of instance `i` -/
def TB_TO_CTRL_PERIODIC (i : Nat) : Fld := ⟨0x400 + 32 * i, 1, 1, .rw, 0, false⟩
/-- R173 `TB_TO_CTRL.POL` of instance `i` -/
def TB_TO_CTRL_POL (i : Nat) : Fld := ⟨0x400 + 32 * i, 2, 1, .rw, 0, false⟩
/-- R173 `TB_TO_CTRL.ARM` of instance `i` -/
def TB_TO_CTRL_ARM (i : Nat) : Fld := ⟨0x400 + 32 * i, 3, 1, .w1s, 0, true⟩
/-- R173 `TB_TO_START_LO.T` of instance `i` -/
def TB_TO_START_LO_T (i : Nat) : Fld := ⟨0x404 + 32 * i, 0, 32, .rw, 0, false⟩
/-- R173 `TB_TO_START_HI.T` of instance `i` -/
def TB_TO_START_HI_T (i : Nat) : Fld := ⟨0x408 + 32 * i, 0, 32, .rw, 0, false⟩
/-- R173 `TB_TO_PERIOD.NS` of instance `i` -/
def TB_TO_PERIOD_NS (i : Nat) : Fld := ⟨0x40C + 32 * i, 0, 32, .rw, 1000000000, false⟩
/-- R173 `TB_TO_WIDTH.NS` of instance `i` -/
def TB_TO_WIDTH_NS (i : Nat) : Fld := ⟨0x410 + 32 * i, 0, 32, .rw, 100000000, false⟩
/-- R173 `TB_TO_STAT.PULSES` of instance `i` -/
def TB_TO_STAT_PULSES (i : Nat) : Fld := ⟨0x414 + 32 * i, 0, 16, .ro, 0, false⟩
/-- R173 `TB_TO_STAT.LATE` of instance `i` -/
def TB_TO_STAT_LATE (i : Nat) : Fld := ⟨0x414 + 32 * i, 16, 1, .w1c, 0, false⟩
/-- R173 `TB_TO_STAT.MISSED` of instance `i` -/
def TB_TO_STAT_MISSED (i : Nat) : Fld := ⟨0x414 + 32 * i, 17, 1, .w1c, 0, false⟩

/-- The words of a TB page or entry and the fields of each. -/
def rowsTB : List Row := [
  ⟨0xC, 1, 4, fun _ => [TB_STATUS_STATE, TB_STATUS_SLEWING, TB_STATUS_STEP_PENDING, TB_STATUS_COARSE]⟩,
  ⟨0x100, 1, 4, fun _ => [TB_NOW_LO_NOW]⟩,
  ⟨0x104, 1, 4, fun _ => [TB_NOW_HI_NOW]⟩,
  ⟨0x108, 1, 4, fun _ => [TB_CTRL_MODE]⟩,
  ⟨0x10C, 1, 4, fun _ => [TB_RATE_RATE]⟩,
  ⟨0x110, 1, 4, fun _ => [TB_STEP_LO_S]⟩,
  ⟨0x114, 1, 4, fun _ => [TB_STEP_HI_S]⟩,
  ⟨0x118, 1, 4, fun _ => [TB_JUMP_THRESH]⟩,
  ⟨0x11C, 1, 4, fun _ => [TB_PEND_LO_S]⟩,
  ⟨0x120, 1, 4, fun _ => [TB_PEND_HI_S]⟩,
  ⟨0x124, 1, 4, fun _ => [TB_ACCEPT_ACCEPT, TB_ACCEPT_DISCARD, TB_ACCEPT_KEY]⟩,
  ⟨0x128, 1, 4, fun _ => [TB_SLEW_LO_REMAIN]⟩,
  ⟨0x12C, 1, 4, fun _ => [TB_SLEW_HI_REMAIN]⟩,
  ⟨0x130, 1, 4, fun _ => [TB_HOLD_LIMIT, TB_HOLD_ELAPSED]⟩,
  ⟨0x134, 1, 4, fun _ => [TB_SERVO_STATE]⟩,
  ⟨0x138, 1, 4, fun _ => [TB_UTC_OFFSET, TB_UTC_VALID]⟩,
  ⟨0x140, 1, 4, fun _ => [TB_ENTRY_LO_T]⟩,
  ⟨0x144, 1, 4, fun _ => [TB_ENTRY_HI_T]⟩,
  ⟨0x148, 1, 4, fun _ => [TB_ENTRY_CTRL_LINE]⟩,
  ⟨0x150, 1, 4, fun _ => [TB_PTP_CFG_DOMAIN, TB_PTP_CFG_MECH, TB_PTP_CFG_TRANSPORT]⟩,
  ⟨0x154, 1, 4, fun _ => [TB_PTP_PORTS_PORTS]⟩,
  ⟨0x180, 8, 16, fun i => [TB_RXL_COUNT i, TB_RXL_SAT i, TB_RXL_RUN i, TB_RXL_VALID i]⟩,
  ⟨0x184, 8, 16, fun i => [TB_RXL_ID_SEQ_ID i, TB_RXL_ID_MSG_TYPE i, TB_RXL_ID_PORT i]⟩,
  ⟨0x200, 1, 4, fun _ => [TB_TXQ_ID_SEQ_ID, TB_TXQ_ID_MSG_TYPE, TB_TXQ_ID_PORT, TB_TXQ_ID_VALID]⟩,
  ⟨0x204, 1, 4, fun _ => [TB_TXQ_TS_LO_T]⟩,
  ⟨0x208, 1, 4, fun _ => [TB_TXQ_TS_HI_T]⟩,
  ⟨0x20C, 1, 4, fun _ => [TB_TXQ_STAT_USED, TB_TXQ_STAT_OVF]⟩,
  ⟨0x210, 1, 4, fun _ => [TB_TXQ_LOST_COUNT]⟩,
  ⟨0x300, 8, 16, fun i => [TB_TI_CTRL_EN i, TB_TI_CTRL_EDGE i, TB_TI_CTRL_RECORD i]⟩,
  ⟨0x304, 8, 16, fun i => [TB_TI_CAP_LO_T i]⟩,
  ⟨0x308, 8, 16, fun i => [TB_TI_CAP_HI_T i]⟩,
  ⟨0x30C, 8, 16, fun i => [TB_TI_STAT_COUNT i, TB_TI_STAT_LAST_EDGE i]⟩,
  ⟨0x400, 8, 32, fun i => [TB_TO_CTRL_EN i, TB_TO_CTRL_PERIODIC i, TB_TO_CTRL_POL i, TB_TO_CTRL_ARM i]⟩,
  ⟨0x404, 8, 32, fun i => [TB_TO_START_LO_T i]⟩,
  ⟨0x408, 8, 32, fun i => [TB_TO_START_HI_T i]⟩,
  ⟨0x40C, 8, 32, fun i => [TB_TO_PERIOD_NS i]⟩,
  ⟨0x410, 8, 32, fun i => [TB_TO_WIDTH_NS i]⟩,
  ⟨0x414, 8, 32, fun i => [TB_TO_STAT_PULSES i, TB_TO_STAT_LATE i, TB_TO_STAT_MISSED i]⟩]

/-! ## PCI -/

/-- R463 `PCI_LINK.SPEED` -/
def PCI_LINK_SPEED : Fld := ⟨0x100, 0, 3, .ro, 0, false⟩
/-- R463 `PCI_LINK.UP` -/
def PCI_LINK_UP : Fld := ⟨0x100, 3, 1, .ro, 0, false⟩
/-- R463 `PCI_LINK.WIDTH` -/
def PCI_LINK_WIDTH : Fld := ⟨0x100, 4, 4, .ro, 0, false⟩
/-- R463 `PCI_BAR2_CFG.OFF` -/
def PCI_BAR2_CFG_OFF : Fld := ⟨0x104, 0, 10, .rw, 0, false⟩
/-- R463 `PCI_BAR2_CFG.TARGET` -/
def PCI_BAR2_CFG_TARGET : Fld := ⟨0x104, 16, 1, .rw, 0, false⟩
/-- R463 `PCI_OUT_BASE_LO.ADDR` -/
def PCI_OUT_BASE_LO_ADDR : Fld := ⟨0x108, 0, 32, .rw, 0, false⟩
/-- R463 `PCI_OUT_BASE_HI.ADDR` -/
def PCI_OUT_BASE_HI_ADDR : Fld := ⟨0x10C, 0, 32, .rw, 0, false⟩
/-- R463 `PCI_DMA_RING.BASE` -/
def PCI_DMA_RING_BASE : Fld := ⟨0x110, 0, 14, .rw, 0, false⟩
/-- R463 `PCI_DMA_RING.SIZE` -/
def PCI_DMA_RING_SIZE : Fld := ⟨0x110, 14, 4, .rw, 0, false⟩
/-- R463 `PCI_DMA_RING.EN` -/
def PCI_DMA_RING_EN : Fld := ⟨0x110, 31, 1, .rw, 0, false⟩
/-- R463 `PCI_DMA_TAIL.IDX` -/
def PCI_DMA_TAIL_IDX : Fld := ⟨0x114, 0, 16, .rw, 0, true⟩
/-- R463 `PCI_DMA_HEAD.IDX` -/
def PCI_DMA_HEAD_IDX : Fld := ⟨0x118, 0, 16, .ro, 0, false⟩
/-- R463 `PCI_DMA_STAT.BUSY` -/
def PCI_DMA_STAT_BUSY : Fld := ⟨0x11C, 0, 1, .ro, 0, false⟩
/-- R463 `PCI_DMA_STAT.STOPPED` -/
def PCI_DMA_STAT_STOPPED : Fld := ⟨0x11C, 1, 1, .w1c, 0, false⟩
/-- R463 `PCI_CPL_TO.MS` -/
def PCI_CPL_TO_MS : Fld := ⟨0x120, 0, 16, .rw, 50, false⟩

/-- The words of a PCI page or entry and the fields of each. -/
def rowsPCI : List Row := [
  ⟨0x100, 1, 4, fun _ => [PCI_LINK_SPEED, PCI_LINK_UP, PCI_LINK_WIDTH]⟩,
  ⟨0x104, 1, 4, fun _ => [PCI_BAR2_CFG_OFF, PCI_BAR2_CFG_TARGET]⟩,
  ⟨0x108, 1, 4, fun _ => [PCI_OUT_BASE_LO_ADDR]⟩,
  ⟨0x10C, 1, 4, fun _ => [PCI_OUT_BASE_HI_ADDR]⟩,
  ⟨0x110, 1, 4, fun _ => [PCI_DMA_RING_BASE, PCI_DMA_RING_SIZE, PCI_DMA_RING_EN]⟩,
  ⟨0x114, 1, 4, fun _ => [PCI_DMA_TAIL_IDX]⟩,
  ⟨0x118, 1, 4, fun _ => [PCI_DMA_HEAD_IDX]⟩,
  ⟨0x11C, 1, 4, fun _ => [PCI_DMA_STAT_BUSY, PCI_DMA_STAT_STOPPED]⟩,
  ⟨0x120, 1, 4, fun _ => [PCI_CPL_TO_MS]⟩]

/-! ## TST -/

/-- R485 `TST_CHAL.VALUE` -/
def TST_CHAL_VALUE : Fld := ⟨0x100, 0, 16, .ro, 0, false⟩
/-- R485 `TST_UNLOCK.KEY` -/
def TST_UNLOCK_KEY : Fld := ⟨0x104, 0, 16, .wo, 0, true⟩
/-- R485 `TST_UNLOCK.LOCK` -/
def TST_UNLOCK_LOCK : Fld := ⟨0x104, 16, 1, .wo, 0, true⟩
/-- R485 `TST_UNLOCK.UNLOCKED` -/
def TST_UNLOCK_UNLOCKED : Fld := ⟨0x104, 31, 1, .ro, 0, false⟩
/-- R485 `TST_SEED.SEED` -/
def TST_SEED_SEED : Fld := ⟨0x108, 0, 32, .rw, 1, true⟩
/-- R485 `TST_DBG.EMERG` -/
def TST_DBG_EMERG : Fld := ⟨0x10C, 0, 1, .rw, 0, false⟩
/-- R485 `TST_DBG.BSCAN` -/
def TST_DBG_BSCAN : Fld := ⟨0x10C, 1, 1, .rw, 0, false⟩
/-- R485 `TST_MUX.BALL` of instance `i` -/
def TST_MUX_BALL (i : Nat) : Fld := ⟨0x140 + 4 * i, 0, 8, .rw, 0, true⟩
/-- R485 `TST_MUX.SIGNAL` of instance `i` -/
def TST_MUX_SIGNAL (i : Nat) : Fld := ⟨0x140 + 4 * i, 8, 16, .rw, 0, true⟩
/-- R485 `TST_MUX.EN` of instance `i` -/
def TST_MUX_EN (i : Nat) : Fld := ⟨0x140 + 4 * i, 31, 1, .rw, 0, true⟩

/-- The words of a TST page or entry and the fields of each. -/
def rowsTST : List Row := [
  ⟨0x100, 1, 4, fun _ => [TST_CHAL_VALUE]⟩,
  ⟨0x104, 1, 4, fun _ => [TST_UNLOCK_KEY, TST_UNLOCK_LOCK, TST_UNLOCK_UNLOCKED]⟩,
  ⟨0x108, 1, 4, fun _ => [TST_SEED_SEED]⟩,
  ⟨0x10C, 1, 4, fun _ => [TST_DBG_EMERG, TST_DBG_BSCAN]⟩,
  ⟨0x140, 4, 4, fun i => [TST_MUX_BALL i, TST_MUX_SIGNAL i, TST_MUX_EN i]⟩]

/-! ## XB -/

/-- R79 `XB_INFLIGHT.COUNT` -/
def XB_INFLIGHT_COUNT : Fld := ⟨0x100, 0, 11, .ro, 0, false⟩
/-- R79 `XB_AGE.LIMIT` -/
def XB_AGE_LIMIT : Fld := ⟨0x104, 0, 8, .rw, 64, false⟩
/-- R79 `XB_PARK.MASTER` of instance `i` -/
def XB_PARK_MASTER (i : Nat) : Fld := ⟨0x140 + 4 * i, 0, 5, .rw, xbParkMasterRst i, false⟩
/-- R79 `XB_PARK.EN` of instance `i` -/
def XB_PARK_EN (i : Nat) : Fld := ⟨0x140 + 4 * i, 31, 1, .rw, (if i = 15 then 0 else 1), false⟩
/-- R79 `XB_PRIO.RT` of instance `i` -/
def XB_PRIO_RT (i : Nat) : Fld := ⟨0x180 + 4 * i, 0, 2, .rw, 3, false⟩
/-- R79 `XB_PRIO.ST` of instance `i` -/
def XB_PRIO_ST (i : Nat) : Fld := ⟨0x180 + 4 * i, 2, 2, .rw, 2, false⟩
/-- R79 `XB_PRIO.NW` of instance `i` -/
def XB_PRIO_NW (i : Nat) : Fld := ⟨0x180 + 4 * i, 4, 2, .rw, 1, false⟩
/-- R79 `XB_PRIO.CT` of instance `i` -/
def XB_PRIO_CT (i : Nat) : Fld := ⟨0x180 + 4 * i, 6, 2, .rw, 0, false⟩
/-- R79 `XB_SLOTS.USED` of instance `i` -/
def XB_SLOTS_USED (i : Nat) : Fld := ⟨0x1C0 + 4 * i, 0, 7, .ro, 0, false⟩
/-- R79 `XB_TAGS.LIMIT` of instance `i` -/
def XB_TAGS_LIMIT (i : Nat) : Fld := ⟨0x200 + 4 * i, 0, 11, .rw, xbTagsRst i, false⟩
/-- R79 `XB_TAGS.INFLIGHT` of instance `i` -/
def XB_TAGS_INFLIGHT (i : Nat) : Fld := ⟨0x200 + 4 * i, 16, 11, .ro, 0, false⟩

/-- The words of a XB page or entry and the fields of each. -/
def rowsXB : List Row := [
  ⟨0x100, 1, 4, fun _ => [XB_INFLIGHT_COUNT]⟩,
  ⟨0x104, 1, 4, fun _ => [XB_AGE_LIMIT]⟩,
  ⟨0x140, 16, 4, fun i => [XB_PARK_MASTER i, XB_PARK_EN i]⟩,
  ⟨0x180, 16, 4, fun i => [XB_PRIO_RT i, XB_PRIO_ST i, XB_PRIO_NW i, XB_PRIO_CT i]⟩,
  ⟨0x1C0, 16, 4, fun i => [XB_SLOTS_USED i]⟩,
  ⟨0x200, 32, 4, fun i => [XB_TAGS_LIMIT i, XB_TAGS_INFLIGHT i]⟩]

/-! ## GRD -/

/-- R87 `GRD_DFLT_RD.MASK` -/
def GRD_DFLT_RD_MASK : Fld := ⟨0x100, 0, 32, .rwl, 0, true⟩
/-- R87 `GRD_DFLT_WR.MASK` -/
def GRD_DFLT_WR_MASK : Fld := ⟨0x104, 0, 32, .rwl, 0, true⟩
/-- R87 `GRD_FENCE.GEN` -/
def GRD_FENCE_GEN : Fld := ⟨0x108, 0, 16, .ro, 0, false⟩
/-- R87 `GRD_FENCE.DRAINED` -/
def GRD_FENCE_DRAINED : Fld := ⟨0x108, 31, 1, .ro, 1, false⟩
/-- R87 `GRD_VCOUNT.COUNT` -/
def GRD_VCOUNT_COUNT : Fld := ⟨0x10C, 0, 32, .rc, 0, false⟩
/-- R87 `GRD_VADDR_LO.ADDR` -/
def GRD_VADDR_LO_ADDR : Fld := ⟨0x110, 0, 32, .ro, 0, false⟩
/-- R87 `GRD_VADDR_HI.ADDR` -/
def GRD_VADDR_HI_ADDR : Fld := ⟨0x114, 0, 8, .ro, 0, false⟩
/-- R87 `GRD_VINFO.MASTER` -/
def GRD_VINFO_MASTER : Fld := ⟨0x118, 0, 5, .ro, 0, false⟩
/-- R87 `GRD_VINFO.KIND` -/
def GRD_VINFO_KIND : Fld := ⟨0x118, 5, 2, .ro, 0, false⟩
/-- R87 `GRD_VINFO.REGION` -/
def GRD_VINFO_REGION : Fld := ⟨0x118, 7, 6, .ro, 0, false⟩
/-- R87 `GRD_VINFO.FAULT` -/
def GRD_VINFO_FAULT : Fld := ⟨0x118, 13, 2, .ro, 0, false⟩
/-- R87 `GRD_VINFO.PARTS` -/
def GRD_VINFO_PARTS : Fld := ⟨0x118, 15, 5, .ro, 0, false⟩
/-- R87 `GRD_VINFO.VALID` -/
def GRD_VINFO_VALID : Fld := ⟨0x118, 31, 1, .w1c, 0, false⟩
/-- R87 `GRD_VFID.FID` -/
def GRD_VFID_FID : Fld := ⟨0x11C, 0, 16, .ro, 0, false⟩
/-- R87 `GRD_VFID.GEN` -/
def GRD_VFID_GEN : Fld := ⟨0x11C, 16, 16, .ro, 0, false⟩
/-- R87 `GRD_RG_CTRL.EN` of instance `i` -/
def GRD_RG_CTRL_EN (i : Nat) : Fld := ⟨0x200 + 32 * i, 0, 1, .rwl, 0, true⟩
/-- R87 `GRD_RG_CTRL.NOEXEC` of instance `i` -/
def GRD_RG_CTRL_NOEXEC (i : Nat) : Fld := ⟨0x200 + 32 * i, 1, 1, .rwl, 0, true⟩
/-- R87 `GRD_RG_CTRL.LOCK` of instance `i` -/
def GRD_RG_CTRL_LOCK (i : Nat) : Fld := ⟨0x200 + 32 * i, 31, 1, .w1s, 0, true⟩
/-- R87 `GRD_RG_BASE.BASE` of instance `i` -/
def GRD_RG_BASE_BASE (i : Nat) : Fld := ⟨0x204 + 32 * i, 0, 32, .rwl, 0, true⟩
/-- R87 `GRD_RG_LIMIT.LIMIT` of instance `i` -/
def GRD_RG_LIMIT_LIMIT (i : Nat) : Fld := ⟨0x208 + 32 * i, 0, 32, .rwl, 0, true⟩
/-- R87 `GRD_RG_RD.MASK` of instance `i` -/
def GRD_RG_RD_MASK (i : Nat) : Fld := ⟨0x20C + 32 * i, 0, 32, .rwl, 0, true⟩
/-- R87 `GRD_RG_WR.MASK` of instance `i` -/
def GRD_RG_WR_MASK (i : Nat) : Fld := ⟨0x210 + 32 * i, 0, 32, .rwl, 0, true⟩

/-- The words of a GRD page or entry and the fields of each. -/
def rowsGRD : List Row := [
  ⟨0x100, 1, 4, fun _ => [GRD_DFLT_RD_MASK]⟩,
  ⟨0x104, 1, 4, fun _ => [GRD_DFLT_WR_MASK]⟩,
  ⟨0x108, 1, 4, fun _ => [GRD_FENCE_GEN, GRD_FENCE_DRAINED]⟩,
  ⟨0x10C, 1, 4, fun _ => [GRD_VCOUNT_COUNT]⟩,
  ⟨0x110, 1, 4, fun _ => [GRD_VADDR_LO_ADDR]⟩,
  ⟨0x114, 1, 4, fun _ => [GRD_VADDR_HI_ADDR]⟩,
  ⟨0x118, 1, 4, fun _ => [GRD_VINFO_MASTER, GRD_VINFO_KIND, GRD_VINFO_REGION, GRD_VINFO_FAULT, GRD_VINFO_PARTS, GRD_VINFO_VALID]⟩,
  ⟨0x11C, 1, 4, fun _ => [GRD_VFID_FID, GRD_VFID_GEN]⟩,
  ⟨0x200, 64, 32, fun i => [GRD_RG_CTRL_EN i, GRD_RG_CTRL_NOEXEC i, GRD_RG_CTRL_LOCK i]⟩,
  ⟨0x204, 64, 32, fun i => [GRD_RG_BASE_BASE i]⟩,
  ⟨0x208, 64, 32, fun i => [GRD_RG_LIMIT_LIMIT i]⟩,
  ⟨0x20C, 64, 32, fun i => [GRD_RG_RD_MASK i]⟩,
  ⟨0x210, 64, 32, fun i => [GRD_RG_WR_MASK i]⟩]

/-! ## HIT -/

/-- R96 `HIT_TAKE.RELEASE` of instance `i` -/
def HIT_TAKE_RELEASE (i : Nat) : Fld := ⟨0x100 + 4 * i, 0, 1, .wo, 0, true⟩
/-- R96 `HIT_VIEW.EPOCH` of instance `i` -/
def HIT_VIEW_EPOCH (i : Nat) : Fld := ⟨0x500 + 4 * i, 0, 16, .ro, 0, false⟩
/-- R96 `HIT_VIEW.OWNER` of instance `i` -/
def HIT_VIEW_OWNER (i : Nat) : Fld := ⟨0x500 + 4 * i, 16, 16, .ro, 0, false⟩
/-- R96 `HIT_WAIT.HITCH` of instance `i` -/
def HIT_WAIT_HITCH (i : Nat) : Fld := ⟨0x900 + 4 * i, 0, 8, .rw, 0, true⟩
/-- R96 `HIT_WAIT.TIMEOUT` of instance `i` -/
def HIT_WAIT_TIMEOUT (i : Nat) : Fld := ⟨0x900 + 4 * i, 8, 20, .rw, 0, true⟩
/-- R96 `HIT_WAIT.ABANDONED` of instance `i` -/
def HIT_WAIT_ABANDONED (i : Nat) : Fld := ⟨0x900 + 4 * i, 29, 1, .ro, 0, false⟩
/-- R96 `HIT_WAIT.STATE` of instance `i` -/
def HIT_WAIT_STATE (i : Nat) : Fld := ⟨0x900 + 4 * i, 30, 2, .ro, 0, false⟩
/-- R96 `HIT_EPOCH.EPOCH` of instance `i` -/
def HIT_EPOCH_EPOCH (i : Nat) : Fld := ⟨0x940 + 4 * i, 0, 16, .ro, 0, false⟩
/-- R96 `HIT_ABAND.ABAND` of instance `i` -/
def HIT_ABAND_ABAND (i : Nat) : Fld := ⟨0x980 + 4 * i, 0, 32, .ro, 0, false⟩

/-- The words of a HIT page or entry and the fields of each. -/
def rowsHIT : List Row := [
  ⟨0x100, 256, 4, fun i => [HIT_TAKE_RELEASE i]⟩,
  ⟨0x500, 256, 4, fun i => [HIT_VIEW_EPOCH i, HIT_VIEW_OWNER i]⟩,
  ⟨0x900, 10, 4, fun i => [HIT_WAIT_HITCH i, HIT_WAIT_TIMEOUT i, HIT_WAIT_ABANDONED i, HIT_WAIT_STATE i]⟩,
  ⟨0x940, 10, 4, fun i => [HIT_EPOCH_EPOCH i]⟩,
  ⟨0x980, 8, 4, fun i => [HIT_ABAND_ABAND i]⟩]

/-! ## DMC -/

/-- R126 `DMC_CFG.DENSITY` -/
def DMC_CFG_DENSITY : Fld := ⟨0x100, 0, 2, .rwl, 0, false⟩
/-- R126 `DMC_CFG.RANKS` -/
def DMC_CFG_RANKS : Fld := ⟨0x100, 2, 1, .rwl, 0, false⟩
/-- R126 `DMC_CFG.RATE` -/
def DMC_CFG_RATE : Fld := ⟨0x100, 3, 3, .rwl, 0, false⟩
/-- R126 `DMC_CFG.POPULATED` -/
def DMC_CFG_POPULATED : Fld := ⟨0x100, 6, 1, .rwl, 0, false⟩
/-- R126 `DMC_MAP.N` -/
def DMC_MAP_N : Fld := ⟨0x104, 0, 4, .ro, 0, false⟩
/-- R126 `DMC_MAP.POS` -/
def DMC_MAP_POS : Fld := ⟨0x104, 4, 3, .ro, 0, false⟩
/-- R126 `DMC_MAP.MAPPED_GIB` -/
def DMC_MAP_MAPPED_GIB : Fld := ⟨0x104, 8, 5, .ro, 0, false⟩
/-- R126 `DMC_INIT.DONE` -/
def DMC_INIT_DONE : Fld := ⟨0x108, 0, 1, .ro, 0, false⟩
/-- R126 `DMC_INIT.MARK_MIB` -/
def DMC_INIT_MARK_MIB : Fld := ⟨0x108, 16, 15, .ro, 0, false⟩
/-- R126 `DMC_REF.INTERVAL` -/
def DMC_REF_INTERVAL : Fld := ⟨0x10C, 0, 16, .rw, 3900, false⟩
/-- R126 `DMC_REF.AUTO_TEMP` -/
def DMC_REF_AUTO_TEMP : Fld := ⟨0x10C, 16, 1, .rw, 1, false⟩
/-- R126 `DMC_REF.HALVED` -/
def DMC_REF_HALVED : Fld := ⟨0x10C, 17, 1, .ro, 0, false⟩
/-- R126 `DMC_REF.OWED` -/
def DMC_REF_OWED : Fld := ⟨0x10C, 18, 3, .ro, 0, false⟩
/-- R126 `DMC_REF_PRE.COUNT` -/
def DMC_REF_PRE_COUNT : Fld := ⟨0x110, 0, 32, .rc, 0, false⟩
/-- R126 `DMC_PM.SR_REQ` -/
def DMC_PM_SR_REQ : Fld := ⟨0x114, 0, 1, .rw, 0, true⟩
/-- R126 `DMC_PM.STATE` -/
def DMC_PM_STATE : Fld := ⟨0x114, 1, 2, .ro, 0, false⟩
/-- R126 `DMC_TRN.DELTA` -/
def DMC_TRN_DELTA : Fld := ⟨0x118, 0, 8, .rw, 10, false⟩
/-- R126 `DMC_TRN.NOW` -/
def DMC_TRN_NOW : Fld := ⟨0x118, 8, 1, .w1s, 0, true⟩
/-- R126 `DMC_TRN.BUSY` -/
def DMC_TRN_BUSY : Fld := ⟨0x118, 9, 1, .ro, 0, false⟩
/-- R126 `DMC_TRN.FAIL` -/
def DMC_TRN_FAIL : Fld := ⟨0x118, 10, 1, .ro, 0, false⟩
/-- R126 `DMC_TRN.TEMP_LAST` -/
def DMC_TRN_TEMP_LAST : Fld := ⟨0x118, 16, 8, .ro, 0, false⟩
/-- R126 `DMC_TRN_COUNT.COUNT` -/
def DMC_TRN_COUNT_COUNT : Fld := ⟨0x11C, 0, 32, .ro, 0, false⟩
/-- R126 `DMC_SCRUB.PERIOD` -/
def DMC_SCRUB_PERIOD : Fld := ⟨0x120, 0, 8, .rw, 24, false⟩
/-- R126 `DMC_SCRUB.BEHIND` -/
def DMC_SCRUB_BEHIND : Fld := ⟨0x120, 30, 1, .ro, 0, false⟩
/-- R126 `DMC_SCRUB.EN` -/
def DMC_SCRUB_EN : Fld := ⟨0x120, 31, 1, .rw, 1, false⟩
/-- R126 `DMC_SCRUB_POS.MIB` -/
def DMC_SCRUB_POS_MIB : Fld := ⟨0x124, 0, 15, .ro, 0, false⟩
/-- R126 `DMC_CE_COUNT.COUNT` -/
def DMC_CE_COUNT_COUNT : Fld := ⟨0x128, 0, 32, .rc, 0, false⟩
/-- R126 `DMC_UE_COUNT.COUNT` -/
def DMC_UE_COUNT_COUNT : Fld := ⟨0x12C, 0, 32, .rc, 0, false⟩
/-- R126 `DMC_META_UE_COUNT.COUNT` -/
def DMC_META_UE_COUNT_COUNT : Fld := ⟨0x130, 0, 32, .rc, 0, false⟩
/-- R126 `DMC_TAGMISS_COUNT.COUNT` -/
def DMC_TAGMISS_COUNT_COUNT : Fld := ⟨0x134, 0, 32, .rc, 0, false⟩
/-- R126 `DMC_EADDR_LO.ADDR` -/
def DMC_EADDR_LO_ADDR : Fld := ⟨0x138, 0, 32, .ro, 0, false⟩
/-- R126 `DMC_EADDR_HI.ADDR` -/
def DMC_EADDR_HI_ADDR : Fld := ⟨0x13C, 0, 8, .ro, 0, false⟩
/-- R126 `DMC_EINFO.KIND` -/
def DMC_EINFO_KIND : Fld := ⟨0x140, 0, 3, .ro, 0, false⟩
/-- R126 `DMC_EINFO.MASTER` -/
def DMC_EINFO_MASTER : Fld := ⟨0x140, 3, 5, .ro, 0, false⟩
/-- R126 `DMC_EINFO.SYNDROME` -/
def DMC_EINFO_SYNDROME : Fld := ⟨0x140, 8, 8, .ro, 0, false⟩
/-- R126 `DMC_EINFO.SCRUB` -/
def DMC_EINFO_SCRUB : Fld := ⟨0x140, 16, 1, .ro, 0, false⟩
/-- R126 `DMC_EINFO.VALID` -/
def DMC_EINFO_VALID : Fld := ⟨0x140, 31, 1, .w1c, 0, false⟩
/-- R126 `DMC_SLOT_CTRL.LEN` -/
def DMC_SLOT_CTRL_LEN : Fld := ⟨0x180, 0, 8, .rw, 16, false⟩
/-- R126 `DMC_SLOT_CTRL.ACTIVE` -/
def DMC_SLOT_CTRL_ACTIVE : Fld := ⟨0x180, 8, 1, .ro, 0, false⟩
/-- R126 `DMC_SLOT_CTRL.SWAP` -/
def DMC_SLOT_CTRL_SWAP : Fld := ⟨0x180, 9, 1, .w1s, 0, true⟩
/-- R126 `DMC_SLOT_CTRL.CUR` -/
def DMC_SLOT_CTRL_CUR : Fld := ⟨0x180, 16, 6, .ro, 0, false⟩
/-- R126 `DMC_LAT.TARGET` of instance `i` -/
def DMC_LAT_TARGET (i : Nat) : Fld := ⟨0x200 + 4 * i, 0, 16, .rw, dmcLatRst i, false⟩
/-- R126 `DMC_TOK.RESERVE` of instance `i` -/
def DMC_TOK_RESERVE (i : Nat) : Fld := ⟨0x280 + 4 * i, 0, 7, .rw, dmcTokRst i, true⟩
/-- R126 `DMC_TOK.HELD` of instance `i` -/
def DMC_TOK_HELD (i : Nat) : Fld := ⟨0x280 + 4 * i, 16, 8, .ro, 0, false⟩
/-- R126 `DMC_LATE.COUNT` of instance `i` -/
def DMC_LATE_COUNT (i : Nat) : Fld := ⟨0x300 + 4 * i, 0, 32, .rc, 0, false⟩
/-- R126 `DMC_SLOTA.MASTER` of instance `i` -/
def DMC_SLOTA_MASTER (i : Nat) : Fld := ⟨0x400 + 4 * i, 0, 5, .rw, 0, true⟩
/-- R126 `DMC_SLOTA.VALID` of instance `i` -/
def DMC_SLOTA_VALID (i : Nat) : Fld := ⟨0x400 + 4 * i, 7, 1, .rw, 0, true⟩
/-- R126 `DMC_TOKFREE.FREE` -/
def DMC_TOKFREE_FREE : Fld := ⟨0x600, 0, 8, .ro, 128, false⟩
/-- R126 `DMC_SLOTB.MASTER` of instance `i` -/
def DMC_SLOTB_MASTER (i : Nat) : Fld := ⟨0x500 + 4 * i, 0, 5, .rw, 0, true⟩
/-- R126 `DMC_SLOTB.VALID` of instance `i` -/
def DMC_SLOTB_VALID (i : Nat) : Fld := ⟨0x500 + 4 * i, 7, 1, .rw, 0, true⟩

/-- The words of a DMC page or entry and the fields of each. -/
def rowsDMC : List Row := [
  ⟨0x100, 1, 4, fun _ => [DMC_CFG_DENSITY, DMC_CFG_RANKS, DMC_CFG_RATE, DMC_CFG_POPULATED]⟩,
  ⟨0x104, 1, 4, fun _ => [DMC_MAP_N, DMC_MAP_POS, DMC_MAP_MAPPED_GIB]⟩,
  ⟨0x108, 1, 4, fun _ => [DMC_INIT_DONE, DMC_INIT_MARK_MIB]⟩,
  ⟨0x10C, 1, 4, fun _ => [DMC_REF_INTERVAL, DMC_REF_AUTO_TEMP, DMC_REF_HALVED, DMC_REF_OWED]⟩,
  ⟨0x110, 1, 4, fun _ => [DMC_REF_PRE_COUNT]⟩,
  ⟨0x114, 1, 4, fun _ => [DMC_PM_SR_REQ, DMC_PM_STATE]⟩,
  ⟨0x118, 1, 4, fun _ => [DMC_TRN_DELTA, DMC_TRN_NOW, DMC_TRN_BUSY, DMC_TRN_FAIL, DMC_TRN_TEMP_LAST]⟩,
  ⟨0x11C, 1, 4, fun _ => [DMC_TRN_COUNT_COUNT]⟩,
  ⟨0x120, 1, 4, fun _ => [DMC_SCRUB_PERIOD, DMC_SCRUB_BEHIND, DMC_SCRUB_EN]⟩,
  ⟨0x124, 1, 4, fun _ => [DMC_SCRUB_POS_MIB]⟩,
  ⟨0x128, 1, 4, fun _ => [DMC_CE_COUNT_COUNT]⟩,
  ⟨0x12C, 1, 4, fun _ => [DMC_UE_COUNT_COUNT]⟩,
  ⟨0x130, 1, 4, fun _ => [DMC_META_UE_COUNT_COUNT]⟩,
  ⟨0x134, 1, 4, fun _ => [DMC_TAGMISS_COUNT_COUNT]⟩,
  ⟨0x138, 1, 4, fun _ => [DMC_EADDR_LO_ADDR]⟩,
  ⟨0x13C, 1, 4, fun _ => [DMC_EADDR_HI_ADDR]⟩,
  ⟨0x140, 1, 4, fun _ => [DMC_EINFO_KIND, DMC_EINFO_MASTER, DMC_EINFO_SYNDROME, DMC_EINFO_SCRUB, DMC_EINFO_VALID]⟩,
  ⟨0x180, 1, 4, fun _ => [DMC_SLOT_CTRL_LEN, DMC_SLOT_CTRL_ACTIVE, DMC_SLOT_CTRL_SWAP, DMC_SLOT_CTRL_CUR]⟩,
  ⟨0x200, 32, 4, fun i => [DMC_LAT_TARGET i]⟩,
  ⟨0x280, 32, 4, fun i => [DMC_TOK_RESERVE i, DMC_TOK_HELD i]⟩,
  ⟨0x300, 32, 4, fun i => [DMC_LATE_COUNT i]⟩,
  ⟨0x400, 64, 4, fun i => [DMC_SLOTA_MASTER i, DMC_SLOTA_VALID i]⟩,
  ⟨0x600, 1, 4, fun _ => [DMC_TOKFREE_FREE]⟩,
  ⟨0x500, 64, 4, fun i => [DMC_SLOTB_MASTER i, DMC_SLOTB_VALID i]⟩]

/-! ## LOFT -/

/-- R131 `LOFT_SCRUB.PERIOD` -/
def LOFT_SCRUB_PERIOD : Fld := ⟨0x100, 0, 16, .rw, 3600, false⟩
/-- R131 `LOFT_SCRUB.EN` -/
def LOFT_SCRUB_EN : Fld := ⟨0x100, 31, 1, .rw, 1, false⟩
/-- R131 `LOFT_CE_COUNT.COUNT` -/
def LOFT_CE_COUNT_COUNT : Fld := ⟨0x104, 0, 32, .rc, 0, false⟩
/-- R131 `LOFT_UE_COUNT.COUNT` -/
def LOFT_UE_COUNT_COUNT : Fld := ⟨0x108, 0, 32, .rc, 0, false⟩
/-- R131 `LOFT_EADDR.OFFSET` -/
def LOFT_EADDR_OFFSET : Fld := ⟨0x10C, 0, 26, .ro, 0, false⟩
/-- R131 `LOFT_EINFO.KIND` -/
def LOFT_EINFO_KIND : Fld := ⟨0x110, 0, 1, .ro, 0, false⟩
/-- R131 `LOFT_EINFO.MASTER` -/
def LOFT_EINFO_MASTER : Fld := ⟨0x110, 1, 5, .ro, 0, false⟩
/-- R131 `LOFT_EINFO.SYNDROME` -/
def LOFT_EINFO_SYNDROME : Fld := ⟨0x110, 8, 8, .ro, 0, false⟩
/-- R131 `LOFT_EINFO.VALID` -/
def LOFT_EINFO_VALID : Fld := ⟨0x110, 31, 1, .w1c, 0, false⟩
/-- R131 `LOFT_PART.BASE` of instance `i` -/
def LOFT_PART_BASE (i : Nat) : Fld := ⟨0x140 + 4 * i, 0, 10, .rwl, 0, true⟩
/-- R131 `LOFT_PART.SIZE` of instance `i` -/
def LOFT_PART_SIZE (i : Nat) : Fld := ⟨0x140 + 4 * i, 16, 10, .rwl, 0, true⟩
/-- R131 `LOFT_PART.USE` of instance `i` -/
def LOFT_PART_USE (i : Nat) : Fld := ⟨0x140 + 4 * i, 26, 3, .rwl, 0, true⟩
/-- R131 `LOFT_PART.EN` of instance `i` -/
def LOFT_PART_EN (i : Nat) : Fld := ⟨0x140 + 4 * i, 30, 1, .rwl, 0, true⟩
/-- R131 `LOFT_PART.LOCK` of instance `i` -/
def LOFT_PART_LOCK (i : Nat) : Fld := ⟨0x140 + 4 * i, 31, 1, .w1s, 0, true⟩

/-- The words of a LOFT page or entry and the fields of each. -/
def rowsLOFT : List Row := [
  ⟨0x100, 1, 4, fun _ => [LOFT_SCRUB_PERIOD, LOFT_SCRUB_EN]⟩,
  ⟨0x104, 1, 4, fun _ => [LOFT_CE_COUNT_COUNT]⟩,
  ⟨0x108, 1, 4, fun _ => [LOFT_UE_COUNT_COUNT]⟩,
  ⟨0x10C, 1, 4, fun _ => [LOFT_EADDR_OFFSET]⟩,
  ⟨0x110, 1, 4, fun _ => [LOFT_EINFO_KIND, LOFT_EINFO_MASTER, LOFT_EINFO_SYNDROME, LOFT_EINFO_VALID]⟩,
  ⟨0x140, 16, 4, fun i => [LOFT_PART_BASE i, LOFT_PART_SIZE i, LOFT_PART_USE i, LOFT_PART_EN i, LOFT_PART_LOCK i]⟩]

/-! ## BAYD -/

/-- R134 `BAYD_BASE.BASE` -/
def BAYD_BASE_BASE : Fld := ⟨0x0, 0, 25, .rwl, 0, true⟩
/-- R134 `BAYD_SIZE.SIZE` -/
def BAYD_SIZE_SIZE : Fld := ⟨0x4, 0, 24, .rwl, 0, true⟩
/-- R134 `BAYD_SIZE.CLASS` -/
def BAYD_SIZE_CLASS : Fld := ⟨0x4, 24, 4, .rwl, 0, true⟩
/-- R134 `BAYD_SIZE.FORMAT` -/
def BAYD_SIZE_FORMAT : Fld := ⟨0x4, 28, 4, .rwl, 0, true⟩
/-- R134 `BAYD_DIM.WIDTH` -/
def BAYD_DIM_WIDTH : Fld := ⟨0x8, 0, 16, .rwl, 0, true⟩
/-- R134 `BAYD_DIM.HEIGHT` -/
def BAYD_DIM_HEIGHT : Fld := ⟨0x8, 16, 16, .rwl, 0, true⟩
/-- R134 `BAYD_STRIDE.STRIDE` -/
def BAYD_STRIDE_STRIDE : Fld := ⟨0xC, 0, 16, .rwl, 0, true⟩
/-- R134 `BAYD_PLANE2.OFF` -/
def BAYD_PLANE2_OFF : Fld := ⟨0x10, 0, 24, .rwl, 0, true⟩
/-- R134 `BAYD_STATS.OFF` -/
def BAYD_STATS_OFF : Fld := ⟨0x14, 0, 24, .rwl, 0, true⟩
/-- R134 `BAYD_STAT.STATE` -/
def BAYD_STAT_STATE : Fld := ⟨0x18, 0, 2, .ro, 0, true⟩
/-- R134 `BAYD_STAT.READY` -/
def BAYD_STAT_READY : Fld := ⟨0x18, 2, 1, .rw, 0, true⟩
/-- R134 `BAYD_STAT.CONCEALED` -/
def BAYD_STAT_CONCEALED : Fld := ⟨0x18, 3, 1, .ro, 0, true⟩
/-- R134 `BAYD_STAT.ESTIMATED` -/
def BAYD_STAT_ESTIMATED : Fld := ⟨0x18, 4, 1, .rw, 0, true⟩
/-- R134 `BAYD_STAT.OWNED` -/
def BAYD_STAT_OWNED : Fld := ⟨0x18, 5, 1, .ro, 0, true⟩
/-- R134 `BAYD_STAT.MARKS` -/
def BAYD_STAT_MARKS : Fld := ⟨0x18, 8, 8, .ro, 0, true⟩
/-- R134 `BAYD_STAT.GEN` -/
def BAYD_STAT_GEN : Fld := ⟨0x18, 16, 16, .ro, 0, true⟩
/-- R134 `BAYD_OWNER.OWNER` -/
def BAYD_OWNER_OWNER : Fld := ⟨0x1C, 0, 16, .ro, 0, true⟩
/-- R134 `BAYD_OWNER.REFCNT` -/
def BAYD_OWNER_REFCNT : Fld := ⟨0x1C, 16, 16, .ro, 0, true⟩
/-- R134 `BAYD_TC_LO.TC` -/
def BAYD_TC_LO_TC : Fld := ⟨0x20, 0, 32, .rw, 0, true⟩
/-- R134 `BAYD_TC_HI.TC` -/
def BAYD_TC_HI_TC : Fld := ⟨0x24, 0, 32, .rw, 0, true⟩
/-- R134 `BAYD_ADMIT_LO.ADMIT` -/
def BAYD_ADMIT_LO_ADMIT : Fld := ⟨0x28, 0, 32, .ro, 0, true⟩
/-- R134 `BAYD_ADMIT_HI.ADMIT` -/
def BAYD_ADMIT_HI_ADMIT : Fld := ⟨0x2C, 0, 32, .ro, 0, true⟩
/-- R134 `BAYD_FSEQ.FSEQ` -/
def BAYD_FSEQ_FSEQ : Fld := ⟨0x30, 0, 32, .rw, 0, true⟩
/-- R134 `BAYD_LEDGER.BAY` -/
def BAYD_LEDGER_BAY : Fld := ⟨0x34, 0, 13, .ro, 0, true⟩
/-- R134 `BAYD_LEDGER.GEN` -/
def BAYD_LEDGER_GEN : Fld := ⟨0x34, 16, 16, .ro, 0, true⟩
/-- R134 `BAYD_WCRC.WCRC` -/
def BAYD_WCRC_WCRC : Fld := ⟨0x38, 0, 32, .ro, 0, true⟩
/-- R134 `BAYD_FEED.FEED` -/
def BAYD_FEED_FEED : Fld := ⟨0x3C, 0, 10, .ro, 1023, true⟩

/-- The words of a BAYD page or entry and the fields of each. -/
def rowsBAYD : List Row := [
  ⟨0x0, 1, 4, fun _ => [BAYD_BASE_BASE]⟩,
  ⟨0x4, 1, 4, fun _ => [BAYD_SIZE_SIZE, BAYD_SIZE_CLASS, BAYD_SIZE_FORMAT]⟩,
  ⟨0x8, 1, 4, fun _ => [BAYD_DIM_WIDTH, BAYD_DIM_HEIGHT]⟩,
  ⟨0xC, 1, 4, fun _ => [BAYD_STRIDE_STRIDE]⟩,
  ⟨0x10, 1, 4, fun _ => [BAYD_PLANE2_OFF]⟩,
  ⟨0x14, 1, 4, fun _ => [BAYD_STATS_OFF]⟩,
  ⟨0x18, 1, 4, fun _ => [BAYD_STAT_STATE, BAYD_STAT_READY, BAYD_STAT_CONCEALED, BAYD_STAT_ESTIMATED, BAYD_STAT_OWNED, BAYD_STAT_MARKS, BAYD_STAT_GEN]⟩,
  ⟨0x1C, 1, 4, fun _ => [BAYD_OWNER_OWNER, BAYD_OWNER_REFCNT]⟩,
  ⟨0x20, 1, 4, fun _ => [BAYD_TC_LO_TC]⟩,
  ⟨0x24, 1, 4, fun _ => [BAYD_TC_HI_TC]⟩,
  ⟨0x28, 1, 4, fun _ => [BAYD_ADMIT_LO_ADMIT]⟩,
  ⟨0x2C, 1, 4, fun _ => [BAYD_ADMIT_HI_ADMIT]⟩,
  ⟨0x30, 1, 4, fun _ => [BAYD_FSEQ_FSEQ]⟩,
  ⟨0x34, 1, 4, fun _ => [BAYD_LEDGER_BAY, BAYD_LEDGER_GEN]⟩,
  ⟨0x38, 1, 4, fun _ => [BAYD_WCRC_WCRC]⟩,
  ⟨0x3C, 1, 4, fun _ => [BAYD_FEED_FEED]⟩]

/-! ## BAY -/

/-- R151 `BAY_BOOKS.FREE` -/
def BAY_BOOKS_FREE : Fld := ⟨0x100, 0, 14, .ro, 8192, false⟩
/-- R151 `BAY_BOOKS.HELD` -/
def BAY_BOOKS_HELD : Fld := ⟨0x100, 16, 14, .ro, 0, false⟩
/-- R151 `BAY_UNSET.COUNT` -/
def BAY_UNSET_COUNT : Fld := ⟨0x104, 0, 14, .ro, 8192, false⟩
/-- R151 `BAY_EMPTY_COUNT.COUNT` -/
def BAY_EMPTY_COUNT_COUNT : Fld := ⟨0x108, 0, 32, .rc, 0, false⟩
/-- R151 `BAY_CLASS.FREE` of instance `i` -/
def BAY_CLASS_FREE (i : Nat) : Fld := ⟨0x140 + 4 * i, 0, 14, .ro, 0, false⟩
/-- R151 `BAY_CLASS.HELD` of instance `i` -/
def BAY_CLASS_HELD (i : Nat) : Fld := ⟨0x140 + 4 * i, 16, 14, .ro, 0, false⟩
/-- R151 `BAY_ALLOC.BAY` of instance `i` -/
def BAY_ALLOC_BAY (i : Nat) : Fld := ⟨0x180 + 4 * i, 0, 13, .ro, 0, false⟩
/-- R151 `BAY_ALLOC.GOT` of instance `i` -/
def BAY_ALLOC_GOT (i : Nat) : Fld := ⟨0x180 + 4 * i, 13, 1, .ro, 0, false⟩
/-- R151 `BAY_ALLOC.GEN` of instance `i` -/
def BAY_ALLOC_GEN (i : Nat) : Fld := ⟨0x180 + 4 * i, 16, 16, .ro, 0, false⟩
/-- R151 `BAY_FREE.BAY` -/
def BAY_FREE_BAY : Fld := ⟨0x1C0, 0, 13, .wo, 0, true⟩
/-- R151 `BAY_FREE.FORCE` -/
def BAY_FREE_FORCE : Fld := ⟨0x1C0, 13, 1, .wo, 0, true⟩
/-- R151 `BAY_FREE.GEN` -/
def BAY_FREE_GEN : Fld := ⟨0x1C0, 16, 16, .wo, 0, true⟩
/-- R151 `BAY_ENLIST.BAY` -/
def BAY_ENLIST_BAY : Fld := ⟨0x1C4, 0, 13, .wo, 0, true⟩
/-- R151 `BAY_ENLIST.ENLIST` -/
def BAY_ENLIST_ENLIST : Fld := ⟨0x1C4, 13, 1, .wo, 0, true⟩
/-- R151 `BAY_APT.BAY` of instance `i` -/
def BAY_APT_BAY (i : Nat) : Fld := ⟨0x200 + 4 * i, 0, 13, .rw, 0, true⟩
/-- R151 `BAY_APT.EN` of instance `i` -/
def BAY_APT_EN (i : Nat) : Fld := ⟨0x200 + 4 * i, 15, 1, .rw, 0, true⟩
/-- R151 `BAY_APT.GEN` of instance `i` -/
def BAY_APT_GEN (i : Nat) : Fld := ⟨0x200 + 4 * i, 16, 16, .rw, 0, true⟩

/-- The words of a BAY page or entry and the fields of each. -/
def rowsBAY : List Row := [
  ⟨0x100, 1, 4, fun _ => [BAY_BOOKS_FREE, BAY_BOOKS_HELD]⟩,
  ⟨0x104, 1, 4, fun _ => [BAY_UNSET_COUNT]⟩,
  ⟨0x108, 1, 4, fun _ => [BAY_EMPTY_COUNT_COUNT]⟩,
  ⟨0x140, 16, 4, fun i => [BAY_CLASS_FREE i, BAY_CLASS_HELD i]⟩,
  ⟨0x180, 16, 4, fun i => [BAY_ALLOC_BAY i, BAY_ALLOC_GOT i, BAY_ALLOC_GEN i]⟩,
  ⟨0x1C0, 1, 4, fun _ => [BAY_FREE_BAY, BAY_FREE_FORCE, BAY_FREE_GEN]⟩,
  ⟨0x1C4, 1, 4, fun _ => [BAY_ENLIST_BAY, BAY_ENLIST_ENLIST]⟩,
  ⟨0x200, 16, 4, fun i => [BAY_APT_BAY i, BAY_APT_EN i, BAY_APT_GEN i]⟩]

/-! ## MSIX -/

/-- R461 `MSIX_ALO.ADDR` of instance `i` -/
def MSIX_ALO_ADDR (i : Nat) : Fld := ⟨0x0 + 16 * i, 2, 30, .rw, 0, false⟩
/-- R461 `MSIX_AHI.ADDR` of instance `i` -/
def MSIX_AHI_ADDR (i : Nat) : Fld := ⟨0x4 + 16 * i, 0, 32, .rw, 0, false⟩
/-- R461 `MSIX_DATA.DATA` of instance `i` -/
def MSIX_DATA_DATA (i : Nat) : Fld := ⟨0x8 + 16 * i, 0, 32, .rw, 0, false⟩
/-- R461 `MSIX_CTL.MASK` of instance `i` -/
def MSIX_CTL_MASK (i : Nat) : Fld := ⟨0xC + 16 * i, 0, 1, .rw, 1, true⟩

/-- The words of a MSIX page or entry and the fields of each. -/
def rowsMSIX : List Row := [
  ⟨0x0, 256, 16, fun i => [MSIX_ALO_ADDR i]⟩,
  ⟨0x4, 256, 16, fun i => [MSIX_AHI_ADDR i]⟩,
  ⟨0x8, 256, 16, fun i => [MSIX_DATA_DATA i]⟩,
  ⟨0xC, 256, 16, fun i => [MSIX_CTL_MASK i]⟩]

/-! ## MSIP -/

/-- R461 `MSIP.PEND` of instance `i` -/
def MSIP_PEND (i : Nat) : Fld := ⟨0x0 + 4 * i, 0, 32, .ro, 0, false⟩

/-- The words of a MSIP page or entry and the fields of each. -/
def rowsMSIP : List Row := [
  ⟨0x0, 8, 4, fun i => [MSIP_PEND i]⟩]

end Sys2Proof.Machine
end

