-- ==== Sys2Proof/Machine/RegsB.lean ====
section
/-! DEFINITION. The register fields of the network, feed, decode, composition, head, gate, Belja, lane, check-value,
encode, touch and yoke pages (rules R180, R182, R198, R228, R231, R233, R254, R258, R282, R302, R317, R325, R338, R358 to R360,
R390). -/

namespace Sys2Proof.Machine

/-- Reset of `TCH_FREQ k.KHZ` (R358). -/
def tchFreqRst (k : Nat) : Nat :=
  match k with
  | 0 => 100 | 1 => 125 | 2 => 160 | 3 => 200 | 4 => 250 | 5 => 315 | 6 => 400 | _ => 450

/-- Reset of `YK_VC_BUF v.UNITS` (R390). -/
def ykVcRst (v : Nat) : Nat :=
  match v with
  | 0 => 2048 | 1 => 256 | 2 => 16 | 3 => 64 | _ => 1024

/-! ## NET -/

/-- R180 `NET_CFG.MODE` -/
def NET_CFG_MODE : Fld := ⟨0x100, 0, 3, .rw, 0, false⟩
/-- R180 `NET_CFG.MAXLEN` -/
def NET_CFG_MAXLEN : Fld := ⟨0x100, 12, 11, .rw, 1522, false⟩
/-- R180 `NET_MAC_LO.MAC` -/
def NET_MAC_LO_MAC : Fld := ⟨0x104, 0, 32, .rw, 0, false⟩
/-- R180 `NET_MAC_HI.MAC` -/
def NET_MAC_HI_MAC : Fld := ⟨0x108, 0, 16, .rw, 0, false⟩
/-- R180 `NET_IP4.ADDR` -/
def NET_IP4_ADDR : Fld := ⟨0x10C, 0, 32, .rw, 0, false⟩
/-- R180 `NET_IP6.ADDR` of instance `i` -/
def NET_IP6_ADDR (i : Nat) : Fld := ⟨0x110 + 4 * i, 0, 32, .rw, 0, false⟩
/-- R180 `NET_LINK.UP` -/
def NET_LINK_UP : Fld := ⟨0x120, 0, 1, .ro, 0, false⟩
/-- R180 `NET_LINK.FEC_LOCK` -/
def NET_LINK_FEC_LOCK : Fld := ⟨0x120, 1, 1, .ro, 0, false⟩
/-- R180 `NET_RX_FRAMES.COUNT` -/
def NET_RX_FRAMES_COUNT : Fld := ⟨0x140, 0, 32, .rc, 0, false⟩
/-- R180 `NET_RX_FCS.COUNT` -/
def NET_RX_FCS_COUNT : Fld := ⟨0x144, 0, 32, .rc, 0, false⟩
/-- R180 `NET_RX_NOBUF.COUNT` -/
def NET_RX_NOBUF_COUNT : Fld := ⟨0x148, 0, 32, .rc, 0, false⟩
/-- R180 `NET_RX_DROP.COUNT` -/
def NET_RX_DROP_COUNT : Fld := ⟨0x14C, 0, 32, .rc, 0, false⟩
/-- R180 `NET_TX_FRAMES.COUNT` -/
def NET_TX_FRAMES_COUNT : Fld := ⟨0x150, 0, 32, .rc, 0, false⟩
/-- R180 `NET_CFG.LANE` of NET instance `n`: resets to `n` for the instances on the lanes, to 0 otherwise -/
def NET_CFG_LANE (n : Nat) : Fld := ⟨0x100, 4, 6, .rw, if n ≤ 15 then n else 0, false⟩

/-- The words of a NET page or entry and the fields of each. -/
def rowsNET (n : Nat) : List Row := [
  ⟨0x100, 1, 4, fun _ => [NET_CFG_MODE, NET_CFG_LANE n, NET_CFG_MAXLEN]⟩,
  ⟨0x104, 1, 4, fun _ => [NET_MAC_LO_MAC]⟩,
  ⟨0x108, 1, 4, fun _ => [NET_MAC_HI_MAC]⟩,
  ⟨0x10C, 1, 4, fun _ => [NET_IP4_ADDR]⟩,
  ⟨0x110, 4, 4, fun i => [NET_IP6_ADDR i]⟩,
  ⟨0x120, 1, 4, fun _ => [NET_LINK_UP, NET_LINK_FEC_LOCK]⟩,
  ⟨0x140, 1, 4, fun _ => [NET_RX_FRAMES_COUNT]⟩,
  ⟨0x144, 1, 4, fun _ => [NET_RX_FCS_COUNT]⟩,
  ⟨0x148, 1, 4, fun _ => [NET_RX_NOBUF_COUNT]⟩,
  ⟨0x14C, 1, 4, fun _ => [NET_RX_DROP_COUNT]⟩,
  ⟨0x150, 1, 4, fun _ => [NET_TX_FRAMES_COUNT]⟩]

/-! ## FEEDD -/

/-- R182 `FEEDD_W00.EN` -/
def FEEDD_W00_EN : Fld := ⟨0x0, 0, 1, .rw, 0, true⟩
/-- R182 `FEEDD_W00.FAMILY` -/
def FEEDD_W00_FAMILY : Fld := ⟨0x0, 1, 1, .rwl, 0, true⟩
/-- R182 `FEEDD_W00.SRC_ANY` -/
def FEEDD_W00_SRC_ANY : Fld := ⟨0x0, 2, 1, .rwl, 0, true⟩
/-- R182 `FEEDD_W00.SSRC_ANY` -/
def FEEDD_W00_SSRC_ANY : Fld := ⟨0x0, 3, 1, .rwl, 0, true⟩
/-- R182 `FEEDD_W00.MUX` -/
def FEEDD_W00_MUX : Fld := ⟨0x0, 4, 1, .rwl, 0, true⟩
/-- R182 `FEEDD_W00.VLAN_EN` -/
def FEEDD_W00_VLAN_EN : Fld := ⟨0x0, 5, 1, .rwl, 0, true⟩
/-- R182 `FEEDD_W00.JOIN` -/
def FEEDD_W00_JOIN : Fld := ⟨0x0, 6, 1, .rwl, 0, true⟩
/-- R182 `FEEDD_W00.PSET_EN` -/
def FEEDD_W00_PSET_EN : Fld := ⟨0x0, 7, 1, .rwl, 0, true⟩
/-- R182 `FEEDD_W00.CODEC` -/
def FEEDD_W00_CODEC : Fld := ⟨0x0, 8, 2, .rwl, 0, true⟩
/-- R182 `FEEDD_W00.SR_CLOCK` -/
def FEEDD_W00_SR_CLOCK : Fld := ⟨0x0, 10, 2, .rwl, 0, true⟩
/-- R182 `FEEDD_W00.DROVER` -/
def FEEDD_W00_DROVER : Fld := ⟨0x0, 12, 3, .rwl, 0, true⟩
/-- R182 `FEEDD_W00.LOCK` -/
def FEEDD_W00_LOCK : Fld := ⟨0x0, 31, 1, .w1s, 0, true⟩
/-- R182 `FEEDD_W04.PORTS` -/
def FEEDD_W04_PORTS : Fld := ⟨0x4, 0, 18, .rwl, 0, true⟩
/-- R182 `FEEDD_W04.PT` -/
def FEEDD_W04_PT : Fld := ⟨0x4, 24, 7, .rwl, 0, true⟩
/-- R182 `FEEDD_W08.VLAN` -/
def FEEDD_W08_VLAN : Fld := ⟨0x8, 0, 12, .rwl, 0, true⟩
/-- R182 `FEEDD_W08.UDP_PORT` -/
def FEEDD_W08_UDP_PORT : Fld := ⟨0x8, 16, 16, .rwl, 0, true⟩
/-- R182 `FEEDD_W0C.SSRC` -/
def FEEDD_W0C_SSRC : Fld := ⟨0xC, 0, 32, .rwl, 0, true⟩
/-- R182 `FEEDD_SRC_ADDR.A` of instance `i` -/
def FEEDD_SRC_ADDR_A (i : Nat) : Fld := ⟨0x10 + 4 * i, 0, 32, .rwl, 0, true⟩
/-- R182 `FEEDD_DST_ADDR.A` of instance `i` -/
def FEEDD_DST_ADDR_A (i : Nat) : Fld := ⟨0x20 + 4 * i, 0, 32, .rwl, 0, true⟩
/-- R182 `FEEDD_W30.REORDER_WIN` -/
def FEEDD_W30_REORDER_WIN : Fld := ⟨0x30, 0, 16, .rwl, 0, true⟩
/-- R182 `FEEDD_W30.AU_TIMEOUT` -/
def FEEDD_W30_AU_TIMEOUT : Fld := ⟨0x30, 16, 16, .rwl, 0, true⟩
/-- R182 `FEEDD_W34.SRC_LAT` -/
def FEEDD_W34_SRC_LAT : Fld := ⟨0x34, 0, 16, .rwl, 0, true⟩
/-- R182 `FEEDD_W34.SR_MAXAGE` -/
def FEEDD_W34_SR_MAXAGE : Fld := ⟨0x34, 16, 16, .rwl, 0, true⟩
/-- R182 `FEEDD_RING.RING_BAY` -/
def FEEDD_RING_RING_BAY : Fld := ⟨0x38, 0, 13, .rwl, 0, true⟩
/-- R182 `FEEDD_RING.RING_GEN` -/
def FEEDD_RING_RING_GEN : Fld := ⟨0x38, 16, 16, .rwl, 0, true⟩
/-- R182 `FEEDD_PSET.PSET_BAY` -/
def FEEDD_PSET_PSET_BAY : Fld := ⟨0x3C, 0, 13, .rwl, 0, true⟩
/-- R182 `FEEDD_PSET.PSET_GEN` -/
def FEEDD_PSET_PSET_GEN : Fld := ⟨0x3C, 16, 16, .rwl, 0, true⟩
/-- R182 `FEEDD_W40.SILENT` -/
def FEEDD_W40_SILENT : Fld := ⟨0x40, 0, 16, .rwl, 0, true⟩
/-- R182 `FEEDD_W40.RATE_CAP` -/
def FEEDD_W40_RATE_CAP : Fld := ⟨0x40, 16, 7, .rwl, 0, true⟩
/-- R182 `FEEDD_W44.HEALTH` -/
def FEEDD_W44_HEALTH : Fld := ⟨0x44, 0, 3, .ro, 0, true⟩
/-- R182 `FEEDD_W44.MEASURED` -/
def FEEDD_W44_MEASURED : Fld := ⟨0x44, 3, 1, .ro, 0, true⟩
/-- R182 `FEEDD_W44.JOINED` -/
def FEEDD_W44_JOINED : Fld := ⟨0x44, 4, 1, .ro, 0, true⟩
/-- R182 `FEEDD_W44.SSRC_LOCKED` -/
def FEEDD_W44_SSRC_LOCKED : Fld := ⟨0x44, 5, 1, .ro, 0, true⟩
/-- R182 `FEEDD_PKTS.PKTS` -/
def FEEDD_PKTS_PKTS : Fld := ⟨0x48, 0, 32, .ro, 0, true⟩
/-- R182 `FEEDD_KIB.KIB` -/
def FEEDD_KIB_KIB : Fld := ⟨0x4C, 0, 32, .ro, 0, true⟩
/-- R182 `FEEDD_LOST.LOST` -/
def FEEDD_LOST_LOST : Fld := ⟨0x50, 0, 32, .ro, 0, true⟩
/-- R182 `FEEDD_DUP.DUP` -/
def FEEDD_DUP_DUP : Fld := ⟨0x54, 0, 32, .ro, 0, true⟩
/-- R182 `FEEDD_LATE.LATE` -/
def FEEDD_LATE_LATE : Fld := ⟨0x58, 0, 32, .ro, 0, true⟩
/-- R182 `FEEDD_AUS.AUS` -/
def FEEDD_AUS_AUS : Fld := ⟨0x5C, 0, 32, .ro, 0, true⟩
/-- R182 `FEEDD_FLAGGED.FLAGGED` -/
def FEEDD_FLAGGED_FLAGGED : Fld := ⟨0x60, 0, 32, .ro, 0, true⟩
/-- R182 `FEEDD_W64.DROPPED` -/
def FEEDD_W64_DROPPED : Fld := ⟨0x64, 0, 16, .ro, 0, true⟩
/-- R182 `FEEDD_W64.UNSUP` -/
def FEEDD_W64_UNSUP : Fld := ⟨0x64, 16, 16, .ro, 0, true⟩
/-- R182 `FEEDD_JITTER.JITTER` -/
def FEEDD_JITTER_JITTER : Fld := ⟨0x68, 0, 32, .ro, 0, true⟩
/-- R182 `FEEDD_SR_COUNT.SR_COUNT` -/
def FEEDD_SR_COUNT_SR_COUNT : Fld := ⟨0x6C, 0, 32, .ro, 0, true⟩
/-- R182 `FEEDD_LAST_SR_LO.T` -/
def FEEDD_LAST_SR_LO_T : Fld := ⟨0x70, 0, 32, .ro, 0, true⟩
/-- R182 `FEEDD_LAST_SR_HI.T` -/
def FEEDD_LAST_SR_HI_T : Fld := ⟨0x74, 0, 32, .ro, 0, true⟩
/-- R182 `FEEDD_LAST_RX_LO.T` -/
def FEEDD_LAST_RX_LO_T : Fld := ⟨0x78, 0, 32, .ro, 0, true⟩
/-- R182 `FEEDD_LAST_RX_HI.T` -/
def FEEDD_LAST_RX_HI_T : Fld := ⟨0x7C, 0, 32, .ro, 0, true⟩

/-- The words of a FEEDD page or entry and the fields of each. -/
def rowsFEEDD : List Row := [
  ⟨0x0, 1, 4, fun _ => [FEEDD_W00_EN, FEEDD_W00_FAMILY, FEEDD_W00_SRC_ANY, FEEDD_W00_SSRC_ANY, FEEDD_W00_MUX, FEEDD_W00_VLAN_EN, FEEDD_W00_JOIN, FEEDD_W00_PSET_EN, FEEDD_W00_CODEC, FEEDD_W00_SR_CLOCK, FEEDD_W00_DROVER, FEEDD_W00_LOCK]⟩,
  ⟨0x4, 1, 4, fun _ => [FEEDD_W04_PORTS, FEEDD_W04_PT]⟩,
  ⟨0x8, 1, 4, fun _ => [FEEDD_W08_VLAN, FEEDD_W08_UDP_PORT]⟩,
  ⟨0xC, 1, 4, fun _ => [FEEDD_W0C_SSRC]⟩,
  ⟨0x10, 4, 4, fun i => [FEEDD_SRC_ADDR_A i]⟩,
  ⟨0x20, 4, 4, fun i => [FEEDD_DST_ADDR_A i]⟩,
  ⟨0x30, 1, 4, fun _ => [FEEDD_W30_REORDER_WIN, FEEDD_W30_AU_TIMEOUT]⟩,
  ⟨0x34, 1, 4, fun _ => [FEEDD_W34_SRC_LAT, FEEDD_W34_SR_MAXAGE]⟩,
  ⟨0x38, 1, 4, fun _ => [FEEDD_RING_RING_BAY, FEEDD_RING_RING_GEN]⟩,
  ⟨0x3C, 1, 4, fun _ => [FEEDD_PSET_PSET_BAY, FEEDD_PSET_PSET_GEN]⟩,
  ⟨0x40, 1, 4, fun _ => [FEEDD_W40_SILENT, FEEDD_W40_RATE_CAP]⟩,
  ⟨0x44, 1, 4, fun _ => [FEEDD_W44_HEALTH, FEEDD_W44_MEASURED, FEEDD_W44_JOINED, FEEDD_W44_SSRC_LOCKED]⟩,
  ⟨0x48, 1, 4, fun _ => [FEEDD_PKTS_PKTS]⟩,
  ⟨0x4C, 1, 4, fun _ => [FEEDD_KIB_KIB]⟩,
  ⟨0x50, 1, 4, fun _ => [FEEDD_LOST_LOST]⟩,
  ⟨0x54, 1, 4, fun _ => [FEEDD_DUP_DUP]⟩,
  ⟨0x58, 1, 4, fun _ => [FEEDD_LATE_LATE]⟩,
  ⟨0x5C, 1, 4, fun _ => [FEEDD_AUS_AUS]⟩,
  ⟨0x60, 1, 4, fun _ => [FEEDD_FLAGGED_FLAGGED]⟩,
  ⟨0x64, 1, 4, fun _ => [FEEDD_W64_DROPPED, FEEDD_W64_UNSUP]⟩,
  ⟨0x68, 1, 4, fun _ => [FEEDD_JITTER_JITTER]⟩,
  ⟨0x6C, 1, 4, fun _ => [FEEDD_SR_COUNT_SR_COUNT]⟩,
  ⟨0x70, 1, 4, fun _ => [FEEDD_LAST_SR_LO_T]⟩,
  ⟨0x74, 1, 4, fun _ => [FEEDD_LAST_SR_HI_T]⟩,
  ⟨0x78, 1, 4, fun _ => [FEEDD_LAST_RX_LO_T]⟩,
  ⟨0x7C, 1, 4, fun _ => [FEEDD_LAST_RX_HI_T]⟩]

/-! ## FEED -/

/-- R198 `FEED_UNM_CTRL.DROVER` -/
def FEED_UNM_CTRL_DROVER : Fld := ⟨0x100, 0, 3, .rw, 0, false⟩
/-- R198 `FEED_UNM_CTRL.EN` -/
def FEED_UNM_CTRL_EN : Fld := ⟨0x100, 31, 1, .rw, 0, false⟩
/-- R198 `FEED_RR.SSRC` -/
def FEED_RR_SSRC : Fld := ⟨0x104, 0, 32, .rw, 0, false⟩
/-- R198 `FEED_RR_INT.INTERVAL` -/
def FEED_RR_INT_INTERVAL : Fld := ⟨0x108, 0, 16, .rw, 5000, false⟩
/-- R198 `FEED_ACTIVE.COUNT` -/
def FEED_ACTIVE_COUNT : Fld := ⟨0x10C, 0, 10, .ro, 0, false⟩
/-- R198 `FEED_MATCHED.COUNT` -/
def FEED_MATCHED_COUNT : Fld := ⟨0x110, 0, 32, .rc, 0, false⟩
/-- R198 `FEED_UNMATCHED.COUNT` -/
def FEED_UNMATCHED_COUNT : Fld := ⟨0x114, 0, 32, .rc, 0, false⟩
/-- R198 `FEED_UNM_LOST.COUNT` -/
def FEED_UNM_LOST_COUNT : Fld := ⟨0x118, 0, 32, .rc, 0, false⟩
/-- R198 `FEED_IGMP.ROBUST` -/
def FEED_IGMP_ROBUST : Fld := ⟨0x11C, 0, 4, .rw, 2, false⟩
/-- R198 `FEED_IGMP.URI` -/
def FEED_IGMP_URI : Fld := ⟨0x11C, 8, 8, .rw, 10, false⟩

/-- The words of a FEED page or entry and the fields of each. -/
def rowsFEED : List Row := [
  ⟨0x100, 1, 4, fun _ => [FEED_UNM_CTRL_DROVER, FEED_UNM_CTRL_EN]⟩,
  ⟨0x104, 1, 4, fun _ => [FEED_RR_SSRC]⟩,
  ⟨0x108, 1, 4, fun _ => [FEED_RR_INT_INTERVAL]⟩,
  ⟨0x10C, 1, 4, fun _ => [FEED_ACTIVE_COUNT]⟩,
  ⟨0x110, 1, 4, fun _ => [FEED_MATCHED_COUNT]⟩,
  ⟨0x114, 1, 4, fun _ => [FEED_UNMATCHED_COUNT]⟩,
  ⟨0x118, 1, 4, fun _ => [FEED_UNM_LOST_COUNT]⟩,
  ⟨0x11C, 1, 4, fun _ => [FEED_IGMP_ROBUST, FEED_IGMP_URI]⟩]

/-! ## DEC -/

/-- R228 `DEC_SCHED_CTRL.ACTIVE` -/
def DEC_SCHED_CTRL_ACTIVE : Fld := ⟨0x100, 0, 1, .ro, 0, false⟩
/-- R228 `DEC_SCHED_CTRL.SWAP` -/
def DEC_SCHED_CTRL_SWAP : Fld := ⟨0x100, 1, 1, .w1s, 0, true⟩
/-- R228 `DEC_SCHED_CTRL.CUR` -/
def DEC_SCHED_CTRL_CUR : Fld := ⟨0x100, 8, 6, .ro, 0, false⟩
/-- R228 `DEC_SCHED_CTRL.IDLE` -/
def DEC_SCHED_CTRL_IDLE : Fld := ⟨0x100, 16, 1, .ro, 1, false⟩
/-- R228 `DEC_CUR.FEED` -/
def DEC_CUR_FEED : Fld := ⟨0x104, 0, 10, .ro, 1023, false⟩
/-- R228 `DEC_CUR.BUSY` -/
def DEC_CUR_BUSY : Fld := ⟨0x104, 31, 1, .ro, 0, false⟩
/-- R228 `DEC_LOAD.PIXEL_PERMIL` -/
def DEC_LOAD_PIXEL_PERMIL : Fld := ⟨0x108, 0, 10, .ro, 0, false⟩
/-- R228 `DEC_LOAD.CODED_MBPS` -/
def DEC_LOAD_CODED_MBPS : Fld := ⟨0x108, 16, 10, .ro, 0, false⟩
/-- R228 `DEC_SWITCH_MAX.NS` -/
def DEC_SWITCH_MAX_NS : Fld := ⟨0x10C, 0, 14, .rc, 0, false⟩
/-- R228 `DEC_PICS.COUNT` -/
def DEC_PICS_COUNT : Fld := ⟨0x110, 0, 32, .rc, 0, false⟩
/-- R228 `DEC_CONCEALED.COUNT` -/
def DEC_CONCEALED_COUNT : Fld := ⟨0x114, 0, 32, .rc, 0, false⟩
/-- R228 `DEC_DROPPED.COUNT` -/
def DEC_DROPPED_COUNT : Fld := ⟨0x118, 0, 32, .rc, 0, false⟩
/-- R228 `DEC_FLUSH.FEED` -/
def DEC_FLUSH_FEED : Fld := ⟨0x11C, 0, 9, .wo, 0, true⟩
/-- R228 `DEC_FLUSH.GO` -/
def DEC_FLUSH_GO : Fld := ⟨0x11C, 31, 1, .wo, 0, true⟩
/-- R228 `DEC_SLOTA.FEED` of instance `i` -/
def DEC_SLOTA_FEED (i : Nat) : Fld := ⟨0x200 + 4 * i, 0, 9, .rw, 0, true⟩
/-- R228 `DEC_SLOTA.VALID` of instance `i` -/
def DEC_SLOTA_VALID (i : Nat) : Fld := ⟨0x200 + 4 * i, 15, 1, .rw, 0, true⟩
/-- R228 `DEC_SLOTB.FEED` of instance `i` -/
def DEC_SLOTB_FEED (i : Nat) : Fld := ⟨0x300 + 4 * i, 0, 9, .rw, 0, true⟩
/-- R228 `DEC_SLOTB.VALID` of instance `i` -/
def DEC_SLOTB_VALID (i : Nat) : Fld := ⟨0x300 + 4 * i, 15, 1, .rw, 0, true⟩

/-- The words of a DEC page or entry and the fields of each. -/
def rowsDEC : List Row := [
  ⟨0x100, 1, 4, fun _ => [DEC_SCHED_CTRL_ACTIVE, DEC_SCHED_CTRL_SWAP, DEC_SCHED_CTRL_CUR, DEC_SCHED_CTRL_IDLE]⟩,
  ⟨0x104, 1, 4, fun _ => [DEC_CUR_FEED, DEC_CUR_BUSY]⟩,
  ⟨0x108, 1, 4, fun _ => [DEC_LOAD_PIXEL_PERMIL, DEC_LOAD_CODED_MBPS]⟩,
  ⟨0x10C, 1, 4, fun _ => [DEC_SWITCH_MAX_NS]⟩,
  ⟨0x110, 1, 4, fun _ => [DEC_PICS_COUNT]⟩,
  ⟨0x114, 1, 4, fun _ => [DEC_CONCEALED_COUNT]⟩,
  ⟨0x118, 1, 4, fun _ => [DEC_DROPPED_COUNT]⟩,
  ⟨0x11C, 1, 4, fun _ => [DEC_FLUSH_FEED, DEC_FLUSH_GO]⟩,
  ⟨0x200, 64, 4, fun i => [DEC_SLOTA_FEED i, DEC_SLOTA_VALID i]⟩,
  ⟨0x300, 64, 4, fun i => [DEC_SLOTB_FEED i, DEC_SLOTB_VALID i]⟩]

/-! ## STL -/

/-- R231 `STL_W00.EN` -/
def STL_W00_EN : Fld := ⟨0x0, 0, 1, .rws, 0, true⟩
/-- R231 `STL_W00.GATED` -/
def STL_W00_GATED : Fld := ⟨0x0, 1, 1, .rws, 1, true⟩
/-- R231 `STL_W00.TICK` -/
def STL_W00_TICK : Fld := ⟨0x0, 2, 1, .rws, 0, true⟩
/-- R231 `STL_W00.SRC_KIND` -/
def STL_W00_SRC_KIND : Fld := ⟨0x0, 3, 1, .rws, 0, true⟩
/-- R231 `STL_W00.ALPHA` -/
def STL_W00_ALPHA : Fld := ⟨0x0, 4, 2, .rws, 0, true⟩
/-- R231 `STL_W00.MATRIX` -/
def STL_W00_MATRIX : Fld := ⟨0x0, 6, 2, .rws, 0, true⟩
/-- R231 `STL_W00.FULL` -/
def STL_W00_FULL : Fld := ⟨0x0, 8, 1, .rws, 0, true⟩
/-- R231 `STL_W00.FREEZE` -/
def STL_W00_FREEZE : Fld := ⟨0x0, 9, 1, .rws, 0, true⟩
/-- R231 `STL_W00.CANVAS` -/
def STL_W00_CANVAS : Fld := ⟨0x0, 10, 6, .rws, 0, true⟩
/-- R231 `STL_W00.Z` -/
def STL_W00_Z : Fld := ⟨0x0, 16, 8, .rws, 0, true⟩
/-- R231 `STL_W00.LAYER_ALPHA` -/
def STL_W00_LAYER_ALPHA : Fld := ⟨0x0, 24, 8, .rws, 255, true⟩
/-- R231 `STL_SRC.SOURCE` -/
def STL_SRC_SOURCE : Fld := ⟨0x4, 0, 13, .rws, 0, true⟩
/-- R231 `STL_SRC.GEN` -/
def STL_SRC_GEN : Fld := ⟨0x4, 16, 16, .rws, 0, true⟩
/-- R231 `STL_CROP_XY.CROP_X` -/
def STL_CROP_XY_CROP_X : Fld := ⟨0x8, 0, 16, .rws, 0, true⟩
/-- R231 `STL_CROP_XY.CROP_Y` -/
def STL_CROP_XY_CROP_Y : Fld := ⟨0x8, 16, 16, .rws, 0, true⟩
/-- R231 `STL_CROP_WH.CROP_W` -/
def STL_CROP_WH_CROP_W : Fld := ⟨0xC, 0, 16, .rws, 0, true⟩
/-- R231 `STL_CROP_WH.CROP_H` -/
def STL_CROP_WH_CROP_H : Fld := ⟨0xC, 16, 16, .rws, 0, true⟩
/-- R231 `STL_DST_XY.DST_X` -/
def STL_DST_XY_DST_X : Fld := ⟨0x10, 0, 16, .rws, 0, true⟩
/-- R231 `STL_DST_XY.DST_Y` -/
def STL_DST_XY_DST_Y : Fld := ⟨0x10, 16, 16, .rws, 0, true⟩
/-- R231 `STL_DST_WH.DST_W` -/
def STL_DST_WH_DST_W : Fld := ⟨0x14, 0, 16, .rws, 0, true⟩
/-- R231 `STL_DST_WH.DST_H` -/
def STL_DST_WH_DST_H : Fld := ⟨0x14, 16, 16, .rws, 0, true⟩
/-- R231 `STL_W18.BUDGET` -/
def STL_W18_BUDGET : Fld := ⟨0x18, 0, 16, .rws, 1000, true⟩
/-- R231 `STL_W18.FREEZE_WIN` -/
def STL_W18_FREEZE_WIN : Fld := ⟨0x18, 16, 16, .rws, 20, true⟩
/-- R231 `STL_LIVE_XY.LIVE_X` -/
def STL_LIVE_XY_LIVE_X : Fld := ⟨0x1C, 0, 16, .rws, 0, true⟩
/-- R231 `STL_LIVE_XY.LIVE_Y` -/
def STL_LIVE_XY_LIVE_Y : Fld := ⟨0x1C, 16, 16, .rws, 0, true⟩
/-- R231 `STL_LIVE_WH.LIVE_W` -/
def STL_LIVE_WH_LIVE_W : Fld := ⟨0x20, 0, 16, .rws, 0, true⟩
/-- R231 `STL_LIVE_WH.LIVE_H` -/
def STL_LIVE_WH_LIVE_H : Fld := ⟨0x20, 16, 16, .rws, 0, true⟩
/-- R231 `STL_ST.ACTIVE` -/
def STL_ST_ACTIVE : Fld := ⟨0x24, 0, 1, .ro, 0, true⟩
/-- R231 `STL_ST.SEEN` -/
def STL_ST_SEEN : Fld := ⟨0x24, 1, 1, .ro, 0, true⟩
/-- R231 `STL_ST.RUN` -/
def STL_ST_RUN : Fld := ⟨0x24, 2, 1, .ro, 0, true⟩
/-- R231 `STL_ST.REASONS` -/
def STL_ST_REASONS : Fld := ⟨0x24, 8, 8, .ro, 0, true⟩
/-- R231 `STL_LAST_TC_LO.T` -/
def STL_LAST_TC_LO_T : Fld := ⟨0x28, 0, 32, .ro, 0, true⟩
/-- R231 `STL_LAST_TC_HI.T` -/
def STL_LAST_TC_HI_T : Fld := ⟨0x2C, 0, 32, .ro, 0, true⟩
/-- R231 `STL_LASTB.LAST_BAY` -/
def STL_LASTB_LAST_BAY : Fld := ⟨0x30, 0, 13, .ro, 0, true⟩
/-- R231 `STL_LASTB.LAST_GEN` -/
def STL_LASTB_LAST_GEN : Fld := ⟨0x30, 16, 16, .ro, 0, true⟩
/-- R231 `STL_LASTF.LAST_FSEQ` -/
def STL_LASTF_LAST_FSEQ : Fld := ⟨0x34, 0, 32, .ro, 0, true⟩
/-- R231 `STL_RUN_TC_LO.T` -/
def STL_RUN_TC_LO_T : Fld := ⟨0x38, 0, 32, .ro, 0, true⟩
/-- R231 `STL_RUN_TC_HI.T` -/
def STL_RUN_TC_HI_T : Fld := ⟨0x3C, 0, 32, .ro, 0, true⟩

/-- The words of a STL page or entry and the fields of each. -/
def rowsSTL : List Row := [
  ⟨0x0, 1, 4, fun _ => [STL_W00_EN, STL_W00_GATED, STL_W00_TICK, STL_W00_SRC_KIND, STL_W00_ALPHA, STL_W00_MATRIX, STL_W00_FULL, STL_W00_FREEZE, STL_W00_CANVAS, STL_W00_Z, STL_W00_LAYER_ALPHA]⟩,
  ⟨0x4, 1, 4, fun _ => [STL_SRC_SOURCE, STL_SRC_GEN]⟩,
  ⟨0x8, 1, 4, fun _ => [STL_CROP_XY_CROP_X, STL_CROP_XY_CROP_Y]⟩,
  ⟨0xC, 1, 4, fun _ => [STL_CROP_WH_CROP_W, STL_CROP_WH_CROP_H]⟩,
  ⟨0x10, 1, 4, fun _ => [STL_DST_XY_DST_X, STL_DST_XY_DST_Y]⟩,
  ⟨0x14, 1, 4, fun _ => [STL_DST_WH_DST_W, STL_DST_WH_DST_H]⟩,
  ⟨0x18, 1, 4, fun _ => [STL_W18_BUDGET, STL_W18_FREEZE_WIN]⟩,
  ⟨0x1C, 1, 4, fun _ => [STL_LIVE_XY_LIVE_X, STL_LIVE_XY_LIVE_Y]⟩,
  ⟨0x20, 1, 4, fun _ => [STL_LIVE_WH_LIVE_W, STL_LIVE_WH_LIVE_H]⟩,
  ⟨0x24, 1, 4, fun _ => [STL_ST_ACTIVE, STL_ST_SEEN, STL_ST_RUN, STL_ST_REASONS]⟩,
  ⟨0x28, 1, 4, fun _ => [STL_LAST_TC_LO_T]⟩,
  ⟨0x2C, 1, 4, fun _ => [STL_LAST_TC_HI_T]⟩,
  ⟨0x30, 1, 4, fun _ => [STL_LASTB_LAST_BAY, STL_LASTB_LAST_GEN]⟩,
  ⟨0x34, 1, 4, fun _ => [STL_LASTF_LAST_FSEQ]⟩,
  ⟨0x38, 1, 4, fun _ => [STL_RUN_TC_LO_T]⟩,
  ⟨0x3C, 1, 4, fun _ => [STL_RUN_TC_HI_T]⟩]

/-! ## CMP -/

/-- R233 `CMP_CV_CTRL.EN` of instance `i` -/
def CMP_CV_CTRL_EN (i : Nat) : Fld := ⟨0x400 + 32 * i, 0, 1, .rws, 0, false⟩
/-- R233 `CMP_CV_CTRL.COMMIT` of instance `i` -/
def CMP_CV_CTRL_COMMIT (i : Nat) : Fld := ⟨0x400 + 32 * i, 1, 1, .w1s, 0, true⟩
/-- R233 `CMP_CV_CTRL.DIRECT` of instance `i` -/
def CMP_CV_CTRL_DIRECT (i : Nat) : Fld := ⟨0x400 + 32 * i, 2, 1, .rws, 0, false⟩
/-- R233 `CMP_CV_CTRL.OUT_CLASS` of instance `i` -/
def CMP_CV_CTRL_OUT_CLASS (i : Nat) : Fld := ⟨0x400 + 32 * i, 4, 4, .rws, 0, false⟩
/-- R233 `CMP_CV_CTRL.LEDGER_CLASS` of instance `i` -/
def CMP_CV_CTRL_LEDGER_CLASS (i : Nat) : Fld := ⟨0x400 + 32 * i, 8, 4, .rws, 0, false⟩
/-- R233 `CMP_CV_CTRL.ALLOW` of instance `i` -/
def CMP_CV_CTRL_ALLOW (i : Nat) : Fld := ⟨0x400 + 32 * i, 12, 8, .rws, 20, false⟩
/-- R233 `CMP_CV_SIZE.W` of instance `i` -/
def CMP_CV_SIZE_W (i : Nat) : Fld := ⟨0x404 + 32 * i, 0, 16, .rws, 0, false⟩
/-- R233 `CMP_CV_SIZE.H` of instance `i` -/
def CMP_CV_SIZE_H (i : Nat) : Fld := ⟨0x404 + 32 * i, 16, 16, .rws, 0, false⟩
/-- R233 `CMP_CV_BG.B` of instance `i` -/
def CMP_CV_BG_B (i : Nat) : Fld := ⟨0x408 + 32 * i, 0, 10, .rws, 0, false⟩
/-- R233 `CMP_CV_BG.G` of instance `i` -/
def CMP_CV_BG_G (i : Nat) : Fld := ⟨0x408 + 32 * i, 10, 10, .rws, 0, false⟩
/-- R233 `CMP_CV_BG.R` of instance `i` -/
def CMP_CV_BG_R (i : Nat) : Fld := ⟨0x408 + 32 * i, 20, 10, .rws, 0, false⟩
/-- R233 `CMP_CV_PERIOD.NS` of instance `i` -/
def CMP_CV_PERIOD_NS (i : Nat) : Fld := ⟨0x40C + 32 * i, 0, 32, .rws, 16666666, false⟩
/-- R233 `CMP_CV_PHASE.FRAC` of instance `i` -/
def CMP_CV_PHASE_FRAC (i : Nat) : Fld := ⟨0x410 + 32 * i, 0, 16, .rws, 43691, false⟩
/-- R233 `CMP_CV_PHASE.LEAD` of instance `i` -/
def CMP_CV_PHASE_LEAD (i : Nat) : Fld := ⟨0x410 + 32 * i, 16, 16, .rws, 600, false⟩
/-- R233 `CMP_CV_ORIGIN_LO.T` of instance `i` -/
def CMP_CV_ORIGIN_LO_T (i : Nat) : Fld := ⟨0x414 + 32 * i, 0, 32, .rws, 0, false⟩
/-- R233 `CMP_CV_ORIGIN_HI.T` of instance `i` -/
def CMP_CV_ORIGIN_HI_T (i : Nat) : Fld := ⟨0x418 + 32 * i, 0, 32, .rws, 0, false⟩
/-- R233 `CMP_CV_STATUS.ACTIVE` of instance `i` -/
def CMP_CV_STATUS_ACTIVE (i : Nat) : Fld := ⟨0x41C + 32 * i, 0, 1, .ro, 0, false⟩
/-- R233 `CMP_CV_STATUS.REFUSED` of instance `i` -/
def CMP_CV_STATUS_REFUSED (i : Nat) : Fld := ⟨0x41C + 32 * i, 1, 1, .ro, 0, false⟩
/-- R233 `CMP_CV_STATUS.MISSED` of instance `i` -/
def CMP_CV_STATUS_MISSED (i : Nat) : Fld := ⟨0x41C + 32 * i, 3, 1, .ro, 0, false⟩
/-- R233 `CMP_CV_STATUS.REASON` of instance `i` -/
def CMP_CV_STATUS_REASON (i : Nat) : Fld := ⟨0x41C + 32 * i, 4, 4, .ro, 0, false⟩
/-- R233 `CMP_CV_STATUS.STALL` of instance `i` -/
def CMP_CV_STATUS_STALL (i : Nat) : Fld := ⟨0x41C + 32 * i, 8, 12, .ro, 0, false⟩
/-- R233 `CMP_CV_STATUS.CANVAS_LEVEL` of instance `i` -/
def CMP_CV_STATUS_CANVAS_LEVEL (i : Nat) : Fld := ⟨0x41C + 32 * i, 20, 1, .ro, 0, false⟩
/-- R254 `CMP_DENSITY.PERMIL` -/
def CMP_DENSITY_PERMIL : Fld := ⟨0x100, 0, 11, .ro, 0, false⟩
/-- R254 `CMP_DENSITY.SLICES` -/
def CMP_DENSITY_SLICES : Fld := ⟨0x100, 16, 6, .ro, 0, false⟩
/-- R254 `CMP_EPOCHS.COUNT` -/
def CMP_EPOCHS_COUNT : Fld := ⟨0x104, 0, 32, .rc, 0, false⟩
/-- R254 `CMP_MISSED.COUNT` -/
def CMP_MISSED_COUNT : Fld := ⟨0x108, 0, 32, .rc, 0, false⟩
/-- R254 `CMP_SLACK_MIN.US` -/
def CMP_SLACK_MIN_US : Fld := ⟨0x10C, 0, 16, .rc, 65535, false⟩

/-- The words of a CMP page or entry and the fields of each. -/
def rowsCMP : List Row := [
  ⟨0x400, 64, 32, fun i => [CMP_CV_CTRL_EN i, CMP_CV_CTRL_COMMIT i, CMP_CV_CTRL_DIRECT i, CMP_CV_CTRL_OUT_CLASS i, CMP_CV_CTRL_LEDGER_CLASS i, CMP_CV_CTRL_ALLOW i]⟩,
  ⟨0x404, 64, 32, fun i => [CMP_CV_SIZE_W i, CMP_CV_SIZE_H i]⟩,
  ⟨0x408, 64, 32, fun i => [CMP_CV_BG_B i, CMP_CV_BG_G i, CMP_CV_BG_R i]⟩,
  ⟨0x40C, 64, 32, fun i => [CMP_CV_PERIOD_NS i]⟩,
  ⟨0x410, 64, 32, fun i => [CMP_CV_PHASE_FRAC i, CMP_CV_PHASE_LEAD i]⟩,
  ⟨0x414, 64, 32, fun i => [CMP_CV_ORIGIN_LO_T i]⟩,
  ⟨0x418, 64, 32, fun i => [CMP_CV_ORIGIN_HI_T i]⟩,
  ⟨0x41C, 64, 32, fun i => [CMP_CV_STATUS_ACTIVE i, CMP_CV_STATUS_REFUSED i, CMP_CV_STATUS_MISSED i, CMP_CV_STATUS_REASON i, CMP_CV_STATUS_STALL i, CMP_CV_STATUS_CANVAS_LEVEL i]⟩,
  ⟨0x100, 1, 4, fun _ => [CMP_DENSITY_PERMIL, CMP_DENSITY_SLICES]⟩,
  ⟨0x104, 1, 4, fun _ => [CMP_EPOCHS_COUNT]⟩,
  ⟨0x108, 1, 4, fun _ => [CMP_MISSED_COUNT]⟩,
  ⟨0x10C, 1, 4, fun _ => [CMP_SLACK_MIN_US]⟩]

/-! ## HD -/

/-- R258 `HD_CFG.ENGINE` -/
def HD_CFG_ENGINE : Fld := ⟨0x100, 0, 2, .rw, 0, false⟩
/-- R258 `HD_CFG.MEMBER` -/
def HD_CFG_MEMBER : Fld := ⟨0x100, 2, 1, .rw, 0, false⟩
/-- R258 `HD_CFG.FIXED` -/
def HD_CFG_FIXED : Fld := ⟨0x100, 3, 1, .rw, 0, false⟩
/-- R258 `HD_CFG.CANVAS` -/
def HD_CFG_CANVAS : Fld := ⟨0x100, 4, 6, .rw, 0, false⟩
/-- R258 `HD_CFG.BANK0` -/
def HD_CFG_BANK0 : Fld := ⟨0x100, 16, 6, .rw, 0, false⟩
/-- R258 `HD_CFG.BANK1` -/
def HD_CFG_BANK1 : Fld := ⟨0x100, 24, 6, .rw, 0, false⟩
/-- R258 `HD_CFG.BANK1_EN` -/
def HD_CFG_BANK1_EN : Fld := ⟨0x100, 30, 1, .rw, 0, false⟩
/-- R258 `HD_RATE.INC` -/
def HD_RATE_INC : Fld := ⟨0x104, 0, 32, .rws, 0, false⟩
/-- R258 `HD_TIMING_H.H_ACTIVE` -/
def HD_TIMING_H_H_ACTIVE : Fld := ⟨0x108, 0, 16, .rws, 0, false⟩
/-- R258 `HD_TIMING_H.H_TOTAL` -/
def HD_TIMING_H_H_TOTAL : Fld := ⟨0x108, 16, 16, .rws, 0, false⟩
/-- R258 `HD_TIMING_V.V_ACTIVE` -/
def HD_TIMING_V_V_ACTIVE : Fld := ⟨0x10C, 0, 16, .rws, 0, false⟩
/-- R258 `HD_TIMING_V.START` -/
def HD_TIMING_V_START : Fld := ⟨0x10C, 16, 4, .rws, 2, false⟩
/-- R258 `HD_TIMING_V.CWIN` -/
def HD_TIMING_V_CWIN : Fld := ⟨0x10C, 24, 8, .rws, 8, false⟩
/-- R258 `HD_VBLANK.VMIN` -/
def HD_VBLANK_VMIN : Fld := ⟨0x110, 0, 16, .rws, 40, false⟩
/-- R258 `HD_VBLANK.VMAX` -/
def HD_VBLANK_VMAX : Fld := ⟨0x110, 16, 16, .rws, 80, false⟩
/-- R258 `HD_OFFSET.X` -/
def HD_OFFSET_X : Fld := ⟨0x114, 0, 16, .rws, 0, false⟩
/-- R258 `HD_OFFSET.Y` -/
def HD_OFFSET_Y : Fld := ⟨0x114, 16, 16, .rws, 0, false⟩
/-- R258 `HD_OUT.DEPTH` -/
def HD_OUT_DEPTH : Fld := ⟨0x118, 0, 1, .rws, 0, false⟩
/-- R258 `HD_SRC_BAY.BAY` -/
def HD_SRC_BAY_BAY : Fld := ⟨0x11C, 0, 13, .rws, 0, false⟩
/-- R258 `HD_SRC_BAY.GEN` -/
def HD_SRC_BAY_GEN : Fld := ⟨0x11C, 16, 16, .rws, 0, false⟩
/-- R258 `HD_SRC_CFG.BUDGET` -/
def HD_SRC_CFG_BUDGET : Fld := ⟨0x120, 0, 16, .rws, 1000, false⟩
/-- R258 `HD_SRC_CFG.GATED` -/
def HD_SRC_CFG_GATED : Fld := ⟨0x120, 16, 1, .rws, 1, false⟩
/-- R258 `HD_SRC_CFG.TICK` -/
def HD_SRC_CFG_TICK : Fld := ⟨0x120, 17, 1, .rws, 0, false⟩
/-- R258 `HD_COMMIT.COMMIT` -/
def HD_COMMIT_COMMIT : Fld := ⟨0x124, 0, 1, .w1s, 0, true⟩
/-- R258 `HD_COMMIT.LATE` -/
def HD_COMMIT_LATE : Fld := ⟨0x124, 1, 1, .w1c, 0, false⟩
/-- R258 `HD_COMMIT.REFUSED` -/
def HD_COMMIT_REFUSED : Fld := ⟨0x124, 2, 1, .w1c, 0, false⟩
/-- R258 `HD_COMMIT.REASON` -/
def HD_COMMIT_REASON : Fld := ⟨0x124, 8, 4, .ro, 0, false⟩
/-- R258 `HD_STATE.PHASE` -/
def HD_STATE_PHASE : Fld := ⟨0x140, 0, 3, .ro, 0, false⟩
/-- R258 `HD_STATE.REPEAT` -/
def HD_STATE_REPEAT : Fld := ⟨0x140, 3, 1, .ro, 0, false⟩
/-- R258 `HD_STATE.OUTSIDE` -/
def HD_STATE_OUTSIDE : Fld := ⟨0x140, 4, 1, .ro, 0, false⟩
/-- R258 `HD_STATE.LINE` -/
def HD_STATE_LINE : Fld := ⟨0x140, 16, 16, .ro, 0, false⟩
/-- R258 `HD_FRAME.NUMBER` -/
def HD_FRAME_NUMBER : Fld := ⟨0x144, 0, 32, .ro, 0, false⟩
/-- R258 `HD_TS_LO.TS` -/
def HD_TS_LO_TS : Fld := ⟨0x148, 0, 32, .ro, 0, false⟩
/-- R258 `HD_TS_HI.TS` -/
def HD_TS_HI_TS : Fld := ⟨0x14C, 0, 32, .ro, 0, false⟩
/-- R258 `HD_SHOWN.BAY` -/
def HD_SHOWN_BAY : Fld := ⟨0x150, 0, 13, .ro, 0, false⟩
/-- R258 `HD_SHOWN.GEN` -/
def HD_SHOWN_GEN : Fld := ⟨0x150, 16, 16, .ro, 0, false⟩
/-- R258 `HD_EPOCH.EPOCH` -/
def HD_EPOCH_EPOCH : Fld := ⟨0x154, 0, 32, .ro, 0, false⟩
/-- R258 `HD_FRAMES.COUNT` -/
def HD_FRAMES_COUNT : Fld := ⟨0x160, 0, 32, .rc, 0, false⟩
/-- R258 `HD_REPEATS.COUNT` -/
def HD_REPEATS_COUNT : Fld := ⟨0x164, 0, 32, .rc, 0, false⟩
/-- R258 `HD_ABORTS.COUNT` -/
def HD_ABORTS_COUNT : Fld := ⟨0x168, 0, 32, .rc, 0, false⟩
/-- R258 `HD_SKIPPED.COUNT` -/
def HD_SKIPPED_COUNT : Fld := ⟨0x16C, 0, 32, .rc, 0, false⟩
/-- R258 `HD_LATE.COUNT` -/
def HD_LATE_COUNT : Fld := ⟨0x170, 0, 32, .rc, 0, false⟩
/-- R258 `HD_LAG_MAX.LINES` -/
def HD_LAG_MAX_LINES : Fld := ⟨0x174, 0, 16, .rc, 0, false⟩

/-- The words of a HD page or entry and the fields of each. -/
def rowsHD : List Row := [
  ⟨0x100, 1, 4, fun _ => [HD_CFG_ENGINE, HD_CFG_MEMBER, HD_CFG_FIXED, HD_CFG_CANVAS, HD_CFG_BANK0, HD_CFG_BANK1, HD_CFG_BANK1_EN]⟩,
  ⟨0x104, 1, 4, fun _ => [HD_RATE_INC]⟩,
  ⟨0x108, 1, 4, fun _ => [HD_TIMING_H_H_ACTIVE, HD_TIMING_H_H_TOTAL]⟩,
  ⟨0x10C, 1, 4, fun _ => [HD_TIMING_V_V_ACTIVE, HD_TIMING_V_START, HD_TIMING_V_CWIN]⟩,
  ⟨0x110, 1, 4, fun _ => [HD_VBLANK_VMIN, HD_VBLANK_VMAX]⟩,
  ⟨0x114, 1, 4, fun _ => [HD_OFFSET_X, HD_OFFSET_Y]⟩,
  ⟨0x118, 1, 4, fun _ => [HD_OUT_DEPTH]⟩,
  ⟨0x11C, 1, 4, fun _ => [HD_SRC_BAY_BAY, HD_SRC_BAY_GEN]⟩,
  ⟨0x120, 1, 4, fun _ => [HD_SRC_CFG_BUDGET, HD_SRC_CFG_GATED, HD_SRC_CFG_TICK]⟩,
  ⟨0x124, 1, 4, fun _ => [HD_COMMIT_COMMIT, HD_COMMIT_LATE, HD_COMMIT_REFUSED, HD_COMMIT_REASON]⟩,
  ⟨0x140, 1, 4, fun _ => [HD_STATE_PHASE, HD_STATE_REPEAT, HD_STATE_OUTSIDE, HD_STATE_LINE]⟩,
  ⟨0x144, 1, 4, fun _ => [HD_FRAME_NUMBER]⟩,
  ⟨0x148, 1, 4, fun _ => [HD_TS_LO_TS]⟩,
  ⟨0x14C, 1, 4, fun _ => [HD_TS_HI_TS]⟩,
  ⟨0x150, 1, 4, fun _ => [HD_SHOWN_BAY, HD_SHOWN_GEN]⟩,
  ⟨0x154, 1, 4, fun _ => [HD_EPOCH_EPOCH]⟩,
  ⟨0x160, 1, 4, fun _ => [HD_FRAMES_COUNT]⟩,
  ⟨0x164, 1, 4, fun _ => [HD_REPEATS_COUNT]⟩,
  ⟨0x168, 1, 4, fun _ => [HD_ABORTS_COUNT]⟩,
  ⟨0x16C, 1, 4, fun _ => [HD_SKIPPED_COUNT]⟩,
  ⟨0x170, 1, 4, fun _ => [HD_LATE_COUNT]⟩,
  ⟨0x174, 1, 4, fun _ => [HD_LAG_MAX_LINES]⟩]

/-! ## GATE -/

/-- R282 `GATE_COL_A.B` -/
def GATE_COL_A_B : Fld := ⟨0x100, 0, 10, .rw, 0, false⟩
/-- R282 `GATE_COL_A.G` -/
def GATE_COL_A_G : Fld := ⟨0x100, 10, 10, .rw, 704, false⟩
/-- R282 `GATE_COL_A.R` -/
def GATE_COL_A_R : Fld := ⟨0x100, 20, 10, .rw, 1023, false⟩
/-- R282 `GATE_COL_B.B` -/
def GATE_COL_B_B : Fld := ⟨0x104, 0, 10, .rw, 256, false⟩
/-- R282 `GATE_COL_B.G` -/
def GATE_COL_B_G : Fld := ⟨0x104, 10, 10, .rw, 256, false⟩
/-- R282 `GATE_COL_B.R` -/
def GATE_COL_B_R : Fld := ⟨0x104, 20, 10, .rw, 256, false⟩
/-- R282 `GATE_TICK_LT.RGB` -/
def GATE_TICK_LT_RGB : Fld := ⟨0x108, 0, 30, .rw, 1073741823, false⟩
/-- R282 `GATE_TICK_DK.RGB` -/
def GATE_TICK_DK_RGB : Fld := ⟨0x10C, 0, 30, .rw, 0, false⟩
/-- R282 `GATE_CRC_CTRL.EN` -/
def GATE_CRC_CTRL_EN : Fld := ⟨0x110, 0, 1, .rw, 1, false⟩
/-- R282 `GATE_CRC_CTRL.ACTION` -/
def GATE_CRC_CTRL_ACTION : Fld := ⟨0x110, 1, 1, .rw, 1, false⟩
/-- R282 `GATE_CRC_MATCH.COUNT` -/
def GATE_CRC_MATCH_COUNT : Fld := ⟨0x114, 0, 32, .rc, 0, false⟩
/-- R282 `GATE_CRC_MISMATCH.COUNT` -/
def GATE_CRC_MISMATCH_COUNT : Fld := ⟨0x118, 0, 32, .rc, 0, false⟩
/-- R282 `GATE_CRC_NOTRUN.COUNT` -/
def GATE_CRC_NOTRUN_COUNT : Fld := ⟨0x11C, 0, 32, .rc, 0, false⟩
/-- R282 `GATE_CRC_HOLD_LO.HOLD` -/
def GATE_CRC_HOLD_LO_HOLD : Fld := ⟨0x120, 0, 32, .w1c, 0, true⟩
/-- R282 `GATE_CRC_HOLD_HI.HOLD` -/
def GATE_CRC_HOLD_HI_HOLD : Fld := ⟨0x124, 0, 32, .w1c, 0, true⟩
/-- R282 `GATE_LOAD.MPXS` -/
def GATE_LOAD_MPXS : Fld := ⟨0x128, 0, 12, .ro, 0, false⟩
/-- R282 `GATE_STALE.COUNT` -/
def GATE_STALE_COUNT : Fld := ⟨0x12C, 0, 32, .rc, 0, false⟩

/-- The words of a GATE page or entry and the fields of each. -/
def rowsGATE : List Row := [
  ⟨0x100, 1, 4, fun _ => [GATE_COL_A_B, GATE_COL_A_G, GATE_COL_A_R]⟩,
  ⟨0x104, 1, 4, fun _ => [GATE_COL_B_B, GATE_COL_B_G, GATE_COL_B_R]⟩,
  ⟨0x108, 1, 4, fun _ => [GATE_TICK_LT_RGB]⟩,
  ⟨0x10C, 1, 4, fun _ => [GATE_TICK_DK_RGB]⟩,
  ⟨0x110, 1, 4, fun _ => [GATE_CRC_CTRL_EN, GATE_CRC_CTRL_ACTION]⟩,
  ⟨0x114, 1, 4, fun _ => [GATE_CRC_MATCH_COUNT]⟩,
  ⟨0x118, 1, 4, fun _ => [GATE_CRC_MISMATCH_COUNT]⟩,
  ⟨0x11C, 1, 4, fun _ => [GATE_CRC_NOTRUN_COUNT]⟩,
  ⟨0x120, 1, 4, fun _ => [GATE_CRC_HOLD_LO_HOLD]⟩,
  ⟨0x124, 1, 4, fun _ => [GATE_CRC_HOLD_HI_HOLD]⟩,
  ⟨0x128, 1, 4, fun _ => [GATE_LOAD_MPXS]⟩,
  ⟨0x12C, 1, 4, fun _ => [GATE_STALE_COUNT]⟩]

/-! ## BL -/

/-- R302 `BL_CLAIM.CLAIM` -/
def BL_CLAIM_CLAIM : Fld := ⟨0x100, 0, 8, .ro, 0, false⟩
/-- R302 `BL_CLAIM.TEAM` -/
def BL_CLAIM_TEAM : Fld := ⟨0x100, 8, 1, .ro, 0, false⟩
/-- R302 `BL_IDLE.INT` -/
def BL_IDLE_INT : Fld := ⟨0x104, 0, 14, .rw, 1000, false⟩
/-- R302 `BL_SCHED_CTRL.ACTIVE` -/
def BL_SCHED_CTRL_ACTIVE : Fld := ⟨0x108, 0, 1, .ro, 0, false⟩
/-- R302 `BL_SCHED_CTRL.SWAP` -/
def BL_SCHED_CTRL_SWAP : Fld := ⟨0x108, 1, 1, .w1s, 0, true⟩
/-- R302 `BL_TX_PKTS.COUNT` -/
def BL_TX_PKTS_COUNT : Fld := ⟨0x10C, 0, 32, .rc, 0, false⟩
/-- R302 `BL_TX_LATE.COUNT` -/
def BL_TX_LATE_COUNT : Fld := ⟨0x110, 0, 32, .rc, 0, false⟩
/-- R302 `BL_HEAD_LANES.LANE0` of instance `i` -/
def BL_HEAD_LANES_LANE0 (i : Nat) : Fld := ⟨0x200 + 8 * i, 0, 6, .rw, 0, false⟩
/-- R302 `BL_HEAD_LANES.LANE1` of instance `i` -/
def BL_HEAD_LANES_LANE1 (i : Nat) : Fld := ⟨0x200 + 8 * i, 8, 6, .rw, 0, false⟩
/-- R302 `BL_HEAD_LANES.LANE2` of instance `i` -/
def BL_HEAD_LANES_LANE2 (i : Nat) : Fld := ⟨0x200 + 8 * i, 16, 6, .rw, 0, false⟩
/-- R302 `BL_HEAD_LANES.LANE3` of instance `i` -/
def BL_HEAD_LANES_LANE3 (i : Nat) : Fld := ⟨0x200 + 8 * i, 24, 6, .rw, 0, false⟩
/-- R302 `BL_HEAD_CFG.COUNT` of instance `i` -/
def BL_HEAD_CFG_COUNT (i : Nat) : Fld := ⟨0x204 + 8 * i, 0, 2, .rw, 0, false⟩
/-- R302 `BL_SCHEDA_LO.HEAD0` of instance `i` -/
def BL_SCHEDA_LO_HEAD0 (i : Nat) : Fld := ⟨0x400 + 8 * i, 0, 6, .rw, 0, true⟩
/-- R302 `BL_SCHEDA_LO.VALID0` of instance `i` -/
def BL_SCHEDA_LO_VALID0 (i : Nat) : Fld := ⟨0x400 + 8 * i, 7, 1, .rw, 0, true⟩
/-- R302 `BL_SCHEDA_LO.HEAD1` of instance `i` -/
def BL_SCHEDA_LO_HEAD1 (i : Nat) : Fld := ⟨0x400 + 8 * i, 8, 6, .rw, 0, true⟩
/-- R302 `BL_SCHEDA_LO.VALID1` of instance `i` -/
def BL_SCHEDA_LO_VALID1 (i : Nat) : Fld := ⟨0x400 + 8 * i, 15, 1, .rw, 0, true⟩
/-- R302 `BL_SCHEDA_LO.HEAD2` of instance `i` -/
def BL_SCHEDA_LO_HEAD2 (i : Nat) : Fld := ⟨0x400 + 8 * i, 16, 6, .rw, 0, true⟩
/-- R302 `BL_SCHEDA_LO.VALID2` of instance `i` -/
def BL_SCHEDA_LO_VALID2 (i : Nat) : Fld := ⟨0x400 + 8 * i, 23, 1, .rw, 0, true⟩
/-- R302 `BL_SCHEDA_LO.HEAD3` of instance `i` -/
def BL_SCHEDA_LO_HEAD3 (i : Nat) : Fld := ⟨0x400 + 8 * i, 24, 6, .rw, 0, true⟩
/-- R302 `BL_SCHEDA_LO.VALID3` of instance `i` -/
def BL_SCHEDA_LO_VALID3 (i : Nat) : Fld := ⟨0x400 + 8 * i, 31, 1, .rw, 0, true⟩
/-- R302 `BL_SCHEDA_HI.HEAD0` of instance `i` -/
def BL_SCHEDA_HI_HEAD0 (i : Nat) : Fld := ⟨0x404 + 8 * i, 0, 6, .rw, 0, true⟩
/-- R302 `BL_SCHEDA_HI.VALID0` of instance `i` -/
def BL_SCHEDA_HI_VALID0 (i : Nat) : Fld := ⟨0x404 + 8 * i, 7, 1, .rw, 0, true⟩
/-- R302 `BL_SCHEDA_HI.HEAD1` of instance `i` -/
def BL_SCHEDA_HI_HEAD1 (i : Nat) : Fld := ⟨0x404 + 8 * i, 8, 6, .rw, 0, true⟩
/-- R302 `BL_SCHEDA_HI.VALID1` of instance `i` -/
def BL_SCHEDA_HI_VALID1 (i : Nat) : Fld := ⟨0x404 + 8 * i, 15, 1, .rw, 0, true⟩
/-- R302 `BL_SCHEDA_HI.HEAD2` of instance `i` -/
def BL_SCHEDA_HI_HEAD2 (i : Nat) : Fld := ⟨0x404 + 8 * i, 16, 6, .rw, 0, true⟩
/-- R302 `BL_SCHEDA_HI.VALID2` of instance `i` -/
def BL_SCHEDA_HI_VALID2 (i : Nat) : Fld := ⟨0x404 + 8 * i, 23, 1, .rw, 0, true⟩
/-- R302 `BL_SCHEDA_HI.HEAD3` of instance `i` -/
def BL_SCHEDA_HI_HEAD3 (i : Nat) : Fld := ⟨0x404 + 8 * i, 24, 6, .rw, 0, true⟩
/-- R302 `BL_SCHEDA_HI.VALID3` of instance `i` -/
def BL_SCHEDA_HI_VALID3 (i : Nat) : Fld := ⟨0x404 + 8 * i, 31, 1, .rw, 0, true⟩
/-- R302 `BL_SCHEDB_LO.HEAD0` of instance `i` -/
def BL_SCHEDB_LO_HEAD0 (i : Nat) : Fld := ⟨0x600 + 8 * i, 0, 6, .rw, 0, true⟩
/-- R302 `BL_SCHEDB_LO.VALID0` of instance `i` -/
def BL_SCHEDB_LO_VALID0 (i : Nat) : Fld := ⟨0x600 + 8 * i, 7, 1, .rw, 0, true⟩
/-- R302 `BL_SCHEDB_LO.HEAD1` of instance `i` -/
def BL_SCHEDB_LO_HEAD1 (i : Nat) : Fld := ⟨0x600 + 8 * i, 8, 6, .rw, 0, true⟩
/-- R302 `BL_SCHEDB_LO.VALID1` of instance `i` -/
def BL_SCHEDB_LO_VALID1 (i : Nat) : Fld := ⟨0x600 + 8 * i, 15, 1, .rw, 0, true⟩
/-- R302 `BL_SCHEDB_LO.HEAD2` of instance `i` -/
def BL_SCHEDB_LO_HEAD2 (i : Nat) : Fld := ⟨0x600 + 8 * i, 16, 6, .rw, 0, true⟩
/-- R302 `BL_SCHEDB_LO.VALID2` of instance `i` -/
def BL_SCHEDB_LO_VALID2 (i : Nat) : Fld := ⟨0x600 + 8 * i, 23, 1, .rw, 0, true⟩
/-- R302 `BL_SCHEDB_LO.HEAD3` of instance `i` -/
def BL_SCHEDB_LO_HEAD3 (i : Nat) : Fld := ⟨0x600 + 8 * i, 24, 6, .rw, 0, true⟩
/-- R302 `BL_SCHEDB_LO.VALID3` of instance `i` -/
def BL_SCHEDB_LO_VALID3 (i : Nat) : Fld := ⟨0x600 + 8 * i, 31, 1, .rw, 0, true⟩
/-- R302 `BL_SCHEDB_HI.HEAD0` of instance `i` -/
def BL_SCHEDB_HI_HEAD0 (i : Nat) : Fld := ⟨0x604 + 8 * i, 0, 6, .rw, 0, true⟩
/-- R302 `BL_SCHEDB_HI.VALID0` of instance `i` -/
def BL_SCHEDB_HI_VALID0 (i : Nat) : Fld := ⟨0x604 + 8 * i, 7, 1, .rw, 0, true⟩
/-- R302 `BL_SCHEDB_HI.HEAD1` of instance `i` -/
def BL_SCHEDB_HI_HEAD1 (i : Nat) : Fld := ⟨0x604 + 8 * i, 8, 6, .rw, 0, true⟩
/-- R302 `BL_SCHEDB_HI.VALID1` of instance `i` -/
def BL_SCHEDB_HI_VALID1 (i : Nat) : Fld := ⟨0x604 + 8 * i, 15, 1, .rw, 0, true⟩
/-- R302 `BL_SCHEDB_HI.HEAD2` of instance `i` -/
def BL_SCHEDB_HI_HEAD2 (i : Nat) : Fld := ⟨0x604 + 8 * i, 16, 6, .rw, 0, true⟩
/-- R302 `BL_SCHEDB_HI.VALID2` of instance `i` -/
def BL_SCHEDB_HI_VALID2 (i : Nat) : Fld := ⟨0x604 + 8 * i, 23, 1, .rw, 0, true⟩
/-- R302 `BL_SCHEDB_HI.HEAD3` of instance `i` -/
def BL_SCHEDB_HI_HEAD3 (i : Nat) : Fld := ⟨0x604 + 8 * i, 24, 6, .rw, 0, true⟩
/-- R302 `BL_SCHEDB_HI.VALID3` of instance `i` -/
def BL_SCHEDB_HI_VALID3 (i : Nat) : Fld := ⟨0x604 + 8 * i, 31, 1, .rw, 0, true⟩

/-- The words of a BL page or entry and the fields of each. -/
def rowsBL : List Row := [
  ⟨0x100, 1, 4, fun _ => [BL_CLAIM_CLAIM, BL_CLAIM_TEAM]⟩,
  ⟨0x104, 1, 4, fun _ => [BL_IDLE_INT]⟩,
  ⟨0x108, 1, 4, fun _ => [BL_SCHED_CTRL_ACTIVE, BL_SCHED_CTRL_SWAP]⟩,
  ⟨0x10C, 1, 4, fun _ => [BL_TX_PKTS_COUNT]⟩,
  ⟨0x110, 1, 4, fun _ => [BL_TX_LATE_COUNT]⟩,
  ⟨0x200, 64, 8, fun i => [BL_HEAD_LANES_LANE0 i, BL_HEAD_LANES_LANE1 i, BL_HEAD_LANES_LANE2 i, BL_HEAD_LANES_LANE3 i]⟩,
  ⟨0x204, 64, 8, fun i => [BL_HEAD_CFG_COUNT i]⟩,
  ⟨0x400, 64, 8, fun i => [BL_SCHEDA_LO_HEAD0 i, BL_SCHEDA_LO_VALID0 i, BL_SCHEDA_LO_HEAD1 i, BL_SCHEDA_LO_VALID1 i, BL_SCHEDA_LO_HEAD2 i, BL_SCHEDA_LO_VALID2 i, BL_SCHEDA_LO_HEAD3 i, BL_SCHEDA_LO_VALID3 i]⟩,
  ⟨0x404, 64, 8, fun i => [BL_SCHEDA_HI_HEAD0 i, BL_SCHEDA_HI_VALID0 i, BL_SCHEDA_HI_HEAD1 i, BL_SCHEDA_HI_VALID1 i, BL_SCHEDA_HI_HEAD2 i, BL_SCHEDA_HI_VALID2 i, BL_SCHEDA_HI_HEAD3 i, BL_SCHEDA_HI_VALID3 i]⟩,
  ⟨0x600, 64, 8, fun i => [BL_SCHEDB_LO_HEAD0 i, BL_SCHEDB_LO_VALID0 i, BL_SCHEDB_LO_HEAD1 i, BL_SCHEDB_LO_VALID1 i, BL_SCHEDB_LO_HEAD2 i, BL_SCHEDB_LO_VALID2 i, BL_SCHEDB_LO_HEAD3 i, BL_SCHEDB_LO_VALID3 i]⟩,
  ⟨0x604, 64, 8, fun i => [BL_SCHEDB_HI_HEAD0 i, BL_SCHEDB_HI_VALID0 i, BL_SCHEDB_HI_HEAD1 i, BL_SCHEDB_HI_VALID1 i, BL_SCHEDB_HI_HEAD2 i, BL_SCHEDB_HI_VALID2 i, BL_SCHEDB_HI_HEAD3 i, BL_SCHEDB_HI_VALID3 i]⟩]

/-! ## LN -/

/-- R317 `LN_CFG.PROTO` -/
def LN_CFG_PROTO : Fld := ⟨0x100, 0, 2, .rw, 0, false⟩
/-- R317 `LN_CFG.RATE` -/
def LN_CFG_RATE : Fld := ⟨0x100, 2, 3, .rw, 0, false⟩
/-- R317 `LN_CFG.TX_POL` -/
def LN_CFG_TX_POL : Fld := ⟨0x100, 5, 1, .rw, 0, false⟩
/-- R317 `LN_CFG.RX_POL` -/
def LN_CFG_RX_POL : Fld := ⟨0x100, 6, 1, .rw, 0, false⟩
/-- R317 `LN_CFG.TX_PRE` -/
def LN_CFG_TX_PRE : Fld := ⟨0x100, 8, 4, .rw, 0, false⟩
/-- R317 `LN_CFG.TX_POST` -/
def LN_CFG_TX_POST : Fld := ⟨0x100, 12, 4, .rw, 4, false⟩
/-- R317 `LN_CFG.TX_AMP` -/
def LN_CFG_TX_AMP : Fld := ⟨0x100, 16, 5, .rw, 24, false⟩
/-- R317 `LN_PAT_CTRL.GEN` -/
def LN_PAT_CTRL_GEN : Fld := ⟨0x108, 0, 3, .rw, 0, false⟩
/-- R317 `LN_PAT_CTRL.CHK` -/
def LN_PAT_CTRL_CHK : Fld := ⟨0x108, 4, 3, .rw, 0, false⟩
/-- R317 `LN_PAT_CTRL.LOCKED` -/
def LN_PAT_CTRL_LOCKED : Fld := ⟨0x108, 8, 1, .ro, 0, false⟩
/-- R317 `LN_PAT_CTRL.INJ_ONE` -/
def LN_PAT_CTRL_INJ_ONE : Fld := ⟨0x108, 9, 1, .w1s, 0, true⟩
/-- R317 `LN_PAT_CTRL.INJ_EXP` -/
def LN_PAT_CTRL_INJ_EXP : Fld := ⟨0x108, 16, 6, .rw, 0, false⟩
/-- R317 `LN_PAT_WORD.WORD` -/
def LN_PAT_WORD_WORD : Fld := ⟨0x10C, 0, 20, .rw, 0, false⟩
/-- R317 `LN_PAT_ERR.COUNT` -/
def LN_PAT_ERR_COUNT : Fld := ⟨0x110, 0, 32, .rc, 0, false⟩
/-- R317 `LN_PAT_BITS.COUNT` -/
def LN_PAT_BITS_COUNT : Fld := ⟨0x114, 0, 32, .rc, 0, false⟩
/-- R317 `LN_LOS_COUNT.COUNT` -/
def LN_LOS_COUNT_COUNT : Fld := ⟨0x118, 0, 32, .rc, 0, false⟩
/-- R317 `LN_TX_DROP.COUNT` -/
def LN_TX_DROP_COUNT : Fld := ⟨0x11C, 0, 32, .rc, 0, false⟩
/-- R317 `LN_QCFG.BREF` -/
def LN_QCFG_BREF : Fld := ⟨0x300, 0, 1, .rw, 0, false⟩
/-- R317 `LN_QSTAT.A_ON` -/
def LN_QSTAT_A_ON : Fld := ⟨0x304, 0, 1, .ro, 0, false⟩
/-- R317 `LN_QSTAT.A_LOCK` -/
def LN_QSTAT_A_LOCK : Fld := ⟨0x304, 1, 1, .ro, 0, false⟩
/-- R317 `LN_QSTAT.A_FAM` -/
def LN_QSTAT_A_FAM : Fld := ⟨0x304, 2, 2, .ro, 0, false⟩
/-- R317 `LN_QSTAT.B_ON` -/
def LN_QSTAT_B_ON : Fld := ⟨0x304, 4, 1, .ro, 0, false⟩
/-- R317 `LN_QSTAT.B_LOCK` -/
def LN_QSTAT_B_LOCK : Fld := ⟨0x304, 5, 1, .ro, 0, false⟩
/-- R317 `LN_QSTAT.B_FAM` -/
def LN_QSTAT_B_FAM : Fld := ⟨0x304, 6, 2, .ro, 0, false⟩
/-- R317 `LN_QLOSS.COUNT` -/
def LN_QLOSS_COUNT : Fld := ⟨0x308, 0, 32, .rc, 0, false⟩

/-- The words of a LN page or entry and the fields of each. -/
def rowsLN : List Row := [
  ⟨0x100, 1, 4, fun _ => [LN_CFG_PROTO, LN_CFG_RATE, LN_CFG_TX_POL, LN_CFG_RX_POL, LN_CFG_TX_PRE, LN_CFG_TX_POST, LN_CFG_TX_AMP]⟩,
  ⟨0x108, 1, 4, fun _ => [LN_PAT_CTRL_GEN, LN_PAT_CTRL_CHK, LN_PAT_CTRL_LOCKED, LN_PAT_CTRL_INJ_ONE, LN_PAT_CTRL_INJ_EXP]⟩,
  ⟨0x10C, 1, 4, fun _ => [LN_PAT_WORD_WORD]⟩,
  ⟨0x110, 1, 4, fun _ => [LN_PAT_ERR_COUNT]⟩,
  ⟨0x114, 1, 4, fun _ => [LN_PAT_BITS_COUNT]⟩,
  ⟨0x118, 1, 4, fun _ => [LN_LOS_COUNT_COUNT]⟩,
  ⟨0x11C, 1, 4, fun _ => [LN_TX_DROP_COUNT]⟩,
  ⟨0x300, 1, 4, fun _ => [LN_QCFG_BREF]⟩,
  ⟨0x304, 1, 4, fun _ => [LN_QSTAT_A_ON, LN_QSTAT_A_LOCK, LN_QSTAT_A_FAM, LN_QSTAT_B_ON, LN_QSTAT_B_LOCK, LN_QSTAT_B_FAM]⟩,
  ⟨0x308, 1, 4, fun _ => [LN_QLOSS_COUNT]⟩]

/-! ## CVU -/

/-- R325 `CVU_POLY.POLY` of instance `i` -/
def CVU_POLY_POLY (i : Nat) : Fld := ⟨0x104 + 4 * i, 0, 32, .rw, 0, false⟩
/-- R325 `CVU_INIT.INIT` of instance `i` -/
def CVU_INIT_INIT (i : Nat) : Fld := ⟨0x10C + 4 * i, 0, 32, .rw, 0, false⟩
/-- R325 `CVU_XOR.XOROUT` of instance `i` -/
def CVU_XOR_XOROUT (i : Nat) : Fld := ⟨0x114 + 4 * i, 0, 32, .rw, 0, false⟩
/-- R325 `CVU_CFG.WIDTH` -/
def CVU_CFG_WIDTH : Fld := ⟨0x100, 0, 7, .rw, 32, false⟩
/-- R325 `CVU_CFG.REFIN` -/
def CVU_CFG_REFIN : Fld := ⟨0x100, 7, 1, .rw, 0, false⟩
/-- R325 `CVU_CFG.REFOUT` -/
def CVU_CFG_REFOUT : Fld := ⟨0x100, 8, 1, .rw, 0, false⟩
/-- R325 `CVU_CFG.TAP` -/
def CVU_CFG_TAP : Fld := ⟨0x100, 9, 2, .rw, 0, false⟩
/-- R325 `CVU_CFG.MODE` -/
def CVU_CFG_MODE : Fld := ⟨0x100, 11, 2, .rw, 0, false⟩
/-- R325 `CVU_CFG.FOLD` -/
def CVU_CFG_FOLD : Fld := ⟨0x100, 13, 2, .rw, 0, false⟩
/-- R325 `CVU_CFG.DROP` -/
def CVU_CFG_DROP : Fld := ⟨0x100, 15, 1, .rw, 0, false⟩
/-- R325 `CVU_CFG.ACCUM` -/
def CVU_CFG_ACCUM : Fld := ⟨0x100, 16, 1, .rw, 0, false⟩
/-- R325 `CVU_CFG.SRC` -/
def CVU_CFG_SRC : Fld := ⟨0x100, 17, 5, .rw, 0, false⟩
/-- R325 `CVU_MATCH.PORT` -/
def CVU_MATCH_PORT : Fld := ⟨0x11C, 0, 16, .rw, 0, false⟩
/-- R325 `CVU_MATCH.OFFSET` -/
def CVU_MATCH_OFFSET : Fld := ⟨0x11C, 16, 11, .rw, 0, false⟩
/-- R325 `CVU_WIN_BASE.BASE` -/
def CVU_WIN_BASE_BASE : Fld := ⟨0x120, 0, 32, .rw, 0, false⟩
/-- R325 `CVU_WIN_LIMIT.LIMIT` -/
def CVU_WIN_LIMIT_LIMIT : Fld := ⟨0x124, 0, 32, .rw, 0, false⟩
/-- R325 `CVU_SEQ.SEQ` -/
def CVU_SEQ_SEQ : Fld := ⟨0x130, 0, 32, .rw, 0, false⟩
/-- R325 `CVU_DATA.DATA` -/
def CVU_DATA_DATA : Fld := ⟨0x140, 0, 32, .wo, 0, true⟩
/-- R325 `CVU_DATA_B.DATA` -/
def CVU_DATA_B_DATA : Fld := ⟨0x144, 0, 8, .wo, 0, true⟩
/-- R325 `CVU_END.END` -/
def CVU_END_END : Fld := ⟨0x148, 0, 1, .wo, 0, true⟩
/-- R325 `CVU_RES_LO.VALUE` -/
def CVU_RES_LO_VALUE : Fld := ⟨0x150, 0, 32, .ro, 0, false⟩
/-- R325 `CVU_RES_HI.VALUE` -/
def CVU_RES_HI_VALUE : Fld := ⟨0x154, 0, 32, .ro, 0, false⟩
/-- R325 `CVU_RES_STAT.USED` -/
def CVU_RES_STAT_USED : Fld := ⟨0x158, 0, 5, .ro, 0, false⟩
/-- R325 `CVU_RES_STAT.OVF` -/
def CVU_RES_STAT_OVF : Fld := ⟨0x158, 5, 1, .w1c, 0, false⟩
/-- R325 `CVU_RES_TAG.TAG` -/
def CVU_RES_TAG_TAG : Fld := ⟨0x15C, 0, 32, .ro, 0, false⟩
/-- R325 `CVU_BLOCKS.COUNT` -/
def CVU_BLOCKS_COUNT : Fld := ⟨0x160, 0, 32, .rc, 0, false⟩
/-- R325 `CVU_FAIL.COUNT` -/
def CVU_FAIL_COUNT : Fld := ⟨0x164, 0, 32, .rc, 0, false⟩
/-- R325 `CVU_LOST.COUNT` -/
def CVU_LOST_COUNT : Fld := ⟨0x168, 0, 32, .rc, 0, false⟩

/-- The words of a CVU page or entry and the fields of each. -/
def rowsCVU : List Row := [
  ⟨0x104, 2, 4, fun i => [CVU_POLY_POLY i]⟩,
  ⟨0x10C, 2, 4, fun i => [CVU_INIT_INIT i]⟩,
  ⟨0x114, 2, 4, fun i => [CVU_XOR_XOROUT i]⟩,
  ⟨0x100, 1, 4, fun _ => [CVU_CFG_WIDTH, CVU_CFG_REFIN, CVU_CFG_REFOUT, CVU_CFG_TAP, CVU_CFG_MODE, CVU_CFG_FOLD, CVU_CFG_DROP, CVU_CFG_ACCUM, CVU_CFG_SRC]⟩,
  ⟨0x11C, 1, 4, fun _ => [CVU_MATCH_PORT, CVU_MATCH_OFFSET]⟩,
  ⟨0x120, 1, 4, fun _ => [CVU_WIN_BASE_BASE]⟩,
  ⟨0x124, 1, 4, fun _ => [CVU_WIN_LIMIT_LIMIT]⟩,
  ⟨0x130, 1, 4, fun _ => [CVU_SEQ_SEQ]⟩,
  ⟨0x140, 1, 4, fun _ => [CVU_DATA_DATA]⟩,
  ⟨0x144, 1, 4, fun _ => [CVU_DATA_B_DATA]⟩,
  ⟨0x148, 1, 4, fun _ => [CVU_END_END]⟩,
  ⟨0x150, 1, 4, fun _ => [CVU_RES_LO_VALUE]⟩,
  ⟨0x154, 1, 4, fun _ => [CVU_RES_HI_VALUE]⟩,
  ⟨0x158, 1, 4, fun _ => [CVU_RES_STAT_USED, CVU_RES_STAT_OVF]⟩,
  ⟨0x15C, 1, 4, fun _ => [CVU_RES_TAG_TAG]⟩,
  ⟨0x160, 1, 4, fun _ => [CVU_BLOCKS_COUNT]⟩,
  ⟨0x164, 1, 4, fun _ => [CVU_FAIL_COUNT]⟩,
  ⟨0x168, 1, 4, fun _ => [CVU_LOST_COUNT]⟩]

/-! ## ENC -/

/-- R338 `ENC_LOAD.PERMIL` -/
def ENC_LOAD_PERMIL : Fld := ⟨0x100, 0, 10, .ro, 0, false⟩
/-- R338 `ENC_LOAD.CHANNELS` -/
def ENC_LOAD_CHANNELS : Fld := ⟨0x100, 16, 6, .ro, 0, false⟩
/-- R338 `ENC_PICS.COUNT` -/
def ENC_PICS_COUNT : Fld := ⟨0x104, 0, 32, .rc, 0, false⟩
/-- R338 `ENC_HELD.COUNT` -/
def ENC_HELD_COUNT : Fld := ⟨0x108, 0, 32, .rc, 0, false⟩
/-- R338 `ENC_NOTREC.COUNT` -/
def ENC_NOTREC_COUNT : Fld := ⟨0x10C, 0, 32, .rc, 0, false⟩
/-- R338 `ENC_CH_CTRL.EN` of instance `i` -/
def ENC_CH_CTRL_EN (i : Nat) : Fld := ⟨0x400 + 64 * i, 0, 1, .rw, 0, true⟩
/-- R338 `ENC_CH_CTRL.HEAD` of instance `i` -/
def ENC_CH_CTRL_HEAD (i : Nat) : Fld := ⟨0x400 + 64 * i, 1, 6, .rw, 0, false⟩
/-- R338 `ENC_CH_CTRL.SEND_HIGH` of instance `i` -/
def ENC_CH_CTRL_SEND_HIGH (i : Nat) : Fld := ⟨0x400 + 64 * i, 7, 1, .rw, 1, false⟩
/-- R338 `ENC_CH_CTRL.DIV` of instance `i` -/
def ENC_CH_CTRL_DIV (i : Nat) : Fld := ⟨0x400 + 64 * i, 8, 6, .rw, 1, false⟩
/-- R338 `ENC_CH_CTRL.QDEPTH` of instance `i` -/
def ENC_CH_CTRL_QDEPTH (i : Nat) : Fld := ⟨0x400 + 64 * i, 14, 2, .rw, 1, false⟩
/-- R338 `ENC_CH_CTRL.REC_CLASS` of instance `i` -/
def ENC_CH_CTRL_REC_CLASS (i : Nat) : Fld := ⟨0x400 + 64 * i, 16, 4, .rw, 0, false⟩
/-- R338 `ENC_CH_CTRL.REF_CLASS` of instance `i` -/
def ENC_CH_CTRL_REF_CLASS (i : Nat) : Fld := ⟨0x400 + 64 * i, 20, 4, .rw, 0, false⟩
/-- R338 `ENC_CH_CTRL.DROVER` of instance `i` -/
def ENC_CH_CTRL_DROVER (i : Nat) : Fld := ⟨0x400 + 64 * i, 24, 3, .rw, 0, false⟩
/-- R338 `ENC_CH_CTRL.ACTIVE` of instance `i` -/
def ENC_CH_CTRL_ACTIVE (i : Nat) : Fld := ⟨0x400 + 64 * i, 31, 1, .ro, 0, false⟩
/-- R338 `ENC_CH_RING.BAY` of instance `i` -/
def ENC_CH_RING_BAY (i : Nat) : Fld := ⟨0x404 + 64 * i, 0, 13, .rw, 0, false⟩
/-- R338 `ENC_CH_RING.GEN` of instance `i` -/
def ENC_CH_RING_GEN (i : Nat) : Fld := ⟨0x404 + 64 * i, 16, 16, .rw, 0, false⟩
/-- R338 `ENC_CH_QP.QP` of instance `i` -/
def ENC_CH_QP_QP (i : Nat) : Fld := ⟨0x408 + 64 * i, 0, 6, .rw, 30, false⟩
/-- R338 `ENC_CH_QP.QP_I` of instance `i` -/
def ENC_CH_QP_QP_I (i : Nat) : Fld := ⟨0x408 + 64 * i, 8, 6, .rw, 27, false⟩
/-- R338 `ENC_CH_QP.QP_MAX` of instance `i` -/
def ENC_CH_QP_QP_MAX (i : Nat) : Fld := ⟨0x408 + 64 * i, 16, 6, .rw, 51, false⟩
/-- R338 `ENC_CH_GOP.IDR_INT` of instance `i` -/
def ENC_CH_GOP_IDR_INT (i : Nat) : Fld := ⟨0x40C + 64 * i, 0, 16, .rw, 60, false⟩
/-- R338 `ENC_CH_CAP.BITS` of instance `i` -/
def ENC_CH_CAP_BITS (i : Nat) : Fld := ⟨0x410 + 64 * i, 0, 32, .rw, 2000000, false⟩
/-- R338 `ENC_CH_ICAP.BITS` of instance `i` -/
def ENC_CH_ICAP_BITS (i : Nat) : Fld := ⟨0x414 + 64 * i, 0, 32, .rw, 6000000, false⟩
/-- R338 `ENC_CH_WIN.N` of instance `i` -/
def ENC_CH_WIN_N (i : Nat) : Fld := ⟨0x418 + 64 * i, 0, 8, .rw, 0, false⟩
/-- R338 `ENC_CH_WCAP.BITS` of instance `i` -/
def ENC_CH_WCAP_BITS (i : Nat) : Fld := ⟨0x41C + 64 * i, 0, 32, .rw, 4294967295, false⟩
/-- R338 `ENC_CH_WR.OFFSET` of instance `i` -/
def ENC_CH_WR_OFFSET (i : Nat) : Fld := ⟨0x420 + 64 * i, 0, 32, .ro, 0, false⟩
/-- R338 `ENC_CH_RD.OFFSET` of instance `i` -/
def ENC_CH_RD_OFFSET (i : Nat) : Fld := ⟨0x424 + 64 * i, 0, 32, .rw, 0, false⟩
/-- R338 `ENC_CH_STAT.QUEUED` of instance `i` -/
def ENC_CH_STAT_QUEUED (i : Nat) : Fld := ⟨0x428 + 64 * i, 0, 3, .ro, 0, false⟩
/-- R338 `ENC_CH_STAT.IDR_NEXT` of instance `i` -/
def ENC_CH_STAT_IDR_NEXT (i : Nat) : Fld := ⟨0x428 + 64 * i, 3, 1, .ro, 0, false⟩
/-- R338 `ENC_CH_STAT.REFUSE` of instance `i` -/
def ENC_CH_STAT_REFUSE (i : Nat) : Fld := ⟨0x428 + 64 * i, 8, 4, .ro, 0, false⟩
/-- R338 `ENC_CH_PICS.COUNT` of instance `i` -/
def ENC_CH_PICS_COUNT (i : Nat) : Fld := ⟨0x42C + 64 * i, 0, 32, .ro, 0, false⟩
/-- R338 `ENC_CH_HELD.COUNT` of instance `i` -/
def ENC_CH_HELD_COUNT (i : Nat) : Fld := ⟨0x430 + 64 * i, 0, 32, .ro, 0, false⟩
/-- R338 `ENC_CH_NOTREC.COUNT` of instance `i` -/
def ENC_CH_NOTREC_COUNT (i : Nat) : Fld := ⟨0x434 + 64 * i, 0, 32, .ro, 0, false⟩
/-- R338 `ENC_CH_WIN_OVER.COUNT` of instance `i` -/
def ENC_CH_WIN_OVER_COUNT (i : Nat) : Fld := ⟨0x438 + 64 * i, 0, 32, .ro, 0, false⟩

/-- The words of a ENC page or entry and the fields of each. -/
def rowsENC : List Row := [
  ⟨0x100, 1, 4, fun _ => [ENC_LOAD_PERMIL, ENC_LOAD_CHANNELS]⟩,
  ⟨0x104, 1, 4, fun _ => [ENC_PICS_COUNT]⟩,
  ⟨0x108, 1, 4, fun _ => [ENC_HELD_COUNT]⟩,
  ⟨0x10C, 1, 4, fun _ => [ENC_NOTREC_COUNT]⟩,
  ⟨0x400, 32, 64, fun i => [ENC_CH_CTRL_EN i, ENC_CH_CTRL_HEAD i, ENC_CH_CTRL_SEND_HIGH i, ENC_CH_CTRL_DIV i, ENC_CH_CTRL_QDEPTH i, ENC_CH_CTRL_REC_CLASS i, ENC_CH_CTRL_REF_CLASS i, ENC_CH_CTRL_DROVER i, ENC_CH_CTRL_ACTIVE i]⟩,
  ⟨0x404, 32, 64, fun i => [ENC_CH_RING_BAY i, ENC_CH_RING_GEN i]⟩,
  ⟨0x408, 32, 64, fun i => [ENC_CH_QP_QP i, ENC_CH_QP_QP_I i, ENC_CH_QP_QP_MAX i]⟩,
  ⟨0x40C, 32, 64, fun i => [ENC_CH_GOP_IDR_INT i]⟩,
  ⟨0x410, 32, 64, fun i => [ENC_CH_CAP_BITS i]⟩,
  ⟨0x414, 32, 64, fun i => [ENC_CH_ICAP_BITS i]⟩,
  ⟨0x418, 32, 64, fun i => [ENC_CH_WIN_N i]⟩,
  ⟨0x41C, 32, 64, fun i => [ENC_CH_WCAP_BITS i]⟩,
  ⟨0x420, 32, 64, fun i => [ENC_CH_WR_OFFSET i]⟩,
  ⟨0x424, 32, 64, fun i => [ENC_CH_RD_OFFSET i]⟩,
  ⟨0x428, 32, 64, fun i => [ENC_CH_STAT_QUEUED i, ENC_CH_STAT_IDR_NEXT i, ENC_CH_STAT_REFUSE i]⟩,
  ⟨0x42C, 32, 64, fun i => [ENC_CH_PICS_COUNT i]⟩,
  ⟨0x430, 32, 64, fun i => [ENC_CH_HELD_COUNT i]⟩,
  ⟨0x434, 32, 64, fun i => [ENC_CH_NOTREC_COUNT i]⟩,
  ⟨0x438, 32, 64, fun i => [ENC_CH_WIN_OVER_COUNT i]⟩]

/-! ## TCH -/

/-- R358 `TCH_CTRL.GATE` -/
def TCH_CTRL_GATE : Fld := ⟨0x100, 0, 1, .rw, 1, false⟩
/-- R358 `TCH_CTRL.MOVES` -/
def TCH_CTRL_MOVES : Fld := ⟨0x100, 1, 1, .rw, 1, false⟩
/-- R358 `TCH_MATRIX.DRIVES` -/
def TCH_MATRIX_DRIVES : Fld := ⟨0x104, 0, 6, .rw, 48, false⟩
/-- R358 `TCH_MATRIX.SENSES` -/
def TCH_MATRIX_SENSES : Fld := ⟨0x104, 8, 7, .rw, 80, false⟩
/-- R358 `TCH_MATRIX.AMP` -/
def TCH_MATRIX_AMP : Fld := ⟨0x104, 16, 2, .rw, 2, false⟩
/-- R358 `TCH_SCAN.RATE` -/
def TCH_SCAN_RATE : Fld := ⟨0x108, 0, 8, .rw, 120, false⟩
/-- R358 `TCH_SCAN.DWELL` -/
def TCH_SCAN_DWELL : Fld := ⟨0x108, 8, 8, .rw, 16, false⟩
/-- R358 `TCH_SCAN.INIT` -/
def TCH_SCAN_INIT : Fld := ⟨0x108, 16, 4, .rw, 4, false⟩
/-- R358 `TCH_SCAN.DEBOUNCE` -/
def TCH_SCAN_DEBOUNCE : Fld := ⟨0x108, 20, 3, .rw, 2, false⟩
/-- R358 `TCH_THRESH.ON` -/
def TCH_THRESH_ON : Fld := ⟨0x10C, 0, 12, .rw, 320, false⟩
/-- R358 `TCH_THRESH.OFF` -/
def TCH_THRESH_OFF : Fld := ⟨0x10C, 12, 12, .rw, 200, false⟩
/-- R358 `TCH_ANTI.THRESH` -/
def TCH_ANTI_THRESH : Fld := ⟨0x110, 0, 12, .rw, 160, false⟩
/-- R358 `TCH_ANTI.FRAMES` -/
def TCH_ANTI_FRAMES : Fld := ⟨0x110, 12, 4, .rw, 3, false⟩
/-- R358 `TCH_ANTI.DRIFT` -/
def TCH_ANTI_DRIFT : Fld := ⟨0x110, 16, 8, .rw, 8, false⟩
/-- R358 `TCH_MAXHOLD.S` -/
def TCH_MAXHOLD_S : Fld := ⟨0x114, 0, 16, .rw, 600, false⟩
/-- R358 `TCH_CONTACT.MAX` -/
def TCH_CONTACT_MAX : Fld := ⟨0x118, 0, 4, .rw, 10, false⟩
/-- R358 `TCH_CONTACT.JUMP` -/
def TCH_CONTACT_JUMP : Fld := ⟨0x118, 16, 12, .rw, 512, false⟩
/-- R358 `TCH_HOP.NOISE_HI` -/
def TCH_HOP_NOISE_HI : Fld := ⟨0x11C, 0, 12, .rw, 40, false⟩
/-- R358 `TCH_HOP.CUR` -/
def TCH_HOP_CUR : Fld := ⟨0x11C, 16, 3, .ro, 0, false⟩
/-- R358 `TCH_HOP.EN` -/
def TCH_HOP_EN : Fld := ⟨0x11C, 31, 1, .rw, 1, false⟩
/-- R358 `TCH_FREQ.KHZ` of instance `i` -/
def TCH_FREQ_KHZ (i : Nat) : Fld := ⟨0x120 + 4 * i, 0, 10, .rw, tchFreqRst i, false⟩
/-- R358 `TCH_FREQ.EN` of instance `i` -/
def TCH_FREQ_EN (i : Nat) : Fld := ⟨0x120 + 4 * i, 31, 1, .rw, 1, false⟩
/-- R358 `TCH_NOISE.N` of instance `i` -/
def TCH_NOISE_N (i : Nat) : Fld := ⟨0x140 + 4 * i, 0, 16, .ro, 0, false⟩
/-- R358 `TCH_RPT_REFUSED.COUNT` -/
def TCH_RPT_REFUSED_COUNT : Fld := ⟨0x204, 0, 32, .rc, 0, false⟩
/-- R358 `TCH_RPT_COALESCED.COUNT` -/
def TCH_RPT_COALESCED_COUNT : Fld := ⟨0x208, 0, 32, .rc, 0, false⟩
/-- R358 `TCH_FRAMES.COUNT` -/
def TCH_FRAMES_COUNT : Fld := ⟨0x20C, 0, 32, .rc, 0, false⟩
/-- R358 `TCH_EXTRA.COUNT` -/
def TCH_EXTRA_COUNT : Fld := ⟨0x210, 0, 32, .rc, 0, false⟩
/-- R358 `TCH_ZONE_U.U0` of instance `i` -/
def TCH_ZONE_U_U0 (i : Nat) : Fld := ⟨0x180 + 32 * i, 0, 13, .rw, 0, false⟩
/-- R358 `TCH_ZONE_U.U1` of instance `i` -/
def TCH_ZONE_U_U1 (i : Nat) : Fld := ⟨0x180 + 32 * i, 16, 13, .rw, 0, false⟩
/-- R358 `TCH_ZONE_V.V0` of instance `i` -/
def TCH_ZONE_V_V0 (i : Nat) : Fld := ⟨0x184 + 32 * i, 0, 13, .rw, 0, false⟩
/-- R358 `TCH_ZONE_V.V1` of instance `i` -/
def TCH_ZONE_V_V1 (i : Nat) : Fld := ⟨0x184 + 32 * i, 16, 13, .rw, 0, false⟩
/-- R358 `TCH_ZONE_HPOS.HX` of instance `i` -/
def TCH_ZONE_HPOS_HX (i : Nat) : Fld := ⟨0x188 + 32 * i, 0, 16, .rw, 0, false⟩
/-- R358 `TCH_ZONE_HPOS.HY` of instance `i` -/
def TCH_ZONE_HPOS_HY (i : Nat) : Fld := ⟨0x188 + 32 * i, 16, 16, .rw, 0, false⟩
/-- R358 `TCH_ZONE_HSIZE.HW` of instance `i` -/
def TCH_ZONE_HSIZE_HW (i : Nat) : Fld := ⟨0x18C + 32 * i, 0, 16, .rw, 0, false⟩
/-- R358 `TCH_ZONE_HSIZE.HH` of instance `i` -/
def TCH_ZONE_HSIZE_HH (i : Nat) : Fld := ⟨0x18C + 32 * i, 16, 16, .rw, 0, false⟩
/-- R358 `TCH_ZONE_CFG.HEAD` of instance `i` -/
def TCH_ZONE_CFG_HEAD (i : Nat) : Fld := ⟨0x190 + 32 * i, 0, 6, .rw, 0, false⟩
/-- R358 `TCH_ZONE_CFG.SWAP` of instance `i` -/
def TCH_ZONE_CFG_SWAP (i : Nat) : Fld := ⟨0x190 + 32 * i, 6, 1, .rw, 0, false⟩
/-- R358 `TCH_ZONE_CFG.FLIP_X` of instance `i` -/
def TCH_ZONE_CFG_FLIP_X (i : Nat) : Fld := ⟨0x190 + 32 * i, 7, 1, .rw, 0, false⟩
/-- R358 `TCH_ZONE_CFG.FLIP_Y` of instance `i` -/
def TCH_ZONE_CFG_FLIP_Y (i : Nat) : Fld := ⟨0x190 + 32 * i, 8, 1, .rw, 0, false⟩
/-- R358 `TCH_ZONE_CFG.EN` of instance `i` -/
def TCH_ZONE_CFG_EN (i : Nat) : Fld := ⟨0x190 + 32 * i, 31, 1, .rw, 0, false⟩
/-- R352 `RPT_RING.BASE` -/
def RPT_RING_BASE : Fld := ⟨0x200, 0, 14, .rw, 0, false⟩
/-- R352 `RPT_RING.SIZE` -/
def RPT_RING_SIZE : Fld := ⟨0x200, 14, 4, .rw, 0, false⟩
/-- R352 `RPT_RING.VECTOR` -/
def RPT_RING_VECTOR : Fld := ⟨0x200, 18, 8, .rw, 0, false⟩
/-- R352 `RPT_RING.TARGET` -/
def RPT_RING_TARGET : Fld := ⟨0x200, 26, 4, .rw, 0, false⟩
/-- R352 `RPT_RING.EN` -/
def RPT_RING_EN : Fld := ⟨0x200, 31, 1, .rw, 0, true⟩

/-- The words of a TCH page or entry and the fields of each. -/
def rowsTCH : List Row := [
  ⟨0x100, 1, 4, fun _ => [TCH_CTRL_GATE, TCH_CTRL_MOVES]⟩,
  ⟨0x104, 1, 4, fun _ => [TCH_MATRIX_DRIVES, TCH_MATRIX_SENSES, TCH_MATRIX_AMP]⟩,
  ⟨0x108, 1, 4, fun _ => [TCH_SCAN_RATE, TCH_SCAN_DWELL, TCH_SCAN_INIT, TCH_SCAN_DEBOUNCE]⟩,
  ⟨0x10C, 1, 4, fun _ => [TCH_THRESH_ON, TCH_THRESH_OFF]⟩,
  ⟨0x110, 1, 4, fun _ => [TCH_ANTI_THRESH, TCH_ANTI_FRAMES, TCH_ANTI_DRIFT]⟩,
  ⟨0x114, 1, 4, fun _ => [TCH_MAXHOLD_S]⟩,
  ⟨0x118, 1, 4, fun _ => [TCH_CONTACT_MAX, TCH_CONTACT_JUMP]⟩,
  ⟨0x11C, 1, 4, fun _ => [TCH_HOP_NOISE_HI, TCH_HOP_CUR, TCH_HOP_EN]⟩,
  ⟨0x120, 8, 4, fun i => [TCH_FREQ_KHZ i, TCH_FREQ_EN i]⟩,
  ⟨0x140, 8, 4, fun i => [TCH_NOISE_N i]⟩,
  ⟨0x204, 1, 4, fun _ => [TCH_RPT_REFUSED_COUNT]⟩,
  ⟨0x208, 1, 4, fun _ => [TCH_RPT_COALESCED_COUNT]⟩,
  ⟨0x20C, 1, 4, fun _ => [TCH_FRAMES_COUNT]⟩,
  ⟨0x210, 1, 4, fun _ => [TCH_EXTRA_COUNT]⟩,
  ⟨0x180, 4, 32, fun i => [TCH_ZONE_U_U0 i, TCH_ZONE_U_U1 i]⟩,
  ⟨0x184, 4, 32, fun i => [TCH_ZONE_V_V0 i, TCH_ZONE_V_V1 i]⟩,
  ⟨0x188, 4, 32, fun i => [TCH_ZONE_HPOS_HX i, TCH_ZONE_HPOS_HY i]⟩,
  ⟨0x18C, 4, 32, fun i => [TCH_ZONE_HSIZE_HW i, TCH_ZONE_HSIZE_HH i]⟩,
  ⟨0x190, 4, 32, fun i => [TCH_ZONE_CFG_HEAD i, TCH_ZONE_CFG_SWAP i, TCH_ZONE_CFG_FLIP_X i, TCH_ZONE_CFG_FLIP_Y i, TCH_ZONE_CFG_EN i]⟩,
  ⟨0x200, 1, 4, fun _ => [RPT_RING_BASE, RPT_RING_SIZE, RPT_RING_VECTOR, RPT_RING_TARGET, RPT_RING_EN]⟩]

/-! ## TCHN -/

/-- R359 `TCHN_A.BASE` -/
def TCHN_A_BASE : Fld := ⟨0x0, 0, 16, .ro, 0, false⟩
/-- R359 `TCHN_A.LAST` -/
def TCHN_A_LAST : Fld := ⟨0x0, 16, 16, .ro, 0, false⟩
/-- R359 `TCHN_B.COMP` -/
def TCHN_B_COMP : Fld := ⟨0x4, 0, 6, .ro, 0, false⟩
/-- R359 `TCHN_B.MASK` -/
def TCHN_B_MASK : Fld := ⟨0x4, 6, 1, .rw, 0, false⟩
/-- R359 `TCHN_B.TOUCHED` -/
def TCHN_B_TOUCHED : Fld := ⟨0x4, 7, 1, .ro, 0, false⟩
/-- R359 `TCHN_B.STUCK` -/
def TCHN_B_STUCK : Fld := ⟨0x4, 8, 1, .ro, 0, false⟩
/-- R359 `TCHN_B.ANTI` -/
def TCHN_B_ANTI : Fld := ⟨0x4, 9, 1, .ro, 0, false⟩
/-- R359 `TCHN_B.SAT` -/
def TCHN_B_SAT : Fld := ⟨0x4, 10, 1, .ro, 0, false⟩
/-- R359 `TCHN_B.HOLD_S` -/
def TCHN_B_HOLD_S : Fld := ⟨0x4, 16, 16, .ro, 0, false⟩

/-- The words of a TCHN page or entry and the fields of each. -/
def rowsTCHN : List Row := [
  ⟨0x0, 1, 4, fun _ => [TCHN_A_BASE, TCHN_A_LAST]⟩,
  ⟨0x4, 1, 4, fun _ => [TCHN_B_COMP, TCHN_B_MASK, TCHN_B_TOUCHED, TCHN_B_STUCK, TCHN_B_ANTI, TCHN_B_SAT, TCHN_B_HOLD_S]⟩]

/-! ## TCHK -/

/-- R360 `TCH_KEY_SCAN.RATE` -/
def TCH_KEY_SCAN_RATE : Fld := ⟨0x100, 0, 8, .rw, 50, false⟩
/-- R360 `TCH_KEY_SCAN.LIMIT` -/
def TCH_KEY_SCAN_LIMIT : Fld := ⟨0x100, 16, 13, .rw, 4000, false⟩
/-- R360 `TCH_KEY_THRESH.ON` -/
def TCH_KEY_THRESH_ON : Fld := ⟨0x104, 0, 12, .rw, 20, false⟩
/-- R360 `TCH_KEY_THRESH.OFF` -/
def TCH_KEY_THRESH_OFF : Fld := ⟨0x104, 12, 12, .rw, 12, false⟩
/-- R360 `TCH_KEY_ANTI.THRESH` -/
def TCH_KEY_ANTI_THRESH : Fld := ⟨0x108, 0, 12, .rw, 10, false⟩
/-- R360 `TCH_KEY_ANTI.FRAMES` -/
def TCH_KEY_ANTI_FRAMES : Fld := ⟨0x108, 12, 4, .rw, 3, false⟩
/-- R360 `TCH_KEY_ANTI.DRIFT` -/
def TCH_KEY_ANTI_DRIFT : Fld := ⟨0x108, 16, 8, .rw, 16, false⟩
/-- R360 `TCH_KEY_MAXHOLD.S` -/
def TCH_KEY_MAXHOLD_S : Fld := ⟨0x10C, 0, 16, .rw, 600, false⟩
/-- R360 `TCH_KEY_EN.EN` -/
def TCH_KEY_EN_EN : Fld := ⟨0x110, 0, 32, .rw, 0, false⟩
/-- R360 `TCH_KEY_WAKE.WAKE` -/
def TCH_KEY_WAKE_WAKE : Fld := ⟨0x114, 0, 32, .rw, 0, false⟩
/-- R360 `TCH_KEY.BASE` of instance `i` -/
def TCH_KEY_BASE (i : Nat) : Fld := ⟨0x140 + 4 * i, 0, 13, .ro, 0, false⟩
/-- R360 `TCH_KEY.COUNT` of instance `i` -/
def TCH_KEY_COUNT (i : Nat) : Fld := ⟨0x140 + 4 * i, 16, 13, .ro, 0, false⟩
/-- R360 `TCH_KEY.ON` of instance `i` -/
def TCH_KEY_ON (i : Nat) : Fld := ⟨0x140 + 4 * i, 29, 1, .ro, 0, false⟩
/-- R360 `TCH_KEY.STUCK` of instance `i` -/
def TCH_KEY_STUCK (i : Nat) : Fld := ⟨0x140 + 4 * i, 30, 1, .ro, 0, false⟩
/-- R360 `TCH_KEY.TIMEOUT` of instance `i` -/
def TCH_KEY_TIMEOUT (i : Nat) : Fld := ⟨0x140 + 4 * i, 31, 1, .ro, 0, false⟩
/-- R360 `TCH_GROUP.FIRST` of instance `i` -/
def TCH_GROUP_FIRST (i : Nat) : Fld := ⟨0x1C0 + 4 * i, 0, 5, .rw, 0, false⟩
/-- R360 `TCH_GROUP.N` of instance `i` -/
def TCH_GROUP_N (i : Nat) : Fld := ⟨0x1C0 + 4 * i, 8, 4, .rw, 0, false⟩
/-- R360 `TCH_GROUP.KIND` of instance `i` -/
def TCH_GROUP_KIND (i : Nat) : Fld := ⟨0x1C0 + 4 * i, 12, 2, .rw, 0, false⟩
/-- R360 `TCH_GROUP.POS` of instance `i` -/
def TCH_GROUP_POS (i : Nat) : Fld := ⟨0x1C0 + 4 * i, 16, 10, .ro, 0, false⟩
/-- R360 `TCH_GROUP.ACTIVE` of instance `i` -/
def TCH_GROUP_ACTIVE (i : Nat) : Fld := ⟨0x1C0 + 4 * i, 31, 1, .ro, 0, false⟩

/-- The words of a TCHK page or entry and the fields of each. -/
def rowsTCHK : List Row := [
  ⟨0x100, 1, 4, fun _ => [TCH_KEY_SCAN_RATE, TCH_KEY_SCAN_LIMIT]⟩,
  ⟨0x104, 1, 4, fun _ => [TCH_KEY_THRESH_ON, TCH_KEY_THRESH_OFF]⟩,
  ⟨0x108, 1, 4, fun _ => [TCH_KEY_ANTI_THRESH, TCH_KEY_ANTI_FRAMES, TCH_KEY_ANTI_DRIFT]⟩,
  ⟨0x10C, 1, 4, fun _ => [TCH_KEY_MAXHOLD_S]⟩,
  ⟨0x110, 1, 4, fun _ => [TCH_KEY_EN_EN]⟩,
  ⟨0x114, 1, 4, fun _ => [TCH_KEY_WAKE_WAKE]⟩,
  ⟨0x140, 32, 4, fun i => [TCH_KEY_BASE i, TCH_KEY_COUNT i, TCH_KEY_ON i, TCH_KEY_STUCK i, TCH_KEY_TIMEOUT i]⟩,
  ⟨0x1C0, 8, 4, fun i => [TCH_GROUP_FIRST i, TCH_GROUP_N i, TCH_GROUP_KIND i, TCH_GROUP_POS i, TCH_GROUP_ACTIVE i]⟩,
  ⟨0x200, 1, 4, fun _ => [RPT_RING_BASE, RPT_RING_SIZE, RPT_RING_VECTOR, RPT_RING_TARGET, RPT_RING_EN]⟩]

/-! ## YK -/

/-- R390 `YK_CFG.QUAD` -/
def YK_CFG_QUAD : Fld := ⟨0x100, 0, 4, .rwl, 0, false⟩
/-- R390 `YK_CFG.SOLO` -/
def YK_CFG_SOLO : Fld := ⟨0x100, 4, 1, .rwl, 0, false⟩
/-- R390 `YK_CFG.SOLO_CLAIM` -/
def YK_CFG_SOLO_CLAIM : Fld := ⟨0x100, 8, 8, .rwl, 0, false⟩
/-- R390 `YK_CFG.MIRROR_OUT` -/
def YK_CFG_MIRROR_OUT : Fld := ⟨0x100, 16, 2, .rw, 0, false⟩
/-- R390 `YK_CFG.MIRROR_IN` -/
def YK_CFG_MIRROR_IN : Fld := ⟨0x100, 18, 2, .rw, 0, false⟩
/-- R390 `YK_CLAIM.CLAIM` -/
def YK_CLAIM_CLAIM : Fld := ⟨0x104, 0, 8, .ro, 0, false⟩
/-- R390 `YK_CLAIM.PARTNER` -/
def YK_CLAIM_PARTNER : Fld := ⟨0x104, 8, 8, .ro, 255, false⟩
/-- R390 `YK_CLAIM.CAUSE` -/
def YK_CLAIM_CAUSE : Fld := ⟨0x104, 16, 8, .ro, 0, false⟩
/-- R390 `YK_LOWER.VALUE` -/
def YK_LOWER_VALUE : Fld := ⟨0x108, 0, 8, .wo, 0, true⟩
/-- R390 `YK_SET.VALUE` -/
def YK_SET_VALUE : Fld := ⟨0x10C, 0, 8, .wo, 0, true⟩
/-- R390 `YK_PARTNER.NODE` -/
def YK_PARTNER_NODE : Fld := ⟨0x110, 0, 14, .ro, 0, false⟩
/-- R390 `YK_PARTNER.VALID` -/
def YK_PARTNER_VALID : Fld := ⟨0x110, 31, 1, .ro, 0, false⟩
/-- R390 `YK_PARTNER_CAPS.CAPS` -/
def YK_PARTNER_CAPS_CAPS : Fld := ⟨0x114, 0, 32, .ro, 0, false⟩
/-- R390 `YK_MERGE.WIN` -/
def YK_MERGE_WIN : Fld := ⟨0x118, 0, 9, .rw, 100, false⟩
/-- R390 `YK_MERGE_LATE.COUNT` -/
def YK_MERGE_LATE_COUNT : Fld := ⟨0x11C, 0, 32, .rc, 0, false⟩
/-- R390 `YK_FWD_DROP.COUNT` -/
def YK_FWD_DROP_COUNT : Fld := ⟨0x120, 0, 32, .rc, 0, false⟩
/-- R390 `YK_TIME_OFF.NS` -/
def YK_TIME_OFF_NS : Fld := ⟨0x124, 0, 32, .ro, 0, false⟩
/-- R390 `YK_TIME_LIMIT.NS` -/
def YK_TIME_LIMIT_NS : Fld := ⟨0x128, 0, 16, .rw, 100, false⟩
/-- R390 `YK_CHECK.HOLD` -/
def YK_CHECK_HOLD : Fld := ⟨0x12C, 0, 4, .rw, 4, false⟩
/-- R390 `YK_CHECK.CLEAN` -/
def YK_CHECK_CLEAN : Fld := ⟨0x12C, 8, 8, .rw, 60, false⟩
/-- R390 `YK_JOIN.WAIT_IRAP` -/
def YK_JOIN_WAIT_IRAP : Fld := ⟨0x130, 0, 10, .ro, 0, false⟩
/-- R390 `YK_JOIN.CLEAN_RUN` -/
def YK_JOIN_CLEAN_RUN : Fld := ⟨0x130, 16, 8, .ro, 0, false⟩
/-- R390 `YK_DIV_RATE.RATE` -/
def YK_DIV_RATE_RATE : Fld := ⟨0x134, 0, 8, .rw, 10, false⟩
/-- R390 `YK_DIV_COUNT.COUNT` -/
def YK_DIV_COUNT_COUNT : Fld := ⟨0x138, 0, 32, .rc, 0, false⟩
/-- R390 `YK_REPLAY.COUNT` -/
def YK_REPLAY_COUNT : Fld := ⟨0x13C, 0, 32, .rc, 0, false⟩
/-- R390 `YK_DOWN_COUNT.COUNT` -/
def YK_DOWN_COUNT_COUNT : Fld := ⟨0x140, 0, 32, .rc, 0, false⟩
/-- R390 `YK_HB.INT` -/
def YK_HB_INT : Fld := ⟨0x144, 0, 10, .rw, 100, false⟩
/-- R390 `YK_VC_BUF.UNITS` of instance `i` -/
def YK_VC_BUF_UNITS (i : Nat) : Fld := ⟨0x180 + 8 * i, 0, 12, .rw, ykVcRst i, false⟩
/-- R390 `YK_VC_CRED.HELD` of instance `i` -/
def YK_VC_CRED_HELD (i : Nat) : Fld := ⟨0x184 + 8 * i, 0, 12, .ro, 0, false⟩
/-- R390 `YK_VC_CRED.OUT` of instance `i` -/
def YK_VC_CRED_OUT (i : Nat) : Fld := ⟨0x184 + 8 * i, 16, 12, .ro, 0, false⟩

/-- The words of a YK page or entry and the fields of each. -/
def rowsYK : List Row := [
  ⟨0x100, 1, 4, fun _ => [YK_CFG_QUAD, YK_CFG_SOLO, YK_CFG_SOLO_CLAIM, YK_CFG_MIRROR_OUT, YK_CFG_MIRROR_IN]⟩,
  ⟨0x104, 1, 4, fun _ => [YK_CLAIM_CLAIM, YK_CLAIM_PARTNER, YK_CLAIM_CAUSE]⟩,
  ⟨0x108, 1, 4, fun _ => [YK_LOWER_VALUE]⟩,
  ⟨0x10C, 1, 4, fun _ => [YK_SET_VALUE]⟩,
  ⟨0x110, 1, 4, fun _ => [YK_PARTNER_NODE, YK_PARTNER_VALID]⟩,
  ⟨0x114, 1, 4, fun _ => [YK_PARTNER_CAPS_CAPS]⟩,
  ⟨0x118, 1, 4, fun _ => [YK_MERGE_WIN]⟩,
  ⟨0x11C, 1, 4, fun _ => [YK_MERGE_LATE_COUNT]⟩,
  ⟨0x120, 1, 4, fun _ => [YK_FWD_DROP_COUNT]⟩,
  ⟨0x124, 1, 4, fun _ => [YK_TIME_OFF_NS]⟩,
  ⟨0x128, 1, 4, fun _ => [YK_TIME_LIMIT_NS]⟩,
  ⟨0x12C, 1, 4, fun _ => [YK_CHECK_HOLD, YK_CHECK_CLEAN]⟩,
  ⟨0x130, 1, 4, fun _ => [YK_JOIN_WAIT_IRAP, YK_JOIN_CLEAN_RUN]⟩,
  ⟨0x134, 1, 4, fun _ => [YK_DIV_RATE_RATE]⟩,
  ⟨0x138, 1, 4, fun _ => [YK_DIV_COUNT_COUNT]⟩,
  ⟨0x13C, 1, 4, fun _ => [YK_REPLAY_COUNT]⟩,
  ⟨0x140, 1, 4, fun _ => [YK_DOWN_COUNT_COUNT]⟩,
  ⟨0x144, 1, 4, fun _ => [YK_HB_INT]⟩,
  ⟨0x180, 5, 8, fun i => [YK_VC_BUF_UNITS i]⟩,
  ⟨0x184, 5, 8, fun i => [YK_VC_CRED_HELD i, YK_VC_CRED_OUT i]⟩]

end Sys2Proof.Machine
end

