-- ==== Sys2Proof/Machine/Store.lean ====
section
/-! DEFINITION. Sparse maps as lists of key and value pairs with strictly rising keys, and byte memories over them. A
memory lists no cell equal to what an unlisted address reads as, so equal memories are equal lists. -/

namespace Sys2Proof.Machine

/-- A sparse map from numbers, sorted by key. -/
abbrev Store (α : Type) := List (Nat × α)

/-- The value listed at `k`. -/
def Store.find {α : Type} (k : Nat) : Store α → Option α
  | [] => none
  | (k', v) :: t => if k' = k then some v else Store.find k t

/-- List `v` at `k`. -/
def Store.put {α : Type} (k : Nat) (v : α) : Store α → Store α
  | [] => [(k, v)]
  | (k', v') :: t =>
    if k' < k then (k', v') :: Store.put k v t
    else if k' = k then (k, v) :: t
    else (k, v) :: (k', v') :: t

/-- List nothing at `k`. -/
def Store.del {α : Type} (k : Nat) (m : Store α) : Store α := m.filter fun e => decide (e.1 ≠ k)

/-- The value at `k`, or `d` where none is listed. -/
def Store.getD {α : Type} (d : α) (k : Nat) (m : Store α) : α := (Store.find k m).getD d

/-- Set the value at `k`; `d` is what an unlisted key reads as, so writing it removes the entry. -/
def Store.setD {α : Type} [DecidableEq α] (d : α) (k : Nat) (v : α) (m : Store α) : Store α :=
  if v = d then Store.del k m else Store.put k v m

/-- Keep the entries whose key passes `p`. -/
def Store.keep {α : Type} (p : Nat → Bool) (m : Store α) : Store α := m.filter fun e => p e.1

/-- The keys rise strictly. -/
def Store.sorted {α : Type} : Store α → Bool
  | [] => true
  | [_] => true
  | (k, _) :: (k', v') :: t => decide (k < k') && Store.sorted ((k', v') :: t)

/-- No listed value is `d`. -/
def Store.noDefault {α : Type} [DecidableEq α] (d : α) (m : Store α) : Bool := m.all fun e => decide (e.2 ≠ d)

/-- A byte memory: cells by rising address. -/
abbrev Mem := List Host.Cell

/-- The canonical form of a memory whose unlisted addresses read as `d`. -/
abbrev Memory.wfD (d : Byte) (m : Mem) : Bool := Store.sorted m && Store.noDefault d m

/-- The canonical form of a memory whose unlisted addresses read as 0. -/
abbrev Memory.wf (m : Mem) : Bool := Memory.wfD 0 m

/-- Read one byte; an unlisted address reads as `d`. -/
def Mem.readD (d : Byte) (m : Mem) (a : Nat) : Byte := Store.getD d a m

/-- Write one byte of a memory whose unlisted addresses read as `d`. -/
def Mem.writeD (d : Byte) (m : Mem) (a : Nat) (v : Byte) : Mem := Store.setD d a v m

/-- Read one byte of a memory whose unlisted addresses read as 0. -/
def Mem.read (m : Mem) (a : Nat) : Byte := Mem.readD 0 m a

/-- Write one byte of a memory whose unlisted addresses read as 0. -/
def Mem.write (m : Mem) (a : Nat) (v : Byte) : Mem := Mem.writeD 0 m a v

/-- The bytes at `a`, `a + 1`, … (`n` of them). -/
def Mem.bytes (m : Mem) (a : Nat) : Nat → List Nat
  | 0 => []
  | n + 1 => (Mem.read m a).toNat :: Mem.bytes m (a + 1) n

/-- Write a list of byte values from `a` upwards. -/
def Mem.putBytes (m : Mem) (a : Nat) : List Nat → Mem
  | [] => m
  | b :: t => Mem.putBytes (Mem.write m a (BitVec.ofNat 8 b)) (a + 1) t

/-- The little-endian number in the `n` bytes at `a` (R5). -/
def Mem.readLE (m : Mem) (a : Nat) : Nat → Nat
  | 0 => 0
  | n + 1 => (Mem.read m a).toNat + 256 * Mem.readLE m (a + 1) n

/-- Write `v` as `n` little-endian bytes at `a` (R5). -/
def Mem.writeLE (m : Mem) (a v : Nat) : Nat → Mem
  | 0 => m
  | n + 1 => Mem.writeLE (Mem.write m a (BitVec.ofNat 8 v)) (a + 1) (v / 256) n

end Sys2Proof.Machine
end

