-- ==== Sys2Proof/Machine/Parts.lean ====
section
/-! DEFINITION. The parts of the state that are not register fields, one structure per chapter of the spec: what is in
flight, queued, running or held. All plain data. -/

namespace Sys2Proof.Machine

/-- Where a datagram goes: address family, address (first octet lowest), UDP port, and the device's own port (R384, R429). -/
structure Dest where
  v6 : Bool
  addr : Nat
  dport : Nat
  sport : Nat
deriving DecidableEq, Repr

/-- What leaves the device through a port that the spec names: the model's own record of emissions, oldest first. -/
inductive Out where
  /-- An MSI-X message: vector, address, data (R54, R461). -/
  | msix (vec addr data : Nat)
  /-- An MSS interrupt line raised (R50, R164). -/
  | mssIrq (line : Nat)
  /-- A drover interrupt line raised (R50). -/
  | drvIrq (d line : Nat)
  /-- A frame sent by a NET instance (R176). -/
  | netFrame (port : Nat) (bytes : List Nat)
  /-- The code groups that a Belja lane sends, each of 10 bits with bit a first (R284): a packet from /S/ to /T/, if any, and /I/, which
  the lane repeats until it sends its next packet (R285, R287). -/
  | belja (lane : Nat) (groups : List Nat)
  /-- A receiver's status datagram (R308). -/
  | rcvStatus (head : Nat) (bytes : List Nat)
  /-- A line that a receiver presents: 0 as accepted, 1 from the previous frame, 2 no-signal; its bytes (R306). -/
  | shown (head line source : Nat) (bytes : List Nat)
  /-- A yoke frame sent (R367). -/
  | yokeFrame (lane : Nat) (bytes : List Nat)
  /-- A bit of a generated pattern sent inverted on a lane (R316). -/
  | injected (lane : Nat)
  /-- A UDP datagram to the yardmaster, to an update tool, or of a stream, on the NET instances whose bits `nets` has set, with its payload
  (R337, R384, R429). -/
  | datagram (nets : Nat) (dest : Dest) (bytes : List Nat)
  /-- A reply of the update protocol on the UART (R429). -/
  | uart (bytes : List Nat)
  /-- A message that firmware builds by a standard the spec names and sends on NET port `port`: what it is, and the values
  the spec gives it (R175, R195, R196). -/
  | netMsg (port : Nat) (what : String) (vals : List Nat)
  /-- A level driven on a named pin, 2 for none: tri-stated (R169, R456, R482). -/
  | pin (name : String) (idx level : Nat)
  /-- A reset pulse or power action outside the core (R449, R453). -/
  | board (what : String)
  /-- A response delivered to a fabric master: tag, code, error detail, data (R71, R109). -/
  | response (master tag code detail : Nat) (data : List Nat)
  /-- An error response to an access made without a fabric tag (R39, R71). -/
  | errorResponse (master code : Nat)
  /-- The endpoint completes a host read with Completer Abort status (R40, R73). -/
  | completerAbort
  /-- A load, store or instruction access fault of the MSS or a drover (R73). -/
  | accessFault (master code : Nat)
deriving DecidableEq, Repr

/-- One event or daybook record (R47). -/
structure Rec where
  time : Nat
  src : Nat
  code : Nat
  seq : Nat
  data : List Nat
deriving DecidableEq, Repr

/-- One used entry of the transmit timestamp queue (R167). -/
structure TxStamp where
  t : Nat
  seqId : Nat
  msgType : Nat
  port : Nat
deriving DecidableEq, Repr

/-- The run-time state of a time output (R171): the next scheduled edge and the end of the pulse in progress. -/
structure TimeOut where
  next : Option Nat
  pulseEnd : Option Nat
deriving DecidableEq, Repr

/-- Yard time and its clocks (R153 to R173). Times are in sub-units of 1 / (12 × 2^16 × 10^9) ns. -/
structure TimeSt where
  /-- Yard time in sub-units. -/
  yt : Nat
  /-- TB_SLEW still to absorb, in sub-units. -/
  slew : Nat
  /-- The running-rate clock of R159, untouched by steps and slewing, in sub-units. -/
  run : Nat
  /-- Core cycles since the core clock first ran. -/
  cyc : Nat
  /-- Sub-units of running-rate time since the last of them (R164). -/
  frac : Nat
  /-- 1 while the core clock is stopped and only the coarse part runs (R172). -/
  coarse : Bool
  /-- TB_STEP_LO as last written. -/
  stepLo : Nat
  /-- The step held in TB_PEND, as a signed offset (R156). -/
  pend : Option Int
  /-- The running-rate clock when HOLDOVER was entered (R160). -/
  holdFrom : Nat
  /-- The transmit timestamp queue, oldest first (R167). -/
  txq : List TxStamp
  /-- Per latency entry: the port on which the frame that took it has not ended yet (R164). -/
  rxOpen : Store Nat
  /-- Per time output: its schedule (R171). -/
  outs : Store TimeOut
deriving DecidableEq, Repr

/-- One part of a fabric request (R70). -/
structure Part where
  tag : Nat
  master : Nat
  fid : Nat
  kind : AccKind
  /-- Fabric address of the part's first byte as routed (an aperture address is already a DRAM address). -/
  addr : Nat
  len : Nat
  /-- Offset of the part's first byte in the request. -/
  off : Nat
  data : List Nat
  mtag : Option Tag
  target : Nat
  /-- Decisions lost at the target port (R76). -/
  lost : Nat
  /-- Core cycle before which a perturbation holds the part (R481). -/
  holdTo : Nat
  /-- Guard generation under which it was judged (R83). -/
  gen : Nat
  /-- Core cycle at which it took its DRAM token (R115). -/
  stamp : Nat
  /-- Latency target in core cycles that a perturbation puts in place of DMC_LAT (R481). -/
  lat : Option Nat
  /-- Entered through the debug port's reserved slot (R77). -/
  emerg : Bool
deriving DecidableEq, Repr

/-- The denied parts of one request at one guard (R85): the lowest-addressed one, and how many. -/
structure Denial where
  guard : Nat
  addr : Nat
  region : Nat
  fault : Nat
  parts : Nat
  gen : Nat
deriving DecidableEq, Repr

/-- One request in flight (R67). -/
structure Req where
  tag : Nat
  master : Nat
  fid : Nat
  kind : AccKind
  addr : Nat
  len : Nat
  /-- Parts not yet answered. -/
  left : Nat
  /-- Worst response code so far: 0 OKAY, 1 TGTERR, 2 DECERR, 3 GRDERR (R71). -/
  code : Nat
  /-- DRAM error detail (R109). -/
  detail : Nat
  data : List Nat
  /-- Denials not yet recorded, one per guard (R85). -/
  denied : List Denial
deriving DecidableEq, Repr

/-- The fabric (R63 to R78). -/
structure FabSt where
  reqs : List Req
  /-- Parts waiting at their target ports, oldest first. -/
  waiting : List Part
  /-- Parts holding a queue slot, oldest first. -/
  queued : List Part
  /-- Parts a target has begun to serve, oldest first. -/
  serving : List Part
  /-- Rotation order per target; unlisted means ascending master number (R74). -/
  rot : Store (List Nat)
  /-- Core cycle until which a BACKPRESSURE perturbation grants nothing at a target (R481). -/
  blocked : Store Nat
deriving DecidableEq, Repr

/-- A wait for a hitch (R93). -/
structure HitWait where
  slot : Nat
  hitch : Nat
  /-- Running-rate clock at which it times out. -/
  due : Nat
deriving DecidableEq, Repr

/-- The hitches (R88 to R97). -/
structure HitSt where
  /-- Held hitches: hitch ↦ (owner slot, epoch at take). -/
  held : Store (Nat × Nat)
  /-- Waits, longest first. -/
  waits : List HitWait
deriving DecidableEq, Repr

/-- One DRAM controller's run-time state (R113 to R124). -/
structure DmcSt where
  /-- Owed refreshes per rank × 2 + subchannel (R120). -/
  owed : Store Nat
  /-- Open row per (subchannel, bank group, bank, rank) key (R116). -/
  rows : Store Nat
  /-- Writes to the slot in use of the active copy, deferred to the next boundary: slot ↦ word (R119). -/
  deferred : Store Nat
  /-- Retraining steps done of the retraining in progress (R123). -/
  trnStep : Nat
  /-- The retraining in progress has failed a check. -/
  trnBad : Bool
  /-- In-channel address the scrubber reads next (R124). -/
  scrubAt : Nat
  /-- Running-rate clock at which the scrub pass began. -/
  scrubFrom : Nat
  /-- In-channel address below which lines are initialised (R112). -/
  initTo : Nat
  /-- MR4 asks for the high-temperature refresh rate (R121). -/
  hot : Bool
  /-- A perturbation holds refreshes until P reaches 5 (R481). -/
  refHold : Bool
deriving DecidableEq, Repr


/-- A received frame whose consumer has not finished with it (R179). -/
structure PktSlot where
  slot : Nat
  port : Nat
  /-- 3: a feed's frame. 4: the unmatched queue's. -/
  cls : Nat
  feed : Nat
  rtcp : Bool
  /-- The frame has reached the ingress firmware; in a team a feed frame first passes the sequencer (R377). -/
  ready : Bool
  stamp : Nat
  frame : NetFrame
deriving DecidableEq, Repr

/-- One RTP packet of an open access unit (R188): extended sequence number, payload. -/
structure AuPkt where
  ext : Nat
  data : List Nat
deriving DecidableEq, Repr

/-- An access unit not yet admitted or dropped (R188). -/
structure OpenAu where
  ts : Nat
  pkts : List AuPkt
  /-- Receive stamp of its newest packet. -/
  newest : Nat
  /-- Its closing stamp, once closed. -/
  closing : Option Nat
  /-- It was closed by its packet with the marker bit (R190). -/
  marked : Bool
  /-- First number of its sequence. -/
  base : Nat
deriving DecidableEq, Repr

/-- An accepted sender report (R193): receive stamp, yard time it names, RTP timestamp, middle of its NTP timestamp. -/
structure SrRep where
  rx : Nat
  t : Int
  r : Nat
  ntpMid : Nat
deriving DecidableEq, Repr

/-- The ingress firmware's state of an enabled feed (R185 to R197). -/
structure FeedSt where
  ssrc : Option Nat
  src : Option Nat
  /-- Highest extended sequence number, plus the offset of its sequence, a multiple of 65,536; none before the first packet. -/
  maxSeq : Option Nat
  badSeq : Nat
  /-- Numbers received, with their receive stamps. -/
  seen : List (Nat × Nat)
  /-- First number of the sequence, plus its offset. -/
  baseSeq : Nat
  /-- Highest number of the access units admitted or dropped. -/
  prevHigh : Option Nat
  aus : List OpenAu
  recent : List Nat
  lastA : Nat
  admitted : Nat
  ptr : Nat
  gap : Bool
  resync : Bool
  pset : Bool
  /-- Admission stamp and LEN of admitted access units, newest first (R192). -/
  hist : List (Nat × Nat)
  reports : List SrRep
  lastAcc : Nat
  flaggedAt : Option Nat
  transit : Option Nat
  jit : Nat
  bytes : Nat
  port : Nat
  rrExp : Nat
  rrRec : Nat
  received : Nat
deriving DecidableEq, Repr

/-- A multicast membership reported on a port (R196), with the unsolicited reports still to send. -/
structure Join where
  port : Nat
  v6 : Bool
  group : Nat
  left : Nat
deriving DecidableEq, Repr

/-- One decoded picture that decode still refers to or awaits (R214): marks and identity. -/
structure DecPic where
  bay : Nat
  gen : Nat
  poc : Int
  short : Bool
  long : Bool
  pending : Bool
  /-- H.264 frame_num and long-term frame index. -/
  frameNum : Nat
  longIdx : Nat
  /-- A frame that the standard infers for a gap in frame_num: it has no bay. -/
  ghost : Bool
deriving DecidableEq, Repr

/-- A picture that has been output, with max(ADMIT, DONE) of the access unit that output it (R217). -/
structure DecOut where
  bay : Nat
  gen : Nat
  time : Nat
deriving DecidableEq, Repr

/-- The decoder's state of a feed beside its context: its DPB, and what it keeps from one access unit to the next. -/
structure DecFeed where
  dpb : List DecPic
  outs : List DecOut
  h265 : Bool
  gapsAllowed : Bool
  /-- No picture decoded since the last restart or flush. -/
  fresh : Bool
  /-- The access unit before ended with an end of sequence NAL unit. -/
  eos : Bool
  raslSkip : Bool
  craChain : Bool
  chainPics : Nat
  /-- PrevRefFrameNum of H.264. -/
  prevFrame : Nat
  /-- MOTION, MVX and MVY of the coding tree units of the previous decoded picture (R225). -/
  prev : List (Nat × Int × Int)
  /-- Pictures that the latest access unit output, oldest first. -/
  latest : List (Nat × Nat)
deriving DecidableEq, Repr

/-- The picture in progress of a pipeline (R203). -/
structure DecJob where
  feed : Nat
  auseq : Nat
  flags : Nat
  tc : Nat
  adm : Nat
  bay : Nat
  gen : Nat
  head : AuHead
  /-- NoRaslOutputFlag of an IRAP picture. -/
  noRasl : Bool
  /-- The bytes of its access unit, as read from the coded ring. -/
  coded : List Nat
  /-- Entropy decode has read the last byte: the record is consumed (R210). -/
  consumed : Bool
  /-- A perturbation has been considered, and yard time until which it holds DONE (R481). -/
  held : Option Nat
deriving DecidableEq, Repr

/-- A pipeline's run-time state (R203 to R205). -/
structure DecSt where
  job : Option DecJob
  /-- The slot in use was written: its contents until DONE (R205). -/
  slotOld : Option (Nat × Nat × Bool)
  /-- Feeds to flush at the next picture boundary (R227). -/
  flushes : List Nat
  /-- Yard time, luma samples decoded and coded bits read, of the last second (R228). -/
  load : List (Nat × Nat × Nat)
  lastFeed : Option Nat
deriving DecidableEq, Repr

/-- A picture output at an access unit of a track, with its bay's stamps and mark as the engine snooped them. -/
structure TrackPic where
  bay : Nat
  gen : Nat
  tc : Nat
  est : Bool
  fseq : Nat
  conc : Bool
deriving DecidableEq, Repr

/-- One access unit of a track (R241). -/
structure TrackAu where
  /-- Rises by one with every access unit of the feed: its number in the enable and RUN_SEQ above it. -/
  uid : Nat
  auseq : Nat
  adm : Nat
  tc : Nat
  est : Bool
  done : Option Nat
  flags : Nat
  /-- The pictures output at it, in the order of output; OUT is the last. -/
  outs : List TrackPic
deriving DecidableEq, Repr

/-- An engine's track of a feed (R241). -/
structure Track where
  next : Nat
  /-- An access unit has left the track for want of room. -/
  short : Bool
  aus : List TrackAu
deriving DecidableEq, Repr

/-- A stall's run-time state beside its descriptor (R242 to R245). -/
structure StallSt where
  /-- uid of the newest access unit judged under R245, plus 1. -/
  judged : Nat
  frozen : Bool
  /-- The latest epoch's hold take or reads failed (R244). -/
  failed : Bool
  /-- ESTIMATED and CONCEALED of the frame last admitted. -/
  est : Bool
  conc : Bool
deriving DecidableEq, Repr

/-- A hold that a canvas keeps for a stall whose source is a bay (R138, R235). -/
structure StallHold where
  stall : Nat
  bay : Nat
  gen : Nat
deriving DecidableEq, Repr

/-- An epoch begun and not yet committed, or missed with writes outstanding (R250 to R252). -/
structure EpochSt where
  n : Nat
  cut : Nat
  ready : Nat
  out : Option (Nat × Nat)
  led : Option (Nat × Nat)
  admits : List (Nat × Nat)
  /-- The reason it cannot commit, where one stands already. -/
  miss : Option Nat
  wcrc : Nat
  /-- A direct epoch whose ledger is committed: its output bay commits when its writes are acknowledged (R253). -/
  direct : Bool
  /-- The canvas size that its cut made active: it reaches the heads at r_n (R265). -/
  size : Nat × Nat
deriving DecidableEq, Repr

/-- A committed epoch (R252). -/
structure Committed where
  n : Nat
  ready : Nat
  bay : Nat
  gen : Nat
  lbay : Nat
  lgen : Nat
  wcrc : Nat
deriving DecidableEq, Repr

/-- A canvas of an engine (R232 to R235, R252). -/
structure CanvasSt where
  /-- Stalls of the commit accepted and not yet in effect. -/
  pend : Option (List Nat)
  pendHolds : List StallHold
  holds : List StallHold
  /-- Number of the next epoch. -/
  next : Nat
  begun : List EpochSt
  drains : List EpochSt
  last : Option Committed
  /-- The canvas was disabled; its CANVAS hold waits for its heads (R265). -/
  closing : Bool
  /-- The active size as it has reached the canvas's heads (R259, R265). -/
  reached : Option (Nat × Nat)
deriving DecidableEq, Repr

/-- Timing and geometry of a head: HD_CFG's fields and one copy of its RWS fields (R258). -/
structure Geo where
  inc : Nat
  hAct : Nat
  hTot : Nat
  vAct : Nat
  start : Nat
  cwin : Nat
  vmin : Nat
  vmax : Nat
  x : Nat
  y : Nat
  d24 : Bool
  member : Bool
  fixed : Bool
  canvas : Nat
  engine : Nat
deriving DecidableEq, Repr

/-- One gated stall of a frame, with its clipped rectangle in head coordinates (R272 to R275). -/
structure GateStall where
  stall : Nat
  x : Nat
  y : Nat
  w : Nat
  h : Nat
  tick : Bool
  est : Bool
  /-- Reasons at Ts. -/
  r0 : Nat
  /-- Reasons after a MID change, with the line and the yard time of the change (R267, R275). -/
  mid : Option (Nat × Nat × Nat)
  age : Nat
deriving DecidableEq, Repr

/-- A frame as the gate judged it (R272 to R275). -/
structure GateFrame where
  f : Nat
  ts : Nat
  epoch : Nat
  bay : Nat
  gen : Nat
  rep : Bool
  bad : Bool
  whole : Bool
  host : Bool
  stalls : List GateStall
deriving DecidableEq, Repr

/-- One active line in a head's banks (R259, R266): its pixel words. -/
structure BankLine where
  line : Nat
  words : List Nat
deriving DecidableEq, Repr

/-- A head's run-time state while enabled (R256 to R275, R294). Times are of the running-rate clock. -/
structure HeadSt where
  /-- Values of the frame in progress, or of the latest one, whose line timing runs on in blanking (R261, R264). -/
  geo : Geo
  /-- The latest frame start. -/
  t0 : Nat
  inFrame : Bool
  /-- Active lines handed over. -/
  sent : Nat
  /-- Next line to fetch. -/
  fetched : Nat
  bank : List BankLine
  /-- The commit window of the latest frame has closed. -/
  closed : Bool
  /-- Captured values wait for the end of active. -/
  accepted : Bool
  /-- The line at which blanking began; none: VMIN already elapsed (R262). -/
  blank : Option Nat
  /-- Frames started since enable. -/
  count : Nat
  /-- s of R294. -/
  s : Nat
  /-- Bay of the latest frame started. -/
  last : Option (Nat × Nat)
  /-- The latest bays from which a frame has been started since enable (R294): canvas and epoch, or 64 + bay and GEN of a head with MEMBER 0. -/
  started : List (Nat × Nat)
  /-- Bay, GEN and epoch of the latest frame completed. -/
  shown : Option (Nat × Nat × Nat)
  /-- The latest epoch from which a frame was completed. -/
  doneEpoch : Option Nat
  /-- Epochs committed since enable and not yet completed or passed over. -/
  unshown : List Nat
  /-- Without a canvas: a head commit has been applied since the latest frame start. -/
  hostReady : Bool
  /-- Fixed timing: the epoch that has become ready, whose frame is to start. -/
  fixedDue : Option Nat
  /-- The frame in progress comes from the direct stream (R269). -/
  direct : Bool
  /-- Repeats in the run so far. -/
  run : Nat
  /-- The HEAD hold of the frame in progress is held. -/
  held : Bool
  /-- A read of the frame in progress has failed. -/
  readFail : Bool
  /-- Bays with a read failure (R267). -/
  failed : List (Nat × Nat)
  /-- The ledger of the frame in progress: why it could not be read, and its entries (R272). -/
  ledBad : Option Nat
  ledger : List (List Nat)
  /-- Frames judged, latest first. -/
  frames : List GateFrame
  /-- The latest verdict of each stall (R275). -/
  hist : List (Nat × Nat)
  /-- Hatch colours A and B, tick light and dark, as they stood at the frame start (R282). -/
  cols : List Nat
deriving DecidableEq, Repr

/-- A Belja packet handed over to a lane (R287 to R292). -/
structure BlPkt where
  head : Nat
  typ : Nat
  group : Nat
  frame : Nat
  rep : Bool
  d24 : Bool
  lidx : Nat
  nl : Nat
  payload : List Nat
  /-- The clock by which its last symbol must leave (R301). -/
  bound : Option Nat
  /-- Its own packet time and P_L are added to the bound at the send. -/
  plusPl : Bool
  plusOwn : Bool
deriving DecidableEq, Repr

/-- A Belja lane in use by a packetiser's page (R298 to R300). Times are of the running-rate clock. -/
structure BlLane where
  queue : List BlPkt
  /-- The next slot turn, 0 to 7; 8 at the wrap. -/
  pos : Nat
  /-- The slot in use. -/
  slot : Option Nat
  /-- End of the packet being sent. -/
  busy : Nat
  /-- Active copy: false A, true B. -/
  copy : Bool
  /-- A swap is requested and not yet made. -/
  swap : Bool
  /-- Contents written to the slot in use, effective at the packet's end. -/
  held : Option Nat
  /-- End of the latest packet of each head on the lane. -/
  last : Store Nat
deriving DecidableEq, Repr

/-- The output check of a canvas (R280). -/
structure CrcSt where
  n : Nat
  wcrc : Nat
  need : Option (List Nat)
  got : List Nat
  pend : List Nat
  dead : Bool
  /-- The canvas size of its epoch, and the rectangle that each head sent (R280). -/
  size : Nat × Nat
  rects : List (Nat × Geo)
  /-- Words contributed: head, canvas row, column, bytes. -/
  rows : List (Nat × Nat × Nat × List Nat)
deriving DecidableEq, Repr

/-- A test lane's pattern generator and checker (R315, R316). -/
structure PatSt where
  /-- The generator began: running-rate clock, and what fixes where in its pattern. -/
  start : Nat
  seed : Nat
  /-- Bits that INJ_ONE inverted, by number. -/
  ones : List Nat
  /-- The latest bits, the latest first: as received; while locked as the pattern has them. -/
  rx : List Bool
  /-- Which of the latest 64 bits compared were in error, the latest first. -/
  errs : List Bool
  /-- Bits compared, below the unit of LN_PAT_BITS. -/
  bits : Nat
deriving DecidableEq, Repr

/-- A direct frame's source: epoch, output bay, ledger bay and composed lines (R253). -/
structure DirectSt where
  n : Nat
  bay : Nat
  gen : Nat
  lbay : Nat
  lgen : Nat
  wcrc : Nat
  /-- Pixel words, line by line. -/
  rows : List (List Nat)
  /-- The ledger has been committed: heads start from it. -/
  ready : Bool
  /-- Tile rows for which a DIRECT_UNDERRUN record has been written. -/
  under : List Nat
deriving DecidableEq, Repr

/-- A ledger as a scan-out engine read it, once for all of its heads (R272): the output bay it is of, why it could not be read, its
entries. -/
structure LedgerSt where
  bay : Nat
  gen : Nat
  bad : Option Nat
  entries : List (List Nat)
deriving DecidableEq, Repr

/-- A record bay of the output tap (R330). -/
structure TapRec where
  bay : Nat
  gen : Nat
  f : Nat
  ts : Nat
  /-- Size and depth of the recorded frame. -/
  w : Nat
  h : Nat
  d24 : Bool
deriving DecidableEq, Repr

/-- A recording channel while enabled (R327 to R339). -/
structure EncCh where
  geo : Geo
  /-- The latest block recorded (R329). -/
  block : Option Nat
  /-- F of the latest frame that the tap met at its FRAME_START in a block without a recorded frame (R329). -/
  seen : Option Nat
  /-- The bay being written. -/
  tap : Option TapRec
  /-- FRAME_END has passed and writes await their acknowledgement. -/
  ended : Option TapRec
  queue : List TapRec
  gap : Bool
  /-- The next picture is IDR. -/
  idr : Bool
  sinceIdr : Nat
  /-- VCL bits of earlier pictures, newest first. -/
  win : List Nat
  /-- Reconstructed bays, newest first. -/
  refs : List (Nat × Nat)
  size : Nat × Nat
deriving DecidableEq, Repr

/-- A record in a ring bay that its stream has not consumed (R336, R337): the bay with its GEN, the offset, and the bytes, header
included. -/
structure RingRec where
  bay : Nat
  gen : Nat
  off : Nat
  len : Nat
deriving DecidableEq, Repr

/-- The picture in progress of an encode pipeline (R332 to R336). -/
structure EncJob where
  ch : Nat
  rec_ : TapRec
  idr : Bool
  gap : Bool
  cap : Nat
  winOver : Bool
  /-- The verdict table as read from the record bay (R331). -/
  table : List Nat
  /-- The bay of REF_CLASS that takes the reconstruction. -/
  recon : Option (Nat × Nat)
deriving DecidableEq, Repr

/-- A frame of the yoke (R367). -/
structure YkFrame where
  vc : Nat
  typ : Nat
  seq : Nat
  data : List Nat
  /-- The Ethernet frame that a received FWD or MERGE carries. -/
  frame : Option NetFrame
  /-- How often a frame sent has been resent (R370). -/
  resent : Nat
deriving DecidableEq, Repr

/-- One virtual channel of the yoke, both directions (R370, R371). -/
structure YkVc where
  /-- Next SEQ to send. -/
  next : Nat
  unacked : List YkFrame
  /-- Frames without credit: type, payload, running-rate clock at which they began to wait. -/
  wait : List (Nat × List Nat × Nat)
  /-- Next SEQ expected. -/
  rx : Nat
  /-- Frames received ahead of a missing one. -/
  held : List YkFrame
  ackDue : Bool
  nak : Bool
  /-- Credits freed since the last header that carried their count, the count of all since link-up, and the partner's last count
  accepted, both modulo 2^16 (R468). -/
  owed : Nat
  freed : Nat
  seen : Nat
  /-- The running-rate clock of the latest progress of ACK (R370). -/
  progress : Nat
deriving DecidableEq, Repr

/-- A check value (R380): 0 line CRC, 1 FRAME_SUM, 2 EPOCH_SUM; head or canvas; F or epoch; group; values. -/
structure ChkVal where
  kind : Nat
  obj : Nat
  n : Nat
  sub : Nat
  vals : List Nat
  /-- The head's or canvas's count when it was kept. -/
  born : Nat
deriving DecidableEq, Repr

/-- An entry of the ingress sequencer (R377): merged stamp, origin, forward number, the frame. -/
structure MergeEnt where
  m : Nat
  t : Nat
  origin : Nat
  fnum : Nat
  pkt : PktSlot
deriving DecidableEq, Repr

/-- Reports of one kind in the current second (R381). -/
structure RepRate where
  from_ : Nat
  sent : Nat
  withheld : Nat
deriving DecidableEq, Repr

/-- The yoke and the team (R362 to R388). -/
structure YokeSt where
  state : Nat
  link : Bool
  width : Nat
  /-- The next training may begin at this clock. -/
  retryAt : Nat
  lastRx : Nat
  vcs : Store YkVc
  rot : Nat
  own : List ChkVal
  partner : List ChkVal
  /-- LINE_CRC values of a head not yet sent: first group and CRCs. -/
  lineBuf : Store (Nat × Nat × List Nat)
  /-- Frames of a head, or epochs of canvas c at 64 + c, summed since enable. -/
  counts : Store Nat
  /-- F of the latest LINE divergence of a head. -/
  lastLine : Store Nat
  reports : Store RepRate
  msgSeq : Nat
  nonce : Nat
  cmds : List (List Nat)
  /-- The partner's latest t1, and this unit's time at its receipt (R376). -/
  t1p : Option (Nat × Nat)
  /-- Since when the offset has stayed within the limit, and beyond it. -/
  offOk : Option Nat
  offBad : Option Nat
  k : Nat
  fnum : Nat
  merge : List MergeEnt
  /-- T of the latest MARK. -/
  mark : Nat
  /-- Frames forwarded and not yet named by a MERGE: forward number, frame. -/
  kept : List (Nat × PktSlot)
  join : Option Nat
  /-- The sequencer's hand-over (R378): 1 this unit is to sequence once HANDOVER arrives, 2 HANDOVER came before the role, 0 neither. -/
  hand : Nat
  /-- Merged entries after J that wait for section 2 of the snapshot (R374), with their M; `none`: none wait. -/
  later : Option (List (Nat × PktSlot))
  /-- Feeds that have decoded a clean IRAP picture since J. -/
  clean : List Nat
  /-- Clean epochs in a row by canvas. -/
  runs : Store Nat
  /-- s values to take at a head's next frame start (R374, R382). -/
  newS : Store Nat
  /-- Consecutive frames of a head whose F differs from the lead's, with the difference (R382). -/
  misF : Store (Nat × Int)
  /-- Snapshot sections still to send, or received. -/
  snaps : Store (List Nat)
  capsTold : Bool
  /-- Divergences since YK was enabled, and the running-rate clock of the latest heartbeat (R385). -/
  divs : Nat
  beat : Nat
deriving DecidableEq, Repr


/-- A frame that a receiver accepted (R305, R306). -/
structure RcvFrame where
  frame : Nat
  t0 : Nat
  inc : Nat
  hAct : Nat
  hTot : Nat
  vAct : Nat
  start : Nat
  d24 : Bool
  /-- Lines accepted by their presentation time. -/
  lines : Store (List Nat)
  /-- Next line to present. -/
  next : Nat
deriving DecidableEq, Repr

/-- What a receiver is configured with (R304, R307): no command changes it. -/
structure RcvCfg where
  /-- The head number that it shows. -/
  head : Nat
  /-- Lanes of each input. -/
  lanes : List Nat
  /-- Rate of each input, by LN_CFG.RATE code. -/
  rates : List Nat
  /-- T_LOSS in ms, 300 to 1,000. -/
  tLoss : Nat
deriving DecidableEq, Repr

/-- A receiver of the display link (R304 to R308). Times are of the running-rate clock. -/
structure RcvSt where
  cfg : RcvCfg
  /-- Aligned lanes, by input × 4 + lane index (R286). -/
  aligned : List Nat
  /-- Latest claim and its time per input (R305). -/
  seen : Store (Nat × Nat)
  cur : Nat
  switched : Bool
  have_ : Bool
  frame : Nat
  open_ : Bool
  got : List Nat
  /-- TEAM of the latest packet of cur (R308). -/
  team : Bool
  /-- Frames accepted, newest first. -/
  frames : List RcvFrame
  lastValid : Nat
  lastStart : Nat
  blanked : Bool
  invalid : Nat
  missed : Nat
deriving DecidableEq, Repr

/-- A check-value unit's block in progress and results (R319 to R324). -/
structure CvuSt where
  /-- Address of the block's first byte, once it has one. -/
  first : Option Nat
  data : List Nat
  /-- Blocks completed since enable. -/
  count : Nat
  /-- Results, oldest first: value, tag. -/
  queue : List (Nat × Nat)
  /-- Write requests taken at their issue that have not formed a block yet: address and bytes (R320). -/
  seen : List (Nat × List Nat)
deriving DecidableEq, Repr

/-- A received frame on its way through check-value units that its NET instance feeds (R320): the units still to take it. A frame with none
waits for one ahead of it. -/
structure RxHeld where
  port : Nat
  frame : NetFrame
  stamp : Nat
  units : List Nat
deriving DecidableEq, Repr

/-- What R350 returns for a position, and what the report says of it (R353). -/
structure Judged where
  q : Bool
  stall : Nat
  reasons : Nat
  head : Nat
  x : Nat
  y : Nat
  frame : Nat
  outside : Bool
  noVerdict : Bool
  est : Bool
deriving DecidableEq, Repr

/-- A contact (R347, R348, R351). -/
structure Contact where
  id : Nat
  node : Nat
  sx : Nat
  sy : Nat
  strength : Nat
  /-- Consecutive frames with a peak. -/
  count : Nat
  td : Nat
  q : Bool
  lostQ : Bool
  confirmed : Bool
  /-- Its DOWN could not be written: no report until it lifts (R352). -/
  suppressed : Bool
  stuck : Bool
  /-- The next MOVE carries COALESCED. -/
  skipped : Bool
  /-- Position, strength and judgement at Td. -/
  sx0 : Nat
  sy0 : Nat
  str0 : Nat
  first : Judged
deriving DecidableEq, Repr

/-- A zone of a matrix page (R349). -/
structure Zone where
  u0 : Nat
  u1 : Nat
  v0 : Nat
  v1 : Nat
  hx : Nat
  hy : Nat
  hw : Nat
  hh : Nat
  head : Nat
  swap : Bool
  flipX : Bool
  flipY : Bool
  en : Bool
deriving DecidableEq, Repr

/-- A set of SAMPLES fragments of a mirrored scan frame (R369): its end, the fragments in the set, those received. -/
structure SampleSet where
  at_ : Nat
  count : Nat
  freq : Nat
  cur : Nat
  cand : Nat
  frags : Store (List Nat)
deriving DecidableEq, Repr

/-- A matrix page's run-time state (R341 to R352, R383). -/
structure TchSt where
  /-- A scan frame is in progress, in the form of a calibration frame where `calib` (R415). -/
  scanning : Bool
  calib : Bool
  zones : List Zone
  masks : List Nat
  /-- Farrier words of the sense lines, as they stood when the frame began (R341, R413). -/
  gains : List Nat
  /-- Capture frames done of the baseline capture in progress (R344). -/
  init : Option Nat
  sums : Store Nat
  anti : Store Nat
  drift : Nat
  /-- The latest candidate frequency (R343). -/
  cand : Nat
  contacts : List Contact
  /-- Confirmed contacts that have lifted in the frame being judged, whose UP is not written yet and whose ID another contact has taken
  (R352). -/
  owed : Nat
  /-- Yard time since which a node has been touched. -/
  since : Store Nat
  /-- Reports written since enable. -/
  seq : Nat
  samples : Option SampleSet
  /-- Running-rate clock of the latest complete mirrored set. -/
  lastSet : Nat
  /-- SAMPLES_LOST: silent until a new capture completes (R383). -/
  lost : Bool
deriving DecidableEq, Repr

/-- The key page's run-time state (R354 to R357). -/
structure KeySt where
  init : Option Nat
  sums : Store Nat
  anti : Store Nat
  drift : Nat
  /-- Keys on: yard time of KEY_ON. -/
  on : Store Nat
  /-- Keys, and groups at 32 + g, whose first report could not be written. -/
  suppressed : List Nat
  seq : Nat
deriving DecidableEq, Repr

/-- The farrier's run in progress (R414, R415). -/
structure FarSt where
  /-- Trigger of the run in progress. -/
  run : Option Nat
  /-- Matrix ports it measures. -/
  ports : List Nat
  /-- Run frames begun, by port. -/
  frames : Store Nat
  /-- Running-rate clock at the end of the last run. -/
  lastEnd : Option Nat
  /-- Temperatures sampled at the run's start. -/
  base : List Nat
  /-- The running-rate clock at which pass 1 has measured its sensor values (R415). -/
  from_ : Nat
deriving DecidableEq, Repr

/-- The management subsystem's run-time state (R392 to R399, R451). Times are of the running-rate clock. -/
structure MssSt where
  /-- 0 running, 1 held in reset until RESET_N rises, 2 held after a second lockstep mismatch, 3 silent after a failed
  self-check (R32), 4 held by a sag or thermal trip, 5 the always-on domain is without power. -/
  hold : Nat
  lastMiss : Option Nat
  /-- The watchdog period's start. -/
  wdog : Nat
  /-- Consecutive samples at or above CRIT, by temperature sensor. -/
  crit : Store Nat
  /-- Temperature sensors warned of; voltage sensors warned of: 1 low, 2 high. -/
  warm : List Nat
  volts : Store Nat
  /-- Milliseconds in service and the sum of hottest temperature × ms (R398). -/
  lifeMs : Nat
  lifeSum : Int
  /-- The always-on domain has lost its state: stage 4 restores (R407). -/
  restore : Bool
  /-- Resets by cause bit. -/
  resets : Store Nat
  /-- RECOVER, or RECOVERY_N low at reset release: the ROM enters recovery mode. -/
  recover : Bool
  /-- TEST_ALLOW and HO_BASE of the board record (R421). -/
  testAllow : Bool
  hoBase : Nat
  /-- The board record as read at stage 2, its PCI Express Subsystem IDs among it (R421). -/
  board : List Nat
  /-- The site record as read at stage 2 (R422). -/
  site : List Nat
  /-- The drovers run, and the drover component in service: its length, digest and version (R425, R437). -/
  drovers : Bool
  drv : Option (Nat × List Nat × Nat)
deriving DecidableEq, Repr

/-- The sag detector and save engine (R403 to R410), in the always-on domain. -/
structure SagSt where
  /-- Cause and time of the detection in progress. -/
  cause : Nat
  at_ : Nat
  /-- TAIL has passed. -/
  tailed : Bool
  /-- End of the save. -/
  ended : Nat
  /-- DBK_WR at detection: later records stay out of this save. -/
  upTo_ : Nat
  /-- The calibration words and NODE_ID as they stood at detection. -/
  cal : List Nat
  node : Nat
  /-- The VHOLD charge switch is closed, and NVM_VCC is on (R404, R405). -/
  charging : Bool
  nvmVcc : Bool
  /-- DBK_WR up to which records are mirrored. -/
  mirrored : Nat
  /-- The oldest record that the mirror holds without a gap up to there. -/
  first : Nat
deriving DecidableEq, Repr

/-- The update session and activation (R427 to R433). -/
structure UpdSt where
  /-- A session is open, and by which path: 1 PCI Express, 2 Ethernet, 3 UART. -/
  path : Nat
  length : Nat
  /-- Granules received. -/
  got : List Nat
  /-- Blocks on their way to the NOR: offset in the package, bytes. -/
  writing : List (Nat × List Nat)
  /-- BLOCK messages answered since the session was opened, with the code of their first reply: path, bytes, code (R429). -/
  replies : List (Nat × List Nat × Nat)
  /-- ACTIVATE is in progress: the running-rate clock at which GRACE began. -/
  grace : Option Nat
  /-- Handover: 0 none, 1 loaded, 2 drovers interrupted, 3 new image started. -/
  ho : Nat
  hoFrom : Nat
  /-- The component that a handover brings: length, digest, version. -/
  hoTo : Nat × List Nat × Nat
  hoEpoch : Nat
  hoCut : Nat
deriving DecidableEq, Repr

/-- The PCI Express DMA engine and the stabled state (R445 to R447, R462). -/
structure PwrSt where
  /-- Wake causes latched and not yet acted on. -/
  wakes : List Nat
  /-- The running-rate clock at which the last DEC or ENC page was disabled (R443). -/
  codecIdle : Option Nat
  /-- Yard time at which entry began, in ns: an alarm at or before it has passed. -/
  from_ : Nat
  /-- Device PLLs whose failure to lock stands recorded: one record for each (R443). -/
  failed : List Nat
deriving DecidableEq, Repr

end Sys2Proof.Machine
end

