-- ==== Sys2Proof/Machine/State.lean ====
section
/-! DEFINITION. The state of the block and the state right after reset. Register and descriptor fields have one home, the
sparse store `regs`; a field not listed there holds the reset value its descriptor gives (R3). -/

namespace Sys2Proof.Machine

/-- Why a step faults. -/
inductive Fault where
  /-- Raised by no command: every error the spec describes is a response, a record or a register bit, which is a next
  state. Safe: the constructor stands for a stop that the model never takes. -/
  | none_
deriving DecidableEq, Repr

/-- Why a command is refused. -/
inductive Refusal where
  /-- The row has no meaning in this model yet; raised by an arm of `exec`. Safe: nothing is claimed of the row. -/
  | notModelled (mnemonic : String)
deriving DecidableEq, Repr

/-- The state of the block. -/
structure State where
  /-- Register, descriptor and table fields, by `fkey` (R39, R41); shadows for RWS fields. -/
  regs : Store Nat
  /-- Active values of RWS fields (R41), by `fkey`. -/
  act : Store Nat
  /-- Values captured by a commit that has not taken effect yet (R235, R264), by `fkey`; and the high words that a read of a low
  word has latched (R170, R173). -/
  cap : Store Nat
  /-- Value the latest register read returned: the model's own field. -/
  rdata : Nat
  /-- Emissions, oldest first: the model's own field. -/
  out : List Out
  /-- Free values drawn so far: the model's own field. -/
  freeCtr : Nat
  /-- Next SEQ per source page (R47). -/
  evSeq : Store Nat
  /-- Yard time of the latest record of a rate-limited kind, by source page and kind. -/
  evLast : Store Nat
  /-- Daybook slots (R400). -/
  dbk : Store Rec
  /-- Perturbation LFSR per page (R480). -/
  lfsr : Store Nat
  /-- Loft SRAM, by offset from LOFT_BASE (R128). -/
  loft : Mem
  /-- Syndromes of loft words whose stored check byte differs from the computed one, by word number (R129). -/
  loftSyn : Store Nat
  /-- DRAM, by DRAM offset (R100). -/
  dram : Mem
  /-- Line metadata that is not zero, by line number (R103). -/
  dmeta : Store Nat
  /-- Syndromes of DRAM words, by word number (R104, R106). -/
  dsyn : Store Nat
  /-- Syndromes of metadata codewords, by line number (R105, R106). -/
  msyn : Store Nat
  /-- MSS SRAM, 512 KiB (R458). -/
  sram : Mem
  /-- Host memory behind the PCI Express endpoint, by bus address (R458). -/
  host : Mem
  time : TimeSt
  fab : FabSt
  hit : HitSt
  dmc : Store DmcSt
  /-- LEDGER holds: output bay ↦ (ledger bay, GEN) (R138). -/
  yardLedger : Store (Nat × Nat)
  /-- Frames whose consumer has not finished with them, oldest first (R179). -/
  pkts : List PktSlot
  /-- Frames that a NET_RX check-value unit has still to pass, oldest first (R320). -/
  rxHeld : List RxHeld
  /-- Ingress state of the enabled feeds, by feed (R185 to R197). -/
  feeds : Store FeedSt
  /-- Multicast memberships reported (R196). -/
  joins : List Join
  /-- Decoder state by feed (R208). -/
  decFeeds : Store DecFeed
  /-- Decode pipelines (R203). -/
  dec : Store DecSt
  /-- Feed tracks, by engine × 512 + feed (R241). -/
  tracks : Store Track
  /-- Stalls, beside their descriptors (R242 to R245). -/
  stalls : Store StallSt
  /-- Canvases, by engine × 64 + canvas (R232). -/
  cvs : Store CanvasSt
  /-- Enabled heads (R256 to R275). -/
  heads : Store HeadSt
  /-- Belja lanes in use, by BL page × 64 + lane (R298 to R300). -/
  blLanes : Store BlLane
  /-- Lane quads in use, by BL page (R298). -/
  blQuads : Store (List Nat)
  /-- Output checks, by canvas (R280). -/
  crcs : Store (List CrcSt)
  /-- Ledgers read, by scan-out engine × 64 + canvas (R272). -/
  ledgers : Store LedgerSt
  /-- Direct epochs begun or shown, by canvas × 2 + epoch mod 2 (R253). -/
  directs : Store DirectSt
  /-- Enabled recording channels, by pipeline × 32 + channel (R327). -/
  enc : Store EncCh
  /-- Pictures in progress, by pipeline (R336). -/
  encJobs : Store EncJob
  /-- Quad PLLs that have lost lock or never found it, by quad × 2 + PLL: the next retry (R311). -/
  pllRetry : Store Nat
  /-- Pattern generators and checkers, by test lane (R315, R316). -/
  pats : Store PatSt
  /-- The yoke and the team (R362 to R388). -/
  yoke : YokeSt
  /-- Records of a channel not yet sent, by pipeline × 32 + channel: offset and length (R336, R337). -/
  encRecs : Store (List RingRec)
  /-- RTP packets and payload octets that drover firmware has sent of a channel's stream (R337). -/
  rtpSent : Store (Nat × Nat)
  /-- Display-link receivers, by the head they show (R304). -/
  rcvs : Store RcvSt
  /-- Check-value units (R319). -/
  cvus : Store CvuSt
  /-- Matrix touch pages (R341 to R352). -/
  tch : Store TchSt
  /-- The key page (R354 to R357). -/
  keys : KeySt
  /-- The farrier (R414, R415). -/
  far : FarSt
  /-- The management subsystem (R392 to R399). -/
  mss : MssSt
  /-- The sag detector and save engine (R403 to R410). -/
  sag : SagSt
  /-- Updates and handover (R427 to R433). -/
  upd : UpdSt
  /-- The stabled state and the codec PLL (R443 to R447). -/
  pwr : PwrSt
  /-- The serial NVM on the board (R405), by NVM offset. -/
  nvm : Mem
  /-- The SPI NOR on the board (R424), by NOR offset; an unlisted byte reads as erased, 0xFF. -/
  nor : Mem
  /-- The commands that wait, first in, first out. -/
  pending : List Instr
deriving DecidableEq, Repr

/-- Yard time right after a reset of the always-on domain (R153). -/
def time0 : TimeSt := ⟨0, 0, 0, 0, 0, false, 0, none, 0, [], [], []⟩

/-- The yoke at rest: no link, nothing kept (R362, R371). -/
def yoke0 : YokeSt :=
  ⟨0, false, 0, 0, 0, [], 0, [], [], [], [], [], [], 0, 0, [], none, none, none, 0, 0, [], 0, [], none, 0, none, [], [], [], [], [],
   false, 0, 0⟩

/-- The state right after power-on reset: every register field at its reset value, memories listing nothing. -/
def State.reset : State where
  regs := []
  act := []
  cap := []
  rdata := 0
  out := []
  freeCtr := 0
  evSeq := []
  evLast := []
  dbk := []
  lfsr := []
  loft := []
  loftSyn := []
  dram := []
  dmeta := []
  dsyn := []
  msyn := []
  sram := []
  host := []
  time := time0
  fab := ⟨[], [], [], [], [], []⟩
  hit := ⟨[], []⟩
  dmc := []
  yardLedger := []
  pkts := []
  rxHeld := []
  feeds := []
  joins := []
  decFeeds := []
  dec := []
  tracks := []
  stalls := []
  cvs := []
  heads := []
  blLanes := []
  blQuads := []
  crcs := []
  ledgers := []
  directs := []
  enc := []
  encJobs := []
  pllRetry := []
  pats := []
  yoke := yoke0
  encRecs := []
  rtpSent := []
  rcvs := []
  cvus := []
  tch := []
  keys := ⟨none, [], [], 0, [], [], 0⟩
  far := ⟨none, [], [], none, [], 0⟩
  mss := ⟨1, none, 0, [], [], [], 0, 0, true, [], false, false, 0, [], [], false, none⟩
  sag := ⟨0, 0, false, 0, 0, [], 0, true, false, 0, 0⟩
  upd := ⟨0, 0, [], [], [], none, 0, 0, (0, [], 0), 0, 0⟩
  pwr := ⟨[], none, 0, []⟩
  nvm := []
  nor := []
  pending := []

end Sys2Proof.Machine
end

