-- ==== Sys2Proof/Machine/Ops.lean ====
section
/-! DEFINITION. The shared operations: register fields, yard time, loft bytes, event records with their rings, interrupts
and daybook copies (R41, R47 to R54, R153 to R160, R400, R401). -/

namespace Sys2Proof.Machine

/-! ### Fields -/

/-- The value of field `f` of the page or entry at `p`. -/
def State.rd (s : State) (p : Nat) (f : Fld) : Nat := Store.getD f.rst (fkey p f) s.regs

/-- Whether a one-bit field is 1. -/
def State.on (s : State) (p : Nat) (f : Fld) : Bool := s.rd p f = 1

/-- Set field `f` of the page or entry at `p`. -/
def State.wr (s : State) (p : Nat) (f : Fld) (v : Nat) : State :=
  { s with regs := Store.setD f.rst (fkey p f) (v % 2 ^ f.w) s.regs }

/-- Set a one-bit field. -/
def State.wb (s : State) (p : Nat) (f : Fld) (b : Bool) : State := s.wr p f (b2n b)

/-- Add to a counter that saturates at its width. -/
def State.cnt (s : State) (p : Nat) (f : Fld) (n : Nat) : State := s.wr p f (satAdd f.w (s.rd p f) n)

/-- Add to a counter that wraps at its width. -/
def State.inc (s : State) (p : Nat) (f : Fld) (n : Nat) : State := s.wr p f (s.rd p f + n)

/-- A 64-bit value held in two 32-bit fields. -/
def State.rd64 (s : State) (p : Nat) (lo hi : Fld) : Nat := s.rd p lo + 2 ^ 32 * s.rd p hi

/-- Set a 64-bit value held in two 32-bit fields. -/
def State.wr64 (s : State) (p : Nat) (lo hi : Fld) (v : Nat) : State := (s.wr p lo v).wr p hi (v / 2 ^ 32)

/-- The active value of an RWS field (R41). -/
def State.rdAct (s : State) (p : Nat) (f : Fld) : Nat := Store.getD f.rst (fkey p f) s.act

/-- The captured value of an RWS field. -/
def State.rdCap (s : State) (p : Nat) (f : Fld) : Nat := Store.getD f.rst (fkey p f) s.cap

/-- Make the captured copy of fields take their shadows. -/
def State.capture (s : State) (p : Nat) (l : List Fld) : State :=
  { s with cap := l.foldl (fun c f => Store.setD f.rst (fkey p f) (s.rd p f) c) s.cap }

/-- Make the active copy of fields take their captured values. -/
def State.activate (s : State) (p : Nat) (l : List Fld) : State :=
  { s with act := l.foldl (fun c f => Store.setD f.rst (fkey p f) (s.rdCap p f) c) s.act }

/-- Make the active copy of fields take their shadows. -/
def State.commitNow (s : State) (p : Nat) (l : List Fld) : State :=
  { s with act := l.foldl (fun c f => Store.setD f.rst (fkey p f) (s.rd p f) c) s.act }

/-- Return every field in `[a, b)` of BAR0 to its reset value, in all three copies, but for the keys `keep` passes. -/
def State.clearRange (s : State) (a b : Nat) (keep : Nat → Bool) : State :=
  let k := fun n => decide (n < a * 32) || decide (b * 32 ≤ n) || keep n
  { s with regs := Store.keep k s.regs, act := Store.keep k s.act, cap := Store.keep k s.cap }

/-- Whether the block page at `p` is enabled (R43). -/
def State.enabled (s : State) (p : Nat) : Bool := s.on p HDR_CTRL_ENABLE

/-- MODE and LANE of NET `n` in service: those of its latest enable. DEDUCED: a write of NET_CFG while the port is enabled waits for the
next one (R177, R181; log entry 143). -/
def State.netMode (s : State) (n : Nat) : Nat := s.rdAct (pg .net n) NET_CFG_MODE
def State.netLane (s : State) (n : Nat) : Nat := s.rdAct (pg .net n) (NET_CFG_LANE n)

/-- The 32-bit SYS_CAPS word. -/
def State.capsWord (s : State) : Nat :=
  s.rd 0 SYS_CAPS_DEC_N + 2 ^ 4 * s.rd 0 SYS_CAPS_ENC_N + 2 ^ 6 * s.rd 0 SYS_CAPS_CMP_N + 2 ^ 8 * s.rd 0 SYS_CAPS_SO_N +
    2 ^ 11 * s.rd 0 SYS_CAPS_DMC_N + 2 ^ 15 * s.rd 0 SYS_CAPS_QUAD_N + 2 ^ 20 * s.rd 0 SYS_CAPS_DRV_N +
    2 ^ 24 * s.rd 0 SYS_CAPS_LOFT_MIB + 2 ^ 31 * s.rd 0 SYS_CAPS_DEGRADED

/-- Append an emission. -/
def State.emitOut (s : State) (o : Out) : State := { s with out := s.out ++ [o] }

/-- Draw a free value (log entry 5): the value, and the state that has drawn it. -/
def State.draw (s : State) : Nat × State := (Config.free s.freeCtr, { s with freeCtr := s.freeCtr + 1 })

/-- Draw `k` free values. -/
def State.draws (s : State) (k : Nat) : List Nat × State :=
  ((upTo k).map fun i => Config.free (s.freeCtr + i), { s with freeCtr := s.freeCtr + k })

/-- Set what the latest read returned. -/
def State.ret (s : State) (v : Nat) : State := { s with rdata := v }

/-! ### Time -/

/-- Sub-units of yard time in one nanosecond: 12 × 2^16 × 10^9, so that one core cycle at any TB_RATE, slewing or not, is a
whole number of them (R153). -/
def subNs : Nat := 12 * 2 ^ 16 * 10 ^ 9

/-- Yard time in whole nanoseconds, the fraction truncated (R153). -/
def State.now (s : State) : Nat := s.time.yt / subNs

/-- One core cycle of yard time at full rate, 40 ns × (1 + TB_RATE) ÷ 48, in sub-units (R153). -/
def State.cycleInc (s : State) : Nat := (10 * ((2 ^ 16 * 10 ^ 9 : Nat) + sint 32 (s.rd (pg .tb 0) TB_RATE_RATE)) : Int).toNat

/-- Sub-units of yard time in a whole number of nanoseconds. -/
def ns (n : Nat) : Nat := subNs * n

/-- Sub-units between two clocks of yard time at full rate: one core cycle, or one TCXO cycle of 48 while the fine part is
stopped (R153, R172). -/
def State.clockInc (s : State) : Nat := if s.time.coarse then 48 * s.cycleInc else s.cycleInc

/-- One clock of yard time (R153, R156): half rate while TB_SLEW is not absorbed, the last withheld amount being only what
remains. DESIGN CHOICE: the count goes on past 2^64 − 1 ns, which R154 calls not representable (log entry 140). -/
def TimeSt.clock (t : TimeSt) (inc : Nat) : TimeSt :=
  let w := min t.slew (inc - inc / 2)
  { t with yt := t.yt + (inc - w), slew := t.slew - w, run := t.run + inc, cyc := if t.coarse then t.cyc else t.cyc + 1 }

/-- `n` TCXO edges of the coarse part, each worth `inc` sub-units (R172). -/
def TimeSt.edges (t : TimeSt) (inc n : Nat) : TimeSt :=
  let w := min t.slew (n * (inc - inc / 2))
  { t with yt := t.yt + (n * inc - w), slew := t.slew - w, run := t.run + n * inc }

/-- The TCXO edges in which the coarse part runs at least `d` sub-units. -/
def edgesFor (inc d : Nat) : Nat := (d + inc - 1) / max inc 1

/-- Let `d` sub-units of yard time pass, absorbing TB_SLEW at half rate first (R156). The running-rate clock advances
twice as fast while the slew lasts (R159), and the core cycles with it, whose fraction is kept. With the core clock stopped only whole TCXO edges
pass (R172). -/
def TimeSt.pass (t : TimeSt) (inc d : Nat) : TimeSt :=
  let sl := min d t.slew
  let run := d + sl
  if t.coarse then t.edges (48 * inc) (edgesFor (48 * inc) run)
  else { t with yt := t.yt + d, slew := t.slew - sl, run := t.run + run, cyc := t.cyc + (t.frac + run) / (max inc 1),
                frac := (t.frac + run) % (max inc 1) }

/-- `n` core cycles pass for latency entry `e`: a running count stops at 0xFF_FFFF and sets SAT (R164, R165). -/
def State.rxlRun (n : Nat) (s : State) (e : Nat) : State :=
  let p := pg .tb 0
  if s.on p (TB_RXL_VALID e) && s.on p (TB_RXL_RUN e) then
    let c := s.rd p (TB_RXL_COUNT e) + n
    if c < 0xFFFFFF then s.wr p (TB_RXL_COUNT e) c
    else ((s.wr p (TB_RXL_COUNT e) 0xFFFFFF).wb p (TB_RXL_SAT e) true).wb p (TB_RXL_RUN e) false
  else s

/-- Set the clock, and let the latency counts run with the core cycles that have passed. -/
def State.setTime (s : State) (t : TimeSt) : State :=
  (upTo 8).foldl (State.rxlRun (t.cyc - s.time.cyc)) { s with time := t }

/-- One clock of yard time passes. -/
def State.clockEdge (s : State) : State := s.setTime (s.time.clock s.clockInc)

/-- Let yard time reach `x` ns, if it lies ahead; with the core clock stopped, the first TCXO edge at or after it (R172). -/
def State.advanceTo (s : State) (x : Nat) : State :=
  if s.time.yt < ns x then s.setTime (s.time.pass s.cycleInc (ns x - s.time.yt)) else s

/-- Let the running-rate clock reach `x`, if it lies ahead; with the core clock stopped, the first TCXO edge at or after it
(R172). -/
def State.advanceRun (s : State) (x : Nat) : State :=
  if s.time.run < x then
    let need := x - s.time.run
    if s.time.coarse then s.setTime (s.time.edges s.clockInc (edgesFor s.clockInc need))
    else
    let d := if need ≤ 2 * s.time.slew then need / 2 else need - s.time.slew
    s.setTime { s.time.pass s.cycleInc d with run := x }
  else s

/-! ### Loft bytes -/

/-- Store bytes in the loft; a whole 64-bit word written takes a fresh check byte (R129). -/
def State.loftStore (s : State) (off : Nat) (l : List Nat) : State :=
  { s with loft := s.loft.putBytes off l
           loftSyn := Store.keep (fun w => decide (w * 8 < off) || decide (off + l.length < w * 8 + 8)) s.loftSyn }

/-- A loft word as a write that covers part of it finds it (R129): corrected where it can be, else none. -/
def State.loftMerged (s : State) (wd : Nat) : Option State :=
  match Store.find wd s.loftSyn with
  | none => some s
  | some syn => match correctWord (s.loft.readLE (wd * 8) 8) syn with
    | some v => some { s with loft := s.loft.writeLE (wd * 8) v 8, loftSyn := Store.del wd s.loftSyn }
    | none => none

/-- Write bytes to the loft (R129): a word covered in part merges with the corrected word. DESIGN CHOICE: a part of a word that cannot be
corrected is not written (log entry 135). -/
def State.loftPut (s : State) (off : Nat) (l : List Nat) : State :=
  let hi := off + l.length
  let a := if off % 8 = 0 ∨ l = [] then some s else s.loftMerged (off / 8)
  let lo := if a.isSome then off else min hi (off / 8 * 8 + 8)
  let s := a.getD s
  let b := if hi % 8 = 0 ∨ hi ≤ lo then some s else s.loftMerged (hi / 8)
  let hi := if b.isSome then hi else max lo (hi / 8 * 8)
  (b.getD s).loftStore lo ((l.drop (lo - off)).take (hi - lo))

/-- Write `n` little-endian bytes to the loft. -/
def State.loftPutLE (s : State) (off v n : Nat) : State := s.loftPut off (leBytes v n)

/-- A byte of the loft as a read delivers it (R129): corrected where one bit of its word is wrong, 0 where the word is
uncorrectable. -/
def State.loftByte (s : State) (off : Nat) : Nat :=
  match Store.find (off / 8) s.loftSyn with
  | none => (s.loft.read off).toNat
  | some syn => match correctWord (s.loft.readLE (off / 8 * 8) 8) syn with
    | some v => v / 256 ^ (off % 8) % 256
    | none => 0

/-- Read `n` little-endian bytes of the loft. -/
def State.loftLE (s : State) (off n : Nat) : Nat := ofLE ((upTo n).map fun i => s.loftByte (off + i))

/-! ### Records, rings and interrupts -/

/-- The 32 bytes of a record (R47). -/
def Rec.bytes (r : Rec) : List Nat :=
  leBytes r.time 8 ++ leBytes r.src 2 ++ leBytes r.code 2 ++ leBytes r.seq 4 ++ padTo 16 r.data

/-- The event class of a code: bits [15:11] (R47). -/
def classOf (code : Nat) : Nat := code / 2 ^ 11

/-- Raise MSI-X vector `n` of the 256: masked, its pending bit is set; else the message is sent (R54, R461). -/
def State.raiseMsix (s : State) (n : Nat) : State :=
  let v := n % 256
  if s.on 0xD000 (MSIX_CTL_MASK v) then
    s.wr 0xE000 (MSIP_PEND (v / 32)) (setBit (s.rd 0xE000 (MSIP_PEND (v / 32))) (v % 32))
  else
    s.emitOut (.msix v (s.rd 0xD000 (MSIX_ALO_ADDR v) * 4 + 2 ^ 32 * s.rd 0xD000 (MSIX_AHI_ADDR v))
      (s.rd 0xD000 (MSIX_DATA_DATA v)))

/-- Send an interrupt to a TARGET and VECTOR (R50); the MSS has lines 0 to 31 (R392). -/
def State.raiseTarget (s : State) (target vector : Nat) : State :=
  if target = 1 then s.raiseMsix vector
  else if target = 2 then (if vector < 32 then s.emitOut (.mssIrq vector) else s)
  else if 8 ≤ target then s.emitOut (.drvIrq (target - 8) vector)
  else s

/-- Send the interrupt of a page's EVT_RING (R54). -/
def State.raisePage (s : State) (p : Nat) : State :=
  s.raiseTarget (s.rd p EVT_RING_TARGET) (s.rd p EVT_RING_VECTOR)

/-- What EVT_PEND reads: EVT_RAW AND EVT_MASK (R43). -/
def State.evtPend (s : State) (p : Nat) : Nat := s.rd p HDR_EVT_RAW_RAW &&& s.rd p HDR_EVT_MASK_MASK

/-- Records a ring of SIZE code `z` holds (R50). -/
def ringSlots (z : Nat) : Nat := 2 ^ (z + 4)

/-- The bytes of a ring area of SIZE code `z` (R51). -/
def ringArea (z : Nat) : Nat := 32 + 32 * ringSlots z

/-- A ring is full when (WR_IDX − RD_IDX) mod 2^32 is at least its size (R53). -/
def State.ringFull (s : State) (base z : Nat) : Bool :=
  decide (ringSlots z ≤ (s.loftLE base 4 + 2 ^ 32 - s.loftLE (base + 4) 4) % 2 ^ 32)

/-- Write a 32-byte item to slot WR_IDX mod size of the ring at loft offset `base`, then WR_IDX + 1 (R53). -/
def State.ringPut (s : State) (base z : Nat) (item : List Nat) : State :=
  let wr := s.loftLE base 4
  let s := s.loftPut (base + 32 + 32 * (wr % ringSlots z)) (padTo 32 item)
  s.loftPutLE base ((wr + 1) % 2 ^ 32) 4

/-- Append a record to the page's event ring, or count it lost: LOST incremented and EVT_RAW bit 31 set (R53). -/
def State.ringAppend (s : State) (p : Nat) (r : Rec) : State :=
  let base := 4096 * s.rd p EVT_RING_BASE
  let z := s.rd p EVT_RING_SIZE
  if !s.on p EVT_RING_EN then s
  else if s.ringFull base z then
    (s.loftPutLE (base + 8) (sat32 (s.loftLE (base + 8) 4)) 4).wr p HDR_EVT_RAW_RAW
      (setBit (s.rd p HDR_EVT_RAW_RAW) 31)
  else s.ringPut base z r.bytes

/-- Append a record to the daybook (R400): slot i mod 2,048; WRAP overwrites the oldest, HOLD loses the new one. -/
def State.dbkAppend (s : State) (r : Rec) : State :=
  let p := pg .dbk 0
  let i := s.rd p DBK_WR_COUNT
  if s.dbk.length < 2048 then { s with dbk := Store.put (i % 2048) r s.dbk }.inc p DBK_WR_COUNT 1
  else if s.on p DBK_CTRL_MODE then s.cnt p DBK_LOST_COUNT 1
  else ({ s with dbk := Store.put (i % 2048) r s.dbk }.inc p DBK_WR_COUNT 1).cnt p DBK_LOST_COUNT 1

/-- Whether daybook filter `k` matches a record of source `src` and class `cls` (R401). -/
def State.dbkMatch (s : State) (src cls k : Nat) : Bool :=
  let p := pg .dbk 0
  s.on p (DBK_FILT_SRC_EN k) && bit (s.rd p (DBK_FILT_CLS_CLASSES k)) cls &&
    (decide (s.rd p (DBK_FILT_SRC_SOURCE k) = src) ||
      (s.on p (DBK_FILT_SRC_ANY_INST k) && decide (s.rd p (DBK_FILT_SRC_SOURCE k) / 256 = src / 256)))

/-- The source's function ID for the page at `p` (R55). -/
def pageFid (p : Nat) : Nat :=
  match pageOf p with
  | some (b, i) => fidOf b i
  | none => 0

/-- One event of the page at `p` at yard time `t`: EVT_RAW, SEQ, the daybook copy, the ring record, then the interrupt
when EVT_PEND has become non-zero (R43, R47, R53, R54, R401). -/
def State.emitAt (s : State) (p t code : Nat) (data : List Nat) : State :=
  let before := s.evtPend p
  let r : Rec := ⟨t, pageFid p, code, Store.getD 0 p s.evSeq, data⟩
  let s := { s with evSeq := Store.setD 0 p ((r.seq + 1) % 2 ^ 32) s.evSeq }
  let s := s.wr p HDR_EVT_RAW_RAW (setBit (s.rd p HDR_EVT_RAW_RAW) (classOf code))
  let s := if (upTo 16).any (s.dbkMatch r.src (classOf code)) then s.dbkAppend r else s
  let s := s.ringAppend p r
  if before = 0 ∧ s.evtPend p ≠ 0 then s.raisePage p else s

/-- The TIME of an event that happens now (R155): the present, or the next TCXO edge while the core clock is stopped. -/
def State.stamp (s : State) : Nat := if s.time.coarse then (s.time.clock s.clockInc).yt / subNs else s.now

/-- One event of the page at `p` now. -/
def State.emit (s : State) (p code : Nat) (data : List Nat) : State := s.emitAt p s.stamp code data

/-- One event of a kind limited to one record per `ms` milliseconds: within that time of the last one nothing is written.
`key` names the page and kind. -/
def State.emitLimited (s : State) (p key ms code : Nat) (data : List Nat) : State :=
  match Store.find key s.evLast with
  | some t => if s.now < t + ms * 1000000 then s
              else { s with evLast := Store.put key s.now s.evLast }.emit p code data
  | none => { s with evLast := Store.put key s.now s.evLast }.emit p code data

/-- `n` bytes of `v`, least significant first. -/
abbrev le (v n : Nat) : List Nat := leBytes v n

/-- The page of a fenced unit decodes to the default target (R36, R37, R72, R207, R232). DEDUCED: the pages of DRAM channels stay
decoded, because R35 has DMC_CFG.POPULATED of a fenced channel read (log entry 16). -/
def State.pageFenced (s : State) (b : Blk) (i : Nat) : Bool :=
  match b with
  | .dec => bit (s.rd 0 SYS_FENCE_A_DEC) i
  | .enc => bit (s.rd 0 SYS_FENCE_A_ENC) i
  | .cmp => bit (s.rd 0 SYS_FENCE_A_CMP) i
  | .gate => bit (s.rd 0 SYS_FENCE_A_SO) i
  | .bl => bit (s.rd 0 SYS_FENCE_A_SO) i
  | .drv => bit (s.rd 0 SYS_FENCE_A_DRV) i
  | .cvu => bit (s.rd 0 SYS_FENCE_D_CVU) i
  | _ => false

/-- What a master does with an error response (R73): the endpoint completes a host read with Completer Abort and discards a host
write; the MSS and a drover take an access fault. -/
def State.accessFailed (s : State) (m : Nat) (k : AccKind) (code : Nat) : State :=
  if m = 0 then (if k = .write then s else s.emitOut .completerAbort)
  else if m < 10 then s.emitOut (.accessFault m code)
  else s

/-- The error response to an access that a command makes without a fabric tag (R39, R71), and what its master does with it. -/
def State.errorResponse (s : State) (m : Nat) (k : AccKind) (code : Nat) : State :=
  (s.emitOut (.errorResponse m code)).accessFailed m k code

/-- The default target records an access to BAR0 that decodes to nothing (R72, R87) and returns DECERR (R40, R71). -/
def State.missRecord (s : State) (w : Writer) (k : AccKind) (a : Nat) : State :=
  (s.emit (pg .xb 0) 0x0001 (le a 5 ++ [w.master] ++ le w.fid 2 ++ [k.code])).errorResponse w.master k 2

/-- One OWN_CONFLICT record in the SYS ring (R49): requester, owner, index of the first conflicting entry, count. -/
def State.ownConflict (s : State) (req owner idx n : Nat) : State :=
  s.emit (pg .sys 0) 0x0001 (le req 2 ++ le owner 2 ++ le idx 2 ++ le n 2)

/-- One ENABLE_FENCED record in the SYS ring (R36, R49): requester, fenced unit, resource index, writer. -/
def State.enableFenced (s : State) (req unit idx writer : Nat) : State :=
  s.emit (pg .sys 0) 0x0801 (le req 2 ++ le unit 2 ++ le idx 2 ++ le writer 2)

/-- A write of `v` to the word at `off` of a page of this kind tries to enable the block, to commit or assign to it: CTRL.ENABLE, a
canvas's COMMIT, a VALID slot, a channel's EN. -/
def triesEnable (b : Blk) (off v : Nat) : Bool :=
  if off = 8 then bit v 0 && !bit v 1
  else match b with
    | .cmp => decide (0x400 ≤ off ∧ off < 0xC00 ∧ off % 32 = 0) && bit v 1
    | .dec => decide (0x200 ≤ off ∧ off < 0x400) && bit v 15
    | .enc => decide (0x400 ≤ off ∧ off < 0xC00 ∧ off % 64 = 0) && bit v 0
    | _ => false

/-- A write that reaches the default target because its unit is fenced, and that tries to enable, assign or commit to it, writes
ENABLE_FENCED too (R36). -/
def State.fencedTry (s : State) (w : Writer) (a v : Nat) : State :=
  match pageOf a with
  | some (b, i) =>
    if s.pageFenced b i && triesEnable b (a - pg b i) v then s.enableFenced (fidOf b i) (fidOf b i) 0xFFFF w.fid else s
  | none => s

/-- A write of `v` to the word at `a` of a fenced unit's page. -/
def State.fencedWrite (s : State) (w : Writer) (a v : Nat) : State := (s.missRecord w .write a).fencedTry w a v

/-- One LOCKED_WRITE record in the ring of the page at `p` (R48): offset, entry or 0xFFFF, value, writer. -/
def State.lockedWrite (s : State) (p off entry v : Nat) (w : Writer) : State :=
  s.emit p 0xF000 (le off 2 ++ le entry 2 ++ le v 4 ++ le w.fid 2)

/-- Set TB STATUS.STATE with its STATE record; leaving HOLDOVER clears ELAPSED, entering it starts the count (R160). -/
def State.setTbState (s : State) (new : Nat) : State :=
  let p := pg .tb 0
  let old := s.rd p TB_STATUS_STATE
  if new = old then s
  else
    let s := s.wr p TB_STATUS_STATE new
    let s := { s with time := { s.time with holdFrom := if new = 3 then s.time.run else 0 } }
    s.emit p 0x1801 [new, old]

/-- TB_HOLD.ELAPSED: whole seconds in HOLDOVER, saturating (R160). -/
def State.tbElapsed (s : State) : Nat :=
  if s.rd (pg .tb 0) TB_STATUS_STATE = 3 then min ((s.time.run - s.time.holdFrom) / ns (10 ^ 9)) 0xFFFF else 0

/-- TB_HOLD.LIMIT, 0 acting as 1 (R173). -/
def State.tbLimit (s : State) : Nat := max (s.rd (pg .tb 0) TB_HOLD_LIMIT) 1

/-- HOLDOVER with ELAPSED at or above LIMIT becomes UNLOCKED (R160). -/
def State.holdoverCheck (s : State) : State :=
  if s.rd (pg .tb 0) TB_STATUS_STATE = 3 ∧ s.tbLimit ≤ s.tbElapsed then s.setTbState 4 else s

/-! ### Wake causes (R447) -/

/-- The PWR page. -/
abbrev pwrP : Nat := pg .pwr 0

/-- PWR_STATE.STATE: 0 ACTIVE, 1 ENTERING, 2 STABLED, 3 WAKING. -/
def State.pwrState (s : State) : Nat := s.rd pwrP PWR_STATE_STATE

/-- PCIE_WAKE_N is driven low: from a wake cause, kept or acted on, until ACTIVE (R447). -/
def State.pcieWakeLow (s : State) : Bool :=
  s.on pwrP PWR_WAKE_EN_PCIE && (decide (s.pwrState = 3) || !s.pwr.wakes.isEmpty)

/-- A wake cause: 0 HOST, 1 KEY, 2 NET, 3 ALARM, 4 TIN. Its bit is set; in STABLED the exit begins; while ENTERING it is kept. In
ACTIVE nothing wakes. -/
def State.wake (s : State) (cause : Nat) : State :=
  let st := s.pwrState
  if st = 0 then s
  else
    let s := s.wr pwrP PWR_WAKE_CAUSE_CAUSE (setBit (s.rd pwrP PWR_WAKE_CAUSE_CAUSE) cause)
    let s := if s.on pwrP PWR_WAKE_EN_PCIE then s.emitOut (.pin "PCIE_WAKE_N" 0 0) else s
    if st = 1 then { s with pwr := { s.pwr with wakes := s.pwr.wakes ++ [cause] } }
    else if st = 2 then s.wr pwrP PWR_STATE_STATE 3
    else s

/-! ### Perturbation -/

/-- Whether the page at `p` perturbs the event considered, of the given kind and select (R480): the device is unlocked, EN
is 1, KIND and SELECT agree, and RATE is 0 or the page's LFSR chooses it. The LFSR steps once per event considered, and
ONCE clears EN after the first event acted on. -/
def State.perturb (s : State) (p kind : Nat) (sel : Option Nat) : Bool × State :=
  if s.on (pg .tst 0) TST_UNLOCK_UNLOCKED && s.on p PERTURB_EN && decide (s.rd p PERTURB_KIND = kind) &&
      (match sel with | some x => decide (s.rd p PERTURB_SELECT = x) | none => true) then
    let seed := s.rd (pg .tst 0) TST_SEED_SEED
    let l := Store.getD (if seed = 0 then 1 else seed) p s.lfsr
    let s := { s with lfsr := Store.put p (Config.lfsrStep l) s.lfsr }
    let rate := s.rd p PERTURB_RATE
    if decide (rate = 0) || Config.lfsrPick l rate then
      (true, if s.on p PERTURB_ONCE then s.wb p PERTURB_EN false else s)
    else (false, s)
  else (false, s)

/-- The outcome of a meaning that runs to a next state. -/
abbrev done (s : State) : Host.Outcome State Fault Refusal := .next s

/-! ### PLLs (R443, R444) -/

/-- PLL `k` of CLK_STAT.LOCK has locked: 0 core, 1 MSS, 2 codec, 3 drover (R443, R444). -/
def State.pll (s : State) (k : Nat) : Bool := bit (s.rd (pg .clk 0) CLK_STAT_LOCK) k

/-- The PLL of DRAM channel `n` has locked (CLK_STAT.DMC_LOCK). -/
def State.dmcPll (s : State) (n : Nat) : Bool := bit (s.rd (pg .clk 0) CLK_STAT_DMC_LOCK) n

/-- The drovers run: out of reset, with their PLL locked. Until it locks they do nothing (R443). -/
def State.drvRuns (s : State) : Bool := s.mss.drovers && s.pll 3

/-- PLL `k` of the numbering of PLL_FAIL has locked or has stopped: a later failure to lock is a new one (R443). -/
def State.pllAnew (s : State) (k : Nat) : State :=
  { s with pwr := { s.pwr with failed := s.pwr.failed.filter fun j => decide (j ≠ k) } }

end Sys2Proof.Machine
end

