-- ==== Sys2Proof/Machine/Guard.lean ====
section
/-! DEFINITION. The guards (R80 to R87): judging a request part, recording a violation, and writing the rules. -/

namespace Sys2Proof.Machine

/-- The guard in front of a target port; the default target has none (R65). -/
def guardOf (t : Nat) : Option Nat :=
  if t < 8 then some t else if t < 12 then some 8 else if t = 12 then some 9 else if t = 13 then some 10
  else if t = 14 then some 11 else none

/-- Region `k` of guard page `p` is enabled and contains the address (R87). -/
def State.regionHas (s : State) (p k addr : Nat) : Bool :=
  s.on p (GRD_RG_CTRL_EN k) && decide (s.rd p (GRD_RG_BASE_BASE k) ≤ addr / 256) &&
    decide (addr / 256 ≤ s.rd p (GRD_RG_LIMIT_LIMIT k))

/-- The kind is permitted by a read mask and a write mask for master `m` (R80). -/
def maskPermits (k : AccKind) (rd wr m : Nat) (noexec : Bool) : Bool :=
  match k with
  | .read => bit rd m
  | .write => bit wr m
  | .fetch => bit rd m && !noexec
  | .atomic => bit rd m && bit wr m

/-- What guard `g` says of a part: none when it is allowed, else the region named and the fault code: 0 PERM, 1 OVERLAP,
2 DEFAULT (R80, R81, R87). A guard that is not enabled passes every part. -/
def State.guardJudge (s : State) (g : Nat) (k : AccKind) (m addr : Nat) : Option (Nat × Nat) :=
  let p := pg .grd g
  if !s.enabled p then none
  else
    match (upTo 64).filter (fun r => s.regionHas p r addr) with
    | [] => if maskPermits k (s.rd p GRD_DFLT_RD_MASK) (s.rd p GRD_DFLT_WR_MASK) m false then none else some (0, 2)
    | [r] =>
      if maskPermits k (s.rd p (GRD_RG_RD_MASK r)) (s.rd p (GRD_RG_WR_MASK r)) m (s.on p (GRD_RG_CTRL_NOEXEC r)) then none
      else some (r, 0)
    | r :: _ => some (r, 1)

/-- Record one violation at guard `g` (R85): the count, the first one captured, the VIOLATION record. -/
def State.guardViolate (s : State) (g m fid : Nat) (k : AccKind) (addr region fault parts gen : Nat) : State :=
  let p := pg .grd g
  let s := s.cnt p GRD_VCOUNT_COUNT 1
  let s :=
    if s.on p GRD_VINFO_VALID then s
    else
      let s := (s.wr p GRD_VADDR_LO_ADDR addr).wr p GRD_VADDR_HI_ADDR (addr / 2 ^ 32)
      let s := ((s.wr p GRD_VINFO_MASTER m).wr p GRD_VINFO_KIND k.code).wr p GRD_VINFO_REGION region
      let s := ((s.wr p GRD_VINFO_FAULT fault).wr p GRD_VINFO_PARTS parts).wb p GRD_VINFO_VALID true
      (s.wr p GRD_VFID_FID fid).wr p GRD_VFID_GEN gen
  s.emit p 0x0001 (le addr 5 ++ [m] ++ le fid 2 ++ [k.code, region, fault, parts] ++ le gen 2)

/-- A part judged by guard `g` still holds a slot or awaits its answer (R84). -/
def State.guardBusy (s : State) (g : Nat) : Bool :=
  (s.fab.queued ++ s.fab.serving).any fun x =>
    decide (guardOf x.target = some g) && decide (x.gen ≠ s.rd (pg .grd g) GRD_FENCE_GEN)

/-- DRAINED has changed from 0 to 1 and its DRAIN record is due: no part of an older generation is outstanding any more. Until the
record is written the stored bit is 0, while a read returns 1 (R84). -/
def State.drainDue (s : State) (g : Nat) : Bool := !s.on (pg .grd g) GRD_FENCE_DRAINED && !s.guardBusy g

/-- The DRAIN record of guard `g` (R84). -/
def State.drained (s : State) (g : Nat) : State :=
  let p := pg .grd g
  (s.wb p GRD_FENCE_DRAINED true).emit p 0x0801 (le (s.rd p GRD_FENCE_GEN) 2)

/-- An accepted rule write of guard `g`: GEN counts it and DRAINED falls while parts of older generations are outstanding
(R83, R84). A DRAIN record that is due is written first. -/
def State.guardBump (s : State) (g : Nat) : State :=
  let p := pg .grd g
  let s := if s.drainDue g then s.drained g else s
  let s := s.inc p GRD_FENCE_GEN 1
  s.wb p GRD_FENCE_DRAINED (!s.guardBusy g)

/-- Region `k` or the whole page is locked (R86, R87). -/
def State.regionLocked (s : State) (p k : Nat) : Bool := s.on p HDR_CTRL_LOCK || s.on p (GRD_RG_CTRL_LOCK k)

/-- The rule fields at an offset of a guard page, with the lock that freezes them (R87). -/
def State.guardWord (s : State) (p off : Nat) : List Fld × Bool :=
  if off = 0x100 then ([GRD_DFLT_RD_MASK], s.on p HDR_CTRL_LOCK)
  else if off = 0x104 then ([GRD_DFLT_WR_MASK], s.on p HDR_CTRL_LOCK)
  else if off < 0x200 ∨ 0xA00 ≤ off then ([], false)
  else
    let k := (off - 0x200) / 32
    let l := s.regionLocked p k
    match (off - 0x200) % 32 with
    | 0 => ([GRD_RG_CTRL_EN k, GRD_RG_CTRL_NOEXEC k], l)
    | 4 => ([GRD_RG_BASE_BASE k], l)
    | 8 => ([GRD_RG_LIMIT_LIMIT k], l)
    | 12 => ([GRD_RG_RD_MASK k], l)
    | 16 => ([GRD_RG_WR_MASK k], l)
    | _ => ([], false)

/-- The value a word write carries for a field. -/
def fieldOf (v : Nat) (f : Fld) : Nat := bits v f.lo f.w

/-- The write carries another value than some of these fields hold (R45). -/
def State.differs (s : State) (p : Nat) (l : List Fld) (v : Nat) : Bool :=
  l.any fun f => decide (fieldOf v f ≠ s.rd p f)

/-- Set each of these fields to the value the word carries. -/
def State.setFields (s : State) (p : Nat) (l : List Fld) (v : Nat) : State :=
  l.foldl (fun s f => s.wr p f (fieldOf v f)) s

/-- R83, R45: a rule write; locked, it changes nothing and a changed value is recorded. -/
def State.guardRuleWrite (s : State) (w : Writer) (g off v : Nat) : State :=
  let p := pg .grd g
  match s.guardWord p off with
  | ([], _) => s
  | (l, true) => if s.differs p l v then s.lockedWrite p off 0xFFFF v w else s
  | (l, false) => (s.setFields p l v).guardBump g

/-- R83 GUARD_RULE_WRITE. -/
def execGuardRuleWrite (w : Writer) (g : Fin 12) (off : BitVec 12) (v : Word) (s : State) :
    Host.Outcome State Fault Refusal := done (s.guardRuleWrite w g.val off.toNat v.toNat)

/-- R84 GUARD_DRAINED: with no part of an older generation outstanding, DRAINED becomes 1 and a DRAIN record follows; a
guard already drained, or not yet, is left alone. -/
def execGuardDrained (g : Fin 12) (s : State) : Host.Outcome State Fault Refusal :=
  done (if s.drainDue g.val then s.drained g.val else s)

/-- R86 GUARD_REGION_LOCK: freeze the region's registers. A write to a region register counts in GEN (R83). -/
def execGuardRegionLock (_w : Writer) (g : Fin 12) (k : Fin 64) (s : State) : Host.Outcome State Fault Refusal :=
  let p := pg .grd g.val
  done (if s.on p (GRD_RG_CTRL_LOCK k.val) then s else (s.wb p (GRD_RG_CTRL_LOCK k.val) true).guardBump g.val)

end Sys2Proof.Machine
end

