-- ==== Sys2Proof/Machine/Yard.lean ====
section
/-! DEFINITION. The yard: bay descriptors, allocation, holds, freeing, apertures (R133 to R152). -/

namespace Sys2Proof.Machine

/-- STATE of bay `b`: 0 UNSET, 1 FREE, 2 HELD (R134). -/
def State.bayState (s : State) (n : Nat) : Nat := s.rd (bayE n) BAYD_STAT_STATE

/-- GEN of bay `b`. -/
def State.bayGen (s : State) (n : Nat) : Nat := s.rd (bayE n) BAYD_STAT_GEN

/-- Bay `n` is HELD with generation `g` (R139). -/
def State.bayHeld (s : State) (n g : Nat) : Bool := decide (s.bayState n = 2) && decide (s.bayGen n = g)

/-- The bays that are not UNSET, with their STATE, by rising number: the listed STATE fields of the bay table. -/
def State.bayList (s : State) : List (Nat × Nat) :=
  s.regs.filterMap fun e =>
    let a := e.1 / 32
    if e.1 % 32 = 0 ∧ bayE 0 ≤ a ∧ a < bayE 8192 ∧ (a - bayE 0) % 64 = 0x18 then some ((a - bayE 0) / 64, e.2) else none

/-- FREE or HELD bays of a class (R150). -/
def State.bayCount (s : State) (st cls : Nat) : Nat :=
  (s.bayList.filter fun e => decide (e.2 = st) && decide (s.rd (bayE e.1) BAYD_SIZE_CLASS = cls)).length

/-- Bays in a state, whatever their class. -/
def State.bayTotal (s : State) (st : Nat) : Nat := (s.bayList.filter fun e => decide (e.2 = st)).length

/-- Bytes of DRAM mapped per channel in service (R98): 8 GiB only for one rank of 8 Gb. -/
def State.chanGiB (s : State) : Nat :=
  let p := pg .dmc 0
  if s.rd p DMC_CFG_DENSITY = 0 ∧ s.rd p DMC_CFG_RANKS = 0 then 8 else 16

/-- Channels in service (R100). -/
def State.dmcN (s : State) : Nat := s.rd 0 SYS_CAPS_DMC_N

/-- End of the DRAM range, as a DRAM offset (R100). -/
def State.dramEnd (s : State) : Nat := 2 ^ 30 * (s.dmcN * s.chanGiB)

/-- Move bay `n` to FREE: GEN and layout stay (R139). -/
def State.bayToFree (s : State) (n : Nat) : State :=
  (s.wr (bayE n) BAYD_STAT_STATE 1).wr (bayE n) BAYD_OWNER_OWNER 0

/-- Drop one hold of bay `n` under generation `g`, if it is HELD with that GEN and has any; else nothing (R139). -/
def State.holdDrop (s : State) (n g : Nat) : State :=
  if s.bayHeld n g && decide (0 < s.rd (bayE n) BAYD_OWNER_REFCNT) then
    s.wr (bayE n) BAYD_OWNER_REFCNT (s.rd (bayE n) BAYD_OWNER_REFCNT - 1)
  else s

/-- Bay `n` may return to FREE: HELD with REFCNT and MARKS both 0 (R139). -/
def State.bayIdle (s : State) (n : Nat) : Bool :=
  decide (s.bayState n = 2) && decide (s.rd (bayE n) BAYD_OWNER_REFCNT = 0) && decide (s.rd (bayE n) BAYD_STAT_MARKS = 0)

/-- The LEDGER hold that output bay `n` has on its ledger bay ends when the bay leaves HELD (R138). -/
def State.ledgerDrop (s : State) (n : Nat) : State :=
  match Store.find n s.yardLedger with
  | none => s
  | some (lb, lg) =>
    let s := { s with yardLedger := Store.del n s.yardLedger }.holdDrop lb lg
    if s.bayIdle lb then s.bayToFree lb else s

/-- The return to FREE at the end of a cycle (R139), with the LEDGER hold it ends. -/
def State.bayReturn (s : State) (n : Nat) : State :=
  if s.bayIdle n then (s.bayToFree n).ledgerDrop n else s

/-- Take a hold on (bay, GEN): it fails when the bay is not HELD with that GEN (R139). -/
def State.holdTake (s : State) (n g : Nat) : Bool × State :=
  if s.bayHeld n g then (true, s.inc (bayE n) BAYD_OWNER_REFCNT 1) else (false, s)

/-- Release a hold on (bay, GEN), then the return to FREE (R139). -/
def State.holdRelease (s : State) (n g : Nat) : State := (s.holdDrop n g).bayReturn n

/-- Release the owner hold of (bay, GEN): performed only while OWNED is 1, which it clears (R139). -/
def State.ownerRelease (s : State) (n g : Nat) : State :=
  if s.bayHeld n g && s.on (bayE n) BAYD_STAT_OWNED then
    ((s.holdDrop n g).wb (bayE n) BAYD_STAT_OWNED false).bayReturn n
  else s

/-- Clear bits of MARKS of (bay, GEN), then the return to FREE (R139). -/
def State.marksClear (s : State) (n g m : Nat) : State :=
  if s.bayHeld n g then (s.wr (bayE n) BAYD_STAT_MARKS (andNot (s.rd (bayE n) BAYD_STAT_MARKS) m)).bayReturn n else s

/-- Set bits of MARKS of (bay, GEN). -/
def State.marksSet (s : State) (n g m : Nat) : State :=
  if s.bayHeld n g then s.wr (bayE n) BAYD_STAT_MARKS (s.rd (bayE n) BAYD_STAT_MARKS ||| m) else s

/-- The fields an allocation returns to their reset values (R137). -/
def allocFields : List Fld :=
  [BAYD_STAT_READY, BAYD_STAT_CONCEALED, BAYD_STAT_ESTIMATED, BAYD_STAT_MARKS, BAYD_TC_LO_TC, BAYD_TC_HI_TC,
   BAYD_ADMIT_LO_ADMIT, BAYD_ADMIT_HI_ADMIT, BAYD_FSEQ_FSEQ, BAYD_LEDGER_BAY, BAYD_LEDGER_GEN, BAYD_WCRC_WCRC,
   BAYD_FEED_FEED]

/-- Return fields to their reset values. -/
def State.resetFields (s : State) (p : Nat) (l : List Fld) : State := l.foldl (fun s f => s.wr p f f.rst) s

/-- The lowest-numbered FREE bay of a class (R137). -/
def State.lowestFree (s : State) (cls : Nat) : Option Nat :=
  (s.bayList.find? fun e => decide (e.2 = 1) && decide (s.rd (bayE e.1) BAYD_SIZE_CLASS = cls)).map (·.1)

/-- Make FREE bay `n` HELD by `fid` (R137). -/
def State.bayHold (s : State) (n fid : Nat) : State :=
  let p := bayE n
  let s := (s.resetFields p allocFields).wr p BAYD_STAT_STATE 2
  let s := s.inc p BAYD_STAT_GEN 1
  ((s.wr p BAYD_OWNER_OWNER fid).wr p BAYD_OWNER_REFCNT 1).wb p BAYD_STAT_OWNED true

/-- An allocation from a class by `fid` (R137): the bay and its new GEN, or nothing with BAY_EMPTY_COUNT and ALLOC_EMPTY. -/
def State.alloc (s : State) (cls fid : Nat) : Option (Nat × Nat) × State :=
  let p := pg .bay 0
  match (if s.enabled p then s.lowestFree cls else none) with
  | some n =>
    let s := s.bayHold n fid
    (some (n, s.bayGen n), s)
  | none =>
    (none, (s.cnt p BAY_EMPTY_COUNT_COUNT 1).emitLimited p (p + cls) 1 0x0001 ([cls, 0] ++ le fid 2))

/-- Force bay `n` free: REFCNT, MARKS and OWNED become 0 and the bay becomes FREE (R140). -/
def State.bayForce (s : State) (n : Nat) : State :=
  let p := bayE n
  (((s.wr p BAYD_OWNER_REFCNT 0).wr p BAYD_STAT_MARKS 0).wb p BAYD_STAT_OWNED false).bayReturn n

/-- A FREE_REFUSED record (R152). -/
def State.freeRefused (s : State) (w : Writer) (n gen reason : Nat) : State :=
  s.emit (pg .bay 0) 0x0801 (le n 2 ++ le w.fid 2 ++ le gen 2 ++ le (s.bayGen n) 2 ++ [reason])

/-- A DESC_REFUSED record (R152). -/
def State.descRefused (s : State) (w : Writer) (n off reason : Nat) : State :=
  s.emit (pg .bay 0) 0x1801 (le n 2 ++ le w.fid 2 ++ le off 2 ++ [reason])

/-- The layout group's fields in a descriptor word (R133). -/
def layoutWord (off : Nat) : List Fld :=
  if off = 0 then [BAYD_BASE_BASE] else if off = 4 then [BAYD_SIZE_SIZE, BAYD_SIZE_CLASS, BAYD_SIZE_FORMAT]
  else if off = 8 then [BAYD_DIM_WIDTH, BAYD_DIM_HEIGHT] else if off = 0xC then [BAYD_STRIDE_STRIDE]
  else if off = 0x10 then [BAYD_PLANE2_OFF] else if off = 0x14 then [BAYD_STATS_OFF] else []

/-- The content group's fields in a descriptor word (R133). -/
def contentWord (off : Nat) : List Fld :=
  if off = 0x18 then [BAYD_STAT_READY, BAYD_STAT_ESTIMATED] else if off = 0x20 then [BAYD_TC_LO_TC]
  else if off = 0x24 then [BAYD_TC_HI_TC] else if off = 0x30 then [BAYD_FSEQ_FSEQ] else []

/-- A write to a descriptor word (R133). DESIGN CHOICE: where a write breaks several conditions, DESC_REFUSED names the state first, then
the owner, then READY (log entry 159). -/
def State.bayDescWrite (s : State) (w : Writer) (n off v : Nat) : State :=
  let p := bayE n
  match layoutWord off with
  | f :: fs =>
    if !s.differs p (f :: fs) v then s
    else if s.on (pg .bay 0) HDR_CTRL_LOCK then s.lockedWrite (pg .bay 0) off n v w
    else if s.bayState n = 2 then s.descRefused w n off 0
    else s.setFields p (f :: fs) v
  | [] =>
    match contentWord off with
    | [] => s
    | f :: fs =>
      if !s.differs p (f :: fs) v then s
      else if s.bayState n ≠ 2 then s.descRefused w n off 0
      else if s.rd p BAYD_OWNER_OWNER ≠ w.fid then s.descRefused w n off 1
      else if s.on p BAYD_STAT_READY then s.descRefused w n off 2
      else s.setFields p (f :: fs) v

/-- The layout of bay `n` may be enlisted (R136). -/
def State.bayLayoutOk (s : State) (n : Nat) : Bool :=
  let p := bayE n
  decide (s.rd p BAYD_SIZE_FORMAT ≤ 5) && decide (s.rd p BAYD_SIZE_SIZE ≠ 0) &&
    decide (s.rd p BAYD_PLANE2_OFF ≤ s.rd p BAYD_STATS_OFF) && decide (s.rd p BAYD_STATS_OFF ≤ s.rd p BAYD_SIZE_SIZE) &&
    decide ((s.rd p BAYD_BASE_BASE + s.rd p BAYD_SIZE_SIZE) * 4096 ≤ s.dramEnd)

/-! ### Ring bays that are lost (R328) -/

/-- The page of encode pipeline `p`. -/
abbrev encP (p : Nat) : Nat := pg .enc p

/-- Change channel `k` of pipeline `p`, where it is enabled. -/
def State.encUpd (s : State) (p k : Nat) (f : EncCh → EncCh) : State :=
  match Store.find (p * 32 + k) s.enc with
  | some x => { s with enc := Store.put (p * 32 + k) (f x) s.enc }
  | none => s

/-- The channel's ring bay is HELD with its GEN (R327, R328). -/
def State.encRing (s : State) (p k : Nat) : Bool :=
  s.bayHeld (s.rd (encP p) (ENC_CH_RING_BAY k)) (s.rd (encP p) (ENC_CH_RING_GEN k))

/-- Release the owner holds of record bays. -/
def State.dropRecs (s : State) (l : List TapRec) : State := l.foldl (fun s r => s.ownerRelease r.bay r.gen) s

/-- End channel `k`: EN clears, and the bays that it holds are released. -/
def State.chEnd (s : State) (p k : Nat) : State :=
  match Store.find (p * 32 + k) s.enc with
  | none => s
  | some x =>
    let s := s.dropRecs (x.tap.toList ++ x.ended.toList ++ x.queue)
    let s := x.refs.foldl (fun s r => s.ownerRelease r.1 r.2) s
    let s := match Store.find p s.encJobs with
      | some j => if j.ch = k then { s.dropRecs [j.rec_] with encJobs := Store.del p s.encJobs } else s
      | none => s
    let q := encP p
    let s := ((s.wb q (ENC_CH_CTRL_EN k) false).wb q (ENC_CH_CTRL_ACTIVE k) false).wr q (ENC_CH_STAT_QUEUED k) 0
    { s with enc := Store.del (p * 32 + k) s.enc }

/-- R328: the channel stops for a cause. -/
def State.chStop (s : State) (p k cause : Nat) : State := (s.chEnd p k).emit (encP p) 0x2001 [k, cause]

/-- Every recording channel whose ring bay no longer is HELD with its GEN stops (R328). -/
def State.ringsLost (s : State) : State :=
  s.enc.foldl (fun s e => if s.encRing (e.1 / 32) (e.1 % 32) then s else s.chStop (e.1 / 32) (e.1 % 32) 2) s

/-! ### The commands of the yard -/

/-- R133 BAY_DESC_WRITE. -/
def execBayDescWrite (w : Writer) (b : Fin 8192) (word : Fin 16) (v : Word) (s : State) :
    Host.Outcome State Fault Refusal := done (s.bayDescWrite w b.val (4 * word.val) v.toNat)

/-- R136 BAY_ENLIST. -/
def execBayEnlist (w : Writer) (b : Fin 8192) (enlist : Bool) (s : State) : Host.Outcome State Fault Refusal :=
  let p := bayE b.val
  done (if enlist then
      if s.bayState b.val ≠ 0 then s
      else if s.bayLayoutOk b.val then s.wr p BAYD_STAT_STATE 1
      else s.descRefused w b.val 0xFFFF 3
    else if s.bayState b.val = 1 then s.wr p BAYD_STAT_STATE 0 else s)

/-- R137 BAY_ALLOC: the read returns the bay, GOT and the new GEN; 0 where nothing was allocated. -/
def execBayAlloc (w : Writer) (cls : Fin 16) (s : State) : Host.Outcome State Fault Refusal :=
  done (match s.alloc cls.val w.fid with
    | (some (n, g), s) => s.ret (n + 2 ^ 13 + g * 2 ^ 16)
    | (none, s) => s.ret 0)

/-- R140 BAY_FREE without FORCE. -/
def execBayFree (w : Writer) (b : Fin 8192) (gen : BitVec 16) (s : State) : Host.Outcome State Fault Refusal :=
  let n := b.val
  done (if s.bayState n ≠ 2 then s.freeRefused w n gen.toNat 2
    else if s.bayGen n ≠ gen.toNat then s.freeRefused w n gen.toNat 1
    else if s.rd (bayE n) BAYD_OWNER_OWNER ≠ w.fid then s.freeRefused w n gen.toNat 0
    else if !s.on (bayE n) BAYD_STAT_OWNED then s.freeRefused w n gen.toNat 4
    else (s.ownerRelease n gen.toNat).ringsLost)

/-- R140 BAY_FORCE_FREE: accepted only from the host and the MSS. -/
def execBayForceFree (w : Writer) (b : Fin 8192) (gen : BitVec 16) (s : State) : Host.Outcome State Fault Refusal :=
  let n := b.val
  done (if w ≠ .host ∧ w ≠ .mss then s.freeRefused w n gen.toNat 3
    else if s.bayState n ≠ 2 then s.freeRefused w n gen.toNat 2
    else if s.bayGen n ≠ gen.toNat then s.freeRefused w n gen.toNat 1
    else
      ((s.bayForce n).emit (pg .bay 0) 0x1001
        (le n 2 ++ le w.fid 2 ++ le gen.toNat 2 ++ le (s.rd (bayE n) BAYD_OWNER_REFCNT) 2 ++
          [s.rd (bayE n) BAYD_STAT_MARKS])).ringsLost)

/-- Close aperture `a`: EN reads 0 and its hold is released (R144). -/
def State.apertureClose (s : State) (a : Nat) : State :=
  let p := pg .bay 0
  if s.on p (BAY_APT_EN a) then
    (s.wb p (BAY_APT_EN a) false).holdRelease (s.rd p (BAY_APT_BAY a)) (s.rd p (BAY_APT_GEN a))
  else s

/-- R144 APERTURE_OPEN: it takes an APERTURE hold, or writes APT_REFUSED and leaves the aperture as it stood. -/
def execApertureOpen (w : Writer) (a : Fin 16) (b : Fin 8192) (gen : BitVec 16) (s : State) :
    Host.Outcome State Fault Refusal :=
  let p := pg .bay 0
  done (if s.on p (BAY_APT_EN a.val) || !s.bayHeld b.val gen.toNat || decide (s.rd (bayE b.val) BAYD_OWNER_OWNER ≠ w.fid)
    then s.emit p 0x2001 ([a.val, 0] ++ le w.fid 2 ++ le b.val 2 ++ le gen.toNat 2)
    else
      let s := (s.holdTake b.val gen.toNat).2
      ((s.wr p (BAY_APT_BAY a.val) b.val).wr p (BAY_APT_GEN a.val) gen.toNat).wb p (BAY_APT_EN a.val) true)

/-- R144 APERTURE_CLOSE. -/
def execApertureClose (_w : Writer) (a : Fin 16) (s : State) : Host.Outcome State Fault Refusal :=
  done (s.apertureClose a.val).ringsLost

/-- SOFT_RESET of the BAY page (R142): every HELD bay is forced free under one FORCED record, every bay returns to UNSET,
every aperture closes; layouts and generations stay. DESIGN CHOICE: GEN and MARKS of that record hold 0 (log entry 160). -/
def State.baySoftReset (s : State) (w : Writer) : State :=
  let held := s.bayList.filter fun e => decide (e.2 = 2)
  let s := held.foldl (fun s e => s.bayForce e.1) s
  let s := s.emit (pg .bay 0) 0x1001 (le 0x1FFF 2 ++ le w.fid 2 ++ le 0 2 ++ le held.length 2)
  let s := (s.bayList.map (·.1)).foldl (fun s n => s.wr (bayE n) BAYD_STAT_STATE 0) s
  let s := (upTo 16).foldl (fun s a => s.wb (pg .bay 0) (BAY_APT_EN a) false) { s with yardLedger := [] }
  s.ringsLost

/-- The line kind an offset of bay `n` carries (R135). -/
def State.bayKind (s : State) (n off : Nat) : Nat :=
  let p := bayE n
  match s.rd p BAYD_SIZE_FORMAT with
  | 0 => if off < 4096 * s.rd p BAYD_PLANE2_OFF then 1 else if off < 4096 * s.rd p BAYD_STATS_OFF then 2 else 4
  | 1 => if off < 4096 * s.rd p BAYD_PLANE2_OFF then 1 else if off < 4096 * s.rd p BAYD_STATS_OFF then 2 else 4
  | 2 => 3
  | 3 => 3
  | 4 => 5
  | 5 => 6
  | _ => 0

end Sys2Proof.Machine
end

