-- ==== Sys2Proof/Machine/MemOps.lean ====
section
/-! DEFINITION. Accesses to DRAM and loft words: correction, tag comparison, read-modify-write, error capture (R100 to R111,
R129), and the addresses and tags of bays (R134, R143). -/

namespace Sys2Proof.Machine

/-- Base of the DRAM range in the fabric map (R458). -/
def dramBase : Nat := 0x2000000000

/-- Base of the loft in the fabric map (R458). -/
def loftBase : Nat := 0x8000000

/-- The channels in service, ascending (R100). -/
def State.channels (s : State) : List Nat := (upTo 8).filter fun n => !bit (s.rd 0 SYS_FENCE_A_DMC) n

/-- The channel that holds DRAM offset `a`, with the in-channel address C (R100). -/
def State.chanOf (s : State) (a : Nat) : Option (Nat × Nat) :=
  let l := s.channels
  match l[a / 256 % l.length]? with
  | some n => some (n, a / 256 / l.length * 256 + a % 256)
  | none => none

/-- Bank key (subchannel, bank group, bank, rank) and row of in-channel address `c` (R101). -/
def State.bankRow (s : State) (c : Nat) : Nat × Nat :=
  let p := pg .dmc 0
  let sub := bits c 6 1
  let bg := bits c 7 3
  if s.rd p DMC_CFG_DENSITY = 0 then
    let rank := if s.on p DMC_CFG_RANKS then bits c 33 1 else 0
    (sub + 2 * bg + 16 * bits c 16 1 + 64 * rank, bits c 17 16)
  else (sub + 2 * bg + 16 * bits c 16 2, bits c 18 16)

/-- Rank of in-channel address `c` (R101). -/
def State.rankOf (s : State) (c : Nat) : Nat :=
  if s.rd (pg .dmc 0) DMC_CFG_DENSITY = 0 ∧ s.on (pg .dmc 0) DMC_CFG_RANKS then bits c 33 1 else 0

/-- Capture the first error of KIND 1 to 4 since VALID was last cleared (R126). -/
def State.dmcCapture (s : State) (n kind a master syn : Nat) (scrub : Bool) : State :=
  let p := pg .dmc n
  if s.on p DMC_EINFO_VALID then s
  else
    let fa := dramBase + a
    let s := (s.wr p DMC_EADDR_LO_ADDR fa).wr p DMC_EADDR_HI_ADDR (fa / 2 ^ 32)
    let s := ((s.wr p DMC_EINFO_KIND kind).wr p DMC_EINFO_MASTER master).wr p DMC_EINFO_SYNDROME syn
    (s.wb p DMC_EINFO_SCRUB scrub).wb p DMC_EINFO_VALID true

/-- The DATA bytes that every DMC record begins with (R125): fabric address and master, 0xFF for the scrubber. -/
def dmcData (a master : Nat) (scrub : Bool) : List Nat := le (dramBase + a) 5 ++ [if scrub then 0xFF else master]

/-- A correctable error: counted, one CE record per ms (R106, R125). -/
def State.dmcCe (s : State) (n a master syn isMeta word : Nat) (scrub : Bool) : State :=
  let p := pg .dmc n
  (s.cnt p DMC_CE_COUNT_COUNT 1).emitLimited p p 1 0x0001 (dmcData a master scrub ++ [syn, isMeta, word])

/-- An uncorrectable data word: counted, captured, one UE record (R109, R110). -/
def State.dmcUe (s : State) (n kind a master syn word : Nat) (scrub : Bool) : State :=
  let p := pg .dmc n
  ((s.cnt p DMC_UE_COUNT_COUNT 1).dmcCapture n kind a master syn scrub).emit p 0x0801
    (dmcData a master scrub ++ [syn, 0, word])

/-- An uncorrectable metadata codeword on an untagged read (R108). -/
def State.dmcMetaUe (s : State) (n a master syn : Nat) (scrub : Bool) : State :=
  let p := pg .dmc n
  ((s.cnt p DMC_META_UE_COUNT_COUNT 1).dmcCapture n 2 a master syn scrub).emit p 0x1001 (dmcData a master scrub ++ [syn])

/-- Store a corrected word with its right check byte (R111). -/
def State.dramFixWord (s : State) (wd v : Nat) : State :=
  { s with dram := s.dram.writeLE (wd * 8) v 8, dsyn := Store.del wd s.dsyn }

/-- The metadata of a line as read: corrected, or none where its codeword is uncorrectable (R106). -/
def State.metaOf (s : State) (line : Nat) : Option Nat :=
  match decodeSyn (withBits 3) (Store.getD 0 line s.msyn) with
  | .good => some (Store.getD 0 line s.dmeta)
  | .dataBit i => some (flipBit (Store.getD 0 line s.dmeta) i)
  | .checkBit => some (Store.getD 0 line s.dmeta)
  | .bad => none

/-- A tag agrees with stored metadata (R108): BAY, GEN and KIND, and FSEQ when FSEQ_CHK is 1. -/
def tagAgrees (t : Tag) (m : Nat) : Bool :=
  decide (m % 2 ^ 32 = t.meta % 2 ^ 32) && (!t.fseqChk || decide (bits m 32 16 = bits t.meta 32 16))

/-- Data words of `[a, a + len)`: word numbers. -/
def wordsOf (a len : Nat) : List Nat := if len = 0 then [] else (upTo ((a + len - 1) / 8 - a / 8 + 1)).map (a / 8 + ·)

/-- Lines of `[a, a + len)`: line numbers. -/
def linesOf (a len : Nat) : List Nat := if len = 0 then [] else (upTo ((a + len - 1) / 64 - a / 64 + 1)).map (a / 64 + ·)

/-- The syndrome of data word `wd`: its stored check byte XOR the one recomputed from the data and the address (R106). The state keeps
this difference of the stored check byte, which no access other than a write changes. -/
def State.wordSyn (s : State) (wd : Nat) : Nat := Store.getD 0 wd s.dsyn

/-- The syndrome of a line's metadata codeword (R106). -/
def State.metaSyn (s : State) (line : Nat) : Nat := Store.getD 0 line s.msyn

/-- The check byte that DRAM stores with data word `wd` (R104). -/
def State.storedCheck (s : State) (wd : Nat) : Nat := wordCheck (s.dram.readLE (wd * 8) 8) (wd * 8) ^^^ s.wordSyn wd

/-- The metadata codeword that DRAM stores with a line (R103, R105). -/
def State.storedMeta (s : State) (line : Nat) : Nat :=
  let m := Store.getD 0 line s.dmeta
  m + 2 ^ 56 * (metaCheck m (line * 64) ^^^ s.metaSyn line)

/-- The burst that carries a line (R102): 16 beats, each the 32 bits of DQ and the 8 bits of CB. -/
def State.burst (s : State) (line : Nat) : List (Nat × Nat) :=
  (upTo 16).map fun b =>
    (s.dram.readLE (line * 64 + 4 * b) 4,
      if b % 2 = 0 then s.storedCheck (line * 8 + b / 2) else bits (s.storedMeta line) (8 * (b / 2)) 8)

/-- Examine word `wd` on a read: whether it can be delivered, with what the controller records and writes back (R106, R109,
R111). `newer`: a write to the line has taken a token since, so a corrected word is not written back. -/
def State.readWord (s : State) (n master : Nat) (newer : Nat → Bool) (wd : Nat) : Bool × State :=
  let syn := s.wordSyn wd
  let v := s.dram.readLE (wd * 8) 8
  if syn = 0 then (true, s)
  else match correctWord v syn with
    | some v' =>
      let s := s.dmcCe n (wd * 8) master syn 0 (wd % 8) false
      (true, if newer (wd / 8) then s else s.dramFixWord wd v')
    | none => (false, s.dmcUe n 1 (wd * 8) master syn (wd % 8) false)

/-- Examine the words of a read: all can be delivered (R109). -/
def State.readWords (s : State) (n master : Nat) (newer : Nat → Bool) : List Nat → Bool × State
  | [] => (true, s)
  | wd :: t =>
    let r := s.readWord n master newer wd
    let r' := r.2.readWords n master newer t
    (r.1 && r'.1, r'.2)

/-- Examine the metadata of a line on a read (R106, R108): a correctable codeword is counted, and written back unless a newer write
replaces it; an uncorrectable one is counted, with a META_UE record where the read is untagged. -/
def State.readMeta (s : State) (n master : Nat) (tagged newer : Bool) (line : Nat) : State :=
  let syn := s.metaSyn line
  if syn = 0 then s
  else match s.metaOf line with
    | some m =>
      let s := s.dmcCe n (line * 64) master syn 1 0 false
      if newer then s else { s with dmeta := Store.setD 0 line m s.dmeta, msyn := Store.del line s.msyn }
    | none => if tagged then s.cnt (pg .dmc n) DMC_META_UE_COUNT_COUNT 1 else s.dmcMetaUe n (line * 64) master syn false

/-- The lines of a tagged read that miss (R108). -/
def State.missLines (s : State) (t : Tag) (l : List Nat) : List Nat :=
  l.filter fun x => match s.metaOf x with
    | some m => !tagAgrees t m
    | none => true

/-- The bytes delivered from `[a, a + len)` with correctable words corrected. -/
def State.dramBytes (s : State) (a len : Nat) : List Nat :=
  (upTo len).map fun i =>
    let wd := (a + i) / 8
    match correctWord (s.dram.readLE (wd * 8) 8) (Store.getD 0 wd s.dsyn) with
    | some v => v / 256 ^ ((a + i) % 8) % 256
    | none => 0

/-- DESIGN CHOICE: of the words of a line, those that the part's bytes touch are examined, not the rest of the burst (log entry 156).
Read one part of DRAM at offset `a` (R106 to R109, R111): the error detail (0 none, 1 uncorrectable word, 2 tag miss,
3 both), the data (zeros where the part failed) and the state. -/
def State.dramRead (s : State) (master a len : Nat) (tag : Option Tag) (newer : Nat → Bool) : Nat × List Nat × State :=
  let n := match s.chanOf a with
    | some c => c.1
    | none => 0
  let p := pg .dmc n
  let lines := linesOf a len
  let miss := match tag with
    | some t => s.missLines t lines
    | none => []
  let data := s.dramBytes a len
  let s := match miss, tag with
    | x :: _, some t =>
      let m := Store.getD 0 x s.dmeta
      ((s.cnt p DMC_TAGMISS_COUNT_COUNT miss.length).dmcCapture n 3 (x * 64) master 0 false).emit p 0x1801
        (dmcData (x * 64) master false ++ le (bits m 32 16) 2 ++ le (t.meta % 2 ^ 32) 4 ++ le (m % 2 ^ 32) 4)
    | _, _ => s
  let s := lines.foldl (fun s x => s.readMeta n master tag.isSome (newer x) x) s
  let r := s.readWords n master newer (wordsOf a len)
  let detail := b2n (!r.1) + 2 * b2n (!miss.isEmpty)
  (detail, if detail = 0 then data else List.replicate len 0, r.2)

/-- Set the metadata of a line with a fresh codeword (R107). -/
def State.setMeta (s : State) (m line : Nat) : State :=
  { s with dmeta := Store.setD 0 line m s.dmeta, msyn := Store.del line s.msyn }

/-- Write the bytes of `[a, a + len)` that fall in word `wd`: a whole word takes a fresh check byte; part of a word, and the word of an
atomic, merges with the corrected word, and fails, writing nothing, where that word is uncorrectable (R110). -/
def State.writeWord (s : State) (n master a : Nat) (data : List Nat) (atomic : Bool) (wd : Nat) : Bool × State :=
  let lo := max a (wd * 8)
  let hi := min (a + data.length) (wd * 8 + 8)
  let piece := (data.drop (lo - a)).take (hi - lo)
  let syn := s.wordSyn wd
  if hi - lo = 8 ∧ atomic = false then (true, { s with dram := s.dram.putBytes lo piece, dsyn := Store.del wd s.dsyn })
  else match correctWord (s.dram.readLE (wd * 8) 8) syn with
    | some v =>
      let s := if syn = 0 then s else (s.dmcCe n (wd * 8) master syn 0 (wd % 8) false).dramFixWord wd v
      (true, { s with dram := s.dram.putBytes lo piece })
    | none => (false, s.dmcUe n 4 (wd * 8) master syn (wd % 8) false)

/-- Write the words of an access in turn. -/
def State.writeWords (s : State) (n master a : Nat) (data : List Nat) (atomic : Bool) : List Nat → Bool × State
  | [] => (true, s)
  | wd :: t =>
    let r := s.writeWord n master a data atomic wd
    let r' := r.2.writeWords n master a data atomic t
    (r.1 && r'.1, r'.2)

/-- A word of the line that a read-modify-write carries back without merging: corrected where it can be, else kept with
one UE of KIND 4 counted (R110). -/
def State.carryWord (s : State) (n master wd : Nat) : State :=
  let syn := s.wordSyn wd
  if syn = 0 then s
  else match correctWord (s.dram.readLE (wd * 8) 8) syn with
    | some v => (s.dmcCe n (wd * 8) master syn 0 (wd % 8) false).dramFixWord wd v
    | none => s.dmcUe n 4 (wd * 8) master syn (wd % 8) false

/-- Write one part of DRAM at offset `a` (R107, R110): the error detail (1 where a word it had to merge with is
uncorrectable) and the state. `atomic`: the line is always read, modified and written. The read of a read-modify-write examines
the line's metadata as an untagged read does (R106, R108). -/
def State.dramWrite (s : State) (master a : Nat) (data : List Nat) (tag : Option Tag) (atomic : Bool) : Nat × State :=
  let n := match s.chanOf a with
    | some c => c.1
    | none => 0
  let len := data.length
  let words := wordsOf a len
  let partialWord := fun wd => decide (wd * 8 < a) || decide (a + len < wd * 8 + 8)
  let rmwLines := (linesOf a len).filter fun x =>
    atomic || words.any fun wd => decide (wd / 8 = x) && partialWord wd
  let r := s.writeWords n master a data atomic words
  let s := rmwLines.foldl (fun s x => s.readMeta n master false false x) r.2
  let carried := (rmwLines.flatMap fun x => (upTo 8).map (x * 8 + ·)).filter fun wd => !words.contains wd
  let s := carried.foldl (fun s wd => s.carryWord n master wd) s
  let s := match tag with
    | some t => (linesOf a len).foldl (fun s x => s.setMeta t.meta x) s
    | none =>
      ((linesOf a len).filter fun x => decide (a ≤ x * 64) && decide (x * 64 + 64 ≤ a + len)).foldl
        (fun s x => s.setMeta 0 x) s
  (b2n (!r.1), s)

/-- Pieces of `[a, a + len)` at every 256-byte boundary (R70): start and length. -/
def pieces (a len : Nat) : List (Nat × Nat) :=
  if len = 0 then []
  else (upTo ((a + len - 1) / 256 - a / 256 + 1)).map fun i =>
    let lo := max a ((a / 256 + i) * 256)
    (lo, min (a + len) ((a / 256 + i + 1) * 256) - lo)

/-- The tag of an access to offset `off` of bay `n` (R143). -/
def State.bayTag (s : State) (n g fseq off : Nat) (chk : Bool) : Tag := ⟨n, g, s.bayKind n off, fseq % 2 ^ 16, chk⟩

/-- DRAM offset of bay `n`'s byte `off` (R134). -/
def State.bayAddr (s : State) (n off : Nat) : Nat := 4096 * s.rd (bayE n) BAYD_BASE_BASE + off

/-- Bytes of bay `n`. -/
def State.baySize (s : State) (n : Nat) : Nat := 4096 * s.rd (bayE n) BAYD_SIZE_SIZE

/-- The bytes of bay `n` as they stand, without an access: for values that the model computes from a bay it has already
read. -/
def State.bayPeek (s : State) (n off len : Nat) : List Nat := s.dramBytes (s.bayAddr n off) len

end Sys2Proof.Machine
end

