-- ==== Sys2Proof/Machine/FabricOps.lean ====
section
/-! DEFINITION. What the fabric's targets share: answering a part, the ports' slots (R65 to R71). -/

namespace Sys2Proof.Machine

/-! ### Byte enables (R39, R320) -/

/-- What stands for a byte of a write whose byte enable is 0. -/
def noByte : Nat := 256

/-- The stretches of enabled bytes of a write, with their places. -/
def enabledRuns (o : Nat) : List Nat → List (Nat × List Nat)
  | [] => []
  | b :: t =>
    if noByte ≤ b then enabledRuns (o + 1) t
    else match enabledRuns (o + 1) t with
      | (p, l) :: r => if p = o + 1 then (o, b :: l) :: r else (o, [b]) :: (p, l) :: r
      | [] => [(o, [b])]

/-- A part of a write as its stretches of enabled bytes; any other part, and one with every byte enabled, as it stands. -/
def Part.runs (x : Part) : List Part :=
  if x.data.all fun b => decide (b < noByte) then [x]
  else (enabledRuns 0 x.data).map fun r => { x with addr := x.addr + r.1, len := r.2.length, off := x.off + r.1, data := r.2 }

/-- Perform a part at a target that takes parts one stretch of enabled bytes at a time: the worst code, the details together. -/
def State.perRuns (s : State) (f : State → Part → Nat × Nat × List Nat × State) (x : Part) : Nat × Nat × List Nat × State :=
  match x.runs with
  | [y] => f s y
  | l => l.foldl (fun r y =>
      let q := f r.2.2.2 y
      (max r.1 q.1, r.2.1 ||| q.2.1, [], q.2.2.2)) (0, 0, [], s)

/-! ### Write requests that a check-value unit takes (R320) -/

/-- The page of unit `u`. -/
abbrev cvuP (u : Nat) : Nat := pg .cvu u

/-- A unit at rest. -/
def cvu0 : CvuSt := ⟨none, [], 0, [], []⟩

/-- Run-time state of unit `u`. -/
def State.cvu (s : State) (u : Nat) : CvuSt := Store.getD cvu0 u s.cvus

/-- Set it. -/
def State.setCvu (s : State) (u : Nat) (x : CvuSt) : State := { s with cvus := Store.setD cvu0 u x s.cvus }

/-- Unit `u` takes write requests of master `m` for the `len` bytes at `a` (R320). -/
def State.cvuTakes (s : State) (u m a len : Nat) : Bool :=
  let p := cvuP u
  s.enabled p && decide (s.rd p CVU_CFG_TAP = 1) && decide (s.rd p CVU_CFG_SRC = m) && decide (256 * s.rd p CVU_WIN_BASE_BASE ≤ a) &&
    decide (a + len ≤ (s.rd p CVU_WIN_LIMIT_LIMIT + 1) * 256)

/-- Master `m` issues a write request: the units that take it see its enabled bytes, whatever becomes of it (R320). -/
def State.cvuSnoop (s : State) (m a : Nat) (data : List Nat) : State :=
  let at_ := a + (data.takeWhile fun b => decide (noByte ≤ b)).length
  let d := data.filter fun b => decide (b < noByte)
  ((upTo 24).filter fun u => s.cvuTakes u m a data.length).foldl (fun s u =>
    s.setCvu u { s.cvu u with seen := (s.cvu u).seen ++ [(at_, d)] }) s

/-- Overwrite a stretch of a list from position `off`. -/
def setSlice (l : List Nat) (off : Nat) (d : List Nat) : List Nat := l.take off ++ d ++ l.drop (off + d.length)

/-- One part of a request ends with a response code: 0 OKAY, 1 TGTERR, 2 DECERR, 3 GRDERR; the request keeps the first code
in the order GRDERR, DECERR, TGTERR, OKAY, and the part's data, zeros where it failed (R71). -/
def State.answer (s : State) (x : Part) (code detail : Nat) (data : List Nat) : State :=
  let upd := fun (r : Req) => { r with left := r.left - 1, code := max r.code code, detail := r.detail ||| detail,
                                       data := setSlice r.data x.off (padTo x.len data) }
  { s with fab := { s.fab with reqs := mapWhere (fun r => decide (r.tag = x.tag)) upd s.fab.reqs } }

/-- Queue slots of a target port (R65). -/
def slotsOf (t : Nat) : Nat :=
  if t < 8 then 64 else if t < 12 then 32 else if t = 12 then 16 else if t = 13 then 32 else if t = 14 then 8 else 4

/-- Occupied queue slots of a target port; the debug port's reserved slot is not one of them (R68). -/
def State.slotsUsed (s : State) (t : Nat) : Nat :=
  (s.fab.queued.filter fun x => decide (x.target = t) && !x.emerg).length

/-- The parts of a list at a target, the debug port's emergency part ahead (R77). -/
def atTarget (l : List Part) (t : Nat) : List Part :=
  (l.filter fun x => decide (x.target = t) && x.emerg) ++ l.filter fun x => decide (x.target = t) && !x.emerg

/-- Parts of `[a, a + len)` of the fabric's address space (R70): the 256-byte pieces, cut too where the MSI-X pages end at BAR0 offset
0xE020 (R38), the one boundary between targets that is no multiple of 256. -/
def fabricPieces (a len : Nat) : List (Nat × Nat) :=
  (pieces a len).flatMap fun x =>
    if x.1 < 0xE020 ∧ 0xE020 < x.1 + x.2 then [(x.1, 0xE020 - x.1), (0xE020, x.1 + x.2 - 0xE020)] else [x]

/-- Remove the first occurrence of a part. -/
def dropPart (l : List Part) (x : Part) : List Part := l.erase x

end Sys2Proof.Machine
end

