-- ==== Sys2Proof/Machine/Dmc.lean ====
section
/-! DEFINITION. The DRAM controllers: tokens, the choice of a command, refresh, self-refresh, training, scrubbing and the QoS
slot table (R113 to R127). -/

namespace Sys2Proof.Machine

/-- A controller's run-time state after reset. -/
def dmc0 : DmcSt := ⟨[], [], [], 0, false, 0, 0, 0, false, false⟩

/-- The run-time state of controller `n`. -/
def State.dm (s : State) (n : Nat) : DmcSt := Store.getD dmc0 n s.dmc

/-- Set the run-time state of controller `n`. -/
def State.setDm (s : State) (n : Nat) (d : DmcSt) : State := { s with dmc := Store.setD dmc0 n d s.dmc }

/-- The parts controller `n` serves, in the order in which they took their tokens. -/
def State.dmcServing (s : State) (n : Nat) : List Part := s.fab.serving.filter fun x => decide (x.target = n)

/-- Free tokens of the shared pool: 128 minus the sum of the larger of HELD and RESERVE (R113). -/
def State.poolFree (s : State) (n : Nat) : Nat :=
  let p := pg .dmc n
  128 - (upTo 32).foldl (fun t m => t + max (s.rd p (DMC_TOK_HELD m)) (s.rd p (DMC_TOK_RESERVE m))) 0

/-- Master `m` can take a token of controller `n` (R113). -/
def State.canTake (s : State) (n m : Nat) : Bool :=
  let p := pg .dmc n
  decide (s.rd p (DMC_TOK_HELD m) < s.rd p (DMC_TOK_RESERVE m)) || decide (0 < s.poolFree n)

/-- The oldest queued part of controller `n` whose master can take a token, the emergency requester's ahead (R77, R113). -/
def State.tokenNext (s : State) (n : Nat) : Option Part :=
  (atTarget s.fab.queued n).find? fun x => s.canTake n x.master

/-- A part of controller `n`'s queue leaves it, which frees its slot, and takes a token (R113); none is given outside the active state
(R122). -/
def State.tokenTake (s : State) (n : Nat) : State :=
  let p := pg .dmc n
  if s.rd p DMC_PM_STATE ≠ 0 then s
  else match s.tokenNext n with
    | none => s
    | some x =>
      let (hit, s) := s.perturb p 1 (some x.master)
      let y := { x with stamp := s.time.cyc, lat := if hit then some (s.rd p PERTURB_AMOUNT * 12) else none }
      let s := { s with fab := { s.fab with queued := dropPart s.fab.queued x, serving := s.fab.serving ++ [y] } }
      (s.inc p (DMC_TOK_HELD x.master) 1).wr p DMC_TOKFREE_FREE (s.rd p DMC_TOKFREE_FREE - 1)

/-- R113 DMC_TOKEN_TAKE. -/
def execDmcTokenTake (n : Fin 8) (s : State) : Host.Outcome State Fault Refusal := done (s.tokenTake n.val)

/-- The latency target of a part in core cycles, 12 of them in 10 ns (R115, R126). -/
def State.latTarget (s : State) (n : Nat) (x : Part) : Nat :=
  match x.lat with
  | some t => t
  | none => max (s.rd (pg .dmc n) (DMC_LAT_TARGET x.master)) 1 * 12

/-- Urgency, 0 to 3 (R115). -/
def State.urgency (s : State) (n : Nat) (x : Part) : Nat :=
  let e := s.time.cyc - x.stamp
  let t := s.latTarget n x
  if t ≤ e then 3 else if t - t / 4 ≤ e then 2 else if t / 2 ≤ e then 1 else 0

/-- The in-channel address of a part's first byte. -/
def State.partC (s : State) (x : Part) : Nat :=
  match s.chanOf (x.addr - dramBase) with
  | some c => c.2
  | none => 0

/-- Two parts touch one 64-byte line. -/
def sameLine (x y : Part) : Bool :=
  (linesOf x.addr x.len).any fun l => (linesOf y.addr y.len).contains l

/-- Drop from a list every part that an older one of the list precedes on a line (R117). -/
def oldestOnLine : List Part → List Part → List Part
  | _, [] => []
  | seen, x :: t => (if seen.any (sameLine x) then [] else [x]) ++ oldestOnLine (seen ++ [x]) t

/-- The parts the controller may choose among: initialised lines (R112), the oldest on each line (R117). -/
def State.dmcCandidates (s : State) (n : Nat) : List Part :=
  (oldestOnLine [] (s.dmcServing n)).filter fun x =>
    s.on (pg .dmc n) DMC_INIT_DONE || decide (s.partC x + x.len ≤ (s.dm n).initTo)

/-- Keep those that pass, unless none does. -/
def preferIf {α : Type} (p : α → Bool) (l : List α) : List α :=
  match l.filter p with
  | [] => l
  | x :: t => x :: t

/-- The master the slot in use favours (R118). -/
def State.slotMaster (s : State) (n : Nat) : Option Nat :=
  let p := pg .dmc n
  let c := s.rd p DMC_SLOT_CTRL_CUR
  if s.on p DMC_SLOT_CTRL_ACTIVE then
    if s.on p (DMC_SLOTB_VALID c) then some (s.rd p (DMC_SLOTB_MASTER c)) else none
  else if s.on p (DMC_SLOTA_VALID c) then some (s.rd p (DMC_SLOTA_MASTER c)) else none

/-- The part addresses an open row (R116). DESIGN CHOICE: a part of several lines does when the row of its first line is open
(log entry 132). -/
def State.rowOpen (s : State) (n : Nat) (x : Part) : Bool :=
  let br := s.bankRow (s.partC x)
  decide (Store.find br.1 (s.dm n).rows = some br.2)

/-- The controller's choice (R116): highest urgency, then the slot's master, then an open row, then the oldest. -/
def State.dmcChoose (s : State) (n : Nat) : Option Part :=
  let c := s.dmcCandidates n
  let u := c.foldl (fun u x => max u (s.urgency n x)) 0
  let c := c.filter fun x => decide (s.urgency n x = u)
  let c := match s.slotMaster n with
    | some m => preferIf (fun x : Part => decide (x.master = m)) c
    | none => c
  (preferIf (s.rowOpen n) c).head?

/-- Open the rows of every line of in-channel addresses `[c, c + len)`. -/
def State.openRows (s : State) (n c len : Nat) : State :=
  let d := s.dm n
  let rows := (linesOf c len).foldl (fun r l => let br := s.bankRow (l * 64); Store.put br.1 br.2 r) d.rows
  s.setDm n { d with rows := rows }

/-- Close every open row of a rank of a subchannel, or of all of them. -/
def closeRows (rows : Store Nat) (rank sub : Nat) : Store Nat :=
  Store.keep (fun k => !(decide (k % 2 = sub) && decide (k / 64 = rank))) rows

/-- Another serving part writes line `l`, which this part reads, with a later token (R111). -/
def State.newerWrite (s : State) (n : Nat) (x : Part) (l : Nat) : Bool :=
  (s.dmcServing n).any fun y => decide (y ≠ x) && decide (y.kind = .write ∨ y.kind = .atomic) &&
    (linesOf (y.addr - dramBase) y.len).contains l

/-- Perform a part at its DRAM channel (R107 to R111): response code, detail, data. An atomic is a read-modify-write of its line: it
returns the old bytes and stores the result its request carries, and its tag is not compared (log entry 6). -/
def State.dramPerform (s : State) (n : Nat) (x : Part) : Nat × Nat × List Nat × State :=
  let a := x.addr - dramBase
  match x.kind with
  | .write =>
    let r := s.dramWrite x.master a x.data x.mtag false
    (b2n (r.1 ≠ 0), r.1, [], r.2)
  | .atomic =>
    let old := s.dramBytes a x.len
    let w := s.dramWrite x.master a x.data x.mtag true
    (b2n (w.1 ≠ 0), w.1, if w.1 = 0 then old else List.replicate x.len 0, w.2)
  | _ =>
    let r := s.dramRead x.master a x.len x.mtag (s.newerWrite n x)
    (b2n (r.1 ≠ 0), r.1, r.2.1, r.2.2)

/-- Serve a part that holds a token of controller `n`: it is performed and answered, its token returns, a request past its deadline
is counted late (R115). -/
def State.dmcServe (s : State) (n : Nat) (x : Part) : State :=
  let p := pg .dmc n
  let late := decide (s.latTarget n x < s.time.cyc - x.stamp)
  let (code, detail, data, s) := s.perRuns (fun s y => s.dramPerform n y) x
  let s := s.openRows n (s.partC x) x.len
  let s := { s with fab := { s.fab with serving := dropPart s.fab.serving x } }
  let s := (s.wr p (DMC_TOK_HELD x.master) (s.rd p (DMC_TOK_HELD x.master) - 1)).wr p DMC_TOKFREE_FREE
    (s.rd p DMC_TOKFREE_FREE + 1)
  let s := if late then s.cnt p (DMC_LATE_COUNT x.master) 1 else s
  s.answer x code detail data

/-! ### Initialisation -/

/-- Zero the lines of channel `n` at in-channel addresses `[c, d)`, with metadata all zero and right check bits (R112). -/
def State.zeroLines (s : State) (n c d : Nat) : State :=
  let other := fun a => match s.chanOf a with
    | some x => decide (x.1 ≠ n) || decide (x.2 < c) || decide (d ≤ x.2)
    | none => true
  { s with dram := Store.keep other s.dram, dmeta := Store.keep (fun l => other (l * 64)) s.dmeta,
           dsyn := Store.keep (fun w => other (w * 8)) s.dsyn, msyn := Store.keep (fun l => other (l * 64)) s.msyn }

/-- The initialiser of channel `n`, which goes in ascending in-channel address, has passed address `c` (R112, R126). -/
def State.initPass (s : State) (n c : Nat) : State :=
  let d := min (64 * ((c + 63) / 64)) (2 ^ 30 * s.chanGiB)
  if d ≤ (s.dm n).initTo then s
  else
    let s := s.zeroLines n (s.dm n).initTo d
    (s.setDm n { s.dm n with initTo := d }).wr (pg .dmc n) DMC_INIT_MARK_MIB (d / 2 ^ 20)

/-- While every part of controller `n` waits for the initialiser, whether it has passed the oldest one's lines by now is a free
value. -/
def State.initWait (s : State) (n : Nat) : State :=
  match (if s.on (pg .dmc n) DMC_INIT_DONE then [] else s.dmcServing n) with
  | [] => s
  | x :: _ =>
    let v := s.draw
    if bit v.1 0 then v.2.initPass n (s.partC x + x.len) else v.2

/-- R112 DRAM_INIT_DONE: the initialiser has written every mapped line of the channel. -/
def execDramInitDone (n : Fin 8) (s : State) : Host.Outcome State Fault Refusal :=
  let p := pg .dmc n.val
  done (if s.on p DMC_INIT_DONE ∨ n.val ∉ s.channels then s
    else (s.initPass n.val (2 ^ 30 * s.chanGiB)).wb p DMC_INIT_DONE true)

/-- The controller's command (R116): the chosen request is served, while its clocks run (R122). Nothing to choose: nothing is served. -/
def State.commandIssue (s : State) (n : Nat) : State :=
  if 2 ≤ s.rd (pg .dmc n) DMC_PM_STATE ∨ !s.dmcPll n then s
  else match s.dmcChoose n with
    | none => s.initWait n
    | some x => s.dmcServe n x

/-- R116 DMC_COMMAND_ISSUE. -/
def execDmcCommandIssue (n : Fin 8) (s : State) : Host.Outcome State Fault Refusal := done (s.commandIssue n.val)

/-- The initialiser of channel `n` passes the lines of the parts that hold its tokens (R112). -/
def State.initServing (s : State) (n : Nat) : State :=
  if s.on (pg .dmc n) DMC_INIT_DONE then s else (s.dmcServing n).foldl (fun s x => s.initPass n (s.partC x + x.len)) s

/-- The parts that hold tokens of controller `n` complete, in the order of R116. `k`: how many are served at most. -/
def State.servingRun (s : State) (n : Nat) : Nat → State
  | 0 => s
  | k + 1 =>
    match (s.initServing n).dmcChoose n with
    | none => s
    | some x => ((s.initServing n).dmcServe n x).servingRun n k

/-- Every part that holds a token of controller `n` completes (R122). -/
def State.tokensDone (s : State) (n : Nat) : State := s.servingRun n (s.dmcServing n).length

/-- R114 DMC_TOK_WRITE: a write that would raise the sum of the reserves above 112 has no effect. -/
def execDmcTokWrite (_w : Writer) (n : Fin 8) (m : Fin 32) (v : Word) (s : State) : Host.Outcome State Fault Refusal :=
  let p := pg .dmc n.val
  let new := v.toNat % 2 ^ 7
  let old := s.rd p (DMC_TOK_RESERVE m.val)
  let sum := (upTo 32).foldl (fun t i => t + s.rd p (DMC_TOK_RESERVE i)) 0
  done (if old < new ∧ 112 < sum - old + new then s else s.wr p (DMC_TOK_RESERVE m.val) new)

/-! ### Refresh -/

/-- Ranks of a channel (R98). -/
def State.ranks (s : State) (n : Nat) : Nat := if s.on (pg .dmc n) DMC_CFG_RANKS then 2 else 1

/-- Set the owed count P of a rank of a subchannel, and OWED, the highest P of any (R120, R126). -/
def State.setOwed (s : State) (n rank sub v : Nat) : State :=
  let d := s.dm n
  let o := Store.setD 0 (rank * 2 + sub) v d.owed
  (s.setDm n { d with owed := o }).wr (pg .dmc n) DMC_REF_OWED (o.foldl (fun t e => max t e.2) 0)

/-- Close the open rows of a rank (R120). -/
def State.closeRank (s : State) (n rank sub : Nat) : State :=
  let d := s.dm n
  s.setDm n { d with rows := closeRows d.rows rank sub }

/-- Add one interval to the owed count of a rank; P reaching 5 refreshes at once as the emergency requester (R120). -/
def State.owe (s : State) (n rank sub : Nat) : State :=
  let p := pg .dmc n
  let v := Store.getD 0 (rank * 2 + sub) (s.dm n).owed + 1
  if v < 5 then s.setOwed n rank sub v
  else
    let s := (s.setOwed n rank sub 4).closeRank n rank sub
    let s := s.setDm n { s.dm n with refHold := false }
    (s.cnt p DMC_REF_PRE_COUNT 1).emit p 0x2001 [rank, sub]

/-- The ranks of every subchannel of a channel, as (rank, subchannel). -/
def State.rankSubs (s : State) (n : Nat) : List (Nat × Nat) :=
  (upTo (s.ranks n)).flatMap fun r => [(r, 0), (r, 1)]

/-- R120 REFRESH_INTERVAL: each rank of each subchannel owes one refresh more; intervals do not count in self-refresh
(R122). -/
def execRefreshInterval (n : Fin 8) (s : State) : Host.Outcome State Fault Refusal :=
  let p := pg .dmc n.val
  done (if s.rd p DMC_PM_STATE = 2 then s
    else
      let (hit, s) := s.perturb p 2 none
      let s := if hit then s.setDm n.val { s.dm n.val with refHold := true } else s
      (s.rankSubs n.val).foldl (fun s x => s.owe n.val x.1 x.2) s)

/-- A request of urgency 2 or 3 waits for the rank of the subchannel (R120). -/
def State.rankUrgent (s : State) (n rank sub : Nat) : Bool :=
  (s.dmcServing n).any fun x => decide (2 ≤ s.urgency n x) &&
    (linesOf (s.partC x) x.len).any fun l => decide (s.rankOf (l * 64) = rank) && decide (l % 2 = sub)

/-- R120 REFRESH_ISSUE: an owed refresh is issued when no urgent request waits for the rank, and closes its pages. -/
def execRefreshIssue (n : Fin 8) (rank sub : Fin 2) (s : State) : Host.Outcome State Fault Refusal :=
  let v := Store.getD 0 (rank.val * 2 + sub.val) (s.dm n.val).owed
  done (if v = 0 ∨ !s.dmcPll n.val ∨ s.rankUrgent n.val rank.val sub.val ∨ (s.dm n.val).refHold then s
    else (s.setOwed n.val rank.val sub.val (v - 1)).closeRank n.val rank.val sub.val)

/-- R121 MR4_POLL: what the components report; HALVED follows it while AUTO_TEMP is 1. -/
def execMr4Poll (n : Fin 8) (hot : Bool) (s : State) : Host.Outcome State Fault Refusal :=
  done (s.setDm n.val { s.dm n.val with hot := hot })

/-! ### Self-refresh -/

/-- R122 SR_ENTRY_REQUEST: SR_REQ 1 starts entry; no new token is given. DESIGN CHOICE: only an active channel starts entry, a channel
that is leaving self-refresh goes on leaving it (log entry 134). -/
def execSrEntryRequest (_w : Writer) (n : Fin 8) (s : State) : Host.Outcome State Fault Refusal :=
  let p := pg .dmc n.val
  let s := s.wb p DMC_PM_SR_REQ true
  done (if s.rd p DMC_PM_STATE = 0 then s.wr p DMC_PM_STATE 1 else s)

/-- CLK_STAT.DMC_LOCK of channel `n` (R443, R444). -/
def State.dmcLock (s : State) (n : Nat) (on : Bool) : State :=
  let v := s.rd (pg .clk 0) CLK_STAT_DMC_LOCK
  (s.wr (pg .clk 0) CLK_STAT_DMC_LOCK (if on then setBit v n else clrBit v n)).pllAnew (8 + n)

/-- The channel enters self-refresh: its PLL stopped (R443), every owed refresh issued, all banks closed, SR_ENTRY (R122). -/
def State.srEnter (s : State) (n : Nat) : State :=
  let p := pg .dmc n
  let s := s.setDm n { s.dm n with owed := [], rows := [] }
  let s := s.dmcLock n false
  ((s.wr p DMC_REF_OWED 0).wr p DMC_PM_STATE 2).emit p 0x3801 []

/-! ### Training and scrubbing -/

/-- The temperature of the sensor assigned to channel `n`, in 1/16 °C (R123, R395). -/
def State.dmcTemp (s : State) (n : Nat) : Int := sint 16 (s.rd (pg .mss 0) (MSS_TS_VAL_T n))

/-- The temperature of channel `n`'s sensor in whole °C, as an 8-bit two's complement number; while the sensor has no valid sample it is
a free value (log entry 47). DESIGN CHOICE: sixteenths round towards minus infinity (log entry 154). -/
def State.dmcDeg (s : State) (n : Nat) : Nat × State :=
  if s.on (pg .mss 0) (MSS_TS_VAL_VALID n) then (uint 8 (floorDiv (s.dmcTemp n) 16), s)
  else
    let v := s.draw
    (v.1 % 256, v.2)

/-- Retraining of channel `n` starts (R123). -/
def State.trainStart (s : State) (n : Nat) : State :=
  let p := pg .dmc n
  (s.setDm n { s.dm n with trnStep := 0, trnBad := false }).wb p DMC_TRN_BUSY true |>.wb p DMC_TRN_NOW false

/-- R123 RETRAIN_CHECK: a change from TEMP_LAST by more than DELTA starts retraining; DELTA 0 disables the trigger, and
self-refresh defers it (R122). -/
def execRetrainCheck (n : Fin 8) (s : State) : Host.Outcome State Fault Refusal :=
  let p := pg .dmc n.val
  let d := s.dmcTemp n.val - 16 * sint 8 (s.rd p DMC_TRN_TEMP_LAST)
  done (if s.rd p DMC_TRN_DELTA ≠ 0 ∧ s.on (pg .mss 0) (MSS_TS_VAL_VALID n.val) ∧ s.rd p DMC_PM_STATE = 0 ∧
      !s.on p DMC_TRN_BUSY ∧ (16 * s.rd p DMC_TRN_DELTA : Nat) < d.natAbs then s.trainStart n.val else s)

/-- R123 RETRAIN_NOW: NOW reads 1 until retraining starts. -/
def execRetrainNow (_w : Writer) (n : Fin 8) (s : State) : Host.Outcome State Fault Refusal :=
  done (s.wb (pg .dmc n.val) DMC_TRN_NOW true)

/-- One step of a retraining in progress (R123): the sixteenth ends it with TRAIN_DONE; a failed check keeps the old values
and ends it with TRAIN_FAIL (log entry 7). -/
def State.trainStep (s : State) (n : Nat) (ok : Bool) : State :=
  let p := pg .dmc n
  let d := s.dm n
  if ok ∧ d.trnStep + 1 < 16 then s.setDm n { d with trnStep := d.trnStep + 1 }
  else
    let (t, s) := s.dmcDeg n
    if !ok then ((s.wb p DMC_TRN_BUSY false).wb p DMC_TRN_FAIL true).emit p 0x2802 [t, d.trnStep]
    else
      let s := (s.setDm n { d with trnStep := 16 }).wb p DMC_TRN_BUSY false
      let s := ((s.wb p DMC_TRN_FAIL false).wr p DMC_TRN_TEMP_LAST t).inc p DMC_TRN_COUNT_COUNT 1
      s.emit p 0x2801 [t, 16]

/-- R123 RETRAIN_STEP: a requested retraining starts with its first step; with none in progress nothing happens. -/
def execRetrainStep (n : Fin 8) (ok : Bool) (s : State) : Host.Outcome State Fault Refusal :=
  let p := pg .dmc n.val
  let s := if s.on p DMC_TRN_NOW ∧ !s.on p DMC_TRN_BUSY ∧ s.rd p DMC_PM_STATE = 0 then s.trainStart n.val else s
  done (if s.on p DMC_TRN_BUSY ∧ s.rd p DMC_PM_STATE = 0 then s.trainStep n.val ok else s)

/-- The DRAM offset of in-channel address `c` of channel `n` (the inverse of R100). -/
def State.offsetOf (s : State) (n c : Nat) : Nat :=
  let l := s.channels
  (c / 256 * l.length + (firstIdx (fun k => decide (k = n)) l).getD 0) * 256 + c % 256

/-- R122 SR_ENTRY: completes once the held tokens have. -/
def execSrEntry (n : Fin 8) (s : State) : Host.Outcome State Fault Refusal :=
  done (if s.rd (pg .dmc n.val) DMC_PM_STATE = 1 ∧ (s.dmcServing n.val).isEmpty then s.srEnter n.val else s)

/-- R122 SR_EXIT_REQUEST: by a write of SR_REQ 0, or (`cause` none) by a request that arrives in self-refresh. DESIGN CHOICE: SR_REQ 0
does not stop an entry in progress, and SR_REQ stays 1 after an exit that a request started (log entry 134). -/
def execSrExitRequest (n : Fin 8) (cause : Option Writer) (s : State) : Host.Outcome State Fault Refusal :=
  let p := pg .dmc n.val
  let s := if cause.isSome then s.wb p DMC_PM_SR_REQ false else s
  done (if s.rd p DMC_PM_STATE = 2 ∧ (cause.isSome ∨ (atTarget s.fab.queued n.val) ≠ []) then s.wr p DMC_PM_STATE 3 else s)

/-- The channel is active again, its PLL locked, after ZQ calibration and one training step (R122). A retraining that was in progress
takes the step as its next one; the step passes (log entry 134). -/
def State.srLeave (s : State) (n : Nat) : State :=
  let p := pg .dmc n
  let s := s.dmcLock n true
  let s := if s.on p DMC_TRN_BUSY then s.trainStep n true else s
  (s.wr p DMC_PM_STATE 0).emit p 0x3802 []

/-- R122 SR_EXIT: tokens are given again. -/
def execSrExit (n : Fin 8) (s : State) : Host.Outcome State Fault Refusal :=
  let p := pg .dmc n.val
  done (if s.rd p DMC_PM_STATE = 3 then s.srLeave n.val else s)

/-- The scrubber examines one word: corrected and written back, or recorded and left (R124). DESIGN CHOICE: DMC_EINFO.MASTER of an error
that the scrubber found holds 0 (log entry 155). -/
def State.scrubWord (s : State) (n wd : Nat) : State :=
  let syn := s.wordSyn wd
  if syn = 0 then s
  else match correctWord (s.dram.readLE (wd * 8) 8) syn with
    | some v => (s.dmcCe n (wd * 8) 0 syn 0 (wd % 8) true).dramFixWord wd v
    | none => s.dmcUe n 1 (wd * 8) 0 syn (wd % 8) true

/-- The scrubber examines the metadata of one line (R124); MASTER as for a word (log entry 155). -/
def State.scrubMeta (s : State) (n line : Nat) : State :=
  let syn := s.metaSyn line
  if syn = 0 then s
  else match s.metaOf line with
    | some m => (s.dmcCe n (line * 64) 0 syn 1 0 true).setMeta m line
    | none => s.dmcMetaUe n (line * 64) 0 syn true

/-- The pass of channel `n`'s scrubber has run past its period (R124). -/
def State.scrubLate (s : State) (n : Nat) : Bool :=
  decide (ns (max (s.rd (pg .dmc n) DMC_SCRUB_PERIOD) 1 * 3600 * 10 ^ 9) < s.time.run - (s.dm n).scrubFrom)

/-- DMC_SCRUB.BEHIND as it reads: once the pass has run past its period, until it ends (R124). -/
def State.scrubBehind (s : State) (n : Nat) : Bool :=
  s.on (pg .dmc n) DMC_SCRUB_BEHIND || (decide (n ∈ s.channels) && s.on (pg .dmc n) DMC_SCRUB_EN && s.scrubLate n)

/-- The scrub pass moves on by one line; a pass that ends begins the next (R124). -/
def State.scrubAdvance (s : State) (n : Nat) : State :=
  let p := pg .dmc n
  let d := s.dm n
  let c := d.scrubAt + 64
  if 2 ^ 30 * s.chanGiB ≤ c then
    ((s.setDm n { d with scrubAt := 0, scrubFrom := s.time.run }).wr p DMC_SCRUB_POS_MIB 0).wb p DMC_SCRUB_BEHIND false
  else
    let late := s.scrubLate n
    let s := (s.setDm n { d with scrubAt := c }).wr p DMC_SCRUB_POS_MIB (c / 2 ^ 20)
    if late then s.wb p DMC_SCRUB_BEHIND true else s

/-- R124 SCRUB_READ: only with EN 1, in the active state, and when no other request is a candidate. Its row stays open after it
(R116). -/
def execScrubRead (n : Fin 8) (s : State) : Host.Outcome State Fault Refusal :=
  let p := pg .dmc n.val
  done (if !s.on p DMC_SCRUB_EN ∨ !s.dmcPll n.val ∨ s.rd p DMC_PM_STATE ≠ 0 ∨ s.dmcCandidates n.val ≠ [] ∨ n.val ∉ s.channels then s
    else
      let line := s.offsetOf n.val (s.dm n.val).scrubAt / 64
      let s := (upTo 8).foldl (fun s i => s.scrubWord n.val (line * 8 + i)) s
      ((s.scrubMeta n.val line).openRows n.val (s.dm n.val).scrubAt 64).scrubAdvance n.val)

/-! ### The QoS slot table -/

/-- Set an entry of a copy of the slot table. -/
def State.setSlot (s : State) (n : Nat) (copyB : Bool) (i v : Nat) : State :=
  let p := pg .dmc n
  if copyB then s.setFields p [DMC_SLOTB_MASTER i, DMC_SLOTB_VALID i] v
  else s.setFields p [DMC_SLOTA_MASTER i, DMC_SLOTA_VALID i] v

/-- R119 QOS_SLOT_WRITE: at once, or at the next slot boundary for the active copy's slot in use. -/
def execQosSlotWrite (_w : Writer) (n : Fin 8) (copyB : Bool) (slot : Fin 64) (v : Word) (s : State) :
    Host.Outcome State Fault Refusal :=
  let p := pg .dmc n.val
  done (if s.on p DMC_SLOT_CTRL_ACTIVE = copyB ∧ s.rd p DMC_SLOT_CTRL_CUR = slot.val then
      s.setDm n.val { s.dm n.val with deferred := Store.put slot.val v.toNat (s.dm n.val).deferred }
    else s.setSlot n.val copyB slot.val v.toNat)

/-- R118 QOS_SLOT_SWAP_REQUEST. -/
def execQosSlotSwapRequest (_w : Writer) (n : Fin 8) (s : State) : Host.Outcome State Fault Refusal :=
  done (s.wb (pg .dmc n.val) DMC_SLOT_CTRL_SWAP true)

/-- R119 QOS_SLOT_BOUNDARY: deferred writes take effect, the next slot begins, and at the wrap a requested swap makes the
other copy active with a SLOT_SWAP record (R118). -/
def execQosSlotBoundary (n : Fin 8) (s : State) : Host.Outcome State Fault Refusal :=
  let p := pg .dmc n.val
  let act := s.on p DMC_SLOT_CTRL_ACTIVE
  let s := (s.dm n.val).deferred.foldl (fun s e => s.setSlot n.val act e.1 e.2) s
  let s := s.setDm n.val { s.dm n.val with deferred := [] }
  let next := (s.rd p DMC_SLOT_CTRL_CUR + 1) % 64
  let s := s.wr p DMC_SLOT_CTRL_CUR next
  done (if next = 0 ∧ s.on p DMC_SLOT_CTRL_SWAP then
      ((s.wb p DMC_SLOT_CTRL_ACTIVE (!act)).wb p DMC_SLOT_CTRL_SWAP false).emit p 0x3001 [b2n (!act)]
    else s)

end Sys2Proof.Machine
end

