-- ==== Sys2Proof/Machine/Loft.lean ====
section
/-! DEFINITION. The loft: its words' checks, its partitions (R128 to R132). -/

namespace Sys2Proof.Machine

/-- Loft bank `k` is fenced (R35). -/
def State.bankFenced (s : State) (k : Nat) : Bool :=
  if k < 32 then bit (s.rd 0 SYS_FENCE_E_LOFT_LO) k else bit (s.rd 0 SYS_FENCE_F_LOFT_HI) (k - 32)

/-- Some bank of the loft bytes `[off, off + len)` is fenced. -/
def State.areaFenced (s : State) (off len : Nat) : Bool :=
  decide (0 < len) && (upTo 48).any fun k =>
    decide (off / 2 ^ 20 ≤ k) && decide (k ≤ (off + len - 1) / 2 ^ 20) && s.bankFenced k

/-- Capture the first loft error since VALID was last cleared (R131). -/
def State.loftCapture (s : State) (kind wd master syn : Nat) : State :=
  let p := pg .loft 0
  if s.on p LOFT_EINFO_VALID then s
  else
    let s := (s.wr p LOFT_EADDR_OFFSET (wd * 8)).wr p LOFT_EINFO_KIND kind
    ((s.wr p LOFT_EINFO_MASTER master).wr p LOFT_EINFO_SYNDROME syn).wb p LOFT_EINFO_VALID true

/-- Examine one loft word (R129): a correctable error is counted and written back, an uncorrectable one counted and
reported. True when the word can be delivered. Master 0x1F is the scrubber (R132). -/
def State.loftWord (s : State) (master wd : Nat) : Bool × State :=
  let p := pg .loft 0
  let syn := Store.getD 0 wd s.loftSyn
  let data := le (wd * 8) 4 ++ [0, master, syn]
  if syn = 0 then (true, s)
  else match correctWord (s.loft.readLE (wd * 8) 8) syn with
    | some v =>
      let s := ((s.cnt p LOFT_CE_COUNT_COUNT 1).loftCapture 0 wd master syn).emitLimited p p 1 0x0001 data
      (true, { s with loft := s.loft.writeLE (wd * 8) v 8, loftSyn := Store.del wd s.loftSyn })
    | none => (false, ((s.cnt p LOFT_UE_COUNT_COUNT 1).loftCapture 1 wd master syn).emit p 0x0801 data)

/-- Examine loft words in turn; true when all can be delivered. -/
def State.loftWords (s : State) (master : Nat) : List Nat → Bool × State
  | [] => (true, s)
  | wd :: t =>
    let r := s.loftWord master wd
    let r' := r.2.loftWords master t
    (r.1 && r'.1, r'.2)

/-- Master `m` reads `len` bytes of the loft at `off`: the words are examined as R129 says. The bytes themselves are those of
`State.loftByte`. -/
def State.loftExamine (s : State) (m off len : Nat) : State :=
  if s.loftSyn.isEmpty then s else (s.loftWords m (wordsOf off len)).2

/-- The check byte that the loft stores with word `wd` (R129): the difference from the computed one is the syndrome kept. -/
def State.loftCheck (s : State) (wd : Nat) : Nat := wordCheck (s.loft.readLE (wd * 8) 8) (wd * 8) ^^^ Store.getD 0 wd s.loftSyn

/-- Perform a part at the loft (R128, R129): response code, data. The words a write covers in part are examined as a read
would; a whole word takes a fresh check byte. DESIGN CHOICE: a write part with an uncorrectable word to merge with writes none of its
words (log entry 135). -/
def State.loftPerform (s : State) (x : Part) : Nat × List Nat × State :=
  let off := x.addr - loftBase
  let merge := (wordsOf off x.len).filter fun wd => decide (wd * 8 < off) || decide (off + x.len < wd * 8 + 8)
  match x.kind with
  | .write =>
    let r := s.loftWords x.master merge
    if r.1 then (0, [], r.2.loftPut off (padTo x.len x.data)) else (1, [], r.2)
  | .atomic =>
    let r := s.loftWords x.master (wordsOf off x.len)
    if r.1 then (0, r.2.loft.bytes off x.len, r.2.loftPut off (padTo x.len x.data)) else (1, [], r.2)
  | _ =>
    let r := s.loftWords x.master (wordsOf off x.len)
    if r.1 then (0, r.2.loft.bytes off x.len, r.2) else (1, List.replicate x.len 0, r.2)

/-- A loft port serves a queued part, which frees its slot (R128). -/
def State.loftServe (s : State) (x : Part) : State :=
  let s := { s with fab := { s.fab with queued := dropPart s.fab.queued x } }
  let r := s.perRuns (fun s y => let q := s.loftPerform y; (q.1, 0, q.2.1, q.2.2)) x
  r.2.2.2.answer x r.1 0 r.2.2.1

/-- R128 LOFT_SERVE: the port serves the oldest part in its queue, the emergency requester's ahead, which frees its slot. -/
def execLoftServe (port : Fin 4) (s : State) : Host.Outcome State Fault Refusal :=
  done (match atTarget s.fab.queued (8 + port.val) with
    | [] => s
    | x :: _ => s.loftServe x)

/-- R129 LOFT_SCRUB: one word, while EN is 1 and the fabric clock runs. -/
def execLoftScrub (word : Fin 6291456) (s : State) : Host.Outcome State Fault Refusal :=
  done (if s.on (pg .loft 0) LOFT_SCRUB_EN ∧ !s.time.coarse then (s.loftWord 0x1F word.val).2 else s)

/-! ### Partitions -/

/-- Partition `i` is enabled. -/
def State.partOn (s : State) (i : Nat) : Bool := s.on (pg .loft 0) (LOFT_PART_EN i)

/-- The enabled partition of a hardware use, with the least size in bytes its block needs (R130). -/
def State.partOfUse (s : State) (use : Nat) : Option Nat :=
  (upTo 16).find? fun i => s.partOn i && decide (s.rd (pg .loft 0) (LOFT_PART_USE i) = use)

/-- First byte and size in bytes of partition `i`. -/
def State.partArea (s : State) (i : Nat) : Nat × Nat :=
  (65536 * s.rd (pg .loft 0) (LOFT_PART_BASE i), 65536 * s.rd (pg .loft 0) (LOFT_PART_SIZE i))

/-- A partition of the use is enabled and holds at least `min` bytes (R130). -/
def State.hasPart (s : State) (use min : Nat) : Bool :=
  match s.partOfUse use with
  | some i => decide (min ≤ (s.partArea i).2)
  | none => false

/-- Why setting EN of partition `p` with these values is refused (R130): none when it is not, else whether a fenced bank is
the reason. -/
def State.partRefusal (s : State) (p base size use : Nat) : Option Bool :=
  let others := (upTo 16).filter fun i => decide (i ≠ p) && s.partOn i
  let pl := pg .loft 0
  if size = 0 ∨ 768 < base + size then some false
  else if s.areaFenced (65536 * base) (65536 * size) then some true
  else if others.any (fun i => decide (base < s.rd pl (LOFT_PART_BASE i) + s.rd pl (LOFT_PART_SIZE i)) &&
      decide (s.rd pl (LOFT_PART_BASE i) < base + size)) then some false
  else if 1 ≤ use ∧ use ≤ 4 ∧ others.any (fun i => decide (s.rd pl (LOFT_PART_USE i) = use)) then some false
  else none

/-- The fields of LOFT_PART that its lock freezes. -/
def partFields (p : Nat) : List Fld := [LOFT_PART_BASE p, LOFT_PART_SIZE p, LOFT_PART_USE p, LOFT_PART_EN p]

/-- A write of LOFT_PART `p` to an unlocked entry (R130, R487). No EN is accepted before SYS_CAPS is final (R44, R489). -/
def State.partWrite (s : State) (w : Writer) (p v : Nat) : State :=
  let pl := pg .loft 0
  let en := fieldOf v (LOFT_PART_EN p) = 1
  if s.partOn p then s.wb pl (LOFT_PART_EN p) en
  else
    let early := decide (s.capsWord = 0)
    let s := s.setFields pl [LOFT_PART_BASE p, LOFT_PART_SIZE p, LOFT_PART_USE p] v
    if !en || early then s
    else match s.partRefusal p (s.rd pl (LOFT_PART_BASE p)) (s.rd pl (LOFT_PART_SIZE p)) (s.rd pl (LOFT_PART_USE p)) with
      | none => s.wb pl (LOFT_PART_EN p) true
      | some true => s.enableFenced 0x0800 0 0xFFFF w.fid
      | some false => s

/-- R130 LOFT_PART_WRITE, with the entry's LOCK and the page's (R45, R131). DESIGN CHOICE: the write of other values to a locked entry
is recorded whether its EN is 1 or 0 (log entry 157). -/
def execLoftPartWrite (w : Writer) (p : Fin 16) (v : Word) (s : State) : Host.Outcome State Fault Refusal :=
  let pl := pg .loft 0
  let s' :=
    if s.on pl HDR_CTRL_LOCK || s.on pl (LOFT_PART_LOCK p.val) then
      if s.differs pl (partFields p.val) v.toNat then s.lockedWrite pl (0x140 + 4 * p.val) 0xFFFF v.toNat w else s
    else s.partWrite w p.val v.toNat
  done (if bit v.toNat 31 then s'.wb pl (LOFT_PART_LOCK p.val) true else s')

end Sys2Proof.Machine
end

