-- ==== Sys2Proof/Machine/Fabric.lean ====
section
/-! DEFINITION. The fabric: issue, splitting and routing of requests, arbitration with its guards, responses (R63 to R78, R84,
R85, R143, R144, R458). -/

namespace Sys2Proof.Machine

/-- Tags master `m` holds (R67). -/
def State.tagsHeld (s : State) (m : Nat) : Nat := (s.fab.reqs.filter fun r => decide (r.master = m)).length

/-- Shared tags in use: what each master holds above its four reserved ones (R67). -/
def State.sharedTags (s : State) : Nat := (upTo 32).foldl (fun t m => t + (s.tagsHeld m - 4)) 0

/-- Master `m` may be given a tag: below its limit, and from its four or from the shared ones (R67, R79). A drover (masters 2 to 9) asks
for none until it runs (R443). -/
def State.mayIssue (s : State) (m : Nat) : Bool :=
  (decide (m < 2) || decide (9 < m) || s.drvRuns) && decide (s.tagsHeld m < max 4 (s.rd (pg .xb 0) (XB_TAGS_LIMIT m))) &&
    (decide (s.tagsHeld m < 4) || decide (s.sharedTags < 896))

/-- The lowest tag not in flight. -/
def State.freeTag (s : State) : Option Nat :=
  if s.fab.reqs.isEmpty then some 0 else (upTo 1024).find? fun t => s.fab.reqs.all fun r => decide (r.tag ≠ t)

/-- A BAR0 offset is decoded for master `m`: a page or window row of R38, but for the pages of fenced units
(R36, R37, R40). In the stabled state and until its end BAR0 decodes the PWR page alone (R445); the MSS, on its own clock,
still reaches its pages. In ROM recovery mode the host reaches the SYS, MSS, DBK and UPD pages alone (R435). -/
def State.regDecoded (s : State) (m a : Nat) : Bool :=
  if m = 0 ∧ s.mss.hold = 3 then false
  else if m ≠ 1 ∧ 2 ≤ s.pwrState ∧ a / 0x1000 ≠ 3 then false
  else if m = 0 ∧ s.on (pg .mss 0) MSS_BOOT_RECOVERY ∧ a / 0x1000 ∉ [0, 5, 6, 8] then false
  else match pageOf a with
  | some (b, i) => !s.pageFenced b i
  | none => (winOf a).isSome

/-- Where a fabric address goes (R458, R100, R128, R144): the target, the address as the target sees it, and the tag an
aperture gives the access. Target 15 is the default target (R72). -/
def State.route (s : State) (m a : Nat) : Nat × Nat × Option Tag :=
  let dram := fun (x : Nat) (t : Option Tag) =>
    match (if x < s.dramEnd then s.chanOf x else none) with
    | some c => (c.1, dramBase + x, t)
    | none => (15, a, none)
  if a < 0x4000000 then if s.regDecoded m a then (12, a, none) else (15, a, none)
  else if a < 0x4080000 then (14, a, none)
  else if a < loftBase then (15, a, none)
  else if a < loftBase + 0x3000000 then
    let k := (a - loftBase) / 2 ^ 20
    if s.bankFenced k then (15, a, none) else (8 + k % 4, a, none)
  else if a < 0x100000000 then (15, a, none)
  else if a < 0x1000000000 then (13, a, none)
  else if a < 0x1400000000 then
    let i := (a - 0x1000000000) / 2 ^ 30
    let off := (a - 0x1000000000) % 2 ^ 30
    let p := pg .bay 0
    let n := s.rd p (BAY_APT_BAY i)
    if s.on p (BAY_APT_EN i) && decide (off < s.baySize n) then
      dram (s.bayAddr n off) (some (s.bayTag n (s.rd p (BAY_APT_GEN i)) (s.rd (bayE n) BAYD_FSEQ_FSEQ) off false))
    else (15, a, none)
  else if a < dramBase then (15, a, none)
  else if a < 0x4000000000 then dram (a - dramBase) none
  else (15, a, none)

/-- A part arrives at its target port, where it waits (R70); one that decodes to nothing waits at the default target (R72). `deny`: a
request of the locked debug port, all of which goes there (R484). -/
def State.placePart (s : State) (deny : Bool) (x : Part) : State :=
  let r := if deny then (15, x.addr, none) else s.route x.master x.addr
  let p := pg .xb 0
  let (hold, s) := s.perturb p 1 (some x.master)
  let y := { x with target := r.1, addr := r.2.1, mtag := if x.mtag.isSome then x.mtag else r.2.2,
                    holdTo := if hold then s.time.cyc + s.rd p PERTURB_AMOUNT else 0 }
  { s with fab := { s.fab with waiting := s.fab.waiting ++ [y] } }

/-- The parts of a request arrive in ascending address. -/
def State.placeParts (s : State) (deny : Bool) (base : Part) (addr : Nat) (data : List Nat) : List (Nat × Nat) → State
  | [] => s
  | x :: t =>
    let y := { base with addr := x.1, len := x.2, off := x.1 - addr, data := (data.drop (x.1 - addr)).take x.2 }
    (s.placePart deny y).placeParts deny base addr data t

/-! ### Arbitration -/

/-- The priority level of a master at a target port (R64, R74): its class's XB_PRIO; the debug port arbitrates in class CT
(R484). -/
def State.level (s : State) (t m : Nat) : Nat :=
  let p := pg .xb 0
  if 22 ≤ m ∧ m ≤ 25 then s.rd p (XB_PRIO_RT t)
  else if 10 ≤ m ∧ m ≤ 21 then s.rd p (XB_PRIO_ST t)
  else if 26 ≤ m ∧ m ≤ 29 then s.rd p (XB_PRIO_NW t)
  else s.rd p (XB_PRIO_CT t)

/-- XB_AGE.LIMIT; 0 means 256 (R79). -/
def State.ageLimit (s : State) : Nat :=
  let v := s.rd (pg .xb 0) XB_AGE_LIMIT
  if v = 0 then 256 else v

/-- The level of a waiting part: boosted above all four classes once it has lost LIMIT decisions (R76). -/
def State.partLevel (s : State) (x : Part) : Nat := if s.ageLimit ≤ x.lost then 4 else s.level x.target x.master

/-- The rotation order of a target port; it starts in ascending master number (R74). -/
def State.rotation (s : State) (t : Nat) : List Nat := (Store.find t s.fab.rot).getD (upTo 32)

/-- The winner among the waiting parts of a target (R74): the highest level present, then the rotation's first master, then
that master's oldest part. -/
def State.arbWinner (s : State) (t : Nat) (c : List Part) : Option Part :=
  let top := c.foldl (fun u x => max u (s.partLevel x)) 0
  let c := c.filter fun x => decide (s.partLevel x = top)
  match (s.rotation t).find? (fun m => c.any fun x => decide (x.master = m)) with
  | some m => c.find? fun x => decide (x.master = m)
  | none => none

/-- Note one denied part in its request (R85). -/
def State.noteDenial (s : State) (x : Part) (g region fault : Nat) : State :=
  let gen := s.rd (pg .grd g) GRD_FENCE_GEN
  let upd := fun (r : Req) =>
    match r.denied.find? (fun d => decide (d.guard = g)) with
    | some d =>
      let d' := if x.addr < d.addr then { d with addr := x.addr, region := region, fault := fault, gen := gen } else d
      { r with denied := { d' with parts := d.parts + 1 } :: r.denied.filter fun e => decide (e.guard ≠ g) }
    | none => { r with denied := ⟨g, x.addr, region, fault, 1, gen⟩ :: r.denied }
  { s with fab := { s.fab with reqs := mapWhere (fun r => decide (r.tag = x.tag)) upd s.fab.reqs } }

/-- Once no part of the request still waits for guard `g`, its denied parts make one violation (R85). -/
def State.closeDenial (s : State) (x : Part) (g : Nat) : State :=
  if s.fab.waiting.any (fun y => decide (y.tag = x.tag) && decide (guardOf y.target = some g)) then s
  else match s.fab.reqs.find? (fun r => decide (r.tag = x.tag)) with
    | none => s
    | some r =>
      match r.denied.find? (fun d => decide (d.guard = g)) with
      | none => s
      | some d =>
        let upd := fun (r : Req) => { r with denied := r.denied.filter fun e => decide (e.guard ≠ g) }
        ({ s with fab := { s.fab with reqs := mapWhere (fun r => decide (r.tag = x.tag)) upd s.fab.reqs } }).guardViolate
          g x.master x.fid x.kind d.addr d.region d.fault d.parts d.gen

/-- Judge a part in its check cycle and let it take its slot, or answer it with GRDERR (R80, R82). -/
def State.grantPart (s : State) (x : Part) : State :=
  let s := { s with fab := { s.fab with waiting := dropPart s.fab.waiting x } }
  match guardOf x.target with
  | none => { s with fab := { s.fab with queued := s.fab.queued ++ [x] } }
  | some g =>
    let y := { x with gen := s.rd (pg .grd g) GRD_FENCE_GEN, lost := 0 }
    match s.guardJudge g x.kind x.master x.addr with
    | none => ({ s with fab := { s.fab with queued := s.fab.queued ++ [y] } }).closeDenial x g
    | some (r, f) => ((s.noteDenial x g r f).answer x 3 0 []).closeDenial x g

/-- Backpressure holds every grant at a target port (R481). -/
def State.portBlocked (s : State) (t : Nat) : Bool := decide (s.time.cyc < Store.getD 0 t s.fab.blocked)

/-- Target port `t` is parked on master `m` (R78). -/
def State.parkedOn (s : State) (t m : Nat) : Bool :=
  s.on (pg .xb 0) (XB_PARK_EN t) && decide (s.rd (pg .xb 0) (XB_PARK_MASTER t) = m)

/-- A queue slot that the part may take is free: the port's reserved one for an emergency part (R68, R77). -/
def State.slotFree (s : State) (x : Part) : Bool :=
  if x.emerg then !s.fab.queued.any fun y => decide (y.target = x.target) && y.emerg
  else decide (s.slotsUsed x.target < slotsOf x.target)

/-- The parts of the request under `tag` that reach ports with no request waiting, parked on its master, are granted without an
arbitration (R78). `idle`: the ports that had none. DESIGN CHOICE: every part of that one request is so granted, and the rotation stays
as it was (log entry 151). -/
def State.parkGrant (s : State) (tag : Nat) (idle : List Nat) : State :=
  (s.fab.waiting.filter fun x => decide (x.tag = tag) && idle.contains x.target && decide (x.holdTo ≤ s.time.cyc)).foldl
    (fun s x =>
      if s.parkedOn x.target x.master && !s.portBlocked x.target && s.slotFree x
      then s.grantPart x else s) s

/-- A master issues a request (R63, R67, R70): it takes a tag and its parts go to their targets. A master that may have no
tag issues nothing, and nothing issues a request that the fabric does not carry. `emerg`: the debug port's emergency right (R77). -/
def State.fabricIssueAt (s : State) (deny : Bool) (m fid : Nat) (k : AccKind) (addr len : Nat) (data : List Nat) (tag : Option Tag)
    (emerg : Bool) : State :=
  match (if s.mayIssue m && reqShape k addr len then s.freeTag else none) with
  | none => s
  | some t =>
    let l := if k = .atomic then [(addr, len)] else fabricPieces addr len
    let req : Req := ⟨t, m, fid, k, addr, len, l.length, 0, 0, List.replicate len 0, []⟩
    let idle := (upTo 16).filter fun g => s.fab.waiting.all fun x => decide (x.target ≠ g)
    let s := { s with fab := { s.fab with reqs := s.fab.reqs ++ [req] } }
    let s := if k = .write then s.cvuSnoop m addr (padTo len data) else s
    let base : Part := ⟨t, m, fid, k, addr, len, 0, [], tag, 15, 0, 0, 0, 0, none, emerg⟩
    (s.placeParts deny base addr (padTo len data) l).parkGrant t idle

/-- A request that the address map routes. -/
def State.fabricIssue (s : State) (m fid : Nat) (k : AccKind) (addr len : Nat) (data : List Nat) (tag : Option Tag)
    (emerg : Bool) : State := s.fabricIssueAt false m fid k addr len data tag emerg

/-- R63 FABRIC_REQUEST. `data`: a write's bytes, `noByte` for one whose byte enable is 0 (R320). -/
def execFabricRequest (m : Fin 32) (fid : BitVec 16) (k : AccKind) (addr : BitVec 40) (len : Nat) (data : List Nat)
    (tag : Option Tag) (s : State) : Host.Outcome State Fault Refusal :=
  done (s.fabricIssue m.val fid.toNat k addr.toNat len data tag false)

/-- The decision's losers count it (R76) and the winner's master moves to last place (R74). -/
def State.decisionDone (s : State) (t : Nat) (c : List Part) (x : Part) : State :=
  let rot := (s.rotation t).filter (fun m => decide (m ≠ x.master)) ++ [x.master]
  let lose := mapWhere (fun y => decide (y ≠ x) && c.contains y) (fun (y : Part) => { y with lost := y.lost + 1 }) s.fab.waiting
  { s with fab := { s.fab with waiting := lose, rot := Store.put t rot s.fab.rot } }

/-- The waiting parts of a list that may be granted: none that a perturbation holds, and none behind a held one of its master, whose
requests keep their order (R69, R481). `held`: masters with a held part. -/
def passable (cyc : Nat) : List Nat → List Part → List Part
  | _, [] => []
  | held, x :: t =>
    if held.contains x.master then passable cyc held t
    else if cyc < x.holdTo then passable cyc (x.master :: held) t
    else x :: passable cyc held t

/-- The parts that wait at target `t` and may be granted. -/
def State.readyParts (s : State) (t : Nat) : List Part :=
  passable s.time.cyc [] (s.fab.waiting.filter fun x => decide (x.target = t))

/-- The emergency part that may enter the reserved slot of target `t` (R77). -/
def State.emergPart (s : State) (t : Nat) : Option Part :=
  if s.fab.queued.any (fun y => decide (y.target = t) && y.emerg) then none else (s.readyParts t).find? fun x => x.emerg

/-- A grant at target `t` (R68): the debug port's emergency part enters its reserved slot without arbitration (R77); otherwise, with a
free slot, the winner is judged by the guard and takes it. With no free slot, or during backpressure (R481), the arbiter grants
nothing. DESIGN CHOICE: a winner that the guard denies has won too: it moves to last place and its losers count the decision (log entry
152). `stall`: a perturbation holds the port; without it, the event is only considered. -/
def State.slotGrant (s : State) (t : Nat) (stall : Bool) : State :=
  match s.emergPart t with
  | some x => s.grantPart x
  | none =>
    let here := (s.readyParts t).filter fun x => !x.emerg
    match (if s.portBlocked t then none else s.arbWinner t here) with
    | none => s
    | some x =>
      let p := pg .xb 0
      let (hit, s) := s.perturb p 2 (some t)
      if hit && stall then
        { s with fab := { s.fab with blocked := Store.put t (s.time.cyc + s.rd p PERTURB_AMOUNT) s.fab.blocked } }
      else if slotsOf t ≤ s.slotsUsed t then s
      else (s.decisionDone t here x).grantPart x

/-- R68 SLOT_GRANT. -/
def execSlotGrant (t : Fin 16) (s : State) : Host.Outcome State Fault Refusal := done (s.slotGrant t.val true)

/-! ### Responses -/

/-- Host memory's bus address of a fabric address of target 13 (R458). -/
def State.busAddr (s : State) (a : Nat) : Nat :=
  s.rd64 (pg .pci 0) PCI_OUT_BASE_LO_ADDR PCI_OUT_BASE_HI_ADDR + (a - 0x100000000)

/-- Perform a part on a plain byte memory: read, write, or an atomic that stores the result its request carries. -/
def memPerform (m : Mem) (a : Nat) (x : Part) : List Nat × Mem :=
  match x.kind with
  | .write => ([], m.putBytes a (padTo x.len x.data))
  | .atomic => (m.bytes a x.len, m.putBytes a (padTo x.len x.data))
  | _ => (m.bytes a x.len, m)

/-- Perform a part at host memory or MSS SRAM, in the queue of target 13 or 14. Outbound accesses need the link up: else the
access cannot be sent, and TGTERR is returned (R460). -/
def State.serveOther (s : State) (x : Part) : State :=
  let s := { s with fab := { s.fab with queued := dropPart s.fab.queued x } }
  let r := s.perRuns (fun s y =>
    if x.target = 14 then
      let r := memPerform s.sram (y.addr - 0x4000000) y
      (0, 0, r.1, { s with sram := r.2 })
    else
      let r := memPerform s.host (s.busAddr y.addr) y
      (0, 0, r.1, { s with host := r.2 })) x
  r.2.2.2.answer x 0 0 r.2.2.1

/-- The writer that a part's master is to register space; the DMA engine acts for the host (R462). -/
def writerOf (m : Nat) : Option Writer :=
  if m = 0 ∨ m = 30 then some .host else if m = 1 then some .mss else if m < 10 then some (.drover (Fin.ofNat 8 (m - 2)))
  else if m = 29 then some .yoke else if m = 31 then some .debug else none

/-- The default target performs nothing: DECERR, zeros, and one DECODE_MISS record (R72); an attempt to enable a fenced unit is
recorded as one (R36). -/
def State.serveDefault (s : State) (x : Part) : State :=
  let s := (s.answer x 2 0 []).emit (pg .xb 0) 0x0001 (le x.addr 5 ++ [x.master] ++ le x.fid 2 ++ [x.kind.code])
  match (if x.kind = .write then writerOf x.master else none) with
  | some w => s.fencedTry w x.addr (ofLE ((x.data.take 4).map (· % noByte)))
  | none => s

/-- Serve a queued part of host memory, MSS SRAM or the default target. A read over a PCI Express link that is down waits for its timeout,
and a write cannot be sent (R460). -/
def State.serveOuter (s : State) (x : Part) : State :=
  if x.target = 13 ∧ !s.on (pg .pci 0) PCI_LINK_UP then
    if x.kind = .write then ({ s with fab := { s.fab with queued := dropPart s.fab.queued x } }).answer x 1 0 [] else s
  else if x.target = 15 then { s with fab := { s.fab with queued := dropPart s.fab.queued x } }.serveDefault x
  else s.serveOther x

/-- The request's response: delivered to its master with its code, error detail and data, the tag freed (R67, R71, R109); what the
master does with an error follows (R73). A response is only given when every part has been answered. -/
def State.respond (s : State) (tag : Nat) : State :=
  match s.fab.reqs.find? (fun r => decide (r.tag = tag)) with
  | none => s
  | some r =>
    if r.left ≠ 0 then s
    else
      let data := if r.kind = .write then [] else r.data
      let s := { s with fab := { s.fab with reqs := s.fab.reqs.filter fun q => decide (q.tag ≠ tag) } }
      let s := s.emitOut (.response r.master tag r.code r.detail data)
      if r.code = 0 then s else s.accessFailed r.master r.kind r.code

end Sys2Proof.Machine
end

