-- ==== Sys2Proof/Machine/Hw.lean ====
section
/-! DEFINITION. Whole DRAM accesses by the hardware masters: cut into requests, split, guarded, and passed through the channels' books
(R63, R70, R72, R80, R85, R112, R113, R117, R122, R143). -/

namespace Sys2Proof.Machine

/-- The requests of an access to `[a, a + len)`: at most 16 beats of 64 bytes each, none across a 4 KiB boundary (R63). DESIGN CHOICE:
hardware cuts its accesses at every 1 KiB boundary (log entry 136). -/
def requestsOf (a len : Nat) : List (Nat × Nat) :=
  if len = 0 then []
  else (upTo ((a + len - 1) / 1024 - a / 1024 + 1)).map fun i =>
    let lo := max a ((a / 1024 + i) * 1024)
    (lo, min (a + len) ((a / 1024 + i + 1) * 1024) - lo)

/-- What the guard of its channel says of a piece at a DRAM offset (R80): the guard, the region and the fault where it denies. -/
def State.pieceDenied (s : State) (m : Nat) (k : AccKind) (a : Nat) : Option (Nat × Nat × Nat) :=
  match s.chanOf a with
  | some c => (s.guardJudge c.1 k m (dramBase + a)).map fun r => (c.1, r.1, r.2)
  | none => none

/-- Record the violations of a request, one at each guard that denies pieces of it: the lowest-addressed piece, and how many (R85). -/
def State.guardPieces (s : State) (m fid : Nat) (k : AccKind) (l : List (Nat × Nat)) : State :=
  let bad := l.filterMap fun x => (s.pieceDenied m k x.1).map fun d => (x.1, d)
  (upTo 8).foldl (fun s g =>
    let mine := bad.filter fun b => decide (b.2.1 = g)
    match mine with
    | [] => s
    | (a, _, r, f) :: _ => s.guardViolate g m fid k (dramBase + a) r f mine.length (s.rd (pg .grd g) GRD_FENCE_GEN)) s

/-! ### The target ports run on -/

/-- Parts at target `t`: waiting, queued, or holding a token. -/
def State.partsAt (s : State) (t : Nat) : Nat :=
  ((s.fab.waiting ++ s.fab.queued ++ s.fab.serving).filter fun x => decide (x.target = t)).length

/-- The holds and the backpressure of R481 at target `t` have run out. -/
def State.holdsOver (s : State) (t : Nat) : State :=
  { s with fab := { s.fab with blocked := Store.del t s.fab.blocked,
                               waiting := mapWhere (fun x => decide (x.target = t)) (fun x => { x with holdTo := 0 }) s.fab.waiting } }

/-- A turn of target `t`: a grant (R68), then at a DRAM channel a token (R113) and a command (R116), at a loft port and at targets 13 to 15
the oldest queued part (R77, R128, R460). Register space is served by its own row. -/
def State.portTurn (s : State) (t : Nat) : State :=
  let s := s.slotGrant t false
  if t < 8 then (((s.tokenTake t).initServing t).commandIssue t)
  else if t = 12 then s
  else match atTarget s.fab.queued t with
    | [] => s
    | x :: _ => if t < 12 then s.loftServe x else s.serveOuter x

/-- `k` turns of target `t`, until no part is left there. -/
def State.portTurns (s : State) (t : Nat) : Nat → State
  | 0 => s
  | k + 1 => if s.partsAt t = 0 then s else (s.portTurn t).portTurns t k

/-- A channel that is not active becomes active for a request that arrives: an entry in progress completes, and the exit follows
(R122). -/
def State.chanWake (s : State) (n : Nat) : State :=
  match s.rd (pg .dmc n) DMC_PM_STATE with
  | 0 => s
  | 1 => ((s.tokensDone n).srEnter n).srLeave n
  | _ => s.srLeave n

/-- The parts at target `t` are granted, queued and served by the port's own rules until none is left: what is at a port is served ahead
of the hardware access that arrives there after it (R68, R69, R113, R116, R117). DESIGN CHOICE: it takes no time (log entry 136). -/
def State.portRun (s : State) (t : Nat) : State :=
  if s.partsAt t = 0 then s
  else
    let s := s.holdsOver t
    (if t < 8 then s.chanWake t else s).portTurns t (s.partsAt t + 2)

/-- Answer the requests of master `m` that are complete, the oldest first. -/
def State.respondAll (s : State) (m : Nat) : State :=
  (s.fab.reqs.filter fun r => decide (r.master = m) && decide (r.left = 0)).foldl (fun s r => s.respond r.tag) s

/-- Hardware master `m` can be given a tag for its next request (R67): where it has none to take, its requests in flight complete
first. -/
def State.tagReady (s : State) (m : Nat) : State :=
  if s.mayIssue m && s.freeTag.isSome then s
  else (([0, 1, 2, 3, 4, 5, 6, 7, 8, 9, 10, 11, 13, 14, 15] : List Nat).foldl State.portRun s).respondAll m

/-- A piece of a hardware master's access passes the books of its channel: the channel is active, what is at the port is served, its own
lines are initialised, the rows it needs are open. DESIGN CHOICE: it takes its slot and its token and returns them in one cycle (log entry
136). -/
def State.hwEnter (s : State) (m a len : Nat) : State :=
  match s.chanOf a with
  | none => s
  | some (n, c) =>
    let s := ((s.perturb (pg .dmc n) 1 (some m)).2.chanWake n).portRun n
    let s := if s.on (pg .dmc n) DMC_INIT_DONE then s else s.initPass n (c + len)
    s.openRows n c len

/-- A piece beyond the end of DRAM goes to the default target (R72, R100). -/
def State.hwMiss (s : State) (m fid : Nat) (k : AccKind) (a : Nat) : State :=
  s.emit (pg .xb 0) 0x0001 (le (dramBase + a) 5 ++ [m] ++ le fid 2 ++ [k.code])

/-- One piece of a request, judged at its guard: response code, error detail, data (zeros where a read failed). -/
def State.hwPiece (s : State) (m fid : Nat) (k : AccKind) (tag : Option Tag) (a len : Nat) (data : List Nat) :
    Nat × Nat × List Nat × State :=
  let zeros := List.replicate len 0
  if s.dramEnd ≤ a then (2, 0, zeros, s.hwMiss m fid k a)
  else if (s.pieceDenied m k a).isSome then (3, 0, zeros, s)
  else
    let s := s.hwEnter m a len
    if k = .write then
      let r := s.dramWrite m a data tag false
      (b2n (r.1 ≠ 0), r.1, [], r.2)
    else
      let r := s.dramRead m a len tag fun _ => false
      (b2n (r.1 ≠ 0), r.1, r.2.1, r.2.2)

/-- The pieces of a request in turn: each piece's offset, code, detail and data. -/
def State.hwPieces (s : State) (m fid : Nat) (k : AccKind) (tag : Option Tag) (base : Nat) (data : List Nat) :
    List (Nat × Nat) → List (Nat × Nat × Nat × List Nat) × State
  | [] => ([], s)
  | x :: t =>
    let r := s.hwPiece m fid k tag x.1 x.2 ((data.drop (x.1 - base)).take x.2)
    let q := r.2.2.2.hwPieces m fid k tag base data t
    ((x.1, r.1, r.2.1, r.2.2.1) :: q.1, q.2)

/-- The requests of an access in turn. -/
def State.hwRequests (s : State) (m fid : Nat) (k : AccKind) (tag : Option Tag) (base : Nat) (data : List Nat) :
    List (Nat × Nat) → List (Nat × Nat × Nat × List Nat) × State
  | [] => ([], s)
  | x :: t =>
    let l := pieces x.1 x.2
    let s := if k = .write then s.cvuSnoop m (dramBase + x.1) ((data.drop (x.1 - base)).take x.2) else s
    let s := (s.tagReady m).guardPieces m fid k (l.filter fun y => decide (y.1 < s.dramEnd))
    let r := s.hwPieces m fid k tag base data l
    let q := r.2.hwRequests m fid k tag base data t
    (r.1 ++ q.1, q.2)

/-- A whole access by hardware master `m` at DRAM offset `a`: each piece's offset, response code, error detail and data. -/
def State.hwAccess (s : State) (m fid : Nat) (k : AccKind) (tag : Option Tag) (a len : Nat) (data : List Nat) :
    List (Nat × Nat × Nat × List Nat) × State :=
  s.hwRequests m fid k tag a data (requestsOf a len)

/-- A whole read by hardware master `m` at DRAM offset `a`: the data, or none where any part failed (R70, R71, R109). -/
def State.hwRead (s : State) (m fid a len : Nat) (tag : Option Tag) : Option (List Nat) × State :=
  let r := s.hwAccess m fid .read tag a len []
  (if r.1.all fun x => decide (x.2.1 = 0) then some (r.1.flatMap fun x => x.2.2.2) else none, r.2)

/-- A whole write by hardware master `m` at DRAM offset `a`: whether every part succeeded. -/
def State.hwWrite (s : State) (m fid a : Nat) (data : List Nat) (tag : Option Tag) : Bool × State :=
  let r := s.hwAccess m fid .write tag a data.length data
  (r.1.all fun x => decide (x.2.1 = 0), r.2)

/-- Read `len` bytes at `off` of (bay, GEN), tagged (R143). -/
def State.bayRead (s : State) (m fid n g fseq off len : Nat) (chk : Bool) : Option (List Nat) × State :=
  s.hwRead m fid (s.bayAddr n off) len (some (s.bayTag n g fseq off chk))

/-- Write bytes at `off` of (bay, GEN), tagged (R143). -/
def State.bayWrite (s : State) (m fid n g fseq off : Nat) (data : List Nat) : Bool × State :=
  s.hwWrite m fid (s.bayAddr n off) data (some (s.bayTag n g fseq off true))

end Sys2Proof.Machine
end

