-- ==== Sys2Proof/Machine/Time.lean ====
section
/-! DEFINITION. Yard time's latency entries, transmit stamps, time pins, rate and lock state (R158 to R173). Steps stand in
TimeStep.lean. -/

namespace Sys2Proof.Machine

/-- The page of TB. -/
abbrev tb : Nat := 0xA000

/-- The writer that TB_CTRL.MODE names may write steps, slewing and TB_RATE (R158): the host or the MSS in HOST mode, the
MSS in PTP mode, the yoke in YOKE mode. -/
def State.tbWriterOk (s : State) (w : Writer) : Bool :=
  match s.rd tb TB_CTRL_MODE, w with
  | 0, .host => true
  | 0, .mss => true
  | 1, .mss => true
  | 2, .yoke => true
  | _, _ => false

/-- One WRONG_WRITER record: page offset, writer (R174). -/
def State.wrongWriter (s : State) (w : Writer) (off : Nat) : State := s.emit tb 0x4001 (le off 2 ++ le w.fid 2)

/-- One WRONG_KEY record (R157, R174). -/
def State.wrongKey (s : State) (w : Writer) : State := s.emit tb 0x4002 (le 0x124 2 ++ le w.fid 2)

/-- R158 TB_RATE_WRITE. -/
def execTbRateWrite (w : Writer) (v : Word) (s : State) : Host.Outcome State Fault Refusal :=
  done (if s.tbWriterOk w then s.wr tb TB_RATE_RATE v.toNat else s.wrongWriter w 0x10C)

/-- R160 SERVO_STATE_WRITE: the MSS writes 1 to 3; not while UNSET, and not 3 from UNLOCKED. -/
def execServoStateWrite (w : Writer) (v : BitVec 3) (s : State) : Host.Outcome State Fault Refusal :=
  let st := s.rd tb TB_STATUS_STATE
  let n := v.toNat
  done (if w ≠ .mss ∨ n = 0 ∨ 3 < n ∨ st = 0 ∨ (st = 4 ∧ n = 3) then s
    else ((s.wr tb TB_SERVO_STATE n).setTbState n).holdoverCheck)

/-- R160 HOLDOVER_EXPIRE: in HOLDOVER, the running-rate clock reaches LIMIT seconds and STATE becomes UNLOCKED; in another
state nothing happens (log entry 3). -/
def execHoldoverExpire (s : State) : Host.Outcome State Fault Refusal :=
  done (if s.rd tb TB_STATUS_STATE = 3 then (s.advanceRun (s.time.holdFrom + ns (s.tbLimit * 10 ^ 9))).setTbState 4 else s)

/-! ### Receive stamps -/

/-- The fixed latency of a port kind in core cycles, by NET_CFG.MODE (R164). `align`: the codeword alignment offset of a
port with RS-FEC. -/
def portLatency (mode align : Nat) : Nat :=
  match mode with
  | 1 => 75
  | 2 => 46
  | 3 => 301 + align
  | 4 => 19
  | _ => 0

/-- The lowest latency entry not in use. -/
def State.freeRxl (s : State) : Option Nat := (upTo 8).find? fun e => !s.on tb (TB_RXL_VALID e)

/-- An SFD on a PTP port takes a latency entry with its preload, or writes RXL_OVF when all 8 are taken (R164, R166). -/
def State.sfdDetect (s : State) (port align : Nat) : State :=
  let np := pg .net port
  if !bit (s.rd tb TB_PTP_PORTS_PORTS) port || !s.enabled np then s
  else match s.freeRxl with
    | none => s.emit tb 0x2801 [0, 0, 0, port]
    | some e =>
      let (hit, s) := s.perturb tb 1 (some port)
      let pre := portLatency (s.netMode port) align + if hit then s.rd tb PERTURB_AMOUNT else 0
      let s := ((s.wr tb (TB_RXL_COUNT e) pre).wb tb (TB_RXL_SAT e) false).wb tb (TB_RXL_RUN e) true
      let s := s.wb tb (TB_RXL_VALID e) true
      { s with time := { s.time with rxOpen := Store.put e port s.time.rxOpen } }

/-- R164 SFD_DETECT. -/
def execSfdDetect (port : Fin 18) (align : Nat) (s : State) : Host.Outcome State Fault Refusal :=
  done (s.sfdDetect port.val align)

/-- The frame that took a latency entry on a port ends (R164): a valid event message leaves its sequenceId, type and port in the
entry and raises the MSS interrupt line; any other frame frees the entry. -/
def State.rxlFrameEnd (s : State) (port : Nat) (ev : Option (Nat × Nat)) : State :=
  match (upTo 8).find? fun e => s.on tb (TB_RXL_VALID e) && decide (Store.find e s.time.rxOpen = some port) with
  | none => s
  | some e =>
    let s := { s with time := { s.time with rxOpen := Store.del e s.time.rxOpen } }
    match ev with
    | some (msgType, seqId) =>
      (((s.wr tb (TB_RXL_ID_SEQ_ID e) seqId).wr tb (TB_RXL_ID_MSG_TYPE e) msgType).wr tb (TB_RXL_ID_PORT e) port).emitOut
        (.mssIrq (s.rd tb TB_ENTRY_CTRL_LINE))
    | none => (s.wb tb (TB_RXL_VALID e) false).wb tb (TB_RXL_RUN e) false

/-- R165 ENTRY_LATCH: TB_ENTRY takes yard time, and every running count stops. -/
def execEntryLatch (s : State) : Host.Outcome State Fault Refusal :=
  let s := s.wr64 tb TB_ENTRY_LO_T TB_ENTRY_HI_T s.now
  done ((upTo 8).foldl (fun s e => s.wb tb (TB_RXL_RUN e) false) s)

/-- R165 LATENCY_COUNT_SATURATE: the core cycles pass that bring a running count to 0xFF_FFFF, where it stops and sets SAT. A stopped
core clock counts nothing (log entry 3). -/
def execLatencyCountSaturate (e : Fin 8) (s : State) : Host.Outcome State Fault Refusal :=
  done (if s.on tb (TB_RXL_VALID e.val) ∧ s.on tb (TB_RXL_RUN e.val) ∧ !s.time.coarse then
      (s.advanceRun (s.time.run + (0xFFFFFF - s.rd tb (TB_RXL_COUNT e.val)) * s.cycleInc)).rxlRun 0 e.val
    else s)

/-! ### Transmit stamps -/

/-- Push a transmit stamp (R167), or lose it when the queue is full: OVF, TB_TXQ_LOST, TXQ_OVF (R168). -/
def State.txqPush (s : State) (x : TxStamp) : State :=
  if s.time.txq.length < 64 then { s with time := { s.time with txq := s.time.txq ++ [x] } }
  else
    ((s.wb tb TB_TXQ_STAT_OVF true).cnt tb TB_TXQ_LOST_COUNT 1).emit tb 0x2001 (le x.seqId 2 ++ [x.msgType, x.port])

/-- R167 TXQ_POP: the read of TB_TXQ_TS_HI returns the oldest stamp's high word and pops it; an empty queue reads 0. -/
def execTxqPop (_w : Writer) (s : State) : Host.Outcome State Fault Refusal :=
  done (match s.time.txq with
    | [] => s.ret 0
    | x :: t => ({ s with time := { s.time with txq := t } }).ret (x.t / 2 ^ 32 % 2 ^ 32))

/-! ### Time pins -/

/-- The fixed input delay of a time input, 6 core cycles of 5/6 ns (R170). -/
def tiDelay : Nat := 5

/-- EDGE of a time input selects this edge (R173). -/
def edgeSelected (edge : Nat) (rising : Bool) : Bool :=
  if rising then decide (edge = 1) || decide (edge = 3) else decide (edge = 2) || decide (edge = 3)

/-- Time input `i` captures an edge (R170): it is enabled, EDGE selects the edge, and no pulse that the edge bounds is shorter than
4 ns. -/
def State.tiSees (s : State) (i : Nat) (x : TiEdge) : Bool :=
  s.on tb (TB_TI_CTRL_EN i) && edgeSelected (s.rd tb (TB_TI_CTRL_EDGE i)) x.rising && decide (4 ≤ x.pulse)

/-- An edge at time input `i` (R170). -/
def State.tiCapture (s : State) (i : Nat) (x : TiEdge) : State :=
  if !s.tiSees i x then s
  else
    let t := s.stamp - tiDelay
    let s := ((s.wr64 tb (TB_TI_CAP_LO_T i) (TB_TI_CAP_HI_T i) t).inc tb (TB_TI_STAT_COUNT i) 1).wb tb (TB_TI_STAT_LAST_EDGE i) x.rising
    if s.on tb (TB_TI_CTRL_RECORD i) then s.emitAt tb t 0x3001 [i, b2n x.rising] else s

/-- The schedule of time output `j`. -/
def State.tout (s : State) (j : Nat) : TimeOut := Store.getD ⟨none, none⟩ j s.time.outs

/-- Set the schedule of time output `j`. -/
def State.setTout (s : State) (j : Nat) (x : TimeOut) : State :=
  { s with time := { s.time with outs := Store.setD ⟨none, none⟩ j x s.time.outs } }

/-- Drive time output `j` to its active or inactive level (R169, R173). -/
def State.toDrive (s : State) (j : Nat) (active : Bool) : State :=
  s.emitOut (.pin "TOUT" j (b2n (active != s.on tb (TB_TO_CTRL_POL j))))

/-- Time output `j` drives nothing: it is tri-stated (R169). -/
def State.toRelease (s : State) (j : Nat) : State := s.emitOut (.pin "TOUT" j 2)

/-- ARM of time output `j` clears and nothing stays scheduled; a pulse in progress runs to its end. -/
def State.toDisarm (s : State) (j : Nat) : State :=
  (s.wb tb (TB_TO_CTRL_ARM j) false).setTout j { s.tout j with next := none }

/-- The first grid point START + k × PERIOD at or after `t` (R171). -/
def gridAt (start period t : Nat) : Nat :=
  if t ≤ start then start else start + (t - start + period - 1) / period * period

/-- R171 TIME_OUTPUT_ARM: a PERIOD of no more than WIDTH refuses the arm; a START already past misses a single pulse, and moves a
periodic one to its grid. The pin must be enabled: ARM clears when EN clears. -/
def execTimeOutputArm (_w : Writer) (j : Fin 8) (s : State) : Host.Outcome State Fault Refusal :=
  let i := j.val
  let start := s.rd64 tb (TB_TO_START_LO_T i) (TB_TO_START_HI_T i)
  let per := s.rd tb (TB_TO_PERIOD_NS i)
  let periodic := s.on tb (TB_TO_CTRL_PERIODIC i)
  done (if !s.on tb (TB_TO_CTRL_EN i) then s
    else if per ≤ s.rd tb (TB_TO_WIDTH_NS i) then s.toDisarm i
    else if s.now ≤ start then
      (s.wb tb (TB_TO_CTRL_ARM i) true).setTout i { s.tout i with next := some start }
    else if periodic then
      (s.wb tb (TB_TO_CTRL_ARM i) true).setTout i { s.tout i with next := some (gridAt start per s.now) }
    else
      ((s.toDisarm i).wb tb (TB_TO_STAT_MISSED i) true).emit tb 0x3802 ([i] ++ le 0 7 ++ le start 8))

/-- The pulse of output `j` that was scheduled for `t` starts now (R171). DESIGN CHOICE: a WIDTH written below 4 is driven as written (log
entry 162). A periodic output schedules its next edge on the grid, a single pulse leaves none, and ARM clears when it ends. -/
def State.toEdge (s : State) (j t : Nat) : State :=
  let per := s.rd tb (TB_TO_PERIOD_NS j)
  let nxt := if s.on tb (TB_TO_CTRL_PERIODIC j) then
      some (gridAt (s.rd64 tb (TB_TO_START_LO_T j) (TB_TO_START_HI_T j)) per (max (t + 1) s.now)) else none
  let s := s.setTout j ⟨nxt, some (s.now + s.rd tb (TB_TO_WIDTH_NS j))⟩
  (s.inc tb (TB_TO_STAT_PULSES j) 1).toDrive j true

/-- R171 TIME_OUTPUT_EDGE: yard time reaches the scheduled edge; with none scheduled nothing happens (log entry 3). -/
def execTimeOutputEdge (j : Fin 8) (s : State) : Host.Outcome State Fault Refusal :=
  done (match (s.tout j.val).next with
    | none => s
    | some t => (s.advanceTo t).toEdge j.val t)

/-- R171 TIME_OUTPUT_PULSE_END: the pulse's WIDTH has elapsed and the pin returns to its inactive level. ARM clears after a single
pulse (R173): with nothing more scheduled. -/
def execTimeOutputPulseEnd (j : Fin 8) (s : State) : Host.Outcome State Fault Refusal :=
  done (match (s.tout j.val).pulseEnd with
    | none => s
    | some t =>
      let s := s.advanceTo t
      let s := (s.setTout j.val { s.tout j.val with pulseEnd := none }).toDrive j.val false
      if (s.tout j.val).next.isNone then s.wb tb (TB_TO_CTRL_ARM j.val) false else s)

/-- A forward step from `old` to the present passes scheduled edges (R156, R171): each is driven in the next cycle, LATE is
set and TO_LATE written; later edges stay on the grid. -/
def State.stepOutputs (s : State) (old : Nat) : State :=
  (upTo 8).foldl (fun s j =>
    match (s.tout j).next with
    | some t =>
      if old < t ∧ t < s.now then
        ((s.toEdge j t).wb tb (TB_TO_STAT_LATE j) true).emit tb 0x3801 ([j] ++ le 0 7 ++ le t 8)
      else s
    | none => s) s

/-- R156 SLEW_ABSORBED: the withheld time is absorbed: yard time has advanced by what remained, at half rate, and SLEWING
clears. -/
def execSlewAbsorbed (s : State) : Host.Outcome State Fault Refusal :=
  done (s.setTime (s.time.pass s.cycleInc s.time.slew))

end Sys2Proof.Machine
end

