-- ==== Sys2Proof/Machine/Net.lean ====
section
/-! DEFINITION. The Ethernet ports and the packet slots (R175 to R181), and what ingress firmware answers and sends (R175, R195,
R196). The receipt of a frame stands in Receive.lean. -/

namespace Sys2Proof.Machine

/-- Slots of the packet buffer: the PKT partition's 2 KiB pieces (R179). -/
def State.pktSlots (s : State) : Nat :=
  match s.partOfUse 2 with
  | some i => (s.partArea i).2 / 2048
  | none => 0

/-- The lowest free packet slot. -/
def State.freePkt (s : State) : Option Nat :=
  (upTo s.pktSlots).find? fun n => s.pkts.all fun x => decide (x.slot ≠ n)

/-- Change the yoke's state. -/
def State.yk (s : State) (f : YokeSt → YokeSt) : State := { s with yoke := f s.yoke }

/-- A virtual channel of the yoke at rest. -/
def vc0 : YkVc := ⟨0, [], [], 0, [], false, false, 0, 0, 0, 0⟩

/-- Virtual channel `v`. -/
def State.vc (s : State) (v : Nat) : YkVc := Store.getD vc0 v s.yoke.vcs

/-- Set it. -/
def State.setVc (s : State) (v : Nat) (x : YkVc) : State := s.yk fun y => { y with vcs := Store.setD vc0 v x y.vcs }

/-- Credits a payload takes (R371). -/
def creditsOf (n : Nat) : Nat := max 1 ((n + 255) / 256)

/-- Credits of virtual channel `v` are freed (R371, R468). -/
def State.creditBack (s : State) (v n : Nat) : State :=
  s.setVc v { s.vc v with owed := (s.vc v).owed + n, freed := ((s.vc v).freed + n) % 2 ^ 16 }

/-- The least slot number of a frame that the partner forwarded: it lies in the YOKE partition. -/
def remoteBase : Nat := 65536

/-- What is added to that number when the link over which the frame came goes down: its credits are gone (R371). -/
def strayBase : Nat := 2 ^ 40

/-- The consumer has finished with a frame (R179); one that lay in the YOKE partition frees its credits (R371). -/
def State.pktFree (s : State) (x : PktSlot) : State :=
  let s := { s with pkts := s.pkts.erase x }
  if remoteBase ≤ x.slot ∧ x.slot < strayBase then s.creditBack 0 (creditsOf (32 + (x.frame.raw.length + 3) / 4 * 4)) else s

/-- NET port `n` is enabled and its link is up (R178). -/
def State.netUp (s : State) (n : Nat) : Bool :=
  s.enabled (pg .net n) && s.on (pg .net n) NET_LINK_UP && !(decide (16 ≤ n) && decide (s.mss.hold = 3))

/-- The PLL that serves an Ethernet lane has locked (R181, R311): PLL B of the quad for 10GBASE-R, PLL A otherwise. -/
def State.netPll (s : State) (n : Nat) : Bool :=
  let mode := s.netMode n
  let q := pg .ln (s.netLane n / 4 * 4)
  if mode = 4 then true else if mode = 1 then s.on q LN_QSTAT_B_LOCK else s.on q LN_QSTAT_A_LOCK

/-- NET port `n` discards a frame handed to it: while the PLL of its lane is unlocked, LN_TX_DROP counts it (R311). -/
def State.netDrop (s : State) (n : Nat) : State :=
  if s.enabled (pg .net n) && !s.netPll n then s.cnt (pg .ln (s.netLane n)) LN_TX_DROP_COUNT 1 else s

/-- Send a message of firmware on a port, counted in NET_TX_FRAMES (R180); a port that is not up sends nothing. -/
def State.netSend (s : State) (n : Nat) (what : String) (vals : List Nat) : State :=
  if s.netUp n then (s.emitOut (.netMsg n what vals)).cnt (pg .net n) NET_TX_FRAMES_COUNT 1 else s.netDrop n

/-- The NET ports of a set that are up, as a set. -/
def State.netsUp (s : State) (nets : Nat) : Nat :=
  ((upTo 18).filter fun n => bit nets n && s.netUp n).foldl (fun t n => t + 2 ^ n) 0

/-- Send a datagram on the NET ports of a set that are up, counted on each (R180); the others discard it. -/
def State.netDatagram (s : State) (nets : Nat) (dest : Dest) (bytes : List Nat) : State :=
  let up := s.netsUp nets
  (upTo 18).foldl (fun s n =>
    if bit up n then s.cnt (pg .net n) NET_TX_FRAMES_COUNT 1 else if bit nets n then s.netDrop n else s)
    (if up = 0 then s else s.emitOut (.datagram up dest bytes))

/-- R176 NET_FRAME_TRANSMIT: the frame leaves; a STAMP flag latches yard time at the SFD plus the port's fixed latency and
pushes it to the transmit queue (R167). `stamp`: sequenceId, message type and, of a port with RS-FEC, the codeword alignment
offset of the frame in core cycles. -/
def execNetFrameTransmit (port : Fin 18) (bytes : List Nat) (stamp : Option (Nat × Nat × Nat)) (s : State) :
    Host.Outcome State Fault Refusal :=
  let p := pg .net port.val
  done (if !s.netUp port.val then s.netDrop port.val
    else
      let s := (s.emitOut (.netFrame port.val bytes)).cnt p NET_TX_FRAMES_COUNT 1
      match stamp with
      | none => s
      | some (seqId, msgType, align) =>
        s.txqPush ⟨s.stamp + portLatency (s.netMode port.val) align * 5 / 6, seqId, msgType, port.val⟩)

/-- Set NET_LINK, writing LINK_UP or LINK_DOWN where UP changes (R181). -/
def State.netLink (s : State) (n : Nat) (up fec : Bool) : State :=
  let p := pg .net n
  let was := s.on p NET_LINK_UP
  let s := (s.wb p NET_LINK_UP up).wb p NET_LINK_FEC_LOCK (up && fec && decide (s.netMode n = 3))
  if up = was then s else s.emit p (if up then 1 else 2) []

/-- R181 NET_LINK_CHANGE: lock or link indication found (`up`) or lost. UP needs an enabled port and its PLL's lock. -/
def execNetLinkChange (port : Fin 18) (up fec : Bool) (s : State) : Host.Outcome State Fault Refusal :=
  done (s.netLink port.val (up && s.enabled (pg .net port.val) && s.netPll port.val) fec)

/-- The first frame in the unmatched queue that passes `f`. -/
def State.unmatched (s : State) (f : Ask → Bool) : Option PktSlot :=
  s.pkts.find? fun x => decide (x.cls = 4) && f x.frame.ask

/-- A 16-byte address of a feed's descriptor as a number, first octet lowest. -/
def State.feedAddr (s : State) (f : Nat) (g : Nat → Fld) : Nat :=
  (upTo 4).foldl (fun t k => t + s.rd (feedE f) (g k) * 2 ^ (32 * k)) 0

/-- The group of feed `f` and its family. -/
def State.feedGroup (s : State) (f : Nat) : Bool × Nat :=
  (s.on (feedE f) FEEDD_W00_FAMILY, s.feedAddr f FEEDD_DST_ADDR_A)

/-- A NET port's IPv4 address, or IPv6 address, as a number; 0 for none (R175, R180). -/
def State.netAddr (s : State) (n : Nat) (v6 : Bool) : Nat :=
  let p := pg .net n
  if v6 then (upTo 4).foldl (fun t k => t + s.rd p (NET_IP6_ADDR k) * 2 ^ (32 * k)) 0 else s.rd p NET_IP4_ADDR

/-- What a message leaves port `n` from: its address of the family, and its MAC address (R175). -/
def State.netFrom (s : State) (n : Nat) (v6 : Bool) : List Nat :=
  [s.netAddr n v6, s.rd (pg .net n) NET_MAC_LO_MAC, s.rd (pg .net n) NET_MAC_HI_MAC]

/-- Feed `f` joins a group on a port. -/
def State.feedJoins (s : State) (f port : Nat) : Bool :=
  s.on (feedE f) FEEDD_W00_EN && s.on (feedE f) FEEDD_W00_JOIN && bit (s.rd (feedE f) FEEDD_W04_PORTS) port

/-- The enabled feeds, ascending, that join a group on a port. -/
def State.groupFeeds (s : State) (port : Nat) (g : Bool × Nat) : List Nat :=
  (s.feeds.map (·.1)).filter fun f => s.feedJoins f port && decide (s.feedGroup f = g)

/-- The sources a report of a group names on a port (R196): none, standing for EXCLUDE, where some feed takes any source. -/
def State.groupSources (s : State) (port : Nat) (g : Bool × Nat) : List Nat :=
  let l := s.groupFeeds port g
  if l.any fun f => s.on (feedE f) FEEDD_W00_SRC_ANY then [] else (l.map fun f => s.feedAddr f FEEDD_SRC_ADDR_A).eraseDups

/-- One OLD_QUERIER record per port and minute (R196, R199). DEDUCED: its feed number is the lowest-numbered one that joins the group
queried on the port, any group for a general query, and 0 where none does (log entry 144). -/
def State.oldQuerier (s : State) (port version group : Nat) (v6 : Bool) : State :=
  let l := (s.feeds.map (·.1)).filter fun f => s.feedJoins f port && decide (group = 0 ∨ s.feedGroup f = (v6, group))
  s.emitLimited (pg .feed 0) (pg .feed 0 + 1 + port) 60000 0x2801 (le (l.headD 0) 2 ++ [port, version])

/-- The record that answers a query of a joined group (RFC 3376 6.1, RFC 3810 6.2): its type, MODE_IS_INCLUDE 1 or MODE_IS_EXCLUDE 2,
the group, the number of sources and the sources. Queried sources (`asked`) are answered where they are wanted, as sources
included. -/
def State.queryRecord (s : State) (port : Nat) (g : Bool × Nat) (asked : List Nat) : List Nat :=
  let any := (s.groupFeeds port g).any fun f => s.on (feedE f) FEEDD_W00_SRC_ANY
  let own := s.groupSources port g
  if asked.isEmpty then [if any then 2 else 1, g.2, own.length] ++ own
  else
    let l := if any then asked else asked.filter own.contains
    if l.isEmpty then [] else [1, g.2, l.length] ++ l

/-- Answer a membership query on a port (R196): one report of the groups joined there in the query's family, all for a general query
(group 0), else the one queried. -/
def State.answerQuery (s : State) (x : PktSlot) (version group : Nat) (asked : List Nat) : State :=
  let s := s.pktFree x
  let v6 := x.frame.v6
  if version ≠ 0 then s.oldQuerier x.port version group v6
  else
    let g := s.joins.filter fun j => decide (j.port = x.port) && j.v6 == v6 && decide (group = 0 ∨ j.group = group)
    let r := g.flatMap fun j => s.queryRecord x.port (j.v6, j.group) asked
    if r.isEmpty ∨ s.netAddr x.port v6 = 0 then s else s.netSend x.port "membership report" (s.netFrom x.port v6 ++ r)

/-- R175 UNMATCHED_REPLY: the drover takes the oldest unmatched frame and answers it from the port's own address; a port
without an address of the family answers nothing. -/
def execUnmatchedReply (s : State) : Host.Outcome State Fault Refusal :=
  done (if !s.drvRuns then s else match s.unmatched fun _ => true with
    | none => s
    | some x =>
      let reply := fun (what : String) (v6 : Bool) =>
        let s := s.pktFree x
        if s.netAddr x.port v6 = 0 then s
        else s.netSend x.port what (x.frame.src :: s.netFrom x.port v6)
      match x.frame.ask with
      | .nothing => s.pktFree x
      | .arp => reply "ARP reply" false
      | .nd => reply "neighbour advertisement" true
      | .echo => reply "ICMP echo reply" x.frame.v6
      | .query v g l => s.answerQuery x v g l)

/-- R196 MEMBERSHIP_QUERY: the oldest membership query in the unmatched queue is answered, or noted as an old version's. -/
def execMembershipQuery (s : State) : Host.Outcome State Fault Refusal :=
  done (if !s.drvRuns then s else match s.unmatched (fun a => match a with | .query _ _ _ => true | _ => false) with
    | none => s
    | some x => match x.frame.ask with
      | .query v g l => s.answerQuery x v g l
      | _ => s)

end Sys2Proof.Machine
end

