-- ==== Sys2Proof/Machine/Feed.lean ====
section
/-! DEFINITION. Feeds: descriptors, matching, RTP, access units, sender reports, health (R182 to R199). Admission, enable and
disable stand in Admit.lean. -/

namespace Sys2Proof.Machine

/-- The page of FEED. -/
abbrev feedP : Nat := 0x3D000

/-- Feed `f` is enabled. -/
def State.feedOn (s : State) (f : Nat) : Bool := s.on (feedE f) FEEDD_W00_EN

/-- Loft offset of feed `f`'s context (R208), where the FEED_CTX partition has room for it. -/
def State.feedCtx (s : State) (f : Nat) : Option Nat :=
  match s.partOfUse 1 with
  | some i => if 2048 * (f + 1) ≤ (s.partArea i).2 then some ((s.partArea i).1 + 2048 * f) else none
  | none => none

/-- Read a context field; 0 where the feed has no context. -/
def State.ctx (s : State) (f off n : Nat) : Nat :=
  match s.feedCtx f with
  | some b => s.loftLE (b + off) n
  | none => 0

/-- Master `m` reads the context of feed `f`, whose words are examined (R129). -/
def State.ctxExamine (s : State) (m f : Nat) : State :=
  match s.feedCtx f with
  | some b => s.loftExamine m b 2048
  | none => s

/-- Write a context field. -/
def State.ctxPut (s : State) (f off v n : Nat) : State :=
  match s.feedCtx f with
  | some b => s.loftPutLE (b + off) v n
  | none => s

/-- Set the ingress state of a feed. -/
def State.setFeed (s : State) (f : Nat) (x : FeedSt) : State := { s with feeds := Store.put f x s.feeds }

/-- Add to a wrapping descriptor counter. -/
def State.feedInc (s : State) (f : Nat) (g : Fld) (n : Nat) : State := s.inc (feedE f) g n

/-! ### The descriptor -/

/-- The fields of a descriptor word that change only while EN is 0 (R182). -/
def feedWord (off : Nat) : List Fld :=
  if off = 0 then [FEEDD_W00_FAMILY, FEEDD_W00_SRC_ANY, FEEDD_W00_SSRC_ANY, FEEDD_W00_MUX, FEEDD_W00_VLAN_EN, FEEDD_W00_JOIN,
    FEEDD_W00_PSET_EN, FEEDD_W00_CODEC, FEEDD_W00_SR_CLOCK, FEEDD_W00_DROVER]
  else if off = 4 then [FEEDD_W04_PORTS, FEEDD_W04_PT]
  else if off = 8 then [FEEDD_W08_VLAN, FEEDD_W08_UDP_PORT]
  else if off = 0xC then [FEEDD_W0C_SSRC]
  else if 0x10 ≤ off ∧ off < 0x20 then [FEEDD_SRC_ADDR_A ((off - 0x10) / 4)]
  else if 0x20 ≤ off ∧ off < 0x30 then [FEEDD_DST_ADDR_A ((off - 0x20) / 4)]
  else if off = 0x30 then [FEEDD_W30_REORDER_WIN, FEEDD_W30_AU_TIMEOUT]
  else if off = 0x34 then [FEEDD_W34_SRC_LAT, FEEDD_W34_SR_MAXAGE]
  else if off = 0x38 then [FEEDD_RING_RING_BAY, FEEDD_RING_RING_GEN]
  else if off = 0x3C then [FEEDD_PSET_PSET_BAY, FEEDD_PSET_PSET_GEN]
  else if off = 0x40 then [FEEDD_W40_SILENT, FEEDD_W40_RATE_CAP]
  else []

/-- A write to the configuration fields of a descriptor word (R182, R487): no effect while EN is 1 before it, LOCK among them;
locked, no effect and a record where a value changes (R45); LOCK sets by writing 1. -/
def State.feedDescWrite (s : State) (w : Writer) (f off v : Nat) : State :=
  let p := feedE f
  let l := feedWord off
  let s' :=
    if s.feedOn f then s
    else if s.on p FEEDD_W00_LOCK || s.on feedP HDR_CTRL_LOCK then
      if s.differs p l v then s.lockedWrite feedP off f v w else s
    else s.setFields p l v
  if off = 0 ∧ bit v 31 ∧ !s.feedOn f then s'.wb p FEEDD_W00_LOCK true else s'

/-- R182 FEED_DESC_WRITE. -/
def execFeedDescWrite (w : Writer) (f : Fin 512) (word : Fin 32) (v : Word) (s : State) : Host.Outcome State Fault Refusal :=
  done (s.feedDescWrite w f.val (4 * word.val) v.toNat)

/-- The values of a feed's filter that two enabled feeds may not share (R184). -/
def State.feedFilter (s : State) (f : Nat) : List Nat :=
  let p := feedE f
  [s.rd p FEEDD_W00_FAMILY, s.rd p FEEDD_W00_SRC_ANY, s.feedAddr f FEEDD_SRC_ADDR_A, s.feedAddr f FEEDD_DST_ADDR_A,
   s.rd p FEEDD_W00_VLAN_EN, s.rd p FEEDD_W08_VLAN, s.rd p FEEDD_W08_UDP_PORT, s.rd p FEEDD_W00_SSRC_ANY,
   s.rd p FEEDD_W0C_SSRC]

/-- The feeds enabled, ascending. -/
def State.feedList (s : State) : List Nat := s.feeds.map (·.1)

/-- Why an enable of feed `f` is refused: the reason of FEED_REFUSED and the other feed of reason 5 (R184, R199). -/
def State.feedRefusal (s : State) (f : Nat) : Option (Nat × Nat) :=
  let p := feedE f
  let rb := s.rd p FEEDD_RING_RING_BAY
  let pb := s.rd p FEEDD_PSET_PSET_BAY
  let other := s.feedList.find? fun g => decide (g ≠ f) && decide (s.feedFilter g = s.feedFilter f) &&
    decide (s.rd (feedE g) FEEDD_W04_PORTS &&& s.rd p FEEDD_W04_PORTS ≠ 0)
  let pt := s.rd p FEEDD_W04_PT
  let up := s.rd p FEEDD_W08_UDP_PORT
  if !s.enabled feedP then some (0, 0)
  else if bit (s.rd 0 SYS_FENCE_A_DRV) (s.rd p FEEDD_W00_DROVER) then some (1, 0)
  else if !s.bayHeld rb (s.rd p FEEDD_RING_RING_GEN) || decide (s.rd (bayE rb) BAYD_SIZE_FORMAT ≠ 5) ||
      decide (s.rd (bayE rb) BAYD_SIZE_SIZE < 256) then some (2, 0)
  else if s.on p FEEDD_W00_PSET_EN && (!s.bayHeld pb (s.rd p FEEDD_PSET_PSET_GEN) ||
      decide (s.rd (bayE pb) BAYD_SIZE_FORMAT ≠ 5) || !s.on (bayE pb) BAYD_STAT_READY) then some (3, 0)
  else if pt < 96 ∨ up = 0 ∨ up = 65535 ∨ 1000 < s.rd p FEEDD_W30_REORDER_WIN ∨ 60000 < s.rd p FEEDD_W34_SRC_LAT ∨
      1 < s.rd p FEEDD_W00_CODEC then some (4, 0)
  else match other with
    | some g => some (5, g)
    | none => if s.hasPart 1 (2 ^ 20) then none else some (6, 0)

/-- The feed page's COUNT of enabled feeds. -/
def State.feedCount (s : State) : State := s.wr feedP FEED_ACTIVE_COUNT s.feeds.length

/-! ### Multicast -/

/-- Some enabled feed with JOIN reports this group on this port. -/
def State.groupWanted (s : State) (port : Nat) (g : Bool × Nat) : Bool := !(s.groupFeeds port g).isEmpty

/-- Begin reporting feed `f`'s group on every port of PORTS; a membership already reported there is reported again, with the sources it
now has (R196). -/
def State.feedJoin (s : State) (f : Nat) : State :=
  if !s.on (feedE f) FEEDD_W00_JOIN then s
  else
    let g := s.feedGroup f
    let left := max (s.rd feedP FEED_IGMP_ROBUST) 1
    (upTo 18).foldl (fun s n =>
      if bit (s.rd (feedE f) FEEDD_W04_PORTS) n then
        let here := fun (j : Join) => decide (j.port = n) && decide ((j.v6, j.group) = g)
        if s.joins.any here then { s with joins := mapWhere here (fun (j : Join) => { j with left := left }) s.joins }
        else { s with joins := s.joins ++ [⟨n, g.1, g.2, left⟩] }
      else s) s

/-- Leave every membership that no enabled feed wants any more (R196). -/
def State.feedLeave (s : State) : State :=
  let gone := s.joins.filter fun j => !s.groupWanted j.port (j.v6, j.group)
  let s := { s with joins := s.joins.filter fun j => s.groupWanted j.port (j.v6, j.group) }
  gone.foldl (fun s j => s.netSend j.port "membership leave" (s.netFrom j.port j.v6 ++ [j.group])) s

/-- R196 MEMBERSHIP_REPORT: one unsolicited report of feed `f`'s group on a port, while some are left; JOINED then reads 1
for the feeds that share it. A port that is not up sends nothing. -/
def execMembershipReport (port : Fin 18) (f : Fin 512) (s : State) : Host.Outcome State Fault Refusal :=
  let g := s.feedGroup f.val
  let here := fun (j : Join) => decide (j.port = port.val) && decide ((j.v6, j.group) = g) && decide (0 < j.left)
  done (if !s.drvRuns || !s.joins.any here || !s.netUp port.val then s
    else
      let s := { s with joins := mapWhere here (fun (j : Join) => { j with left := j.left - 1 }) s.joins }
      let s := s.netSend port.val "membership report" (s.netFrom port.val g.1 ++ g.2 :: s.groupSources port.val g)
      (s.groupFeeds port.val g).foldl (fun s f => s.wb (feedE f) FEEDD_W44_JOINED true) s)

/-! ### Matching -/

/-- Feed `f` takes this datagram from NET `n` (R183): some RTCP when it does. -/
def State.feedTakes (s : State) (n : Nat) (fr : NetFrame) (u : Udp) (f : Nat) : Option Bool :=
  let p := feedE f
  let port := s.rd p FEEDD_W08_UDP_PORT
  let second := u.payload.getD 1 0
  if s.feedOn f && bit (s.rd p FEEDD_W04_PORTS) n && (s.on p FEEDD_W00_FAMILY == fr.v6) && !(fr.v6 && fr.v6ext) &&
      decide (s.feedAddr f FEEDD_DST_ADDR_A = fr.dst) &&
      (s.on p FEEDD_W00_SRC_ANY || decide (s.feedAddr f FEEDD_SRC_ADDR_A = fr.src)) &&
      (if s.on p FEEDD_W00_VLAN_EN then decide (fr.tags = 1) && decide (fr.vlan = s.rd p FEEDD_W08_VLAN)
       else decide (fr.tags = 0)) then
    if u.dport = port then some (s.on p FEEDD_W00_MUX && decide (200 ≤ second) && decide (second ≤ 204))
    else if u.dport = port + 1 ∧ !s.on p FEEDD_W00_MUX then some true
    else none
  else none

/-- The lowest-numbered feed that takes a frame, and whether as RTCP (R183, R184). -/
def State.feedMatch (s : State) (n : Nat) (fr : NetFrame) : Option (Nat × Bool) :=
  match fr.udp with
  | none => none
  | some u =>
    if !s.enabled feedP then none
    else match s.feedList.find? (fun f => (s.feedTakes n fr u f).isSome) with
      | some f => (s.feedTakes n fr u f).map fun r => (f, r)
      | none => none

/-! ### RTP -/

/-- The fields of an RTP packet (RFC 3550): version, payload type, marker, sequence number, timestamp, SSRC, payload with
padding, CSRC list and header extension taken off (R185). -/
structure Rtp where
  v : Nat
  pt : Nat
  m : Bool
  seq : Nat
  ts : Nat
  ssrc : Nat
  data : List Nat

/-- Parse an RTP packet. -/
def rtpParse (l : List Nat) : Rtp :=
  let b0 := l.getD 0 0
  let b1 := l.getD 1 0
  let rest := l.drop (12 + 4 * (b0 % 16))
  let rest := if bit b0 4 then rest.drop (4 + 4 * ofBE ((rest.drop 2).take 2)) else rest
  let data := if bit b0 5 then rest.take (rest.length - rest.getLastD 0) else rest
  ⟨b0 / 64, b1 % 128, bit b1 7, ofBE ((l.drop 2).take 2), ofBE ((l.drop 4).take 4), ofBE ((l.drop 8).take 4), data⟩

/-- The NAL unit type a payload begins with. -/
def nalType (h265 : Bool) (d : List Nat) : Nat := if h265 then d.getD 0 0 / 2 % 64 else d.getD 0 0 % 32

/-- The payload structure is one that R187 does not support. -/
def nalUnsupported (h265 : Bool) (d : List Nat) : Bool :=
  let t := nalType h265 d
  if h265 then decide (50 ≤ t) else decide (25 ≤ t) && decide (t ≠ 28)

/-- The signed 32-bit difference `a − b`. -/
def diff32 (a b : Nat) : Int := sint 32 ((a + 2 ^ 32 - b % 2 ^ 32) % 2 ^ 32)

/-- Close an access unit at a stamp. -/
def OpenAu.close (stamp : Nat) (marked : Bool) (a : OpenAu) : OpenAu :=
  if a.closing.isSome then a else { a with closing := some stamp, marked := marked }

/-- REORDER_WIN in ns. -/
def State.reorderNs (s : State) (f : Nat) : Nat := 1000000 * s.rd (feedE f) FEEDD_W30_REORDER_WIN

/-- AU_TIMEOUT in ns; 0 acts as 100 ms (R182). -/
def State.auTimeoutNs (s : State) (f : Nat) : Nat :=
  let v := s.rd (feedE f) FEEDD_W30_AU_TIMEOUT
  (if v = 0 then 100 else v) * 1000000

/-- The closed access unit that is admitted next: the least closing stamp, the oldest among equals. -/
def nextAu (l : List OpenAu) : Option OpenAu :=
  let c := l.filter fun a => a.closing.isSome
  c.foldl (fun b a => match b with
    | none => some a
    | some x => if a.closing.getD 0 < x.closing.getD 0 then some a else b) none

/-- The admission stamp of a closed access unit (R188): closing stamp + REORDER_WIN, no earlier than the admission stamp of
any access unit before it. -/
def State.auStamp (s : State) (f : Nat) (st : FeedSt) (a : OpenAu) : Nat :=
  max (a.closing.getD 0 + s.reorderNs f) st.lastA

/-- HEALTH of a feed that is enabled and has accepted a packet and is not silent (R197). -/
def healthLive (st : FeedSt) (now : Nat) : Nat :=
  match st.flaggedAt with
  | some t => if now < t + 10 ^ 9 then 3 else 2
  | none => 2

/-- One FEED_RESUMED record: the feed leaves SILENT (R197). -/
def State.feedResumed (s : State) (f : Nat) : State :=
  s.emit feedP 0x0802 (le f 2 ++ le 0 6 ++ le (s.rd64 (feedE f) FEEDD_LAST_RX_LO_T FEEDD_LAST_RX_HI_T) 8)

/-- A packet is accepted (R197): HEALTH leaves WAITING or SILENT; leaving SILENT writes FEED_RESUMED. -/
def State.feedAccepted (s : State) (f : Nat) (st : FeedSt) : State :=
  let p := feedE f
  let was := s.rd p FEEDD_W44_HEALTH
  let s := s.wr p FEEDD_W44_HEALTH (healthLive st s.now)
  if was = 4 then s.feedResumed f else s

/-- The verdict of RFC 3550 Appendix A.1 on a sequence number (R186). -/
inductive SeqVerdict where
  | good (ext : Nat)
  | dup
  | jump
  | restart

/-- Judge a sequence number. Extended numbers carry an offset of 65,536, so that a packet ahead of the first one has one. -/
def seqJudge (st : FeedSt) (seq : Nat) : SeqVerdict :=
  match st.maxSeq with
  | none => .good (65536 + seq)
  | some m =>
    let ud := (seq + 65536 - m % 65536) % 65536
    let e := if ud < 3000 then m + ud else m + ud - 65536
    if ud < 3000 ∨ 65536 - 100 < ud then if st.seen.any (fun y => decide (y.1 = e)) then .dup else .good e
    else if seq = st.badSeq then .restart else .jump

/-- The state after the sequence starts again at `seq` (R186): every open access unit closes at `stamp`, and the numbers of the new
sequence lie above all of the old one, whose access units keep theirs. -/
def FeedSt.seqStart (st : FeedSt) (seq stamp : Nat) : FeedSt :=
  { st with maxSeq := none, badSeq := 65537, baseSeq := (st.maxSeq.getD 0 / 65536 + 2) * 65536 + seq, received := 0,
            rrExp := 0, rrRec := 0, aus := st.aus.map (OpenAu.close stamp false) }

/-- Interarrival jitter (RFC 3550 A.8) after a packet: transit time in 90 kHz units, running estimate times 16. -/
def FeedSt.jitter (st : FeedSt) (rx ts : Nat) : FeedSt :=
  let tr := (rx * 9 / 100000 + 2 ^ 32 - ts) % 2 ^ 32
  match st.transit with
  | none => { st with transit := some tr }
  | some t => { st with transit := some tr, jit := st.jit + (diff32 tr t).natAbs - (st.jit + 8) / 16 }

/-- Place an accepted packet in its access unit (R188): late, joined, or a new one; packets with a later timestamp close the
open ones, a marker closes its own. True when it counts as late. -/
def State.auPlace (s : State) (f : Nat) (st : FeedSt) (stamp ext ts : Nat) (m : Bool) (data : List Nat) : Bool × FeedSt :=
  let add := fun (a : OpenAu) => { a with pkts := a.pkts ++ [AuPkt.mk ext data] }
  match st.aus.find? (fun a => decide (a.ts = ts)) with
  | none =>
    if st.recent.contains ts then (true, st)
    else
      let l := st.aus.map fun a => if 0 < diff32 ts a.ts then a.close stamp false else a
      let a : OpenAu := ⟨ts, [AuPkt.mk ext data], stamp, none, false, st.baseSeq⟩
      (false, { st with aus := l ++ [if m then a.close stamp true else a] })
  | some a =>
    if a.closing.isSome && decide (s.auStamp f st a < stamp) then (true, st)
    else
      let l := st.aus.map fun x =>
        if x.ts = ts then
          let x := { add x with newest := max x.newest stamp }
          if m then x.close stamp true else x
        else if 0 < diff32 ts x.ts then x.close stamp false else x
      (false, { st with aus := l })

/-- A packet whose number has been judged good is accepted (R185 to R188). -/
def State.rtpAccept (s : State) (f : Nat) (st : FeedSt) (x : PktSlot) (r : Rtp) (ext : Nat) : State :=
  let p := feedE f
  let low := min (max ext (st.maxSeq.getD ext) - 100) ((st.prevHigh.getD (st.aus.foldl (fun m a => min m a.base) st.baseSeq - 1)) + 1)
  let st := { st with maxSeq := some (max ext (st.maxSeq.getD ext)), seen := (ext, x.stamp) :: st.seen.filter (fun e => decide (low ≤ e.1)),
                      received := st.received + 1, lastAcc := x.stamp, port := x.port }
  let st := st.jitter x.stamp r.ts
  let (late, st) := s.auPlace f st x.stamp ext r.ts r.m r.data
  let s := s.wr p FEEDD_JITTER_JITTER (st.jit / 16)
  let s := if late then s.feedInc f FEEDD_LATE_LATE 1 else s
  (s.setFeed f st).feedAccepted f st

/-- The first accepted packet locks the SSRC and the source where the descriptor takes any (R185). -/
def State.rtpLock (s : State) (f : Nat) (st : FeedSt) (x : PktSlot) (r : Rtp) : FeedSt × State :=
  let p := feedE f
  let anyS := s.on p FEEDD_W00_SSRC_ANY
  let st := { st with ssrc := if anyS && st.ssrc.isNone then some r.ssrc else st.ssrc,
                      src := if s.on p FEEDD_W00_SRC_ANY && st.src.isNone then some x.frame.src else st.src }
  (st, s.wb p FEEDD_W44_SSRC_LOCKED (anyS && st.ssrc.isSome))

/-- A matched RTP packet is counted, with its payload, whether it is accepted or not (R182). -/
def State.rtpCount (s : State) (f : Nat) (st : FeedSt) (x : PktSlot) (r : Rtp) : FeedSt × State :=
  let p := feedE f
  let st := { st with bytes := st.bytes + r.data.length }
  let s := (s.wr64 p FEEDD_LAST_RX_LO_T FEEDD_LAST_RX_HI_T x.stamp).feedInc f FEEDD_PKTS_PKTS 1
  (st, (s.wr p FEEDD_KIB_KIB (st.bytes / 1024)).setFeed f st)

/-- Process one matched RTP packet (R185 to R188). -/
def State.rtpPacket (s : State) (f : Nat) (st : FeedSt) (x : PktSlot) (r : Rtp) : State :=
  let p := feedE f
  let (st, s) := s.rtpCount f st x r
  let want := if s.on p FEEDD_W00_SSRC_ANY then st.ssrc else some (s.rd p FEEDD_W0C_SSRC)
  if r.v ≠ 2 ∨ r.pt ≠ s.rd p FEEDD_W04_PT ∨ want.getD r.ssrc ≠ r.ssrc ∨
      nalUnsupported (decide (s.rd p FEEDD_W00_CODEC = 1)) r.data then s.feedInc f FEEDD_W64_UNSUP 1
  else
    match seqJudge st r.seq with
    | .dup => s.feedInc f FEEDD_DUP_DUP 1
    | .jump => (s.setFeed f { st with badSeq := (r.seq + 1) % 65536 }).feedInc f FEEDD_W64_UNSUP 1
    | .good ext =>
      let st := if st.maxSeq.isNone then { st with baseSeq := ext } else st
      let (st, s) := s.rtpLock f st x r
      s.rtpAccept f st x r ext
    | .restart =>
      let s := s.emit feedP 0x1801 (le f 2 ++ [0, 0] ++ le r.seq 4)
      let st := { st.seqStart r.seq x.stamp with resync := true, pset := s.on p FEEDD_W00_PSET_EN, ssrc := none, src := none }
      let (st, s) := s.rtpLock f st x r
      s.rtpAccept f st x r st.baseSeq

/-- The oldest frame waiting for feed `f`'s firmware, RTP or RTCP. -/
def State.feedFrame (s : State) (f : Nat) (rtcp : Bool) : Option PktSlot :=
  s.pkts.find? fun x => decide (x.cls = 3) && decide (x.feed = f) && x.rtcp == rtcp && x.ready

/-- R185 RTP_PACKET: the firmware takes the feed's oldest RTP packet, and its slot is freed (R179). -/
def execRtpPacket (f : Fin 512) (s : State) : Host.Outcome State Fault Refusal :=
  done (if !s.drvRuns then s else match s.feedFrame f.val false with
    | none => s
    | some x =>
      let s := s.pktFree x
      match Store.find f.val s.feeds, x.frame.udp with
      | some st, some u => s.rtpPacket f.val st x (rtpParse u.payload)
      | _, _ => s)

/-- Ingress waits for yard time `t` (R188); in a team it reads yard time as the T of the latest MARK (R378), which must have
reached `t` (`ingressAt`). -/
def State.ingressTo (s : State) (t : Nat) : State := if 3 ≤ s.yoke.state ∧ s.yoke.state ≤ 5 then s else s.advanceTo t

/-- Yard time as ingress reads it can have reached `t`. -/
def State.ingressAt (s : State) (t : Nat) : Bool :=
  !(decide (3 ≤ s.yoke.state) && decide (s.yoke.state ≤ 5)) || decide (t ≤ s.yoke.mark)

/-- R188 AU_TIMEOUT: AU_TIMEOUT has passed since the newest packet of the feed's oldest open access unit. -/
def execAuTimeout (f : Fin 512) (s : State) : Host.Outcome State Fault Refusal :=
  done (if !s.drvRuns then s else match Store.find f.val s.feeds with
    | none => s
    | some st =>
      match st.aus.find? (fun a => a.closing.isNone) with
      | none => s
      | some a =>
        let t := a.newest + s.auTimeoutNs f.val
        if !s.ingressAt t then s else
        (s.ingressTo t).setFeed f.val
          { st with aus := mapWhere (fun x => decide (x.ts = a.ts)) (OpenAu.close t false) st.aus })

/-! ### Sender reports -/

/-- Yard time that an NTP timestamp names (R193). -/
def State.ntpToYard (s : State) (f sec frac : Nat) : Int :=
  let n : Int := ((sec : Int) - 2208988800) * 10 ^ 9 + (frac * 10 ^ 9 / 2 ^ 32 : Nat)
  if s.rd (feedE f) FEEDD_W00_SR_CLOCK = 0 then n + sint 16 (s.rd tb TB_UTC_OFFSET) * 10 ^ 9 else n

/-- Where a report places an RTP timestamp (R193): 90 kHz ticks to ns, towards minus infinity. -/
def SrRep.place (x : SrRep) (r : Nat) : Int := x.t + floorDiv (diff32 r x.r * 100000) 9

/-- The feed's source address (R185). -/
def State.feedSource (s : State) (f : Nat) (st : FeedSt) : Option Nat :=
  if s.on (feedE f) FEEDD_W00_SRC_ANY then st.src else some (s.feedAddr f FEEDD_SRC_ADDR_A)

/-- The SSRC in use (R185). -/
def State.feedSsrc (s : State) (f : Nat) (st : FeedSt) : Option Nat :=
  if s.on (feedE f) FEEDD_W00_SSRC_ANY then st.ssrc else some (s.rd (feedE f) FEEDD_W0C_SSRC)

/-- A report that no later admission stamp can use is dropped. -/
def prune (lastA : Nat) : List SrRep → List SrRep
  | [] => []
  | x :: t => if x.rx ≤ lastA then [x] else x :: prune lastA t

/-- Take a sender report's packet (R193). -/
def State.senderReport (s : State) (f : Nat) (st : FeedSt) (x : PktSlot) (l : List Nat) : State :=
  let p := feedE f
  let w := fun (off : Nat) => ofBE ((l.drop off).take 4)
  if l.getD 1 0 ≠ 200 ∨ l.length < 28 ∨ s.rd p FEEDD_W00_SR_CLOCK = 2 ∨ s.feedSource f st ≠ some x.frame.src ∨
      s.feedSsrc f st ≠ some (w 4) then s
  else
    let rep : SrRep := ⟨x.stamp, s.ntpToYard f (w 8) (w 12), w 16, w 8 % 65536 * 65536 + w 12 / 65536⟩
    let s := match st.reports with
      | [] => s
      | o :: _ =>
        let d := rep.t - o.place rep.r
        if 1000000 < d.natAbs then s.emit feedP 0x1003 (le f 2 ++ le 0 6 ++ le (uint 64 d) 8) else s
    let s := s.setFeed f { st with reports := rep :: prune st.lastA st.reports }
    (s.feedInc f FEEDD_SR_COUNT_SR_COUNT 1).wr64 p FEEDD_LAST_SR_LO_T FEEDD_LAST_SR_HI_T x.stamp

/-- R193 SENDER_REPORT: the firmware takes the feed's oldest RTCP packet, and its slot is freed. -/
def execSenderReport (f : Fin 512) (s : State) : Host.Outcome State Fault Refusal :=
  done (if !s.drvRuns then s else match s.feedFrame f.val true with
    | none => s
    | some x =>
      let s := s.pktFree x
      match Store.find f.val s.feeds, x.frame.udp with
      | some st, some u => s.senderReport f.val st x u.payload
      | _, _ => s)

/-- The report valid for an access unit at admission stamp `a` (R193, R194). -/
def State.validReport (s : State) (f : Nat) (st : FeedSt) (a : Nat) : Option SrRep :=
  let p := feedE f
  let age := s.rd p FEEDD_W34_SR_MAXAGE
  match st.reports.find? (fun x => decide (x.rx ≤ a)) with
  | none => none
  | some x =>
    if s.rd p FEEDD_W00_SR_CLOCK = 2 ∨ (s.rd p FEEDD_W00_SR_CLOCK = 0 ∧ !s.on tb TB_UTC_VALID) ∨
        (if age = 0 then 10 else age) * 10 ^ 9 < a - x.rx then none else some x

/-- Capture time of an access unit, kept within 64 bits, and whether it is measured (R193, R194). -/
def State.captureTime (s : State) (f : Nat) (st : FeedSt) (ts a : Nat) : Nat × Bool :=
  let top : Int := (2 ^ 64 - 1 : Nat)
  match s.validReport f st a with
  | some x => ((clamp 0 top (x.place ts)).toNat, true)
  | none => ((clamp 0 top ((a : Int) - 1000000 * s.rd (feedE f) FEEDD_W34_SRC_LAT)).toNat, false)

/-! ### Reports and health -/

/-- The feed's RTCP port (R182, R183). DEDUCED: the source's RTCP port has the same number (log entry 142). -/
def State.rtcpPort (s : State) (f : Nat) : Nat :=
  s.rd (feedE f) FEEDD_W08_UDP_PORT + b2n (!s.on (feedE f) FEEDD_W00_MUX)

/-- R195: a receiver report with one report block, to the feed's source and its RTCP port from the receiving port's address (RFC 3550):
its SSRC, the source's SSRC, fraction lost, numbers lost, highest extended number, jitter, LSR and DLSR. -/
def State.receiverReport (s : State) (f : Nat) (st : FeedSt) : State :=
  let p := feedE f
  match s.feedSource f st, s.feedSsrc f st, st.maxSeq with
  | some a, some k, some m =>
    let own := s.rd feedP FEED_RR_SSRC
    let own := if own = 0 then 0x0F960000 + s.rd 0 SYS_NODE_NODE_ID else own
    let ex := m + 1 - st.baseSeq
    let exI := ex - st.rrExp
    let lost := exI - (st.received - st.rrRec)
    let frac := if exI = 0 then 0 else lost * 256 / exI
    let (lsr, dlsr) := match st.reports with
      | x :: _ => (x.ntpMid, (s.now - x.rx) * 65536 / 10 ^ 9)
      | [] => (0, 0)
    (s.setFeed f { st with rrExp := ex, rrRec := st.received }).netSend st.port "receiver report"
      [a, s.rtcpPort f, s.netAddr st.port (s.on p FEEDD_W00_FAMILY), own, k, frac, s.rd p FEEDD_LOST_LOST,
       m - st.baseSeq / 65536 * 65536, s.rd p FEEDD_JITTER_JITTER, lsr, dlsr]
  | _, _, _ => s

/-- R197 FEED_SILENT: no packet accepted for more than SILENT ms: HEALTH becomes SILENT, with its record. -/
def execFeedSilent (f : Fin 512) (s : State) : Host.Outcome State Fault Refusal :=
  let p := feedE f.val
  let h := s.rd p FEEDD_W44_HEALTH
  done (if !s.drvRuns then s else match Store.find f.val s.feeds with
    | none => s
    | some st =>
      if h ≠ 2 ∧ h ≠ 3 then s
      else
        let lim := s.rd p FEEDD_W40_SILENT
        let s := s.advanceTo (st.lastAcc + (if lim = 0 then 1000 else lim) * 1000000 + 1)
        (s.wr p FEEDD_W44_HEALTH 4).emit feedP 0x0801
          (le f.val 2 ++ le 0 6 ++ le (s.rd64 p FEEDD_LAST_RX_LO_T FEEDD_LAST_RX_HI_T) 8))

/-- R197 FEED_DEGRADED_LAPSE: 1,000 ms have passed since the last access unit with LOSS or GAP. -/
def execFeedDegradedLapse (f : Fin 512) (s : State) : Host.Outcome State Fault Refusal :=
  let p := feedE f.val
  done (if !s.drvRuns then s else match Store.find f.val s.feeds with
    | none => s
    | some st =>
      match st.flaggedAt with
      | some t => if s.rd p FEEDD_W44_HEALTH = 3 then (s.advanceTo (t + 10 ^ 9)).wr p FEEDD_W44_HEALTH 2 else s
      | none => s)

end Sys2Proof.Machine
end

