-- ==== Sys2Proof/Machine/Dec.lean ====
section
/-! DEFINITION. The decode pipelines: schedule, context, pictures, concealment, statistics (R200 to R229, R488). The completion of
a picture, which composition snoops, ends in Admit.lean. -/

namespace Sys2Proof.Machine

/-- The state of a feed that decode has not met. -/
def decFeed0 : DecFeed := ⟨[], [], false, false, true, false, false, false, 0, 0, [], []⟩

/-- The decoder's state of feed `f`. -/
def State.decFeed (s : State) (f : Nat) : DecFeed := Store.getD decFeed0 f s.decFeeds

/-- Set the decoder's state of a feed. -/
def State.setDecFeed (s : State) (f : Nat) (x : DecFeed) : State :=
  { s with decFeeds := Store.setD decFeed0 f x s.decFeeds }

/-- An idle pipeline. -/
def dec0 : DecSt := ⟨none, none, [], [], none⟩

/-- Pipeline `n`. -/
def State.pipe (s : State) (n : Nat) : DecSt := Store.getD dec0 n s.dec

/-- Set pipeline `n`. -/
def State.setPipe (s : State) (n : Nat) (x : DecSt) : State := { s with dec := Store.setD dec0 n x s.dec }

/-- Pipeline `n` is fenced, so that its page is not decoded (R36, R207). -/
def State.decFenced (s : State) (n : Nat) : Bool := bit (s.rd 0 SYS_FENCE_A_DEC) n

/-! ### Schedule and binding -/

/-- The feed that a slot of pipeline `n` names, with a deferred write of the slot in use not yet in force (R204, R205). -/
def State.decSlot (s : State) (n : Nat) (copyB : Bool) (i : Nat) : Option Nat :=
  let p := pg .dec n
  let (f, v) :=
    match s.pipe n |>.slotOld with
    | some (j, f, v) =>
      if j = i ∧ copyB = s.on p DEC_SCHED_CTRL_ACTIVE then (f, v)
      else if copyB then (s.rd p (DEC_SLOTB_FEED i), s.on p (DEC_SLOTB_VALID i))
      else (s.rd p (DEC_SLOTA_FEED i), s.on p (DEC_SLOTA_VALID i))
    | none =>
      if copyB then (s.rd p (DEC_SLOTB_FEED i), s.on p (DEC_SLOTB_VALID i))
      else (s.rd p (DEC_SLOTA_FEED i), s.on p (DEC_SLOTA_VALID i))
  if v then some f else none

/-- Feed `f` is bound to pipeline `n` (R206). -/
def State.decBound (s : State) (n f : Nat) : Bool :=
  ((upTo 64).any fun i => decide (s.decSlot n false i = some f) || decide (s.decSlot n true i = some f)) ||
    (match (s.pipe n).job with
     | some j => decide (j.feed = f)
     | none => false)

/-- Another pipeline that feed `f` is bound to. -/
def State.decHolder (s : State) (n f : Nat) : Option Nat :=
  (upTo 8).find? fun m => decide (m ≠ n) && s.decBound m f

/-- AU_RD of feed `f`, taken as 0 until the pipeline has seen the latest enable (R210, R211; log entry 13). -/
def State.auRd (s : State) (f : Nat) : Nat := if s.ctx f 0x3CC 4 = s.ctx f 0x3D4 4 then s.ctx f 0x3D0 4 else 0

/-- Unconsumed admission records of feed `f` (R210). -/
def State.auWaiting (s : State) (f : Nat) : Nat := (s.ctx f 0x3C8 4 + 2 ^ 32 - s.auRd f) % 2 ^ 32

/-- Feed `f` is enabled and has a record for its pipeline (R204). -/
def State.decWork (s : State) (f : Nat) : Bool := s.feedOn f && (s.feedCtx f).isSome && decide (0 < s.auWaiting f)

/-- The first slot from `i` up of the active copy whose feed has work. -/
def State.decFrom (s : State) (n i : Nat) : Option (Nat × Nat) :=
  let act := s.on (pg .dec n) DEC_SCHED_CTRL_ACTIVE
  match ((upTo 64).drop i).find? (fun j => match s.decSlot n act j with
      | some f => s.decWork f
      | none => false) with
  | some j => (s.decSlot n act j).map fun f => (j, f)
  | none => none

/-- No valid slot of the active copy has work (R205). -/
def State.decIdle (s : State) (n : Nat) : Bool := (s.pipe n).job.isNone && (s.decFrom n 0).isNone

/-- Make the other copy active, with its record (R205). -/
def State.decSwap (s : State) (n : Nat) : State :=
  let p := pg .dec n
  let a := !s.on p DEC_SCHED_CTRL_ACTIVE
  ((s.wb p DEC_SCHED_CTRL_ACTIVE a).wb p DEC_SCHED_CTRL_SWAP false).emit p 0x2001 [b2n a]

/-- Swap at the wrap where a swap is requested. -/
def State.decWrap (s : State) (n : Nat) : State := if s.on (pg .dec n) DEC_SCHED_CTRL_SWAP then s.decSwap n else s

/-- Choose the next slot (R204, R205): from the current slot up, then across the wrap; with no work the pipeline stands at
the wrap, idle. The chosen slot and feed. -/
def State.decChoose (s : State) (n : Nat) : Option (Nat × Nat) × State :=
  let p := pg .dec n
  let start := if s.on p DEC_SCHED_CTRL_IDLE then 0 else s.rd p DEC_SCHED_CTRL_CUR + 1
  match s.decFrom n start with
  | some x => (some x, (s.wr p DEC_SCHED_CTRL_CUR x.1).wb p DEC_SCHED_CTRL_IDLE false)
  | none =>
    let s := s.decWrap n
    match s.decFrom n 0 with
    | some x => (some x, (s.wr p DEC_SCHED_CTRL_CUR x.1).wb p DEC_SCHED_CTRL_IDLE false)
    | none => (none, s.wb p DEC_SCHED_CTRL_IDLE true)

/-- While no slot of the active copy has work, the idle pipeline stands at the wrap: the next choice starts at slot 0, and a swap that
waits is made (R205). -/
def State.decRest (s : State) (n : Nat) : State :=
  if s.decIdle n then (s.decWrap n).wb (pg .dec n) DEC_SCHED_CTRL_IDLE true else s

/-- Every pipeline, after work may have gone. -/
def State.decRestAll (s : State) : State := (upTo 8).foldl State.decRest s

/-- R206 DEC_SLOT_WRITE: refused where the feed named is bound elsewhere; a write to the slot in use takes effect at DONE
and reads back at once. -/
def State.decSlotWrite (s : State) (n : Nat) (copyB : Bool) (i v : Nat) : State :=
  let p := pg .dec n
  let f := v % 512
  let valid := bit v 15
  match (if valid then s.decHolder n f else none) with
  | some m => s.emit p 0x1801 (le f 2 ++ [i, b2n copyB, m])
  | none =>
      let d := s.pipe n
      let inUse := d.job.isSome && decide (copyB = s.on p DEC_SCHED_CTRL_ACTIVE) && decide (i = s.rd p DEC_SCHED_CTRL_CUR)
      let old := if copyB then (i, s.rd p (DEC_SLOTB_FEED i), s.on p (DEC_SLOTB_VALID i))
                 else (i, s.rd p (DEC_SLOTA_FEED i), s.on p (DEC_SLOTA_VALID i))
      let s := if inUse && d.slotOld.isNone then s.setPipe n { d with slotOld := some old } else s
      let s := if copyB then (s.wr p (DEC_SLOTB_FEED i) f).wb p (DEC_SLOTB_VALID i) valid
        else (s.wr p (DEC_SLOTA_FEED i) f).wb p (DEC_SLOTA_VALID i) valid
      s.decRest n

/-- R206 DEC_SLOT_WRITE. -/
def execDecSlotWrite (w : Writer) (n : Fin 8) (copyB : Bool) (slot : Fin 64) (v : Word) (s : State) :
    Host.Outcome State Fault Refusal :=
  done (if s.pageFenced .dec n.val then
      s.fencedWrite w (pg .dec n.val + (if copyB then 0x300 else 0x200) + 4 * slot.val) v.toNat
    else s.decSlotWrite n.val copyB slot.val v.toNat)

/-- R205 DEC_SLOT_SWAP_REQUEST: at once while the pipeline is idle, else at the next wrap. -/
def execDecSlotSwapRequest (w : Writer) (n : Fin 8) (s : State) : Host.Outcome State Fault Refusal :=
  done (if s.pageFenced .dec n.val then s.missRecord w .write (pg .dec n.val + 0x100)
    else if s.decIdle n.val then (s.decSwap n.val).wb (pg .dec n.val) DEC_SCHED_CTRL_IDLE true
    else s.wb (pg .dec n.val) DEC_SCHED_CTRL_SWAP true)

/-! ### Restart and flush -/

/-- STATE byte of the context (R209). -/
def State.decState (s : State) (f : Nat) : Nat := s.ctx f 0x3D8 1 % 4

/-- CHAIN of the context. -/
def State.decChain (s : State) (f : Nat) : Bool := bit (s.ctx f 0x3D8 1) 2

/-- Write STATE with CHAIN, CODEC and luma bit depth. -/
def State.decPutState (s : State) (f st : Nat) (chain : Bool) : State :=
  let b := s.ctx f 0x3D8 1
  s.ctxPut f 0x3D8 (st + 4 * b2n chain + 8 * b2n (s.decFeed f).h265 + 16 * bits b 4 4) 1

/-- The eight bytes of a reference view entry (R488). -/
def viewEntry (x : DecPic) : List Nat :=
  le (x.bay + 2 ^ 13 + b2n x.short * 2 ^ 14 + b2n x.long * 2 ^ 15 + x.gen * 2 ^ 16) 4 ++ le (uint 32 x.poc) 4

/-- Insert a picture in ascending picture order count. -/
def pocInsert (x : DecPic) : List DecPic → List DecPic
  | [] => [x]
  | y :: t => if x.poc < y.poc then x :: y :: t else y :: pocInsert x t

/-- Pictures in ascending picture order count. -/
def pocSort (l : List DecPic) : List DecPic := l.foldl (fun t x => pocInsert x t) []

/-- Rewrite the reference view (R488). -/
def State.decView (s : State) (f : Nat) : State :=
  let l := (pocSort ((s.decFeed f).dpb.filter fun x => !x.ghost && (x.short || x.long))).take 16
  match s.feedCtx f with
  | some b => s.loftPut (b + 0x400) (padTo 128 (l.flatMap viewEntry))
  | none => s

/-- MARKS bits. -/
abbrev markShort : Nat := 1
abbrev markLong : Nat := 2
abbrev markPending : Nat := 4
abbrev markCand : Nat := 8

/-- The context's private bytes, 0x000 to 0x3BF: parsed parameter sets and entropy state (R208). -/
def State.decPriv (s : State) (f : Nat) : List Nat :=
  match s.feedCtx f with
  | some b => (upTo 0x3C0).map fun i => s.loftLE (b + i) 1
  | none => []

/-- Write them. -/
def State.decPrivPut (s : State) (f : Nat) (l : List Nat) : State :=
  match s.feedCtx f with
  | some b => s.loftPut b (padTo 0x3C0 l)
  | none => s

/-- Restart a feed's decode (R211); a flush also clears candidates and keeps the record counts (R227). -/
def State.decRestart (s : State) (f : Nat) (flush : Bool) : State :=
  let d := s.decFeed f
  let s := (d.dpb.filter fun x => !x.ghost).foldl (fun s x => (s.marksClear x.bay x.gen 7).ownerRelease x.bay x.gen) s
  let s := if flush then d.outs.foldl (fun s x => s.marksClear x.bay x.gen markCand) s else s
  let s := s.setDecFeed f { d with dpb := [], outs := if flush then [] else d.outs, fresh := true, eos := false, raslSkip := false,
                                   craChain := false, chainPics := 0, prevFrame := 0, prev := [], latest := [] }
  let s := ((s.decPrivPut f []).ctxPut f 0x3F0 0 4).decPutState f 1 false
  let s := if flush then s else ((s.ctxPut f 0x3D0 0 4).ctxPut f 0x3DC 0 4).ctxPut f 0x3D4 (s.ctx f 0x3CC 4) 4
  s.decView f

/-- R227 DEC_FLUSH: at the next picture boundary of the pipeline the feed is bound to, at once where it is bound to none. -/
def execDecFlush (w : Writer) (n : Fin 8) (f : Fin 512) (s : State) : Host.Outcome State Fault Refusal :=
  let p := pg .dec n.val
  done (if s.pageFenced .dec n.val then s.missRecord w .write (p + 0x11C)
    else match s.decHolder n.val f.val with
      | some m => s.emit p 0x3001 (le f.val 2 ++ [0, 0, m])
      | none =>
        let d := s.pipe n.val
        if d.job.isSome && s.decBound n.val f.val then s.setPipe n.val { d with flushes := d.flushes ++ [f.val] }
        else s.decRestart f.val true)

/-! ### Completion and drops -/

/-- Open a concealment chain (R220), where none is open. -/
def State.chainOpen (s : State) (n f auseq cause : Nat) : State :=
  if s.decChain f then s
  else
    let s := (s.decPutState f (s.decState f) true).setDecFeed f { s.decFeed f with chainPics := 0 }
    s.emit (pg .dec n) 0x0801 (le f 2 ++ le auseq 2 ++ [cause])

/-- Write completion entry k and DONE_WR + 1 (R216), after the reference view (R488). Entry k of the run lies in slot
k mod 16. -/
def State.decComplete (s : State) (f auseq flags out : Nat) : State :=
  let s := s.decView f
  let k := s.ctx f 0x3DC 4
  match s.feedCtx f with
  | none => s
  | some b =>
    (s.loftPut (b + 0x500 + 16 * (k % 16)) (le s.now 8 ++ le auseq 2 ++ le flags 2 ++ le out 4)).ctxPut f 0x3DC
      ((k + 1) % 2 ^ 32) 4

/-- Consume a record: AU_RD + 1 (R210). -/
def State.decConsume (s : State) (f : Nat) : State := s.ctxPut f 0x3D0 ((s.ctx f 0x3D0 4 + 1) % 2 ^ 32) 4

/-- Drop an access unit (R212, R229). `ref`: 1 reference or treated as one, 0 not, 2 not known; `silent` writes no record. -/
def State.decDrop (s : State) (n f auseq reason ref : Nat) (silent : Bool) : State :=
  let p := pg .dec n
  let s := if silent then s else s.emit p 0x0001 (le f 2 ++ le auseq 2 ++ [reason, ref])
  let s := if ref = 1 ∧ !silent then s.chainOpen n f auseq 4 else s
  let s := (s.ctxPut f 0x3EC ((s.ctx f 0x3EC 4 + 1) % 2 ^ 32) 4).cnt p DEC_DROPPED_COUNT 1
  (s.setDecFeed f { s.decFeed f with latest := [] }).decComplete f auseq 4 0

/-- Bytes per sample of a decoded picture. -/
def bps (depth : Nat) : Nat := if depth = 8 then 1 else 2

/-- CTB_LOG2: 4 for H.264; 4, 5 or 6 for H.265 (R224). -/
def ctbOf (h265 : Bool) (h : AuHead) : Nat := if h265 then max 4 (min h.ctbLog2 6) else 4

/-- Coding tree units per row and rows of them (R224). -/
def ctuDim (h265 : Bool) (h : AuHead) : Nat × Nat :=
  let c := 2 ^ ctbOf h265 h
  ((h.width + c - 1) / c, (h.height + c - 1) / c)

/-! ### What is accepted (R200 to R202) -/

/-- A profile that R200 does not list. -/
def profileBad (h265 : Bool) (h : AuHead) : Bool :=
  if h265 then !(decide (h.profile = 1) || decide (h.profile = 2) || h.compat1 || h.compat2)
  else !((decide (h.profile = 66) && h.cset1) || decide (h.profile = 77) || decide (h.profile = 100))

/-- A level above 5.1 (R200). -/
def levelBad (h265 : Bool) (h : AuHead) : Bool := decide ((if h265 then 153 else 51) < h.level)

/-- Macroblocks of a picture. -/
def mbsOf (h : AuHead) : Nat := (h.width + 15) / 16 * ((h.height + 15) / 16)

/-- A coded size outside R201. -/
def sizeBad (h265 : Bool) (h : AuHead) : Bool :=
  decide (h.width < 128) || decide (h.height < 96) || decide (4096 < h.width) || decide (2304 < h.height) ||
    (if h265 then decide (8912896 < h.width * h.height) else decide (36864 < mbsOf h))

/-- A chroma format or bit depth outside R200. DEDUCED: a stream whose luma and chroma depths differ is neither an 8-bit nor a 10-bit
stream (log entry 12). -/
def depthBad (h265 : Bool) (h : AuHead) : Bool :=
  decide (h.chromaFormat ≠ 1) || decide (h.depth ≠ h.chromaDepth) ||
    !(decide (h.depth = 8) || (h265 && (decide (h.profile = 2) || h.compat2) && decide (h.depth = 10)))

/-- Why active parameter sets are unsupported (R202), by the codes of STREAM_UNSUP; the first in their order (log entry 12). -/
def unsupOf (h265 : Bool) (h : AuHead) : Option Nat :=
  ([profileBad h265 h, levelBad h265 h, sizeBad h265 h, depthBad h265 h, h.interlaced, h.scaling, !h265 && decide (0 < h.sliceGroups),
    decide (2 < h.spsCount) || decide (8 < h.ppsCount) || (h265 && decide (1 < h.vpsCount)), h265 && h.extension]).findIdx? (·)

/-- MaxDpbMbs of an H.264 level. PRESUMED: Table A-1 of the standard that R214 names (log entry 12). -/
def maxDpbMbs (level : Nat) : Nat :=
  if level ≤ 10 then 396 else if level = 11 then 900 else if level ≤ 20 then 2376 else if level = 21 then 4752
  else if level ≤ 30 then 8100 else if level = 31 then 18000 else if level = 32 then 20480 else if level ≤ 41 then 32768
  else if level = 42 then 34816 else if level = 50 then 110400 else 184320

/-- The reorder depth the stream gives (R214): `tid`, the highest sub-layer decoded. -/
def streamDepth (h265 : Bool) (h : AuHead) (tid : Nat) : Nat :=
  if h265 then h.subReorder.getD (min tid (h.subReorder.length - 1)) 0
  else match h.vuiReorder with
    | some n => n
    | none => if h.profile = 66 then 0 else min 16 (maxDpbMbs h.level / max 1 (mbsOf h))

/-- A bay fits a decoded picture (R212). -/
def State.decFits (s : State) (b : Nat) (h265 : Bool) (h : AuHead) : Bool :=
  let p := bayE b
  let line := s.rd p BAYD_STRIDE_STRIDE * 64
  let p2 := 4096 * s.rd p BAYD_PLANE2_OFF
  let st := 4096 * s.rd p BAYD_STATS_OFF
  let c := ctuDim h265 h
  decide (s.rd p BAYD_SIZE_FORMAT = if h.depth = 8 then 0 else 1) && decide (h.width ≤ s.rd p BAYD_DIM_WIDTH) &&
    decide (h.height ≤ s.rd p BAYD_DIM_HEIGHT) && decide (h.width * bps h.depth ≤ line) &&
    decide (line * h.height ≤ p2) && decide (p2 + line * ((h.height + 1) / 2) ≤ st) &&
    decide (st + 64 + 8 * c.1 * c.2 ≤ s.baySize b)

/-- CLASS, MAX_TID and the reorder depth of the context header, and KEEP in ns (R209, R214). -/
def State.decClass (s : State) (f : Nat) : Nat := s.ctx f 0x3C0 1 % 16
def State.decMaxTid (s : State) (f : Nat) : Nat := s.ctx f 0x3C1 1 % 8
def State.decDepth (s : State) (f : Nat) (h : AuHead) : Nat :=
  let r := s.ctx f 0x3C2 1 % 32
  if r ≤ 16 then r else streamDepth (s.decFeed f).h265 h (s.decMaxTid f)
def State.decKeep (s : State) (f : Nat) : Nat :=
  let k := s.ctx f 0x3C4 2
  (if k = 0 then 100 else k) * 1000000

/-- Whether the picture is an IRAP picture (R220). -/
def isIrap (k : PicKind) : Bool :=
  match k with
  | .idr => true
  | .bla => true
  | .cra => true
  | _ => false

/-- Parameter sets take effect (R202, R209): the activation of unsupported ones makes STATE UNSUPPORTED with one STREAM_UNSUP record,
which an IRAP picture that activates supported ones ends; supported ones make STATE RUNNING. -/
def State.decActivate (s : State) (n f auseq : Nat) (h : AuHead) : State :=
  let d := s.decFeed f
  let s := s.decPrivPut f h.priv
  if !h.psetOk then (if s.decState f = 3 then s else s.decPutState f 1 (s.decChain f))
  else match unsupOf d.h265 h with
  | some r =>
    if h.activates ∨ s.decState f ≠ 3 then
      (s.decPutState f 3 (s.decChain f)).emit (pg .dec n) 0x1001 (le f 2 ++ le auseq 2 ++ [r])
    else s
  | none =>
    if s.decState f = 3 ∧ !(isIrap h.kind && h.activates) then s
    else
      let s := s.setDecFeed f { d with gapsAllowed := h.gapsAllowed }
      let s := s.ctxPut f 0x3D8 (2 + 4 * b2n (s.decChain f) + 8 * b2n d.h265 + 16 * (h.depth % 16)) 1
      let s := (s.ctxPut f 0x3D9 h.profile 1).ctxPut f 0x3DA h.level 1
      (s.ctxPut f 0x3DB (s.decDepth f h) 1).ctxPut f 0x3E0 (h.width + 2 ^ 16 * h.height) 4

/-- NoRaslOutputFlag of an IRAP picture (R214, R221): an IDR or BLA picture, or a CRA picture that is the first after a restart or
after an end of sequence. -/
def noRaslOf (d : DecFeed) (k : PicKind) : Bool :=
  match k with
  | .idr => true
  | .bla => true
  | .cra => d.fresh || d.eos
  | _ => false

/-- What an access unit's headers leave for those that follow it, decoded or dropped (R221): `chain`, a chain is open at it. -/
def DecFeed.atHead (d : DecFeed) (h : AuHead) (chain : Bool) : DecFeed :=
  let r := noRaslOf d h.kind
  if isIrap h.kind then { d with raslSkip := r, craChain := decide (h.kind = .cra) && !r && chain, eos := h.endOfSeq }
  else { d with eos := h.endOfSeq }

/-- A drop of an access unit whose headers have been read (R212); the chain that it opens is open at a CRA picture (R221). -/
def State.decDropAu (s : State) (n f auseq reason : Nat) (h : AuHead) : State :=
  let s := (s.decConsume f).decDrop n f auseq reason (b2n h.isRef) false
  let d := s.decFeed f
  if h.kind = .cra then s.setDecFeed f { d with craChain := !d.raslSkip && s.decChain f } else s

/-- The drop or start of an access unit whose ring bytes have been read (R202, R212, R221, R229). `switch`: the time in ns of the context
switch where the feed is another than the last (R203, R228). -/
def State.decBegin (s : State) (n f switch auseq flags tc adm : Nat) (coded : List Nat) (h : AuHead) : State :=
  let p := pg .dec n
  let s := s.decActivate n f auseq h
  let d := s.decFeed f
  let noRasl := noRaslOf d h.kind
  let s := s.setDecFeed f (d.atHead h (s.decChain f))
  if s.decState f = 3 then s.decDropAu n f auseq 2 h
  else if !h.psetOk then s.decDropAu n f auseq 3 h
  else if d.h265 ∧ s.decMaxTid f ≠ 7 ∧ s.decMaxTid f < h.tid then (s.decConsume f).decDrop n f auseq 0 0 true
  else if h.kind = .rasl ∧ d.raslSkip then
    ((s.decConsume f).setDecFeed f { s.decFeed f with latest := [] }).decComplete f auseq 0 0
  else
    match s.alloc (s.decClass f) (fidOf .dec n) with
    | (none, s) => s.decDropAu n f auseq 0 h
    | (some (b, g), s) =>
      if !s.decFits b d.h265 h then (s.ownerRelease b g).decDropAu n f auseq 1 h
      else
        let e := bayE b
        let s := (s.wr64 e BAYD_TC_LO_TC BAYD_TC_HI_TC tc).wb e BAYD_STAT_ESTIMATED (bit flags 0)
        let s := (s.wr e BAYD_FSEQ_FSEQ auseq).wr e BAYD_FEED_FEED f
        let s := (s.wr p DEC_CUR_FEED f).wb p DEC_CUR_BUSY true
        let x := s.pipe n
        let s := if x.lastFeed = some f then s
          else s.wr p DEC_SWITCH_MAX_NS (max (s.rd p DEC_SWITCH_MAX_NS) (min switch 8000))
        s.setPipe n { x with job := some ⟨f, auseq, flags, tc, adm, b, g, h, noRasl, coded, false, none⟩, lastFeed := some f }

/-- Note luma samples decoded and coded bits read for DEC_LOAD (R228). -/
def State.decNote (s : State) (n lum coded : Nat) : State :=
  let d := s.pipe n
  s.setPipe n { d with load := (s.now, lum, coded) :: d.load.filter fun x => decide (s.now < x.1 + 10 ^ 9) }

/-- DEC_LOAD (R228): luma samples of the last second in thousandths of 2.08 Gpx/s, and coded input in Mb/s. -/
def State.decLoad (s : State) (n : Nat) : Nat × Nat :=
  let l := (s.pipe n).load.filter fun x => decide (s.now < x.1 + 10 ^ 9)
  (min (l.foldl (fun t x => t + x.2.1) 0 / 2080000) 1023, min (l.foldl (fun t x => t + x.2.2) 0 / 1000000) 1023)

/-- Take the oldest record of feed `f` (R210, R211): a restart first where the feed was enabled anew; an empty access unit
is dropped; the coded bytes are read tagged (R143), and parsed with the private bytes of the context. -/
def State.decTake (s : State) (n f switch : Nat) : State :=
  let s := s.ctxExamine (10 + n) f
  let s := if s.ctx f 0x3CC 4 = s.ctx f 0x3D4 4 then s else s.decRestart f false
  let s := s.setDecFeed f { s.decFeed f with h265 := decide (s.rd (feedE f) FEEDD_W00_CODEC = 1) }
  let r := 0x600 + 32 * (s.ctx f 0x3D0 4 % 16)
  let len := s.ctx f (r + 0x14) 4
  let auseq := s.ctx f (r + 0x1C) 2
  let flags := s.ctx f (r + 0x1E) 2
  let d := s.decFeed f
  if len = 0 then
    let s := if !d.h265 && d.gapsAllowed then s.chainOpen n f auseq 5 else s
    (s.decConsume f).decDrop n f auseq 6 2 false
  else
    let e := feedE f
    match s.bayRead (10 + n) (fidOf .dec n) (s.rd e FEEDD_RING_RING_BAY) (s.rd e FEEDD_RING_RING_GEN) auseq
        (s.ctx f (r + 0x10) 4) len true with
    | (none, s) => (s.decConsume f).decDrop n f auseq 4 1 false
    | (some l, s) =>
      (s.decNote n 0 (8 * len)).decBegin n f switch auseq flags (s.ctx f r 8) (s.ctx f (r + 8) 8) l
        (Config.auHead d.h265 (s.decPriv f) l)

/-- R210 AU_RECORD_CONSUME: entropy decode has read the last byte of the access unit in progress. -/
def execAuRecordConsume (n : Fin 8) (s : State) : Host.Outcome State Fault Refusal :=
  let d := s.pipe n.val
  done (match d.job with
    | none => s
    | some j =>
      if j.consumed then s
      else (s.decConsume j.feed).setPipe n.val { d with job := some { j with consumed := true } })

/-! ### A picture done -/

/-- A frame_num gap (R219): H.264, neither the number of the reference frame before nor the next one. -/
def frameGap (d : DecFeed) (j : DecJob) (b : AuBody) : Bool :=
  !d.h265 && !d.fresh && decide (j.head.kind ≠ .idr) && decide (b.frameNum ≠ d.prevFrame) &&
    decide (b.frameNum ≠ (d.prevFrame + 1) % max 1 b.maxFrameNum)

/-- The causes of R219 that a picture shows, its reference reads having been made. -/
def causesOf (d : DecFeed) (j : DecJob) (b : AuBody) (ctus : List Ctu) (readsOk : Bool) : List Nat :=
  let absent := b.needs.any (fun q => !d.dpb.any fun x => !x.ghost && (x.short || x.long) && decide (x.poc = q)) ||
    (frameGap d j b && !d.gapsAllowed)
  (if absent then [0] else []) ++ (if ctus.any (fun c => decide (c.state = .noSlice)) then [1] else []) ++
    (if b.err.isSome then [2] else []) ++ (if readsOk then [] else [3]) ++
    (if bit j.flags 3 || (!d.h265 && d.gapsAllowed && bit j.flags 2) then [5] else []) ++
    (if d.fresh && !isIrap j.head.kind then [6] else [])

/-- A sample as its bay holds it: one byte, or 16 bits with the value in [15:6] (R135). -/
def sampleBytes (depth v : Nat) : List Nat := if depth = 8 then [v % 256] else le (v % 1024 * 64) 2

/-- `n` bytes of the substitute (R218). -/
def substBytes (depth n : Nat) : List Nat :=
  ((List.replicate ((n + 1) / bps depth) (2 ^ (depth - 1))).flatMap (sampleBytes depth)).take n

/-- Make the reference reads, tagged with the reference bay's FSEQ (R143, R218): for each, its data, the substitute's where the picture
is absent or the read fails, and whether it was the substitute; and whether no read failed. -/
def State.refReads (s : State) (n : Nat) (d : DecFeed) (depth : Nat) : List RefRead → List (List Nat × Bool) × Bool × State
  | [] => ([], true, s)
  | x :: t =>
    match d.dpb.find? (fun y => !y.ghost && (y.short || y.long) && decide (y.poc = x.poc)) with
    | some y =>
      let q := s.bayRead (10 + n) (fidOf .dec n) y.bay y.gen (s.rd (bayE y.bay) BAYD_FSEQ_FSEQ) x.off x.len true
      let r := q.2.refReads n d depth t
      match q.1 with
      | some l => ((l, false) :: r.1, r.2)
      | none => ((substBytes depth x.len, true) :: r.1, false, r.2.2)
    | none =>
      let r := s.refReads n d depth t
      ((substBytes depth x.len, true) :: r.1, r.2)

/-! ### Statistics (R224, R225) -/

/-- A coding tree unit of which nothing was received. -/
def ctuNone : Ctu := ⟨.noSlice, [], false, 0, [], 0, 0, []⟩

/-- The picture's coding tree units in raster order, one for each place. -/
def ctusOf (h265 : Bool) (h : AuHead) (b : AuBody) : List Ctu :=
  (upTo ((ctuDim h265 h).1 * (ctuDim h265 h).2)).map fun i => b.ctus.getD i ctuNone

/-- A block is moving (R225): a vector of at least 4 quarter samples. -/
def blockMoves (l : List (Int × Int)) : Bool := l.any fun v => decide (4 ≤ v.1.natAbs + v.2.natAbs)

/-- The blocks of a coding tree unit: at most 64, and none where it was not decoded. -/
def ctuBlocks (c : Ctu) : List (List (Int × Int)) := if c.state = .decoded then c.blocks.take 64 else []

/-- No inter-predicted block. -/
def ctuIntra (c : Ctu) : Bool := (ctuBlocks c).all List.isEmpty

/-- A mean in whole samples, truncated towards 0 and clamped; the vectors of a unit's blocks counted each once (log entry 12). -/
def meanMv (l : List Int) : Int := clamp (-128) 127 ((l.foldl (· + ·) 0).tdiv (4 * max 1 l.length : Nat))

/-- MOTION, MVX and MVY of each coding tree unit, copied from the previous picture where the unit has no inter-predicted
block (R225). -/
def carried (prev : List (Nat × Int × Int)) (l : List Ctu) : List (Nat × Int × Int) :=
  l.zipIdx.map fun x =>
    if ctuIntra x.1 then prev.getD x.2 (0, 0, 0)
    else (((ctuBlocks x.1).filter blockMoves).length, meanMv ((ctuBlocks x.1).flatten.map (·.1)), meanMv ((ctuBlocks x.1).flatten.map (·.2)))

/-- The unit is filled with the substitute, or predicted from it: `subst`, per read, whether it was the substitute (R225 CONC). -/
def ctuConc (subst : List Bool) (c : Ctu) : Bool := decide (c.state ≠ .decoded) || c.uses.any fun i => subst.getD i false

/-- The eight bytes of a coding tree unit's entry (R225). -/
def ctuEntry (subst : List Bool) (c : Ctu) (m : Nat × Int × Int) : List Nat :=
  [m.1 % 256, uint 8 m.2.1, uint 8 m.2.2,
    b2n (ctuIntra c) + 2 * b2n c.skip + 4 * b2n (ctuIntra c) + 8 * b2n (ctuConc subst c) + 16 * b2n (decide (c.state = .noSlice))] ++
    le (min (c.upTo_ - c.from_) 65535) 2 ++ le (min (c.levels.foldl (fun t x => t + x.natAbs) 0) 65535) 2

/-- QP_AVG: the mean luma QP of the decoded coding tree units, truncated (R224). -/
def qpAvg (ctus : List Ctu) : Nat :=
  let l := (ctus.filter fun c => decide (c.state = .decoded)).map (·.qp)
  uint 8 ((l.foldl (· + ·) 0).tdiv (max 1 l.length : Nat))

/-- The statistics of a picture (R224). -/
def statBytes (j : DecJob) (b : AuBody) (ctus : List Ctu) (h265 conc : Bool) (subst : List Bool) (m : List (Nat × Int × Int)) :
    List Nat :=
  let h := j.head
  let c := ctuDim h265 h
  let flags := b2n conc + 2 * b2n (ctus.all ctuIntra) + 4 * b2n (isIrap h.kind) +
    8 * b2n (ctus.any fun c => decide (c.state = .noSlice)) + 16 * b2n (subst.any id || ctus.any fun c => ctuConc subst c)
  padTo 64 ([ctbOf h265 h, flags] ++ le c.1 2 ++ le c.2 2 ++ [qpAvg ctus, h.depth] ++ le h.width 2 ++ le h.height 2 ++
    le h.cropL 2 ++ le h.cropR 2 ++ le h.cropT 2 ++ le h.cropB 2 ++ le b.sliceBits 4 ++
    le (m.filter fun x => decide (0 < x.1)).length 4 ++ le (uint 32 b.poc) 4 ++ le j.auseq 2 ++ [b2n h265]) ++
    (ctus.zip m).flatMap fun x => ctuEntry subst x.1 x.2

/-- The sample at (x, y) of a plane: the substitute where its coding tree unit was not decoded (R218). `cw`, `ch`: samples of
the plane per coding tree unit; `wc`: units per row. -/
def fillSample (depth : Nat) (ctus : List Ctu) (wc cw ch x y v : Nat) : Nat :=
  match ctus[y / ch * wc + x / cw]? with
  | some c => if c.state = .decoded then v else 2 ^ (depth - 1)
  | none => v

/-- One row of a plane as bytes. -/
def rowBytes (depth : Nat) (ctus : List Ctu) (wc cw ch w y : Nat) (l : List Nat) : List Nat :=
  ((l.drop (y * w)).take w).zipIdx.flatMap fun x => sampleBytes depth (fillSample depth ctus wc cw ch x.2 y x.1)

/-- Write rows of a bay, tagged (R143): whether all were acknowledged without an error. -/
def State.putRows (s : State) (n : Nat) (j : DecJob) (l : List (Nat × List Nat)) : Bool × State :=
  l.foldl (fun r x =>
    let q := r.2.bayWrite (10 + n) (fidOf .dec n) j.bay j.gen j.auseq x.1 x.2
    (r.1 && q.1, q.2)) (true, s)

/-- Write the picture's lines and statistics, tagged under R143 (R213, R224): `px`, its luma and chroma samples. -/
def State.decWrite (s : State) (n : Nat) (j : DecJob) (h265 : Bool) (ctus : List Ctu) (px : List Nat × List Nat) (stats : List Nat) :
    Bool × State :=
  let h := j.head
  let e := bayE j.bay
  let line := s.rd e BAYD_STRIDE_STRIDE * 64
  let c := 2 ^ ctbOf h265 h
  let wc := (ctuDim h265 h).1
  let w2 := (h.width + 1) / 2 * 2
  let p2 := 4096 * s.rd e BAYD_PLANE2_OFF
  s.putRows n j (((upTo h.height).map fun y => (y * line, rowBytes h.depth ctus wc c c h.width y px.1)) ++
    ((upTo ((h.height + 1) / 2)).map fun y => (p2 + y * line, rowBytes h.depth ctus wc c (c / 2) w2 y px.2)) ++
    [(4096 * s.rd e BAYD_STATS_OFF, stats)])

/-! ### Marking and output (R214, R215) -/

/-- Output a picture (R215): its ADMIT, CANDIDATE, LAST_OUT. -/
def State.decOutput (s : State) (f : Nat) (j : DecJob) (x : DecPic) : State :=
  let s := if s.bayHeld x.bay x.gen then s.wr64 (bayE x.bay) BAYD_ADMIT_LO_ADMIT BAYD_ADMIT_HI_ADMIT j.adm else s
  let s := (s.marksSet x.bay x.gen markCand).marksClear x.bay x.gen markPending
  let d := s.decFeed f
  let s := s.setDecFeed f { d with outs := d.outs ++ [⟨x.bay, x.gen, max j.adm s.now⟩] }
  (s.ctxPut f 0x3F0 (x.bay + 2 ^ 13 + 2 ^ 16 * x.gen) 4).ctxPut f 0x3F4 j.auseq 4

/-- Output pictures in the order given. -/
def State.decOutputs (s : State) (f : Nat) (j : DecJob) (l : List DecPic) : State := l.foldl (fun s x => s.decOutput f j x) s

/-- FrameNumWrap of a short-term frame seen from frame_num `cur` (H.264). -/
def frameWrap (cur max_ : Nat) (x : DecPic) : Int := if cur < x.frameNum then (x.frameNum : Int) - max_ else x.frameNum

/-- A picture no longer marked as a reference. -/
def unref (x : DecPic) : DecPic := { x with short := false, long := false }

/-- The sliding window (H.264, R214): with the window full, the short-term frame of smallest FrameNumWrap loses its mark. -/
def slide (num cur max_ : Nat) (l : List DecPic) : List DecPic :=
  if (l.filter fun x => x.short || x.long).length < max num 1 then l
  else
    let sh := l.filter fun x => x.short
    match sh.find? fun x => sh.all fun y => decide (frameWrap cur max_ x ≤ frameWrap cur max_ y) with
    | some x => mapWhere (fun y => decide (y = x)) unref l
    | none => l

/-- Frames inferred for a permitted gap in frame_num (H.264): each slides the window and enters it without a bay. -/
def fillGap (num max_ : Nat) (l : List DecPic) (nums : List Nat) : List DecPic :=
  nums.foldl (fun l u => slide num u max_ l ++ [⟨0, 0, 0, true, false, false, u, 0, true⟩]) l

/-- The frame numbers of a gap; no more of them than a window can hold matter. -/
def gapNums (prev cur max_ : Nat) : List Nat :=
  let k := (cur + max_ - prev - 1) % max 1 max_
  ((upTo k).drop (k - 16)).map fun i => (prev + 1 + i) % max 1 max_

/-- One memory management control operation of H.264 on the earlier pictures, `cur` being the picture's frame_num (R214). -/
def mmcoStep (cur max_ : Nat) (l : List DecPic) (o : Nat × Nat × Nat) : List DecPic :=
  let isNum := fun (x : DecPic) => x.short && decide (frameWrap cur max_ x = (cur : Int) - (o.2.1 + 1 : Nat))
  match o.1 with
  | 1 => mapWhere isNum (fun x => { x with short := false }) l
  | 2 => mapWhere (fun x => x.long && decide (x.longIdx = o.2.1)) unref l
  | 3 => mapWhere isNum (fun x => { x with short := false, long := true, longIdx := o.2.2 })
      (mapWhere (fun x => x.long && decide (x.longIdx = o.2.2)) unref l)
  | 4 => mapWhere (fun x => x.long && decide (o.2.1 ≤ x.longIdx)) unref l
  | 5 => l.map unref
  | 6 => mapWhere (fun x => x.long && decide (x.longIdx = o.2.1)) unref l
  | _ => l

/-- The picture carries memory management control operation `k`: its first operand. -/
def mmcoOf (b : AuBody) (k : Nat) : Option Nat := ((b.mmco.getD []).find? fun o => decide (o.1 = k)).map (·.2.1)

/-- The marks of the earlier pictures once a picture is decoded (R214): the reference picture set of H.265; the sliding window or the
memory management control operations of H.264, frames inferred for a permitted gap first. -/
def markedOld (d : DecFeed) (j : DecJob) (b : AuBody) (gap : Bool) : List DecPic :=
  if isIrap j.head.kind && j.noRasl then d.dpb.map unref
  else if d.h265 then d.dpb.map fun x =>
    let lg := (x.short || x.long) && b.rpsLong.contains x.poc
    { x with long := lg, short := x.short && !lg && b.rpsShort.contains x.poc }
  else
    let l := if gap && d.gapsAllowed then fillGap b.numRefFrames b.maxFrameNum d.dpb (gapNums d.prevFrame b.frameNum b.maxFrameNum) else d.dpb
    if !j.head.isRef then l
    else match b.mmco with
      | none => slide b.numRefFrames b.frameNum b.maxFrameNum l
      | some ops => ops.foldl (mmcoStep b.frameNum b.maxFrameNum) l

/-- The picture just decoded, with its marks (R214). -/
def markedNew (d : DecFeed) (j : DecJob) (b : AuBody) : DecPic :=
  let lg := !d.h265 && (if j.head.kind = .idr then b.longIdr else (mmcoOf b 6).isSome)
  let fn := if (mmcoOf b 5).isSome then 0 else b.frameNum
  ⟨j.bay, j.gen, b.poc, (d.h265 || j.head.isRef) && !lg, j.head.isRef && lg, b.output, fn,
    if j.head.kind = .idr then 0 else (mmcoOf b 6).getD 0, false⟩

/-- Carry a changed mark of an earlier picture into its bay's MARKS. -/
def State.decRemark (s : State) (old new : DecPic) : State :=
  if old.ghost then s
  else
    let s := if new.long && !old.long then s.marksSet new.bay new.gen markLong else s
    let s := if old.long && !new.long then s.marksClear new.bay new.gen markLong else s
    if old.short && !new.short then s.marksClear new.bay new.gen markShort else s

/-- Reference marking, output and bumping at a picture's DONE (R214, R215): the pictures output, oldest first. -/
def State.decMark (s : State) (f : Nat) (j : DecJob) (b : AuBody) (gap : Bool) : List DecPic × State :=
  let d := s.decFeed f
  let flushAll := j.noRasl || (mmcoOf b 5).isSome
  let pend := pocSort (d.dpb.filter fun x => x.pending)
  let prior := if flushAll && !b.noOutPrior then pend else []
  let s := s.decOutputs f j prior
  let s := if flushAll && b.noOutPrior then pend.foldl (fun s x => s.marksClear x.bay x.gen markPending) s else s
  let old := markedOld d j b gap
  let s := (d.dpb.zip old).foldl (fun s x => s.decRemark x.1 x.2) s
  let me := markedNew d j b
  let s := s.marksSet j.bay j.gen (b2n me.short * 1 + b2n me.long * 2 + b2n me.pending * 4)
  let all := (old.map fun x => if flushAll then { x with pending := false } else x) ++ [me]
  let waiting := pocSort (all.filter fun x => x.pending)
  let bump := waiting.take (waiting.length - s.decDepth f j.head)
  let s := s.decOutputs f j bump
  let rest := (all.map fun x => if bump.contains x then { x with pending := false } else x).filter fun x =>
    x.short || x.long || x.pending
  let prev := if (mmcoOf b 5).isSome then 0 else if j.head.isRef then b.frameNum
    else if gap then (b.frameNum + b.maxFrameNum - 1) % max 1 b.maxFrameNum else d.prevFrame
  let l := prior ++ bump
  (l, s.setDecFeed f { s.decFeed f with dpb := rest, prevFrame := prev, latest := l.map fun x => (x.bay, x.gen) })

/-- Chains at a picture's DONE (R219, R220): the picture's mark, and the state with its records. -/
def State.decChainStep (s : State) (n f : Nat) (j : DecJob) (causes : List Nat) (raslConc : Bool) : Bool × State :=
  let p := pg .dec n
  let s :=
    if s.decChain f && isIrap j.head.kind && causes.isEmpty then
      (s.decPutState f (s.decState f) false).emit p 0x0802 (le f 2 ++ le j.auseq 2 ++ le (s.decFeed f).chainPics 4)
    else match causes with
      | [] => s
      | c :: t => s.chainOpen n f j.auseq (t.foldl min c)
  let chain := s.decChain f
  let d := s.decFeed f
  let s := if chain then s.setDecFeed f { d with chainPics := (d.chainPics + 1) % 2 ^ 32 } else s
  (chain || raslConc, s)

/-- The pipeline's picture boundary after a job (R205, R227): a deferred slot write is in force, flushes take place; with no work
it stands at the wrap. -/
def State.decBoundary (s : State) (n : Nat) : State :=
  let p := pg .dec n
  let d := s.pipe n
  let s := (s.wr p DEC_CUR_FEED 0x3FF).wb p DEC_CUR_BUSY false
  let s := s.setPipe n { d with job := none, slotOld := none, flushes := [] }
  (d.flushes.foldl (fun s f => s.decRestart f true) s).decRest n

/-- A picture's bay once its lines and statistics are written (R213): CONCEALED, and READY where no write failed; nothing where the bay
is no longer HELD for it (log entry 12). -/
def State.decReady (s : State) (j : DecJob) (conc ok : Bool) : State :=
  let e := bayE j.bay
  if !s.bayHeld j.bay j.gen then s
  else
    let s := s.wb e BAYD_STAT_CONCEALED conc
    if ok then s.wb e BAYD_STAT_READY true else s

/-- A picture done (R213 to R226), before composition snoops its completion entry. `b`: what entropy decode gives. -/
def State.decDone (s : State) (n : Nat) (j : DecJob) (b : AuBody) : State :=
  let p := pg .dec n
  let f := j.feed
  let s := if j.consumed then s else s.decConsume f
  let d := s.decFeed f
  let h := j.head
  let priv := s.decPriv f
  let ctus := ctusOf d.h265 h b
  let (data, ok, s) := s.refReads n d h.depth b.reads
  let subst := data.map (·.2)
  let px := Config.decodeSamples d.h265 priv j.coded (data.map (·.1))
  let causes := causesOf d j b ctus ok
  let s := match b.err with
    | some c => s.emit p 0x2801 (le f 2 ++ le j.auseq 2 ++ le c 4)
    | none => s
  let (conc, s) := s.decChainStep n f j causes (decide (h.kind = .rasl) && d.craChain)
  let m := carried (if d.fresh then [] else d.prev) ctus
  let (wrote, s) := s.decWrite n j d.h265 ctus px (statBytes j b ctus d.h265 conc subst m)
  let s := s.decReady j conc wrote
  let d2 := s.decFeed f
  let cra := decide (h.kind = .cra) && !j.noRasl && s.decChain f
  let s := (s.decPrivPut f b.priv).setDecFeed f { d2 with fresh := false, prev := m, craChain := d2.craChain || cra }
  let (outs, s) := s.decMark f j b (frameGap d j b)
  let s := s.ownerRelease j.bay j.gen
  let s := s.ctxPut f 0x3E4 ((s.ctx f 0x3E4 4 + 1) % 2 ^ 32) 4
  let s := if conc then (s.ctxPut f 0x3E8 ((s.ctx f 0x3E8 4 + 1) % 2 ^ 32) 4).cnt p DEC_CONCEALED_COUNT 1 else s
  let s := (s.cnt p DEC_PICS_COUNT 1).decNote n (h.width * h.height) 0
  let out := match outs.getLast? with
    | some x => x.bay + 2 ^ 16 * x.gen
    | none => 0
  (s.decComplete f j.auseq (b2n (!outs.isEmpty) + 2 + 8 * b2n conc) out).decBoundary n

/-- What entropy decode of the picture in progress gives, from its bytes and its references (R223). -/
def State.decBody (s : State) (j : DecJob) : AuBody :=
  let d := s.decFeed j.feed
  Config.auBody d.h265 (s.decPriv j.feed) j.coded
    ((d.dpb.filter fun x => x.short || x.long).map fun x => ⟨x.poc, x.long, x.frameNum, x.longIdx⟩)

/-- DEC_PICTURE_DONE with the perturbation of R481: a chosen picture idles AMOUNT µs before its DONE. None where the
pipeline has nothing in progress or the picture is now held. -/
def State.decHold (s : State) (n : Nat) (j : DecJob) : Option State × State :=
  match j.held with
  | some t => (some (s.advanceTo t), s)
  | none =>
    let (hit, s) := s.perturb (pg .dec n) 1 none
    if hit then
      (none, s.setPipe n { s.pipe n with job := some { j with held := some (s.now + 1000 * s.rd (pg .dec n) PERTURB_AMOUNT) } })
    else (some s, s)

/-- SOFT_RESET of a DEC page abandons the picture in progress, dropped with reason 5 (R227). -/
def State.decAbandon (s : State) (n : Nat) : State :=
  match (s.pipe n).job with
  | none => s
  | some j =>
    let s := if j.consumed then s else s.decConsume j.feed
    let s := (s.marksClear j.bay j.gen 15).ownerRelease j.bay j.gen
    let s := s.decDrop n j.feed j.auseq 5 (b2n j.head.isRef) false
    let d := s.decFeed j.feed
    (s.setDecFeed j.feed { d with craChain := d.craChain || (decide (j.head.kind = .cra) && !j.noRasl && s.decChain j.feed) }).decBoundary
      n

/-- R217 CANDIDATE_EXPIRE: KEEP has passed since a picture output later; the oldest candidate of the feed that has one
loses its mark. -/
def execCandidateExpire (f : Fin 512) (s : State) : Host.Outcome State Fault Refusal :=
  let d := s.decFeed f.val
  done (match d.outs with
    | x :: y :: t =>
      let s := s.advanceTo (y.time + s.decKeep f.val)
      (s.setDecFeed f.val { d with outs := y :: t }).marksClear x.bay x.gen markCand
    | _ => s)

end Sys2Proof.Machine
end

