-- ==== Sys2Proof/Machine/Pixel.lean ====
section
/-! DEFINITION. From source samples to canvas pixels (R247 to R249): widening, chroma, scaling, matrix, blending. Pure arithmetic;
a sample in progress counts sixteenths of a 10-bit code. -/

namespace Sys2Proof.Machine

/-- The values of a stall descriptor that composition uses (R231). -/
structure StallCfg where
  en : Bool
  gated : Bool
  tick : Bool
  isBay : Bool
  alpha : Nat
  matrix : Nat
  full : Bool
  freeze : Bool
  canvas : Nat
  z : Nat
  la : Nat
  source : Nat
  gen : Nat
  cx : Nat
  cy : Nat
  cw : Nat
  ch : Nat
  dx : Nat
  dy : Nat
  dw : Nat
  dh : Nat
  budget : Nat
  win : Nat
  lx : Nat
  ly : Nat
  lw : Nat
  lh : Nat
deriving DecidableEq, Repr

/-- A source image: format, bytes per line, start of the chroma plane, coded size, left and top of the output area, its size,
and its bytes by offset. -/
structure SrcImg where
  fmt : Nat
  line : Nat
  p2 : Nat
  codedW : Nat
  codedH : Nat
  left : Nat
  top : Nat
  w : Nat
  h : Nat
  byte : Nat → Nat

/-- Three components and alpha. -/
structure Px where
  a : Nat
  b : Nat
  c : Nat
  al : Nat
deriving DecidableEq, Repr

/-- Component-wise operation. -/
def Px.map2 (f : Nat → Nat → Nat) (p q : Px) : Px := ⟨f p.a q.a, f p.b q.b, f p.c q.c, f p.al q.al⟩
def Px.map (f : Nat → Nat) (p : Px) : Px := ⟨f p.a, f p.b, f p.c, f p.al⟩

/-- RGB10A2 alpha, widened (R247). -/
def alpha2 (v : Nat) : Nat := if v = 0 then 0 else if v = 1 then 341 else if v = 2 then 682 else 1023

/-- The little-endian number in `n` bytes of an image. -/
def SrcImg.num (g : SrcImg) (off : Nat) : Nat → Nat
  | 0 => 0
  | n + 1 => g.byte off % 256 + 256 * g.num (off + 1) n

/-- A sample of a Y′CbCr plane as a 10-bit code (R135, R247). `i`: sample position in the line. -/
def SrcImg.sample (g : SrcImg) (plane i y : Nat) : Nat :=
  let o := plane + y * g.line
  if g.fmt = 0 then 4 * (g.byte (o + i) % 256) else g.num (o + 2 * i) 2 / 64

/-- Chroma at luma position (x, y) of the coded area: bilinear, co-sited horizontally, midway vertically (R247), in
sixteenths. `k`: 0 Cb, 1 Cr. -/
def SrcImg.chroma (g : SrcImg) (k x y : Nat) : Nat :=
  let cw := (g.codedW + 1) / 2
  let ch := (g.codedH + 1) / 2
  let at_ := fun (cx cy : Nat) => g.sample g.p2 (2 * min cx (cw - 1) + k) (min cy (ch - 1))
  let row := fun (cy : Nat) => if x % 2 = 0 then 2 * at_ (x / 2) cy else at_ (x / 2) cy + at_ (x / 2 + 1) cy
  let v := if y % 2 = 0 then row (y / 2 - 1) + 3 * row (y / 2) else 3 * row (y / 2) + row (y / 2 + 1)
  2 * v

/-- The source pixel at (x, y) of the output area, widened and brought to 4:4:4 (R247), in sixteenths. -/
def SrcImg.px (g : SrcImg) (x y : Nat) : Px :=
  if g.fmt = 2 then
    let v := g.num (y * g.line + 4 * x) 4
    ⟨16 * bits v 20 10, 16 * bits v 10 10, 16 * bits v 0 10, 16 * alpha2 (bits v 30 2)⟩
  else if g.fmt = 3 then
    let v := g.num (y * g.line + 4 * x) 4
    let a := bits v 24 8
    ⟨64 * bits v 0 8, 64 * bits v 8 8, 64 * bits v 16 8, 16 * (4 * a + a / 64)⟩
  else
    let cx := x + g.left
    let cy := y + g.top
    ⟨16 * g.sample 0 cx cy, g.chroma 0 cx cy, g.chroma 1 cx cy, 16 * 1023⟩

/-- The source positions an output position draws on, with weights, and their sum (R247): `crop`, `c` crop size, `d` output
size. Positions may lie outside the crop. -/
def taps (i crop c d : Nat) : List (Int × Nat) × Nat :=
  if c = d then ([(((crop + i : Nat) : Int), 1)], 1)
  else if c < d then
    let num : Int := ((2 * i + 1) * c : Nat) - (d : Int)
    let fl := floorDiv num (2 * d : Nat)
    let w := ((num - fl * (2 * d : Nat)) * 64 / (2 * d : Nat)).toNat
    ([((crop : Int) + fl, 64 - w), ((crop : Int) + fl + 1, w)], 64)
  else
    let a := i * c
    let b := (i + 1) * c
    let l := (List.range ((b - 1) / d + 1 - a / d)).map fun j =>
      let k := a / d + j
      (((crop + k : Nat) : Int), (min b ((k + 1) * d) - max a (k * d)) * 64 / d)
    (l, l.foldl (fun t x => t + x.2) 0)

/-- A position kept inside the crop and the output area (R247: the nearest edge sample repeats). -/
def edge (crop c size : Nat) (k : Int) : Nat :=
  let hi := min (crop + c - 1) (size - 1)
  (clamp (min crop (size - 1) : Nat) hi k).toNat

/-- Vertically scaled samples of column `x` at output row `j`, truncated to sixteenths. -/
def SrcImg.vert (g : SrcImg) (t : StallCfg) (x j : Nat) : Px :=
  let (l, w) := taps j t.cy t.ch t.dh
  let acc : Px := l.foldl (fun (p : Px) k => p.map2 (fun u v => u + k.2 * v) (g.px x (edge t.cy t.ch g.h k.1))) ⟨0, 0, 0, 0⟩
  Px.map (· / w) acc

/-- The scaled sample of output pixel (i, j) of a stall, as whole 10-bit codes rounded half up (R247). -/
def SrcImg.scaled (g : SrcImg) (t : StallCfg) (i j : Nat) : Px :=
  let (l, w) := taps i t.cx t.cw t.dw
  let acc : Px := l.foldl (fun (p : Px) k => p.map2 (fun u v => u + k.2 * v) (g.vert t (edge t.cx t.cw g.w k.1) j)) ⟨0, 0, 0, 0⟩
  Px.map (fun v => (2 * v + 16 * w) / (32 * w)) acc

/-- A rational rounded to nearest, as an integer count of `2^-14`. -/
def q14 (num den : Nat) : Nat := (2 * num * 2 ^ 14 + den) / (2 * den)

/-- The multipliers Cr, Cb, Gb and Gr with 14 fractional bits, from Kr and Kb in ten-thousandths (R248). -/
def matrixOf (kr kb : Nat) : Nat × Nat × Nat × Nat :=
  let d := 10000
  let kg := d - kr - kb
  (q14 (2 * (d - kr)) d, q14 (2 * (d - kb)) d, q14 (kb * 2 * (d - kb)) (d * kg), q14 (kr * 2 * (d - kr)) (d * kg))

/-- A rational times 1,023 rounded half up and clamped to 0 to 1,023 (R248). -/
def code10 (num : Int) (den : Nat) : Nat := (clamp 0 1023 (floorDiv (2 * num * 1023 + den) (2 * den : Nat))).toNat

/-- R248: Y′CbCr to R′G′B′, or the range expansion of R′G′B′. The alpha passes. -/
def toRgb (matrix : Nat) (full : Bool) (p : Px) : Px :=
  if matrix = 2 then
    if full then p
    else
      let f := fun (v : Nat) => code10 ((v : Int) - 64) 876
      ⟨f p.a, f p.b, f p.c, p.al⟩
  else
    let k := if matrix = 0 then matrixOf 2126 722 else matrixOf 2627 593
    let dy : Nat := if full then 1023 else 876
    let dc : Nat := if full then 1023 else 896
    let y : Int := (p.a : Int) - (if full then 0 else 64)
    let cb : Int := ((p.b : Int) - 512) * (dy : Int)
    let cr : Int := ((p.c : Int) - 512) * (dy : Int)
    let den := dy * dc * 2 ^ 14
    let base : Int := y * ((dc * 2 ^ 14 : Nat) : Int)
    ⟨code10 (base + (k.1 : Int) * cr) den, code10 (base - (k.2.2.1 : Int) * cb - (k.2.2.2 : Int) * cr) den,
     code10 (base + (k.2.1 : Int) * cb) den, p.al⟩

/-- Round half up of a quotient. -/
def roundDiv (a b : Nat) : Nat := (2 * a + b) / (2 * b)

/-- R249: blend a layer's pixel over what lies beneath. `mode`: ALPHA. -/
def blend (mode g : Nat) (src under : Px) : Px :=
  let a := roundDiv (4096 * src.al * g) (1023 * 255)
  let gg := roundDiv (4096 * g) 255
  let f := fun (c d : Nat) =>
    if mode = 0 then (c * gg + d * (4096 - gg) + 2048) / 4096
    else if mode = 1 then (c * a + d * (4096 - a) + 2048) / 4096
    else min 1023 ((c * gg + d * (4096 - a) + 2048) / 4096)
  ⟨f src.a under.a, f src.b under.b, f src.c under.c, 3⟩

/-- What a layer of an epoch is composed of: its source image, the canvas background where its source failed (R244), or the
values of a draw where nothing was ever admitted (log entry 14). -/
inductive Layer where
  | image (t : StallCfg) (g : SrcImg)
  | failed (t : StallCfg)
  | unset (t : StallCfg) (n : Nat)

/-- The stall of a layer. -/
def Layer.cfg : Layer → StallCfg
  | .image t _ => t
  | .failed t => t
  | .unset t _ => t

/-- The rectangle of a stall holds canvas pixel (x, y). -/
def StallCfg.holds (t : StallCfg) (x y : Nat) : Bool :=
  decide (t.dx ≤ x) && decide (x < t.dx + t.dw) && decide (t.dy ≤ y) && decide (y < t.dy + t.dh)

/-- Apply a layer to the pixel beneath (R244, R249). -/
def applyLayer (bg : Px) (x y : Nat) (d : Px) (l : Layer) : Px :=
  if !l.cfg.holds x y then d
  else match l with
    | .image t g => blend t.alpha t.la (toRgb t.matrix t.full (g.scaled t (x - t.dx) (y - t.dy))) d
    | .failed _ => bg
    | .unset _ n =>
      let v := Config.freeAt n (y * 65536 + x)
      ⟨bits v 20 10, bits v 10 10, bits v 0 10, 3⟩

/-- The canvas pixel at (x, y): layers in the order of R249, lowest first, over the background. -/
def canvasPx (bg : Px) (ls : List Layer) (x y : Nat) : Px := ls.foldl (applyLayer bg x y) bg

/-- A pixel as an RGB10A2 word with alpha 3 (R135, R249). -/
def Px.word (p : Px) : Nat := p.c % 1024 + p.b % 1024 * 2 ^ 10 + p.a % 1024 * 2 ^ 20 + 3 * 2 ^ 30

/-- One line of canvas pixels as words (R249). -/
def canvasWords (bg : Px) (ls : List Layer) (w y : Nat) : List Nat := (List.range w).map fun x => (canvasPx bg ls x y).word

/-- Pixel words as bytes, each least significant first (R251). -/
def wordBytes (l : List Nat) : List Nat := l.flatMap fun v => leBytes v 4

end Sys2Proof.Machine
end

