-- ==== Sys2Proof/Machine/Comp.lean ====
section
/-! DEFINITION. Stalls, canvases, tracks and the checks of a commit (R230 to R241, R253). -/

namespace Sys2Proof.Machine

/-! ### Descriptors -/

/-- A stall's values through a way of reading its fields. -/
def stallOf (g : Fld → Nat) : StallCfg :=
  ⟨g STL_W00_EN = 1, g STL_W00_GATED = 1, g STL_W00_TICK = 1, g STL_W00_SRC_KIND = 1, g STL_W00_ALPHA, g STL_W00_MATRIX,
   g STL_W00_FULL = 1, g STL_W00_FREEZE = 1, g STL_W00_CANVAS, g STL_W00_Z, g STL_W00_LAYER_ALPHA, g STL_SRC_SOURCE,
   g STL_SRC_GEN, g STL_CROP_XY_CROP_X, g STL_CROP_XY_CROP_Y, g STL_CROP_WH_CROP_W, g STL_CROP_WH_CROP_H,
   g STL_DST_XY_DST_X, g STL_DST_XY_DST_Y, g STL_DST_WH_DST_W, g STL_DST_WH_DST_H, g STL_W18_BUDGET, g STL_W18_FREEZE_WIN,
   g STL_LIVE_XY_LIVE_X, g STL_LIVE_XY_LIVE_Y, g STL_LIVE_WH_LIVE_W, g STL_LIVE_WH_LIVE_H⟩

/-- Shadow, active and captured values of stall `n` (R230). -/
def State.stallShadow (s : State) (n : Nat) : StallCfg := stallOf (s.rd (stallE n))
def State.stallAct (s : State) (n : Nat) : StallCfg := stallOf (s.rdAct (stallE n))
def State.stallCap (s : State) (n : Nat) : StallCfg := stallOf (s.rdCap (stallE n))

/-- The RWS fields of a stall descriptor. -/
def stallFields : List Fld :=
  [STL_W00_EN, STL_W00_GATED, STL_W00_TICK, STL_W00_SRC_KIND, STL_W00_ALPHA, STL_W00_MATRIX, STL_W00_FULL, STL_W00_FREEZE,
   STL_W00_CANVAS, STL_W00_Z, STL_W00_LAYER_ALPHA, STL_SRC_SOURCE, STL_SRC_GEN, STL_CROP_XY_CROP_X, STL_CROP_XY_CROP_Y,
   STL_CROP_WH_CROP_W, STL_CROP_WH_CROP_H, STL_DST_XY_DST_X, STL_DST_XY_DST_Y, STL_DST_WH_DST_W, STL_DST_WH_DST_H,
   STL_W18_BUDGET, STL_W18_FREEZE_WIN, STL_LIVE_XY_LIVE_X, STL_LIVE_XY_LIVE_Y, STL_LIVE_WH_LIVE_W, STL_LIVE_WH_LIVE_H]

/-- R230 STALL_DESC_WRITE: shadows take the value. A write that would change CANVAS while EN is 1 in the shadow, as it stood before
the write, or in the active descriptor has no effect (log entry 72). -/
def State.stallWrite (s : State) (n off v : Nat) : State :=
  let p := stallE n
  let busy := s.on p STL_W00_EN || decide (s.rdAct p STL_W00_EN = 1)
  if off = 0 ∧ busy ∧ bits v 10 6 ≠ s.rd p STL_W00_CANVAS then s
  else s.setFields p (stallFields.filter fun f => decide (f.off = off)) v

/-- R230 STALL_DESC_WRITE. -/
def execStallDescWrite (_w : Writer) (n : Fin 4096) (word : Fin 16) (v : Word) (s : State) :
    Host.Outcome State Fault Refusal := done (s.stallWrite n.val (4 * word.val) v.toNat)

/-- The stalls that a store lists a field of, ascending. -/
def stallsIn (m : Store Nat) : List Nat :=
  (m.filterMap fun e =>
    let a := e.1 / 32
    if stallE 0 ≤ a ∧ a < stallE 4096 then some ((a - stallE 0) / 64) else none).dedup

/-- The stalls with a shadow or an active value other than reset, ascending. -/
def State.stallList (s : State) : List Nat :=
  (upTo 4096).filter fun n => (stallsIn s.regs ++ stallsIn s.act).contains n

/-- Canvas values (R233). -/
structure CanvasCfg where
  en : Bool
  direct : Bool
  outC : Nat
  ledC : Nat
  allow : Nat
  w : Nat
  h : Nat
  bgB : Nat
  bgG : Nat
  bgR : Nat
  ns : Nat
  frac : Nat
  lead : Nat
  origin : Nat
deriving DecidableEq, Repr

/-- A canvas's values through a way of reading its fields. -/
def canvasOf (c : Nat) (g : Fld → Nat) : CanvasCfg :=
  ⟨g (CMP_CV_CTRL_EN c) = 1, g (CMP_CV_CTRL_DIRECT c) = 1, g (CMP_CV_CTRL_OUT_CLASS c), g (CMP_CV_CTRL_LEDGER_CLASS c),
   g (CMP_CV_CTRL_ALLOW c), g (CMP_CV_SIZE_W c), g (CMP_CV_SIZE_H c), g (CMP_CV_BG_B c), g (CMP_CV_BG_G c),
   g (CMP_CV_BG_R c), g (CMP_CV_PERIOD_NS c), g (CMP_CV_PHASE_FRAC c), g (CMP_CV_PHASE_LEAD c),
   g (CMP_CV_ORIGIN_LO_T c) + 2 ^ 32 * g (CMP_CV_ORIGIN_HI_T c)⟩

/-- The RWS fields of canvas `c`. -/
def canvasFields (c : Nat) : List Fld :=
  [CMP_CV_CTRL_EN c, CMP_CV_CTRL_DIRECT c, CMP_CV_CTRL_OUT_CLASS c, CMP_CV_CTRL_LEDGER_CLASS c, CMP_CV_CTRL_ALLOW c,
   CMP_CV_SIZE_W c, CMP_CV_SIZE_H c, CMP_CV_BG_B c, CMP_CV_BG_G c, CMP_CV_BG_R c, CMP_CV_PERIOD_NS c, CMP_CV_PHASE_FRAC c,
   CMP_CV_PHASE_LEAD c, CMP_CV_ORIGIN_LO_T c, CMP_CV_ORIGIN_HI_T c]

/-- The page of composition engine `e`. -/
abbrev cmpP (e : Nat) : Nat := pg .cmp e

/-- Shadow, active and captured values of canvas `c` of engine `e`. -/
def State.cvShadow (s : State) (e c : Nat) : CanvasCfg := canvasOf c (s.rd (cmpP e))
def State.cvAct (s : State) (e c : Nat) : CanvasCfg := canvasOf c (s.rdAct (cmpP e))
def State.cvCap (s : State) (e c : Nat) : CanvasCfg := canvasOf c (s.rdCap (cmpP e))

/-- A canvas at rest. -/
def cv0 : CanvasSt := ⟨none, [], [], 0, [], [], none, false, none⟩

/-- Run-time state of canvas `c` of engine `e`. -/
def State.cv (s : State) (e c : Nat) : CanvasSt := Store.getD cv0 (e * 64 + c) s.cvs

/-- Set it. -/
def State.setCv (s : State) (e c : Nat) (x : CanvasSt) : State := { s with cvs := Store.setD cv0 (e * 64 + c) x s.cvs }

/-- Canvas `c` is active in the page of engine `e`. -/
def State.cvOn (s : State) (e c : Nat) : Bool := (s.cvAct e c).en

/-- The engine in whose page canvas `c` is active. -/
def State.cvEngine (s : State) (c : Nat) : Option Nat := (upTo 2).find? fun e => s.cvOn e c

/-- Cut of epoch `n` (R234). -/
def CanvasCfg.cut (v : CanvasCfg) (n : Nat) : Nat := v.origin + n * (v.ns * 65536 + v.frac) / 65536

/-- The smallest epoch number whose cut lies after yard time `t` (R234). -/
def CanvasCfg.firstAfter (v : CanvasCfg) (t : Nat) : Nat :=
  if t < v.origin then 0
  else
    let p := v.ns * 65536 + v.frac
    let k := (t - v.origin) * 65536 / (max p 1)
    if t < v.cut k then k else if t < v.cut (k + 1) then k + 1 else k + 2

/-- The enabled stalls of canvas `c`, ascending, with their active values. -/
def State.stallsOn (s : State) (c : Nat) : List (Nat × StallCfg) :=
  (s.stallList.map fun n => (n, s.stallAct n)).filter fun x => x.2.en && decide (x.2.canvas = c)

/-! ### Checks of a commit (R236 to R239, R253) -/

/-- Pixels of a rectangle side `[a, a + n)` inside `[b, b + 32)`. -/
def overlap (a n b : Nat) : Nat := min (a + n) (b + 32) - max a b

/-- P_t: pixels of stall rectangles inside tile (col, row) (R239). -/
def tilePixels (l : List StallCfg) (col row : Nat) : Nat :=
  l.foldl (fun t x => t + overlap x.dx x.dw (32 * col) * overlap x.dy x.dh (32 * row)) 0

/-- Tiles across `n` pixels (R26). -/
def tilesOf (n : Nat) : Nat := (n + 31) / 32

/-- Work of one tile row (R239). -/
def rowWork (l : List StallCfg) (w row : Nat) : Nat :=
  (upTo (tilesOf w)).foldl (fun t c => t + 16 + (tilePixels l c row + 3) / 4) 0

/-- W_c: work of one epoch in core cycles (R239). -/
def epochWork (l : List StallCfg) (w h : Nat) : Nat := (upTo (tilesOf h)).foldl (fun t r => t + rowWork l w r) 0

/-- A stall is scaled (R237). -/
def StallCfg.scaledP (t : StallCfg) : Bool := decide (t.dw ≠ t.cw) || decide (t.dh ≠ t.ch)

/-- Stall rectangle overlaps tile row `r`. -/
def StallCfg.onRow (t : StallCfg) (r : Nat) : Bool := decide (0 < overlap t.dy t.dh (32 * r)) && decide (0 < t.dw)

/-- Scaler slices that engine `e` may use (R238): 1,056 + i is slice i's registry entry. -/
def State.slicesOf (s : State) (e : Nat) : List Nat :=
  (upTo 32).filter fun i =>
    let o := s.rd (pg .own 2) (OWN_ENT_OWNER (32 + i))
    (decide (o = 0x0F00 + e) || decide (o = 0x0FFF)) && !bit (s.rd 0 SYS_FENCE_C_SCALER) i

/-- Reason 4 FIELD (R236). -/
def State.stallFieldBad (s : State) (t : StallCfg) : Bool :=
  let fmt := s.rd (bayE t.source) BAYD_SIZE_FORMAT
  decide (t.alpha = 3) || decide (t.matrix = 3) || decide (t.cw = 0) || decide (4096 < t.cw) || decide (t.ch = 0) ||
    decide (4096 < t.ch) || decide (t.dw = 0) || decide (t.dh = 0) || decide (t.budget = 0) || decide (60000 < t.budget) ||
    decide (t.win = 0) || decide (6000 < t.win) ||
    (if t.isBay then (decide (fmt ≤ 1) && decide (t.matrix = 2)) || (decide (fmt = 2 ∨ fmt = 3) && decide (t.matrix ≠ 2))
     else decide (t.matrix = 2))

/-- Reason 5 SOURCE. -/
def State.stallSourceBad (s : State) (t : StallCfg) : Bool :=
  if t.isBay then !s.bayHeld t.source t.gen || decide (4 ≤ s.rd (bayE t.source) BAYD_SIZE_FORMAT) else decide (511 < t.source)

/-- Reason 6 RECT. -/
def State.stallRectBad (s : State) (v : CanvasCfg) (t : StallCfg) : Bool :=
  decide (v.w < t.dx + t.dw) || decide (v.h < t.dy + t.dh) ||
    (t.isBay && (decide (s.rd (bayE t.source) BAYD_DIM_WIDTH < t.cx + t.cw) ||
      decide (s.rd (bayE t.source) BAYD_DIM_HEIGHT < t.cy + t.ch)))

/-- Reason 7 SCALE (R237). -/
def stallScaleBad (t : StallCfg) : Bool :=
  let k := if t.cw ≤ 2048 then 8 else 4
  decide (8 * t.dw < t.cw) || decide (16 * t.cw < t.dw) || decide (k * t.dh < t.ch) || decide (16 * t.ch < t.dh)

/-- A refusal of a commit: reason, stall, tile row, count or density (R236, R255). -/
structure CommitRefusal where
  reason : Nat
  stall : Option Nat
  row : Nat
  count : Nat
deriving DecidableEq, Repr

/-- The first stall that fails a check. -/
def firstBad (reason : Nat) (f : StallCfg → Bool) (l : List (Nat × StallCfg)) : Option CommitRefusal :=
  match l.find? fun x => f x.2 with
  | some x => some ⟨reason, some x.1, 0, 0⟩
  | none => none

/-- Reason 8 LAYERS: the first tile in raster order that more than 16 stalls overlap. -/
def layersBad (v : CanvasCfg) (l : List StallCfg) : Option CommitRefusal :=
  let bad := (upTo (tilesOf v.h)).findSome? fun r => (upTo (tilesOf v.w)).findSome? fun c =>
    let n := (l.filter fun x => x.onRow r && decide (0 < overlap x.dx x.dw (32 * c))).length
    if 16 < n then some (r, n) else none
  bad.map fun x => ⟨8, none, x.1, x.2⟩

/-- Reason 9 SLICES (R238). -/
def slicesBad (usable : Nat) (v : CanvasCfg) (l : List StallCfg) : Option CommitRefusal :=
  let bad := (upTo (tilesOf v.h)).findSome? fun r =>
    let n := (l.filter fun x => x.scaledP && x.onRow r).length
    if usable < n then some (r, n) else none
  bad.map fun x => ⟨9, none, x.1, x.2⟩

/-- The canvases of engine `e` that count in its density beside `c`, with the stalls of their latest accepted commit
(R239). -/
def State.otherLoads (s : State) (e c : Nat) : List (CanvasCfg × List StallCfg) :=
  ((upTo 64).filter fun d => decide (d ≠ c) && s.cvOn e d).map fun d =>
    match (s.cv e d).pend with
    | some l => (s.cvCap e d, (l.map s.stallCap).filter (·.en))
    | none => (s.cvAct e d, (s.stallsOn d).map (·.2))

/-- Density of a list of canvases in cycles per second, as numerator and denominator (R239). -/
def densityOf (l : List (CanvasCfg × List StallCfg)) : Nat × Nat :=
  (l.filter fun x => x.1.en && !x.1.direct && decide (0 < x.1.lead)).foldl
    (fun t x => (t.1 * x.1.lead + epochWork x.2 x.1.w x.1.h * 100000 * t.2, t.2 * x.1.lead)) (0, 1)

/-- Reason 10 DENSITY. -/
def densityBad (l : List (CanvasCfg × List StallCfg)) : Option CommitRefusal :=
  let d := densityOf l
  if 1080000000 * d.2 < d.1 then some ⟨10, none, 0, min (d.1 / (1200000 * d.2)) 0xFFFF⟩ else none

/-- The enabled heads of canvas `c` (R27). -/
def State.headsOf (s : State) (c : Nat) : List Nat :=
  (upTo 64).filter fun n => s.enabled (pg .hd n) && s.on (pg .hd n) HD_CFG_MEMBER && decide (s.rd (pg .hd n) HD_CFG_CANVAS = c)

/-- Reason 11 DIRECT (R253, R269). -/
def State.directBad (s : State) (e c : Nat) (v : CanvasCfg) (l : List StallCfg) : Bool :=
  let others := (upTo 64).filter fun d => decide (d ≠ c) && s.cvOn e d
  if !v.direct then v.en && others.any fun d => (s.cvAct e d).direct || ((s.cv e d).pend.isSome && (s.cvCap e d).direct)
  else
    let hs := s.headsOf c
    let inc := fun (n : Nat) => s.rdAct (pg .hd n) HD_RATE_INC
    let ht := fun (n : Nat) => s.rdAct (pg .hd n) HD_TIMING_H_H_TOTAL
    match hs with
    | [] => true
    | a :: _ =>
      decide (8 < hs.length) || !others.isEmpty || l.any StallCfg.scaledP ||
        hs.any (fun n => !s.on (pg .hd n) HD_CFG_FIXED || decide (ht n * inc a ≠ ht a * inc n)) ||
        hs.any (fun n => decide ((v.ns * 65536 + v.frac) * inc n * 12 <
          (s.rdAct (pg .hd n) HD_TIMING_V_START + s.rdAct (pg .hd n) HD_TIMING_V_V_ACTIVE + s.rdAct (pg .hd n) HD_VBLANK_VMIN) *
            ht n * 2 ^ 32 * 65536 * 10)) ||
        (upTo (tilesOf v.h)).any fun r =>
          let work := (upTo (r + 1)).foldl (fun t q => t + rowWork l v.w q) 0
          decide (9 * (v.lead * 12000 * inc a + 32 * r * ht a * 2 ^ 32) < work * inc a * 10)

/-- The stalls that a commit of canvas `c` in the page of engine `e` covers (R232, R235). -/
def State.commitStalls (s : State) (e c : Nat) : List Nat :=
  if !s.cvOn e c && s.cvOn (1 - e) c then []
  else s.stallList.filter fun n => decide ((s.stallShadow n).canvas = c)

/-- Judge a commit (R236): the first failure in the order of the table. -/
def State.judgeCommit (s : State) (e c : Nat) : Option CommitRefusal :=
  let v := s.cvShadow e c
  let l := ((s.commitStalls e c).map fun n => (n, s.stallShadow n)).filter fun x => x.2.en
  let ts := l.map (·.2)
  if v.w < 32 ∨ 16384 < v.w ∨ v.h < 32 ∨ 16384 < v.h then some ⟨0, none, 0, 0⟩
  else if v.ns < 4000000 ∨ 100000000 < v.ns ∨ v.lead < 10 ∨ v.allow = 0 ∨ 200 < v.allow ∨ v.ns < v.lead * 10000 then
    some ⟨1, none, 0, 0⟩
  else if v.en ∧ s.cvOn (1 - e) c then some ⟨2, none, 0, 0⟩
  else if !s.enabled (cmpP e) then some ⟨3, none, 0, 0⟩
  else
    (firstBad 4 s.stallFieldBad l).orElse fun _ => (firstBad 5 s.stallSourceBad l).orElse fun _ =>
    (firstBad 6 (s.stallRectBad v) l).orElse fun _ => (firstBad 7 stallScaleBad l).orElse fun _ =>
    (layersBad v ts).orElse fun _ => (slicesBad (s.slicesOf e).length v ts).orElse fun _ =>
    (if v.direct then none else densityBad ((v, ts) :: s.otherLoads e c)).orElse fun _ =>
    if s.directBad e c v ts then some ⟨11, none, 0, 0⟩ else none

/-! ### Tracks (R241) -/

/-- Track of feed `f` in engine `e`. -/
def State.track (s : State) (e f : Nat) : Option Track := Store.find (512 * e + f) s.tracks

/-- Set a track. -/
def State.setTrack (s : State) (e f : Nat) (t : Track) : State := { s with tracks := Store.put (512 * e + f) t s.tracks }

/-- Add an access unit; the track keeps the 32 most recent. -/
def Track.push (t : Track) (auseq adm tc : Nat) (est : Bool) (done : Option Nat) (flags : Nat) (outs : List TrackPic) : Track :=
  let l := t.aus ++ [⟨t.next, auseq, adm, tc, est, done, flags, outs⟩]
  { t with next := t.next + 1, short := t.short || decide (32 < l.length), aus := l.drop (l.length - 32) }

/-- A picture with its bay's stamps and mark as they stand. -/
def State.trackPic (s : State) (x : Nat × Nat) : TrackPic :=
  let b := bayE x.1
  ⟨x.1, x.2, s.rd64 b BAYD_TC_LO_TC BAYD_TC_HI_TC, s.on b BAYD_STAT_ESTIMATED, s.rd b BAYD_FSEQ_FSEQ, s.on b BAYD_STAT_CONCEALED⟩

/-- An admission record is snooped (R241). -/
def State.trackAdmit (s : State) (f auseq adm tc : Nat) (est : Bool) : State :=
  (upTo 2).foldl (fun s e => match s.track e f with
    | some t => s.setTrack e f (t.push auseq adm tc est none 0 [])
    | none => s) s

/-- A completion entry is snooped, with the pictures output at its access unit (R241, R245). -/
def State.trackDone (s : State) (f auseq done flags : Nat) (outs : List (Nat × Nat)) : State :=
  (upTo 2).foldl (fun s e => match s.track e f with
    | some t =>
      let here := fun (x : TrackAu) => decide (x.auseq = auseq) && x.done.isNone
      let l := mapWhere here (fun (x : TrackAu) => { x with done := some done, flags := flags, outs := outs.map s.trackPic }) t.aus
      s.setTrack e f { t with aus := l }
    | none => s) s

/-- The uid before that of the first access unit of a feed's current enable: RUN_SEQ counts enables, AU_WR admissions within one (R209). -/
def State.uidBase (s : State) (f : Nat) : Nat := 2 ^ 32 * s.ctx f 0x3CC 4

/-- A write of RUN_SEQ is snooped: only the newest output picture stays, as the first entry. -/
def State.trackRestart (s : State) (f : Nat) : State :=
  (upTo 2).foldl (fun s e => match s.track e f with
    | some t =>
      let l := (t.aus.filter fun x => bit x.flags 0 && x.done.isSome).getLast?
      s.setTrack e f { t with next := s.uidBase f + 1, aus := l.toList }
    | none => s) s

/-- The picture an OUT word names. -/
def outPic (v : Nat) : Nat × Nat := (bits v 0 13, bits v 16 16)

/-- The entry that LAST_OUT gives a new track none of whose access units output a picture (R216): the newest picture output, where
its bay still stands. -/
def State.lastOutAu (s : State) (f : Nat) : List TrackAu :=
  let v := s.ctx f 0x3F0 4
  let b := bits v 0 13
  let g := bits v 16 16
  if bit v 13 && s.bayHeld b g then
    let x := s.trackPic (b, g)
    [⟨s.uidBase f + (s.ctx f 0x3C8 4 - 16), s.ctx f 0x3F4 2, s.rd64 (bayE b) BAYD_ADMIT_LO_ADMIT BAYD_ADMIT_HI_ADMIT, x.tc, x.est, some 0, 1, [x]⟩]
  else []

/-- Seed a new track from the feed's context (R241): the admission records and completion entries present, and LAST_OUT (R216). An access unit has the same uid
in every track of its feed, so that a stall knows which it has judged when the track is made anew (R245). -/
def State.trackSeed (s : State) (f : Nat) : Track :=
  let wr := s.ctx f 0x3C8 4
  let run := decide (s.ctx f 0x3CC 4 = s.ctx f 0x3D4 4)
  let dn := if run then s.ctx f 0x3DC 4 else 0
  let t := ((upTo 16).filter fun i => decide (16 ≤ wr + i)).foldl (fun t i =>
    let k := wr + i - 16
    let r := 0x600 + 32 * (k % 16)
    let d := 0x500 + 16 * (k % 16)
    let put := t.push (s.ctx f (r + 0x1C) 2) (s.ctx f (r + 8) 8) (s.ctx f r 8) (bit (s.ctx f (r + 0x1E) 2) 0)
    let fl := s.ctx f (d + 10) 2
    if k < dn then put (some (s.ctx f d 8)) fl (if bit fl 0 then [s.trackPic (outPic (s.ctx f (d + 12) 4))] else [])
    else put none 0 []) ⟨s.uidBase f + (wr - 16) + 1, decide (16 < wr), []⟩
  if run && !t.aus.any (fun x => bit x.flags 0) then { t with aus := s.lastOutAu f ++ t.aus } else t

/-- Create the tracks of the feeds that a commit names (R241). -/
def State.trackCreate (s : State) (e : Nat) (l : List StallCfg) : State :=
  (l.filter fun t => t.en && !t.isBay).foldl (fun s t =>
    if (s.track e t.source).isSome then s else s.setTrack e t.source (s.trackSeed t.source)) s

/-- Remove the tracks that no active or pending stall of the engine names. -/
def State.trackPrune (s : State) (e : Nat) : State :=
  let act := ((upTo 64).filter fun c => s.cvOn e c).flatMap fun c => (s.stallsOn c).map (·.2)
  let pend := (upTo 64).flatMap fun c => match (s.cv e c).pend with
    | some l => (l.map s.stallCap).filter (·.en)
    | none => []
  let used := fun (f : Nat) => (act ++ pend).any fun t => !t.isBay && decide (t.source = f)
  { s with tracks := Store.keep (fun k => decide (k / 512 ≠ e) || used (k % 512)) s.tracks }

/-! ### Commits taking effect -/

/-- A commit gives a stall a new source (R231). -/
def newSource (old new : StallCfg) : Bool :=
  (new.en && !old.en) || decide (old.isBay ≠ new.isBay) || decide (old.source ≠ new.source) ||
    (new.isBay && decide (old.gen ≠ new.gen))

/-- Stall state at rest. -/
def stall0 : StallSt := ⟨0, false, false, false, false⟩

/-- Run-time state of stall `n`. -/
def State.stallSt (s : State) (n : Nat) : StallSt := Store.getD stall0 n s.stalls

/-- Set it. -/
def State.setStallSt (s : State) (n : Nat) (x : StallSt) : State := { s with stalls := Store.setD stall0 n x s.stalls }

/-- A stall's captured values become active (R230, R231): a new source clears SEEN, and none of its pictures has been judged; it or a
new liveness region closes the zero run. -/
def State.stallApply (s : State) (n : Nat) : State :=
  let p := stallE n
  let old := s.stallAct n
  let new := s.stallCap n
  let fresh := newSource old new
  let live := decide (old.lx ≠ new.lx) || decide (old.ly ≠ new.ly) || decide (old.lw ≠ new.lw) || decide (old.lh ≠ new.lh)
  let s := (s.activate p stallFields).wb p STL_ST_ACTIVE new.en
  let s := if fresh ∨ live then (s.wb p STL_ST_RUN false).setStallSt n { s.stallSt n with frozen := false } else s
  if fresh then (s.wb p STL_ST_SEEN false).setStallSt n { s.stallSt n with judged := 0 } else s

/-- CMP_DENSITY of engine `e` (R239, R254). -/
def State.cmpDensity (s : State) (e : Nat) : State :=
  let l := ((upTo 64).filter fun d => s.cvOn e d).map fun d => (s.cvAct e d, (s.stallsOn d).map (·.2))
  let d := densityOf l
  s.wr (cmpP e) CMP_DENSITY_PERMIL (d.1 / (1200000 * d.2))

/-- Release STALL holds. -/
def State.dropHolds (s : State) (l : List StallHold) : State := l.foldl (fun s x => s.holdRelease x.bay x.gen) s

/-- The STALL holds that canvas `c` keeps and that a commit in the page of engine `e` replaces: those taken in that page and, while the
canvas runs in neither page or in this one, those taken in the other (R232, R235). -/
def State.cvHolds (s : State) (e c : Nat) : List StallHold :=
  (s.cv e c).holds ++ if s.cvOn (1 - e) c then [] else (s.cv (1 - e) c).holds

/-- The accepted commit of canvas `c` takes effect (R235). -/
def State.canvasApply (s : State) (e c : Nat) : State :=
  let p := cmpP e
  match (s.cv e c).pend with
  | none => s
  | some l =>
    let was := s.cvOn e c
    let x := s.cv e c
    let held := s.cvHolds e c
    let s := s.activate p (canvasFields c)
    let s := l.foldl State.stallApply s
    let v := s.cvAct e c
    let s := s.dropHolds (held.filter fun h => !x.pendHolds.contains h)
    let s := if s.cvOn (1 - e) c then s else s.setCv (1 - e) c { s.cv (1 - e) c with holds := [] }
    let s := s.wb p (CMP_CV_STATUS_ACTIVE c) v.en
    let x := { s.cv e c with pend := none, holds := x.pendHolds, pendHolds := [] }
    let s := match x.last with
      | some y => if v.en && !was && x.closing then s.holdRelease y.bay y.gen else s
      | none => s
    let x := if v.en && !was then { x with next := v.firstAfter s.now, begun := [], last := none, closing := false, reached := none }
             else if was && !v.en then { x with closing := true, reached := none } else x
    ((s.setCv e c x).trackPrune e).cmpDensity e

/-! ### Commit -/

/-- A COMMIT_REFUSED record with the canvas's status (R233, R235, R255). -/
def State.commitRefused (s : State) (e c : Nat) (r : CommitRefusal) : State :=
  let p := cmpP e
  let s := (s.wb p (CMP_CV_STATUS_REFUSED c) true).wr p (CMP_CV_STATUS_REASON c) r.reason
  let s := (s.wr p (CMP_CV_STATUS_STALL c) (r.stall.getD 0)).wb p (CMP_CV_STATUS_CANVAS_LEVEL c) r.stall.isNone
  s.emit p 0x0001 ([c, r.reason] ++ le (r.stall.getD 0xFFFF) 2 ++ le r.row 2 ++ le r.count 2)

/-- Accept a commit (R235): the values are captured; STALL holds of newly named bay sources are taken, those of a replaced
commit given up; the commit becomes pending. -/
def State.commitAccept (s : State) (e c : Nat) : State :=
  let p := cmpP e
  let l := s.commitStalls e c
  let x := s.cv e c
  let en := (l.map fun n => (n, s.stallShadow n)).filter fun y => y.2.en
  let want := (en.filter fun y => y.2.isBay).map fun y => StallHold.mk y.1 y.2.source y.2.gen
  let have_ := s.cvHolds e c ++ x.pendHolds
  let take := want.filter fun h => !have_.contains h
  let s := take.foldl (fun s h => (s.holdTake h.bay h.gen).2) s
  let drop := x.pendHolds.filter fun h => !want.contains h && !(s.cvHolds e c).contains h
  let s := s.dropHolds drop
  let s := l.foldl (fun s n => s.capture (stallE n) stallFields) (s.capture p (canvasFields c))
  let s := s.wb p (CMP_CV_STATUS_REFUSED c) false
  let s := s.setCv e c { x with pend := some l, pendHolds := want }
  (s.trackPrune e).trackCreate e (en.map (·.2))

/-- R235 CANVAS_COMMIT, but for the heads' reaction: judged in its arrival cycle; of an inactive canvas it takes effect at
once. -/
def State.canvasCommit (s : State) (e c : Nat) : State :=
  match s.judgeCommit e c with
    | some r => s.commitRefused e c r
    | none =>
      let s := s.commitAccept e c
      if s.cvOn e c then s else s.canvasApply e c

end Sys2Proof.Machine
end

