-- ==== Sys2Proof/Machine/Code.lean ====
section
/-! DEFINITION. The 8b/10b code groups that a Belja lane carries (R284, R285), by the tables of IEEE 802.3 Clause 36. A code group is
a number of 10 bits whose most significant bit is bit a, the first sent. -/

namespace Sys2Proof.Machine

/-- One symbol of a lane: a data byte or a control code group. -/
inductive Sym where
  | data (v : Nat)
  /-- K28.5, the comma of /I/. -/
  | comma
  /-- /S/, K27.7. -/
  | start
  /-- /T/, K29.7. -/
  | stop
deriving DecidableEq, Repr

/-- The bits that are 1 among the lowest `n`. -/
def ones (n v : Nat) : Nat := ((upTo n).filter fun i => bit v i).length

/-- Bits abcdei of the low five bits of a byte where the running disparity is negative. -/
def code6 : List Nat :=
  [0b100111, 0b011101, 0b101101, 0b110001, 0b110101, 0b101001, 0b011001, 0b111000,
   0b111001, 0b100101, 0b010101, 0b110100, 0b001101, 0b101100, 0b011100, 0b010111,
   0b011011, 0b100011, 0b010011, 0b110010, 0b001011, 0b101010, 0b011010, 0b111010,
   0b110011, 0b100110, 0b010110, 0b110110, 0b001110, 0b101110, 0b011110, 0b101011]

/-- Bits fghj of the high three bits of a byte where the running disparity is negative. -/
def code4 : List Nat := [0b1011, 0b1001, 0b0101, 0b1100, 0b1101, 0b1010, 0b0110, 0b1110]

/-- The disparity after `n` bits of value `v`; `pos`: it was positive. -/
def disparity (pos : Bool) (n v : Nat) : Bool := if ones n v * 2 = n then pos else decide (n < ones n v * 2)

/-- abcdei of a byte's low five bits: the complement at positive disparity, where the block is unbalanced or D.7. -/
def sub6 (pos : Bool) (x : Nat) : Nat :=
  let v := code6.getD x 0
  if pos && (decide (ones 6 v ≠ 3) || decide (x = 7)) then 63 - v else v

/-- fghj of a byte's high three bits after the low five `x`; D.x.A7 stands in where five equal bits would follow each other. -/
def sub4 (pos : Bool) (x y : Nat) : Nat :=
  let alt := if pos then decide (x = 11 ∨ x = 13 ∨ x = 14) else decide (x = 17 ∨ x = 18 ∨ x = 20)
  let v := if y = 7 ∧ alt then 0b0111 else code4.getD y 0
  if pos && (decide (ones 4 v ≠ 2) || decide (y = 3)) then 15 - v else v

/-- The code group of a symbol at a running disparity. -/
def codeGroup (pos : Bool) (x : Sym) : Nat :=
  let k := fun (v : Nat) => if pos then 1023 - v else v
  match x with
  | .data b =>
    let six := sub6 pos (b % 32)
    six * 16 + sub4 (disparity pos 6 six) (b % 32) (b / 32 % 8)
  | .comma => k 0b0011111010
  | .start => k 0b1101101000
  | .stop => k 0b1011101000

/-- The code groups of a run of symbols from a running disparity, and the disparity after it. -/
def encodeSyms (pos : Bool) : List Sym → List Nat × Bool
  | [] => ([], pos)
  | x :: t =>
    let g := codeGroup pos x
    let r := encodeSyms (disparity pos 10 g) t
    (g :: r.1, r.2)

/-- /I/ (R285): K28.5, then D5.6 where the running disparity before it is positive, D16.2 where it is negative; either leaves it
negative. -/
def idleSyms (pos : Bool) : List Sym := [.comma, .data (if pos then 0xC5 else 0x50)]

/-- The code groups of a packet's bytes between /S/ and /T/ with the /I/ after it (R285, R287). Every packet begins after an /I/, so at
negative disparity. -/
def packetGroups (bytes : List Nat) : List Nat :=
  let r := encodeSyms false (.start :: bytes.map Sym.data ++ [.stop])
  r.1 ++ (encodeSyms r.2 (idleSyms r.2)).1

end Sys2Proof.Machine
end

