-- ==== Sys2Proof/Machine/Registry.lean ====
section
/-! DEFINITION. The ownership registry as other functions use it (R56 to R61), and the serial lanes: rates, quad PLLs, loss of
signal, patterns (R309 to R318). -/

namespace Sys2Proof.Machine

/-! ### The registry -/

/-- Page and entry of a resource index (R56). -/
def ownPg (i : Nat) : Nat := pg .own (1 + i / 1024)

/-- OWNER of a resource. -/
def State.owner (s : State) (i : Nat) : Nat := s.rd (ownPg i) (OWN_ENT_OWNER (i % 1024))

/-- A function, or its type's instance 0xFF, owns a resource (R59). -/
def State.ownedBy (s : State) (fid i : Nat) : Bool :=
  decide (s.owner i = fid) || decide (s.owner i = fid / 256 * 256 + 0xFF)

/-- The resources are fenced ones (R36, R62). -/
def State.entFenced (s : State) (i : Nat) : Bool := s.on (ownPg i) (OWN_ENT_FENCED (i % 1024))

/-- Insert into an ascending list without repeats. -/
def insertNat (n : Nat) : List Nat → List Nat
  | [] => [n]
  | a :: t => if n < a then n :: a :: t else if n = a then a :: t else a :: insertNat n t

/-- The resources of a list by rising index, each once. -/
def sortNat (l : List Nat) : List Nat := l.foldl (fun t x => insertNat x t) []

/-- The function ID of the unit behind a registry entry: a check-value unit's, else 0 (R36, R58). -/
def entUnit (i : Nat) : Nat := if 1088 ≤ i ∧ i < 1112 then 0x1400 + (i - 1088) else 0

/-- The registry check of an enable (R36, R59): `req` asks, `fid` must own every resource of the list, and none may be fenced,
which never shows as a conflict. The state with the record where it is refused. -/
def State.ownCheck (s : State) (req fid writer : Nat) (l : List Nat) : Option State :=
  let l := sortNat l
  match l.filter s.entFenced with
  | i :: _ => some (s.enableFenced req (entUnit i) (if entUnit i = 0 then i else 0xFFFF) writer)
  | [] => match l.filter fun i => !s.ownedBy fid i with
    | i :: t => some (s.ownConflict req (s.owner i) i (t.length + 1))
    | [] => none

/-- Set or clear IN_USE of resources (R57). -/
def State.useSet (s : State) (l : List Nat) (b : Bool) : State :=
  l.foldl (fun s i => s.wb (ownPg i) (OWN_ENT_IN_USE (i % 1024)) b) s

/-- Registry index of a lane quad, a line-buffer bank, a check-value unit (R56). -/
def quadIdx (q : Nat) : Nat := 1024 + q
def bankIdx (b : Nat) : Nat := 1152 + b
def cvuIdx (u : Nat) : Nat := 1088 + u

/-! ### What a lane carries (R309, R312) -/

/-- STATUS.LOS and STATUS.CDR_LOCK of an LN page (R317). -/
def LN_ST_LOS : Fld := ⟨0xC, 2, 1, .ro, 0, true⟩
def LN_ST_CDR : Fld := ⟨0xC, 3, 1, .ro, 0, true⟩

/-- The page of lane `l`. -/
abbrev lnP (l : Nat) : Nat := pg .ln l

/-- The page with the quad registers of the quad of lane `l`. -/
def quadP (l : Nat) : Nat := pg .ln (l / 4 * 4)

/-- Bits per second of a lane rate, in units of 0.05 Mb/s (R309). -/
def rateBps (r : Nat) : Nat :=
  match r with
  | 1 => 25000 | 2 => 100000 | 3 => 200000 | 4 => 320000 | 5 => 400000 | 6 => 206250 | 7 => 515625 | _ => 0

/-- PLL and family of a lane rate (R309): 0 PLL A, 1 PLL B. -/
def ratePll (r : Nat) : Option (Nat × Nat) :=
  match r with
  | 1 => some (0, 1) | 2 => some (0, 1) | 3 => some (0, 1) | 5 => some (0, 1) | 4 => some (1, 2) | 6 => some (1, 4)
  | 7 => some (0, 3) | _ => none

/-- A Belja rate (R284). -/
def beljaRate (r : Nat) : Bool := decide (r = 2 ∨ r = 3 ∨ r = 4 ∨ r = 5)

/-- The BL pages that have quad `q` in use (R298): several, where it is owned by every BL. -/
def State.quadBls (s : State) (q : Nat) : List Nat := (upTo 4).filter fun e => (Store.getD [] e s.blQuads).contains q

/-- The enabled NET instance whose LANE names lane `l` (R177). -/
def State.laneNet (s : State) (l : Nat) : Option Nat :=
  (upTo 18).find? fun n => s.enabled (pg .net n) && decide (s.netMode n ≠ 4) && decide (s.netLane n = l)

/-- The yoke runs on quad `q` (R312, R366). -/
def State.yokeQuad (s : State) (q : Nat) : Bool :=
  s.enabled (pg .yk 0) && decide (2 ≤ s.yoke.state) && decide (s.rd (pg .yk 0) YK_CFG_QUAD = q)

/-- RUN and RUN_RATE of lane `l` (R312, R317): 0 idle, 1 Ethernet, 2 Belja, 3 yoke, 4 test. All are idle while the device is
silent (R32). -/
def State.lnRun (s : State) (l : Nat) : Nat × Nat :=
  let p := lnP l
  let rate := s.rd p LN_CFG_RATE
  if s.mss.hold = 3 then (0, 0)
  else if !(s.quadBls (l / 4)).isEmpty then
    if s.rd p LN_CFG_PROTO = 1 ∧ beljaRate rate then (2, rate) else (0, 0)
  else match s.laneNet l with
    | some n => (1, if s.netMode n = 1 then 6 else 7)
    | none =>
      if s.yokeQuad (l / 4) then (3, 5)
      else if s.enabled p then (4, rate) else (0, 0)

/-- The PLL that serves lane `l` has locked (R311). -/
def State.lnLocked (s : State) (l : Nat) : Bool :=
  match ratePll (s.lnRun l).2 with
  | some (k, _) => s.on (quadP l) (if k = 0 then LN_QSTAT_A_LOCK else LN_QSTAT_B_LOCK)
  | none => false

/-- A Belja lane whose PLL is locked begins to send /I/ (R285, R298). The running disparity is negative at first, as Clause 36 has it
(log entry 148). -/
def State.idleOut (s : State) (l : Nat) : State :=
  if (s.lnRun l).1 = 2 ∧ s.lnLocked l then s.emitOut (.belja l (encodeSyms false (idleSyms false)).1) else s

/-- The STATUS word of LN `l` (R317). -/
def State.lnStatus (s : State) (l : Nat) : Nat :=
  let r := s.lnRun l
  let up := s.lnLocked l
  let rx := up && decide (r.1 ≠ 2)
  b2n up + 2 * b2n rx + 4 * b2n (rx && s.on (lnP l) LN_ST_LOS) + 8 * b2n (rx && s.on (lnP l) LN_ST_CDR) + 16 * b2n up +
    32 * r.1 + 256 * r.2

/-! ### Quad PLLs (R311) -/

/-- The family that the lanes of quad `q` need of PLL `k`, at the first lane that needs it. -/
def State.pllNeed (s : State) (q k : Nat) : Option Nat :=
  (upTo 4).findSome? fun i => match ratePll (s.lnRun (4 * q + i)).2 with
    | some (k', f) => if k' = k then some f else none
    | none => none

/-- ON, LOCK and FAM of PLL `k`. -/
def pllFlds (k : Nat) : Fld × Fld × Fld :=
  if k = 0 then (LN_QSTAT_A_ON, LN_QSTAT_A_LOCK, LN_QSTAT_A_FAM) else (LN_QSTAT_B_ON, LN_QSTAT_B_LOCK, LN_QSTAT_B_FAM)

/-- FAM's encoding of a family on its PLL (R317): F1 and F2 are 1, F3 and F4 are 2. -/
def famCode (f : Nat) : Nat := if f = 1 ∨ f = 2 then 1 else 2

/-- The family in service of PLL `k` of quad `q`, 1 to 4; 0 while it is off. -/
def State.pllFam (s : State) (q k : Nat) : Nat :=
  match s.rd (pg .ln (4 * q)) (pllFlds k).2.2 with
  | 1 => k + 1
  | 2 => k + 3
  | _ => 0

/-- The reference input of a running PLL (R310), as CLK_STAT reports it: LREF1 for F3 and F4; for F1 and F2 the input that BREF names, but LREF0 for PLL A of
the yoke quad (R366). -/
def State.pllRef (s : State) (q k : Nat) : Fld :=
  if 3 ≤ s.pllFam q k then CLK_STAT_LREF1_OK
  else if k = 0 ∧ s.yokeQuad q then CLK_STAT_LREF0_OK
  else if s.on (pg .ln (4 * q)) LN_QCFG_BREF then CLK_STAT_LREF1_OK else CLK_STAT_LREF0_OK

/-- Lane `l` is receiving. -/
def State.lnRx (s : State) (l : Nat) : Bool := s.lnLocked l && decide ((s.lnRun l).1 ≠ 2)

/-- A lane whose receiver is off reports nothing of what it received before: LOS, CDR_LOCK, the lock of its checker, the stream of its generator. -/
def State.lnQuiet (s : State) (l : Nat) : State :=
  if s.lnRx l then s
  else
    let p := lnP l
    { (((s.wb p LN_ST_LOS false).wb p LN_ST_CDR false).wb p LN_PAT_CTRL_LOCKED false) with pats := Store.del l s.pats }

/-- Start or stop the PLLs of quad `q` as its lanes need them (R311). -/
def State.lnRefresh (s : State) (q : Nat) : State :=
  let p := pg .ln (4 * q)
  let s := (upTo 2).foldl (fun s k =>
    let f := pllFlds k
    match s.pllNeed q k with
    | some fam => if s.on p f.1 then s else ((s.wb p f.1 true).wb p f.2.1 false).wr p f.2.2 (famCode fam)
    | none => { (((s.wb p f.1 false).wb p f.2.1 false).wr p f.2.2 0) with pllRetry := Store.del (2 * q + k) s.pllRetry }) s
  (upTo 4).foldl (fun s i => s.lnQuiet (4 * q + i)) s

/-- The Ethernet links of quad `q` that a lost PLL served fall (R181). -/
def State.netsDown (s : State) (q k : Nat) : State :=
  (upTo 18).foldl (fun s n =>
    let mode := s.netMode n
    if s.enabled (pg .net n) ∧ mode ≠ 4 ∧ s.netLane n / 4 = q ∧ (if mode = 1 then 1 else 0) = k
    then s.netLink n false false else s) s

/-! ### Patterns (R315, R316) -/

/-- Lane `l` runs a test pattern. -/
def State.lnTest (s : State) (l : Nat) : Bool := decide ((s.lnRun l).1 = 4) && s.lnLocked l

/-- A pattern code that names a pattern (R315). -/
def patOn (v : Nat) : Bool := decide (v ≠ 0) && decide (v ≠ 7)

/-- Degree and second tap of a PRBS (R315). -/
def prbsTaps (v : Nat) : Option (Nat × Nat) :=
  match v with
  | 1 => some (7, 6) | 2 => some (15, 14) | 3 => some (23, 18) | 4 => some (31, 28) | _ => none

/-- Bit `i` of a list, false beyond its end. -/
def nthBit (l : List Bool) (i : Nat) : Bool := l.getD i false

/-- The bit that follows the bits `l`, the latest first, in pattern `v` (R315). -/
def patNext (v : Nat) (l : List Bool) : Bool :=
  match prbsTaps v with
  | some (n, t) => nthBit l (n - 1) != nthBit l (t - 1)
  | none => if v = 5 then !nthBit l 0 else nthBit l 19

/-- The 64 bits `l`, the latest first, are a stretch of pattern `v` (R315, R316). -/
def patFits (v word : Nat) (l : List Bool) : Bool :=
  match prbsTaps v with
  | some (n, t) => l.any id && (upTo (64 - n)).all fun i => nthBit l i == (nthBit l (i + n) != nthBit l (i + t))
  | none =>
    if v = 5 then (upTo 63).all fun i => nthBit l i != nthBit l (i + 1)
    else (upTo 20).any fun p => (upTo 64).all fun i => nthBit l (63 - i) == bit word ((p + i) % 20)

/-- What precedes the first bit of the generator's stream, the latest first: a PRBS starts from any state but all zeros (the spec
names none: a free value), the clock pattern with 1, LN_PAT_WORD with its bit 0. -/
def patSeed (v word seed : Nat) : List Bool :=
  match prbsTaps v with
  | some (n, _) => (upTo n).map fun i => bit (seed % (2 ^ n - 1) + 1) i
  | none => if v = 5 then [false] else (upTo 20).map fun i => bit word (19 - i)

/-- The stream after `k` more bits, the latest first. -/
def patRun (v : Nat) (l : List Bool) : Nat → List Bool
  | 0 => l
  | k + 1 => patRun v ((patNext v l :: l).take 31) k

/-- A lane's pattern at rest. -/
def pat0 : PatSt := ⟨0, 0, [], [], [], 0⟩

/-- The pattern generator and checker of lane `l`. -/
def State.pat (s : State) (l : Nat) : PatSt := (Store.find l s.pats).getD pat0

/-- Set it. -/
def State.setPat (s : State) (l : Nat) (x : PatSt) : State := { s with pats := Store.put l x s.pats }

/-- Bits that lane `l` has sent since its generator began. -/
def State.patSentN (s : State) (l : Nat) : Nat :=
  (s.time.run - (s.pat l).start) * (rateBps (s.lnRun l).2 * 50000) / (10 ^ 9 * subNs)

/-- Bit `i` of the generator's stream is inverted: one in every 2^INJ_EXP, and those of INJ_ONE; together they invert it once (R316).
Which of the 2^INJ_EXP it is the rule leaves open; the model takes the last (log entry 178). -/
def State.patInjected (s : State) (l i : Nat) : Bool :=
  let e := s.rd (lnP l) LN_PAT_CTRL_INJ_EXP
  (decide (10 ≤ e ∧ e ≤ 40) && decide ((i + 1) % 2 ^ e = 0)) || (s.pat l).ones.contains i

/-- Bit `i` on lane `l`'s output since its generator began (R315, R316): the pattern that GEN names, with injected errors and TX_POL; nothing without a pattern. -/
def State.patSent (s : State) (l i : Nat) : Option Bool :=
  let p := lnP l
  let v := s.rd p LN_PAT_CTRL_GEN
  if s.lnTest l && patOn v then
    let b := nthBit (patRun v (patSeed v (s.rd p LN_PAT_WORD_WORD) (s.pat l).seed) (i + 1)) 0
    some ((b != s.patInjected l i) != s.on p LN_CFG_TX_POL)
  else none

/-- The checker of lane `l` takes a bit that its receiver recovered (R315, R316): it locks on 64 that follow the pattern, then compares
with the pattern as it runs on from there, and loses lock with more than 16 errors in the last 64. -/
def State.patTake (s : State) (l : Nat) (b : Bool) : State :=
  let p := lnP l
  let v := s.rd p LN_PAT_CTRL_CHK
  let x := s.pat l
  let b := b != s.on p LN_CFG_RX_POL
  let say := fun (s : State) (c : Nat) => s.emit p c ([0, 0, 0, 0] ++ le (s.rd p LN_PAT_ERR_COUNT) 4)
  if s.on p LN_PAT_CTRL_LOCKED then
    let want := patNext v x.rx
    let errs := ((b != want) :: x.errs).take 64
    let s := (s.cnt p LN_PAT_ERR_COUNT (b2n (b != want))).cnt p LN_PAT_BITS_COUNT ((x.bits + 1) / 2 ^ 20)
    let x := { x with bits := (x.bits + 1) % 2 ^ 20 }
    if 16 < errs.count true then say ((s.setPat l { x with rx := [], errs := [] }).wb p LN_PAT_CTRL_LOCKED false) 0x1001
    else s.setPat l { x with rx := (want :: x.rx).take 31, errs := errs }
  else
    let rx := (b :: x.rx).take 64
    if rx.length = 64 ∧ patFits v (s.rd p LN_PAT_WORD_WORD) rx then
      say ((s.setPat l { x with rx := rx.take 31, errs := [] }).wb p LN_PAT_CTRL_LOCKED true) 0x1002
    else s.setPat l { x with rx := rx }

/-- `n` bits without an error arrive at a locked checker: all at once what `n` steps of `State.patTake` do. An unlocked one follows no pattern. -/
def State.patClean (s : State) (l n : Nat) : State :=
  let p := lnP l
  let x := s.pat l
  if !s.on p LN_PAT_CTRL_LOCKED then s
  else
    let v := s.rd p LN_PAT_CTRL_CHK
    let period := match prbsTaps v with
      | some (d, _) => 2 ^ d - 1
      | none => 20
    (s.cnt p LN_PAT_BITS_COUNT ((x.bits + n) / 2 ^ 20)).setPat l
      { x with bits := (x.bits + n) % 2 ^ 20, errs := (List.replicate (min n 64) false ++ x.errs).take 64, rx := patRun v x.rx (n % period) }

/-- R316 PATTERN_CHECK_LOCK: bits reach the checker of a test lane: `rx`, then `good` that follow the pattern without an error, then `more`; it locks and
unlocks by them, counts errors and bits while locked, and writes its records. -/
def execPatternCheckLock (l : Fin 64) (rx : List Bool) (good : Nat) (more : List Bool) (s : State) :
    Host.Outcome State Fault Refusal :=
  let take := fun (s : State) (b : Bool) => s.patTake l.val b
  done (if !s.lnTest l.val || !patOn (s.rd (lnP l.val) LN_PAT_CTRL_CHK) then s
    else more.foldl take ((rx.foldl take s).patClean l.val good))

/-- Send the next bit inverted where the generator runs and INJ_ONE asks for it (R316). -/
def State.injectNext (s : State) (l : Nat) : State :=
  let p := lnP l
  if s.on p LN_PAT_CTRL_INJ_ONE && s.lnTest l && patOn (s.rd p LN_PAT_CTRL_GEN) then
    let x := s.pat l
    (((s.setPat l { x with ones := s.patSentN l :: x.ones }).wb p LN_PAT_CTRL_INJ_ONE false)).emitOut (.injected l)
  else s

/-- The generator and checker of a test lane begin, once its PLL is locked; an INJ_ONE that waits goes with the first bit. -/
def State.patStart (s : State) (l : Nat) : State :=
  if s.lnTest l then
    let (v, s) := s.draw
    (s.setPat l { pat0 with start := s.time.run, seed := v }).injectNext l
  else s

/-- R316 INJECT_ONE: INJ_ONE := 1 inverts the next generated bit; it reads 1 until that bit is sent. -/
def execInjectOne (_w : Writer) (l : Fin 64) (s : State) : Host.Outcome State Fault Refusal :=
  done ((s.wb (lnP l.val) LN_PAT_CTRL_INJ_ONE true).injectNext l.val)

/-! ### PLL events (R311) -/

/-- R311 PLL_LOCKED: a running PLL locks, which it can while its reference is present (R310); one that had lost lock, or was late, writes PLL_LOCKED. -/
def execPllLocked (q : Fin 16) (k : Fin 2) (s : State) : Host.Outcome State Fault Refusal :=
  let p := pg .ln (4 * q.val)
  let f := pllFlds k.val
  done (if !s.on p f.1 || s.on p f.2.1 || !s.on (pg .clk 0) (s.pllRef q.val k.val) then s
    else
      let s := (upTo 4).foldl (fun s i =>
        if ratePll (s.lnRun (4 * q.val + i)).2 = some (k.val, s.pllFam q.val k.val) then (s.idleOut (4 * q.val + i)).patStart (4 * q.val + i)
        else s)
        (s.wb p f.2.1 true)
      if (Store.find (2 * q.val + k.val) s.pllRetry).isSome then
        { s with pllRetry := Store.del (2 * q.val + k.val) s.pllRetry }.emit p 0x0802 [k.val, s.pllFam q.val k.val]
      else s)

/-- R311 PLL_LOST: a locked PLL loses lock, or one that has not locked 1 ms after its start gives up; traffic of its lanes is
then discarded. -/
def execPllLost (q : Fin 16) (k : Fin 2) (s : State) : Host.Outcome State Fault Refusal :=
  let p := pg .ln (4 * q.val)
  let f := pllFlds k.val
  let key := 2 * q.val + k.val
  done (if !s.on p f.1 || (!s.on p f.2.1 && (Store.find key s.pllRetry).isSome) then s
    else
      let s := (s.wb p f.2.1 false).cnt p LN_QLOSS_COUNT 1
      let s := { s with pllRetry := Store.put key (s.time.run + ns 1000000) s.pllRetry }
      let s := (s.emit p 0x0801 [k.val, s.pllFam q.val k.val]).netsDown q.val k.val
      (upTo 4).foldl (fun s i => s.lnQuiet (4 * q.val + i)) s)

/-- R311 PLL_RETRY: 1 ms has passed since the loss or the previous retry; the next follows 1 ms later. -/
def execPllRetry (q : Fin 16) (k : Fin 2) (s : State) : Host.Outcome State Fault Refusal :=
  let key := 2 * q.val + k.val
  done (match Store.find key s.pllRetry with
    | none => s
    | some t =>
      let s := s.advanceRun t
      { s with pllRetry := Store.put key (t + ns 1000000) s.pllRetry })

/-! ### Loss of signal, clock recovery (R314) -/

/-- R314 LOS_CHANGE: the input of a receiving lane has stayed below, or above, its threshold for 1 µs. -/
def execLosChange (l : Fin 64) (los : Bool) (s : State) : Host.Outcome State Fault Refusal :=
  let p := lnP l.val
  done (if !s.lnRx l.val || s.on p LN_ST_LOS == los then s
    else
      let s := s.wb p LN_ST_LOS los
      if los then (s.cnt p LN_LOS_COUNT_COUNT 1).emit p 1 [] else s.emit p 2 [])

/-- R314 CDR_LOCK_CHANGE: the clock recovery of a receiving lane gains or loses lock. -/
def execCdrLockChange (l : Fin 64) (locked : Bool) (s : State) : Host.Outcome State Fault Refusal :=
  done (if s.lnRx l.val then s.wb (lnP l.val) LN_ST_CDR locked else s)

/-- The pattern checker and generator start or stop with the lane's CTRL.ENABLE; the checks of R315. -/
def State.lnEnable (s : State) (w : Writer) (l : Nat) : State :=
  let p := lnP l
  let q := l / 4
  let rate := s.rd p LN_CFG_RATE
  let own := s.owner (quadIdx q)
  if s.entFenced (quadIdx q) then s.enableFenced (0x1300 + l) 0 (quadIdx q) w.fid
  else if own ≠ 0x13FF ∧ own ≠ 0x1300 + 4 * q then s.ownConflict (0x1300 + l) own (quadIdx q) 1
  else if s.rd p LN_CFG_PROTO ≠ 2 ∨ rate = 0 then s
  else match ratePll rate with
    | none => s
    | some (k, fam) =>
      if s.pllFam q k ≠ 0 ∧ s.pllFam q k ≠ fam then s.emit p 0x1801 [k, s.pllFam q k, fam]
      else (((s.wb p HDR_CTRL_ENABLE true).useSet [quadIdx q] true).lnRefresh q).patStart l

/-- The lane's test ends: its registry entry is free again when no other lane of the quad tests. -/
def State.lnDisable (s : State) (l : Nat) : State :=
  let q := l / 4
  let s := s.wb (lnP l) HDR_CTRL_ENABLE false
  let s := if (upTo 4).any fun i => s.enabled (lnP (4 * q + i)) then s else s.useSet [quadIdx q] false
  s.lnRefresh q

end Sys2Proof.Machine
end

