-- ==== Sys2Proof/Machine/Yoke.lean ====
section
/-! DEFINITION. The team: claims, roles, frames sent on the yoke, reports to the yardmaster, check values and divergence (R362 to
R371, R380, R381, R386). -/

namespace Sys2Proof.Machine

/-- The YK page. -/
abbrev ykP : Nat := pg .yk 0

/-- The claim held (R362). -/
def State.claim (s : State) : Nat := s.rd ykP YK_CLAIM_CLAIM

/-- The partner's claim, 0xFF when none is in contact (R390). -/
def State.partnerClaim (s : State) : Nat := s.rd ykP YK_CLAIM_PARTNER

/-- A partner is in contact. -/
def State.contact (s : State) : Bool := s.on ykP YK_PARTNER_VALID

/-- PAIRED, JOINING or IN_STEP: the TEAM flag (R372, R288). -/
def State.inTeam (s : State) : Bool := decide (3 ≤ s.yoke.state) && decide (s.yoke.state ≤ 5)

/-- This unit's NODE_ID. -/
def State.node (s : State) : Nat := s.rd 0 SYS_NODE_NODE_ID

/-- The unit is the lead (R365). -/
def State.isLead (s : State) : Bool :=
  decide (s.claim ≠ 0) && (!s.contact || decide (s.partnerClaim < s.claim))

/-- "The higher claim of its team" (R195, R337) means that the unit is the lead (R365); with YK off there is no team, and the unit
sends. -/
def State.highClaim (s : State) : Bool := decide (s.yoke.state = 0) || s.isLead

/-- The unit acts as the lead for the sequencer and for time (R365): while neither unit is the lead, the even-numbered
device does. -/
def State.isSeq (s : State) : Bool :=
  if s.contact then s.isLead || (decide (s.claim = 0 ∨ s.claim = s.partnerClaim) &&
    decide (s.partnerClaim = 0 ∨ s.claim = s.partnerClaim) && decide (s.node % 2 = 0))
  else true

/-! ### Messages to the yardmaster (R384, R386) -/

/-- `n` bytes at offset `off` of the site record as the MSS read it at stage 2 (R422), as a number; 0 where it has read none. -/
def State.siteNum (s : State) (off n : Nat) : Nat := recNum s.mss.site off n

/-- The NODE_ID in force does not belong to the site record's SITE (R422). -/
def State.wrongSite (s : State) : Bool := s.on 0 SYS_NODE_VALID && decide (s.node / 512 ≠ s.siteNum 8 1)

/-- The yardmaster and the device's own port, 7960 unless the site record names another (R384, R422). -/
def State.ymDest (s : State) : Dest :=
  ⟨bit (s.siteNum 9 1) 0, s.siteNum 0x10 16, s.siteNum 0xA 2, if s.siteNum 0xC 2 = 0 then 7960 else s.siteNum 0xC 2⟩

/-- A message of MSS firmware to the yardmaster: type and bytes from 0x18, on the NET instances that the site record's YM_NETS
names (R384, R422). On the wrong site only RESULTs are sent, and without a node ID nothing (R29). -/
def State.ymSend (s : State) (typ : Nat) (body : List Nat) : State :=
  let hdr := [0x51, 0x59, 0x4D, 0x31, typ, 1] ++ le (24 + body.length) 2 ++ le s.node 2 ++ [0, 0] ++ le s.yoke.msgSeq 4 ++
    le s.now 8
  if !s.on 0 SYS_NODE_VALID || s.siteNum 0x30 4 = 0 || (s.wrongSite && decide (typ ≠ 3)) then s
  else (s.netDatagram (s.siteNum 0x30 4) s.ymDest (hdr ++ body)).yk fun y => { y with msgSeq := (y.msgSeq + 1) % 2 ^ 32 }

/-- A REPORT (R386). -/
def State.report (s : State) (kind obj id frame own partner withheld : Nat) : State :=
  s.ymSend 2 ([kind, obj] ++ le id 2 ++ le frame 4 ++ le own 8 ++ le partner 8 ++ le withheld 4)

/-- A report of a divergence, at most YK_DIV_RATE of one kind per second (R381). -/
def State.reportDiv (s : State) (kind obj id frame own partner : Nat) : State :=
  let x := Store.getD ⟨0, 0, 0⟩ kind s.yoke.reports
  let x := if x.from_ + 1000000000 ≤ s.now then { x with from_ := s.now, sent := 0 } else x
  if x.sent < max 1 (s.rd ykP YK_DIV_RATE_RATE) then
    (s.yk fun y => { y with reports := Store.put kind { x with sent := x.sent + 1, withheld := 0 } y.reports }).report kind obj id
      frame own partner x.withheld
  else s.yk fun y => { y with reports := Store.put kind { x with withheld := x.withheld + 1 } y.reports }

/-! ### State and link -/

/-- STATUS.STATE changes (R372), writing STATE. -/
def State.ykState (s : State) (new : Nat) : State :=
  let old := s.yoke.state
  if new = old then s else (s.yk fun y => { y with state := new }).emit ykP 1 [new, old]

/-- Frames and credits of both sides are discarded (R371): those that wait, an incomplete sample set, and the books of frames that their
consumer still holds. -/
def State.ykClear (s : State) : State :=
  let s := s.yk fun y => { y with
    vcs := []
    link := false
    width := 0
    lineBuf := []
    t1p := none
    offOk := none
    offBad := none
    hand := 0
    misF := []
    newS := [] }
  let s := { s with
    pkts := mapWhere (fun (x : PktSlot) => decide (remoteBase ≤ x.slot) && decide (x.slot < strayBase))
      (fun x => { x with slot := strayBase + x.slot }) s.pkts
    tch := s.tch.map fun e => (e.1, { e.2 with samples := none }) }
  (upTo 5).foldl (fun s v => (s.wr ykP (YK_VC_CRED_HELD v) 0).wr ykP (YK_VC_CRED_OUT v) 0) s

/-- The wheel follows the lead's time no longer: TB_CTRL.MODE becomes PTP, and yard time holds over (R376, R160). -/
def State.wheelSplit (s : State) : State :=
  let p := pg .tb 0
  if s.rd p TB_CTRL_MODE = 2 then
    let s := s.wr p TB_CTRL_MODE 1
    if s.rd p TB_STATUS_STATE = 1 ∨ s.rd p TB_STATUS_STATE = 2 then (s.wr p TB_SERVO_STATE 3).setTbState 3 else s
  else s

/-- Give a merged entry to ingress: M is its receive stamp. -/
def State.toIngress (s : State) (m : Nat) (x : PktSlot) : State :=
  let here := fun (p : PktSlot) => decide (p.slot = x.slot)
  if x.slot < remoteBase then { s with pkts := (s.pkts.filter fun p => !here p) ++ (s.pkts.filter here).map fun p =>
      { p with ready := true, stamp := m } }
  else { s with pkts := s.pkts ++ [{ x with ready := true, stamp := m }] }

/-- Merged entries that waited for the snapshot go to ingress, in their order (R374). -/
def State.laterGo (s : State) : State :=
  let l := s.yoke.later.getD []
  l.foldl (fun s e => s.toIngress e.1 e.2) (s.yk fun y => { y with later := none })

/-- Entries not yet merged are sequenced by this unit alone (R378): the wheel's take M := max (T of the last MARK, own T). -/
def State.mergeSplit (s : State) (wasSeq : Bool) : State :=
  s.yk fun y =>
    let mine := y.merge.filter fun e => decide (e.origin = 0)
    let kept := if wasSeq then [] else y.kept.map fun x => MergeEnt.mk (max y.mark x.2.stamp) x.2.stamp 0 x.1 x.2
    { y with merge := (if wasSeq then mine else []) ++ kept, kept := [] }

/-- The link goes down (R370, R375): LINK_DOWN with its cause; a paired unit becomes SPLIT and reports PARTNER_LOST. Training
may begin again after 1 s. -/
def State.ykDown (s : State) (cause : Nat) : State :=
  let team := s.inTeam
  let seq := s.isSeq
  let s := (s.ykClear.cnt ykP YK_DOWN_COUNT_COUNT 1).emit ykP 0x1802 [cause]
  let had := s.contact
  let s := (s.wb ykP YK_PARTNER_VALID false).wr ykP YK_CLAIM_PARTNER 0xFF
  let s := s.yk fun y => { y with retryAt := s.time.run + ns 1000000000 }
  let s := if team then ((s.ykState 6).wheelSplit).laterGo.mergeSplit seq else s
  if team ∧ had then s.report 16 0xFF 0xFFFF 0 0 0 0 else s

/-- The bytes of a yoke frame (R367): ACK of channel `av`, the credit count of channel `cv` (R468), and the CRC with both units' NODE_IDs
folded in. -/
def State.ykBytes (s : State) (x : YkFrame) (replay : Bool) (av : Option Nat) (cv : Nat) : List Nat :=
  let ackq := match av with
    | some v => ((s.vc v).rx + 2 ^ 32 - 1) % 2 ^ 32
    | none => 0
  let b0C := match av with
    | some v => v + 8 + 16 * b2n (s.vc v).nak
    | none => 0
  let hdr := [x.vc + 8 * b2n replay + 16, x.typ] ++ le x.data.length 2 ++ le x.seq 4 ++ le ackq 4 ++ [b0C, cv + 128] ++
    le (s.vc cv).freed 2
  let other := if s.node % 2 = 0 then s.node + 1 else s.node - 1
  hdr ++ x.data ++ le (crc32c (le s.node 2 ++ le other 2 ++ [0, 0, 0, 0] ++ hdr ++ x.data)) 4

/-- Send a frame now on the next lane in rotation, with ACK of channel `av` and the credit count of channel `cv`; what its header carried is
owed no longer. -/
def State.ykEmitFor (s : State) (x : YkFrame) (replay : Bool) (av : Option Nat) (cv : Nat) : State :=
  let bytes := s.ykBytes x replay av cv
  let lane := s.rd ykP YK_CFG_QUAD * 4 + s.yoke.rot % max 1 s.yoke.width
  let s := match av with
    | some v => s.setVc v { s.vc v with ackDue := false, nak := false }
    | none => s
  let s := s.setVc cv { s.vc cv with owed := 0 }
  let s := if replay then s.cnt ykP YK_REPLAY_COUNT 1 else s
  (s.yk fun y => { y with rot := y.rot + 1 }).emitOut (.yokeFrame lane bytes)

/-- Send a frame with the ACK of the lowest channel that owes one and the credits of the lowest that owes any; where none owes any, the
counts of the channels go in turn. DESIGN CHOICE: the spec does not say which channel a header serves (log entry 175). -/
def State.ykEmit (s : State) (x : YkFrame) (replay : Bool) : State :=
  s.ykEmitFor x replay ((upTo 5).find? fun v => (s.vc v).ackDue)
    (((upTo 5).find? fun v => decide (0 < (s.vc v).owed)).getD (s.yoke.rot % 5))

/-- Credits that the frames of a list take. -/
def creditSum (l : List YkFrame) : Nat := l.foldl (fun t x => t + creditsOf x.data.length) 0

/-- Send a frame with credit: it is kept until acknowledged; a full replay area takes the link down (R370, R371). -/
def State.ykPush (s : State) (v typ : Nat) (data : List Nat) : State :=
  let n := creditsOf data.length
  let x := s.vc v
  if s.rd ykP (YK_VC_BUF_UNITS v) < creditSum x.unacked + n then s.ykDown 2
  else
    let f : YkFrame := ⟨v, typ, x.next, data, none, 0⟩
    let s := (s.wr ykP (YK_VC_CRED_HELD v) (s.rd ykP (YK_VC_CRED_HELD v) - n)).wr ykP (YK_VC_CRED_OUT v)
      (s.rd ykP (YK_VC_CRED_OUT v) + n)
    let since := if x.unacked.isEmpty then s.time.run else x.progress
    (s.setVc v { x with next := (x.next + 1) % 2 ^ 32, unacked := x.unacked ++ [f], progress := since }).ykEmit f false

/-- Hand a payload to a virtual channel: sent at once where credit stands, else it waits its turn (R371). -/
def State.ykSend (s : State) (v typ : Nat) (data : List Nat) : State :=
  let data := padTo ((data.length + 3) / 4 * 4) data
  if !s.yoke.link then s
  else if (s.vc v).wait.isEmpty ∧ creditsOf data.length ≤ s.rd ykP (YK_VC_CRED_HELD v) then s.ykPush v typ data
  else s.setVc v { s.vc v with wait := (s.vc v).wait ++ [(typ, data, s.time.run)] }

/-- Waiting payloads that credit now covers go out, in order. -/
def State.ykDrain (s : State) (v : Nat) : List (Nat × List Nat × Nat) → State
  | [] => s.setVc v { s.vc v with wait := [] }
  | x :: t =>
    if creditsOf x.2.1.length ≤ s.rd ykP (YK_VC_CRED_HELD v) ∧ s.yoke.link then (s.ykPush v x.1 x.2.1).ykDrain v t
    else s.setVc v { s.vc v with wait := if s.yoke.link then x :: t else [] }

/-! ### Claims (R362 to R365) -/

/-- The FWD payload of a frame (R368). -/
def fwdBytes (fnum : Nat) (x : PktSlot) : List Nat :=
  le x.stamp 8 ++ le fnum 4 ++ le x.feed 2 ++ [x.port, 0] ++ le x.frame.raw.length 2 ++ le 0 14 ++ x.frame.raw

/-- The wheel forwards one of its own frames and keeps it (R377). -/
def State.forward (s : State) (x : PktSlot) : State :=
  let n := (s.yoke.fnum + 1) % 2 ^ 32
  (s.yk fun y => { y with fnum := n, kept := y.kept ++ [(n, x)] }).ykSend 0 1 (fwdBytes n x)

/-- Time leadership (R374, R376): the wheel's MSS sets TB_CTRL.MODE to YOKE; the lead's sets PTP where it was YOKE. -/
def State.timeRole (s : State) : State :=
  let p := pg .tb 0
  if !s.inTeam then s
  else if s.isSeq then (if s.rd p TB_CTRL_MODE = 2 then s.wr p TB_CTRL_MODE 1 else s)
  else s.wr p TB_CTRL_MODE 2

/-- The role of sequencer passes (R378): the old lead sends HANDOVER, stops merging and forwards its own frames that it had
not emitted; the new one takes over when HANDOVER arrives, which may be before it has the role. -/
def State.roleChange (s : State) (was : Bool) : State :=
  if !s.inTeam || was == s.isSeq then s
  else if was then
    let t := s.now - 1000 * s.rd ykP YK_MERGE_WIN
    let s := s.ykSend 0 4 (le t 8 ++ le s.yoke.k 4 ++ [0, 0, 0, 0])
    let mine := s.yoke.merge.filter fun e => decide (e.origin = 0)
    let s := s.yk fun y => { y with merge := [], hand := 0 }
    (mine.foldl (fun s e => s.forward e.pkt) s).timeRole
  else (s.yk fun y => { y with hand := if y.hand = 2 then 0 else 1, misF := [], newS := [] }).timeRole

/-- One CLAIM_CHANGE on each packetiser that is present (R295, R303). -/
def State.claimShown (s : State) (new old : Nat) : State :=
  (upTo 4).foldl (fun s e =>
    if bit (s.rd 0 SYS_FENCE_A_SO) e then s else s.emit (pg .bl e) 0x1801 [new, old]) s

/-- The claim changes (R363): CLAIM record, CLAIM frame, CLAIM_CHANGE on each packetiser, a report. -/
def State.claimSet (s : State) (new cause : Nat) : State :=
  let old := s.claim
  if new = old then s
  else
    let was := s.isSeq
    let s := (s.wr ykP YK_CLAIM_CLAIM new).wr ykP YK_CLAIM_CAUSE cause
    let s := s.emit ykP 0x0801 [new, old, cause]
    let s := s.ykSend 2 2 [new, cause, 0, 0]
    let s := s.claimShown new old
    (s.report 19 0xFF 0xFFFF 0 (new + 256 * old) 0 0).roleChange was

/-- A tie found (R364): the odd-numbered device sets its claim to 0 and reports CLAIM_TIE. -/
def State.tieCheck (s : State) : State :=
  if s.contact ∧ s.claim ≠ 0 ∧ s.claim = s.partnerClaim ∧ s.node % 2 = 1 then
    let c := s.claim
    (s.claimSet 0 4).report 20 0xFF 0xFFFF 0 c c 0
  else s

/-- R363, R364 YK_LOWER: a value below the current claim lowers it, on the odd device to 0 where the partner holds that value. -/
def execYkLower (_w : Writer) (v : BitVec 8) (s : State) : Host.Outcome State Fault Refusal :=
  done (if v.toNat < s.claim then (s.claimSet v.toNat 0).tieCheck else s)

/-- The YK_SET test (R363): none where the value passes, else the refusal's code. -/
def State.setTest (s : State) (v : Nat) : Option Nat :=
  if v = 0 ∨ v = 255 then some 1 else if s.contact ∧ v = s.partnerClaim then some 2 else none

/-- R363 YK_SET: the MSS sets the claim, or SET_REFUSED is written. -/
def execYkSet (w : Writer) (v : BitVec 8) (s : State) : Host.Outcome State Fault Refusal :=
  let refuse := fun (k : Nat) => s.emit ykP 0x3001 (le w.fid 2 ++ [v.toNat, k])
  done (if w ≠ .mss then refuse 0
    else match s.setTest v.toNat with
      | some k => refuse k
      | none => s.claimSet v.toNat 1)

/-! ### Check values (R380, R381) -/

/-- Count of a head's frames, or of a canvas's epochs at 64 + c, whose sums this unit has formed. -/
def State.chkCount (s : State) (k : Nat) : Nat := Store.getD 0 k s.yoke.counts

/-- The counter that a check value's hold is measured by. -/
def ChkVal.key (v : ChkVal) : Nat := if v.kind = 2 then 64 + v.obj else v.obj

/-- Two check values belong together. -/
def ChkVal.meets (a b : ChkVal) : Bool :=
  decide (a.kind = b.kind) && decide (a.obj = b.obj) && decide (a.n = b.n) && decide (a.sub = b.sub)

/-- The canvas that a head or canvas divergence spoils (R375). -/
def State.divCanvas (s : State) (kind obj : Nat) : Nat :=
  if kind = 5 ∨ kind = 6 then obj else s.rd (pg .hd obj) HD_CFG_CANVAS

/-- One divergence (R381): DIVERGE, counted, reported while IN_STEP; the clean run of canvas `c` ends. -/
def State.divergeOn (s : State) (c : Option Nat) (kind obj id n own partner : Nat) : State :=
  let s := (s.cnt ykP YK_DIV_COUNT_COUNT 1).yk fun y => { y with divs := (y.divs + 1) % 2 ^ 32 }
  let s := s.emit ykP 0x1001 ([kind, obj] ++ le id 2 ++ le n 4 ++ le own 4 ++ le partner 4)
  let s := match c with
    | some c => s.yk fun y => { y with runs := Store.put c 0 y.runs }
    | none => s
  if s.yoke.state = 5 then s.reportDiv kind obj id n own partner else s

/-- A divergence of a head or canvas, or of time (R381). -/
def State.diverge (s : State) (kind obj id n own partner : Nat) : State :=
  s.divergeOn (if kind = 7 then none else some (s.divCanvas kind obj)) kind obj id n own partner

/-- A value without its counterpart (R381): `mine`, this unit's, or the partner's. -/
def State.missing (s : State) (v : ChkVal) (mine : Bool) : State :=
  let x := v.vals.getD (if v.kind = 2 then 3 else 0) 0
  let c := if v.kind = 2 then v.obj else s.rd (pg .hd v.obj) HD_CFG_CANVAS
  s.divergeOn (some c) 1 v.obj (if v.kind = 0 then v.sub else 0xFFFF) v.n (if mine then x else 0) (if mine then 0 else x)

/-- The `i`-th value. -/
def ChkVal.val (v : ChkVal) (i : Nat) : Nat := v.vals.getD i 0

/-- Compare this unit's value `a` with the partner's `b` (R381). -/
def State.chkCompare (s : State) (a b : ChkVal) : State :=
  let d := fun (s : State) (bad : Bool) (kind own partner : Nat) =>
    if bad then s.diverge kind a.obj 0xFFFF a.n own partner else s
  match a.kind with
  | 0 =>
    if a.vals = b.vals ∨ Store.find a.obj s.yoke.lastLine = some a.n then s
    else (s.yk fun y => { y with lastLine := Store.put a.obj a.n y.lastLine }).diverge 0 a.obj a.sub a.n (a.val 0) (b.val 0)
  | 1 =>
    let sum := fun (v : ChkVal) => v.val 0 + 2 ^ 16 * v.val 1
    let s := d s (decide (sum a ≠ sum b)) 2 (sum a) (sum b)
    let s := d s (decide (a.val 3 ≠ b.val 3)) 3 (a.val 3) (b.val 3)
    d s (decide (a.val 4 ≠ b.val 4)) 4 (a.val 4) (b.val 4)
  | _ =>
    let led := decide (a.val 2 ≠ b.val 2) || decide (a.val 1 ≠ b.val 1)
    let out := decide (a.val 3 ≠ b.val 3) || decide (a.val 0 ≠ b.val 0)
    let s := d s led 5 (a.val 2) (b.val 2)
    let s := d s out 6 (if a.val 3 ≠ b.val 3 then a.val 3 else a.val 0) (if a.val 3 ≠ b.val 3 then b.val 3 else b.val 0)
    if led ∨ out then s
    else s.yk fun y => { y with runs := Store.put a.obj (Store.getD 0 a.obj y.runs + 1) y.runs }

/-- The wheel compares F of frames with equal Ts (R382): a second one running that differs makes it take the lead's s. -/
def State.fNote (s : State) (own partner : ChkVal) : State :=
  if own.kind ≠ 1 ∨ own.obj ≠ partner.obj ∨ own.val 2 ≠ partner.val 2 ∨ s.isSeq then s
  else if own.n = partner.n then s.yk fun y => { y with misF := Store.del own.obj y.misF }
  else s.yk fun y =>
    let c := (Store.getD (0, 0) own.obj y.misF).1
    { y with misF := Store.put own.obj (min 2 (c + 1), (partner.n : Int) - own.n) y.misF }

/-- Feeds enabled and canvases on, as R375 counts them for IN_STEP. -/
def State.stepReady (s : State) : Bool × Bool :=
  let clean := s.feeds.all fun e => s.yoke.clean.contains e.1
  (clean, s.cvs.all fun e => !s.cvOn (e.1 / 64) (e.1 % 64) || decide (max 1 (s.rd ykP YK_CHECK_CLEAN) ≤ Store.getD 0 (e.1 % 64) s.yoke.runs))

/-- JOINING ends when every feed has decoded a clean IRAP picture after J and every canvas has then run CLEAN clean epochs
(R375). Runs count from the moment the last feed is clean. -/
def State.inStepCheck (s : State) : State :=
  if s.yoke.state ≠ 4 then s
  else match s.stepReady with
    | (false, _) => s.yk fun y => { y with runs := [] }
    | (true, false) => s
    | (true, true) =>
      ((s.ykState 5).emit ykP 0x4001 ([0, 0, 0, 0] ++ le (s.yoke.join.getD 0) 4)).report 18 0xFF 0xFFFF 0 0 0 0

/-- This unit forms a check value: compared with the partner's where it waits, else kept (R381). -/
def State.chkOwn (s : State) (v : ChkVal) : State :=
  let s := match s.yoke.partner.find? fun b => decide (b.kind = 1) && decide (b.obj = v.obj) && decide (b.val 2 = v.val 2) with
    | some b => s.fNote v b
    | none => s
  (match takeFirst (fun (b : ChkVal) => v.meets b) s.yoke.partner with
  | some (b, t) => (s.yk fun y => { y with partner := t }).chkCompare v b
  | none => s.yk fun y => { y with own := y.own ++ [{ v with born := s.chkCount v.key }] }).inStepCheck

/-- The partner's check value arrives. -/
def State.chkPartner (s : State) (v : ChkVal) : State :=
  let s := match s.yoke.own.find? fun b => decide (b.kind = 1) && decide (b.obj = v.obj) && decide (b.val 2 = v.val 2) with
    | some a => s.fNote a v
    | none => s
  (match takeFirst (fun (b : ChkVal) => v.meets b) s.yoke.own with
  | some (a, t) => (s.yk fun y => { y with own := t }).chkCompare a v
  | none => s.yk fun y => { y with partner := y.partner ++ [{ v with born := s.chkCount v.key }] }).inStepCheck

/-- The hold of a value has run out: HOLD frames of its head, or epochs of its canvas (R381). -/
def State.chkOld (s : State) (v : ChkVal) : Bool := decide (v.born + s.rd ykP YK_CHECK_HOLD ≤ s.chkCount v.key)

/-- R381 CHECK_HOLD_EXPIRE: the oldest unmatched value that has outlasted its hold is recorded as MISSING. -/
def execCheckHoldExpire (s : State) : Host.Outcome State Fault Refusal :=
  done (match takeFirst s.chkOld s.yoke.own with
    | some (v, t) => (s.yk fun y => { y with own := t }).missing v true
    | none => match takeFirst s.chkOld s.yoke.partner with
      | some (v, t) => (s.yk fun y => { y with partner := t }).missing v false
      | none => s)

/-- LINE_CRC values of a head kept for one frame (R368): at most 32 of consecutive groups. -/
def State.lineFlush (s : State) (h : Nat) : State :=
  match Store.find h s.yoke.lineBuf with
  | none => s
  | some (g, f, l) =>
    (s.yk fun y => { y with lineBuf := Store.del h y.lineBuf }).ykSend 1 1
      ([h, l.length] ++ le g 2 ++ le f 4 ++ l.flatMap fun c => le c 4)

/-- The line CRC of a LINES packet handed over (R380). -/
def State.lineValue (s : State) (h g f crc : Nat) : State :=
  if !s.inTeam then s
  else
    let s := s.chkOwn ⟨0, h, f, g, [crc], 0⟩
    let s := match Store.find h s.yoke.lineBuf with
      | some (g0, f0, l) =>
        if f0 = f ∧ g0 + l.length = g ∧ l.length < 32 then
          s.yk fun y => { y with lineBuf := Store.put h (g0, f0, l ++ [crc]) y.lineBuf }
        else (s.lineFlush h).yk fun y => { y with lineBuf := Store.put h (g, f, [crc]) y.lineBuf }
      | none => s.yk fun y => { y with lineBuf := Store.put h (g, f, [crc]) y.lineBuf }
    match Store.find h s.yoke.lineBuf with
    | some (_, _, l) => if l.length = 32 then s.lineFlush h else s
    | none => s

/-- FRAME_SUM of a head's frame (R380): flags, lines sent, F, Ts, VDIG, TDIG. -/
def State.frameSum (s : State) (h flags lines f ts vdig tdig : Nat) : State :=
  if !s.inTeam then s
  else
    let s := s.lineFlush h
    let s := s.yk fun y => { y with counts := Store.put h (Store.getD 0 h y.counts + 1) y.counts }
    let s := s.ykSend 1 2 ([h, flags] ++ le lines 2 ++ le f 4 ++ le ts 8 ++ le vdig 4 ++ le tdig 4)
    s.chkOwn ⟨1, h, f, 0, [flags, lines, ts, vdig, tdig], 0⟩

/-- EPOCH_SUM of a canvas's epoch (R380): flags, entries, LDIG, WCRC. -/
def State.epochSum (s : State) (c flags entries n ldig wcrc : Nat) : State :=
  if !s.inTeam then s
  else
    let s := s.yk fun y => { y with counts := Store.put (64 + c) (Store.getD 0 (64 + c) y.counts + 1) y.counts }
    let s := s.ykSend 1 3 ([c, flags] ++ le entries 2 ++ le n 4 ++ le ldig 4 ++ le wcrc 4)
    s.chkOwn ⟨2, c, n % 2 ^ 32, 0, [flags, entries, ldig, wcrc], 0⟩

/-- EPOCH_SUM of epochs `n … n + k − 1` of canvas `c` that were missed: no ledger and no output (R380). -/
def State.epochsMissedSum (s : State) (c n held k : Nat) : State :=
  (upTo k).foldl (fun s i => s.epochSum c (1 + 2 * held) 0 (n + i) (crc32c []) 0) s

end Sys2Proof.Machine
end

