-- ==== Sys2Proof/Machine/Admit.lean ====
section
/-! DEFINITION. Feeds enabled and disabled, access units admitted to the coded ring and the admission queue, receiver reports
(R182, R184, R187 to R197), and pictures started and done with the snoop of their completion entries (R204, R216, R241). -/

namespace Sys2Proof.Machine

/-! ### Enable and disable -/

/-- The ingress state of a feed right after its enable. -/
def feed0 (pset : Bool) : FeedSt where
  ssrc := none
  src := none
  maxSeq := none
  badSeq := 65537
  seen := []
  baseSeq := 0
  prevHigh := none
  aus := []
  recent := []
  lastA := 0
  admitted := 0
  ptr := 0
  gap := false
  resync := false
  pset := pset
  hist := []
  reports := []
  lastAcc := 0
  flaggedAt := none
  transit := none
  jit := 0
  bytes := 0
  port := 0
  rrExp := 0
  rrRec := 0
  received := 0

/-- The descriptor fields that an enable sets to 0 (R182), and the status bits of a feed just enabled. -/
def feedCounters : List Fld :=
  [FEEDD_W44_MEASURED, FEEDD_W44_JOINED, FEEDD_W44_SSRC_LOCKED, FEEDD_PKTS_PKTS, FEEDD_KIB_KIB, FEEDD_LOST_LOST, FEEDD_DUP_DUP,
   FEEDD_LATE_LATE, FEEDD_AUS_AUS, FEEDD_FLAGGED_FLAGGED, FEEDD_W64_DROPPED, FEEDD_W64_UNSUP, FEEDD_JITTER_JITTER,
   FEEDD_SR_COUNT_SR_COUNT, FEEDD_LAST_SR_LO_T, FEEDD_LAST_SR_HI_T, FEEDD_LAST_RX_LO_T, FEEDD_LAST_RX_HI_T]

/-- Set EN of a feed: refused with FEED_REFUSED (R184), with ENABLE_FENCED beside it for a fenced drover (R36); else the
counters start at 0, RUN_SEQ counts the enable (R210), and the group is joined (R196). -/
def State.feedEnable (s : State) (w : Writer) (f : Nat) : State :=
  let p := feedE f
  if s.feedOn f then s
  else match s.feedRefusal f with
    | some (r, g) =>
      let s := s.emit feedP 0x0001 (le f 2 ++ [r, 0] ++ le g 2)
      if r = 1 then s.enableFenced 0x0B00 (0x1800 + s.rd p FEEDD_W00_DROVER) 0xFFFF w.fid else s
    | none =>
      let s := (s.resetFields p feedCounters).wb p FEEDD_W00_EN true
      let s := (s.wr p FEEDD_W44_HEALTH 1).setFeed f (feed0 (s.on p FEEDD_W00_PSET_EN))
      let s := (s.ctxPut f 0x3CC ((s.ctx f 0x3CC 4 + 1) % 2 ^ 32) 4).ctxPut f 0x3C8 0 4
      ((s.trackRestart f).feedCount).feedJoin f

/-- Clear EN of a feed (R196, R197): matching stops, HEALTH reads OFF, which leaves SILENT too, a membership no
other feed shares is left. -/
def State.feedDisable (s : State) (f : Nat) : State :=
  let p := feedE f
  if !s.feedOn f then s
  else
    let s := if s.rd p FEEDD_W44_HEALTH = 4 then s.feedResumed f else s
    let s := s.resetFields p [FEEDD_W00_EN, FEEDD_W44_HEALTH, FEEDD_W44_MEASURED, FEEDD_W44_JOINED, FEEDD_W44_SSRC_LOCKED]
    (({ s with feeds := Store.del f s.feeds }.feedCount).feedLeave).decRestAll

/-- R184 FEED_ENABLE: a write of descriptor word 0 that sets EN; its other fields are taken first where EN was 0 (R487). -/
def execFeedEnable (w : Writer) (f : Fin 512) (v : Word) (s : State) : Host.Outcome State Fault Refusal :=
  done ((s.feedDescWrite w f.val 0 v.toNat).feedEnable w f.val)

/-- R196 FEED_DISABLE: a write of descriptor word 0 that clears EN. -/
def execFeedDisable (w : Writer) (f : Fin 512) (v : Word) (s : State) : Host.Outcome State Fault Refusal :=
  done ((s.feedDescWrite w f.val 0 v.toNat).feedDisable f.val)

/-! ### Assembling NAL units (R187) -/

/-- Insert a packet by extended sequence number. -/
def pktInsert (x : AuPkt) : List AuPkt → List AuPkt
  | [] => [x]
  | y :: t => if x.ext < y.ext then x :: y :: t else y :: pktInsert x t

/-- Packets by rising extended sequence number. -/
def pktSort (l : List AuPkt) : List AuPkt := l.foldl (fun t x => pktInsert x t) []

/-- The NAL units of an aggregation packet's body: 16-bit lengths, each before its unit. `fuel`: bytes left. -/
def aggregate : Nat → List Nat → List (List Nat)
  | 0, _ => []
  | k + 1, d =>
    match d with
    | a :: b :: t =>
      let n := a % 256 * 256 + b % 256
      t.take n :: aggregate k (t.drop n)
    | _ => []

/-- A fragmentation unit: start, end, the NAL unit header it stands for, its body (RFC 6184 FU-A, RFC 7798 FU). -/
def fragment (h265 : Bool) (d : List Nat) : Bool × Bool × List Nat × List Nat :=
  if h265 then
    let h := d.getD 2 0
    (bit h 7, bit h 6, [d.getD 0 0 / 128 * 128 + d.getD 0 0 % 2 + h % 64 * 2, d.getD 1 0], d.drop 3)
  else
    let h := d.getD 1 0
    (bit h 7, bit h 6, [d.getD 0 0 / 32 * 32 + h % 32], d.drop 2)

/-- NAL units received whole, in order. `open_`: the number of the latest fragment of a unit not yet complete, and its bytes. -/
def assemble (h265 : Bool) : Option (Nat × List Nat) → List AuPkt → List (List Nat)
  | _, [] => []
  | open_, x :: t =>
    let ty := nalType h265 x.data
    if ty = (if h265 then 48 else 24) then
      aggregate x.data.length (x.data.drop (if h265 then 2 else 1)) ++ assemble h265 none t
    else if ty = (if h265 then 49 else 28) then
      let f := fragment h265 x.data
      let whole : Option (List Nat) :=
        if f.1 then some (f.2.2.1 ++ f.2.2.2)
        else match open_ with
          | some (e, d) => if e + 1 = x.ext then some (d ++ f.2.2.2) else none
          | none => none
      match whole with
      | none => assemble h265 none t
      | some d => if f.2.1 then d :: assemble h265 none t else assemble h265 (some (x.ext, d)) t
    else x.data :: assemble h265 none t

/-- The Annex B byte stream of an access unit (R189): a 4-byte start code before each NAL unit. -/
def annexB (l : List (List Nat)) : List Nat := l.flatMap fun d => [0, 0, 0, 1] ++ d

/-! ### Admission (R188 to R194) -/

/-- Master number and function ID of the drover that runs feed `f` (R64, R55). -/
def State.feedMaster (s : State) (f : Nat) : Nat × Nat :=
  let d := s.rd (feedE f) FEEDD_W00_DROVER
  (2 + d, 0x1800 + d)

/-- The parameter sets to prepend, where they are due (R189): the bytes, whether they were prepended, the state. -/
def State.psetPrefix (s : State) (f : Nat) (st : FeedSt) : List Nat × Bool × State :=
  let p := feedE f
  let b := s.rd p FEEDD_PSET_PSET_BAY
  let g := s.rd p FEEDD_PSET_PSET_GEN
  let m := s.feedMaster f
  if !st.pset then ([], false, s)
  else if !s.bayHeld b g || decide (s.rd (bayE b) BAYD_SIZE_FORMAT ≠ 5) || !s.on (bayE b) BAYD_STAT_READY then
    ([], false, s.emit feedP 0x2002 (le f 2 ++ [0, 0] ++ le g 2))
  else match s.hwRead m.1 m.2 (s.bayAddr b 0) 4 none with
    | (none, s) => ([], false, s)
    | (some l, s) => match s.hwRead m.1 m.2 (s.bayAddr b 4) (min (ofLE l) (s.baySize b - 4)) none with
      | (none, s) => ([], false, s)
      | (some d, s) => (d, true, s)

/-- The unconsumed admission records: offset and length of their access units in the ring (R210). -/
def State.auSpans (s : State) (f : Nat) : List (Nat × Nat) :=
  (upTo (min (s.auWaiting f) 16)).map fun i =>
    let r := 0x600 + 32 * ((s.auRd f + i) % 16)
    (s.ctx f (r + 0x10) 4, s.ctx f (r + 0x14) 4)

/-- Where an access unit of `len` bytes goes in the ring (R189): at the pointer, or at 0 where it does not fit before the end. -/
def ringOffset (ptr len size : Nat) : Nat := if ptr + len ≤ size then ptr else 0

/-- An access unit must be dropped (R184, R191, R192): no context partition, no queue slot, the rate cap, or ring bytes still
unconsumed. -/
def State.auDrops (s : State) (f : Nat) (st : FeedSt) (a len : Nat) : Bool :=
  let p := feedE f
  let cap := s.rd p FEEDD_W40_RATE_CAP
  let cap := if cap = 0 ∨ 120 < cap then 120 else cap
  let sum := (st.hist.filter fun x => decide (a < x.1 + 10 ^ 9)).foldl (fun t x => t + x.2) len
  let size := s.baySize (s.rd p FEEDD_RING_RING_BAY)
  let off := ringOffset st.ptr len size
  (s.feedCtx f).isNone || decide (16 ≤ s.auWaiting f) || decide (cap * 125000 < sum) || decide (size < off + len) ||
    (s.auSpans f).any fun x => decide (0 < x.2) && decide (0 < len) && decide (x.1 < off + len) && decide (off < x.1 + x.2)

/-- The numbers of an access unit's range missing at its admission stamp `t`, and its highest number (R190). The range of the first one
of a sequence begins with the sequence, whose numbers lie above all older ones. -/
def lostIn (st : FeedSt) (a : OpenAu) (t : Nat) : Nat × Nat :=
  let low := match st.prevHigh with
    | some h => if a.base ≤ h + 100 then h + 1 else a.base
    | none => a.base
  let high := a.pkts.foldl (fun m x => max m x.ext) 0
  (((upTo (high + 1 - low)).filter fun i => !st.seen.any fun y => decide (y.1 = low + i) && decide (y.2 ≤ t)).length, max high (st.prevHigh.getD 0))

/-- MEASURED changes at the first admission under the new condition (R194). -/
def State.measuredSet (s : State) (f : Nat) (m : Bool) : State :=
  let p := feedE f
  if s.on p FEEDD_W44_MEASURED == m then s
  else (s.wb p FEEDD_W44_MEASURED m).emit feedP (if m then 0x1001 else 0x1002) (le f 2)

/-- The ingress state after an access unit has been admitted at `a` with `len` bytes at ring offset `off`. -/
def FeedSt.adm (st : FeedSt) (x : OpenAu) (a off len high : Nat) (flagged : Bool) : FeedSt :=
  let fl := if flagged then some a else st.flaggedAt
  { st with prevHigh := some high, recent := (x.ts :: st.recent).take 16, lastA := a, admitted := st.admitted + 1,
            ptr := (off + len + 63) / 64 * 64, gap := false, resync := false, pset := false,
            hist := (a, len) :: st.hist.filter (fun y => decide (a < y.1 + 10 ^ 9)), reports := prune a st.reports,
            flaggedAt := fl }

/-- FLAGS of an admission record (R190). -/
def auFlags (st : FeedSt) (measured loss pset : Bool) : Nat :=
  b2n (!measured) + 2 * b2n loss + 4 * b2n st.gap + 8 * b2n st.resync + 16 * b2n pset

/-- An admission record (R190). -/
def auRecord (tc a off len ts seq flags : Nat) : List Nat :=
  le tc 8 ++ le a 8 ++ le off 4 ++ le len 4 ++ le ts 4 ++ le seq 2 ++ le flags 2

/-- Write record `k` of feed `f`, then AU_WR (R210). -/
def State.auRecordPut (s : State) (f k : Nat) (r : List Nat) : State :=
  match s.feedCtx f with
  | some b => (s.loftPut (b + 0x600 + 32 * (k % 16)) r).ctxPut f 0x3C8 ((k + 1) % 2 ^ 32) 4
  | none => s

/-- The descriptor's counts of an admitted access unit (R182, R197). -/
def State.auCount (s : State) (f : Nat) (st : FeedSt) (lost : Nat) (flagged : Bool) : State :=
  let p := feedE f
  let s := (s.feedInc f FEEDD_AUS_AUS 1).feedInc f FEEDD_LOST_LOST lost
  let s := if flagged then s.feedInc f FEEDD_FLAGGED_FLAGGED 1 else s
  let h := s.rd p FEEDD_W44_HEALTH
  if h = 2 ∨ h = 3 then s.wr p FEEDD_W44_HEALTH (healthLive st s.now) else s

/-- Write an admitted access unit into the ring and its record into the queue (R189, R190, R210); composition snoops it. -/
def State.auWrite (s : State) (f : Nat) (st : FeedSt) (x : OpenAu) (a : Nat) (data : List Nat) (pset : Bool) : State :=
  let rb := s.rd (feedE f) FEEDD_RING_RING_BAY
  let rg := s.rd (feedE f) FEEDD_RING_RING_GEN
  let m := s.feedMaster f
  let off := ringOffset st.ptr data.length (s.baySize rb)
  let lh := lostIn st x a
  let loss := decide (0 < lh.1) || !x.marked
  let tm := s.captureTime f st x.ts a
  let seq := st.admitted % 65536
  let flagged := loss || st.gap
  let st' := st.adm x a off data.length lh.2 flagged
  let s := (s.bayWrite m.1 m.2 rb rg seq off data).2
  let s := s.ctxExamine 26 f
  let s := s.auRecordPut f (s.ctx f 0x3C8 4) (auRecord tm.1 a off data.length x.ts seq (auFlags st tm.2 loss pset))
  (((s.setFeed f st').measuredSet f tm.2).auCount f st' lh.1 flagged).trackAdmit f seq a tm.1 (!tm.2)

/-- Drop a closed access unit instead (R191, R192). -/
def State.auDropIngress (s : State) (f : Nat) (st : FeedSt) (x : OpenAu) : State :=
  (s.setFeed f { st with prevHigh := some (lostIn st x 0).2, recent := (x.ts :: st.recent).take 16, gap := true }).feedInc f
    FEEDD_W64_DROPPED 1

/-- Admit the feed's next closed access unit at its stamp `a`, or drop it, or give up the ring (R189). -/
def State.auAdmit (s : State) (f : Nat) (st : FeedSt) (x : OpenAu) (a : Nat) : State :=
  let p := feedE f
  let st := { st with aus := st.aus.filter fun y => decide (y.ts ≠ x.ts) }
  if !s.bayHeld (s.rd p FEEDD_RING_RING_BAY) (s.rd p FEEDD_RING_RING_GEN) then
    (s.feedDisable f).emit feedP 0x2001 (le f 2 ++ [0, 0] ++ le (s.rd p FEEDD_RING_RING_GEN) 2)
  else
    let (pre, pset, s) := s.psetPrefix f st
    let st := { st with pset := false }
    let data := pre ++ annexB (assemble (decide (s.rd p FEEDD_W00_CODEC = 1)) none (pktSort x.pkts))
    if s.auDrops f st a data.length then s.auDropIngress f { st with pset := pset } x
    else s.auWrite f st x a data pset

/-- R188 AU_ADMIT: yard time, as ingress reads it, reaches the admission stamp of the feed's next closed access unit; with
none closed, or in a team before a MARK has reached it, nothing happens (log entry 3). -/
def execAuAdmit (f : Fin 512) (s : State) : Host.Outcome State Fault Refusal :=
  done (if !s.drvRuns then s else match Store.find f.val s.feeds with
    | none => s
    | some st =>
      match nextAu st.aus with
      | none => s
      | some x =>
        let a := s.auStamp f.val st x
        if !s.ingressAt a then s else (s.ingressTo a).auAdmit f.val st x a)

/-- R195 RECEIVER_REPORT_SEND: while INTERVAL is not 0, by the unit with the higher claim. -/
def execReceiverReportSend (f : Fin 512) (s : State) : Host.Outcome State Fault Refusal :=
  done (if !s.drvRuns then s else match Store.find f.val s.feeds with
    | none => s
    | some st =>
      if s.rd feedP FEED_RR_INT_INTERVAL = 0 || !s.highClaim then s else s.receiverReport f.val st)

/-! ### Pictures -/

/-- Composition snoops the newest completion entry of feed `f`, with the pictures its access unit output (R241, R245). -/
def State.snoopDone (s : State) (f : Nat) : State :=
  let d := 0x500 + 16 * ((s.ctx f 0x3DC 4 + 2 ^ 32 - 1) % 16)
  s.trackDone f (s.ctx f (d + 8) 2) (s.ctx f d 8) (s.ctx f (d + 10) 2) (s.decFeed f).latest

/-- R204 DEC_PICTURE_START: at a picture boundary of an enabled pipeline whose PLL runs, the next slot's oldest record is
taken; an access unit that is dropped completes at once. -/
def execDecPictureStart (n : Fin 8) (switch : Nat) (s : State) : Host.Outcome State Fault Refusal :=
  done (if !s.enabled (pg .dec n.val) ∨ !s.pll 2 ∨ (s.pipe n.val).job.isSome then s
    else match s.decChoose n.val with
      | (none, s) => s
      | (some (_, f), s) =>
        let s := s.decTake n.val f switch
        if (s.pipe n.val).job.isNone then (s.snoopDone f).decRest n.val else s)

/-- JOINING waits for a clean IRAP picture of every feed (R375). -/
def State.cleanIrap (s : State) (j : DecJob) : State :=
  let d := 0x500 + 16 * ((s.ctx j.feed 0x3DC 4 + 2 ^ 32 - 1) % 16)
  if (s.yoke.state = 4 ∨ s.yoke.state = 5) ∧ isIrap j.head.kind ∧ !bit (s.ctx j.feed (d + 10) 2) 3 ∧ !s.yoke.clean.contains j.feed then
    (s.yk fun y => { y with clean := y.clean ++ [j.feed] }).inStepCheck
  else s

/-- R216 DEC_PICTURE_DONE: the pipeline's picture, where it is one of `feed`. -/
def execDecPictureDone (n : Fin 8) (feed : Fin 512) (s : State) : Host.Outcome State Fault Refusal :=
  done (if !s.pll 2 then s
    else match (s.pipe n.val).job with
      | none => s
      | some j => if j.feed ≠ feed.val then s else match s.decHold n.val j with
        | (none, s) => s
        | (some s, _) => ((s.decDone n.val j (s.decBody j)).snoopDone j.feed).cleanIrap j)

/-- SOFT_RESET of a DEC page abandons its picture, whose drop composition snoops (R227, R241). -/
def State.decAbandonSnoop (s : State) (n : Nat) : State :=
  match (s.pipe n).job with
  | none => s
  | some j => (s.decAbandon n).snoopDone j.feed

end Sys2Proof.Machine
end

