-- ==== Sys2Proof/Machine/Belja.lean ====
section
/-! DEFINITION. The Belja packetiser: the link check, hand-over, the lane schedule, packets and their lateness (R287 to R303). -/

namespace Sys2Proof.Machine

/-! ### Heads' values and lanes -/

/-- The page of head `h`. -/
abbrev hdP (h : Nat) : Nat := pg .hd h

/-- A head's values, its RWS fields through `g` (R258). -/
def State.geoOf (s : State) (h : Nat) (g : Fld → Nat) : Geo :=
  let p := hdP h
  ⟨g HD_RATE_INC, g HD_TIMING_H_H_ACTIVE, g HD_TIMING_H_H_TOTAL, g HD_TIMING_V_V_ACTIVE, g HD_TIMING_V_START,
   g HD_TIMING_V_CWIN, g HD_VBLANK_VMIN, g HD_VBLANK_VMAX, g HD_OFFSET_X, g HD_OFFSET_Y, g HD_OUT_DEPTH = 1,
   s.on p HD_CFG_MEMBER, s.on p HD_CFG_FIXED, s.rd p HD_CFG_CANVAS, s.rd p HD_CFG_ENGINE⟩

/-- Shadow, active and captured values of head `h`. -/
def State.geoShadow (s : State) (h : Nat) : Geo := s.geoOf h (s.rd (hdP h))
def State.geoAct (s : State) (h : Nat) : Geo := s.geoOf h (s.rdAct (hdP h))
def State.geoCap (s : State) (h : Nat) : Geo := s.geoOf h (s.rdCap (hdP h))

/-- B of R292: bytes of a LINES payload. -/
def Geo.lineLen (g : Geo) : Nat := ((if g.d24 then 24 else 30) * g.hAct + 31) / 32 * 4

/-- The page of packetiser `e`. -/
abbrev blP (e : Nat) : Nat := pg .bl e

/-- Lanes that head `h` uses in BL `e`, by lane index; none where COUNT is reserved (R296). -/
def State.headLanes (s : State) (e h : Nat) : List Nat :=
  let p := blP e
  let l := [s.rd p (BL_HEAD_LANES_LANE0 h), s.rd p (BL_HEAD_LANES_LANE1 h), s.rd p (BL_HEAD_LANES_LANE2 h),
    s.rd p (BL_HEAD_LANES_LANE3 h)]
  match s.rd p (BL_HEAD_CFG_COUNT h) with
  | 0 => l.take 1
  | 1 => l.take 2
  | 2 => l
  | _ => []

/-- The enabled heads of engine `e`. -/
def State.engineHeads (s : State) (e : Nat) : List Nat :=
  (upTo 64).filter fun h => s.enabled (hdP h) && decide (s.rd (hdP h) HD_CFG_ENGINE = e)

/-- The enabled heads of engine `e` that lane `l` carries. -/
def State.laneHeads (s : State) (e l : Nat) : List Nat := (s.engineHeads e).filter fun h => (s.headLanes e h).contains l

/-- HEAD and VALID of slot `k` of lane `l`; `copy`: false A, true B (R302). -/
def slotFlds (copy : Bool) (l k : Nat) : Fld × Fld :=
  let o := (if copy then 0x600 else 0x400) + 8 * l + 4 * (k / 4)
  (⟨o, 8 * (k % 4), 6, .rw, 0, true⟩, ⟨o, 8 * (k % 4) + 7, 1, .rw, 0, true⟩)

/-- A lane at rest, as the page `e` drives it. -/
def State.lane0 (s : State) (e : Nat) : BlLane :=
  ⟨[], 8, none, 0, s.on (blP e) BL_SCHED_CTRL_ACTIVE != s.on (blP e) BL_SCHED_CTRL_SWAP, false, none, []⟩

/-- Run-time state of lane `l` under page `e`. -/
def State.bl (s : State) (e l : Nat) : BlLane := (Store.find (64 * e + l) s.blLanes).getD (s.lane0 e)

/-- Set it. -/
def State.setBl (s : State) (e l : Nat) (x : BlLane) : State := { s with blLanes := Store.put (64 * e + l) x s.blLanes }

/-- The byte of a slot, VALID in bit 7: a write held while the slot was in use has taken effect once its packet has ended (R300). -/
def State.slotByte (s : State) (e : Nat) (copy : Bool) (l k : Nat) : Nat :=
  let f := slotFlds copy l k
  let x := s.bl e l
  match x.held with
  | some v => if x.slot = some k ∧ x.copy = copy ∧ x.busy ≤ s.time.run then v % 64 + 128 * b2n (bit v 7) else s.rd (blP e) f.1 + 128 * s.rd (blP e) f.2
  | none => s.rd (blP e) f.1 + 128 * s.rd (blP e) f.2

/-- The head that a slot names. -/
def State.slotHead (s : State) (e : Nat) (copy : Bool) (l k : Nat) : Option Nat :=
  let v := s.slotByte e copy l k
  if bit v 7 then some (v % 64) else none

/-- The schedule word of slots 0 to 3 or 4 to 7 of lane `l`. -/
def State.schedWord (s : State) (e : Nat) (copy : Bool) (l : Nat) (hi : Bool) : Nat :=
  (upTo 4).foldl (fun t i => t + 2 ^ (8 * i) * s.slotByte e copy l ((if hi then 4 else 0) + i)) 0

/-- A valid slot of a copy names head `h` on lane `l`. -/
def State.slotNames (s : State) (e : Nat) (copy : Bool) (l h : Nat) : Bool :=
  (upTo 8).any fun k => decide (s.slotHead e copy l k = some h)

/-- The lanes of BL `e` that carry Belja. -/
def State.blRun (s : State) (e : Nat) : List Nat :=
  ((Store.getD [] e s.blQuads).flatMap fun q => (upTo 4).map (4 * q + ·)).filter fun l => decide ((s.lnRun l).1 = 2)

/-- Every enabled head that lane `l` carries, with its engine, over the pages that have the quad in use (R296, R298). -/
def State.laneAll (s : State) (l : Nat) : List (Nat × Nat) :=
  (s.quadBls (l / 4)).flatMap fun e => (s.laneHeads e l).map (Prod.mk e)

/-- The end of the packet being sent on lane `l`, whichever page sends it. -/
def State.laneBusy (s : State) (l : Nat) : Nat := (upTo 4).foldl (fun t e => max t (s.bl e l).busy) 0

/-! ### The link check (R297) -/

/-- Symbols per second that a head puts on each of its lanes, as a fraction (R297). -/
def Geo.demand (g : Geo) (n : Nat) : Nat × Nat := ((g.lineLen + 24) * g.inc * 1200000000, 2 ^ 32 * g.hTot * n)

/-- Sum of fractions. -/
def fracSum (l : List (Nat × Nat)) : Nat × Nat := l.foldl (fun t x => (t.1 * x.2 + x.1 * t.2, t.2 * x.2)) (0, 1)

/-- Reason 7 LINK for head `h` with values `g` (R297). -/
def State.linkBad (s : State) (h : Nat) (g : Geo) : Bool :=
  let e := g.engine
  let ls := s.headLanes e h
  let rate := fun (l : Nat) => s.rd (lnP l) LN_CFG_RATE
  !s.enabled (blP e) || ls.isEmpty || decide (ls.dedup.length ≠ ls.length) ||
    ls.any (fun l => !(Store.getD [] e s.blQuads).contains (l / 4) || decide ((s.lnRun l).1 ≠ 2)) ||
    ls.any (fun l => decide (rate l ≠ rate (ls.headD 0))) ||
    ls.any (fun l =>
      let others := (s.laneAll l).filter fun j => decide (j.2 ≠ h)
      let d := fracSum (g.demand ls.length :: others.map fun j => (s.geoAct j.2).demand (s.headLanes j.1 j.2).length)
      decide (4 < others.length + 1) || !s.slotNames e (s.bl e l).copy l h || decide (rateBps (rate l) * 4900 * d.2 < d.1))

/-! ### Packets (R287 to R293) -/

/-- One symbol at a Belja rate, in sub-units of time (R284). -/
def symTime (rate : Nat) : Nat := subNs * 200000 / max 1 (rateBps rate)

/-- A packet's time on a lane: /I/, /S/, header, payload, CRC and /T/ (R297). -/
def State.pktTime (s : State) (l len : Nat) : Nat := (len + 24) * symTime (s.rd (lnP l) LN_CFG_RATE)

/-- The fold block of R293. -/
def foldBlock (h group frame : Nat) : List Nat := [h, 0] ++ le group 2 ++ le frame 4

/-- The bytes of a packet, from the header to the CRC, with the claim, TEAM flag and NODE that stand now (R288, R293, R295). -/
def State.blBytes (s : State) (x : BlPkt) : List Nat :=
  let hdr := [x.typ + 16, b2n x.rep + 2 * b2n (x.typ = 4) + 4 * b2n s.inTeam + 8 * b2n x.d24, s.claim, x.head + 64 * x.lidx] ++
    le x.frame 4 ++ le x.group 2 ++ le x.payload.length 2 ++ le (s.node + 2 ^ 14 * x.nl) 2 ++ [0, 0]
  hdr ++ x.payload ++ le (crc32c (foldBlock x.head x.group x.frame ++ hdr ++ x.payload)) 4

/-- P_L of a lane: the longest packet time on it (R301). -/
def State.longestPkt (s : State) (l : Nat) : Nat :=
  (s.laneAll l).foldl (fun t h => max t (s.pktTime l (s.geoAct h.2).lineLen)) (s.pktTime l 32)

/-- One line of a head, in sub-units of time, rounded up. -/
def State.linePeriod (s : State) (g : Geo) : Nat := (g.hTot * 2 ^ 32 * s.cycleInc + max g.inc 1 - 1) / max g.inc 1

/-- T_L of a lane: the longest line period among its heads (R301). -/
def State.longestLine (s : State) (l : Nat) : Nat :=
  (s.laneAll l).foldl (fun t h => max t (s.linePeriod (s.geoAct h.2))) 0

/-- Page `e` queues a packet on a lane, or discards and counts it where the lane is not in use or not locked (R311). A lane that had
nothing to send stands at its wrap (R300, log entry 18). -/
def State.blQueue (s : State) (e l : Nat) (x : BlPkt) : State :=
  if (s.lnRun l).1 = 2 ∧ s.lnLocked l then
    let y := s.bl e l
    s.setBl e l { y with
      queue := y.queue ++ [x]
      pos := if y.queue.isEmpty ∧ s.laneBusy l ≤ s.time.run then 8 else y.pos }
  else s.cnt (lnP l) LN_TX_DROP_COUNT 1

/-- Hand a head's packet over to its packetiser (R289, R296): LINES go to lane index GROUP mod N, the others to every lane.
`due`: the due cycle of a line. -/
def State.handOver (s : State) (h : Nat) (g : Geo) (typ group frame : Nat) (rep : Bool) (payload : List Nat) (due : Nat) :
    State :=
  let e := g.engine
  let ls := s.headLanes e h
  let nl := s.rd (blP e) (BL_HEAD_CFG_COUNT h)
  let idx := if typ = 2 then [group % max 1 ls.length] else upTo ls.length
  idx.foldl (fun s i =>
    let l := ls.getD i 0
    let bound := if typ = 2 then some (due + 2 * s.longestLine l) else if typ = 3 then none else some s.time.run
    s.blQueue e l ⟨h, typ, group, frame, rep, g.d24, i, nl, payload, bound, typ ≠ 2, typ = 1 ∨ typ = 4⟩) s

/-! ### Slot turns (R299, R300) -/

/-- The packet in the slot in use is over: a write to that slot takes effect (R300). -/
def State.blEnd (s : State) (e l : Nat) : State :=
  let x := s.bl e l
  match x.slot, x.held with
  | some k, some v =>
    let f := slotFlds x.copy l k
    let s := (s.wr (blP e) f.1 (v % 64)).wb (blP e) f.2 (bit v 7)
    s.setBl e l { x with slot := none, held := none }
  | some _, none => s.setBl e l { x with slot := none }
  | none, _ => s

/-- The packet in progress of page `e` has ended by now: its slot is free and a deferred write to it takes effect (R300). -/
def State.blSettle (s : State) (e l : Nat) : State := if s.time.run < (s.bl e l).busy then s else s.blEnd e l

/-- Every lane of the page has swapped: ACTIVE changes, SWAP clears, SCHED_SWAP (R300). -/
def State.swapDone (s : State) (e : Nat) : State :=
  let p := blP e
  if s.on p BL_SCHED_CTRL_SWAP && (s.blRun e).all (fun l => !(s.bl e l).swap) then
    let a := !s.on p BL_SCHED_CTRL_ACTIVE
    ((s.wb p BL_SCHED_CTRL_ACTIVE a).wb p BL_SCHED_CTRL_SWAP false).emit p 1 [b2n a]
  else s

/-- The wrap of a lane: from slot 7 to slot 0, changing copy where a swap is requested (R300). -/
def State.laneWrap (s : State) (e l : Nat) : State :=
  let x := s.bl e l
  if x.swap then (s.setBl e l { x with pos := 0, copy := !x.copy, swap := false }).swapDone e
  else s.setBl e l { x with pos := 0 }

/-- The next slot from `pos` whose head is carried by the lane and has a packet queued. -/
def State.nextSlot (s : State) (e l : Nat) : Option Nat :=
  let x := s.bl e l
  (upTo 8).find? fun k => decide (x.pos ≤ k) && (match s.slotHead e x.copy l k with
    | some h => (s.headLanes e h).contains l && decide (s.rd (hdP h) HD_CFG_ENGINE = e) &&
        x.queue.any fun (q : BlPkt) => decide (q.head = h)
    | none => false)

/-- A packet that goes ahead of slot turns: a FRAME_START or ABORT (R299), and the IDLE of a sag (R404). -/
def BlPkt.ahead (q : BlPkt) : Bool := decide (q.typ = 1 ∨ q.typ = 4) || (decide (q.typ = 5) && q.bound.isNone)

/-- The packet that page `e` sends next on a lane, with its slot: one that goes ahead of turns, else the slot turns, wrapping
once (R299). -/
def State.blPick (s : State) (e l : Nat) : Option (BlPkt × Option Nat) × State :=
  let x := s.bl e l
  let take := fun (s : State) (p : BlPkt → Bool) (slot : Option Nat) =>
    match takeFirst p (s.bl e l).queue with
    | some (q, t) => (some (q, slot), s.setBl e l { s.bl e l with
        queue := t
        pos := (match slot with
          | some k => k + 1
          | none => (s.bl e l).pos) })
    | none => (none, s)
  let bySlot := fun (s : State) (k : Nat) =>
    match s.slotHead e (s.bl e l).copy l k with
    | some h => take s (fun q => decide (q.head = h)) (some k)
    | none => (none, s)
  if x.queue.any BlPkt.ahead then take s BlPkt.ahead none
  else match s.nextSlot e l with
    | some k => bySlot s k
    | none =>
      let s := s.laneWrap e l
      match s.nextSlot e l with
      | some k => bySlot s k
      | none => (none, s.setBl e l { s.bl e l with pos := 8 })

/-- The page that sends next on a lane: one with a packet that goes ahead of turns, else one with a packet. DESIGN CHOICE: among pages
that share a quad, the one whose latest packet ended first, the lowest-numbered among equals (log entry 146). -/
def State.laneTurn (s : State) (l : Nat) : Option Nat :=
  let best := fun (p : BlPkt → Bool) =>
    ((s.quadBls (l / 4)).filter fun e => (s.bl e l).queue.any p).foldl (fun (b : Option Nat) e => match b with
      | none => some e
      | some a => if (s.bl e l).busy < (s.bl a l).busy then some e else some a) none
  (best BlPkt.ahead).orElse fun _ => best fun _ => true

/-- Page `e` sends a packet from now on (R299, R301): the lane is busy for its packet time; a packet that leaves after its bound is
late. What goes out is the packet and the /I/ after it, which the lane repeats until its next packet (R285). -/
def State.blSend (s : State) (e l : Nat) (q : BlPkt) (slot : Option Nat) : State :=
  let p := blP e
  let own := s.pktTime l q.payload.length
  let fin := s.time.run + own
  let s := (s.emitOut (.belja l (packetGroups (s.blBytes q)))).cnt p BL_TX_PKTS_COUNT 1
  let late := match q.bound with
    | some b => decide (b + (if q.plusPl then s.longestPkt l else 0) + (if q.plusOwn then own else 0) < fin)
    | none => false
  let s := if late then
      (s.cnt p BL_TX_LATE_COUNT 1).emit p 0x1001 ([l, q.typ, q.head, 0] ++ le q.group 2 ++ [0, 0] ++ le q.frame 4)
    else s
  s.setBl e l { s.bl e l with busy := fin, slot := slot, held := none, last := Store.put q.head fin (s.bl e l).last }

/-- The present packet of a lane has ended. -/
def State.laneFree (s : State) (l : Nat) : State :=
  (s.quadBls (l / 4)).foldl (fun s e => s.blSettle e l) (s.advanceRun (s.laneBusy l))

/-- R299 BELJA_PACKET_SEND: at its next packet boundary the lane sends what its schedule gives; a lane that has lost its PLL
discards it (R311). -/
def execBeljaPacketSend (l : Fin 64) (s : State) : Host.Outcome State Fault Refusal :=
  let i := l.val
  done (match (if (s.lnRun i).1 = 2 then s.laneTurn i else none) with
    | none => s
    | some e => match (s.laneFree i).blPick e i with
      | (some (q, k), s) => if s.lnLocked i then s.blSend e i q k else s.cnt (lnP i) LN_TX_DROP_COUNT 1
      | (none, s) => s)

/-- IDLE interval in sub-units, kept within 100 to 10,000 µs (R302). -/
def State.idleInt (s : State) (e : Nat) : Nat := ns (1000 * min 10000 (max 100 (s.rd (blP e) BL_IDLE_INT)))

/-- R289 BELJA_IDLE_TIMER: BL_IDLE.INT has passed with no packet of the head on the lane, and an IDLE packet is queued. -/
def execBeljaIdleTimer (l : Fin 64) (h : Fin 64) (s : State) : Host.Outcome State Fault Refusal :=
  let i := l.val
  let g := s.geoAct h.val
  let e := g.engine
  let x := s.bl e i
  done (if (s.lnRun i).1 ≠ 2 ∨ !(s.quadBls (i / 4)).contains e ∨ !s.enabled (hdP h.val) ∨ !(s.laneHeads e i).contains h.val ∨
      x.queue.any (fun (q : BlPkt) => decide (q.head = h.val)) then s
    else
      let since := Store.getD 0 h.val x.last
      let s := s.advanceRun (since + s.idleInt e)
      let ls := s.headLanes e h.val
      let f := match Store.find h.val s.heads with
        | some y => if y.count = 0 then 0 else s.rd (hdP h.val) HD_FRAME_NUMBER
        | none => 0
      s.blQueue e i ⟨h.val, 5, 0xFFFC, f, false, g.d24, (firstIdx (fun a => decide (a = i)) ls).getD 0,
        s.rd (blP e) (BL_HEAD_CFG_COUNT h.val), [], some (since + s.idleInt e), true, false⟩)

/-- R300 BL_LANE_WRAP: with nothing to send in the slots that remain, the lane passes its wrap, under each page that drives it. -/
def execBlLaneWrap (l : Fin 64) (s : State) : Host.Outcome State Fault Refusal :=
  let i := l.val
  done (if (s.lnRun i).1 ≠ 2 then s
    else (s.quadBls (i / 4)).foldl (fun s e => if (s.nextSlot e i).isSome then s else s.laneWrap e i) (s.laneFree i))

/-- The first enabled head of engine `e`, with its lane, that copy `copy of a lane` leaves without a valid slot. -/
def State.slotless (s : State) (e : Nat) (copy : Nat → Bool) (lanes : Nat → Bool) : Option (Nat × Nat) :=
  (s.engineHeads e).findSome? fun h => ((s.headLanes e h).find? fun l => lanes l && !s.slotNames e (copy l) l h).map
    fun l => (l, h)

/-- R300 BL_SCHED_SWAP_REQUEST: refused where a head would be left without a slot; else each lane swaps at its wrap, and a
lane with nothing to send at once. -/
def execBlSchedSwapRequest (w : Writer) (e : Fin 4) (s : State) : Host.Outcome State Fault Refusal :=
  let p := blP e.val
  let tgt := !s.on p BL_SCHED_CTRL_ACTIVE
  done (if s.pageFenced .bl e.val then s.missRecord w .write (p + 0x108)
    else if s.on p BL_SCHED_CTRL_SWAP then s
    else match s.slotless e.val (fun _ => tgt) (fun _ => true) with
      | some (l, h) => s.emit p 0x0801 [l, h, 0]
      | none =>
        let s := s.wb p BL_SCHED_CTRL_SWAP true
        let ls := s.blRun e.val
        let s := ls.foldl (fun s l => s.setBl e.val l { s.bl e.val l with copy := !tgt, swap := true }) s
        (ls.foldl (fun s l =>
          let s := s.blSettle e.val l
          let x := s.bl e.val l
          if x.swap ∧ s.laneBusy l ≤ s.time.run ∧ x.queue.isEmpty then s.laneWrap e.val l else s) s).swapDone e.val)

/-- Write a slot's contents: HEAD and VALID of byte `v`. -/
def State.slotPut (s : State) (e : Nat) (copy : Bool) (l k v : Nat) : State :=
  let f := slotFlds copy l k
  (s.wr (blP e) f.1 (v % 64)).wb (blP e) f.2 (bit v 7)

/-- A write to the schedule word of slots 0 to 3 or 4 to 7 of lane `l` (R300). Whether a head keeps a slot is judged on the contents
once every write has taken effect, one held for a slot in use among them. -/
def State.schedWrite (s : State) (e : Nat) (copy : Bool) (l : Nat) (hi : Bool) (v : Nat) : State :=
  let s := s.blSettle e l
  let x := s.bl e l
  let base := if hi then 4 else 0
  let put := fun (s : State) (skip : Option Nat) => (upTo 4).foldl (fun s i =>
    if skip = some (base + i) then s else s.slotPut e copy l (base + i) (bits v (8 * i) 8)) s
  if copy != x.copy then put s none
  else
    let final := put (match x.slot, x.held with
      | some k, some b => s.slotPut e copy l k b
      | _, _ => s) none
    let final := final.setBl e l { x with held := none }
    match final.slotless e (fun _ => copy) (fun a => decide (a = l)) with
    | some (_, h) => s.emit (blP e) 0x0801 [l, h, 1]
    | none =>
      let s := put s x.slot
      match x.slot with
      | some k =>
        if base ≤ k ∧ k < base + 4 then s.setBl e l { s.bl e l with held := some (bits v (8 * (k - base)) 8) } else s
      | none => s

/-- R300 BL_SCHED_WRITE. -/
def execBlSchedWrite (w : Writer) (e : Fin 4) (copy : Bool) (l : Fin 64) (hi : Bool) (v : Word) (s : State) :
    Host.Outcome State Fault Refusal :=
  done (if s.pageFenced .bl e.val then
      s.missRecord w .write (blP e.val + (if copy then 0x600 else 0x400) + 8 * l.val + (if hi then 4 else 0))
    else s.schedWrite e.val copy l.val hi v.toNat)

/-! ### Enable and disable (R298) -/

/-- The quads that BL `e` puts in use when it is enabled (R298): owned by it or by every BL. -/
def State.blMayUse (s : State) (e : Nat) : List Nat := (upTo 16).filter fun q => s.ownedBy (0x1200 + e) (quadIdx q)

/-- Lane `l` starts to carry Belja under page `e`: its heads' IDLE intervals run from here (R289, R298), and a locked one sends /I/
(R285). -/
def State.laneStart (s : State) (e l : Nat) : State :=
  (s.setBl e l { s.lane0 e with last := (s.engineHeads e).map fun h => (h, s.time.run) }).idleOut l

/-- LN_CFG of lane `l` has been written while the lane carried nothing: it may start now (R311, R312). -/
def State.laneConfigured (s : State) (l : Nat) : State :=
  let s := s.lnRefresh (l / 4)
  if (s.lnRun l).1 = 2 then (s.quadBls (l / 4)).foldl (fun s e => s.laneStart e l) s else s

/-- Head `h` of engine `e` is enabled: its IDLE intervals run from here on each of its lanes (R289). -/
def State.idleStart (s : State) (e h : Nat) : State :=
  (s.headLanes e h).foldl (fun s l => s.setBl e l { s.bl e l with last := Store.put h s.time.run (s.bl e l).last }) s

/-- BL `e` is enabled: its quads come into use and its lanes start. It is refused where one of them is fenced (R36, R62). -/
def State.blEnable (s : State) (writer e : Nat) : State :=
  let qs := s.blMayUse e
  match qs.find? fun q => s.entFenced (quadIdx q) with
  | some q => s.enableFenced (0x1200 + e) 0 (quadIdx q) writer
  | none =>
  let s := { (s.wb (blP e) HDR_CTRL_ENABLE true) with blQuads := Store.put e qs s.blQuads }
  let s := s.useSet (qs.map quadIdx) true
  let s := qs.foldl (fun s q => s.lnRefresh q) s
  (s.blRun e).foldl (fun s l => s.laneStart e l) s

/-- BL `e` is disabled: what its lanes still queued is discarded and counted (R311). A quad that another page uses stays in use. -/
def State.blDisable (s : State) (e : Nat) : State :=
  let qs := Store.getD [] e s.blQuads
  let s := (s.blRun e).foldl (fun s l => s.cnt (lnP l) LN_TX_DROP_COUNT (s.bl e l).queue.length) s
  let s := (upTo 64).foldl (fun s l => s.blEnd e l) s
  let s := { (s.wb (blP e) HDR_CTRL_ENABLE false) with
    blQuads := Store.del e s.blQuads
    blLanes := Store.keep (fun k => decide (k / 64 ≠ e)) s.blLanes }
  let s := s.useSet ((qs.filter fun q => (s.quadBls q).isEmpty).map quadIdx) false
  (qs.foldl (fun s q => s.lnRefresh q) s).swapDone e

end Sys2Proof.Machine
end

