-- ==== Sys2Proof/Machine/Epoch.lean ====
section
/-! DEFINITION. The epochs of a canvas: admission, the freeze judgement, composition, writeback and ledger, commit (R242 to
R252). -/

namespace Sys2Proof.Machine

/-! ### Admission from a track (R242) -/

/-- What R242 finds in a track: the position of c, whether a later access unit is late, the picture, TRACK_SHORT. -/
structure Pick where
  c : Option Nat
  late : Bool
  pic : Option TrackPic
  short : Bool

/-- R242 over a track: `l` the limit L, `cut` the cut. -/
def Track.pick (t : Track) (l cut : Nat) : Pick :=
  let ok := fun (x : TrackAu) => decide (x.adm ≤ l) && (match x.done with
    | some d => decide (d ≤ cut)
    | none => false)
  let idx := (List.range t.aus.length).filter fun i => match t.aus[i]? with
    | some x => ok x
    | none => false
  match idx.getLast? with
  | some i =>
    let late := match t.aus[i + 1]? with
      | some x => decide (x.adm ≤ l)
      | none => false
    let o := ((t.aus.take (i + 1)).filter fun x => bit x.flags 0).getLast?
    ⟨some i, late, o.bind fun x => x.outs.getLast?, false⟩
  | none =>
    let q := t.aus.any fun x => decide (x.adm ≤ l)
    ⟨none, q, none, q && t.short⟩

/-! ### Statistics and freeze (R226, R245) -/

/-- The statistics header of a decoded picture, read tagged (R143, R224): coded size, crop, CTB size, CTUs per row and
rows. -/
structure StatHdr where
  w : Nat
  h : Nat
  cropL : Nat
  cropR : Nat
  cropT : Nat
  cropB : Nat
  ctb : Nat
  wc : Nat
  hc : Nat

/-- Parse a statistics header. -/
def statHdr (d : List Nat) : StatHdr :=
  let n := fun (o k : Nat) => ofLE ((d.drop o).take k)
  ⟨n 8 2, n 10 2, n 12 2, n 14 2, n 16 2, n 18 2, n 0 1, n 2 2, n 4 2⟩

/-- Byte offset of a bay's statistics. -/
def State.statsOff (s : State) (b : Nat) : Nat := 4096 * s.rd (bayE b) BAYD_STATS_OFF

/-- A tagged read by engine `e` of `len` bytes at `off` of (bay, GEN) (R143). DESIGN CHOICE: a bay whose FEED names no feed, those written
by composition and the tap too, is read with FSEQ_CHK 0 (log entry 161). -/
def State.cmpRead (s : State) (e b g off len : Nat) : Option (List Nat) × State :=
  s.bayRead (20 + e) (fidOf .cmp e) b g (s.rd (bayE b) BAYD_FSEQ_FSEQ) off len (decide (s.rd (bayE b) BAYD_FEED_FEED ≠ 0x3FF))

/-- Read a statistics header. -/
def State.readStatHdr (s : State) (e b g : Nat) : Option StatHdr × State :=
  match s.cmpRead e b g (s.statsOff b) 64 with
  | (some d, s) => (some (statHdr d), s)
  | (none, s) => (none, s)

/-- The liveness measure of a picture for a region (R226): none where its statistics cannot be read. -/
def State.measure (s : State) (e b g : Nat) (t : StallCfg) : Option Nat × State :=
  match s.readStatHdr e b g with
  | (none, s) => (none, s)
  | (some h, s) =>
    match s.cmpRead e b g (s.statsOff b + 64) (8 * h.wc * h.hc) with
    | (none, s) => (none, s)
    | (some d, s) =>
      let ow := h.w - h.cropL - h.cropR
      let oh := h.h - h.cropT - h.cropB
      let x0 := min t.lx ow + h.cropL
      let x1 := min (t.lx + t.lw) ow + h.cropL
      let y0 := min t.ly oh + h.cropT
      let y1 := min (t.ly + t.lh) oh + h.cropT
      let c := 2 ^ h.ctb
      let cells := (upTo (h.wc * h.hc)).filter fun i =>
        let cx := i % h.wc * c
        let cy := i / h.wc * c
        decide (x0 < x1) && decide (y0 < y1) && decide (cx < x1) && decide (x0 < cx + c) && decide (cy < y1) &&
          decide (y0 < cy + c)
      (some (cells.foldl (fun t i => t + d.getD (8 * i) 0) 0), s)

/-- Judge one picture for a stall (R245): whether its statistics read failed. The statistics of a concealed picture are read too; it neither
begins nor ends a run. -/
def State.judgePic (s : State) (e n : Nat) (t : StallCfg) (q : TrackPic) : Bool × State :=
  let p := stallE n
  if s.bayGen q.bay ≠ q.gen then (true, s)
  else match s.measure e q.bay q.gen t with
    | (none, s) => (true, s)
    | (some m, s) =>
      if q.conc then (false, s)
      else if m ≠ 0 then (false, s.wb p STL_ST_RUN false)
      else if s.on p STL_ST_RUN then (false, s)
      else (false, (s.wb p STL_ST_RUN true).wr64 p STL_RUN_TC_LO_T STL_RUN_TC_HI_T q.tc)

/-- The access units of a track up to position `c` that a stall has not judged yet. -/
def Track.unjudged (k : Track) (c : Option Nat) (judged : Nat) : List TrackAu :=
  match c with
  | some i => (k.aus.take (i + 1)).filter fun x => bit x.flags 0 && decide (judged ≤ x.uid)
  | none => []

/-- The freeze judgement of a stall (R245): frozen, a failed statistics read, the state. Every picture output at an access unit not yet
judged is judged once, in output order, which the rule takes as the order of capture time. `p` is the admitted picture with its TC. -/
def State.freezeJudge (s : State) (e n : Nat) (t : StallCfg) (k : Track) (c : Option Nat) (p : Nat × Nat) (tc : Nat) :
    Bool × Bool × State :=
  let st := s.stallSt n
  let l := k.unjudged c st.judged
  let pics := l.flatMap (·.outs)
  match l.getLast?, pics.getLast? with
  | some last, some newest =>
    let (bad, s) := pics.foldl (fun (r : Bool × State) x =>
      let q := r.2.judgePic e n t x
      (r.1 || q.1, q.2)) (false, s)
    let runTc := s.rd64 (stallE n) STL_RUN_TC_LO_T STL_RUN_TC_HI_T
    let fz := s.on (stallE n) STL_ST_RUN && decide (p = (newest.bay, newest.gen)) && decide (t.win * 100000000 < tc - runTc)
    (fz, bad, s.setStallSt n { s.stallSt n with judged := last.uid + 1, frozen := fz })
  | _, _ => (st.frozen, false, s)

/-! ### Source reads (R244, R247) -/

/-- Read pieces of a source, tagged: whether all succeeded. -/
def State.readAll (s : State) (e b g : Nat) : List (Nat × Nat) → Bool × State
  | [] => (true, s)
  | x :: t =>
    let r := s.cmpRead e b g x.1 x.2
    let q := r.2.readAll e b g t
    (r.1.isSome && q.1, q.2)

/-- The image of a source bay; a decoded picture's output area comes from its statistics, a bay source shows WIDTH × HEIGHT
(R247). -/
def State.srcImg (s : State) (b : Nat) (h : Option StatHdr) : SrcImg :=
  let p := bayE b
  let byte := fun (o : Nat) => (s.bayPeek b o 1).getD 0 0
  let w := s.rd p BAYD_DIM_WIDTH
  let hh := s.rd p BAYD_DIM_HEIGHT
  let mk := fun (cw ch l t ow oh : Nat) => SrcImg.mk (s.rd p BAYD_SIZE_FORMAT) (s.rd p BAYD_STRIDE_STRIDE * 64)
    (4096 * s.rd p BAYD_PLANE2_OFF) cw ch l t ow oh byte
  match h with
  | some x => mk x.w x.h x.cropL x.cropT (x.w - x.cropL - x.cropR) (x.h - x.cropT - x.cropB)
  | none => mk w hh 0 0 w hh

/-- The byte ranges of a source that a stall's crop draws on, chroma neighbours included (R244, R247; log entry 15). -/
def cropReads (g : SrcImg) (t : StallCfg) : List (Nat × Nat) :=
  let x0 := edge t.cx t.cw g.w t.cx + g.left
  let x1 := edge t.cx t.cw g.w (t.cx + t.cw : Nat) + g.left
  let y0 := edge t.cy t.ch g.h t.cy + g.top
  let y1 := edge t.cy t.ch g.h (t.cy + t.ch : Nat) + g.top
  let n := if g.fmt = 2 ∨ g.fmt = 3 then 4 else if g.fmt = 1 then 2 else 1
  let luma := (upTo (y1 + 1 - y0)).map fun i => ((y0 + i) * g.line + n * x0, n * (x1 + 1 - x0))
  if g.fmt = 2 ∨ g.fmt = 3 then luma
  else
    let a := x0 / 2
    let b := min ((x1 + 1) / 2) ((g.codedW + 1) / 2 - 1)
    let u := (y0 - 1) / 2
    let v := min ((y1 + 1) / 2) ((g.codedH + 1) / 2 - 1)
    luma ++ (upTo (v + 1 - u)).map fun i => (g.p2 + (u + i) * g.line + 2 * n * a, 2 * n * (b + 1 - a))

/-! ### One stall at a cut -/

/-- What a stall admits at an epoch: reasons, frame, its stamps, the layer to compose. -/
structure Admit where
  stall : Nat
  cfg : StallCfg
  reasons : Nat
  src : Nat × Nat
  tc : Nat
  est : Bool
  conc : Bool
  fseq : Nat
  layer : Layer
  hold : Option (Nat × Nat)

/-- Reason bits of a ledger entry (R148). -/
abbrev rG : Nat := 1
abbrev rN : Nat := 2
abbrev rL : Nat := 4
abbrev rC : Nat := 8
abbrev rF : Nat := 32

/-- What a stall is to show: a picture of its track, its source bay, or the frame last admitted again. -/
inductive Pickt where
  | pic (x : TrackPic)
  | bay (x : Nat × Nat)
  | again (x : Nat × Nat)

/-- The bay and GEN of it. -/
def Pickt.bg : Pickt → Nat × Nat
  | .pic x => (x.bay, x.gen)
  | .bay x => x
  | .again x => x

/-- Which frame a stall admits (R242, R243), whether it is LATE, and the track position. A bay source is admitted wherever the cut finds
its bay's READY at 1: the hold decides whether it is the bay of GEN (R244). -/
def State.admitPick (s : State) (e n : Nat) (t : StallCfg) (v : CanvasCfg) (cut : Nat) : Option Pickt × Bool × Option Nat × State :=
  let p := stallE n
  let again := if s.on p STL_ST_SEEN then some (Pickt.again (s.rd p STL_LASTB_LAST_BAY, s.rd p STL_LASTB_LAST_GEN)) else none
  if t.isBay then
    if s.on (bayE t.source) BAYD_STAT_READY then (some (.bay (t.source, t.gen)), false, none, s) else (again, false, none, s)
  else match s.track e t.source with
    | none => (again, false, none, s)
    | some k =>
      let q := k.pick (cut - v.allow * 1000000) cut
      let s := if q.short then s.emit (cmpP e) 0x2001 (le n 2 ++ le t.source 2) else s
      match q.pic with
      | some x => (some (.pic x), q.late, q.c, s)
      | none => (again, q.late, q.c, s)

/-- TC, ESTIMATED, CONCEALED and FSEQ of what a stall admits (R242, R243, R246): the bay's as they stand; the track's where a picture's
hold could not be taken, so that the bay may be another frame's by now; the last epoch's for a frame shown again, whose CONCEALED is the
bay's while it is held (log entry 128). -/
def State.admitStamps (s : State) (n : Nat) (x : Pickt) (held : Bool) : Nat × Bool × Bool × Nat :=
  let p := stallE n
  let q := s.trackPic x.bg
  match x with
  | .pic y => if held then (q.tc, q.est, q.conc, q.fseq) else (y.tc, y.est, y.conc, y.fseq)
  | .bay _ => (q.tc, q.est, q.conc, q.fseq)
  | .again _ =>
    (s.rd64 p STL_LAST_TC_LO_T STL_LAST_TC_HI_T, (s.stallSt n).est, if held then q.conc else (s.stallSt n).conc,
      s.rd p STL_LASTF_LAST_FSEQ)

/-- The hold and source reads of an admitted frame (R244): failure code (0 hold, 1 source, 2 statistics), image, state. -/
def State.admitRead (s : State) (e : Nat) (t : StallCfg) (x : Nat × Nat) : Option Nat × Option SrcImg × Bool × State :=
  match s.holdTake x.1 x.2 with
  | (false, s) => (some 0, none, false, s)
  | (true, s) =>
    let (hdr, bad, s) := if t.isBay then (none, false, s) else match s.readStatHdr e x.1 x.2 with
      | (some h, s) => (some h, false, s)
      | (none, s) => (none, true, s)
    if bad then (some 2, none, true, s)
    else
      let g := s.srcImg x.1 hdr
      let (ok, s) := s.readAll e x.1 x.2 (cropReads g t)
      if ok then (none, some g, true, s) else (some 1, none, true, s)

/-- A SOURCE_FAIL record at the first failing epoch of a stall, none until its reads all succeed again (R244, R255). -/
def State.sourceFail (s : State) (e n : Nat) (x : Nat × Nat) (fail : Option Nat) : State :=
  let st := s.stallSt n
  let s := match fail with
    | some k => if st.failed then s else s.emit (cmpP e) 0x1001 (le n 2 ++ le x.1 2 ++ le x.2 2 ++ [k])
    | none => s
  s.setStallSt n { s.stallSt n with failed := fail.isSome }

/-- Write a stall's status fields (R231, R246). -/
def State.stallStatus (s : State) (n : Nat) (a : Admit) : State :=
  let p := stallE n
  let s := (s.wr p STL_ST_REASONS a.reasons).wr64 p STL_LAST_TC_LO_T STL_LAST_TC_HI_T a.tc
  let s := (s.wr p STL_LASTB_LAST_BAY a.src.1).wr p STL_LASTB_LAST_GEN a.src.2
  (s.wr p STL_LASTF_LAST_FSEQ a.fseq).setStallSt n { s.stallSt n with est := a.est, conc := a.conc }

/-- Admit one stall at a cut (R242 to R246). -/
def State.admitStall (s : State) (e n : Nat) (v : CanvasCfg) (cut : Nat) : Admit × State :=
  let t := s.stallAct n
  let p := stallE n
  match s.admitPick e n t v cut with
  | (none, late, _, s) =>
    let (d, s) := (s.freeCtr, s.draw.2)
    let a : Admit := ⟨n, t, rN + (if late then rL else 0), (0, 0), 0, false, false, 0, .unset t d, none⟩
    (a, s.stallStatus n a)
  | (some x, late, c, s) =>
    let (fail, img, held, s) := s.admitRead e t x.bg
    let (tc, est, conc, fseq) := s.admitStamps n x held
    let s := s.wb p STL_ST_SEEN true
    let (fz, statBad, s) :=
      if t.freeze && !t.isBay && decide (t.lw ≠ 0) && decide (t.lh ≠ 0) then
        match s.track e t.source with
        | some k => s.freezeJudge e n t k c x.bg tc
        | none => (false, false, s)
      else (false, false, s)
    let fail' := if fail.isSome then fail else if statBad then some 2 else none
    let r := (if fail'.isSome then rG else 0) + (if late then rL else 0) + (if conc then rC else 0) + (if fz then rF else 0)
    let layer := match img with
      | some g => Layer.image t g
      | none => Layer.failed t
    let a : Admit := ⟨n, t, r, x.bg, tc, est, conc, fseq, layer, if held then some x.bg else none⟩
    (a, (s.sourceFail e n x.bg fail').stallStatus n a)

/-- Admit the stalls of a canvas, ascending. -/
def State.admitAll (s : State) (e : Nat) (v : CanvasCfg) (cut : Nat) : List Nat → List Admit × State
  | [] => ([], s)
  | n :: t =>
    let r := s.admitStall e n v cut
    let q := r.2.admitAll e v cut t
    (r.1 :: q.1, q.2)

/-! ### Writeback (R250, R251, R148) -/

/-- The ledger entry of a stall (R148, R246). -/
def Admit.entry (a : Admit) : List Nat :=
  let t := a.cfg
  le a.tc 8 ++ le (a.stall + b2n t.gated * 2 ^ 12 + b2n t.tick * 2 ^ 13 + b2n a.est * 2 ^ 14) 2 ++ [a.reasons, 0] ++
    le t.budget 2 ++ [0, 0] ++ le t.dx 2 ++ le t.dy 2 ++ le t.dw 2 ++ le t.dh 2 ++ le (a.src.1 + 2 ^ 16 * a.src.2) 4 ++
    le a.fseq 4

/-- The ledger of an epoch (R148). -/
def ledgerBytes (cut frame c : Nat) (out : Nat × Nat) (wcrc : Nat) (l : List Admit) : List Nat :=
  padTo 64 (le cut 8 ++ le frame 4 ++ [c, 0] ++ le l.length 2 ++ le out.1 2 ++ le out.2 2 ++ le wcrc 4) ++
    l.flatMap Admit.entry

/-- Insert a layer by Z, behind those of equal Z (R249). -/
def zInsert (x : Layer) : List Layer → List Layer
  | [] => [x]
  | y :: t => if x.cfg.z < y.cfg.z then x :: y :: t else y :: zInsert x t

/-- Layers in the order of R249: rising Z, then rising stall number. -/
def zSort (l : List Layer) : List Layer := l.foldl (fun t x => zInsert x t) []

/-- The output bay fits (R250). -/
def State.outFits (s : State) (b : Nat) (v : CanvasCfg) : Bool :=
  let p := bayE b
  let line := s.rd p BAYD_STRIDE_STRIDE * 64
  decide (s.rd p BAYD_SIZE_FORMAT = 2) && decide (v.w ≤ s.rd p BAYD_DIM_WIDTH) && decide (v.h ≤ s.rd p BAYD_DIM_HEIGHT) &&
    decide (4 * v.w ≤ line) && decide (line * v.h ≤ 4096 * s.rd p BAYD_STATS_OFF)

/-- The ledger bay fits (R250). -/
def State.ledFits (s : State) (b entries : Nat) : Bool :=
  decide (s.rd (bayE b) BAYD_SIZE_FORMAT = 4) && decide (64 + 32 * entries ≤ s.baySize b)

/-- The pieces of a canvas's lines that its tiles hold, tiles in raster order: line, first column, pixels (R26, R240). -/
def tileRuns (w h : Nat) : List (Nat × Nat × Nat) :=
  (upTo (tilesOf h)).flatMap fun r => (upTo (tilesOf w)).flatMap fun c =>
    (upTo (min 32 (h - 32 * r))).map fun y => (32 * r + y, 32 * c, min 32 (w - 32 * c))

/-- Write composed lines to the output bay, tile by tile in raster order (R240, R250). -/
def State.composeWrite (s : State) (e : Nat) (out : Nat × Nat) (frame w h : Nat) (rows : List (List Nat)) : State :=
  let line := s.rd (bayE out.1) BAYD_STRIDE_STRIDE * 64
  (tileRuns w h).foldl (fun s x =>
    let px := ((rows.getD x.1 []).drop x.2.1).take x.2.2
    (s.bayWrite (20 + e) (fidOf .cmp e) out.1 out.2 frame (x.1 * line + 4 * x.2.1) (wordBytes px)).2) s

/-- Begin epoch `n` of a canvas (R240, R242 to R251): admission, allocation, composition, ledger. A direct canvas writes its ledger alone: its
tiles wait until that is committed (R253). -/
def State.epochBegin (s : State) (e c n : Nat) : State :=
  let v := s.cvAct e c
  let cut := v.cut n
  let frame := n % 2 ^ 32
  let (l, s) := s.admitAll e v cut ((s.stallsOn c).map (·.1))
  let (o, s) := s.alloc v.outC (fidOf .cmp e)
  let (d, s) := s.alloc v.ledC (fidOf .cmp e)
  let x : EpochSt := ⟨n, cut, cut + v.lead * 10000, o, d, l.filterMap (·.hold), none, 0, false, (v.w, v.h)⟩
  let (x, s) := match o, d with
    | none, _ => ({ x with miss := some 0 }, s)
    | some _, none => ({ x with miss := some 1 }, s)
    | some ob, some lb =>
      if !s.outFits ob.1 v then ({ x with miss := some 2 }, s)
      else if !s.ledFits lb.1 l.length then ({ x with miss := some 3 }, s)
      else
        let s := (s.wr (bayE ob.1) BAYD_FSEQ_FSEQ frame).wr (bayE lb.1) BAYD_FSEQ_FSEQ frame
        let bg : Px := ⟨v.bgR, v.bgG, v.bgB, 3⟩
        let layers := zSort (l.map Admit.layer)
        let rows := (upTo v.h).map fun y => canvasWords bg layers v.w y
        let crc := crc32c (wordBytes rows.flatten)
        let s := if v.direct then s else s.composeWrite e ob frame v.w v.h rows
        let s := (s.bayWrite (20 + e) (fidOf .cmp e) lb.1 lb.2 frame 0 (ledgerBytes cut frame c ob crc l)).2
        let dst : DirectSt := ⟨n, ob.1, ob.2, lb.1, lb.2, crc, rows, false, []⟩
        let s := if v.direct then { s with directs := Store.put (2 * c + n % 2) dst s.directs } else s
        ({ x with wcrc := crc }, s)
  let k := s.cv e c
  s.setCv e c { k with begun := k.begun ++ [x], next := n + 1 }

/-- Yard time reaches the next cut of canvas `c` (R234, R265): a pending commit takes effect, and the epoch begins. -/
def State.epochCut (s : State) (e c : Nat) : State :=
  if !s.cvOn e c then s
  else
    let n := (s.cv e c).next
    let s := s.advanceTo ((s.cvAct e c).cut n)
    let s := s.canvasApply e c
    if !s.cvOn e c then s
    else if !s.enabled (cmpP e) ∨ !s.pll 0 then s.setCv e c { s.cv e c with next := n + 1 }
    else s.epochBegin e c n

/-! ### Commit and miss (R252) -/

/-- Release an epoch's ADMIT holds: its writeback is complete (R138). -/
def State.admitRelease (s : State) (x : EpochSt) : State := x.admits.foldl (fun s y => s.holdRelease y.1 y.2) s

/-- Release an epoch's owner holds. -/
def State.epochOwners (s : State) (x : EpochSt) : State :=
  let own := fun (s : State) (b : Option (Nat × Nat)) => match b with
    | some y => s.ownerRelease y.1 y.2
    | none => s
  own (own s x.out) x.led

/-- Release an epoch's owner holds and ADMIT holds. -/
def State.epochRelease (s : State) (x : EpochSt) : State := (s.epochOwners x).admitRelease x

/-- One EPOCH_MISSED record for `k` epochs from `n`, counted (R252). -/
def State.epochMissed (s : State) (e c n reason k : Nat) : State :=
  let p := cmpP e
  let s := (s.cnt p CMP_MISSED_COUNT k).wb p (CMP_CV_STATUS_MISSED c) true
  s.emit p 0x0801 ([c, reason, 0, 0] ++ le n 4 ++ le k 4)

/-- Commit epoch `x`, its writes acknowledged `slack` ns before r_n (R252); its ADMIT holds went with its writeback (R138). An output bay
that a forced free has taken is not held, so it takes no LEDGER hold (R139, R149). -/
def State.epochDo (s : State) (e c : Nat) (x : EpochSt) (o d : Nat × Nat) (slack : Nat) : State :=
  let p := cmpP e
  let k := s.cv e c
  let b := bayE o.1
  let s := if s.bayHeld o.1 o.2 then
      ((((s.wr b BAYD_LEDGER_BAY d.1).wr b BAYD_LEDGER_GEN d.2).wr b BAYD_WCRC_WCRC x.wcrc).wr64 b BAYD_TC_LO_TC
        BAYD_TC_HI_TC 0).wb b BAYD_STAT_READY true
    else s
  let s := if s.bayHeld o.1 o.2 && s.bayHeld d.1 d.2 then
      { (s.holdTake d.1 d.2).2 with yardLedger := Store.put o.1 d s.yardLedger }
    else s
  let s := (s.holdTake o.1 o.2).2
  let s := match k.last with
    | some y => s.holdRelease y.bay y.gen
    | none => s
  let s := s.epochOwners x
  let s := (s.cnt p CMP_EPOCHS_COUNT 1).wb p (CMP_CV_STATUS_MISSED c) false
  let s := s.wr p CMP_SLACK_MIN_US (min (s.rd p CMP_SLACK_MIN_US) (min (slack / 1000) 0xFFFF))
  s.setCv e c { s.cv e c with last := some ⟨x.n, x.ready, o.1, o.2, d.1, d.2, x.wcrc⟩ }

/-- The perturbation of R481 at an epoch's acknowledgement: ns it is held. -/
def State.epochHold (s : State) (e c : Nat) : Nat × State :=
  let (hit, s) := s.perturb (cmpP e) 1 (some c)
  (if hit then 1000 * s.rd (cmpP e) PERTURB_AMOUNT else 0, s)

/-- The last write of epoch `x` is acknowledged `a` ns before r_n: its ADMIT holds go then (R138, R252). -/
def State.epochAcked (s : State) (x : EpochSt) (a : Nat) : State := (s.advanceTo (x.ready - a)).admitRelease x

/-- R_n of the oldest epoch begun (R252). `ack`: ns before r_n at which its last write was acknowledged; none while writes are
outstanding. Whether it commits. -/
def State.epochReady (s : State) (e c : Nat) (ack : Option Nat) : Bool × State :=
  match (s.cv e c).begun with
  | [] => (false, s)
  | x :: t =>
    let late := fun (s : State) =>
      ((s.advanceTo x.ready).epochMissed e c x.n 4 1).setCv e c
        { s.cv e c with begun := t, drains := (s.cv e c).drains ++ [x] }
    match x.miss with
    | some r =>
      let s := (s.advanceTo x.ready).setCv e c { s.cv e c with begun := t }
      (false, (s.epochMissed e c x.n r 1).epochRelease x)
    | none =>
      let (hold, s) := s.epochHold e c
      match ack, x.out, x.led with
      | some a, some o, some d =>
        if hold ≤ a then
          let s := (s.epochAcked x (a - hold)).advanceTo x.ready
          let s := s.setCv e c { s.cv e c with begun := t }
          (true, s.epochDo e c x o d (a - hold))
        else (false, late s)
      | _, _, _ => (false, late s)

/-- Cuts passed by a forward step of yard time are missed with reason 5, in one record (R234, R252). A pending commit takes
effect at the first of them (R265). -/
def State.epochsPassed (s : State) (e c : Nat) : State :=
  if !s.cvOn e c then s
  else
    let n := (s.cv e c).next
    if s.now ≤ (s.cvAct e c).cut n then s
    else
      let s := s.canvasApply e c
      if !s.cvOn e c then s
      else
        let m := max ((s.cvAct e c).firstAfter (s.now - 1)) (n + 1)
        (s.epochMissed e c n 5 (m - n)).setCv e c { s.cv e c with next := m }

end Sys2Proof.Machine
end

