-- ==== Sys2Proof/Machine/Gate.lean ====
section
/-! DEFINITION. The gate: ledger reads, verdicts, bad frames, pixels and the output check (R267, R272 to R283). -/

namespace Sys2Proof.Machine

/-- The page of gate `e`. -/
abbrev gtP (e : Nat) : Nat := pg .gate e

/-! ### Records (R283) -/

/-- DATA of a gate record: bytes 0–1, head, byte 3, bytes 4–7, Ts. -/
def gateData (b01 h b3 b47 ts : Nat) : List Nat := le b01 2 ++ [h, b3] ++ le b47 4 ++ le ts 8

/-- A VERDICT record at time `t` (R22, R275). -/
def State.verdictRec (s : State) (e h stall reasons age ts t : Nat) : State :=
  s.emitAt (gtP e) t 0x0001 (gateData stall h reasons age ts)

/-- A head at rest. -/
def head0 : HeadSt :=
  ⟨⟨0, 0, 0, 0, 0, 0, 0, 0, 0, 0, false, false, false, 0, 0⟩, 0, false, 0, 0, [], false, false, none, 0, 0, none, [], none, none, [],
   false, none, false, 0, false, false, [], none, [], [], [], []⟩

/-- Run-time state of head `h`. -/
def State.hd (s : State) (h : Nat) : HeadSt := Store.getD head0 h s.heads

/-- Set it. -/
def State.setHd (s : State) (h : Nat) (x : HeadSt) : State := { s with heads := Store.put h x s.heads }

/-! ### Reads of the scan-out engine (R143, R267) -/

/-- A tagged read of scan-out engine `e` by parts: first byte's offset in the read, error detail (1 also for a part that is
denied or lies past the end of DRAM), data. -/
def State.scanRead (s : State) (e b g off len : Nat) : List (Nat × Nat × List Nat) × State :=
  let a := s.bayAddr b off
  let tag := s.bayTag b g (s.rd (bayE b) BAYD_FSEQ_FSEQ) off true
  let r := s.hwAccess (22 + e) (0x1100 + e) .read (some tag) a len []
  (r.1.map fun x => (x.1 - a, if x.2.1 = 0 then 0 else max x.2.2.1 1, x.2.2.2), r.2)

/-- The whole data of a read, none where a part failed. -/
def State.scanBytes (s : State) (e b g off len : Nat) : Option (List Nat) × State :=
  let r := s.scanRead e b g off len
  (if r.1.all fun x => decide (x.2.1 = 0) then some (r.1.flatMap fun x => x.2.2) else none, r.2)

/-! ### The ledger (R272) -/

/-- A ledger as the gate reads it: 0 a failed read, 1 a header that does not match, or the entries' bytes. -/
inductive LedRead where
  | bad (cause : Nat)
  | entries (l : List (List Nat))

/-- Split bytes into pieces of `n`. -/
def chunks (n : Nat) : Nat → List Nat → List (List Nat)
  | 0, _ => []
  | k + 1, l => l.take n :: chunks n k (l.drop n)

/-- The little-endian number in `n` bytes at `o`. -/
def num (d : List Nat) (o n : Nat) : Nat := ofLE ((d.drop o).take n)

/-- Read the ledger (lb, lg) for canvas `c` and output bay `out`, tagged (R272). -/
def State.readLedger (s : State) (e c : Nat) (out led : Nat × Nat) : LedRead × State :=
  match s.scanBytes e led.1 led.2 0 64 with
  | (none, s) => (.bad 0, s)
  | (some d, s) =>
    let n := num d 0xE 2
    if num d 0xC 1 ≠ c ∨ num d 0x10 2 ≠ out.1 ∨ num d 0x12 2 ≠ out.2 ∨ 4096 < n then (.bad 1, s)
    else if n = 0 then (.entries [], s)
    else match s.scanBytes e led.1 led.2 64 (32 * n) with
      | (none, s) => (.bad 0, s)
      | (some d, s) => (.entries (chunks 32 n d), s)

/-! ### Verdicts (R274) -/

/-- The verdict of one entry at Ts. -/
def verdict (r tc budget ts : Nat) (bad : Bool) : Nat :=
  let r := if bad && !bit r 0 then r + 1 else r
  if bit r 1 then r
  else if ts < tc then r + 16
  else if budget * 1000000 < ts - tc then r + 64
  else r

/-- Age in ms for records: truncated, saturating, 0 under N or T (R8, R283). -/
def ageMs (r tc ts : Nat) : Nat := if bit r 1 || bit r 4 then 0 else min ((ts - tc) / 1000000) 0xFFFFFFFF

/-- The stall that a ledger entry gives a head, none where it is ungated or does not meet the head (R13, R272). -/
def gateStall (g : Geo) (ts : Nat) (bad : Bool) (d : List Nat) : Option GateStall :=
  let w := num d 8 2
  let x0 := max (num d 0x10 2) g.x
  let x1 := min (num d 0x10 2 + num d 0x14 2) (g.x + g.hAct)
  let y0 := max (num d 0x12 2) g.y
  let y1 := min (num d 0x12 2 + num d 0x16 2) (g.y + g.vAct)
  let tc := num d 0 8
  let r := verdict (num d 0xA 1 % 128) tc (num d 0xC 2) ts bad
  if bit w 12 ∧ x0 < x1 ∧ y0 < y1 then
    some ⟨w % 4096, x0 - g.x, y0 - g.y, x1 - x0, y1 - y0, bit w 13, bit w 14, r, none, ageMs r tc ts⟩
  else none

/-- Reasons of a stall now, MID changes applied. -/
def GateStall.now (t : GateStall) : Nat :=
  match t.mid with
  | some (_, _, r) => r
  | none => t.r0

/-- Reasons of a stall on an active line. -/
def GateStall.at_ (t : GateStall) (line : Nat) : Nat :=
  match t.mid with
  | some (l, _, r) => if l ≤ line then r else t.r0
  | none => t.r0

/-- The rectangle holds a pixel. -/
def GateStall.holds (t : GateStall) (x y : Nat) : Bool :=
  decide (t.x ≤ x) && decide (x < t.x + t.w) && decide (t.y ≤ y) && decide (y < t.y + t.h)

/-- The stalls that the gate treats a frame by: a wholly stale frame is one region over the active area (R273). -/
def GateFrame.regions (f : GateFrame) (g : Geo) : List GateStall :=
  if f.whole then [⟨0x1001, 0, 0, g.hAct, g.vAct, false, false, 1, none, 0⟩] else f.stalls

/-- Write the records of a new frame and keep its verdicts as the head's history (R275, R273). -/
def State.judged (s : State) (e h : Nat) (f : GateFrame) (g : Geo) : State :=
  let l := f.regions g
  let old := (s.hd h).hist
  let s := l.foldl (fun s t =>
    if old.contains (t.stall, t.r0) then s else s.verdictRec e h t.stall t.r0 t.age f.ts f.ts) s
  let s := s.cnt (gtP e) GATE_STALE_COUNT (l.filter fun t => decide (t.r0 ≠ 0)).length
  let x := s.hd h
  s.setHd h { x with hist := l.map fun t => (t.stall, t.r0), frames := f :: x.frames.take 7 }

/-- A failed part of a read of the frame in progress (R267): stalls that hold a pixel of columns [a, b) of `line` become G from
there on, with one MID record each. -/
def State.midFail (s : State) (e h line a b : Nat) : State :=
  match (s.hd h).frames with
  | [] => s
  | f :: rest =>
    let hit := fun (t : GateStall) => !bit t.now 0 && decide (t.y ≤ line) && decide (line < t.y + t.h) && decide (t.x < b) &&
      decide (a < t.x + t.w)
    let chg := f.stalls.filter hit
    let now := s.now
    let upd := fun (t : GateStall) =>
      match t.mid with
      | some (l, _, _) => { t with mid := some (min l line, now, t.now + 1) }
      | none => { t with mid := some (line, now, t.now + 1) }
    let f' := { f with stalls := mapWhere hit upd f.stalls }
    let x := s.hd h
    let hist := x.hist.map fun v => if chg.any (fun t => decide (t.stall = v.1)) then (v.1, v.2 + 1) else v
    let s := s.setHd h { x with frames := f' :: rest, hist := hist }
    chg.foldl (fun s t =>
      let s := if t.now = 0 then s.cnt (gtP e) GATE_STALE_COUNT 1 else s
      s.verdictRec e h t.stall (t.now + 1 + 128) t.age f.ts now) s

/-! ### Pixels (R15 to R17, R276 to R278) -/

/-- The pattern rows of a reason letter, by the reason's bit (R277). -/
def glyphRows (r : Nat) : List Nat :=
  match r with
  | 0 => [0x0E, 0x11, 0x10, 0x17, 0x11, 0x11, 0x0F]
  | 1 => [0x11, 0x11, 0x19, 0x15, 0x13, 0x11, 0x11]
  | 2 => [0x10, 0x10, 0x10, 0x10, 0x10, 0x10, 0x1F]
  | 3 => [0x0E, 0x11, 0x10, 0x10, 0x10, 0x11, 0x0E]
  | 4 => [0x1F, 0x04, 0x04, 0x04, 0x04, 0x04, 0x04]
  | 5 => [0x1F, 0x10, 0x10, 0x1E, 0x10, 0x10, 0x10]
  | _ => [0x0E, 0x11, 0x11, 0x1F, 0x11, 0x11, 0x11]

/-- The primary reason of a set: the first in the order G, N, L, C, T, F, A, by its bit (R9, R10). -/
def primary (r : Nat) : Nat := ((upTo 7).find? fun i => bit r i).getD 6

/-- Cell pixel (cx, cy) of a glyph is drawn in colour B (R277). -/
def glyphB (reason cx cy : Nat) : Bool :=
  if 3 ≤ cx ∧ cx < 13 ∧ 1 ≤ cy ∧ cy < 15 then bit ((glyphRows reason).getD ((cy - 1) / 2) 0) (4 - (cx - 3) / 2) else false

/-- A clipped rectangle is large enough for a glyph or a tick (R16, R17). -/
def GateStall.big (t : GateStall) : Bool := decide (48 ≤ t.w) && decide (48 ≤ t.h)

/-- The glyph of a stale stall covers (x, y): 4 pixels in from the top-left corner (R16). -/
def GateStall.glyphAt (t : GateStall) (x y : Nat) : Bool :=
  t.big && decide (t.x + 4 ≤ x) && decide (x < t.x + 20) && decide (t.y + 4 ≤ y) && decide (y < t.y + 20)

/-- The tick of a live stall covers (x, y): its corner 4 pixels in from the bottom-right (R17). -/
def GateStall.tickAt (t : GateStall) (x y : Nat) : Bool :=
  t.tick && t.big && decide (t.x + t.w ≤ x + 20) && decide (x + 4 < t.x + t.w) && decide (t.y + t.h ≤ y + 20) &&
    decide (y + 4 < t.y + t.h)

/-- (x, y) lies in the outermost 4 pixels of the rectangle (R16). -/
def GateStall.borderAt (t : GateStall) (x y : Nat) : Bool :=
  decide (x < t.x + 4) || decide (t.x + t.w ≤ x + 4) || decide (y < t.y + 4) || decide (t.y + t.h ≤ y + 4)

/-- Pixel (cx, cy) of a tick is light (R17). `phase`: frame number mod 4. -/
def tickLight (phase : Nat) (est : Bool) (cx cy : Nat) : Bool :=
  if 1 ≤ cx ∧ cx < 15 ∧ 1 ≤ cy ∧ cy < 15 then
    let right := decide (8 ≤ cx)
    let low := decide (8 ≤ cy)
    let q := if low then (if right then 2 else 3) else if right then 1 else 0
    let qx := (cx - 1) % 7
    let qy := (cy - 1) % 7
    decide (q = phase) && (!est || decide (qx = 0 ∨ qx = 6 ∨ qy = 0 ∨ qy = 6))
  else false

/-- The highest-numbered stall of a list that passes `p`; the list rises by stall number. -/
def topStall (p : GateStall → Bool) (l : List GateStall) : Option GateStall := (l.filter p).getLast?

/-- R276: one pixel leaving the gate, as a 30-bit R′G′B′ value. `cols`: hatch A, hatch B, tick light, tick dark. -/
def gatePixel (l : List GateStall) (cols : List Nat) (f line x composed : Nat) : Nat :=
  let stale := l.filter fun t => t.holds x line && decide (t.at_ line ≠ 0)
  let a := cols.getD 0 0
  let b := cols.getD 1 0
  match stale with
  | _ :: _ =>
    match topStall (fun t => t.glyphAt x line) stale with
    | some t => if glyphB (primary (t.at_ line)) (x - t.x - 4) (line - t.y - 4) then b else a
    | none =>
      if stale.any fun t => t.borderAt x line then a
      else if (x + line) % 32 < 16 then a else b
  | [] =>
    match topStall (fun t => t.tickAt x line && decide (t.at_ line = 0)) l with
    | some t => if tickLight (f % 4) t.est (x + 20 - (t.x + t.w)) (line + 20 - (t.y + t.h)) then cols.getD 2 0 else cols.getD 3 0
    | none => composed

/-- The gated pixels of an active line (R276). -/
def gateLine (f : GateFrame) (g : Geo) (cols : List Nat) (line : Nat) (words : List Nat) : List Nat :=
  let l := (f.regions g).filter fun t => decide (t.y ≤ line) && decide (line < t.y + t.h)
  (words.zipIdx).map fun w => gatePixel l cols f.f line w.2 (w.1 % 2 ^ 30)

/-- A component at 8 bits (R278). -/
def depth8 (v : Nat) : Nat := min 255 ((v + 2) / 4)

/-- A pixel as it is sent: 30 bits, or 24 on a head with DEPTH 1 (R278). -/
def pxOut (d24 : Bool) (v : Nat) : Nat :=
  if d24 then depth8 (v % 1024) + 2 ^ 8 * depth8 (v / 1024 % 1024) + 2 ^ 16 * depth8 (v / 2 ^ 20 % 1024) else v

/-- Pixels packed into one number, pixel x at bit bpp × x (R292). -/
def packPx (bpp : Nat) : List Nat → Nat
  | [] => 0
  | v :: t => v + 2 ^ bpp * packPx bpp t

/-- A LINES payload (R292). -/
def linesPayload (g : Geo) (px : List Nat) : List Nat :=
  leBytes (packPx (if g.d24 then 24 else 30) (px.map (pxOut g.d24))) g.lineLen

/-! ### The output check (R280, R281) -/

/-- The field and bit of a canvas in GATE_CRC_HOLD; all four pages show the copy kept in GATE 0 (R282). -/
def holdFld (c : Nat) : Fld := if c < 32 then GATE_CRC_HOLD_LO_HOLD else GATE_CRC_HOLD_HI_HOLD

/-- Canvas `c` is in CRC hold. -/
def State.crcHeld (s : State) (c : Nat) : Bool := bit (s.rd (gtP 0) (holdFld c)) (c % 32)

/-- Set or clear a canvas's CRC hold. -/
def State.setCrcHold (s : State) (c : Nat) (b : Bool) : State :=
  let v := s.rd (gtP 0) (holdFld c)
  s.wr (gtP 0) (holdFld c) (if b then setBit v (c % 32) else clrBit v (c % 32))

/-- The page that counts the checks of canvas `c`: of the engine of its lowest-numbered enabled head. -/
def State.crcPage (s : State) (c : Nat) : Option Nat := (s.headsOf c).head?.map fun h => gtP (s.rd (hdP h) HD_CFG_ENGINE)

/-- A check that is not run (R280). -/
def State.crcNotRun (s : State) (c : Nat) : State :=
  match s.crcPage c with
  | some p => s.cnt p GATE_CRC_NOTRUN_COUNT 1
  | none => s

/-- Two rectangles share a pixel. -/
def rectsMeet (a b : Geo) : Bool :=
  decide (a.x < b.x + b.hAct) && decide (b.x < a.x + a.hAct) && decide (a.y < b.y + b.vAct) && decide (b.y < a.y + a.vAct)

/-- Pairs of a list meet. -/
def anyMeet : List Geo → Bool
  | [] => false
  | a :: t => t.any (rectsMeet a) || anyMeet t

/-- Rectangles cover every pixel of a canvas of the given size exactly once (R280). -/
def coversOnce (size : Nat × Nat) (gs : List Geo) : Bool :=
  decide (gs.foldl (fun t g => t + g.hAct * g.vAct) 0 = size.1 * size.2) &&
    gs.all (fun g => decide (g.x + g.hAct ≤ size.1) && decide (g.y + g.vAct ≤ size.2)) && !anyMeet gs

/-- EN is 1 in the GATE pages that serve the canvas's heads (R280). -/
def State.crcMayRun (s : State) (c : Nat) : Bool :=
  let hs := s.headsOf c
  !hs.isEmpty && hs.all fun h => s.on (gtP (s.rd (hdP h) HD_CFG_ENGINE)) GATE_CRC_CTRL_EN

/-- The checks of a canvas. -/
def State.crc (s : State) (c : Nat) : List CrcSt := Store.getD [] c s.crcs

/-- Set them, dropping those that are over. -/
def State.setCrc (s : State) (c : Nat) (l : List CrcSt) : State :=
  { s with crcs := Store.setD [] c ((l.filter fun x => !x.dead)) s.crcs }

/-- Fix the heads that a check needs, or give it up (R280). -/
def State.crcNeed (s : State) (c : Nat) (x : CrcSt) : CrcSt × State :=
  match x.need with
  | some _ => (x, s)
  | none =>
    if s.crcMayRun c then ({ x with need := some (s.headsOf c) }, s) else ({ x with dead := true }, s.crcNotRun c)

/-- Epoch `n` of canvas `c` becomes ready (R280): its check opens; the checks of earlier epochs to which not every head has
contributed a whole frame are not run. -/
def State.crcReady (s : State) (c n wcrc : Nat) (size : Nat × Nat) : State :=
  ((s.crc c).foldl (fun s _ => s.crcNotRun c) s).setCrc c [⟨n, wcrc, none, [], [], false, size, [], []⟩]

/-- Change the check of epoch `n`. -/
def State.crcMap (s : State) (c n : Nat) (f : CrcSt → CrcSt) : State :=
  s.setCrc c (mapWhere (fun (x : CrcSt) => decide (x.n = n)) f (s.crc c))

/-- Head `h` begins its first frame from epoch `n`, with the rectangle `g` (R280). -/
def State.crcBegin (s : State) (c n h : Nat) (g : Geo) : State :=
  match (s.crc c).find? fun x => decide (x.n = n) with
  | none => s
  | some x =>
    let (x, s) := s.crcNeed c x
    let x := if x.dead ∨ x.got.contains h then x else { x with pend := h :: x.pend.filter (fun a => decide (a ≠ h)), rects := (h, g) :: x.rects.filter (fun a => decide (a.1 ≠ h)) }
    s.setCrc c (mapWhere (fun (y : CrcSt) => decide (y.n = n)) (fun _ => x) (s.crc c))

/-- A line's words enter the check as they leave the banks. -/
def State.crcLine (s : State) (c n h y x : Nat) (words : List Nat) : State :=
  s.crcMap c n fun k => if k.pend.contains h then { k with rows := k.rows ++ [(h, y, x, words.flatMap fun w => le w 4)] } else k

/-- The words contributed, in canvas raster order (R251). -/
def rasterOrder (h : Nat) (l : List (Nat × Nat × Nat × List Nat)) : List Nat :=
  (upTo h).flatMap fun y =>
    let row := l.filter fun r => decide (r.2.1 = y)
    (sortNat (row.map fun r => r.2.2.1)).flatMap fun x =>
      match row.find? fun r => decide (r.2.2.1 = x) with
      | some r => r.2.2.2
      | none => []

/-- The check completes (R280, R281). -/
def State.crcResult (s : State) (c : Nat) (x : CrcSt) : State :=
  let h := x.rows.foldl (fun t r => max t (r.2.1 + 1)) 0
  let v := crc32c (rasterOrder h x.rows)
  match s.crcPage c with
  | none => s
  | some p =>
    if v = x.wcrc then (s.cnt p GATE_CRC_MATCH_COUNT 1).setCrcHold c false
    else
      let s := (s.cnt p GATE_CRC_MISMATCH_COUNT 1).emit p 0x2001
        ([c, 0, 0, 0] ++ le x.n 4 ++ le x.wcrc 4 ++ le v 4)
      if s.on p GATE_CRC_CTRL_ACTION then s.setCrcHold c true else s

/-- Head `h`'s frame from epoch `n` ends; it contributed where it was neither aborted nor affected by a failed read. With the last head's the check
completes: by then the rectangles sent are known, and a check that they do not allow is not run (R280). -/
def State.crcEnd (s : State) (c n h : Nat) (ok : Bool) : State :=
  match (s.crc c).find? fun x => decide (x.n = n) && x.pend.contains h with
  | none => s
  | some x =>
    let x := { x with pend := x.pend.filter fun a => decide (a ≠ h) }
    let put := fun (s : State) (x : CrcSt) => s.setCrc c (mapWhere (fun (y : CrcSt) => decide (y.n = n)) (fun _ => x) (s.crc c))
    if ok then
      let x := { x with got := h :: x.got }
      if !(x.need.getD []).all fun a => x.got.contains a then put s x
      else
        let s := put s { x with dead := true }
        if coversOnce x.size (x.rects.map (·.2)) then s.crcResult c x else s.crcNotRun c
    else
      let x := { x with rows := x.rows.filter fun r => decide (r.1 ≠ h) }
      put s x

/-- R281 CRC_HOLD_CLEAR: host software ends CRC holds by writing 1 to their bits. -/
def execCrcHoldClear (w : Writer) (e : Fin 4) (hi : Bool) (v : Word) (s : State) : Host.Outcome State Fault Refusal :=
  let f := if hi then GATE_CRC_HOLD_HI_HOLD else GATE_CRC_HOLD_LO_HOLD
  done (if s.pageFenced .gate e.val then s.missRecord w .write (gtP e.val + f.off) else s.wr (gtP 0) f (andNot (s.rd (gtP 0) f) v.toNat))

end Sys2Proof.Machine
end

