-- ==== Sys2Proof/Machine/Tap.lean ====
section
/-! DEFINITION. Recording channels and the output tap of the scan-out engines (R327 to R331). -/

namespace Sys2Proof.Machine

/-- The enabled channel that records head `h` (R327): pipeline, channel. -/
def State.chOf (s : State) (h : Nat) : Option (Nat × Nat) :=
  (s.enc.find? fun e => decide (s.rd (encP (e.1 / 32)) (ENC_CH_CTRL_HEAD (e.1 % 32)) = h)).map fun e => (e.1 / 32, e.1 % 32)

/-! ### Limits (R327, R328, R333) -/

/-- Coding tree units per row, and rows, of a picture of the head's active size. -/
def ctuDims (w h : Nat) : Nat × Nat := (((w + 7) / 8 * 8 + 31) / 32, ((h + 7) / 8 * 8 + 31) / 32)

/-- The floor of a picture in bits (R333). -/
def floorBits (w h : Nat) (idr : Bool) : Nat :=
  (ctuDims w h).2 * (256 + (ctuDims w h).1 * (if idr then 48 else 16))

/-- The load of a channel, pixels per second, as a fraction (R328). -/
def Geo.encLoad (g : Geo) (div : Nat) : Nat × Nat :=
  (g.hAct * g.vAct * g.inc * 1200000000, 2 ^ 32 * g.hTot * (g.start + g.vAct + g.vmin) * max 1 div)

/-- The load of the other enabled channels of a pipeline. -/
def State.encLoads (s : State) (p k : Nat) : List (Nat × Nat) :=
  (s.enc.filter fun e => decide (e.1 / 32 = p) && decide (e.1 % 32 ≠ k)).map fun e =>
    e.2.geo.encLoad (s.rd (encP p) (ENC_CH_CTRL_DIV (e.1 % 32)))

/-- The pipeline's load with channel `k` at these values would exceed 1.04 Gpx/s (R328). -/
def State.encOver (s : State) (p k : Nat) (g : Geo) : Bool :=
  let d := fracSum (g.encLoad (s.rd (encP p) (ENC_CH_CTRL_DIV k)) :: s.encLoads p k)
  decide (1040000000 * d.2 < d.1)

/-- CAP lies below the P floor or ICAP below the IDR floor (R327). -/
def State.encLow (s : State) (p k : Nat) (g : Geo) : Bool :=
  decide (s.rd (encP p) (ENC_CH_CAP_BITS k) < floorBits g.hAct g.vAct false) ||
    decide (s.rd (encP p) (ENC_CH_ICAP_BITS k) < floorBits g.hAct g.vAct true)

/-! ### Frames that are not recorded (R330) -/

/-- A frame is not recorded (R330): counted, at most one record a channel and second, and the next picture carries GAP. -/
def State.notRec (s : State) (p k f h cause : Nat) : State :=
  let q := encP p
  let s := (s.cnt q ENC_NOTREC_COUNT 1).inc q (ENC_CH_NOTREC_COUNT k) 1
  let s := s.wb q (ENC_CH_STAT_IDR_NEXT k) true
  (s.encUpd p k fun x => { x with gap := true, idr := true }).emitLimited q (q + 1 + k) 1000 0x0801 ([k, 0, h, cause] ++ le f 4)

/-! ### The tap (R329 to R331) -/

/-- A record bay fits a frame with `n` judged stalls (R330). -/
def State.recFits (s : State) (b : Nat) (g : Geo) (n : Nat) : Bool :=
  let d := bayE b
  let stride := s.rd d BAYD_STRIDE_STRIDE * 64
  decide (s.rd d BAYD_SIZE_FORMAT = 2) && decide (g.hAct ≤ s.rd d BAYD_DIM_WIDTH) &&
    decide (g.vAct ≤ s.rd d BAYD_DIM_HEIGHT) && decide (4 * g.hAct ≤ stride) &&
    decide (stride * g.vAct ≤ 4096 * s.rd d BAYD_STATS_OFF) &&
    decide (32 + 16 * n ≤ (s.rd d BAYD_SIZE_SIZE - s.rd d BAYD_STATS_OFF) * 4096)

/-- FRAME_START of a frame that may be its block's recorded frame: a record bay is allocated (R329, R330). -/
def State.tapStart (s : State) (h : Nat) (g : Geo) (fr : GateFrame) : State :=
  match s.chOf h with
  | none => s
  | some (p, k) =>
    match Store.find (p * 32 + k) s.enc with
    | none => s
    | some x =>
      let q := encP p
      if x.block = some (fr.f / max 1 (s.rd q (ENC_CH_CTRL_DIV k))) then s
      else if !s.encRing p k then s.chStop p k 2
      else if x.geo ≠ g ∧ (s.encOver p k g ∨ s.encLow p k g) then s.chStop p k 1
      else
        let s := s.encUpd p k fun y => { y with geo := g, seen := some fr.f }
        let n := (fr.regions g).length
        match s.alloc (s.rd q (ENC_CH_CTRL_REC_CLASS k)) (0x1100 + g.engine) with
        | (none, s) => s.notRec p k fr.f h 0
        | (some b, s) =>
          if !s.recFits b.1 g n then (s.ownerRelease b.1 b.2).notRec p k fr.f h 1
          else s.encUpd p k fun y => { y with tap := some ⟨b.1, b.2, fr.f, fr.ts, g.hAct, g.vAct, g.d24⟩ }

/-- A gated pixel as the tap stores it, with alpha 3 (R135); with DEPTH 1 each sent 8-bit value v becomes 4 v + (v >> 6)
(R330). -/
def tapPixel (d24 : Bool) (v : Nat) : Nat :=
  let ex := fun (c : Nat) => 4 * depth8 c + depth8 c / 64
  let px := if d24 then ex (v % 1024) + 1024 * ex (v / 1024 % 1024) + 2 ^ 20 * ex (v / 2 ^ 20 % 1024) else v
  px + 2 ^ 30 * 3

/-- The tap writes a gated line (R330). -/
def State.tapLine (s : State) (h y : Nat) (px : List Nat) : State :=
  match s.chOf h with
  | none => s
  | some (p, k) =>
    match (Store.find (p * 32 + k) s.enc).bind fun x => x.tap with
    | none => s
    | some r =>
      let e := s.rd (hdP h) HD_CFG_ENGINE
      let d := px.flatMap fun v => le (tapPixel r.d24 v) 4
      (s.bayWrite (22 + e) (0x1100 + e) r.bay r.gen r.f (y * (s.rd (bayE r.bay) BAYD_STRIDE_STRIDE * 64)) d).2

/-- Reasons with the MID bit (R283, R331). -/
def GateStall.coded (t : GateStall) : Nat := t.now + (if t.mid.isSome then 128 else 0)

/-- The tick of live stall `t` was drawn: a pixel of its square shows it, no stale stall and no tick above it hiding it there (R17, R276,
R331). -/
def GateStall.tickDrawn (l : List GateStall) (t : GateStall) : Bool :=
  t.tick && t.big && (upTo 256).any fun i =>
    let x := t.x + t.w - 20 + i % 16
    let y := t.y + t.h - 20 + i / 16
    !(l.any fun u => u.holds x y && decide (u.at_ y ≠ 0)) && decide (topStall (fun u => u.tickAt x y && decide (u.at_ y = 0)) l = some t)

/-- An entry of the verdict table among the judged stalls `l` (R331). -/
def GateStall.tapEntry (l : List GateStall) (t : GateStall) : List Nat :=
  let host := decide (t.stall = 0x1000)
  let whole := decide (t.stall = 0x1001)
  let num := (if host || whole then 0 else t.stall) + 2 ^ 12 * b2n (t.tickDrawn l) +
    2 ^ 13 * b2n t.est + 2 ^ 14 * b2n host + 2 ^ 15 * b2n whole
  le num 2 ++ [t.coded, 0] ++ le t.age 4 ++ le t.x 2 ++ le t.y 2 ++ le t.w 2 ++ le t.h 2

/-- The verdict table of a frame (R331). -/
def verdictTable (h : Nat) (g : Geo) (fr : GateFrame) : List Nat :=
  let l := fr.regions g
  le fr.ts 8 ++ le fr.f 4 ++ le (if g.member then fr.epoch else 0) 4 ++
    [h, b2n fr.rep + 2 * b2n fr.bad + 4 * b2n g.d24] ++ le l.length 2 ++ List.replicate 12 0 ++ l.flatMap (GateStall.tapEntry l)

/-- R330 TAP_RECORD_COMPLETE's effect: every write is acknowledged, and the bay is completed and queued. -/
def State.tapDone (s : State) (p k : Nat) : State :=
  match Store.find (p * 32 + k) s.enc with
  | none => s
  | some x =>
    match x.ended with
    | none => s
    | some r =>
      let q := encP p
      let s := s.encUpd p k fun y => { y with ended := none }
      let d := bayE r.bay
      let s := if s.bayHeld r.bay r.gen then
          ((s.wr64 d BAYD_TC_LO_TC BAYD_TC_HI_TC r.ts).wr d BAYD_FSEQ_FSEQ r.f).wb d BAYD_STAT_READY true
        else s
      if s.rd q (ENC_CH_CTRL_QDEPTH k) + 1 ≤ x.queue.length then
        (s.ownerRelease r.bay r.gen).notRec p k r.f (s.rd q (ENC_CH_CTRL_HEAD k)) 2
      else
        (s.encUpd p k fun y => { y with queue := y.queue ++ [r] }).wr q (ENC_CH_STAT_QUEUED k) (x.queue.length + 1)

/-- FRAME_END: the block has its frame; the verdict table is written, and the writes' acknowledgement is awaited. -/
def State.tapEnd (s : State) (h : Nat) (g : Geo) (fr : GateFrame) : State :=
  match s.chOf h with
  | none => s
  | some (p, k) =>
    match Store.find (p * 32 + k) s.enc with
    | none => s
    | some x =>
      let q := encP p
      let s := if x.seen = some fr.f then
          s.encUpd p k fun y => { y with block := some (fr.f / max 1 (s.rd q (ENC_CH_CTRL_DIV k))) }
        else s
      match x.tap with
      | none => s
      | some r =>
        let s := s.tapDone p k
        let s := (s.bayWrite (22 + g.engine) (0x1100 + g.engine) r.bay r.gen r.f (s.statsOff r.bay) (verdictTable h g fr)).2
        s.encUpd p k fun y => { y with tap := none, ended := some r }

/-- The frame is aborted: its record bay goes (R330). -/
def State.tapAbort (s : State) (h : Nat) : State :=
  match s.chOf h with
  | none => s
  | some (p, k) =>
    match (Store.find (p * 32 + k) s.enc).bind fun x => x.tap with
    | none => s
    | some r => ((s.encUpd p k fun y => { y with tap := none }).ownerRelease r.bay r.gen).notRec p k r.f h 3

/-- R330 TAP_RECORD_COMPLETE. -/
def execTapRecordComplete (p : Fin 2) (k : Fin 32) (s : State) : Host.Outcome State Fault Refusal := done (s.tapDone p.val k.val)

end Sys2Proof.Machine
end

