-- ==== Sys2Proof/Machine/Encode.lean ====
section
/-! DEFINITION. Encoding for recording: channel enables, pictures, rate control, the ring and the stream (R327, R332 to R339). -/

namespace Sys2Proof.Machine

/-! ### Channel enables (R327, R487) -/

/-- The fields of ENC_CH_CTRL that a write may change while EN is 0 (R338). -/
def chCtrlFields (k : Nat) : List Fld :=
  [ENC_CH_CTRL_HEAD k, ENC_CH_CTRL_SEND_HIGH k, ENC_CH_CTRL_DIV k, ENC_CH_CTRL_QDEPTH k, ENC_CH_CTRL_REC_CLASS k,
   ENC_CH_CTRL_REF_CLASS k, ENC_CH_CTRL_DROVER k]

/-- The first cause against an enable of channel `k` (R327). -/
def State.chRefusal (s : State) (p k : Nat) : Option Nat :=
  let q := encP p
  let h := s.rd q (ENC_CH_CTRL_HEAD k)
  let qp := s.rd q (ENC_CH_QP_QP k)
  let qi := s.rd q (ENC_CH_QP_QP_I k)
  let qm := s.rd q (ENC_CH_QP_QP_MAX k)
  let b := s.rd q (ENC_CH_RING_BAY k)
  let g := s.geoAct h
  if !s.enabled q then some 0
  else if s.rd q (ENC_CH_CTRL_DIV k) = 0 ∨ 51 < qp ∨ 51 < qi ∨ 51 < qm ∨ qm < qp ∨ qm < qi then some 1
  else if !s.enabled (pg .hd h) ∨ (s.chOf h).isSome then some 2
  else if !s.encRing p k ∨ s.rd (bayE b) BAYD_SIZE_FORMAT ≠ 5 ∨ s.baySize b < 2 ^ 20 then some 3
  else if s.encLow p k g then some 4
  else if s.encOver p k g then some 5
  else none

/-- Start channel `k`: its first picture is an IDR picture (R332). -/
def State.chStart (s : State) (p k : Nat) : State :=
  let q := encP p
  let g := s.geoAct (s.rd q (ENC_CH_CTRL_HEAD k))
  let s := ((s.wb q (ENC_CH_CTRL_EN k) true).wb q (ENC_CH_CTRL_ACTIVE k) true).wb q (ENC_CH_STAT_IDR_NEXT k) true
  { s with enc := Store.put (p * 32 + k) ⟨g, none, none, none, none, [], false, true, 0, [], [], (0, 0)⟩ s.enc }

/-- R327 ENC_CHANNEL_ENABLE: a write of ENC_CH_CTRL; its fields change only while EN is 0 (R487), and EN is judged with them. -/
def execEncChannelEnable (w : Writer) (p : Fin 2) (k : Fin 32) (v : Word) (s : State) : Host.Outcome State Fault Refusal :=
  let q := encP p.val
  let i := k.val
  let v := v.toNat
  let on := s.on q (ENC_CH_CTRL_EN i)
  done (if s.pageFenced .enc p.val then s.fencedWrite w (q + 0x400 + 64 * i) v
    else if on then (if bit v 0 then s else s.chEnd p.val i)
    else
      let s := s.setFields q (chCtrlFields i) v
      if !bit v 0 then s
      else match s.chRefusal p.val i with
        | some c => (s.wr q (ENC_CH_STAT_REFUSE i) c).emit q 0x0001 [i, c]
        | none => s.chStart p.val i)

/-! ### The ring (R336) -/

/-- The next 64-byte line. -/
def up64 (a : Nat) : Nat := (a + 63) / 64 * 64

/-- Where a record of `n` bytes starts in a ring of `size` bytes (R336). -/
def ringPlace (size wr n : Nat) : Nat := if up64 wr + n ≤ size then up64 wr else 0

/-- A ring has room for `n` bytes before RD, wherever the record starts. -/
def ringRoom (size wr rd n : Nat) : Bool :=
  if rd ≤ wr then decide (up64 wr + n ≤ size) || decide (n ≤ rd) else decide (up64 wr + n ≤ rd)

/-! ### Pictures (R332 to R336, R339) -/

/-- The queued bay that the pipeline takes next: ascending TS, then channel (R339). -/
def State.encNext (s : State) (p : Nat) : Option (Nat × TapRec) :=
  let l := s.enc.filterMap fun e => if e.1 / 32 = p then e.2.queue.head?.map fun r => (e.1 % 32, r) else none
  l.foldl (fun (t : Option (Nat × TapRec)) x => match t with
    | some y => if x.2.ts < y.2.ts then some x else some y
    | none => some x) none

/-- Read bytes of a record bay, tagged with its FSEQ as it stands (R143), in lines of the pipeline's requests; zeros where the read fails. -/
def State.recRead (s : State) (p : Nat) (r : TapRec) (off len : Nat) : List Nat × State :=
  let x := s.bayRead (18 + p) (0x0E00 + p) r.bay r.gen (s.rd (bayE r.bay) BAYD_FSEQ_FSEQ) off len true
  (x.1.getD (List.replicate len 0), x.2)

/-- The verdict table of a record bay. -/
def State.recTable (s : State) (p : Nat) (r : TapRec) : List Nat × State :=
  let (h, s) := s.recRead p r (s.statsOff r.bay) 32
  let (t, s) := s.recRead p r (s.statsOff r.bay + 32) (16 * num h 0x12 2)
  (h ++ t, s)

/-- A reference bay fits the coded size (R212, R332). -/
def State.refFits (s : State) (b w h : Nat) : Bool :=
  let d := bayE b
  let line := s.rd d BAYD_STRIDE_STRIDE * 64
  let p2 := 4096 * s.rd d BAYD_PLANE2_OFF
  decide (s.rd d BAYD_SIZE_FORMAT = 0) && decide (w ≤ s.rd d BAYD_DIM_WIDTH) && decide (h ≤ s.rd d BAYD_DIM_HEIGHT) &&
    decide (w ≤ line) && decide (line * h ≤ p2) && decide (p2 + line * (h / 2) ≤ 4096 * s.rd d BAYD_STATS_OFF)

/-- A bay of REF_CLASS for the reconstruction; none where the class has none that fits. -/
def State.refBay (s : State) (p k w h : Nat) : Option (Nat × Nat) × State :=
  match s.alloc (s.rd (encP p) (ENC_CH_CTRL_REF_CLASS k)) (0x0E00 + p) with
  | (some b, s) => if s.refFits b.1 w h then (some b, s) else (none, s.ownerRelease b.1 b.2)
  | (none, s) => (none, s)

/-- Coded size: multiples of 8 (R332). -/
def codedSize (r : TapRec) : Nat × Nat := ((r.w + 7) / 8 * 8, (r.h + 7) / 8 * 8)

/-- The next picture of channel `k` is an IDR picture (R332). -/
def State.idrNext (s : State) (p k : Nat) (x : EncCh) : Bool :=
  x.idr || decide (max 1 (s.rd (encP p) (ENC_CH_GOP_IDR_INT k)) ≤ x.sinceIdr + 1)

/-- The cap of a picture before its floor (R333). -/
def State.capOf (s : State) (p k : Nat) (x : EncCh) (idr : Bool) : Nat :=
  let q := encP p
  let base := if idr then s.rd q (ENC_CH_ICAP_BITS k) else s.rd q (ENC_CH_CAP_BITS k)
  let n := s.rd q (ENC_CH_WIN_N k)
  if n = 0 then base else min base (s.rd q (ENC_CH_WCAP_BITS k) - (x.win.take (n - 1)).foldl (· + ·) 0)

/-- Where a snapshot's entry for channel `i` waits among the sections received. -/
def snapChan (i : Nat) : Nat := 1000 + i

/-- A picture of channel `i` begins with what the snapshot says of the channel: its picture count since IDR and window history (R374). -/
def State.snapPicture (s : State) (i : Nat) : State :=
  match Store.find (snapChan i) s.yoke.snaps, Store.find i s.enc with
  | some d, some x =>
    let n := num d 6 2
    let win := (chunks 4 n (d.drop 8)).map ofLE
    let s := s.yk fun y => { y with snaps := Store.del (snapChan i) y.snaps }
    { s with enc := Store.put i { x with sinceIdr := num d 2 4, win := win } s.enc }
  | _, _ => s

/-- Start a picture from record bay `r` of channel `k`. -/
def State.encBegin (s : State) (p k : Nat) (x : EncCh) (r : TapRec) : State :=
  let q := encP p
  let s := s.encUpd p k fun y => { y with queue := y.queue.drop 1 }
  let s := s.wr q (ENC_CH_STAT_QUEUED k) (x.queue.length - 1)
  let (t, s) := s.recTable p r
  let idr := s.idrNext p k x || decide (x.size ≠ codedSize r)
  let cap0 := s.capOf p k x idr
  let floor := floorBits r.w r.h idr
  let cap := max cap0 floor
  let need := 64 + (cap + 7) / 8 + 16 * num t 0x12 2 + 1024
  let ring := s.rd q (ENC_CH_RING_BAY k)
  if !ringRoom (s.baySize ring) (s.rd q (ENC_CH_WR_OFFSET k)) (s.rd q (ENC_CH_RD_OFFSET k)) need then
    let s := (s.ownerRelease r.bay r.gen).emit q 0x1801 ([k, 0, 0, 0] ++ le r.f 4)
    let s := ((s.cnt q ENC_NOTREC_COUNT 1).inc q (ENC_CH_NOTREC_COUNT k) 1).wb q (ENC_CH_STAT_IDR_NEXT k) true
    s.encUpd p k fun y => { y with idr := true }
  else
    let s := if cap0 < floor then
        (s.inc q (ENC_CH_WIN_OVER_COUNT k) 1).emit q 0x2801 ([k, 0, 0, 0] ++ le r.f 4 ++ le floor 4)
      else s
    let (b, s) := s.refBay p k (codedSize r).1 (codedSize r).2
    let s := s.encUpd p k fun y => { y with gap := false, idr := false }
    { s with encJobs := Store.put p ⟨k, r, idr, x.gap, cap, decide (cap0 < floor), t, b⟩ s.encJobs }

/-- R339 ENC_PICTURE_START: the pipeline takes the next queued bay and checks the ring's room. -/
def execEncPictureStart (p : Fin 2) (s : State) : Host.Outcome State Fault Refusal :=
  let i := p.val
  done (if !s.enabled (encP i) ∨ !s.pll 2 ∨ (Store.find i s.encJobs).isSome then s
    else match s.encNext i with
      | none => s
      | some (k, r) => match Store.find (i * 32 + k) s.enc with
        | none => s
        | some _ =>
          if !s.encRing i k then s.chStop i k 2
          else
            let s := s.snapPicture (i * 32 + k)
            match Store.find (i * 32 + k) s.enc with
            | some x => s.encBegin i k x r
            | none => s)

/-- Rate control's choice of forms (R334): mode (0 target, 1 ceiling, 2 fallback), bits used, and for each coding tree unit its
mode. -/
def codeRow (cap w fb below : Nat) : Nat → Nat → Nat → List (Nat × Nat × Nat) → Nat × Nat × List Nat
  | _, mode, u, [] => (mode, u, [])
  | k, mode, u, f :: t =>
    let after := (w - 1 - k) * fb + below
    let m := if mode = 0 ∧ u + f.1 + after ≤ cap then 0 else if mode ≤ 1 ∧ u + f.2.1 + after ≤ cap then 1 else 2
    let b := if m = 0 then f.1 else if m = 1 then f.2.1 else f.2.2
    let r := codeRow cap w fb below (k + 1) m (u + b) t
    (r.1, r.2.1, m :: r.2.2)

/-- The rows of a picture, each with 256 bits of slice overhead (R334). -/
def codeRows (cap w fb n : Nat) : Nat → Nat → Nat → List (List (Nat × Nat × Nat)) → List (List Nat)
  | _, _, _, [] => []
  | r, mode, u, row :: t =>
    let q := codeRow cap w fb ((n - 1 - r) * (256 + w * fb)) 0 mode (u + 256) row
    q.2.2 :: codeRows cap w fb n (r + 1) q.1 q.2.1 t

/-- `n` rows of `w` units each, the units that a coder did not give without bits; no slice segment has more than 31 bytes before its
units, and no fallback form more than `fb` bits, which R333 bounds them by. -/
def unitRows (w fb : Nat) : Nat → List EncRow → List EncRow
  | 0, _ => []
  | n + 1, l =>
    let x : EncRow := l.headD ⟨[], []⟩
    let us := ((x.ctbs ++ List.replicate (w - x.ctbs.length) ([], [], [])).take w).map fun (u : List Bool × List Bool × List Bool) => (u.1, u.2.1, u.2.2.take fb)
    ⟨x.head.take 31, us⟩ :: unitRows w fb n (l.drop 1)

/-- The sizes of a row's forms. -/
def rowSizes (x : EncRow) : List (Nat × Nat × Nat) := x.ctbs.map fun (u : List Bool × List Bool × List Bool) => (u.1.length, u.2.1.length, u.2.2.length)

/-- The bits of the forms that a row keeps, by its units' modes. -/
def rowKept (x : EncRow) (modes : List Nat) : List Bool :=
  (x.ctbs.zip modes).flatMap fun u => if u.2 = 0 then u.1.1 else if u.2 = 1 then u.1.2.1 else u.1.2.2

/-- Bits as bytes, the first the most significant. -/
def packBits : Nat → List Bool → List Nat
  | 0, _ => []
  | n + 1, l => (upTo 8).foldl (fun t i => 2 * t + b2n (l.getD i false)) 0 :: packBits n (l.drop 8)

/-- A slice segment's bytes: its head, the bits kept, a stop bit, and zeros up to the byte (H.265 7.3.2.11). -/
def sliceBytes (x : EncRow) (modes : List Nat) : List Nat :=
  let b := rowKept x modes ++ [true]
  x.head ++ packBits ((b.length + 7) / 8) b

/-- The row of the first coding tree unit in a mode, 0xFFFF for none. -/
def firstRow (m : Nat) (l : List (List Nat)) : Nat := (firstIdx (fun r => r.contains m) l).getD 0xFFFF

/-- Emulation prevention of a NAL unit's payload (H.265 7.3.1.1); `z`: zeros just written. -/
def emulate : Nat → List Nat → List Nat
  | _, [] => []
  | z, b :: t =>
    if z = 2 ∧ b ≤ 3 then 3 :: b :: emulate (if b = 0 then 1 else 0) t
    else b :: emulate (if b = 0 then z + 1 else 0) t

/-- The UUID of R336, most significant byte first. -/
def seiUuid : List Nat := [0x51, 0x43, 0xF9, 0x60, 0, 0, 0, 1, 0x8A, 0x3D, 0x2C, 0x71, 0x4E, 0x09, 0xB6, 0xD5]

/-- A SEI payload size in bytes of 255 and a last byte (H.265 7.3.5). -/
def seiSize (n : Nat) : List Nat := List.replicate (n / 255) 255 ++ [n % 255]

/-- The prefix SEI NAL unit of an access unit (R336). -/
def seiNal (flags held : Nat) (table : List Nat) : List Nat :=
  let body := seiUuid ++ [1] ++ le flags 2 ++ le held 2 ++ table
  [0, 0, 0, 1, 0x4E, 0x01] ++ emulate 0 ([5] ++ seiSize body.length ++ body ++ [0x80])

/-- Stale entries of a verdict table (R336). -/
def staleCount (t : List Nat) : Nat :=
  ((chunks 16 (num t 0x12 2) (t.drop 32)).filter fun e => decide (num e 2 1 ≠ 0)).length

/-- The tag of an encode pipeline's access to a reference bay: KIND PACKED whatever the area, and the FSEQ that the pipeline gave the
bay (R143). -/
def State.refTag (s : State) (b : Nat × Nat) : Tag := ⟨b.1, b.2, 3, s.rd (bayE b.1) BAYD_FSEQ_FSEQ % 2 ^ 16, true⟩

/-! ### The source's conversion (R332) -/

/-- A coefficient `n` ÷ `d`, held with 14 fractional bits, rounded to nearest. -/
def coef14 (n d : Int) : Int := (2 ^ 15 * n + d) / (2 * d)

/-- y, cb and cr of an R′G′B′A word (R135), in units of 1 ÷ (1,023 × 2^14): Kr = 0.2126, Kb = 0.0722, Cr = 1.5748, Cb = 1.8556 (R248,
R332). -/
def yuvOf (v : Nat) : Int × Int × Int :=
  let r : Int := v / 2 ^ 20 % 1024
  let g : Int := v / 1024 % 1024
  let b : Int := v % 1024
  (coef14 2126 10000 * r + coef14 7152 10000 * g + coef14 722 10000 * b,
   coef14 (-2126) 18556 * r + coef14 (-7152) 18556 * g + coef14 9278 18556 * b,
   coef14 7874 15748 * r + coef14 (-7152) 15748 * g + coef14 (-722) 15748 * b)

/-- `base` + `gain` × `v` for the sum `v` of `n` values in those units, as an 8-bit sample: rounded half up to a 10-bit code, clamped and
reduced (R332). -/
def sample8 (base gain v : Int) (n : Nat) : Nat :=
  let one : Int := 1023 * 2 ^ 14 * n
  let code : Int := (2 * (base * one + gain * v) + one) / (2 * one)
  depth8 (min 1023 (max 0 code)).toNat

/-- A line's luma samples. -/
def lumaLine (l : List Nat) : List Nat := l.map fun v => sample8 64 876 (yuvOf v).1 1

/-- The Cb and Cr samples, interleaved, of two lines; beyond the last column and line of an odd size the edge pixel repeats (log entry
180). -/
def chromaLine : List Nat → List Nat → List Nat
  | a0 :: a1 :: a, b0 :: b1 :: b => chromaQuad [a0, a1, b0, b1] ++ chromaLine a b
  | a0 :: _, b0 :: _ => chromaQuad [a0, a0, b0, b0]
  | _, _ => []
where
  /-- Cb and Cr of four pixels. -/
  chromaQuad (l : List Nat) : List Nat :=
    [sample8 512 896 ((l.map fun v => (yuvOf v).2.1).foldl (· + ·) 0) 4, sample8 512 896 ((l.map fun v => (yuvOf v).2.2).foldl (· + ·) 0) 4]

/-- The chroma lines of a picture. -/
def chromaLines : List (List Nat) → List Nat
  | a :: b :: t => chromaLine a b ++ chromaLines t
  | [a] => chromaLine a a
  | [] => []

/-- general_level_idc: the lowest of levels 4.1, 5.1 and 6.1 whose MaxLumaPs and MaxLumaSr (H.265 Table A.8, A.9) cover the coded size and
the recorded rate f ÷ DIV (R332). -/
def levelIdc (size : Nat × Nat) (g : Geo) (div : Nat) : Nat :=
  let n := size.1 * size.2
  let fits := fun ps sr => decide (n ≤ ps) &&
    decide (n * g.inc * 1200000000 ≤ sr * (2 ^ 32 * g.hTot * (g.start + g.vAct + g.vmin) * max 1 div))
  if fits 2228224 133693440 then 123 else if fits 8912896 534773760 then 153 else 183

/-- Read the lines of a record bay (R143). -/
def State.recLines (s : State) (p : Nat) (r : TapRec) : List (List Nat) × State :=
  let stride := s.rd (bayE r.bay) BAYD_STRIDE_STRIDE * 64
  (upTo r.h).foldl (fun (x : List (List Nat) × State) y =>
    let q := x.2.recRead p r (y * stride) (4 * r.w)
    (x.1 ++ [(chunks 4 r.w q.1).map ofLE], q.2)) ([], s)

/-- The pipeline reads the two planes of its reference (R143, R332): the samples, zeros where a line's read fails. -/
def State.refRead (s : State) (p : Nat) (b : Nat × Nat) (size : Nat × Nat) : List Nat × State :=
  let line := s.rd (bayE b.1) BAYD_STRIDE_STRIDE * 64
  let p2 := 4096 * s.rd (bayE b.1) BAYD_PLANE2_OFF
  let offs := (upTo size.2).map (fun y => y * line) ++ (upTo (size.2 / 2)).map fun y => p2 + y * line
  offs.foldl (fun (x : List Nat × State) off =>
    let q := x.2.hwRead (18 + p) (0x0E00 + p) (x.2.bayAddr b.1 off) size.1 (some (x.2.refTag b))
    (x.1 ++ q.1.getD (List.replicate size.1 0), q.2)) ([], s)

/-- The bytes that a picture's coding depends on are read: the lines of its record bay, after the last of which the owner hold goes (R330),
and for a P picture its reference (R332). -/
def State.encRead (s : State) (p : Nat) (j : EncJob) (x : EncCh) : EncIn × State :=
  let q := encP p
  let k := j.ch
  let r := j.rec_
  let (l, s) := s.recLines p r
  let s := s.ownerRelease r.bay r.gen
  let (ref, s) := if j.idr then ([], s) else match x.refs with
    | b :: _ => s.refRead p b (codedSize r)
    | [] => ([], s)
  (⟨j.idr, (r.w, r.h), codedSize r, levelIdc (codedSize r) x.geo (s.rd q (ENC_CH_CTRL_DIV k)),
    if j.idr then s.rd q (ENC_CH_QP_QP_I k) else s.rd q (ENC_CH_QP_QP k), s.rd q (ENC_CH_QP_QP_MAX k), j.cap, x.sinceIdr,
    l.flatMap lumaLine, chromaLines l, ref⟩, s)

/-- Write the reconstruction to its bay, tagged with F[15:0] of the picture (R143, R332). -/
def State.refWrite (s : State) (p : Nat) (b : Nat × Nat) (r : TapRec) (c : EncCoded) : State :=
  let (w, h) := codedSize r
  let s := if s.bayHeld b.1 b.2 then s.wr (bayE b.1) BAYD_FSEQ_FSEQ (r.f % 2 ^ 16) else s
  let line := s.rd (bayE b.1) BAYD_STRIDE_STRIDE * 64
  let p2 := 4096 * s.rd (bayE b.1) BAYD_PLANE2_OFF
  let tag := { s.refTag b with fseq := r.f % 2 ^ 16 }
  let put := fun (s : State) (off : Nat) (d : List Nat) =>
    (s.hwWrite (18 + p) (0x0E00 + p) (s.bayAddr b.1 off) d (some tag)).2
  let s := (upTo h).foldl (fun s y => put s (y * line) (padTo w ((c.luma.drop (y * w)).take w))) s
  (upTo (h / 2)).foldl (fun s y => put s (p2 + y * line) (padTo w ((c.chroma.drop (y * w)).take w))) s

/-- What rate control makes of a coded picture under `cap` (R334): the mode of each unit, and the bytes of the VCL NAL units of the forms
kept. -/
def codePicture (cap w n : Nat) (idr : Bool) (c : EncCoded) : List (List Nat) × List Nat :=
  let fb := if idr then 48 else 16
  let rows := unitRows w fb n c.rows
  let modes := codeRows cap w fb n 0 0 0 (rows.map rowSizes)
  (modes, (rows.zip modes).flatMap fun x => sliceBytes x.1 x.2)

/-- A picture is done (R334, R336): its record is written to the ring, and WR advances. DEDUCED: where the write of the record fails, WR stays
and the record counts for nothing (log entry 179). -/
def State.encFinish (s : State) (p : Nat) (j : EncJob) (x : EncCh) (c : EncCoded) : State :=
  let q := encP p
  let k := j.ch
  let r := j.rec_
  let (w, n) := ctuDims r.w r.h
  let (modes, vcl) := codePicture j.cap w n j.idr c
  let ceil := firstRow 1 modes
  let held := firstRow 2 modes
  let tf := num j.table 0x11 1
  let flags := b2n j.idr + 2 * b2n (held ≠ 0xFFFF) + 4 * b2n (ceil ≠ 0xFFFF) + 8 * b2n j.gap + 16 * b2n (bit tf 0) +
    32 * b2n (bit tf 1) + 64 * b2n j.winOver
  let flat := modes.flatMap id
  let qp := if j.idr then s.rd q (ENC_CH_QP_QP_I k) else s.rd q (ENC_CH_QP_QP k)
  let avg := if held ≠ 0xFFFF ∨ flat.isEmpty then c.qpAvg
    else (flat.foldl (fun t m => t + if m = 0 then qp else s.rd q (ENC_CH_QP_QP_MAX k)) 0) / flat.length
  let au := (if j.idr then c.psets else []) ++ seiNal flags held j.table ++ vcl
  let bits := 8 * vcl.length
  let hdr := le r.ts 8 ++ le r.f 4 ++ le au.length 4 ++ le bits 4 ++ le flags 2 ++ le ceil 2 ++ le held 2 ++
    [s.rd q (ENC_CH_CTRL_HEAD k), avg % 256] ++ le (staleCount j.table) 2 ++ List.replicate 34 0
  -- the reconstruction replaces the older reference
  let s := match j.recon with
    | some b => s.refWrite p b r c
    | none => s
  let s := x.refs.foldl (fun s b => s.ownerRelease b.1 b.2) s
  -- the record
  let ring := s.rd q (ENC_CH_RING_BAY k)
  let gen := s.rd q (ENC_CH_RING_GEN k)
  let at_ := ringPlace (s.baySize ring) (s.rd q (ENC_CH_WR_OFFSET k)) (64 + au.length)
  let (ok, s) := s.bayWrite (18 + p) (0x0E00 + p) ring gen r.f at_ (hdr ++ au)
  let recs := Store.getD [] (p * 32 + k) s.encRecs
  let s := if ok then
      { s.wr q (ENC_CH_WR_OFFSET k) (at_ + 64 + au.length) with
        encRecs := Store.put (p * 32 + k) (recs ++ [⟨ring, gen, at_, 64 + au.length⟩]) s.encRecs }
    else s
  -- counts and records
  let s := (s.cnt q ENC_PICS_COUNT 1).inc q (ENC_CH_PICS_COUNT k) 1
  let s := if held ≠ 0xFFFF then
      ((s.cnt q ENC_HELD_COUNT 1).inc q (ENC_CH_HELD_COUNT k) 1).emit q 0x1001 ([k, 0] ++ le held 2 ++ le r.f 4)
    else s
  let since := if j.idr then 0 else x.sinceIdr + 1
  -- what a frame lost while this picture was coded owes stays owed; a picture without a reconstruction leaves none to refer to
  let y : EncCh := { x with
    idr := x.idr || j.recon.isNone, sinceIdr := since, win := bits :: x.win.take 253, refs := j.recon.toList, size := codedSize r }
  let s := { s with enc := Store.put (p * 32 + k) y s.enc, encJobs := Store.del p s.encJobs }
  s.wb q (ENC_CH_STAT_IDR_NEXT k) (s.idrNext p k y)

/-- R336 ENC_PICTURE_DONE: the pipeline has coded the picture in progress. Its coding is one function of what it reads (R332): the command
does something where it carries what that function gives. -/
def execEncPictureDone (p : Fin 2) (c : EncCoded) (s : State) : Host.Outcome State Fault Refusal :=
  let i := p.val
  done (match Store.find i s.encJobs with
    | none => s
    | some j => match Store.find (i * 32 + j.ch) s.enc with
      | none => s
      | some x =>
        if !s.encRing i j.ch then s.chStop i j.ch 2
        else
          let (d, t) := s.encRead i j x
          if c = Config.encCode d then t.encFinish i j x c else s)

/-! ### The stream (R337) -/

/-- RTP timestamp of R337. -/
def rtpStamp (ts : Nat) : Nat := ts * 9 / 100000 % 2 ^ 32

/-- Ts as NTP seconds and fraction, the inverse of R193 with UTC (R337). -/
def ntpOf (ts : Nat) (offset : Int) : List Nat :=
  let utc := ((ts : Int) - offset * 1000000000).toNat
  [(utc / 1000000000 + 2208988800) % 2 ^ 32, (utc % 1000000000 * 2 ^ 32 + 999999999) / 1000000000 % 2 ^ 32]

/-- The NAL units of an Annex B stream (H.265 Annex B). `z`: zeros just passed; `cur`: the unit so far, last byte first. -/
def nalUnits : Nat → List Nat → List Nat → List (List Nat)
  | _, cur, [] => if cur.isEmpty then [] else [cur.reverse]
  | z, cur, b :: t =>
    if b = 0 then nalUnits (z + 1) cur t
    else if b = 1 ∧ 2 ≤ z then (if cur.isEmpty then [] else [cur.reverse]) ++ nalUnits 0 [] t
    else nalUnits 0 (b :: (List.replicate z 0 ++ cur)) t

/-- Pieces of at most `n` bytes. -/
def rtpFragments (n : Nat) : Nat → List Nat → List (List Nat)
  | 0, _ => []
  | _ + 1, [] => []
  | k + 1, l => l.take (max 1 n) :: rtpFragments n k (l.drop (max 1 n))

/-- The RTP payloads of a NAL unit (RFC 7798 4.4.1, 4.4.3): a single NAL unit packet where it fits `mtu`, else fragmentation units of payload
type 49 with the unit's type and the S and E bits. -/
def rtpPayloads (mtu : Nat) (u : List Nat) : List (List Nat) :=
  if u.length ≤ mtu then [u]
  else
    let h0 := u.headD 0
    let l := rtpFragments (mtu - 3) u.length (u.drop 2)
    (l.zipIdx).map fun x =>
      [h0 / 128 * 128 + 49 * 2 + h0 % 2, (u.drop 1).headD 0,
        h0 / 2 % 64 + 128 * b2n (x.2 = 0) + 64 * b2n (x.2 + 1 = l.length)] ++ x.1

/-- An RTP packet (RFC 3550 5.1) with payload type 96 (R337). -/
def rtpBytes (marker : Bool) (seq stamp ssrc : Nat) (payload : List Nat) : List Nat :=
  [0x80, 96 + 128 * b2n marker] ++ beBytes (seq % 2 ^ 16) 2 ++ beBytes stamp 4 ++ beBytes (ssrc % 2 ^ 32) 4 ++ payload

/-- The destination of stream `u`, `n` added to both ports. -/
def streamTo (u n : Nat) : Dest :=
  let d := Config.streamDest u
  ⟨d.1, d.2.1, d.2.2.1 + n, d.2.2.2 + n⟩

/-- The drover sends an access unit of stream `u` as RTP (R337); the last packet carries the marker. -/
def State.rtpSend (s : State) (u port stamp : Nat) (au : List Nat) : State :=
  let l := (nalUnits 0 [] au).flatMap (rtpPayloads (Config.streamMtu u))
  (l.zipIdx).foldl (fun s x =>
    let n := Store.getD (0, 0) u s.rtpSent
    let s := { s with rtpSent := Store.put u (n.1 + 1, n.2 + x.1.length) s.rtpSent }
    s.netDatagram (2 ^ port) (streamTo u 0)
      (rtpBytes (decide (x.2 + 1 = l.length)) (Config.streamSeq u + n.1) stamp (Config.streamSsrc u) x.1)) s

/-- A sender report (RFC 3550 6.4.1): NTP time and RTP timestamp of the access unit, packets and octets sent (R337). It goes to the port
above the stream's (log entry 181). -/
def State.rtcpReport (s : State) (u port ts : Nat) : State :=
  let n := Store.getD (0, 0) u s.rtpSent
  let ntp := ntpOf ts (sint 16 (s.rd (pg .tb 0) TB_UTC_OFFSET))
  s.netDatagram (2 ^ port) (streamTo u 1)
    ([0x80, 200, 0, 6] ++ beBytes (Config.streamSsrc u % 2 ^ 32) 4 ++ ntp.flatMap (beBytes · 4) ++ beBytes (rtpStamp ts) 4 ++
      beBytes (n.1 % 2 ^ 32) 4 ++ beBytes (n.2 % 2 ^ 32) 4)

/-- R337 ENC_STREAM_SEND: the drover sends the oldest record's access unit as RTP on port `port`, or only consumes it without the
higher claim, and advances ENC_CH_RD. `sr`: a sender report goes with it. -/
def execEncStreamSend (p : Fin 2) (k : Fin 32) (port : Fin 18) (sr : Bool) (s : State) : Host.Outcome State Fault Refusal :=
  let q := encP p.val
  let i := k.val
  let u := p.val * 32 + i
  let d := s.rd q (ENC_CH_CTRL_DROVER i)
  done (if !s.drvRuns then s else match Store.getD [] u s.encRecs with
    | [] => s
    | r :: t =>
      let s := { s with encRecs := Store.setD [] u t s.encRecs }
      let s := if s.on q (ENC_CH_CTRL_SEND_HIGH i) && !s.highClaim then s
        else
          let (b, s) := s.hwRead (2 + d) (0x1800 + d) (s.bayAddr r.bay r.off) r.len none
          match b with
          | none => s
          | some b =>
            let ts := num b 0 8
            let s := s.rtpSend u port.val (rtpStamp ts) (b.drop 64)
            if sr && s.on (pg .tb 0) TB_UTC_VALID then s.rtcpReport u port.val ts else s
      s.wr q (ENC_CH_RD_OFFSET i) (r.off + r.len))

end Sys2Proof.Machine
end

