-- ==== Sys2Proof/Machine/Heads.lean ====
section
/-! DEFINITION. Heads: enabling, commits, frames, lines, underruns, and the epochs and canvas commits that reach them (R256 to
R271, R294). -/

namespace Sys2Proof.Machine

/-! ### Timing (R256) -/

/-- The core cycle, counted from a frame start, in which line `k` begins. -/
def Geo.lineCycle (g : Geo) (k : Nat) : Nat := (k * g.hTot * 2 ^ 32 + max g.inc 1 - 1) / max g.inc 1

/-- The running-rate clock at which line `k` of head `h`'s raster begins. -/
def State.lineAt (s : State) (x : HeadSt) (k : Nat) : Nat := x.t0 + x.geo.lineCycle k * s.cycleInc

/-- The running-rate clock at which `b` blanking lines have elapsed: the last cycle of the line (R261). A head just enabled, at `t0`, has
VMIN elapsed in the cycle after (R262, R268). -/
def State.blankAt (s : State) (x : HeadSt) (b : Nat) : Nat :=
  match x.blank with
  | none => max s.time.run (x.t0 + s.cycleInc)
  | some b0 => x.t0 + (x.geo.lineCycle (b0 + b) - 1) * s.cycleInc

/-- The RWS fields of an HD page (R258, R264). -/
def hdFields : List Fld :=
  [HD_RATE_INC, HD_TIMING_H_H_ACTIVE, HD_TIMING_H_H_TOTAL, HD_TIMING_V_V_ACTIVE, HD_TIMING_V_START, HD_TIMING_V_CWIN,
   HD_VBLANK_VMIN, HD_VBLANK_VMAX, HD_OFFSET_X, HD_OFFSET_Y, HD_OUT_DEPTH, HD_SRC_BAY_BAY, HD_SRC_BAY_GEN, HD_SRC_CFG_BUDGET,
   HD_SRC_CFG_GATED, HD_SRC_CFG_TICK]

/-! ### Checks (R257, R259, R297) -/

/-- Every timing field lies within its range (R258). -/
def Geo.timingOk (g : Geo) : Bool :=
  decide (1 ≤ g.inc) && decide (1 ≤ g.hAct) && decide (g.hAct ≤ 7680) && decide (g.hAct + 16 ≤ g.hTot) && decide (1 ≤ g.vAct) &&
    decide (g.vAct ≤ 4320) && decide (1 ≤ g.start) && decide (1 ≤ g.cwin) && decide (g.cwin < g.vAct) && decide (1 ≤ g.vmin) &&
    decide (g.vmin ≤ 65534) && (g.fixed || decide (g.vmin + 1 ≤ g.vmax))

/-- The active rate of a head, INC × H_ACTIVE over H_TOTAL, as a fraction of 1.2 GHz ÷ 2^32 (R257). -/
def Geo.actRate (g : Geo) : Nat × Nat := (g.inc * g.hAct, g.hTot)

/-- The active rates of an engine's enabled heads but `h`. -/
def State.engineRates (s : State) (e h : Nat) : List (Nat × Nat) :=
  ((s.engineHeads e).filter fun j => decide (j ≠ h)).map fun j => (s.geoAct j).actRate

/-- The head's rectangle lies inside a canvas of the given size (R27). -/
def Geo.inside (g : Geo) (v : CanvasCfg) : Bool := decide (g.x + g.hAct ≤ v.w) && decide (g.y + g.vAct ≤ v.h)

/-- The first reason against an enable or a commit of head `h` at values `g` (R259, R297). -/
def State.headJudge (s : State) (h : Nat) (g : Geo) : Option Nat :=
  let p := hdP h
  let two := s.on p HD_CFG_BANK1_EN
  let sum := fracSum (g.actRate :: s.engineRates g.engine h)
  let cv := if g.member then (s.cvEngine g.canvas).map fun e => s.cvAct e g.canvas else none
  if !s.enabled (gtP g.engine) then some 0
  else if !g.timingOk then some 1
  else if g.hTot * 2 ^ 32 < 2 * g.inc * g.hAct then some 2
  else if 7 * 2 ^ 30 * sum.2 < sum.1 then some 3
  else if (4096 < g.hAct && !two) || (two && decide (s.rd p HD_CFG_BANK1 = s.rd p HD_CFG_BANK0)) then some 4
  else if (match cv with
    | some v => !g.inside v
    | none => false) then some 5
  else if (match cv with
    | some v => g.fixed != v.direct
    | none => false) then some 6
  else if s.linkBad h g then some 7
  else none

/-- A HEAD_REFUSED record (R259): reason; 0 enable, 1 commit. -/
def State.headRefused (s : State) (h e reason kind ts : Nat) : State :=
  s.emit (gtP e) 0x2801 (gateData 0 h 0 (reason + 256 * kind) ts)

/-- Ts of a head's latest frame. -/
def State.headTs (s : State) (h : Nat) : Nat := s.rd64 (hdP h) HD_TS_LO_TS HD_TS_HI_TS

/-- R259: a member head whose rectangle lies outside its active canvas, at the size that has reached the heads (R265), is marked, with
one record when that begins. -/
def State.outsideCheck (s : State) (h : Nat) : State :=
  let p := hdP h
  let g := s.geoAct h
  let size := match (if g.member && s.enabled p then s.cvEngine g.canvas else none) with
    | some e => (s.cv e g.canvas).reached
    | none => none
  let out := match size with
    | some (w, hh) => decide (w < g.x + g.hAct) || decide (hh < g.y + g.vAct)
    | none => false
  let ts := if (s.hd h).count = 0 then 0 else s.headTs h
  let s' := s.wb p HD_STATE_OUTSIDE out
  if out && !s.on p HD_STATE_OUTSIDE then s'.emit (gtP g.engine) 0x2802 (gateData g.canvas h 0 0 ts) else s'

/-! ### Canvases and their heads (R265) -/

/-- Enabled heads of canvas `c`, members, by number: see `State.headsOf`. Some head of the canvas has a frame in progress. -/
def State.canvasBusy (s : State) (c : Nat) : Bool :=
  s.heads.any fun e => e.2.inFrame && e.2.geo.member && decide (e.2.geo.canvas = c)

/-- Release the CANVAS hold of a disabled canvas once its heads have ended their frames (R265). -/
def State.closeCheck (s : State) (c : Nat) : State :=
  (upTo 2).foldl (fun s e =>
    let x := s.cv e c
    if x.closing ∧ x.begun = [] ∧ !s.canvasBusy c then
      let s := s.setCv e c { x with closing := false, last := none }
      match x.last with
      | some y => s.holdRelease y.bay y.gen
      | none => s
    else s) s

/-- What a canvas commit that has taken effect means for its heads and its check (R259, R265, R281). -/
def State.canvasChanged (s : State) (e c : Nat) (was : Bool) : State :=
  let on := s.cvOn e c
  let s := if was = on then s
    else
      { s with heads := s.heads.map fun (y : Nat × HeadSt) =>
          if y.2.geo.canvas = c then (y.1, { y.2 with doneEpoch := none, unshown := [], fixedDue := none }) else y }
  let s := if was && !on then
      let s := (s.setCrc c []).setCrcHold c false
      { s with directs := Store.keep (fun i => decide (i / 2 ≠ c)) s.directs }
    else s
  (if on then s else (s.headsOf c).foldl State.outsideCheck s).closeCheck c

/-- At r_n the values that epoch `n`'s cut made active reach the canvas's heads (R265). -/
def State.reachHeads (s : State) (e c : Nat) (size : Nat × Nat) : State :=
  if s.cvOn e c then (s.headsOf c).foldl State.outsideCheck (s.setCv e c { s.cv e c with reached := some size }) else s

/-! ### Frame starts (R260 to R263, R268, R269, R294) -/

/-- The ledger of output bay `bay` for the heads of engine `e` (R272): read once, the first time one of them shows the bay. -/
def State.ledgerFor (s : State) (e c : Nat) (bay led : Nat × Nat) : LedRead × State :=
  match (Store.find (64 * e + c) s.ledgers).filter fun x => decide ((x.bay, x.gen) = bay) with
  | some x => (match x.bad with
    | some k => .bad k
    | none => .entries x.entries, s)
  | none =>
    let r := s.readLedger e c bay led
    let x : LedgerSt := match r.1 with
      | .bad k => ⟨bay.1, bay.2, some k, []⟩
      | .entries l => ⟨bay.1, bay.2, none, l⟩
    (r.1, { r.2 with ledgers := Store.put (64 * e + c) x r.2.ledgers })

/-- The host-bay verdict (R268). -/
def State.hostStall (s : State) (h : Nat) (g : Geo) (bay : Nat × Nat) (ts : Nat) (bad : Bool) : List GateStall :=
  let p := hdP h
  let d := bayE bay.1
  let tc := s.rd64 d BAYD_TC_LO_TC BAYD_TC_HI_TC
  let r := b2n bad + 2 * b2n (!s.on d BAYD_STAT_READY) + 8 * b2n (s.on d BAYD_STAT_CONCEALED)
  let r := verdict r tc (s.rdAct p HD_SRC_CFG_BUDGET) ts false
  if s.rdAct p HD_SRC_CFG_GATED = 1 then
    [⟨0x1000, 0, 0, g.hAct, g.vAct, decide (s.rdAct p HD_SRC_CFG_TICK = 1), s.on d BAYD_STAT_ESTIMATED, r, none, ageMs r tc ts⟩]
  else []

/-- A host bay that does not suit the head (R268). -/
def State.hostUnfit (s : State) (g : Geo) (b : Nat) : Bool :=
  let d := bayE b
  decide (s.rd d BAYD_SIZE_FORMAT ≠ 2) || decide (s.rd d BAYD_DIM_WIDTH < g.hAct) || decide (s.rd d BAYD_DIM_HEIGHT < g.vAct)

/-- FRAME_START payload (R290). -/
def startPayload (g : Geo) (ts epoch : Nat) : List Nat :=
  le ts 8 ++ le g.inc 4 ++ le g.hAct 2 ++ le g.hTot 2 ++ le g.vAct 2 ++ [g.start, 0] ++ le g.vmin 2 ++
    le (if g.fixed then 0 else g.vmax) 2 ++ le epoch 4 ++ le 0 4

/-- The F of a frame of head `h` whose s is `v` (R294): `more` when it is not the first from its bay. -/
def State.frameF (s : State) (h n v more : Nat) : Nat :=
  if (s.geoAct h).member then (n + v + more) % 2 ^ 32 else (s.hd h).count % 2 ^ 32

/-- The s of R294 that the frame starts with: a partner's, or one that REALIGN corrects (R374, R382). Only the wheel renumbers. -/
def State.takeS (s : State) (h n more : Nat) : State :=
  let x := s.hd h
  if !s.inTeam || s.isSeq then s
  else match Store.find h s.yoke.newS with
    | some v => (s.setHd h { x with s := v }).yk fun y => { y with newS := Store.del h y.newS }
    | none => match Store.find h s.yoke.misF with
      | some (2, d) =>
        let v := ((x.s : Int) + d).emod (2 ^ 32) |>.toNat
        let s := (s.setHd h { x with s := v }).yk fun y => { y with misF := Store.del h y.misF }
        s.emit ykP 0x2001 ([0, 0, h, 0] ++ le (s.frameF h n x.s more) 4 ++ le (s.frameF h n v more) 4)
      | _ => s

/-- Start a frame of head `h` from `bay` (R260 to R263, R272 to R275, R294). `ep`: number and ready time of the bay's epoch;
`led`: its ledger bay. -/
def State.frameGo (s : State) (h : Nat) (bay : Nat × Nat) (ep : Option (Nat × Nat)) (led : Nat × Nat) (rep direct : Bool) :
    State :=
  let p := hdP h
  let g := s.geoAct h
  let e := g.engine
  let n := (ep.map (·.1)).getD 0
  let epoch := if g.member then n % 2 ^ 32 else 0
  let ts := s.now
  let x := s.hd h
  let key := if g.member then (g.canvas, n) else (64 + bay.1, bay.2)
  let first := !x.started.contains key
  let more := b2n (decide (x.count ≠ 0) && !first)
  let s := s.takeS h n more
  let x := s.hd h
  let s' := x.s + more
  let f := s.frameF h n x.s more
  let passed := if rep then 0 else (x.unshown.filter fun m => decide (m < n)).length
  let t := gtP e
  let cols := [s.rd t GATE_COL_A_B + 2 ^ 10 * s.rd t GATE_COL_A_G + 2 ^ 20 * s.rd t GATE_COL_A_R,
    s.rd t GATE_COL_B_B + 2 ^ 10 * s.rd t GATE_COL_B_G + 2 ^ 20 * s.rd t GATE_COL_B_R, s.rd t GATE_TICK_LT_RGB,
    s.rd t GATE_TICK_DK_RGB]
  -- records of repeats
  let s := if rep ∧ x.run = 0 then s.emit t 0x1001 (gateData 0 h 0 epoch ts)
    else if !rep ∧ x.run ≠ 0 then s.emit t 0x1002 (gateData 0 h 0 (x.run % 2 ^ 16) ts) else s
  -- the hold and the ledger
  let (held, s) := s.holdTake bay.1 bay.2
  let (lr, s) := if g.member then s.ledgerFor e g.canvas bay led else (LedRead.entries [], s)
  let (ledBad, ledger) := match lr with
    | .bad c => (some c, [])
    | .entries l => (none, l)
  let before := x.failed.contains bay
  let cause : Option Nat :=
    match ledBad with
    | some c => some c
    | none =>
      if !held then some 2
      else if g.member && s.crcHeld g.canvas then some 3
      else if !g.member && s.hostUnfit g bay.1 then some 4
      else if before then some 5 else none
  let s := match cause with
    | some c => s.emit t 0x0803 (gateData 0 h 0 (c * 2 ^ 16) ts)
    | none => s
  let stalls := if g.member then ledger.filterMap (gateStall g ts cause.isSome) else s.hostStall h g bay ts cause.isSome
  let fr : GateFrame := ⟨f, ts, epoch, bay.1, bay.2, rep, cause.isSome, ledBad.isSome, !g.member, stalls⟩
  -- the head's registers
  let s := (s.wr p HD_STATE_PHASE 1).wb p HD_STATE_REPEAT rep
  let s := ((s.wr p HD_FRAME_NUMBER f).wr64 p HD_TS_LO_TS HD_TS_HI_TS ts).wr p HD_EPOCH_EPOCH epoch
  let s := ((s.wr p HD_SHOWN_BAY bay.1).wr p HD_SHOWN_GEN bay.2).cnt p HD_FRAMES_COUNT 1
  let s := (s.cnt p HD_REPEATS_COUNT (b2n rep)).cnt p HD_SKIPPED_COUNT passed
  let s := match (if rep then none else ep) with
    | some y =>
      let lag := (s.time.yt - ns y.2) / max 1 (s.linePeriod g)
      s.wr p HD_LAG_MAX_LINES (max (s.rd p HD_LAG_MAX_LINES) (min lag 0xFFFF))
    | none => s
  let unshown := if rep then x.unshown else x.unshown.filter fun m => decide (n ≤ m)
  let s := s.setHd h { x with
    geo := g, t0 := s.time.run, inFrame := true, sent := 0, fetched := 0, bank := [], closed := false, accepted := false,
    blank := some 0, count := x.count + 1, s := s', last := some bay, started := if first then key :: x.started.take 15 else x.started,
    failed := x.failed.filter fun b => decide (s.bayGen b.1 = b.2), unshown := unshown, hostReady := false, fixedDue := none,
    direct := direct, run := if rep then x.run + 1 else 0, held := held, readFail := false, ledBad := ledBad,
    ledger := ledger, cols := cols }
  let s := s.judged e h fr g
  let s := if g.member then s.crcBegin g.canvas n h g else s
  let s := s.handOver h g 1 0xFFFF f rep (startPayload g ts epoch) 0
  s.tapStart h g fr

/-- The ledger bay that a committed output bay's descriptor names (R148). -/
def State.ledgerOf (s : State) (b : Nat) : Nat × Nat := (s.rd (bayE b) BAYD_LEDGER_BAY, s.rd (bayE b) BAYD_LEDGER_GEN)

/-- Repeat the last bay shown (R263). -/
def State.frameRepeat (s : State) (h : Nat) : State :=
  match (s.hd h).shown with
  | some (b, g, n) => s.frameGo h (b, g) (some (n, 0)) (s.ledgerOf b) true false
  | none => s

/-- Head `h` may start frames: member of an active canvas that holds its rectangle, or without a canvas (R259, R265). -/
def State.mayStart (s : State) (h : Nat) : Bool :=
  !s.on (hdP h) HD_STATE_OUTSIDE && (!(s.geoAct h).member || (s.cvEngine (s.geoAct h).canvas).isSome)

/-- The newest committed epoch that is ready for member head `h` (R262). -/
def State.readyEpoch (s : State) (h : Nat) : Option Committed :=
  let g := s.geoAct h
  match s.cvEngine g.canvas with
  | none => none
  | some e => match (s.cv e g.canvas).last with
    | some y => if (s.hd h).doneEpoch = some y.n then none else some y
    | none => none

/-- A bay is ready for head `h` (R262, R268). -/
def State.bayReady (s : State) (h : Nat) : Bool :=
  if (s.geoAct h).member then (s.readyEpoch h).isSome else (s.hd h).hostReady

/-- Start a frame from the ready bay. -/
def State.frameNew (s : State) (h : Nat) : State :=
  if (s.geoAct h).member then
    match s.readyEpoch h with
    | some y => s.frameGo h (y.bay, y.gen) (some (y.n, y.ready)) (y.lbay, y.lgen) false false
    | none => s
  else
    let p := hdP h
    s.frameGo h (s.rdAct p HD_SRC_BAY_BAY, s.rdAct p HD_SRC_BAY_GEN) none (0, 0) false false

/-- The frame of a head in fixed timing at r_n (R269): from the direct stream, or a repeat of the latest committed bay. -/
def State.frameFixed (s : State) (h n : Nat) : State :=
  let c := (s.geoAct h).canvas
  let last := (s.cvEngine c).bind fun e => (s.cv e c).last
  match (Store.find (2 * c + n % 2) s.directs).filter fun d => decide (d.n = n) && d.ready with
  | some d => s.frameGo h (d.bay, d.gen) (some (n, s.now)) (d.lbay, d.lgen) false true
  | none => match last with
    | some y => s.frameGo h (y.bay, y.gen) (some (y.n, y.ready)) (y.lbay, y.lgen) true false
    | none => s.setHd h { s.hd h with fixedDue := none }

/-- R261 FRAME_START: at VMIN or after it from a ready bay, at VMAX a repeat; a head in fixed timing at r_n (R269). -/
def execFrameStart (h : Fin 64) (s : State) : Host.Outcome State Fault Refusal :=
  let i := h.val
  let x := s.hd i
  let g := s.geoAct i
  done (if !s.pll 0 ∨ !s.enabled (hdP i) ∨ x.inFrame ∨ !s.mayStart i then s
    else if g.fixed && g.member then
      match x.fixedDue with
      | some n => s.frameFixed i n
      | none => s
    else
      let s := s.advanceRun (s.blankAt x g.vmin)
      if s.bayReady i then s.frameNew i
      else if x.shown.isSome ∧ x.blank.isSome ∧ !g.fixed then (s.advanceRun (s.blankAt x g.vmax)).frameRepeat i
      else s)

/-- R261 VMIN_REACHED: no bay is ready, and PHASE moves from BLANK to WAIT. -/
def execVminReached (h : Fin 64) (s : State) : Host.Outcome State Fault Refusal :=
  let i := h.val
  let x := s.hd i
  done (if !s.enabled (hdP i) ∨ x.inFrame ∨ s.rd (hdP i) HD_STATE_PHASE ≠ 3 then s
    else
      let s := s.advanceRun (s.blankAt x (s.geoAct i).vmin)
      if s.bayReady i && s.mayStart i && !(s.geoAct i).fixed then s else s.wr (hdP i) HD_STATE_PHASE 4)

/-! ### Commits (R264) -/

/-- R264 HEAD_COMMIT: COMMIT reads 1; after its window has closed and before the next frame start it is late. -/
def execHeadCommit (_w : Writer) (h : Fin 64) (s : State) : Host.Outcome State Fault Refusal :=
  let i := h.val
  let p := hdP i
  let x := s.hd i
  done (if s.on p HD_COMMIT_COMMIT then s
    else
      let s := s.wb p HD_COMMIT_COMMIT true
      if s.enabled p ∧ x.closed then
        let s := (s.wb p HD_COMMIT_LATE true).cnt p HD_LATE_COUNT 1
        s.emit (gtP x.geo.engine) 0x1801 (gateData 0 i 0 (s.rd p HD_FRAME_NUMBER) (s.headTs i))
      else s)

/-- The window of the frame in progress closes: a waiting commit is captured and judged (R264). -/
def State.windowClose (s : State) (h : Nat) : State :=
  let p := hdP h
  let x := s.hd h
  if !x.inFrame ∨ x.closed then s
  else
    let s := s.advanceRun (s.lineAt x (x.geo.start + x.geo.vAct - x.geo.cwin))
    let s := s.setHd h { x with closed := true }
    if !s.on p HD_COMMIT_COMMIT then s
    else match s.headJudge h (s.geoShadow h) with
      | none => (s.capture p hdFields).setHd h { s.hd h with accepted := true }
      | some r =>
        let s := ((s.wb p HD_COMMIT_REFUSED true).wr p HD_COMMIT_REASON r).wb p HD_COMMIT_COMMIT false
        s.headRefused h x.geo.engine r 1 (s.headTs h)

/-- R264 COMMIT_WINDOW_CLOSE. -/
def execCommitWindowClose (h : Fin 64) (s : State) : Host.Outcome State Fault Refusal := done (s.windowClose h.val)

/-- Accepted values become active (R264): the new VMIN and VMAX govern the blanking that begins here. -/
def State.headApply (s : State) (h : Nat) : State :=
  let x := s.hd h
  if x.accepted then
    let s := (s.activate (hdP h) hdFields).wb (hdP h) HD_COMMIT_COMMIT false
    (s.setHd h { x with accepted := false, hostReady := true }).outsideCheck h
  else s

/-! ### The end of a frame (R260, R266, R270) -/

/-- VDIG of R380. -/
def vdig (l : List GateStall) : Nat := crc32c (l.flatMap fun t => le t.stall 2 ++ [t.coded])

/-- TDIG of R380. -/
def tdig (g : Geo) : Nat :=
  crc32c (le g.inc 4 ++ le g.hAct 2 ++ le g.hTot 2 ++ le g.vAct 2 ++ [g.start, g.cwin] ++ le g.vmin 2 ++ le g.vmax 2 ++ le g.x 2 ++
    le g.y 2 ++ le (b2n g.d24) 4)

/-- The number of the epoch that a frame sends, in full. -/
def State.frameEpoch (s : State) (h : Nat) (fr : GateFrame) : Nat :=
  let c := (s.hd h).geo.canvas
  let near := match s.cvEngine c with
    | some e => (s.cv e c).next
    | none => fr.epoch
  let base := near / 2 ^ 32 * 2 ^ 32 + fr.epoch
  if near < base then base - 2 ^ 32 else base

/-- The frame in progress ends, complete or aborted: FRAME_SUM, the check, the HEAD hold (R138, R280, R380). -/
def State.frameOver (s : State) (h : Nat) (fr : GateFrame) (aborted : Bool) : State :=
  let x := s.hd h
  let g := x.geo
  let s := s.setHd h { x with inFrame := false, bank := [], held := false }
  let s := s.frameSum h (b2n fr.rep + 2 * b2n fr.bad + 4 * b2n aborted) x.sent fr.f fr.ts (vdig (fr.regions g)) (tdig g)
  let ok := !aborted && !x.readFail && !x.failed.contains (fr.bay, fr.gen)
  let s := if g.member then s.crcEnd g.canvas (s.frameEpoch h fr) h ok else s
  if x.held then s.holdRelease fr.bay fr.gen else s

/-- R260 END_OF_ACTIVE: FRAME_END is handed over, the bay counts as shown, blanking begins, and accepted values apply. -/
def execEndOfActive (h : Fin 64) (s : State) : Host.Outcome State Fault Refusal :=
  let i := h.val
  let x := s.hd i
  done (match x.frames with
    | [] => s
    | _ :: _ =>
      if !x.inFrame ∨ x.sent < x.geo.vAct then s
      else
        let s := s.windowClose i
        match (s.hd i).frames with
        | [] => s
        | fr :: _ =>
          let s := s.advanceRun (s.lineAt x (x.geo.start + x.geo.vAct))
          let s := s.handOver i x.geo 3 0xFFFE fr.f fr.rep [] 0
          let n := s.frameEpoch i fr
          let y := s.hd i
          let unshown := y.unshown.filter fun m => decide (m ≠ n)
          let s := s.setHd i { y with
            shown := some (fr.bay, fr.gen, n), doneEpoch := some n, unshown := unshown,
            blank := some (x.geo.start + x.geo.vAct) }
          let s := s.frameOver i fr false
          let s := s.tapEnd i x.geo fr
          let s := (s.wr (hdP i) HD_STATE_PHASE 3).headApply i
          s.closeCheck x.geo.canvas)

/-- End the frame in progress with an ABORT at active line `line` (R266, R270). -/
def State.frameAbort (s : State) (h line cause : Nat) : State :=
  let x := s.hd h
  match x.frames with
  | [] => s
  | fr :: _ =>
    let s := s.handOver h x.geo 4 0xFFFD fr.f fr.rep (le line 2 ++ [cause, 0]) 0
    let s := s.cnt (hdP h) HD_ABORTS_COUNT 1
    let s := (s.frameOver h fr true).tapAbort h
    let y := s.hd h
    let s := s.setHd h { y with blank := some (x.geo.start + line), hostReady := y.hostReady || !fr.rep }
    let s := (s.wr (hdP h) HD_STATE_PHASE 3).headApply h
    s.closeCheck x.geo.canvas

/-! ### Lines (R266, R267) -/

/-- Bytes of a line of a host bay, and its lines (R135). A ledger or coded bay has no lines, and no padding. -/
def State.hostLine (s : State) (g : Geo) (b : Nat) : Nat × Nat :=
  let d := bayE b
  let f := s.rd d BAYD_SIZE_FORMAT
  if f = 0 then (s.rd d BAYD_DIM_WIDTH, s.rd d BAYD_DIM_HEIGHT)
  else if f = 1 then (2 * s.rd d BAYD_DIM_WIDTH, s.rd d BAYD_DIM_HEIGHT)
  else if f = 2 ∨ f = 3 then (4 * s.rd d BAYD_DIM_WIDTH, s.rd d BAYD_DIM_HEIGHT)
  else (4 * g.hAct, g.vAct)

/-- The read of a line of the frame's bay: offset and length (R267, R268). Of a host bay no padding is read (R135). -/
def State.lineRead (s : State) (g : Geo) (b line : Nat) : Nat × Nat :=
  let stride := s.rd (bayE b) BAYD_STRIDE_STRIDE * 64
  if g.member then ((g.y + line) * stride + 4 * g.x, 4 * g.hAct)
  else
    let w := s.hostLine g b
    (line * stride, if line < w.2 then min w.1 (4 * g.hAct) else 0)

/-- The parts of the next line of a frame from `bay`. Without the HEAD hold every line acts as a tag miss (R109, R139; log entry 158).
Pixels that a host bay does not have are free values (log entry 158). -/
def State.lineParts (s : State) (x : HeadSt) (bay : Nat × Nat) : List (Nat × Nat × List Nat) × State :=
  let g := x.geo
  let q := s.lineRead g bay.1 x.fetched
  if !x.held then ([(0, 2, List.replicate (4 * g.hAct) 0)], s)
  else
    let (parts, s) := s.scanRead g.engine bay.1 bay.2 q.1 q.2
    if q.2 = 4 * g.hAct then (parts, s)
    else
      let (v, s) := s.draws (4 * g.hAct - q.2)
      (parts ++ [(q.2, 0, v.map (· % 256))], s)

/-- Bytes as 32-bit words. -/
def words32 (l : List Nat) : List Nat := (chunks 4 (l.length / 4) l).map ofLE

/-- R267 SCANOUT_READ_COMPLETE: the next line comes into the head's banks, up to 4 lines ahead; a part that fails makes the
stalls it covers G from there on. A direct frame's line comes from the direct stream (R269). -/
def execScanoutReadComplete (h : Fin 64) (s : State) : Host.Outcome State Fault Refusal :=
  let i := h.val
  let x := s.hd i
  let g := x.geo
  done (if !x.inFrame ∨ g.vAct ≤ x.fetched ∨ x.sent + 4 ≤ x.fetched then s
    else match x.last with
      | none => s
      | some bay =>
        if x.direct then
          let rows := match s.directs.find? fun d => decide (d.1 / 2 = g.canvas) && decide ((d.2.bay, d.2.gen) = bay) with
            | some d => ((d.2.rows.getD (g.y + x.fetched) []).drop g.x).take g.hAct
            | none => []
          s.setHd i { x with fetched := x.fetched + 1, bank := x.bank ++ [⟨x.fetched, rows⟩] }
        else
          let (parts, s) := s.lineParts x bay
          let s := (s.setHd i { s.hd i with
            fetched := x.fetched + 1
            bank := x.bank ++ [⟨x.fetched, words32 (parts.flatMap fun y => y.2.2)⟩] })
          parts.foldl (fun s y =>
            if y.2.1 = 0 then s
            else
              let z := s.hd i
              let s := if z.failed.contains bay then s else s.setHd i { z with failed := bay :: z.failed }
              let s := if z.readFail then s
                else s.emit (gtP g.engine) 0x0802 (gateData 0 i 0 (x.fetched + y.2.1 * 2 ^ 16) (s.headTs i))
              let s := s.setHd i { s.hd i with readFail := true }
              s.midFail g.engine i x.fetched (y.1 / 4) ((y.1 + y.2.2.length + 3) / 4)) s)

/-- A line is not there when it is due (R253, R266). -/
def State.underrun (s : State) (h line : Nat) : State :=
  let x := s.hd h
  let g := x.geo
  let s := match (if x.direct then s.directs.find? fun d => decide (d.1 / 2 = g.canvas) &&
      decide (some (d.2.bay, d.2.gen) = x.last) else none) with
    | some d =>
      let row := (g.y + line) / 32
      if d.2.under.contains row then s
      else
        let s := { s with directs := Store.put d.1 { d.2 with under := row :: d.2.under } s.directs }
        match s.cvEngine g.canvas with
        | some e => s.emit (pg .cmp e) 0x1801 ([g.canvas, 0] ++ le row 2 ++ le d.2.n 4)
        | none => s
    | none => s
  let s := s.emit (gtP g.engine) 0x0801 (gateData 0 h 0 line (s.headTs h))
  s.frameAbort h line 0

/-- R266 LINE_DUE: the line passes the gate and is handed over, or the frame is aborted. -/
def execLineDue (h : Fin 64) (s : State) : Host.Outcome State Fault Refusal :=
  let i := h.val
  let x := s.hd i
  let g := x.geo
  let y := x.sent
  done (match x.frames with
    | [] => s
    | fr :: _ =>
      if !s.pll 0 ∨ !x.inFrame ∨ g.vAct ≤ y then s
      else
        let s := s.advanceRun (s.lineAt x (g.start + y))
        match x.bank.find? fun b => decide (b.line = y) with
        | none => s.underrun i y
        | some b =>
          let px := gateLine fr g x.cols y b.words
          let pay := linesPayload g px
          let s := s.setHd i { s.hd i with sent := y + 1, bank := x.bank.filter fun a => decide (a.line ≠ y) }
          let s := s.wr (hdP i) HD_STATE_PHASE 2
          let s := s.handOver i g 2 y fr.f fr.rep pay s.time.run
          let s := if g.member then s.crcLine g.canvas (s.frameEpoch i fr) i (g.y + y) g.x b.words else s
          let s := s.lineValue i y fr.f (crc32c (foldBlock i y fr.f ++ pay))
          s.tapLine i y px)

/-! ### Enabling and disabling (R259, R268, R270) -/

/-- The banks that head `h` names, as registry resources. -/
def State.headBanks (s : State) (h : Nat) : List Nat :=
  let p := hdP h
  (bankIdx (s.rd p HD_CFG_BANK0) :: if s.on p HD_CFG_BANK1_EN then [bankIdx (s.rd p HD_CFG_BANK1)] else []).dedup

/-- Enable head `h` (R259, R262, R268). -/
def State.headEnable (s : State) (w : Writer) (h : Nat) : State :=
  let p := hdP h
  let g := s.geoShadow h
  let e := g.engine
  if bit (s.rd 0 SYS_FENCE_A_SO) e then s.enableFenced (0x1000 + h) (0x1100 + e) 0xFFFF w.fid
  else match s.ownCheck (0x1000 + h) (0x1100 + e) w.fid (s.headBanks h) with
  | some s => s
  | none =>
    match s.headJudge h g with
      | some r => s.headRefused h e r 0 0
      | none =>
        let s := s.useSet (s.headBanks h) true
        let s := ((s.commitNow p hdFields).wb p HD_COMMIT_COMMIT false).wb p HDR_CTRL_ENABLE true
        let last := if g.member then (s.cvEngine g.canvas).bind fun e => (s.cv e g.canvas).last else none
        let unshown := match last with
          | some y => [y.n]
          | none => []
        let s := s.setHd h { head0 with geo := g, t0 := s.time.run, hostReady := true, unshown := unshown }
        ((s.wr p HD_STATE_PHASE 4).idleStart e h).outsideCheck h

/-- Disable head `h` (R270, R328). -/
def State.headDisable (s : State) (h : Nat) : State :=
  let p := hdP h
  if !s.enabled p then s
  else
    let c := (s.hd h).geo.canvas
    let s := if (s.hd h).inFrame then s.frameAbort h (s.hd h).sent 1 else s
    let s := s.useSet (s.headBanks h) false
    let s := { (s.wb p HDR_CTRL_ENABLE false) with heads := Store.del h s.heads }
    let s := (s.wr p HD_STATE_PHASE 0).wb p HD_STATE_OUTSIDE false
    let s := match s.chOf h with
      | some (q, k) => s.chStop q k 0
      | none => s
    s.closeCheck c

/-- R270 HEAD_DISABLE. -/
def execHeadDisable (_w : Writer) (h : Fin 64) (s : State) : Host.Outcome State Fault Refusal := done (s.headDisable h.val)

/-! ### Canvas commits, cuts and epochs as the heads see them (R235, R252, R253, R265, R269) -/

/-- R235 CANVAS_COMMIT. -/
def execCanvasCommit (w : Writer) (e : Fin 2) (c : Fin 64) (s : State) : Host.Outcome State Fault Refusal :=
  let was := s.cvOn e.val c.val
  done (if s.pageFenced .cmp e.val then s.fencedWrite w (pg .cmp e.val + 0x400 + 32 * c.val) 2
    else (s.canvasCommit e.val c.val).canvasChanged e.val c.val was)

/-- LDIG and the number of entries of a ledger as it stands in its bay (R380). -/
def State.ledgerDigest (s : State) (led : Option (Nat × Nat)) : Nat × Nat :=
  match led with
  | none => (crc32c [], 0)
  | some l =>
    let n := min 4096 (num (s.bayPeek l.1 0 64) 0xE 2)
    let d := chunks 32 n (s.bayPeek l.1 64 (32 * n))
    (crc32c (d.flatMap fun b => b.take 0x18 ++ (b.drop 0x1C).take 4), n)

/-- Tell the canvas's heads of an epoch: it counts as unshown until a frame from it completes, and fixed timing starts its
frame (R262, R269). -/
def State.epochToHeads (s : State) (c n : Nat) (ok fixed : Bool) : State :=
  (s.headsOf c).foldl (fun s h =>
    let x := s.hd h
    s.setHd h { x with unshown := if ok then x.unshown ++ [n] else x.unshown, fixedDue := if fixed then some n else x.fixedDue }) s

/-- r_n of a direct canvas (R253, R269): with the ledger committed (`led`: its writes are acknowledged) the tiles are written, the heads start from
the direct stream, and the output bay commits once its writes are acknowledged. With the ledger not committed no tile is written, and the epoch is missed (log entry 177). -/
def State.directReady (s : State) (e c : Nat) (x : EpochSt) (ack : Option Nat) (led : Bool) : State :=
  let s := s.advanceTo x.ready
  let s := s.setCv e c { s.cv e c with begun := (s.cv e c).begun.drop 1 }
  match x.miss, x.out, x.led with
  | none, some o, some d =>
    if !led then ((s.epochMissed e c x.n 4 1).setCv e c { s.cv e c with drains := (s.cv e c).drains ++ [x] }).epochToHeads c x.n
      false true
    else
      let i := 2 * c + x.n % 2
      let s := match Store.find i s.directs with
        | some y => { s with directs := Store.put i { y with ready := true } s.directs }.composeWrite e o (x.n % 2 ^ 32) x.size.1 x.size.2 y.rows
        | none => s
      let s := (s.crcReady c x.n x.wcrc x.size).epochToHeads c x.n true true
      let (hold, s) := s.epochHold e c
      match ack with
      | some a =>
        if hold ≤ a then (s.admitRelease x).epochDo e c x o d (a - hold)
        else s.setCv e c { s.cv e c with drains := (s.cv e c).drains ++ [{ x with direct := true }] }
      | none => s.setCv e c { s.cv e c with drains := (s.cv e c).drains ++ [{ x with direct := true }] }
  | r, _, _ => ((s.epochMissed e c x.n (r.getD 4) 1).epochRelease x).epochToHeads c x.n false true

/-- R252 EPOCH_COMMIT: r_n of the oldest epoch begun. `ack`: ns before r_n at which its last write was acknowledged; `led`: a
direct canvas's ledger write is acknowledged. An epoch passed by a step is missed already; its r_n remains (R265). -/
def execEpochCommit (e : Fin 2) (c : Fin 64) (ack : Option Nat) (led : Bool) (s : State) : Host.Outcome State Fault Refusal :=
  let e := e.val
  let c := c.val
  done (match (s.cv e c).begun with
    | [] => s
    | x :: _ =>
      if x.miss = some 5 then
        ((s.advanceTo x.ready).setCv e c { s.cv e c with begun := (s.cv e c).begun.drop 1 }).reachHeads e c x.size
          |>.closeCheck c
      else
      let dig := s.ledgerDigest (if x.miss.isSome then none else x.led)
      let sum := fun (s : State) (missed : Bool) =>
        s.epochSum c (b2n missed + 2 * b2n (s.crcHeld c)) dig.2 x.n dig.1 x.wcrc
      if (s.cvAct e c).direct && s.cvOn e c then
        let s := (s.directReady e c x ack led).reachHeads e c x.size
        sum s (x.miss.isSome || !led)
      else
        let r := s.epochReady e c ack
        let s := if r.1 && r.2.cvOn e c then (r.2.crcReady c x.n x.wcrc x.size).epochToHeads c x.n true false else r.2
        ((sum s (!r.1)).reachHeads e c x.size).closeCheck c)

/-- R252 EPOCH_WRITES_DRAIN: the outstanding writes of the oldest missed epoch complete, and its bays and ADMIT holds go; a direct
epoch's output bay commits (R253). -/
def execEpochWritesDrain (e : Fin 2) (c : Fin 64) (s : State) : Host.Outcome State Fault Refusal :=
  let e := e.val
  let c := c.val
  done (match (s.cv e c).drains with
    | [] => s
    | x :: t =>
      let s := s.setCv e c { s.cv e c with drains := t }
      match x.direct, x.out, x.led with
      | true, some o, some d => if s.cvOn e c then (s.admitRelease x).epochDo e c x o d 0 else s.epochRelease x
      | _, _, _ => s.epochRelease x)

end Sys2Proof.Machine
end

