-- ==== Sys2Proof/Machine/Touch.lean ====
section
/-! DEFINITION. Touch panels and desk keys (R340 to R361), and mirrored touch (R369, R383). -/

namespace Sys2Proof.Machine

/-- The page of TCH p; 2 is the key page. -/
abbrev tchP (p : Nat) : Nat := pg .tch p

/-- A matrix page at rest. -/
def tch0 : TchSt := ⟨false, false, [], [], [], none, [], [], 0, 0, [], 0, [], 0, none, 0, false⟩

/-- Matrix page `p`. -/
def State.tchSt (s : State) (p : Nat) : TchSt := Store.getD tch0 p s.tch

/-- Set it. -/
def State.setTch (s : State) (p : Nat) (x : TchSt) : State := { s with tch := Store.setD tch0 p x s.tch }

/-! ### Judging a position (R349, R350) -/

/-- The zones of a page as they stand (R349). -/
def State.zonesOf (s : State) (p : Nat) : List Zone :=
  let q := tchP p
  (upTo 4).map fun z => ⟨s.rd q (TCH_ZONE_U_U0 z), s.rd q (TCH_ZONE_U_U1 z), s.rd q (TCH_ZONE_V_V0 z), s.rd q (TCH_ZONE_V_V1 z),
    s.rd q (TCH_ZONE_HPOS_HX z), s.rd q (TCH_ZONE_HPOS_HY z), s.rd q (TCH_ZONE_HSIZE_HW z), s.rd q (TCH_ZONE_HSIZE_HH z),
    s.rd q (TCH_ZONE_CFG_HEAD z), s.on q (TCH_ZONE_CFG_SWAP z), s.on q (TCH_ZONE_CFG_FLIP_X z),
    s.on q (TCH_ZONE_CFG_FLIP_Y z), s.on q (TCH_ZONE_CFG_EN z)⟩

/-- A zone holds (u, v). -/
def Zone.holds (z : Zone) (sx sy : Nat) : Bool :=
  let u := if z.swap then sy else sx
  let v := if z.swap then sx else sy
  z.en && decide (z.u0 ≤ u) && decide (u ≤ z.u1) && decide (z.v0 ≤ v) && decide (v ≤ z.v1)

/-- Head coordinates of a sensor position in a zone (R349). -/
def Zone.map (z : Zone) (sx sy : Nat) : Nat × Nat :=
  let u := if z.swap then sy else sx
  let v := if z.swap then sx else sy
  let a := if z.flipX then z.u1 - u else u - z.u0
  let b := if z.flipY then z.v1 - v else v - z.v0
  (z.hx + a * z.hw / (z.u1 - z.u0 + 1), z.hy + b * z.hh / (z.v1 - z.v0 + 1))

/-- Reasons of a stall in force at yard time `t`, MID coded (R350). -/
def GateStall.atTime (g : GateStall) (t : Nat) : Nat :=
  match g.mid with
  | some (_, c, r) => if c ≤ t then r + 128 else g.r0
  | none => g.r0

/-- R350: judge position (x, y) of head `h` at yard time `t`. `gate`: TCH_CTRL.GATE. -/
def State.judgeAt (s : State) (gate : Bool) (t h x y : Nat) : Judged :=
  let none_ : Judged := ⟨false, 0xFFFF, 0, h, x, y, 0, false, true, false⟩
  match Store.find h s.heads with
  | none => none_
  | some hd => match hd.frames.find? fun f => decide (f.ts ≤ t) with
    | none => none_
    | some f =>
      if f.whole then ⟨!gate, 0x1001, 1, h, x, y, f.f, false, false, false⟩
      else
        let l := f.stalls.filter fun g => g.holds x y
        match (l.filter fun g => decide (g.atTime t ≠ 0)).getLast? with
        | some g => ⟨!gate, g.stall, g.atTime t, h, x, y, f.f, false, false, g.est⟩
        | none => match l.getLast? with
          | some g => ⟨true, g.stall, 0, h, x, y, f.f, false, false, g.est⟩
          | none => ⟨true, 0xFFFF, 0, h, x, y, f.f, false, false, false⟩

/-- Judge a sensor position (R349, R350). The head coordinates of a position in no zone are free values. -/
def State.judgePos (s : State) (p : Nat) (zones : List Zone) (t sx sy : Nat) : Judged × State :=
  match zones.find? fun z => z.holds sx sy with
  | some z => (s.judgeAt (s.on (tchP p) TCH_CTRL_GATE) t z.head (z.map sx sy).1 (z.map sx sy).2, s)
  | none =>
    let (a, s) := s.draw
    let (b, s) := s.draw
    (⟨false, 0xFFFF, 0, 0xFF, a % 2 ^ 16, b % 2 ^ 16, 0, true, false, false⟩, s)

/-! ### Report rings (R352, R353) -/

/-- Free slots of a page's report ring; none while it is off. -/
def State.rptFree (s : State) (q : Nat) : Nat :=
  let base := 4096 * s.rd q RPT_RING_BASE
  if s.on q RPT_RING_EN then ringSlots (s.rd q RPT_RING_SIZE) - (s.loftLE base 4 + 2 ^ 32 - s.loftLE (base + 4) 4) % 2 ^ 32 else 0

/-- Append a report to a page's ring, and raise the ring's interrupt on the advance of WR_IDX (R54, R352): whether it was written. A ring that
is off takes none; of one that is on a slot is always free, or kept for the ending reports. -/
def State.rptPut (s : State) (q : Nat) (item : List Nat) : Bool × State :=
  if s.on q RPT_RING_EN then
    (true, (s.ringPut (4096 * s.rd q RPT_RING_BASE) (s.rd q RPT_RING_SIZE) item).raiseTarget (s.rd q RPT_RING_TARGET)
      (s.rd q RPT_RING_VECTOR))
  else (false, s)

/-- Reports a non-ending report must leave room for, itself counted where it confirms an item. -/
def State.rptRoom (s : State) (q items : Nat) : Bool := decide (items + 1 ≤ s.rptFree q)

/-- A report's 32 bytes (R353). -/
def reportBytes (time kind id flags : Nat) (j : Judged) (port sx sy strength seq : Nat) : List Nat :=
  le time 8 ++ [kind, id, flags + 8 * b2n j.outside + 16 * b2n j.noVerdict + 32 * b2n j.est, j.head] ++ le j.x 2 ++ le j.y 2 ++
    le j.stall 2 ++ [j.reasons, port] ++ le j.frame 4 ++ le sx 2 ++ le sy 2 ++ le strength 2 ++ le seq 2

/-- Write a contact's report. `flags`: Q, LOST_Q and COALESCED. -/
def State.contactReport (s : State) (p kind time : Nat) (mir : Bool) (c : Contact) (j : Judged) (sx sy strength : Nat)
    (coal : Bool) : State :=
  let x := s.tchSt p
  let flags := b2n c.q + 2 * b2n c.lostQ + 4 * b2n coal + 64 * b2n mir
  let (ok, s) := s.rptPut (tchP p) (reportBytes time kind c.id flags j p sx sy strength x.seq)
  if ok then s.setTch p { s.tchSt p with seq := (x.seq + 1) % 2 ^ 16 } else s

/-- The contact owes an ending report: confirmed, reported and not stuck (R352). -/
def Contact.owesEnd (c : Contact) : Bool := c.confirmed && !c.suppressed && !c.stuck

/-- Items confirmed and not yet ended (R352). -/
def TchSt.items (x : TchSt) : Nat := (x.contacts.filter Contact.owesEnd).length + x.owed

/-! ### Measurements (R341, R344, R345) -/

/-- The nodes of a page, in index order. -/
def State.nodesOf (s : State) (p : Nat) : List Nat :=
  (upTo (s.rd (tchP p) TCH_MATRIX_DRIVES)).flatMap fun j => (upTo (s.rd (tchP p) TCH_MATRIX_SENSES)).map fun i => 80 * j + i

/-- The neighbourhood of a node within the sensor, itself included. -/
def nbhd (drives senses n : Nat) : List Nat :=
  ((upTo 3).flatMap fun b => (upTo 3).map fun a => (n % 80 + a, n / 80 + b)).filterMap fun x =>
    if 1 ≤ x.1 ∧ x.1 ≤ senses ∧ 1 ≤ x.2 ∧ x.2 ≤ drives then some (80 * (x.2 - 1) + (x.1 - 1)) else none

/-- A capacitance as its 16-bit field holds it. -/
def cap16 (m : Nat) : Nat := min m 0xFFFF

/-- The residual of a node lies outside 0 to 4 pF (R341). -/
def State.saturated (s : State) (p n m : Nat) : Bool :=
  let c := 1000 * s.rd (touchE p n) TCHN_B_COMP
  decide (m < c) || decide (c + 16000 < m)

/-- Store a frame's measurements; at most one SATURATED record a second. -/
def State.takeSamples (s : State) (p : Nat) (nodes : List Nat) (m : Array Nat) : State :=
  let s := nodes.foldl (fun s n =>
    (s.wr (touchE p n) TCHN_A_LAST (cap16 (m.getD n 0))).wb (touchE p n) TCHN_B_SAT (s.saturated p n (m.getD n 0))) s
  match nodes.find? fun n => s.on (touchE p n) TCHN_B_SAT with
  | some n => s.emitLimited (tchP p) (tchP p + 1) 1000 0x2801 (le n 2)
  | none => s

/-- A frame of the baseline capture (R344). -/
def State.captureFrame (s : State) (p k : Nat) (nodes : List Nat) (m : Array Nat) : State :=
  let q := tchP p
  if k = 0 then
    let s := nodes.foldl (fun s n => s.wr (touchE p n) TCHN_B_COMP (min 63 (m.getD n 0 / 1000 - 4))) s
    s.setTch p { s.tchSt p with init := some 1, sums := [] }
  else
    let x := s.tchSt p
    let sums : Store Nat := nodes.foldl (fun t n => Store.put n (Store.getD 0 n t + m.getD n 0) t) x.sums
    if s.rd q TCH_SCAN_INIT ≤ k then
      let s := nodes.foldl (fun s n => s.wr (touchE p n) TCHN_A_BASE (cap16 (Store.getD 0 n sums / k))) s
      let s := s.setTch p { s.tchSt p with init := none, sums := [], lost := false }
      s.emit q 0x3001 (le nodes.length 2)
    else s.setTch p { x with init := some (k + 1), sums := sums }

/-- No node of a page is touched, or part of a contact (R359). -/
def State.nodesQuiet (s : State) (p : Nat) : State :=
  (s.nodesOf p).foldl (fun s n =>
    let e := touchE p n
    ((s.wb e TCHN_B_TOUCHED false).wb e TCHN_B_STUCK false).wr e TCHN_B_HOLD_S 0) s

/-- Begin a baseline capture: contacts and counters go (R344). -/
def State.captureStart (s : State) (p : Nat) : State :=
  (s.nodesQuiet p).setTch p
    { s.tchSt p with init := some 0, sums := [], anti := [], drift := 0, contacts := [], owed := 0, since := [] }

/-- A matrix port goes off with the clocks, and its baselines are lost (R357): they read 0 (log entry 182). -/
def State.matrixOff (s : State) (p : Nat) : State :=
  let s := (s.nodesOf p).foldl (fun s n => s.wr (touchE p n) TCHN_A_BASE 0) (s.nodesQuiet p)
  s.setTch p { s.tchSt p with
    scanning := false, calib := false, init := none, sums := [], anti := [], contacts := [], owed := 0, since := [], samples := none }

/-- An enabled matrix port captures anew at wake (R344, R357). -/
def State.matrixWake (s : State) (p : Nat) : State :=
  if s.enabled (tchP p) then (s.setTch p { s.tchSt p with lastSet := s.time.run }).captureStart p else s

/-! ### Peaks and contacts (R347, R348) -/

/-- A peak: node, delta, position. -/
structure Peak where
  node : Nat
  d : Nat
  sx : Nat
  sy : Nat
deriving DecidableEq, Repr

/-- Round a quotient half up; `b` is positive. -/
def roundHalfUp (a b : Int) : Int := floorDiv (2 * a + b) (2 * b)

/-- The position of a peak (R347). -/
def peakAt (drives senses n : Nat) (d : Nat → Int) : Nat × Nat :=
  let l := nbhd drives senses n
  let pos := fun (m : Nat) => max 0 (d m)
  let sum := l.foldl (fun t m => t + pos m) 0
  let ax := l.foldl (fun t m => t + ((m % 80 : Nat) - (n % 80 : Nat) : Int) * pos m) 0
  let ay := l.foldl (fun t m => t + ((m / 80 : Nat) - (n / 80 : Nat) : Int) * pos m) 0
  let at_ := fun (i : Nat) (a : Int) (hi : Nat) =>
    (clamp 0 (64 * hi - 1) (64 * i + 32 + roundHalfUp (64 * a) (max 1 sum))).toNat
  (at_ (n % 80) ax senses, at_ (n / 80) ay drives)

/-- The peaks of a frame in order of descending D, then ascending node (R347). -/
def peaksOf (drives senses on : Nat) (nodes : List Nat) (live : Nat → Bool) (d : Nat → Int) : List Peak :=
  let l := nodes.filter fun n => live n && decide ((on : Int) ≤ d n) && (nbhd drives senses n).all fun m =>
    if m < n then decide (d m < d n) else decide (d m ≤ d n)
  let ps := l.map fun n => Peak.mk n (d n).toNat (peakAt drives senses n d).1 (peakAt drives senses n d).2
  ps.foldl (fun t x => (t.takeWhile fun y => decide (x.d ≤ y.d)) ++ [x] ++ t.dropWhile fun y => decide (x.d ≤ y.d)) []

/-- Squared distance of a contact and a peak. -/
def dist2 (c : Contact) (x : Peak) : Nat :=
  (((c.sx : Int) - x.sx) * ((c.sx : Int) - x.sx) + ((c.sy : Int) - x.sy) * ((c.sy : Int) - x.sy)).toNat

/-- Match peaks to contacts in ascending order of squared distance, contact ID and node index (R348): contact ID, peak. -/
def matchPeaks (jump : Nat) (cs : List Contact) (ps : List Peak) : List (Nat × Peak) :=
  let pairs := cs.flatMap fun c => (ps.filter fun x => decide (dist2 c x ≤ jump * jump)).map fun x => (dist2 c x, c.id, x)
  let le_ := fun (a b : Nat × Nat × Peak) =>
    decide (a.1 < b.1 ∨ (a.1 = b.1 ∧ (a.2.1 < b.2.1 ∨ (a.2.1 = b.2.1 ∧ a.2.2.node ≤ b.2.2.node))))
  let sorted := pairs.foldl (fun t x => (t.takeWhile fun y => le_ y x) ++ [x] ++ t.dropWhile fun y => le_ y x) []
  sorted.foldl (fun t x => if t.any fun y => decide (y.1 = x.2.1) || decide (y.2.node = x.2.2.node) then t
    else t ++ [(x.2.1, x.2.2)]) []

/-- The lowest contact ID not in a list. -/
def freeId (l : List Nat) : Option Nat := (upTo 10).find? fun i => !l.contains i

/-- New pending contacts for the unmatched peaks (R348). -/
def State.newContacts (s : State) (p t : Nat) (zones : List Zone) : List Peak → List Contact → List Contact × State
  | [], cs => (cs, s)
  | x :: ps, cs =>
    match freeId (cs.map (·.id)) with
    | none => (cs, s)
    | some i =>
      let (j, s) := s.judgePos p zones t x.sx x.sy
      s.newContacts p t zones ps
        (cs ++ [⟨i, x.node, x.sx, x.sy, x.d, 0, t, true, false, false, false, false, false, x.sx, x.sy, x.d, j⟩])

/-! ### A contact at the end of a frame (R346, R348, R351, R352) -/

/-- Longest touch in ns; 0 s acts as 600 s. -/
def maxHold (v : Nat) : Nat := (if v = 0 then 600 else v) * 1000000000

/-- Change contact `id`. -/
def State.contactUpd (s : State) (p id : Nat) (f : Contact → Contact) : State :=
  let x := s.tchSt p
  s.setTch p { x with contacts := mapWhere (fun (c : Contact) => decide (c.id = id)) f x.contacts }

/-- A contact that has a peak in this frame: judged, and reported once it is confirmed. -/
def State.contactFrame (s : State) (p t : Nat) (zones : List Zone) (mir : Bool) (c0 : Contact) : State :=
  let q := tchP p
  let (j, s) := s.judgePos p zones t c0.sx c0.sy
  let cnt := c0.count + 1
  let q' := c0.q && j.q
  let c := { c0 with count := cnt, q := q', lostQ := c0.lostQ || (c0.confirmed && c0.q && !q') }
  let put := fun (s : State) (c : Contact) => s.contactUpd p c.id fun _ => c
  if c.stuck then put s c
  else if !c.confirmed then
    if cnt < s.rd q TCH_SCAN_DEBOUNCE then put s c
    else
      let c := { c with confirmed := true }
      if s.rptRoom q ((s.tchSt p).items + 1) then
        (put s c).contactReport p 1 c.td mir c c.first c.sx0 c.sy0 c.str0 false
      else
        ((put s { c with suppressed := true }).cnt q TCH_RPT_REFUSED_COUNT 1).emit q 0x1801 [c.id]
  else if c.td + maxHold (s.rd q TCH_MAXHOLD_S) < t then
    let s := if c.suppressed then s else s.contactReport p 4 t mir c j c.sx c.sy c.strength false
    (put s { c with stuck := true }).emit q 0x0801 (le c.node 2 ++ [c.id])
  else if c.suppressed ∨ !s.on q TCH_CTRL_MOVES then put s c
  else if s.rptRoom q (s.tchSt p).items then
    (put s { c with skipped := false }).contactReport p 2 t mir c j c.sx c.sy c.strength c.skipped
  else (put s { c with skipped := true }).cnt q TCH_RPT_COALESCED_COUNT 1

/-- A contact without a peak in this frame: a pending one is dropped, a confirmed one has lifted. UP's STRENGTH is a free value. -/
def State.contactLift (s : State) (p t : Nat) (zones : List Zone) (mir : Bool) (m : Array Nat) (c : Contact) : State :=
  let q := tchP p
  let x := s.tchSt p
  let s := s.setTch p { x with contacts := x.contacts.filter fun a => decide (a.id ≠ c.id) }
  if !c.confirmed then s
  else if c.stuck then
    let l := nbhd (s.rd q TCH_MATRIX_DRIVES) (s.rd q TCH_MATRIX_SENSES) c.node
    let s := l.foldl (fun s n => (s.wr (touchE p n) TCHN_A_BASE (cap16 (m.getD n 0))).wb (touchE p n) TCHN_B_STUCK false) s
    s.emit q 0x0802 (le c.node 2 ++ [c.id])
  else if c.suppressed then s
  else
    let (j, s) := s.judgePos p zones t c.sx c.sy
    let (v, s) := s.draw
    s.contactReport p 3 t mir { c with q := c.q && j.q, lostQ := c.lostQ || (c.q && !j.q) } j c.sx c.sy (v % 2 ^ 16) false

/-- Contacts of a frame, in ascending ID (R347, R348). -/
def State.contactsFrame (s : State) (p t : Nat) (mir : Bool) (nodes : List Nat) (m : Array Nat) (live : Nat → Bool)
    (d : Nat → Int) : State :=
  let q := tchP p
  let zones := (s.tchSt p).zones
  let all := peaksOf (s.rd q TCH_MATRIX_DRIVES) (s.rd q TCH_MATRIX_SENSES) (s.rd q TCH_THRESH_ON) nodes live d
  let ps := all.take (s.rd q TCH_CONTACT_MAX)
  let s := s.cnt q TCH_EXTRA_COUNT (all.length - ps.length)
  let cs := (s.tchSt p).contacts
  let ms := matchPeaks (s.rd q TCH_CONTACT_JUMP) cs ps
  let gone := cs.filter fun c => !ms.any fun y => decide (y.1 = c.id)
  let kept := (cs.filter fun c => ms.any fun y => decide (y.1 = c.id)).map fun c =>
    match ms.find? fun y => decide (y.1 = c.id) with
    | some y => { c with node := y.2.node, sx := y.2.sx, sy := y.2.sy, strength := y.2.d }
    | none => c
  let fresh := ps.filter fun x => !ms.any fun y => decide (y.2.node = x.node)
  let (cs', s) := s.newContacts p t zones fresh kept
  let reused := fun (c : Contact) => cs'.any fun a => decide (a.id = c.id)
  let s := s.setTch p { s.tchSt p with
    contacts := cs' ++ gone.filter fun c => !reused c
    owed := (gone.filter fun c => reused c && c.owesEnd).length }
  (upTo 10).foldl (fun s i =>
    let s := match gone.find? fun c => decide (c.id = i) with
      | some c =>
        let keep := cs'.find? fun a => decide (a.id = i)
        let s := s.contactLift p t zones mir m c
        let s := if reused c && c.owesEnd then s.setTch p { s.tchSt p with owed := (s.tchSt p).owed - 1 } else s
        match keep with
        | some a => s.setTch p { s.tchSt p with contacts := (s.tchSt p).contacts ++ [a] }
        | none => s
      | none => s
    match cs'.find? fun c => decide (c.id = i) with
    | some c => s.contactFrame p t zones mir c
    | none => s) s

/-! ### Baselines after a frame (R345) -/

/-- One node's baseline update. -/
def State.nodeUpdate (s : State) (p t n : Nat) (touched stuck : Bool) (driftNow : Bool) (m : Nat) (d : Int) : State :=
  let q := tchP p
  let e := touchE p n
  let x := s.tchSt p
  let since := if touched then Store.put n (Store.getD t n x.since) x.since else Store.del n x.since
  let s := s.setTch p { x with since := since }
  let s := (s.wb e TCHN_B_TOUCHED touched).wb e TCHN_B_STUCK stuck
  let s := s.wr e TCHN_B_HOLD_S (if touched then min 0xFFFF ((t - Store.getD t n since) / 1000000000) else 0)
  if x.masks.contains n || s.on e TCHN_B_SAT || touched then s
  else if d ≤ -(s.rd q TCH_ANTI_THRESH : Int) then
    let k := Store.getD 0 n x.anti + 1
    if s.rd q TCH_ANTI_FRAMES ≤ k then
      let s := s.setTch p { s.tchSt p with anti := Store.del n x.anti }
      ((s.wr e TCHN_A_BASE (cap16 m)).wb e TCHN_B_ANTI true).emit q 0x0001 (le n 2 ++ le (uint 16 d) 2)
    else s.setTch p { s.tchSt p with anti := Store.put n k x.anti }
  else
    let s := (s.setTch p { s.tchSt p with anti := Store.del n x.anti }).wb e TCHN_B_ANTI false
    let b := s.rd e TCHN_A_BASE
    if driftNow ∧ d.natAbs < s.rd q TCH_THRESH_OFF / 2 then
      s.wr e TCHN_A_BASE (if b < cap16 m then b + 1 else if cap16 m < b then b - 1 else b)
    else s

/-- Every node's baseline update of a frame. -/
def State.baselines (s : State) (p t : Nat) (nodes : List Nat) (m : Array Nat) (d : Nat → Int) : State :=
  let q := tchP p
  let x := s.tchSt p
  let area := fun (l : List Contact) =>
    l.flatMap fun c => nbhd (s.rd q TCH_MATRIX_DRIVES) (s.rd q TCH_MATRIX_SENSES) c.node
  let tl := area x.contacts
  let sl := area (x.contacts.filter fun c => c.stuck)
  let k := x.drift + 1
  let now := decide (max 1 (s.rd q TCH_ANTI_DRIFT) ≤ k)
  let s := s.setTch p { x with drift := if now then 0 else k }
  nodes.foldl (fun s n => s.nodeUpdate p t n (tl.contains n || decide ((s.rd q TCH_THRESH_OFF : Int) ≤ d n)) (sl.contains n) now
    (m.getD n 0) (d n)) s

/-! ### Hopping (R343) -/

/-- Enabled frequencies. -/
def State.freqs (s : State) (p : Nat) : List Nat := (upTo 8).filter fun k => s.on (tchP p) (TCH_FREQ_EN k)

/-- The next candidate frequency in rotation, other than the current one. -/
def State.nextCand (s : State) (p : Nat) : Option Nat :=
  let cur := s.rd (tchP p) TCH_HOP_CUR
  let l := (s.freqs p).filter fun k => decide (k ≠ cur)
  match l.find? fun k => decide ((s.tchSt p).cand < k) with
  | some k => some k
  | none => l.head?

/-- Noise and hop at the end of a frame. `ci`: the candidate. -/
def State.noiseStep (s : State) (p : Nat) (ci : Option Nat) (lcur lcand : Nat) : State :=
  let q := tchP p
  let cur := s.rd q TCH_HOP_CUR
  let mix := fun (s : State) (k v : Nat) => s.wr q (TCH_NOISE_N k) (min 0xFFFF ((3 * s.rd q (TCH_NOISE_N k) + v) / 4))
  let s := mix s cur lcur
  let s := match ci with
    | some k => (mix s k lcand).setTch p { s.tchSt p with cand := k }
    | none => s
  let n := s.rd q (TCH_NOISE_N cur)
  if s.on q TCH_HOP_EN ∧ s.rd q TCH_HOP_NOISE_HI < n then
    let l := (s.freqs p).filter fun k => decide (k ≠ cur)
    match l.foldl (fun (t : Option Nat) k => match t with
      | some b => if s.rd q (TCH_NOISE_N k) < s.rd q (TCH_NOISE_N b) then some k else some b
      | none => some k) none with
    | some k =>
      if 2 * s.rd q (TCH_NOISE_N k) < n then
        (s.wr q TCH_HOP_CUR k).emit q 0x1001 ([k, cur] ++ le n 2 ++ le (s.rd q (TCH_NOISE_N k)) 2)
      else s
    | none => s
  else s

/-! ### Scan frames (R342, R345, R383) -/

/-- One scan frame of measurements `m` ending at `t`. -/
def State.scanFrame (s : State) (p t : Nat) (mir : Bool) (m : List Nat) (ci : Option Nat) (lcur lcand : Nat) : State :=
  let q := tchP p
  let nodes := s.nodesOf p
  let a := m.toArray
  let s := s.cnt q TCH_FRAMES_COUNT 1
  match (s.tchSt p).init with
  | some k =>
    let s := if k = 0 then nodes.foldl (fun s n => s.wr (touchE p n) TCHN_A_LAST (cap16 (a.getD n 0))) s else s.takeSamples p nodes a
    (s.captureFrame p k nodes a).noiseStep p ci lcur lcand
  | none =>
    let s := s.takeSamples p nodes a
    let masks := (s.tchSt p).masks
    let live := fun (n : Nat) => !masks.contains n && !s.on (touchE p n) TCHN_B_SAT
    let dl := (upTo 3840).map fun n =>
      if s.on (touchE p n) TCHN_B_SAT then 0 else (s.rd (touchE p n) TCHN_A_BASE : Int) - (cap16 (a.getD n 0) : Int)
    let da := dl.toArray
    let d := fun (n : Nat) => da.getD n 0
    let s := s.contactsFrame p t mir nodes a live d
    (s.baselines p t nodes a d).noiseStep p ci lcur lcand

/-- Zones, masks and farrier words as they stand apply from here (R341, R349, R359). -/
def State.latchFrame (s : State) (p : Nat) : State :=
  s.setTch p { s.tchSt p with
    zones := s.zonesOf p, masks := (s.nodesOf p).filter fun n => s.on (touchE p n) TCHN_B_MASK
    gains := (upTo 80).map fun i => s.rd (pg .far 0) (FAR_VAL_VALUE (32 + 80 * p + i)) }

/-- A magnitude as a capacitance, by its sense line's farrier word (R341, R413). PRESUMED: the magnitude times GAIN ÷ 0x4000, truncated, plus
OFFSET, and not below 0 (log entry 183). -/
def gained (w v : Nat) : Nat := ((v * (w % 2 ^ 16) / 0x4000 : Nat) + sint 16 (w / 2 ^ 16) : Int).toNat

/-- The frame's measurements M, by the farrier words of its sense lines (R341). -/
def TchSt.measured (x : TchSt) (m : List Nat) : List Nat := (m.zipIdx).map fun v => gained (x.gains.getD (v.2 % 80) 0x4000) v.1

/-- The page takes its samples from the partner (R383). -/
def State.mirrorIn (s : State) (p : Nat) : Bool := bit (s.rd (pg .yk 0) YK_CFG_MIRROR_IN) p

/-- R342 SCAN_FRAME_START: a scan frame begins, or a calibration frame in its place (R415). -/
def execScanFrameStart (p : Fin 2) (s : State) : Host.Outcome State Fault Refusal :=
  let i := p.val
  done (if !s.enabled (tchP i) ∨ s.mirrorIn i ∨ (s.tchSt i).scanning ∨ 2 ≤ s.pwrState then s
    else
      let s := s.latchFrame i
      let run := s.far.run.isSome && s.far.ports.contains i && decide (s.far.from_ ≤ s.time.run)
      let k := Store.getD 0 i s.far.frames
      let s := if run then { s with far := { s.far with frames := Store.put i (k + 1) s.far.frames } } else s
      s.setTch i { s.tchSt i with scanning := true, calib := run && decide (k % 3 = 0) && decide (k ≤ 57) })

/-- Split into pieces of 1,024 nodes. -/
def fragments : Nat → List Nat → List (List Nat)
  | 0, _ => []
  | k + 1, l => if l.isEmpty then [] else l.take 1024 :: fragments k (l.drop 1024)

/-- Payloads of a set of SAMPLES frames (R368, R369). -/
def sampleFrames (p freq t lcur lcand : Nat) (m : List Nat) : List (List Nat) :=
  let fs := fragments 4 m
  (fs.zipIdx).map fun x => [p, freq] ++ le (1024 * x.2) 2 ++ le x.1.length 2 ++ [x.2, fs.length] ++ le t 8 ++ le lcur 4 ++
    le lcand 4 ++ padTo ((2 * x.1.length + 3) / 4 * 4) (x.1.flatMap fun v => le (cap16 v) 2)

/-- A confirmed contact ends with Q 0 and LOST_Q, without samples (R383). -/
def State.mirrorEnd (s : State) (p t : Nat) : State :=
  let x := s.tchSt p
  let s := x.contacts.foldl (fun s c =>
    if c.owesEnd then
      let (j, s) := s.judgePos p x.zones t c.sx c.sy
      let (v, s) := s.draw
      s.contactReport p 3 t true { c with q := false, lostQ := true } j c.sx c.sy (v % 2 ^ 16) false
    else s) s
  s.setTch p { s.tchSt p with contacts := [], owed := 0 }

/-! ### Keys, sliders and wheels (R354 to R357) -/

/-- The key page. -/
abbrev keyP : Nat := tchP 2

/-- Enabled groups with their first channel, size and kind. -/
def State.keyGroups (s : State) : List (Nat × Nat × Nat × Nat) :=
  (upTo 8).filterMap fun g =>
    let k := s.rd keyP (TCH_GROUP_KIND g)
    if k = 1 ∨ k = 2 then some (g, s.rd keyP (TCH_GROUP_FIRST g), s.rd keyP (TCH_GROUP_N g), k) else none

/-- Channel `k` belongs to an enabled group. -/
def State.inGroup (s : State) (k : Nat) : Bool := s.keyGroups.any fun g => decide (g.2.1 ≤ k) && decide (k < g.2.1 + g.2.2.1)

/-- Items of the key page that still owe an ending report: keys on and not stuck, and active sliders. -/
def State.keyItems (s : State) : Nat :=
  (s.keys.on.filter fun e => !s.inGroup e.1 && !s.on keyP (TCH_KEY_STUCK e.1) && !s.keys.suppressed.contains e.1).length +
    ((upTo 8).filter fun g => s.on keyP (TCH_GROUP_ACTIVE g) && !s.keys.suppressed.contains (32 + g)).length

/-- Write a key, slider or wheel report (R353). Position and sensor fields are free values: the spec gives keys none. -/
def State.keyReport (s : State) (kind id : Nat) (q : Bool) (strength : Nat) : State :=
  let n := s.freeCtr
  let s := { s with freeCtr := n + 1 }
  let f := fun (i : Nat) => Config.freeAt n i % 2 ^ 16
  let j : Judged := ⟨q, 0xFFFF, 0, 0xFF, f 0, f 1, 0, false, false, false⟩
  let seq := s.keys.seq
  let (ok, s) := s.rptPut keyP (reportBytes s.now kind id (b2n q) j 2 (f 2) (f 3) strength seq)
  if ok then { s with keys := { s.keys with seq := (seq + 1) % 2 ^ 16 } } else s

/-- The first report of an item, or its refusal (R352). -/
def State.keyFirst (s : State) (kind id key strength : Nat) : State :=
  if s.rptRoom keyP (s.keyItems + 1) then s.keyReport kind id true strength
  else
    { s with keys := { s.keys with suppressed := key :: s.keys.suppressed } }.emit keyP 0x1801 [id]

/-- A key turns off, or its channel leaves: KEY_OFF, or the re-baseline of a stuck key (R346, R355). -/
def State.keyOff (s : State) (k count : Nat) (d : Int) : State :=
  let supp := s.keys.suppressed.contains k
  let stuck := s.on keyP (TCH_KEY_STUCK k)
  let s := (s.wb keyP (TCH_KEY_ON k) false).wb keyP (TCH_KEY_STUCK k) false
  let s := { s with keys := { s.keys with on := Store.del k s.keys.on, suppressed := s.keys.suppressed.filter fun a => decide (a ≠ k) } }
  if stuck then (s.wr keyP (TCH_KEY_BASE k) count).emit keyP 0x0802 (le k 2 ++ [k])
  else if supp ∨ s.inGroup k then s else s.keyReport 6 k true (uint 16 d)

/-- One channel in a key frame (R354, R355). -/
def State.keyChannel (s : State) (k count : Nat) (driftNow : Bool) : State :=
  let on := s.rd keyP TCH_KEY_THRESH_ON
  let off := s.rd keyP TCH_KEY_THRESH_OFF
  let timeout := decide (s.rd keyP TCH_KEY_SCAN_LIMIT ≤ count)
  let s := (s.wr keyP (TCH_KEY_COUNT k) count).wb keyP (TCH_KEY_TIMEOUT k) timeout
  let d : Int := if timeout then 0 else (s.rd keyP (TCH_KEY_BASE k) : Int) - count
  match Store.find k s.keys.on with
  | some td =>
    if d < (off : Int) then s.keyOff k count d
    else if !s.on keyP (TCH_KEY_STUCK k) ∧ td + maxHold (s.rd keyP TCH_KEY_MAXHOLD_S) < s.now then
      let s := if s.inGroup k || s.keys.suppressed.contains k then s else s.keyReport 8 k false (uint 16 d)
      (s.wb keyP (TCH_KEY_STUCK k) true).emit keyP 0x0801 (le k 2 ++ [k])
    else s
  | none =>
    if (on : Int) ≤ d then
      let s := (if s.inGroup k then s else s.keyFirst 5 k k (uint 16 d)).wb keyP (TCH_KEY_ON k) true
      { s with keys := { s.keys with on := Store.put k s.now s.keys.on, anti := Store.del k s.keys.anti } }
    else if timeout then s
    else if d ≤ -(s.rd keyP TCH_KEY_ANTI_THRESH : Int) then
      let c := Store.getD 0 k s.keys.anti + 1
      if s.rd keyP TCH_KEY_ANTI_FRAMES ≤ c then
        ({ s with keys := { s.keys with anti := Store.del k s.keys.anti } }.wr keyP (TCH_KEY_BASE k) count).emit keyP 0x0001
          (le k 2 ++ le (uint 16 d) 2)
      else { s with keys := { s.keys with anti := Store.put k c s.keys.anti } }
    else
      let s := { s with keys := { s.keys with anti := Store.del k s.keys.anti } }
      let b := s.rd keyP (TCH_KEY_BASE k)
      if driftNow ∧ d.natAbs < off / 2 then
        s.wr keyP (TCH_KEY_BASE k) (if b < count then b + 1 else if count < b then b - 1 else b)
      else s

/-- One group in a key frame (R356). `ds`: the deltas of the channels, from the baselines that stood when the frame began. -/
def State.keyGroup (s : State) (ds : Nat → Int) (g first n kind : Nat) : State :=
  let off := s.rd keyP TCH_KEY_THRESH_OFF
  let on := s.rd keyP TCH_KEY_THRESH_ON
  let dOf := fun (i : Nat) => ds (first + i)
  let k := (upTo n).foldl (fun b i => if dOf b < dOf i then i else b) 0
  let near : List (Int × Nat) := if kind = 2 then [((k : Int) - 1, (k + n - 1) % n), (k, k), ((k : Int) + 1, (k + 1) % n)]
    else ((if k = 0 then [] else [((k : Int) - 1, k - 1)]) ++ [((k : Int), k)] ++ (if k + 1 < n then [((k : Int) + 1, k + 1)] else []))
  let den := near.foldl (fun t x => t + max 0 (dOf x.2)) 0
  let numr := near.foldl (fun t x => t + x.1 * max 0 (dOf x.2)) 0
  let pos := if kind = 2 then
      ((roundHalfUp (numr % ((n : Int) * max 1 den) * 1024) (max 1 den * n)) % 1024).toNat
    else (clamp 0 1023 (roundHalfUp (numr * 1023) (max 1 den * (n - 1 : Int)))).toNat
  let active := s.on keyP (TCH_GROUP_ACTIVE g)
  let supp := s.keys.suppressed.contains (32 + g)
  if active then
    if dOf k < (off : Int) then
      let s := if supp then s else s.keyReport 7 g true 0xFFFF
      { s with keys := { s.keys with suppressed := s.keys.suppressed.filter fun a => decide (a ≠ 32 + g) } }.wb keyP
        (TCH_GROUP_ACTIVE g) false
    else if (on : Int) ≤ dOf k ∧ pos ≠ s.rd keyP (TCH_GROUP_POS g) then
      let s := if !supp ∧ s.rptRoom keyP s.keyItems then s.keyReport 7 g true pos else s
      s.wr keyP (TCH_GROUP_POS g) pos
    else s
  else if (on : Int) ≤ dOf k then
    ((s.keyFirst 7 g (32 + g) pos).wb keyP (TCH_GROUP_ACTIVE g) true).wr keyP (TCH_GROUP_POS g) pos
  else s

/-- Frames of the key page's baseline capture: R355 names no field for them. -/
def keyInit : Nat := 4

/-- A key frame (R354): counts of channels 0 to 31. -/
def State.keyFrame (s : State) (counts : List Nat) : State :=
  let en := (upTo 32).filter fun k => bit (s.rd keyP TCH_KEY_EN_EN) k
  let cnt := fun (k : Nat) => min (counts.getD k 0) (s.rd keyP TCH_KEY_SCAN_LIMIT)
  match s.keys.init with
  | some i =>
    let sums := en.foldl (fun t k => Store.put k (Store.getD 0 k t + cnt k) t) s.keys.sums
    let s := en.foldl (fun s k =>
      (s.wr keyP (TCH_KEY_COUNT k) (cnt k)).wb keyP (TCH_KEY_TIMEOUT k) (decide (s.rd keyP TCH_KEY_SCAN_LIMIT ≤ cnt k))) s
    if keyInit ≤ i + 1 then
      let s := en.foldl (fun s k => s.wr keyP (TCH_KEY_BASE k) (Store.getD 0 k sums / keyInit)) s
      ({ s with keys := { s.keys with init := none, sums := [] } }).emit keyP 0x3001 (le en.length 2)
    else { s with keys := { s.keys with init := some (i + 1), sums := sums } }
  | none =>
    let n := s.keys.drift + 1
    let now := decide (max 1 (s.rd keyP TCH_KEY_ANTI_DRIFT) ≤ n)
    let s := { s with keys := { s.keys with drift := if now then 0 else n } }
    let dl := (upTo 32).map fun k =>
      if !en.contains k ∨ s.rd keyP TCH_KEY_SCAN_LIMIT ≤ cnt k then (0 : Int) else (s.rd keyP (TCH_KEY_BASE k) : Int) - cnt k
    let s := en.foldl (fun s k => s.keyChannel k (cnt k) now) s
    s.keyGroups.foldl (fun s g => s.keyGroup (fun k => dl.getD k 0) g.1 g.2.1 g.2.2.1 g.2.2.2) s

/-! ### Enables (R342, R360) -/

/-- CFG_REFUSED's byte for a matrix page (R342, R361). -/
def State.tchBad (s : State) (p : Nat) : Option Nat :=
  let q := tchP p
  let r := fun (f : Fld) => s.rd q f
  let fl := s.freqs p
  let fmin := fl.foldl (fun t k => min t (r (TCH_FREQ_KHZ k))) 500
  let pages := 1 + ((upTo 2).filter fun k => decide (k ≠ p) && s.enabled (tchP k)).length
  let out := fun (v lo hi : Nat) => decide (v < lo) || decide (hi < v)
  if out (r TCH_MATRIX_DRIVES) 1 48 || out (r TCH_MATRIX_SENSES) 1 80 || out (r TCH_SCAN_RATE) 30 240 ||
      out (r TCH_SCAN_DWELL) 4 255 || out (r TCH_SCAN_INIT) 1 15 || out (r TCH_SCAN_DEBOUNCE) 1 7 ||
      decide (r TCH_THRESH_OFF = 0) || decide (r TCH_THRESH_ON ≤ r TCH_THRESH_OFF) || out (r TCH_ANTI_FRAMES) 1 15 ||
      decide (r TCH_ANTI_DRIFT = 0) || out (r TCH_CONTACT_MAX) 1 10 || (upTo 8).any fun k => out (r (TCH_FREQ_KHZ k)) 50 500 then
    some 0
  else if fl.isEmpty then some 2
  else if 1000000000 * fmin < (r TCH_MATRIX_DRIVES + 2) * (r TCH_SCAN_DWELL * 1000000 + 5000 * fmin) * r TCH_SCAN_RATE then some 1
  else if !s.hasPart 4 (65536 * pages) then some 3
  else none

/-- CFG_REFUSED's byte for the key page (R360, R361). -/
def State.keyBad (s : State) : Option Nat :=
  let r := fun (f : Fld) => s.rd keyP f
  let gs := s.keyGroups
  if r TCH_KEY_SCAN_RATE < 10 ∨ 200 < r TCH_KEY_SCAN_RATE ∨ r TCH_KEY_SCAN_LIMIT = 0 ∨ r TCH_KEY_THRESH_OFF = 0 ∨
      r TCH_KEY_THRESH_ON ≤ r TCH_KEY_THRESH_OFF ∨ r TCH_KEY_ANTI_FRAMES = 0 ∨ r TCH_KEY_ANTI_DRIFT = 0 ∨
      ((upTo 8).any fun g => decide (r (TCH_GROUP_KIND g) = 3)) ∨ (gs.any fun g => decide (g.2.2.1 < 3) || decide (8 < g.2.2.1)) then
    some 0
  else if (gs.any fun g => decide (32 < g.2.1 + g.2.2.1)) ∨ (gs.any fun g => gs.any fun h =>
      decide (g.1 < h.1) && decide (g.2.1 < h.2.1 + h.2.2.1) && decide (h.2.1 < g.2.1 + g.2.2.1)) then some 4
  else none

/-- Enable a TCH page (R342, R344, R360). -/
def State.tchEnable (s : State) (p : Nat) : State :=
  let q := tchP p
  match (if p = 2 then s.keyBad else s.tchBad p) with
  | some c => s.emit q 0x2001 [c]
  | none =>
    let s := s.wb q HDR_CTRL_ENABLE true
    if p = 2 then { s with keys := { s.keys with init := some 0, sums := [], anti := [], drift := 0, on := [], suppressed := [], seq := 0 } }
    else
      let s := s.setTch p { tch0 with zones := s.zonesOf p, lastSet := s.time.run }
      let s := if (s.freqs p).contains (s.rd q TCH_HOP_CUR) then s else s.wr q TCH_HOP_CUR ((s.freqs p).headD 0)
      s.captureStart p

/-- Disable a TCH page. -/
def State.tchDisable (s : State) (p : Nat) : State :=
  let s := s.wb (tchP p) HDR_CTRL_ENABLE false
  if p = 2 then
    let s := (upTo 32).foldl (fun s k => (s.wb keyP (TCH_KEY_ON k) false).wb keyP (TCH_KEY_STUCK k) false) s
    let s := (upTo 8).foldl (fun s g => s.wb keyP (TCH_GROUP_ACTIVE g) false) s
    { s with keys := { s.keys with init := none, on := [], suppressed := [] } }
  else (s.nodesQuiet p).setTch p tch0

end Sys2Proof.Machine
end

