-- ==== Sys2Proof/Machine/Snap.lean ====
section
/-! DEFINITION. Snapshot sections of a team (R374): what the lead sends and the wheel takes. The spec names each section's contents
and leaves their layout to Quinac's images; the layout here is the model's own. -/

namespace Sys2Proof.Machine

/-- Take a fixed number of bytes off a list. -/
def takeN (n : Nat) (l : List Nat) : Nat × List Nat := (ofLE (l.take n), l.drop n)

/-- Fixed-size entries of a section. -/
def entries (n : Nat) (l : List Nat) : List (List Nat) := chunks n (l.length / n) l

/-- Section 0: s of each enabled head. -/
def State.snap0 (s : State) : List Nat := s.heads.flatMap fun (e : Nat × HeadSt) => e.1 :: le e.2.s 4

/-- Section 1: SEEN, RUN, RUN_TC and the admitted frame's TC, FSEQ and flags of each enabled stall. -/
def State.snap1 (s : State) : List Nat :=
  ((upTo 4096).filter fun n => decide (s.rdAct (stallE n) STL_W00_EN = 1)).flatMap fun n =>
    let p := stallE n
    let x := s.stallSt n
    le n 2 ++ [b2n (s.on p STL_ST_SEEN) + 2 * b2n (s.on p STL_ST_RUN) + 4 * b2n x.est + 8 * b2n x.frozen] ++
      le (s.rd64 p STL_RUN_TC_LO_T STL_RUN_TC_HI_T) 8 ++ le (s.rd64 p STL_LAST_TC_LO_T STL_LAST_TC_HI_T) 8 ++
      le (s.rd p STL_LASTF_LAST_FSEQ) 4

/-- An optional number as a presence byte and the value. -/
def optLE (n : Nat) (o : Option Nat) : List Nat := b2n o.isSome :: le (o.getD 0) n

/-- Section 2: the ingress state of each enabled feed. -/
def State.snap2 (s : State) : List Nat :=
  s.feeds.flatMap fun (e : Nat × FeedSt) =>
    let x := e.2
    let r := x.reports.headD ⟨0, 0, 0, 0⟩
    le e.1 2 ++ optLE 4 x.ssrc ++ optLE 16 x.src ++ optLE 8 x.maxSeq ++ le x.baseSeq 8 ++ optLE 8 x.prevHigh ++
      le x.admitted 8 ++ le x.lastA 8 ++ [b2n x.gap + 2 * b2n x.resync + 4 * b2n x.pset + 8 * b2n (!x.reports.isEmpty)] ++
      le r.rx 8 ++ le (uint 64 r.t) 8 ++ le r.r 4 ++ le r.ntpMid 4

/-- Bytes of a feed's entry. -/
def snap2Len : Nat := 2 + 5 + 17 + 9 + 8 + 9 + 8 + 8 + 1 + 24

/-- A contact's bytes. -/
def contactBytes (c : Contact) : List Nat :=
  [c.id] ++ le c.node 2 ++ le c.sx 2 ++ le c.sy 2 ++ le c.strength 4 ++ le c.count 4 ++ le c.td 8 ++
    [b2n c.q + 2 * b2n c.lostQ + 4 * b2n c.confirmed + 8 * b2n c.suppressed + 16 * b2n c.stuck + 32 * b2n c.skipped] ++
    le c.sx0 2 ++ le c.sy0 2 ++ le c.str0 4

/-- Section 3: baselines, COMP, node states and contacts of each mirrored touch port. -/
def State.snap3 (s : State) : List Nat :=
  ((upTo 2).filter fun p => bit (s.rd ykP YK_CFG_MIRROR_OUT) p && s.enabled (tchP p)).flatMap fun p =>
    let cs := (s.tchSt p).contacts
    [p, cs.length] ++ ((upTo 3840).flatMap fun n =>
      let e := touchE p n
      le (s.rd e TCHN_A_BASE) 2 ++ [s.rd e TCHN_B_COMP, b2n (s.on e TCHN_B_SAT) + 2 * b2n (s.on e TCHN_B_STUCK) +
        4 * b2n (s.on e TCHN_B_TOUCHED) + 8 * b2n (s.on e TCHN_B_ANTI)]) ++ cs.flatMap contactBytes

/-- Section 4: pictures since IDR and the window history of each enabled channel. -/
def State.snap4 (s : State) : List Nat :=
  s.enc.flatMap fun (e : Nat × EncCh) =>
    le e.1 2 ++ le e.2.sinceIdr 4 ++ le e.2.win.length 2 ++ e.2.win.flatMap fun v => le v 4

/-- A section's bytes as they stand. -/
def State.snap (s : State) (k : Nat) : List Nat :=
  match k with
  | 0 => s.snap0
  | 1 => s.snap1
  | 2 => s.snap2
  | 3 => s.snap3
  | _ => s.snap4

/-- Send one section in SNAP frames (R368): 2,048 bytes at most in each; section 2 as it stood at J (R374). -/
def State.snapSection (s : State) (k : Nat) : State :=
  let d := if k = 2 then Store.getD s.snap2 20 s.yoke.snaps else s.snap k
  (upTo (max 1 ((d.length + 2047) / 2048))).foldl (fun s i =>
    s.ykSend 4 1 ([k, Config.snapVersion % 256, 0, 0] ++ le (2048 * i) 4 ++ le d.length 4 ++ (d.drop (2048 * i)).take 2048)) s

/-- The lead's sections at the first cut of a canvas after J (R374). -/
def State.snapSend (s : State) (e c : Nat) : State :=
  let k := 100 + 64 * e + c
  match s.yoke.join with
  | none => s
  | some j =>
    if s.yoke.state ≠ 4 ∨ !s.isSeq ∨ s.now ≤ j ∨ (Store.find k s.yoke.snaps).isSome then s
    else
      let s := s.yk fun y => { y with snaps := Store.put k [] y.snaps }
      (upTo 5).foldl State.snapSection s

/-! ### The wheel -/

/-- Apply section 1 to the stalls of a canvas, at its cut. -/
def State.snapCut (s : State) (c : Nat) : State :=
  match Store.find 11 s.yoke.snaps with
  | none => s
  | some d =>
    let l := entries 23 d
    let mine := fun (x : List Nat) => decide (s.rdAct (stallE (num x 0 2)) STL_W00_CANVAS = c)
    let s := (l.filter mine).foldl (fun s x =>
      let n := num x 0 2
      let p := stallE n
      let f := x.getD 2 0
      let s := (s.wb p STL_ST_SEEN (bit f 0)).wb p STL_ST_RUN (bit f 1)
      let s := (s.wr64 p STL_RUN_TC_LO_T STL_RUN_TC_HI_T (num x 3 8)).wr64 p STL_LAST_TC_LO_T STL_LAST_TC_HI_T (num x 11 8)
      (s.wr p STL_LASTF_LAST_FSEQ (num x 19 4)).setStallSt n { s.stallSt n with est := bit f 2, frozen := bit f 3 }) s
    let rest := (l.filter fun x => !mine x).flatMap id
    s.yk fun y => { y with snaps := if rest.isEmpty then Store.del 11 y.snaps else Store.put 11 rest y.snaps }

/-- An optional number read back. -/
def getOpt (x : List Nat) (o n : Nat) : Option Nat := if x.getD o 0 = 0 then none else some (num x (o + 1) n)

/-- Apply one feed's entry of section 2. -/
def State.snapFeed (s : State) (x : List Nat) : State :=
  let f := num x 0 2
  match Store.find f s.feeds with
  | none => s
  | some st =>
    let fl := x.getD 66 0
    let r : List SrRep := if bit fl 3 then [⟨num x 67 8, sint 64 (num x 75 8), num x 83 4, num x 87 4⟩] else []
    s.setFeed f { st with
      ssrc := getOpt x 2 4, src := getOpt x 7 16, maxSeq := getOpt x 24 8, baseSeq := num x 33 8, prevHigh := getOpt x 41 8,
      admitted := num x 50 8, lastA := num x 58 8, gap := bit fl 0, resync := bit fl 1, pset := bit fl 2, reports := r }

/-- Read a contact back; the judgement at Td is made again. -/
def State.snapContact (s : State) (p : Nat) (zones : List Zone) (x : List Nat) : Contact × State :=
  let f := x.getD 23 0
  let (j, s) := s.judgePos p zones (num x 15 8) (num x 24 2) (num x 26 2)
  (⟨x.getD 0 0, num x 1 2, num x 3 2, num x 5 2, num x 7 4, num x 11 4, num x 15 8, bit f 0, bit f 1, bit f 2, bit f 3, bit f 4,
    bit f 5, num x 24 2, num x 26 2, num x 28 4, j⟩, s)

/-- Apply one port of section 3. -/
def State.snapPort (s : State) (p : Nat) (nodes contacts : List Nat) : State :=
  if !s.mirrorIn p || !s.enabled (tchP p) then s
  else
    let s := (entries 4 nodes).zipIdx.foldl (fun s x =>
      let e := touchE p x.2
      let f := x.1.getD 3 0
      ((((s.wr e TCHN_A_BASE (num x.1 0 2)).wr e TCHN_B_COMP (x.1.getD 2 0)).wb e TCHN_B_SAT (bit f 0)).wb e TCHN_B_STUCK
        (bit f 1)).wb e TCHN_B_TOUCHED (bit f 2) |>.wb e TCHN_B_ANTI (bit f 3)) s
    let zones := (s.tchSt p).zones
    let (l, s) := (entries 32 contacts).foldl (fun (r : List Contact × State) x =>
      let q := r.2.snapContact p zones x
      (r.1 ++ [q.1], q.2)) ([], s)
    s.setTch p { s.tchSt p with contacts := l, init := none }

/-- Section 3 waits, by port, for the port's next scan frame: nodes and contacts. -/
def State.snapPorts (s : State) : Nat → List Nat → State
  | 0, _ => s
  | k + 1, d =>
    if d.isEmpty then s
    else
      let n := 15362 + 32 * d.getD 1 0
      (s.yk fun y => { y with snaps := Store.put (30 + d.getD 0 0 % 2) (d.take n) y.snaps }).snapPorts k (d.drop n)

/-- A scan frame of port `p` applies its part of section 3 first (R374). -/
def State.snapTouch (s : State) (p : Nat) : State :=
  match Store.find (30 + p) s.yoke.snaps with
  | none => s
  | some d =>
    let s := s.yk fun y => { y with snaps := Store.del (30 + p) y.snaps }
    s.snapPort p ((d.drop 2).take 15360) (d.drop 15362)

/-- Section 4 waits, by channel, for the channel's next picture (R374). -/
def State.snapChannels (s : State) : Nat → List Nat → State
  | 0, _ => s
  | k + 1, d =>
    if d.isEmpty then s
    else
      let n := 8 + 4 * num d 6 2
      (s.yk fun y => { y with snaps := Store.put (snapChan (num d 0 2)) (d.take n) y.snaps }).snapChannels k (d.drop n)

/-- A whole section has arrived at the wheel: section 2 is applied before the first entry after J, the others at their moments (R374). -/
def State.snapApply (s : State) (k : Nat) (d : List Nat) : State :=
  match k with
  | 0 => s.yk fun y => { y with newS := (entries 5 d).foldl (fun t x => Store.put (x.getD 0 0) (num x 1 4) t) y.newS }
  | 1 => s.yk fun y => { y with snaps := Store.put 11 d y.snaps }
  | 2 => (((entries snap2Len d).foldl State.snapFeed s).yk fun y => { y with snaps := Store.put 21 [] y.snaps }).laterGo
  | 3 => s.snapPorts 2 d
  | _ => s.snapChannels 64 d

/-- A SNAP frame (R368, R374): pieces gather until the section is whole; an unknown version sends the link down. -/
def State.snapFrame (s : State) (d : List Nat) : State :=
  let k := d.getD 0 0
  let off := num d 4 4
  let len := num d 8 4
  if !Config.snapAccepts (d.getD 1 0) then s.ykDown 3
  else if s.isSeq ∨ 4 < k then s
  else
    let have_ := if off = 0 then [] else Store.getD [] k s.yoke.snaps
    if have_.length ≠ off then s
    else
      let all := have_ ++ (d.drop 12).take (min 2048 (len - off))
      if len ≤ all.length then (s.yk fun y => { y with snaps := Store.del k y.snaps }).snapApply k all
      else s.yk fun y => { y with snaps := Store.put k all y.snaps }

end Sys2Proof.Machine
end

