-- ==== Sys2Proof/Machine/TimeStep.lean ====
section
/-! DEFINITION. Steps of yard time (R156 to R158) and the time inputs' captures (R170). -/

namespace Sys2Proof.Machine

/-- Largest yard time in ns (R153). -/
def ytMax : Nat := 2 ^ 64 - 1

/-- Epoch `n`, whose cut a step has passed, is the first since a commit took effect (R265): the canvas's size reaches the heads at its r_n, at once
where that is past too. -/
def State.passedReach (s : State) (e c n : Nat) : State :=
  let v := s.cvAct e c
  let k := s.cv e c
  if !s.cvOn e c ∨ k.reached = some (v.w, v.h) then s
  else
    let x : EpochSt := ⟨n, v.cut n, v.cut n + v.lead * 10000, none, none, [], some 5, 0, false, (v.w, v.h)⟩
    if x.ready ≤ s.now then s.reachHeads e c x.size else s.setCv e c { k with begun := k.begun ++ [x] }

/-- Yard time has moved forward from `old` in one cycle: output edges and epoch cuts strictly between are passed (R156). -/
def State.timeMoved (s : State) (old : Nat) : State :=
  let s := s.stepOutputs old
  (upTo 2).foldl (fun s e => (upTo 64).foldl (fun s c =>
    let was := s.cvOn e c
    if was && decide ((s.cvAct e c).cut (s.cv e c).next < s.now) then
      let n := (s.cv e c).next
      let s := ((s.epochsPassed e c).canvasChanged e c was).passedReach e c n
      s.epochsMissedSum c n (b2n (s.crcHeld c)) ((s.cv e c).next - n)
    else s) s) s

/-- A forward step that passes PWR_WAKE_AT wakes the device (R447). -/
def State.alarmPassed (s : State) (old : Nat) : State :=
  let a := s.rd64 pwrP PWR_WAKE_AT_LO_T PWR_WAKE_AT_HI_T
  if s.on pwrP PWR_WAKE_EN_ALARM ∧ old < a ∧ a ≤ s.now then s.wake 3 else s

/-- Move yard time forward by `d` sub-units in one cycle. -/
def State.timeJump (s : State) (d : Nat) : State :=
  let old := s.now
  { s with time := { s.time with yt := min (s.time.yt + d) (ns ytMax) } }.timeMoved old |>.alarmPassed old

/-- Apply a step of `x` ns once yard time has been set (R156): a forward step reduces TB_SLEW first, a backward one adds to
it. -/
def State.stepApply (s : State) (x : Int) : State :=
  if x < 0 then { s with time := { s.time with slew := s.time.slew + ns x.natAbs } }
  else
    let d := ns x.toNat
    let a := min d s.time.slew
    let s := { s with time := { s.time with slew := s.time.slew - a } }
    if a < d then s.timeJump (d - a) else s

/-- The first step out of UNSET (R156): yard time moves either way, clamped to 0 to 2^64 − 1; STATE becomes ACQUIRING. -/
def State.stepFirst (s : State) (x : Int) : State :=
  let old := s.now
  let yt := (clamp 0 (ns ytMax) ((s.time.yt : Int) + x * subNs)).toNat
  let s := { s with time := { s.time with yt := yt } }
  let s := if old < s.now then (s.timeMoved old).alarmPassed old else s
  (s.setTbState 1).emit tb 0x0001 (le (uint 64 ((s.now : Int) - old)) 8)

/-- Whether the pending step shows in TB_PEND and STATUS.STEP_PENDING. -/
def State.setPend (s : State) (p : Option Int) : State :=
  let v := match p with
    | some x => uint 64 x
    | none => 0
  ({ s with time := { s.time with pend := p } }.wr64 tb TB_PEND_LO_S TB_PEND_HI_S v).wb tb TB_STATUS_STEP_PENDING p.isSome

/-- Judge a step of `x` ns (R156). -/
def State.stepJudge (s : State) (x : Int) : State :=
  if s.rd tb TB_STATUS_STATE = 0 then s.stepFirst x
  else if x.natAbs ≤ s.rd tb TB_JUMP_THRESH then (s.stepApply x).emit tb 0x0001 (le (uint 64 x) 8)
  else (s.setPend (some x)).emit tb 0x0801 (le (uint 64 x) 8 ++ le (uint 16 x) 2)

/-- R156, R158 TIME_STEP_REQUEST: the write of TB_STEP_HI. -/
def execTimeStepRequest (w : Writer) (hi : Word) (s : State) : Host.Outcome State Fault Refusal :=
  done (if s.tbWriterOk w then s.stepJudge (sint 64 (s.time.stepLo + 2 ^ 32 * hi.toNat)) else s.wrongWriter w 0x114)

/-- A TB_ACCEPT write is judged: the pending step where writer and KEY are right (R157). -/
def State.acceptTest (s : State) (w : Writer) (key : Nat) : Option Int × State :=
  if w ≠ .host ∧ w ≠ .mss then (none, s.wrongWriter w 0x124)
  else match s.time.pend with
    | some x => if uint 16 x = key then (some x, s) else (none, s.wrongKey w)
    | none => (none, s.wrongKey w)

/-- R157 STEP_ACCEPT. -/
def execStepAccept (w : Writer) (key : BitVec 16) (s : State) : Host.Outcome State Fault Refusal :=
  done (match s.acceptTest w key.toNat with
    | (some x, s) => ((s.setPend none).stepApply x).emit tb 0x1001 (le (uint 64 x) 8)
    | (none, s) => s)

/-- R157 STEP_DISCARD. -/
def execStepDiscard (w : Writer) (key : BitVec 16) (s : State) : Host.Outcome State Fault Refusal :=
  done (match s.acceptTest w key.toNat with
    | (some _, s) => s.setPend none
    | (none, s) => s)

end Sys2Proof.Machine
end

