-- ==== Sys2Proof/Machine/Team.lean ====
section
/-! DEFINITION. The yoke link, pairing and joining, the ingress sequencer, mirrored touch and the yardmaster's messages (R366 to
R388). -/

namespace Sys2Proof.Machine

/-! ### Link-up and HELLO (R368, R373) -/

/-- The HELLO payload. -/
def State.helloBytes (s : State) : List Nat :=
  le s.node 2 ++ [s.claim, s.yoke.state] ++ le s.capsWord 4 ++ ((upTo 5).flatMap fun v => le (s.rd ykP (YK_VC_BUF_UNITS v)) 2) ++
    le Config.snapVersion 2 ++ le 0 4

/-- The other device of this unit's team (R28, R373). -/
def State.teamMate (s : State) : Nat := if s.node % 2 = 0 then s.node + 1 else s.node - 1

/-- R373 YOKE_TRAIN: lanes that align under R286 make the link, at the largest width of 4, 2 and 1; HELLO goes out, its credit
taken against the grant to come. Training waits for the retry time, and for a node ID (R29). -/
def execYokeTrain (aligned : BitVec 4) (s : State) : Host.Outcome State Fault Refusal :=
  let w := if aligned.toNat = 15 then 4 else if aligned.toNat % 4 = 3 then 2 else if aligned.toNat % 2 = 1 then 1 else 0
  done (if s.yoke.state ≠ 2 ∨ !s.on 0 SYS_NODE_VALID ∨ s.yoke.link ∨ w = 0 ∨ s.time.run < s.yoke.retryAt then s
    else
      let s := s.yk fun y => { y with link := true, width := w, lastRx := s.time.run }
      (if w < 4 then s.emit ykP 0x1801 [w] else s).ykPush 2 1 s.helloBytes)

/-- A valid HELLO pairs the units (R372 to R374): credits, contact, PAIRED, PARTNER_FOUND, CAPS_DIFFER, the tie test, time. -/
def State.pair (s : State) (d : List Nat) : State :=
  let caps := num d 4 4
  let s := ((s.wr ykP YK_PARTNER_NODE (num d 0 2)).wb ykP YK_PARTNER_VALID true).wr ykP YK_PARTNER_CAPS_CAPS caps
  let s := s.wr ykP YK_CLAIM_PARTNER (d.getD 2 0)
  let s := (upTo 5).foldl (fun s v =>
    s.wr ykP (YK_VC_CRED_HELD v) (num d (8 + 2 * v) 2 - s.rd ykP (YK_VC_CRED_OUT v))) s
  let s := s.yk fun y => { y with
    own := [], partner := [], counts := [], lastLine := [], k := 0, merge := [], mark := 0, kept := [], join := none, clean := [], runs := [],
    hand := 0, later := none, newS := [], misF := [], snaps := [], t1p := none, offOk := none, offBad := none }
  let s := (s.ykState 3).report 17 0xFF 0xFFFF 0 0 0 0
  let s := if caps = s.capsWord then s
    else (s.emit ykP 0x3801 (le s.capsWord 4 ++ le caps 4)).report 21 0xFF 0xFFFF 0 s.capsWord caps 0
  s.tieCheck.timeRole

/-- A HELLO (R373): one that names another node than the partner sends the link down. -/
def State.helloFrame (s : State) (d : List Nat) : State :=
  if num d 0 2 ≠ s.teamMate ∨ !s.on 0 SYS_NODE_VALID then s.ykDown 3
  else if s.yoke.state = 2 then s.pair d else s

/-! ### Check and control frames -/

/-- LINE_CRC values. -/
def State.lineCrcs (s : State) (d : List Nat) : State :=
  (upTo (d.getD 1 0)).foldl (fun s i =>
    s.chkPartner ⟨0, d.getD 0 0, num d 4 4, num d 2 2 + i, [num d (8 + 4 * i) 4], 0⟩) s

/-- The partner's claim, from HELLO or CLAIM: the tie test and a change of role follow. -/
def State.claimFrame (s : State) (v : Nat) : State :=
  let was := s.isSeq
  let s := s.wr ykP YK_CLAIM_PARTNER v
  (s.roleChange was).tieCheck

/-- The offset enters or leaves the limit (R374, R376). Beyond it for 1 s in IN_STEP it is a TIME divergence. -/
def State.offsetJudge (s : State) (off : Int) : State :=
  let lim := s.rd ykP YK_TIME_LIMIT_NS
  if off.natAbs ≤ lim then s.yk fun y => { y with offOk := some (y.offOk.getD s.time.run), offBad := none }
  else
    let s := s.yk fun y => { y with offOk := none, offBad := some (y.offBad.getD s.time.run) }
    match s.yoke.offBad with
    | some t =>
      if s.yoke.state = 5 ∧ t + ns 1000000000 ≤ s.time.run then
        (s.yk fun y => { y with offBad := some s.time.run }).diverge 7 0xFF 0xFFFF 0 (uint 64 off) 0
      else s
    | none => s

/-- A trim of TB_RATE that holds the offset within ±10 ns: the spec gives no control law, so the rate is a free value. -/
def State.yokeTrim (s : State) : State :=
  let (v, s) := s.draw
  s.wr tb TB_RATE_RATE v

/-- A TIME frame (R376): both units form the offset, lead minus wheel; the wheel trims, or steps yard time by it. Each TIME frame
that finds a step pending is reported. -/
def State.timeFrame (s : State) (d : List Nat) : State :=
  let t3 := num d 0 8
  let t1 := num d 8 8
  let t2 := num d 16 8
  let s := s.yk fun y => { y with t1p := some (t3, s.now) }
  if t2 = 0 ∨ !s.inTeam then s
  else
    let raw := floorDiv (((t2 : Int) - t1) - ((s.now : Int) - t3)) 2
    let off := if s.isSeq then -raw else raw
    let s := (s.wr ykP YK_TIME_OFF_NS (uint 32 (clamp (-2 ^ 31) (2 ^ 31 - 1) off))).offsetJudge off
    if s.isSeq ∨ s.rd tb TB_CTRL_MODE ≠ 2 then s
    else
      let s := if off.natAbs ≤ 10 then s.yokeTrim else s.stepJudge off
      if s.time.pend.isSome then s.report 22 0xFF 0xFFFF 0 (uint 64 off) 0 0 else s

/-! ### The ingress sequencer (R377, R378) -/

/-- Insert an entry ordered by (M, ORIGIN, origin order): the lead's before the wheel's. -/
def mergeInsert (e : MergeEnt) : List MergeEnt → List MergeEnt
  | [] => [e]
  | x :: t => if e.m < x.m ∨ (e.m = x.m ∧ e.origin < x.origin) then e :: x :: t else x :: mergeInsert e t

/-- A frame arrives at the sequencer: in time it keeps T; late it takes now. -/
def State.mergeArrive (s : State) (origin fnum : Nat) (x : PktSlot) : State :=
  let late := decide (x.stamp + 1000 * s.rd ykP YK_MERGE_WIN < s.now)
  let s := if late then s.cnt ykP YK_MERGE_LATE_COUNT 1 else s
  let e : MergeEnt := ⟨if late then s.now else x.stamp, x.stamp, origin, fnum, x⟩
  s.yk fun y => { y with merge := mergeInsert e y.merge }

/-- Drop a kept frame: its packet slot is freed. -/
def State.keptDrop (s : State) (x : PktSlot) : State := { s with pkts := s.pkts.filter fun p => decide (p.slot ≠ x.slot) }

/-- A frame that the partner forwarded, held in the YOKE partition: its number stands above every packet slot's. -/
def remotePkt (n : Nat) (t feed port : Nat) (rtcp : Bool) (fr : NetFrame) : PktSlot :=
  ⟨remoteBase + n, port, 3, feed, rtcp, false, t, fr⟩

/-- The forwarded frame is an RTCP packet: it goes to the feed's RTCP port (R183, R193). -/
def State.fwdRtcp (s : State) (f : Nat) (fr : NetFrame) : Bool :=
  match fr.udp with
  | some u => if u.dport = s.rd (feedE f) FEEDD_W08_UDP_PORT then
      s.on (feedE f) FEEDD_W00_MUX && decide (200 ≤ u.payload.getD 1 0) && decide (u.payload.getD 1 0 ≤ 204) else true
  | none => false

/-- FWD, wheel to lead: the frame keeps its credits until ingress has done with it (R371). -/
def State.fwdFrame (s : State) (d : List Nat) (fr : Option NetFrame) : State :=
  match fr with
  | none => s.creditBack 0 (creditsOf d.length)
  | some x =>
    if !s.isSeq then s.creditBack 0 (creditsOf d.length)
    else
      let f := num d 12 2
      let x := { x with raw := (d.drop 32).take (num d 16 2) }
      s.mergeArrive 1 (num d 8 4) (remotePkt (num d 8 4) (num d 0 8) f (d.getD 14 0) (s.fwdRtcp f x) x)

/-- A merged entry reaches the wheel's ingress; after J it waits for the feeds' state at J (R374). -/
def State.mergedIn (s : State) (m : Nat) (x : PktSlot) : State :=
  match s.yoke.later, s.yoke.join with
  | some l, some j => if j < m then s.yk fun y => { y with later := some (l ++ [(m, x)]) } else s.toIngress m x
  | _, _ => s.toIngress m x

/-- MERGE, lead to wheel: a wheel origin names a frame that the wheel kept; a lead's frame keeps its credits until ingress has done
with it. -/
def State.mergeFrame (s : State) (d : List Nat) (fr : Option NetFrame) : State :=
  let m := num d 0 8
  let k := num d 8 4
  let f := num d 12 2
  let s := s.yk fun y => { y with k := k }
  let back := s.creditBack 0 (creditsOf d.length)
  if d.getD 14 0 = 1 then
    match takeFirst (fun (e : Nat × PktSlot) => decide (e.1 = num d 20 4)) s.yoke.kept with
    | some (e, t) => (back.yk fun y => { y with kept := t }).mergedIn m e.2
    | none => back
  else match fr with
    | some x =>
      let x := { x with raw := (d.drop 32).take (num d 16 2) }
      s.mergedIn m (remotePkt k m f 0 (s.fwdRtcp f x) x)
    | none => back

/-- The FWD frame of forward number `n` has not been acknowledged: it is on its way, or waits for credit. -/
def State.fwdOpen (s : State) (n : Nat) : Bool :=
  let x := s.vc 0
  (x.unacked.any fun f => decide (f.typ = 1) && decide (num f.data 8 4 = n)) ||
    x.wait.any fun e => decide (e.1 = 1) && decide (num e.2.1 8 4 = n)

/-- MARK: the wheel judges A by its T, and drops the frames whose window it passes, once their FWD has been acknowledged. -/
def State.markFrame (s : State) (d : List Nat) : State :=
  let t := num d 0 8
  let gone := fun (e : Nat × PktSlot) => decide (e.2.stamp + 1000 * s.rd ykP YK_MERGE_WIN < t) && !s.fwdOpen e.1
  let s := (s.yoke.kept.filter gone).foldl (fun s e => s.keptDrop e.2) s
  s.yk fun y => { y with mark := max t y.mark, kept := y.kept.filter fun e => !gone e }

/-- HANDOVER at the new lead (R378): its sequencer starts after T; its own frames not named yet, and entries not after T, re-enter as late
arrivals. -/
def State.handoverFrame (s : State) (d : List Nat) : State :=
  let t := num d 0 8
  let s := s.yk fun y => { y with mark := max t y.mark, k := num d 8 4, hand := if y.hand = 1 then 0 else 2 }
  let early := s.yoke.merge.filter fun e => decide (e.m ≤ t)
  let late := s.yoke.kept.map (fun e => MergeEnt.mk s.now e.2.stamp 0 0 e.2) ++ early.map fun e => { e with m := s.now }
  let s := s.cnt ykP YK_MERGE_LATE_COUNT late.length
  s.yk fun y => { y with kept := [], merge := late.foldl (fun l e => mergeInsert e l) (y.merge.filter fun e => decide (t < e.m)) }

/-! ### Mirrored touch (R369, R383) -/

/-- Credits of the fragments that a set holds. -/
def SampleSet.credits (x : SampleSet) : Nat :=
  x.frags.foldl (fun t e => t + creditsOf (24 + (2 * e.2.length + 3) / 4 * 4)) 0

/-- A complete set runs as the page's scan frame. -/
def State.samplesRun (s : State) (p : Nat) (x : SampleSet) : State :=
  let drives := s.rd (tchP p) TCH_MATRIX_DRIVES
  let m := (x.frags.flatMap (·.2)).take (80 * drives)
  let s := ((s.setTch p { s.tchSt p with samples := none, lastSet := s.time.run }).snapTouch p).latchFrame p
  let s := if (s.freqs p).contains x.freq then s.wr (tchP p) TCH_HOP_CUR x.freq else s
  s.scanFrame p x.at_ true m (s.nextCand p) x.cur x.cand

/-- A SAMPLES frame: fragments gather until the set is complete; a later scan frame's discards an incomplete set. -/
def State.samplesFrame (s : State) (d : List Nat) : State :=
  let p := d.getD 0 0
  let back := creditsOf d.length
  if 2 ≤ p ∨ !s.mirrorIn p ∨ !s.enabled (tchP p) then s.creditBack 3 back
  else
    let t := num d 8 8
    let fresh : SampleSet := ⟨t, d.getD 7 0, d.getD 1 0, num d 16 4, num d 20 4, []⟩
    let (x, s) := match (s.tchSt p).samples with
      | some x => if x.at_ = t then (x, s) else (fresh, s.creditBack 3 x.credits)
      | none => (fresh, s)
    let l := (upTo (num d 4 2)).map fun i => num d (24 + 2 * i) 2
    let x := { x with frags := Store.put (d.getD 6 0) l x.frags }
    if x.count ≤ x.frags.length then (s.creditBack 3 x.credits).samplesRun p x
    else s.setTch p { s.tchSt p with samples := some x }

/-- R345 SCAN_FRAME_END: the frame's measurements and listen figures; a calibration frame feeds only the farrier (R415). Without a
frame in progress nothing happens (log entry 3). -/
def execScanFrameEnd (p : Fin 2) (m : List Nat) (lcur lcand : Nat) (s : State) : Host.Outcome State Fault Refusal :=
  let i := p.val
  let x := s.tchSt i
  done (if !x.scanning then s
    else
      let s := s.setTch i { x with scanning := false }
      if x.calib then s
      else
        let ci := s.nextCand i
        let cur := s.rd (tchP i) TCH_HOP_CUR
        let t := s.now
        let m := x.measured m
        let s := s.scanFrame i t false m ci lcur lcand
        if bit (s.rd ykP YK_CFG_MIRROR_OUT) i && s.inTeam then
          (sampleFrames i cur t lcur lcand (m.take (80 * s.rd (tchP i) TCH_MATRIX_DRIVES))).foldl (fun s d => s.ykSend 3 1 d) s
        else s)

/-- R383 SAMPLES_LOST: 3 scan periods without a complete set. -/
def execSamplesLost (p : Fin 2) (s : State) : Host.Outcome State Fault Refusal :=
  let i := p.val
  let x := s.tchSt i
  done (if !s.enabled (tchP i) ∨ !s.mirrorIn i ∨ x.lost ∨ 2 ≤ s.pwrState then s
    else
      let s := s.advanceRun (x.lastSet + 3 * ns 1000000000 / max 1 (s.rd (tchP i) TCH_SCAN_RATE))
      let s := (s.mirrorEnd i s.now).emit ykP 0x2801 [i]
      (s.setTch i { s.tchSt i with lost := true }).captureStart i)

/-! ### Frames received (R370) -/

/-- Hand a frame delivered in order to its consumer (R368). Its buffer is freed at once, but for SAMPLES, whose set holds it, and
for the Ethernet frame of an FWD or MERGE. -/
def State.ykDeliver (s : State) (v typ : Nat) (d : List Nat) (fr : Option NetFrame) : State :=
  let s := if v = 3 ∨ (v = 0 ∧ (typ = 1 ∨ typ = 2)) then s else s.creditBack v (creditsOf d.length)
  match v, typ with
  | 0, 1 => s.fwdFrame d fr
  | 0, 2 => s.mergeFrame d fr
  | 0, 3 => s.markFrame d
  | 0, 4 => s.handoverFrame d
  | 1, 1 => s.lineCrcs d
  | 1, 2 => s.chkPartner ⟨1, d.getD 0 0, num d 4 4, 0, [d.getD 1 0, num d 2 2, num d 8 8, num d 16 4, num d 20 4], 0⟩
  | 1, 3 => s.chkPartner ⟨2, d.getD 0 0, num d 4 4, 0, [d.getD 1 0, num d 2 2, num d 8 4, num d 12 4], 0⟩
  | 2, 1 => s.helloFrame d
  | 2, 2 => s.claimFrame (d.getD 0 0)
  | 2, 3 => s.timeFrame d
  | 3, 1 => s.samplesFrame d
  | 4, 1 => s.snapFrame d
  | _, _ => s

/-- Deliver the frames of a channel that have come into order. -/
def State.ykInOrder (s : State) (v : Nat) : Nat → State
  | 0 => s
  | k + 1 =>
    let x := s.vc v
    match takeFirst (fun (f : YkFrame) => decide (f.seq = x.rx)) x.held with
    | none => s
    | some (f, t) =>
      let s := s.setVc v { x with rx := (x.rx + 1) % 2 ^ 32, held := t, ackDue := true }
      (s.ykDeliver v f.typ f.data f.frame).ykInOrder v k

/-- Resend a channel's frames that are not acknowledged (R370); one that has then been resent 8 times takes the link down. -/
def State.ykResend (s : State) (v : Nat) : State :=
  let x := s.vc v
  if x.unacked.isEmpty then s
  else
    let l := x.unacked.map fun f => { f with resent := f.resent + 1 }
    let s := l.foldl (fun s f => s.ykEmit f true) (s.setVc v { x with unacked := l, progress := s.time.run })
    if l.any fun f => decide (8 ≤ f.resent) then s.ykDown 1 else s

/-- The partner's ACK and NAK of channel `v`. -/
def State.ykAck (s : State) (v q : Nat) (nak : Bool) : State :=
  let x := s.vc v
  let left := x.unacked.filter fun f => decide ((0 : Int) < diff32 f.seq q)
  let s := if left.length < x.unacked.length then s.setVc v { x with unacked := left, progress := s.time.run } else s
  if nak then s.ykResend v else s

/-- The partner's credit count `c` for channel `v` (R371, R468): what it has grown by is held again. -/
def State.ykCredit (s : State) (v c : Nat) : State :=
  let n := (c + 2 ^ 16 - (s.vc v).seen) % 2 ^ 16
  let s := (s.wr ykP (YK_VC_CRED_HELD v) (s.rd ykP (YK_VC_CRED_HELD v) + n)).wr ykP (YK_VC_CRED_OUT v)
    (s.rd ykP (YK_VC_CRED_OUT v) - n)
  let s := s.setVc v { s.vc v with seen := c }
  s.ykDrain v (s.vc v).wait

/-- A data frame of channel `v`: accepted, held with a NAK due, or discarded. -/
def State.ykData (s : State) (v typ seq : Nat) (d : List Nat) (fr : Option NetFrame) : State :=
  let x := s.vc v
  let gap := diff32 seq x.rx
  if gap < 0 then s.setVc v { x with ackDue := true }
  else if gap = 0 then
    let s := s.setVc v { x with rx := (x.rx + 1) % 2 ^ 32, ackDue := true }
    (s.ykDeliver v typ d fr).ykInOrder v 16
  else if x.held.length < 16 ∧ !x.held.any fun f => decide (f.seq = seq) then
    s.setVc v { x with held := x.held ++ [⟨v, typ, seq, d, fr, 0⟩], ackDue := true, nak := true }
  else s.setVc v { x with ackDue := true, nak := true }

/-- R370 YOKE_FRAME_RECEIVE: a frame's bytes from the header to the CRC; `fr`: the Ethernet frame that an FWD or MERGE carries, as its
headers parse. The CRC's fold block names the sender, for a HELLO the node it names, and this unit. -/
def execYokeFrameReceive (bytes : List Nat) (fr : Option NetFrame) (s : State) : Host.Outcome State Fault Refusal :=
  let v := bytes.getD 0 0 % 8
  let typ := bytes.getD 1 0
  let len := num bytes 2 2
  let d := (bytes.drop 16).take len
  let from_ := if v = 2 ∧ typ = 1 then num d 0 2 else s.teamMate
  let ok := decide (bytes.length = 20 + len) && decide (num bytes (16 + len) 4 = crc32c (le from_ 2 ++ le s.node 2 ++ le 0 4 ++
    bytes.take (16 + len))) && decide (bytes.getD 0 0 / 16 % 16 = 1) && (decide (v < 5) || decide (v = 7))
  done (if !s.yoke.link || !ok then s
    else
      let (drop, s) := s.perturb ykP 1 (some v)
      if drop then s
      else
        let (slow, s) := s.perturb ykP 2 (some v)
        let s := if slow then s.advanceRun (s.time.run + ns (1000 * s.rd ykP PERTURB_AMOUNT)) else s
        let s := s.yk fun y => { y with lastRx := s.time.run }
        let a := bytes.getD 12 0
        let c := bytes.getD 13 0
        let s := if bit a 3 ∧ a % 8 < 5 then s.ykAck (a % 8) (num bytes 8 4) (bit a 4) else s
        let s := if bit c 7 ∧ c % 8 < 5 then s.ykCredit (c % 8) (num bytes 14 2) else s
        if v < 5 ∧ s.yoke.link then s.ykData v typ (num bytes 4 4) d fr else s)

/-! ### Timers of the link (R370, R375) -/

/-- R370 YOKE_ACK_TIMER: each channel's ACK and credit count go out, in LINK frames. -/
def execYokeAckTimer (s : State) : Host.Outcome State Fault Refusal :=
  done (if !s.yoke.link then s
    else (upTo 5).foldl (fun s v => s.ykEmitFor ⟨7, 1, 0, [], none, 0⟩ false (some v) v) s)

/-- R370 YOKE_REPLAY_TIMEOUT: 50 µs without progress of ACK on channel `v`. -/
def execYokeReplayTimeout (v : Fin 5) (s : State) : Host.Outcome State Fault Refusal :=
  done (if !s.yoke.link ∨ (s.vc v.val).unacked.isEmpty then s
    else (s.advanceRun ((s.vc v.val).progress + ns 50000)).ykResend v.val)

/-- R370 YOKE_SILENCE_TIMEOUT: 100 µs without a valid frame. -/
def execYokeSilenceTimeout (s : State) : Host.Outcome State Fault Refusal :=
  done (if !s.yoke.link then s else (s.advanceRun (s.yoke.lastRx + ns 100000)).ykDown 0)

/-- R373, R375 YOKE_RETRY: 1 s after the link went down a SPLIT unit returns to SEEKING; training may begin again. -/
def execYokeRetry (s : State) : Host.Outcome State Fault Refusal :=
  done (if s.yoke.link ∨ (s.yoke.state ≠ 2 ∧ s.yoke.state ≠ 6) then s
    else
      let s := s.advanceRun s.yoke.retryAt
      if s.yoke.state = 6 then s.ykState 2 else s)

/-- R376 YOKE_TIME_SEND. -/
def execYokeTimeSend (s : State) : Host.Outcome State Fault Refusal :=
  done (if !s.yoke.link ∨ !s.inTeam then s
    else
      let p := s.yoke.t1p.getD (0, 0)
      s.ykSend 2 3 (le s.now 8 ++ le p.1 8 ++ le p.2 8))

/-- R374, R375 YOKE_JOIN_START: the offset has stayed within the limit for 1 s and no step is pending. J is the T of the latest MARK;
the wheel's feeds restart and are concealed until their first IRAP picture. -/
def execYokeJoinStart (s : State) : Host.Outcome State Fault Refusal :=
  done (match s.yoke.offOk with
    | none => s
    | some t =>
      if s.yoke.state ≠ 3 ∨ s.time.pend.isSome then s
      else
        let s := s.advanceRun (t + ns 1000000000)
        let wait := !s.isSeq && (Store.find 21 s.yoke.snaps).isNone
        let late : Option (List (Nat × PktSlot)) := if wait then some [] else none
        let s := (s.yk fun y => { y with join := some y.mark, clean := [], runs := [], later := late }).ykState 4
        let s := if s.isSeq then s else s.feeds.foldl (fun s e => if (s.feedCtx e.1).isSome then s.decRestart e.1 false else s) s
        s.inStepCheck)

/-! ### Timers of the sequencer -/

/-- R377 FWD_DROP: the oldest FWD that waits for credit has waited 1 ms. -/
def execFwdDrop (s : State) : Host.Outcome State Fault Refusal :=
  let x := s.vc 0
  done (match takeFirst (fun (e : Nat × List Nat × Nat) => decide (e.1 = 1)) x.wait with
    | some (e, t) => ((s.advanceRun (e.2.2 + ns 1000000)).setVc 0 { x with wait := t }).cnt ykP YK_FWD_DROP_COUNT 1
    | none => s)

/-- R377, R378 MERGE_EMIT: yard time reaches M + WIN of the first pending entry; a new lead emits none before HANDOVER. -/
def execMergeEmit (s : State) : Host.Outcome State Fault Refusal :=
  done (match (if s.yoke.hand = 1 then [] else s.yoke.merge) with
    | [] => s
    | e :: t =>
      let s := s.advanceTo (e.m + 1000 * s.rd ykP YK_MERGE_WIN)
      let k := (s.yoke.k + 1) % 2 ^ 32
      let s := s.yk fun y => { y with k := k, merge := t }
      let raw := if e.origin = 0 then e.pkt.frame.raw else []
      let s := if !s.inTeam then s
        else s.ykSend 0 2 (le e.m 8 ++ le k 4 ++ le e.pkt.feed 2 ++ [e.origin, 0] ++ le raw.length 2 ++ le 0 2 ++
          le (if e.origin = 0 then 0 else e.fnum) 4 ++ le 0 8 ++ raw)
      s.toIngress e.m e.pkt)

/-- R377 MERGE_MARK_SEND: T is now − WIN. In PAIRED the lead keeps the feeds' state at the mark, which may become J (R374). -/
def execMergeMarkSend (s : State) : Host.Outcome State Fault Refusal :=
  done (if !s.inTeam ∨ !s.isSeq ∨ s.yoke.hand = 1 then s
    else
      let t := s.now - 1000 * s.rd ykP YK_MERGE_WIN
      let s := if s.yoke.state = 3 then s.yk fun y => { y with snaps := Store.put 20 s.snap2 y.snaps } else s
      (s.yk fun y => { y with mark := max t y.mark }).ykSend 0 3 (le t 8 ++ le s.yoke.k 4 ++ le 0 4))

/-! ### Canvas cuts in a team -/

/-- R234, R374 EPOCH_CUT: the wheel first takes the snapshot of the canvas's stalls; the lead sends its sections as they stand. An epoch
that does not begin is missed for the check values too (R380). -/
def execEpochCut (e : Fin 2) (c : Fin 64) (s : State) : Host.Outcome State Fault Refusal :=
  let was := s.cvOn e.val c.val
  let n := (s.cv e.val c.val).next
  let s1 := (if was then s.snapCut c.val else s).epochCut e.val c.val
  let s2 := s1.canvasChanged e.val c.val was
  let s2 := if was && decide ((s2.cv e.val c.val).next ≠ n) && decide ((s2.cv e.val c.val).begun.length = (s.cv e.val c.val).begun.length) then
      s2.epochsMissedSum c.val n (b2n (s2.crcHeld c.val)) 1
    else s2
  done (if was && decide ((s2.cv e.val c.val).next ≠ n) then s2.snapSend e.val c.val else s2)

/-! ### The yardmaster's messages (R384 to R388) -/

/-- R385, R394, R445 HEARTBEAT: INT ms after the last, whatever state YK is in, while the firmware is in service. An INT outside 10 to 1,000 counts as
the nearest value in range. -/
def execHeartbeat (s : State) : Host.Outcome State Fault Refusal :=
  let flags := b2n s.isLead + 2 * b2n s.isSeq + 4 * b2n (s.on 0 SYS_CAPS_DEGRADED) +
    8 * b2n (decide (s.rd (pg .sag 0) SAG_STAT_STATE ≠ 0)) + 16 * b2n ([1, 2, 3, 5, 7].contains (s.rd (pg .upd 0) UPD_STATE_STATE))
  done (if s.mss.hold ≠ 0 ∨ s.rd (pg .mss 0) MSS_BOOT_STAGE < 6 then s
    else
      let s := s.advanceRun (s.yoke.beat + ns (max 10 (min 1000 (s.rd ykP YK_HB_INT)) * 1000000))
      (s.yk fun y => { y with beat := s.time.run }).ymSend 1 (le s.yoke.nonce 8 ++ [s.claim, s.partnerClaim, s.yoke.state, flags] ++ le s.capsWord 4 ++
      le (if s.contact then s.rd ykP YK_PARTNER_NODE else 0xFFFF) 2 ++ [s.rd tb TB_STATUS_STATE, s.yoke.width] ++
      le s.yoke.divs 4))

/-- A new command nonce from the MSS's entropy source: a free value (R387). -/
def State.newNonce (s : State) : State :=
  let (v, s) := s.draw
  s.yk fun y => { y with nonce := v % 2 ^ 64 }

/-- A RESULT (R388), sent back by the port that the command came by. -/
def State.claimResult (s : State) (seq st : Nat) : State :=
  s.ymSend 3 (le seq 4 ++ [st, s.claim, 0, 0] ++ le s.yoke.nonce 8)

/-- The datagram is a SET_CLAIM message (R384, R387): at a port that carries yardmaster messages, to the device's own UDP port, with
the header of R384, type 16 and LEN 144. DEDUCED: another datagram is no such message and gets no RESULT (log entry 163). -/
def State.claimHeard (s : State) (m : SetClaimMsg) : Bool :=
  let f := recNum m.bytes
  bit (s.siteNum 0x30 4) m.net.val && decide (m.dport = s.ymDest.sport) && decide (m.bytes.length = 144) &&
    decide (m.bytes.take 6 = [0x51, 0x59, 0x4D, 0x31, 16, 1]) && decide (f 6 2 = 144)

/-- The first test of R387 that a held message fails, as the STATUS of R388. -/
def State.claimStatus (s : State) (b : List Nat) : Nat :=
  let f := recNum b
  if s.wrongSite then 2
  else if !Config.ecdsaOk ((s.mss.site.drop 0x40).take 96) (Config.sha384 (b.take 0x30)) ((b.drop 0x30).take 96) then 1
  else if bits (f 8 2) 0 14 ≠ s.node then 2
  else if f 0x18 8 ≠ s.yoke.nonce then 3
  else if f 0x28 8 < s.now then 4
  else if (s.setTest (f 0x20 1)).isSome then 5
  else 0

/-- R387, R388 SET_CLAIM: `some m` arrives, held while fewer than 4 are, else answered BUSY; `none`: the MSS checks the oldest
held, in the order of R387. -/
def execSetClaim (m : Option SetClaimMsg) (s : State) : Host.Outcome State Fault Refusal :=
  done (match m with
    | some m =>
      if !s.claimHeard m then s
      else if s.wrongSite then s.claimResult (recNum m.bytes 0xC 4) 2
      else if 4 ≤ s.yoke.cmds.length then s.claimResult (recNum m.bytes 0xC 4) 6
      else s.yk fun y => { y with cmds := y.cmds ++ [m.bytes] }
    | none =>
      match s.yoke.cmds with
      | [] => s
      | b :: t =>
        let s := s.yk fun y => { y with cmds := t }
        let st := s.claimStatus b
        let s := if st = 0 then (s.claimSet (recNum b 0x20 1) 1).newNonce else s
        s.claimResult (recNum b 0xC 4) st)

end Sys2Proof.Machine
end

