-- ==== Sys2Proof/Machine/Receive.lean ====
section
/-! DEFINITION. Frames received (R162, R175, R178, R179, R377), wake causes (R447), and the events that wake: time captures (R170)
and key frames (R354). -/

namespace Sys2Proof.Machine

/-! ### Events that wake (R447) -/

/-- R170 TI_CAPTURE: an edge at a time input; a capture on an input of PWR_WAKE_EN.TIN wakes (R447). -/
def execTiCapture (pin : Fin 8) (edge : TiEdge) (s : State) : Host.Outcome State Fault Refusal :=
  let i := pin.val
  let hit := s.tiSees i edge
  let s := s.tiCapture i edge
  done (if hit && bit (s.rd pwrP PWR_WAKE_EN_TIN) i then s.wake 4 else s)

/-- Key channel `k` is on. -/
def State.keyIsOn (s : State) (k : Nat) : Bool := (Store.find k s.keys.on).isSome

/-- R354 KEY_FRAME: the counts of channels 0 to 31. A key of TCH_KEY_WAKE that turns on wakes (R357, R447). -/
def execKeyFrame (counts : List Nat) (s : State) : Host.Outcome State Fault Refusal :=
  let s' := s.keyFrame counts
  let woken := (upTo 32).any fun k => bit (s'.rd keyP TCH_KEY_WAKE_WAKE) k && s'.keyIsOn k && !s.keyIsOn k
  done (if !s.enabled keyP then s
    else if woken && s'.on pwrP PWR_WAKE_EN_KEY then s'.wake 1 else s')

/-! ### Classes (R175) -/

/-- A PTP message of R162, of the domain in use: Sync, Delay_Req, Pdelay_Req, Pdelay_Resp, Follow_Up, Delay_Resp,
Pdelay_Resp_Follow_Up, Announce; under at most one 802.1Q tag. -/
def State.ptpUsed (s : State) (fr : NetFrame) : Option PtpMsg :=
  match fr.ptp with
  | some m =>
    if m.domain = s.rd tb TB_PTP_CFG_DOMAIN ∧ fr.tags ≤ 1 ∧ !(fr.v6 && fr.v6ext) ∧
        (m.msgType ≤ 3 ∨ (8 ≤ m.msgType ∧ m.msgType ≤ 11)) then some m else none
  | none => none

/-- The event message whose latency entry is kept (R164). -/
def State.ptpEvent (s : State) (fr : NetFrame) : Option (Nat × Nat) :=
  match s.ptpUsed fr with
  | some m => if m.msgType ≤ 3 then some (m.msgType, m.seqId) else none
  | none => none

/-- The device's yardmaster port and its update port, which is 7961 in recovery mode (R384, R422, R429, R435). -/
def State.devPort (s : State) : Nat := s.ymDest.sport
def State.updPort (s : State) : Nat := if s.on (pg .mss 0) MSS_BOOT_RECOVERY ∨ s.siteNum 0xE 2 = 0 then 7961 else s.siteNum 0xE 2

/-- Class 1 or 2 of R175: the MSS's. -/
def State.forMss (s : State) (port : Nat) (fr : NetFrame) : Bool :=
  (bit (s.rd tb TB_PTP_PORTS_PORTS) port && (s.ptpUsed fr).isSome) ||
    (match fr.udp with
     | some u => decide (u.dport = s.devPort) || decide (u.dport = s.updPort)
     | none => false)

/-- A wake frame (R447). -/
def State.wakeFrame (s : State) (port : Nat) (fr : NetFrame) : Bool :=
  let p := pg .net port
  let a := s.netAddr port fr.v6
  s.on pwrP PWR_WAKE_EN_NET && decide (port = s.rd pwrP PWR_WAKE_NET_NET) &&
    decide (fr.dmac = s.rd p NET_MAC_LO_MAC + 2 ^ 32 * s.rd p NET_MAC_HI_MAC) && decide (a ≠ 0) && decide (fr.dst = a) &&
    (match fr.udp with
     | some u => decide (u.dport = s.rd pwrP PWR_WAKE_NET_PORT) &&
        decide (u.payload.take 6 = [0x51, 0x57, 0x41, 0x4B] ++ le s.node 2)
     | none => false)

/-- R178: the frame is discarded and counted in NET_RX_DROP. -/
def State.rxDrops (s : State) (port : Nat) (fr : NetFrame) : Bool :=
  decide (min 2000 (s.rd (pg .net port) NET_CFG_MAXLEN) < fr.len) || decide (1 < fr.tags) || fr.frag ||
    (match fr.udp with
     | some u => u.badSum
     | none => false)

/-- A feed's frame (R175 class 3). In a team it passes the sequencer first: the lead merges its own, the wheel forwards and keeps
its own (R377). -/
def State.feedArrive (s : State) (x : PktSlot) : State :=
  let s := s.cnt feedP FEED_MATCHED_COUNT 1
  if s.inTeam then
    let y := { x with ready := false }
    let s := { s with pkts := s.pkts ++ [y] }
    if s.isSeq then s.mergeArrive 0 0 y else s.forward y
  else { s with pkts := s.pkts ++ [x] }

/-- A frame that the MAC accepts is stored and classified (R175, R179). The MSS's frames take a slot for the time it needs,
which ends within this command. -/
def State.rxClassify (s : State) (port : Nat) (fr : NetFrame) (stamp : Nat) : State :=
  match s.freePkt with
  | none => s.cnt (pg .net port) NET_RX_NOBUF_COUNT 1
  | some n =>
    if s.forMss port fr then s
    else match s.feedMatch port fr with
      | some (f, rtcp) => s.feedArrive ⟨n, port, 3, f, rtcp, true, stamp, fr⟩
      | none =>
        let s := s.cnt feedP FEED_UNMATCHED_COUNT 1
        if s.on feedP FEED_UNM_CTRL_EN then { s with pkts := s.pkts ++ [⟨n, port, 4, 0, false, true, stamp, fr⟩] }
        else s.cnt feedP FEED_UNM_LOST_COUNT 1

/-- The NET_RX check-value units that take a frame with good FCS and UDP checksum (R320), in ascending order. -/
def State.rxUnits (s : State) (port : Nat) (fr : NetFrame) : List Nat :=
  match fr.udp with
  | none => []
  | some d => (upTo 24).filter fun u =>
    let p := cvuP u
    s.enabled p && decide (s.rd p CVU_CFG_TAP = 3) && decide (s.rd p CVU_CFG_SRC = port) && !d.badSum &&
      (decide (s.rd p CVU_MATCH_PORT = 0) || decide (d.dport = s.rd p CVU_MATCH_PORT))

/-- A frame goes on to be stored and classified, once the check-value units that take it have passed it (R320, R321), behind the port's frames
that still wait for theirs. -/
def State.rxPass (s : State) (port : Nat) (fr : NetFrame) (stamp : Nat) : State :=
  let us := s.rxUnits port fr
  if us.isEmpty && s.rxHeld.all (fun x => decide (x.port ≠ port)) then s.rxClassify port fr stamp
  else { s with rxHeld := s.rxHeld ++ [⟨port, fr, stamp, us⟩] }

/-- The port's frames that no unit has to pass any more, up to the first that one has, go on. -/
def State.rxRelease (s : State) (port : Nat) : State :=
  let go := (s.rxHeld.filter fun x => decide (x.port = port)).takeWhile fun x => x.units.isEmpty
  let rest := (s.rxHeld.filter fun x => decide (x.port = port)).drop go.length
  let s := { s with rxHeld := s.rxHeld.filter (fun x => decide (x.port ≠ port)) ++ rest }
  go.foldl (fun s x => s.rxClassify port x.frame x.stamp) s

/-- A frame received in the stabled state: on the wake NET one of classes 1 and 2 goes to the 64 KiB area of MSS SRAM (R445),
at a place and in an order that the spec leaves open (log entry 170); any other is discarded. -/
def State.stabledFrame (s : State) (port : Nat) (fr : NetFrame) : State :=
  if s.rd pwrP PWR_WAKE_NET_NET ≠ port ∨ !s.forMss port fr then s
  else
    let (v, s) := s.draw
    let base := Config.stabledArea % (0x80000 - 0x10000 + 1)
    { s with sram := fr.raw.zipIdx.foldl (fun m x => m.write (base + (v + x.2) % 0x10000) (BitVec.ofNat 8 x.1)) s.sram }

/-- A frame with good FCS on a port that is up. In the stabled state no packet slot serves: only the MSS's frames are taken
(R445). -/
def State.rxFrame (s : State) (port : Nat) (fr : NetFrame) (stamp : Nat) : State :=
  let s := s.cnt (pg .net port) NET_RX_FRAMES_COUNT 1
  if fr.pause then s
  else if s.rxDrops port fr then s.cnt (pg .net port) NET_RX_DROP_COUNT 1
  else
    let st := s.pwrState
    let s := if s.wakeFrame port fr then s.wake 2 else s
    if 2 ≤ st then s.stabledFrame port fr else s.rxPass port fr stamp

/-- R175 NET_FRAME_RECEIVE: the frame whose SFD passed the balls `ago` ns before. A port that is not up receives nothing (R178).
The frame's latency entry ends with it, and is freed where the frame is discarded (R164, R178). -/
def execNetFrameReceive (port : Fin 18) (fr : NetFrame) (ago : Nat) (s : State) : Host.Outcome State Fault Refusal :=
  let n := port.val
  done (if !s.netUp n then s
    else if !fr.fcsOk then (s.rxlFrameEnd n none).cnt (pg .net n) NET_RX_FCS_COUNT 1
    else (s.rxFrame n fr (s.stamp - ago)).rxlFrameEnd n (if s.rxDrops n fr then none else s.ptpEvent fr))

end Sys2Proof.Machine
end

