-- ==== Sys2Proof/Machine/Cvu.lean ====
section
/-! DEFINITION. Check-value units (R319 to R326). -/

namespace Sys2Proof.Machine

/-! ### The check (R319, R322) -/

/-- One bit enters a register of width `w`. -/
def cvuBit (w poly r b : Nat) : Nat :=
  let top := (bit r (w - 1)) != (b = 1)
  let r := r * 2 % 2 ^ w
  if top then r ^^^ poly else r

/-- A byte enters, least significant bit first where REFIN is 1. -/
def cvuByte (w poly : Nat) (refin : Bool) (r b : Nat) : Nat :=
  (upTo 8).foldl (fun r i => cvuBit w poly r (b / 2 ^ (if refin then i else 7 - i) % 2)) r

/-- A value reversed across its `w` bits. -/
def revBits (w v : Nat) : Nat := (upTo w).foldl (fun t i => t * 2 + v / 2 ^ i % 2) 0

/-- The value of a block under a unit's parameters (R319). -/
def State.cvuValue (s : State) (u : Nat) (d : List Nat) : Nat :=
  let p := cvuP u
  let w := s.rd p CVU_CFG_WIDTH
  let m := fun (v : Nat) => v % 2 ^ w
  let poly := m (s.rd64 p (CVU_POLY_POLY 0) (CVU_POLY_POLY 1))
  let r := d.foldl (cvuByte w poly (s.on p CVU_CFG_REFIN)) (m (s.rd64 p (CVU_INIT_INIT 0) (CVU_INIT_INIT 1)))
  (if s.on p CVU_CFG_REFOUT then revBits w r else r) ^^^ m (s.rd64 p (CVU_XOR_XOROUT 0) (CVU_XOR_XOROUT 1))

/-- Word `j` of POLY, INIT and XOROUT as it reads: the bits above W read 0 (R319). -/
def State.cvuParam (s : State) (u j : Nat) : Nat :=
  s.rd (cvuP u) (CVU_POLY_POLY j) % 2 ^ (s.rd (cvuP u) CVU_CFG_WIDTH - 32 * (j % 2))

/-- Bytes of a value of the unit's width. -/
def State.cvuLen (s : State) (u : Nat) : Nat := (s.rd (cvuP u) CVU_CFG_WIDTH + 7) / 8

/-- The fold block (R322). `a`: address of the block's first byte. -/
def State.cvuFold (s : State) (u a : Nat) : List Nat :=
  match s.rd (cvuP u) CVU_CFG_FOLD with
  | 1 => le a 5 ++ [0, 0, 0]
  | 2 => le (s.rd (cvuP u) CVU_SEQ_SEQ) 4 ++ [0, 0, 0, 0]
  | _ => []

/-- Push a result, or lose it to a full queue (R324). -/
def State.cvuPush (s : State) (u v tag : Nat) : State :=
  let p := cvuP u
  let x := s.cvu u
  if x.queue.length < 16 then
    (s.setCvu u { x with queue := x.queue ++ [(v, tag)] }).wr p CVU_RES_STAT_USED (x.queue.length + 1)
  else (s.wb p CVU_RES_STAT_OVF true).cnt p CVU_LOST_COUNT 1

/-- A block has been computed: it is counted, and the next block's sequence number follows (R322, R324). -/
def State.cvuCount (s : State) (u : Nat) : State :=
  let p := cvuP u
  let x := s.cvu u
  let s := (s.setCvu u { x with first := none, data := [], count := x.count + 1 }).cnt p CVU_BLOCKS_COUNT 1
  if s.rd p CVU_CFG_FOLD = 2 then s.inc p CVU_SEQ_SEQ 1 else s

/-- The tag of a result (R324). -/
def State.cvuTag (s : State) (u a : Nat) : Nat :=
  match s.rd (cvuP u) CVU_CFG_FOLD with
  | 1 => a % 2 ^ 32
  | 2 => s.rd (cvuP u) CVU_SEQ_SEQ
  | _ => (s.cvu u).count % 2 ^ 32

/-- A failed check (R321, R326). -/
def State.cvuFailed (s : State) (u got had : Nat) : State :=
  (s.cnt (cvuP u) CVU_FAIL_COUNT 1).emit (cvuP u) 1 (le got 8 ++ le had 8)

/-- A block is checked against its last bytes (R321): whether it passed. The values of a region too short to hold them are free. -/
def State.cvuCheck (s : State) (u : Nat) (d : List Nat) : Bool × State :=
  let k := s.cvuLen u
  if d.length < k then
    let (a, s) := s.draw
    let (b, s) := s.draw
    (false, (s.cvuFailed u a b).cvuCount u)
  else
    let v := s.cvuValue u (s.cvuFold u 0 ++ d.take (d.length - k))
    let r := ofLE (d.drop (d.length - k))
    if v = r then (true, s.cvuCount u) else (false, (s.cvuFailed u v r).cvuCount u)

/-- A block closes under COMPUTE or CHECK (R321). -/
def State.cvuClose (s : State) (u a : Nat) (d : List Nat) : State :=
  if s.rd (cvuP u) CVU_CFG_MODE = 0 then
    (s.cvuPush u (s.cvuValue u (s.cvuFold u a ++ d)) (s.cvuTag u a)).cvuCount u
  else (s.cvuCheck u d).2

/-! ### The register tap (R320, R323) -/

/-- A writer's accesses take effect: the unit is enabled, and the writer owns it (R323). -/
def State.cvuMine (s : State) (w : Writer) (u : Nat) : Bool :=
  s.enabled (cvuP u) && (decide (2 ≤ s.rd (cvuP u) CVU_CFG_TAP) || s.ownedBy w.fid (cvuIdx u))

/-- Bytes enter the register tap's block. -/
def State.cvuFeed (s : State) (w : Writer) (u : Nat) (d : List Nat) : State :=
  if s.cvuMine w u && decide (s.rd (cvuP u) CVU_CFG_TAP = 0) then
    let x := s.cvu u
    s.setCvu u { x with data := x.data ++ d }
  else s

/-- R320 CVU_DATA_WRITE. -/
def execCvuDataWrite (w : Writer) (u : Fin 24) (v : Word) (s : State) : Host.Outcome State Fault Refusal :=
  done (if s.pageFenced .cvu u.val then s.missRecord w .write (cvuP u.val + 0x140) else s.cvuFeed w u.val (le v.toNat 4))

/-- R320 CVU_DATA_B_WRITE. -/
def execCvuDataBWrite (w : Writer) (u : Fin 24) (v : BitVec 8) (s : State) : Host.Outcome State Fault Refusal :=
  done (if s.pageFenced .cvu u.val then s.missRecord w .write (cvuP u.val + 0x144) else s.cvuFeed w u.val [v.toNat])

/-- The write requests that unit `u` has taken enter its block (R320). -/
def State.cvuGather (s : State) (u : Nat) : State :=
  let x := s.cvu u
  s.setCvu u (x.seen.foldl (fun x r => { x with first := some (x.first.getD r.1), data := x.data ++ r.2 }) { x with seen := [] })

/-- R321 CVU_END: closes the register tap's block, or a write snoop's with ACCUM, which holds every request up to here. -/
def execCvuEnd (w : Writer) (u : Fin 24) (s : State) : Host.Outcome State Fault Refusal :=
  let p := cvuP u.val
  let tap := s.rd p CVU_CFG_TAP
  done (if s.pageFenced .cvu u.val then s.missRecord w .write (p + 0x148)
    else if s.cvuMine w u.val && (decide (tap = 0) || (decide (tap = 1) && s.on p CVU_CFG_ACCUM)) then
      let s := if tap = 1 then s.cvuGather u.val else s
      s.cvuClose u.val ((s.cvu u.val).first.getD 0) (s.cvu u.val).data
    else s)

/-- R324 CVU_RESULT_POP: a read of CVU_RES_HI returns the oldest result's high half and pops it. -/
def execCvuResultPop (w : Writer) (u : Fin 24) (s : State) : Host.Outcome State Fault Refusal :=
  let x := s.cvu u.val
  let own := decide (2 ≤ s.rd (cvuP u.val) CVU_CFG_TAP) || s.ownedBy w.fid (cvuIdx u.val)
  done (if s.pageFenced .cvu u.val then (s.missRecord w .read (cvuP u.val + 0x154)).ret 0
    else match x.queue with
    | [] => s.ret 0
    | (v, _) :: t =>
      let s := s.ret (v / 2 ^ 32)
      if own then (s.setCvu u.val { x with queue := t }).wr (cvuP u.val) CVU_RES_STAT_USED t.length else s)

/-! ### Snooped blocks (R320, R321) -/

/-- Where the UDP payload of an Ethernet frame without FCS stands: its offset and its length by the UDP header's LENGTH, the L3 header's offset, whether
that is IPv6; none for other frames. -/
def udpOf (b : List Nat) : Option (Nat × Nat × Nat × Bool) :=
  let be2 := fun (o : Nat) => b.getD o 0 * 256 + b.getD (o + 1) 0
  let l3 := if be2 12 = 0x8100 then 18 else 14
  let at_ := fun (o : Nat) => min (be2 (o - 4) - 8) (b.length - o)
  if be2 (l3 - 2) = 0x0800 ∧ b.getD (l3 + 9) 0 = 17 then
    let o := l3 + b.getD l3 0 % 16 * 4 + 8
    some (o, at_ o, l3, false)
  else if be2 (l3 - 2) = 0x86DD ∧ b.getD (l3 + 6) 0 = 17 then some (l3 + 48, at_ (l3 + 48), l3, true)
  else none

/-- The one's complement sum of a list of bytes taken as big-endian 16-bit words. -/
def sum16 : List Nat → Nat
  | [] => 0
  | [a] => a * 256
  | a :: b :: t => a * 256 + b + sum16 t

/-- A one's complement sum folded to 16 bits. -/
def fold16 (v : Nat) : Nat := let w := v % 65536 + v / 65536; w % 65536 + w / 65536

/-- The UDP checksum of a frame, from its pseudo-header, header with the checksum taken as 0, and payload of `len` bytes at `pay`. -/
def udpSum (b : List Nat) (pay len l3 : Nat) (v6 : Bool) : Nat :=
  let u := (b.drop (pay - 8)).take (len + 8)
  let addrs := if v6 then (b.drop (l3 + 8)).take 32 else (b.drop (l3 + 12)).take 8
  let v := sum16 (addrs ++ [0, 17] ++ (u.drop 4).take 2 ++ u.take 6 ++ [0, 0] ++ u.drop 8)
  let c := 65535 - fold16 v
  if c = 0 then 65535 else c

/-- A UDP payload with the value of its region in the region's last bytes (R321); none where the region is too short for it. -/
def State.cvuAppended (s : State) (u : Nat) (d : List Nat) : Option (List Nat) :=
  let k := s.cvuLen u
  let r := d.drop (s.rd (cvuP u) CVU_MATCH_OFFSET)
  if r.length < k then none
  else some (d.take (d.length - k) ++ le (s.cvuValue u (s.cvuFold u 0 ++ r.take (r.length - k))) k)

/-- A frame with another UDP payload of the same length, and a non-zero UDP checksum brought up to date (R321). -/
def withPayload (b : List Nat) (q : Nat × Nat × Nat × Bool) (d : List Nat) : List Nat :=
  let b := b.take q.1 ++ d ++ b.drop (q.1 + q.2.1)
  let sumAt := q.1 - 2
  if b.getD sumAt 0 = 0 ∧ b.getD (sumAt + 1) 0 = 0 then b
  else
    let c := udpSum b q.1 q.2.1 q.2.2.1 q.2.2.2
    b.take sumAt ++ [c / 256, c % 256] ++ b.drop (sumAt + 2)

/-- An emission as unit `u` taps it: the UDP payload that NET SRC sends to PORT, and the emissions that stand for it with another payload. -/
def State.cvuTapped (s : State) (u : Nat) (o : Out) : Option (List Nat × (List Nat → List Out)) :=
  let p := cvuP u
  let src := s.rd p CVU_CFG_SRC
  let hit := fun (d : Nat) => decide (s.rd p CVU_MATCH_PORT = 0) || decide (d = s.rd p CVU_MATCH_PORT)
  match o with
  | .netFrame port b =>
    match udpOf b with
    | some q =>
      if port = src ∧ hit (b.getD (q.1 - 6) 0 * 256 + b.getD (q.1 - 5) 0) then
        some ((b.drop q.1).take q.2.1, fun d => [.netFrame port (withPayload b q d)])
      else none
    | none => none
  | .datagram nets dest b =>
    if bit nets src ∧ hit dest.dport then
      some (b, fun d =>
        (if clrBit nets src = 0 then [] else [Out.datagram (clrBit nets src) dest b]) ++ [.datagram (2 ^ src) dest d])
    else none
  | _ => none

/-- A frame sent by the unit's NET instance: the `k`th latest emission. -/
def State.cvuTx (s : State) (u k : Nat) : State :=
  let i := s.out.length - 1 - k
  match (if k < s.out.length then s.out[i]? else none) with
  | none => s
  | some o => match s.cvuTapped u o with
    | none => s
    | some (d, put) =>
      if s.rd (cvuP u) CVU_CFG_MODE = 1 then
        match s.cvuAppended u d with
        | some d => { s with out := s.out.take i ++ put d ++ s.out.drop (i + 1) }.cvuCount u
        | none => s.cvuCount u
      else s.cvuClose u 0 (d.drop (s.rd (cvuP u) CVU_MATCH_OFFSET))

/-- A received frame `k` bytes shorter at the end of its UDP payload, with the IP and UDP headers as received (R321). -/
def stripped (fr : NetFrame) (d : Udp) (k : Nat) : NetFrame :=
  let keep := d.payload.length - k
  let raw := match udpOf fr.raw with
    | some q => fr.raw.take (q.1 + keep) ++ fr.raw.drop (q.1 + d.payload.length)
    | none => fr.raw
  { fr with udp := some { d with payload := d.payload.take keep }, raw := raw, len := fr.len - k }

/-- The first frame `x` of a list, exchanged or taken out. -/
def heldPut (x : RxHeld) (y : Option RxHeld) : List RxHeld → List RxHeld
  | [] => []
  | z :: t => if z = x then y.toList ++ t else z :: heldPut x y t

/-- The oldest received frame that unit `u` is the next to take: CHECK_STRIP shortens a frame that passes, DROP discards one that fails; then it goes on, as do those
that waited behind it (R320, R321). -/
def State.cvuRx (s : State) (u : Nat) : State :=
  let p := cvuP u
  match s.rxHeld.find? fun x => decide (x.units.head? = some u) with
  | none => s
  | some x =>
    let put := fun (s : State) (y : Option RxHeld) =>
      { s with rxHeld := heldPut x y s.rxHeld }.rxRelease x.port
    let on := { x with units := x.units.drop 1 }
    match x.frame.udp with
    | none => put s (some on)
    | some d =>
      let region := d.payload.drop (s.rd p CVU_MATCH_OFFSET)
      if s.rd p CVU_CFG_MODE = 0 then put (s.cvuClose u 0 region) (some on)
      else
        let (ok, s) := s.cvuCheck u region
        if ok then put s (some (if s.rd p CVU_CFG_MODE = 3 then { on with frame := stripped x.frame d (s.cvuLen u) } else on))
        else put s (if s.on p CVU_CFG_DROP then none else some on)

/-- The oldest write request that unit `u` has taken forms a block, or enters the one that ACCUM keeps open. -/
def State.cvuWrite (s : State) (u : Nat) : State :=
  if s.on (cvuP u) CVU_CFG_ACCUM then s.cvuGather u
  else match (s.cvu u).seen with
    | [] => s
    | r :: t => (s.setCvu u { s.cvu u with seen := t }).cvuClose u r.1 r.2

/-- R320 CVU_SNOOP_BLOCK: unit `u` forms a block: of the oldest write request that it has taken, of the `k`th latest emission, or of the oldest
received frame that waits for it. -/
def execCvuSnoopBlock (u : Fin 24) (k : Nat) (s : State) : Host.Outcome State Fault Refusal :=
  let i := u.val
  done (if !s.enabled (cvuP i) then s
    else match s.rd (cvuP i) CVU_CFG_TAP with
      | 1 => s.cvuWrite i
      | 2 => s.cvuTx i k
      | 3 => s.cvuRx i
      | _ => s)

/-! ### Enable (R323) -/

/-- CFG_REFUSED's byte, where the unit's fields do not allow an enable (R323, R326). -/
def State.cvuBad (s : State) (u : Nat) : Option Nat :=
  let p := cvuP u
  let w := s.rd p CVU_CFG_WIDTH
  let tap := s.rd p CVU_CFG_TAP
  let mode := s.rd p CVU_CFG_MODE
  let fold := s.rd p CVU_CFG_FOLD
  let src := s.rd p CVU_CFG_SRC
  let twin := (upTo 24).any fun v => decide (v ≠ u) && s.enabled (cvuP v) && decide (s.rd (cvuP v) CVU_CFG_MODE = mode) &&
    decide (s.rd (cvuP v) CVU_CFG_TAP = tap) && decide (s.rd (cvuP v) CVU_CFG_SRC = src)
  if w < 8 ∨ 64 < w then some 0
  else if (mode = 1 ∧ tap ≠ 2) ∨ (mode = 2 ∧ tap ≠ 0 ∧ tap ≠ 3) ∨ (mode = 3 ∧ tap ≠ 3) ∨ fold = 3 ∨ (fold = 1 ∧ tap ≠ 1) ∨
      (2 ≤ tap ∧ 17 < src) ∨ (2 ≤ tap ∧ 1999 < s.rd p CVU_MATCH_OFFSET) then some 1
  else if (mode = 1 ∨ mode = 3) ∧ twin then some 2
  else none

/-- Enable unit `u`. -/
def State.cvuEnable (s : State) (w : Writer) (u : Nat) : State :=
  let p := cvuP u
  let tap := s.rd p CVU_CFG_TAP
  let fid := if 2 ≤ tap then 0x0A00 + s.rd p CVU_CFG_SRC else w.fid
  match s.ownCheck (0x1400 + u) fid w.fid [cvuIdx u] with
  | some s => s
  | none =>
    if bit (s.rd 0 SYS_FENCE_D_CVU) u then s.enableFenced (0x1400 + u) (0x1400 + u) 0xFFFF w.fid
    else match s.cvuBad u with
      | some c => s.emit p 0x0801 [c]
      | none =>
        let s := (s.useSet [cvuIdx u] true).wb p HDR_CTRL_ENABLE true
        s.setCvu u { s.cvu u with first := none, data := [], seen := [], count := 0 }

/-- Disable unit `u`: the block in progress is dropped, and received frames that waited for the unit go on without it. -/
def State.cvuDisable (s : State) (u : Nat) : State :=
  let s := (s.useSet [cvuIdx u] false).wb (cvuP u) HDR_CTRL_ENABLE false
  let s := s.setCvu u { s.cvu u with first := none, data := [], seen := [] }
  let ports := (s.rxHeld.filter fun x => x.units.contains u).map (·.port)
  let s := { s with rxHeld := s.rxHeld.map fun x => { x with units := x.units.filter fun v => decide (v ≠ u) } }
  ports.dedup.foldl State.rxRelease s

end Sys2Proof.Machine
end

