-- ==== Sys2Proof/Machine/Own.lean ====
section
/-! DEFINITION. Writes of the ownership registry (R56 to R62), the multiplexed balls and general-purpose I/O (R455, R456). -/

namespace Sys2Proof.Machine

/-- A resource index that R56 assigns; the other offsets of the registry pages are reserved. -/
def entExists (i : Nat) : Bool := decide (i < 256 ∨ (1024 ≤ i ∧ i < 1112) ∨ (1152 ≤ i ∧ i < 1216))

/-- Offset of an entry within its page. -/
def entOff (i : Nat) : Nat := 0x100 + 4 * (i % 1024)

/-- The entry's LOCK, or its page's, freezes OWNER (R45, R57). -/
def State.entLocked (s : State) (i : Nat) : Bool := s.on (ownPg i) (OWN_ENT_LOCK (i % 1024)) || s.on (ownPg i) HDR_CTRL_LOCK

/-- The functions that may own ball `k` (R455). -/
def ballAllows (k fid : Nat) : Bool :=
  if k < 14 then decide (fid = 0x0A10 ∨ fid = 0x0AFF)
  else if k < 28 then decide (fid = 0x0A11 ∨ fid = 0x0AFF)
  else if k < 30 then decide (fid = 0x1700)
  else decide (fid = 0x1D00 ∨ fid = 0x1700 ∨ (0x1800 ≤ fid ∧ fid ≤ 0x1807))

/-- The page whose ring serves a function (R55); of all NET instances, the one that ball `k` can carry (R455). -/
def fidPage (k fid : Nat) : Option Nat :=
  let f := if fid = 0x0AFF then (if k < 14 then 0x0A10 else 0x0A11) else fid
  (blkMap.find? fun e => decide (e.1 ≠ .own) && decide (e.1.typeCode = f / 256) && decide (f % 256 < e.2.2.2)).map fun e =>
    pg e.1 (f % 256)

/-- The use that an enabled owner makes of a resource without an enable of its own for it (R57): the UART and general-purpose balls of an
allowed owner (R455), and the time pins whose EN is 1 (R169). -/
def State.ownerUses (s : State) (i : Nat) : Bool :=
  if 28 ≤ i ∧ i < 256 then
    ballAllows i (s.owner i) && (match fidPage i (s.owner i) with
      | some p => s.enabled p
      | none => false)
  else if 1040 ≤ i ∧ i < 1056 then
    decide (s.owner i = 0x0C00 ∨ s.owner i = 0x0CFF) && s.enabled (pg .tb 0) &&
      s.on (pg .tb 0) (if i < 1048 then TB_TI_CTRL_EN (i - 1040) else TB_TO_CTRL_EN (i - 1048))
  else false

/-- IN_USE of an entry (R57). -/
def State.entInUse (s : State) (i : Nat) : Bool := s.on (ownPg i) (OWN_ENT_IN_USE (i % 1024)) || s.ownerUses i

/-- The value written to OWNER of an entry that is neither locked nor fenced is taken (R58). -/
def State.ownTakes (s : State) (i v : Nat) : Bool :=
  decide (s.owner i = 0 ∨ v = s.owner i ∨ (v = 0 ∧ !s.entInUse i))

/-- A write of the word `word`, whose OWNER is `v`, by the function `w` (R58). What it does goes to the SYS ring (R56). -/
def State.ownWrite (s : State) (w i v word : Nat) : State :=
  let f := OWN_ENT_OWNER (i % 1024)
  if !entExists i then s
  else if s.entFenced i then s.enableFenced v (entUnit i) i w
  else if s.entLocked i then s.emit 0 0xF000 (le (entOff i) 2 ++ [0xFF, 0xFF] ++ le word 4 ++ le w 2)
  else if s.ownTakes i v then s.wr (ownPg i) f v
  else s.ownConflict v (s.owner i) i 1

/-- The registry is within a writer's reach: before SYS_CAPS is final only the MSS gets there (R489). -/
def State.ownReach (s : State) (w : Writer) : Bool := decide (s.capsWord ≠ 0) || decide (w = .mss)

/-- R58 OWNER_WRITE: a word with LOCK 0. -/
def execOwnerWrite (w : Writer) (idx : Fin 2048) (v : BitVec 16) (s : State) : Host.Outcome State Fault Refusal :=
  done (if s.ownReach w then s.ownWrite w.fid idx.val v.toNat v.toNat else s)

/-- R57 OWN_ENTRY_LOCK. -/
def execOwnEntryLock (w : Writer) (idx : Fin 2048) (s : State) : Host.Outcome State Fault Refusal :=
  done (if entExists idx.val && s.ownReach w then s.wb (ownPg idx.val) (OWN_ENT_LOCK (idx.val % 1024)) true else s)

/-- OWN.HELD: entries owned by the function or by its type's instance 0xFF, at most 255 (R43). -/
def State.ownHeld (s : State) (fid : Nat) : Nat :=
  min 255 (((upTo 1216).filter fun i => entExists i && s.ownedBy fid i).length)

/-! ### Balls (R61, R455) -/

/-- The test multiplexer holds ball `k`. -/
def State.ballTaken (s : State) (k : Nat) : Bool := s.on (ownPg k) (OWN_ENT_TAKEN k)

/-- Ball `k` is driven as general-purpose I/O (R456). -/
def State.gpioDriven (s : State) (k : Nat) : Bool :=
  decide (s.mss.hold ≠ 3) && decide (30 ≤ k) && bit (s.rd 0 (SYS_GPIO_OE_OE (k / 32))) (k % 32) && ballAllows k (s.owner k) && !s.ballTaken k

/-- R456 GPIO_WRITE: OUT, or OE, of balls M(32k) to M(32k + 31); only the bits of balls that the writer owns change. -/
def execGpioWrite (w : Writer) (oe : Bool) (k : Fin 8) (v : Word) (s : State) : Host.Outcome State Fault Refusal :=
  let f := if oe then SYS_GPIO_OE_OE k.val else SYS_GPIO_OUT_OUT k.val
  let mine := (upTo 32).foldl (fun m j => if s.owner (32 * k.val + j) = w.fid then m + 2 ^ j else m) 0
  done (s.wr 0 f (andNot (s.rd 0 f) mine + (v.toNat &&& mine)))

/-- The record of class 29 for ball `k` goes to its owner's ring (R48, R61). -/
def State.ballRecord (s : State) (k code : Nat) : State :=
  match fidPage k (s.owner k) with
  | some p => s.emit p code (le k 2 ++ le 0x1C00 2)
  | none => s

/-- The test multiplexer takes ball `k` (R61). -/
def State.ballTake (s : State) (k : Nat) : State :=
  let s := s.wb (ownPg k) (OWN_ENT_TAKEN k) true
  let s := match fidPage k (s.owner k) with
    | some p => s.wb p HDR_OWN_TAKEN true
    | none => s
  s.ballRecord k 0xE800

/-- The test multiplexer returns ball `k` (R61). -/
def State.ballReturn (s : State) (k : Nat) : State := (s.wb (ownPg k) (OWN_ENT_TAKEN k) false).ballRecord k 0xE801

end Sys2Proof.Machine
end

