-- ==== Sys2Proof/Machine/Hitch.lean ====
section
/-! DEFINITION. The hitches: hardware locks with ten owner slots (R88 to R97). -/

namespace Sys2Proof.Machine

/-- The function ID of owner slot `o` (R88). -/
def slotFid (o : Nat) : Nat := if o = 0 then 0x1D00 else if o = 1 then 0x1700 else 0x1800 + (o - 2)

/-- Sub-units of the running-rate clock in one microsecond (R159). -/
def usRun : Nat := ns 1000

/-- The epoch of slot `o`. -/
def State.hitEpoch (s : State) (o : Nat) : Nat := s.rd (pg .hit 0) (HIT_EPOCH_EPOCH o)

/-- Hitch `n` is free and abandoned (R96). -/
def State.abandoned (s : State) (n : Nat) : Bool := bit (s.rd (pg .hit 0) (HIT_ABAND_ABAND (n / 32))) (n % 32)

/-- Set or clear the abandoned mark of hitch `n`. -/
def State.setAband (s : State) (n : Nat) (b : Bool) : State :=
  let p := pg .hit 0
  let v := s.rd p (HIT_ABAND_ABAND (n / 32))
  s.wr p (HIT_ABAND_ABAND (n / 32)) (if b then setBit v (n % 32) else clrBit v (n % 32))

/-- The highest hitch that slot `o` holds above `n`: an ORDER record names it (R94). -/
def State.highestHeld (s : State) (o : Nat) : Option Nat :=
  ((s.hit.held.filter fun e => decide (e.2.1 = o)).map (·.1)).getLast?

/-- Slot `o` takes or is granted hitch `n`: holding a higher one writes an ORDER record (R94). -/
def State.hitOrder (s : State) (o n : Nat) : State :=
  match s.highestHeld o with
  | some h => if n < h then s.emit (pg .hit 0) 0x2001 (le n 2 ++ le (slotFid o) 2 ++ le h 2) else s
  | none => s

/-- Slot `o` becomes the owner of hitch `n`; holding a higher one writes an ORDER record (R89, R94). -/
def State.hitchGive (s : State) (o n : Nat) : State :=
  { s with hit := { s.hit with held := Store.put n (o, s.hitEpoch o) s.hit.held } }.hitOrder o n

/-- Set the STATE and ABANDONED that HIT_WAIT of slot `o` reads (R96). -/
def State.setWait (s : State) (o st : Nat) (ab : Bool) : State :=
  let p := pg .hit 0
  (s.wr p (HIT_WAIT_STATE o) st).wb p (HIT_WAIT_ABANDONED o) ab

/-- A waiting slot is granted hitch `n`: GRANT record, STATE 2 (R93). -/
def State.hitchGrant (s : State) (o n : Nat) (ab : Bool) : State :=
  let s := (s.hitchGive o n).setWait o 2 ab
  s.emit (pg .hit 0) 0x0001 (le n 2 ++ le (slotFid o) 2 ++ [b2n ab])

/-- Hitch `n` leaves its owner: it passes to the longest waiter in the same cycle, or becomes free, with its abandoned mark
set when it was abandoned (R90, R92). -/
def State.hitchFree (s : State) (n : Nat) (ab : Bool) : State :=
  let s := { s with hit := { s.hit with held := Store.del n s.hit.held } }
  match takeFirst (fun w : HitWait => decide (w.hitch = n)) s.hit.waits with
  | some (w, rest) => ({ s with hit := { s.hit with waits := rest } }).hitchGrant w.slot n ab
  | none => if ab then s.setAband n true else s

/-- HIT_TAKE as read: GOT, ABANDONED, low epoch byte, owner (R96). -/
def takeWord (got ab : Bool) (epoch owner : Nat) : Nat :=
  b2n got + 2 * b2n ab + 256 * (epoch % 256) + 2 ^ 16 * owner

/-- A take attempt (R89, R95). -/
def State.hitTake (s : State) (w : Writer) (n : Nat) : State :=
  match w.hitSlot with
  | none => s.ret 0
  | some o =>
    if !s.enabled (pg .hit 0) then s.ret 0
    else match Store.find n s.hit.held with
      | some (o', e) => s.ret (takeWord (o' = o) false e (slotFid o'))
      | none =>
        let ab := s.abandoned n
        let s := (if ab then s.setAband n false else s).hitchGive o n
        s.ret (takeWord true ab (s.hitEpoch o) (slotFid o))

/-- R89 HIT_TAKE. -/
def execHitTake (w : Writer) (n : Fin 256) (s : State) : Host.Outcome State Fault Refusal := done (s.hitTake w n.val)

/-- A write of HIT_TAKE (R90, R95): RELEASE 1 by the owner frees the hitch; by anyone else, a requester without a slot among them, it
writes WRONG_RELEASE; with RELEASE 0 it has no effect. DESIGN CHOICE: of a hitch that nobody owns the record gives owner 0x0000
(log entry 130). -/
def State.hitRelease (s : State) (w : Writer) (n : Nat) (rel : Bool) : State :=
  if !rel || !s.enabled (pg .hit 0) then s
  else match Store.find n s.hit.held with
    | some (o, _) =>
      if w.hitSlot = some o then s.hitchFree n false
      else s.emit (pg .hit 0) 0x1801 (le n 2 ++ le w.fid 2 ++ le (slotFid o) 2)
    | none => s.emit (pg .hit 0) 0x1801 (le n 2 ++ le w.fid 2 ++ le 0 2)

/-- R90 HIT_RELEASE. -/
def execHitRelease (w : Writer) (n : Fin 256) (rel : Bool) (s : State) : Host.Outcome State Fault Refusal :=
  done (s.hitRelease w n.val rel)

/-- Slot `o` is waiting. -/
def State.waiting (s : State) (o : Nat) : Bool := s.hit.waits.any fun w => decide (w.slot = o)

/-- Drop the wait of slot `o`. -/
def State.dropWait (s : State) (o : Nat) : State :=
  { s with hit := { s.hit with waits := s.hit.waits.filter fun w => decide (w.slot ≠ o) } }

/-- A wait request with a non-zero timeout in µs (R93). -/
def State.hitWait (s : State) (w : Writer) (slot n tmo : Nat) : State :=
  if w.hitSlot ≠ some slot ∨ !s.enabled (pg .hit 0) ∨ tmo = 0 ∨ s.waiting slot then s
  else
    let s := s.wr (pg .hit 0) (HIT_WAIT_HITCH slot) n
    match Store.find n s.hit.held with
    | some (o', _) =>
      if o' = slot then ((s.hitOrder slot n).setWait slot 2 false).emit (pg .hit 0) 0x0001 (le n 2 ++ le (slotFid slot) 2 ++ [0])
      else ({ s with hit := { s.hit with waits := s.hit.waits ++ [(⟨slot, n, s.time.run + tmo * usRun⟩ : HitWait)] } }).setWait slot 1
        false
    | none =>
      let ab := s.abandoned n
      (if ab then s.setAband n false else s).hitchGrant slot n ab

/-- R93 HIT_WAIT. -/
def execHitWait (w : Writer) (slot : Fin 10) (n : Fin 256) (tmo : BitVec 20) (s : State) :
    Host.Outcome State Fault Refusal := done (s.hitWait w slot.val n.val tmo.toNat)

/-- R93 HIT_WAIT_CANCEL: only the slot's own owner cancels its wait. -/
def execHitWaitCancel (w : Writer) (slot : Fin 10) (s : State) : Host.Outcome State Fault Refusal :=
  done (if w.hitSlot = some slot.val ∧ s.enabled (pg .hit 0) ∧ s.waiting slot.val then
    (s.dropWait slot.val).setWait slot.val 0 false else s)

/-- R93 HIT_WAIT_TIMEOUT: the running-rate clock reaches the wait's limit and the wait ends with a TIMEOUT record. With no
wait in the slot nothing happens (log entry 3). -/
def execHitWaitTimeout (slot : Fin 10) (s : State) : Host.Outcome State Fault Refusal :=
  done (match s.hit.waits.find? fun w => decide (w.slot = slot.val) with
    | none => s
    | some w =>
      let s := ((s.advanceRun w.due).dropWait slot.val).setWait slot.val 3 false
      s.emit (pg .hit 0) 0x0801 (le w.hitch 2 ++ le (slotFid slot.val) 2))

/-- A write of HIT_WAIT by `w` with TIMEOUT 0 cancels the wait, and keeps the HITCH it carries (R93, R96). -/
def State.hitWaitZero (s : State) (w : Writer) (slot n : Nat) : State :=
  if w.hitSlot = some slot ∧ s.enabled (pg .hit 0) then
    let s := s.wr (pg .hit 0) (HIT_WAIT_HITCH slot) n
    if s.waiting slot then (s.dropWait slot).setWait slot 0 false else s
  else s

/-- HIT_WAIT as read (R96): HITCH, µs remaining while waiting, ABANDONED, STATE. DESIGN CHOICE: a fraction of a microsecond remaining
counts as a whole one (log entry 131). -/
def State.waitWord (s : State) (o : Nat) : Nat :=
  let p := pg .hit 0
  let remain := match s.hit.waits.find? fun w => decide (w.slot = o) with
    | some w => (w.due - s.time.run + usRun - 1) / usRun
    | none => 0
  s.rd p (HIT_WAIT_HITCH o) + 2 ^ 8 * remain + 2 ^ 29 * s.rd p (HIT_WAIT_ABANDONED o) + 2 ^ 30 * s.rd p (HIT_WAIT_STATE o)

/-- R96 HIT_WAIT_READ: a read that returns granted or timed out returns the register to idle. Reads by a requester without
a slot return 0 (R88). -/
def execHitWaitRead (w : Writer) (slot : Fin 10) (s : State) : Host.Outcome State Fault Refusal :=
  let p := pg .hit 0
  done (match w.hitSlot with
    | none => s.ret 0
    | some _ =>
      let v := s.waitWord slot.val
      let s := if 2 ≤ s.rd p (HIT_WAIT_STATE slot.val) then s.setWait slot.val 0 false else s
      s.ret v)

/-- A read of the HIT page's own registers by a requester without a slot returns 0 (R88). -/
def hitHidden (w : Writer) (a : Nat) : Bool := decide (pg .hit 0 + 0x100 ≤ a ∧ a < pg .hit 0 + 0x1000) && w.hitSlot.isNone

/-- An owner's epoch increments (R92): its hitches are released and abandoned, each with an ABANDON record, and its wait is
cancelled. -/
def State.epochUp (s : State) (o : Nat) : State :=
  let p := pg .hit 0
  let s := s.inc p (HIT_EPOCH_EPOCH o) 1
  let s := if s.waiting o then (s.dropWait o).setWait o 0 false else s
  (s.hit.held.filter fun e => decide (e.2.1 = o)).foldl
    (fun s e => (s.emit p 0x1001 (le e.1 2 ++ le (slotFid o) 2 ++ le e.2.2 2)).hitchFree e.1 true) s

/-- R92 OWNER_EPOCH_INCREMENT. -/
def execOwnerEpochIncrement (slot : Fin 10) (s : State) : Host.Outcome State Fault Refusal := done (s.epochUp slot.val)

/-- SOFT_RESET of the HIT page (R95): every hitch is released, each held one marked abandoned, every wait cancelled; the
epochs stay. -/
def State.hitSoftReset (s : State) : State :=
  let s := s.hit.held.foldl (fun s e => s.setAband e.1 true) s
  let s := s.hit.waits.foldl (fun s w => s.setWait w.slot 0 false) s
  { s with hit := ⟨[], []⟩ }

end Sys2Proof.Machine
end

