-- ==== Sys2Proof/Machine/Reset.lean ====
section
/-! DEFINITION. Resets (R449 to R451), self-test, fencing and the final SYS_CAPS (R31 to R36, R62, R99), the node ID (R30). -/

namespace Sys2Proof.Machine

/-- The pages of MSS, CLK, SAG, FAR, UPD, PCI, TST, HIT. -/
abbrev mssP : Nat := pg .mss 0
abbrev clkP : Nat := pg .clk 0
abbrev sagP : Nat := pg .sag 0
abbrev farP : Nat := pg .far 0
abbrev updP : Nat := pg .upd 0
abbrev pciP : Nat := pg .pci 0
abbrev tstP : Nat := pg .tst 0

/-- A BAR0 address in the always-on domain (R449): the TB, DBK and SAG pages, MSS_LOCKSTEP, MSS_LIFE_S, MSS_LIFE_TAVG and
FAR_COUNT. -/
def aonAddr (a : Nat) : Bool :=
  (decide (0xA000 ≤ a) && decide (a < 0xB000)) || (decide (0x6000 ≤ a) && decide (a < 0x7000)) ||
    (decide (0x9000 ≤ a) && decide (a < 0xA000)) || decide (a = 0x5108) || decide (a = 0x510C) || decide (a = 0x5110) ||
    decide (a = 0x710C)

/-- A reset with the cause of bit `c` of MSS_RESET_CAUSE is counted (R405). -/
def State.countReset (s : State) (c : Nat) : State :=
  { s with mss := { s.mss with resets := Store.put c (sat32 (Store.getD 0 c s.mss.resets)) s.mss.resets } }

/-- The test challenge of a new start (R478): a free value. -/
def State.drawChal (s : State) : State :=
  let (v, s) := s.draw
  s.wr tstP TST_CHAL_VALUE v

/-- Erase the NOR bytes `[a, b)`: they read 0xFF (R424). -/
def State.norErase (s : State) (a b : Nat) : State :=
  { s with nor := Store.keep (fun k => decide (k < a) || decide (b ≤ k)) s.nor }

/-- The update session ends without a staged package, and slot B is left invalid (R427). With no session open nothing ends. -/
def State.updAbort (s : State) : State :=
  if s.upd.path = 0 then s
  else
    let s := (s.norErase 0x2000000 0x2001000).wr updP UPD_RECEIVED_GRANULES 0
    let s := ((s.wr updP UPD_STATE_STATE 0).wr updP UPD_STATE_PATH 0).wb updP UPD_BLOCK_BUSY false
    { s with upd := { s.upd with path := 0, length := 0, got := [], writing := [] } }

/-- Everything outside the always-on domain is cleared (R449); `hold`: what then holds the MSS. A reset that clears SYS disables the time
pins, because their registry entries are free again (R62), and tri-states them; the TAIL of a sag (hold 4) leaves them as they are: they belong to the always-on
group (R453). What lies outside the device stands: the NVM, host memory, and the NOR but for slot B of a session that ends with the reset
(R427); and the model's own fields. -/
def State.clearSys (s : State) (hold : Nat) : State :=
  let r := State.reset
  let m : MssSt := { r.mss with hold := hold, wdog := s.time.run, lifeMs := s.mss.lifeMs, lifeSum := s.mss.lifeSum,
                                restore := s.mss.restore, resets := s.mss.resets }
  let t : TimeSt := if s.time.coarse then s.time.clock s.clockInc else s.time
  let t : TimeSt := { t with outs := if hold = 4 then t.outs else [], coarse := false }
  let pins := if hold = 4 then [] else ((upTo 8).filter fun j => s.on tb (TB_TO_CTRL_EN j)).map (Out.pin "TOUT" · 2)
  let s := { r with
    regs := Store.keep (fun k => aonAddr (k / 32)) s.regs
    cap := Store.keep (fun k => aonAddr (k / 32)) s.cap
    rdata := s.rdata
    out := s.out ++ pins ++ (if s.pcieWakeLow then [Out.pin "PCIE_WAKE_N" 0 1] else [])
    freeCtr := s.freeCtr
    evSeq := Store.keep aonAddr s.evSeq
    dbk := s.dbk
    time := t
    host := s.host
    mss := m
    sag := s.sag
    nvm := s.nvm
    nor := s.updAbort.nor
    pending := s.pending }
  let s := if hold = 4 then s else (upTo 8).foldl (fun s i =>
    ((s.wb tb (TB_TI_CTRL_EN i) false).wb tb (TB_TO_CTRL_EN i) false).wb tb (TB_TO_CTRL_ARM i) false) s
  s.wb tb TB_STATUS_COARSE false

/-- A reset of everything outside the always-on domain (R449), with the cause of bit `c`. -/
def State.resetSys (s : State) (c hold : Nat) : State :=
  (((s.clearSys hold).wr mssP MSS_RESET_CAUSE_CAUSE (2 ^ c)).countReset c).drawChal

/-- The MSS begins stage 0 (R393, R450): a RESET record with its causes (R399), the watchdog's first period, a new command nonce
(R387). -/
def State.bootStart (s : State) : State :=
  let s := { s with mss := { s.mss with hold := 0, wdog := s.time.run } }
  ((s.wr mssP MSS_BOOT_STAGE 0).emit mssP 0x0001 [s.rd mssP MSS_RESET_CAUSE_CAUSE]).newNonce

/-- A reset with the supply good and RESET_N high: boot runs from stage 0. -/
def State.restart (s : State) (c : Nat) : State := (s.resetSys c 0).bootStart

/-- What the MSS was doing for an update ends with its reset: a copy, an activation's grace period, a handover. UPD_STATE is then STAGED where
slot B holds a staged package. DEDUCED: the spec says what such a reset does to a session, and names none of these (log entry 167). -/
def State.updHalt (s : State) : State :=
  if s.rd updP UPD_STATE_STATE < 5 then s
  else
    { s.wr updP UPD_STATE_STATE (if s.on updP UPD_STAGED_VALID then 4 else 0) with upd := { s.upd with grace := none, ho := 0 } }

/-- The MSS alone is held and restarted from stage 0 (R394, R449), with the cause of bit `c`; what its page holds outside the
always-on domain returns to its reset value, but for the sag detector's thresholds, which the reset does not affect; its causes accumulate, its epoch has incremented (R88). -/
def State.mssReset (s : State) (c hold : Nat) : State :=
  let causes := setBit (s.rd mssP MSS_RESET_CAUSE_CAUSE) c
  let s := s.epochUp 1
  let s := s.updAbort
  let s := s.updHalt
  let rails := (upTo 16).flatMap fun v => [fkey mssP (MSS_VS_SAG_SAG v), fkey mssP (MSS_VS_SAG_WATCH v)]
  let s := { s.clearRange mssP (mssP + 0x1000) fun k => aonAddr (k / 32) || rails.contains k with evSeq := Store.del mssP s.evSeq }
  let r := State.reset.mss
  let m : MssSt := { r with hold := hold, lastMiss := s.mss.lastMiss, wdog := s.time.run, lifeMs := s.mss.lifeMs,
                            lifeSum := s.mss.lifeSum, restore := s.mss.restore, resets := s.mss.resets, drovers := s.mss.drovers,
                            drv := s.mss.drv }
  let s := ({ s with mss := m }.wr mssP MSS_RESET_CAUSE_CAUSE causes).countReset c
  let s := { s with yoke := { s.yoke with cmds := [] } }
  if hold = 0 then s.bootStart else s

/-- R449 POWER_ON_RESET: VHOLD rises above 4.0 V: everything is cleared, yard time is UNSET, the daybook empty, the fuses read
again. RESET_N is low until the rails are good (R450). -/
def execPowerOnReset (s : State) : Host.Outcome State Fault Refusal :=
  let r := State.reset
  let s : State := { r with rdata := s.rdata, out := s.out, freeCtr := s.freeCtr, host := s.host, nvm := s.nvm,
                            nor := s.updAbort.nor,
                            pending := s.pending }
  done ((s.countReset 0).drawChal)

/-- R449 RESET_N_ASSERT: RESET_N goes low. Without always-on power (hold 5) nothing runs that it could clear. -/
def execResetNAssert (s : State) : Host.Outcome State Fault Refusal :=
  done (if s.mss.hold = 5 then s else s.resetSys 0 1)

/-- R450 RESET_RELEASE: RESET_N rises; the ROM waits while PFAIL_N is low. RECOVERY_N low asks for recovery mode (R435). -/
def execResetRelease (pfailLow recoveryLow : Bool) (s : State) : Host.Outcome State Fault Refusal :=
  done (if s.mss.hold ≠ 1 then s
    else
      let s := { s with mss := { s.mss with recover := s.mss.recover || recoveryLow } }
      if pfailLow then s else s.bootStart)

/-- R451 SYS_RESET_GO: a write of the host or the MSS resets with cause SOFT; another writer's has no effect. -/
def execSysResetGo (w : Writer) (s : State) : Host.Outcome State Fault Refusal :=
  done (match w with
    | .host => s.restart 6
    | .mss => s.restart 6
    | _ => s)

/-- R449 PCI_RESET: 0 PERST_N, 1 hot reset, 2 link down, 3 function-level reset. The record is written, then the PCI page, the
DMA engine, the MSI-X table and its pending bits are cleared; the host epoch increments (R88, R92). -/
def execPciReset (kind : Fin 4) (s : State) : Host.Outcome State Fault Refusal :=
  let s := (s.emit pciP 0x1801 [kind.val]).epochUp 0
  let link := [PCI_LINK_SPEED, PCI_LINK_UP, PCI_LINK_WIDTH].map fun f => fkey pciP f
  let keep := fun (k : Nat) => (kind.val = 1 || kind.val = 3) && link.contains k
  let s := (s.clearRange pciP (pciP + 0x1000) keep).clearRange 0xD000 0xE020 fun _ => false
  let s := { s with evSeq := Store.del pciP s.evSeq }
  let s := s.wr mssP MSS_RESET_CAUSE_CAUSE (setBit (s.rd mssP MSS_RESET_CAUSE_CAUSE) 5)
  done (s.countReset 5)

/-! ### Self-test (R31 to R36) -/

/-- Ones among the low `n` bits. -/
def popCount (n v : Nat) : Nat := ((upTo n).filter fun i => bit v i).length

/-- Channels that R99 fences at the start: a reserved encoding, two ranks with another density than 8 Gb, or values that differ
from channel 0's. -/
def State.dmcMisfit (s : State) (n : Nat) : Bool :=
  let p := pg .dmc n
  let v := fun (q : Nat) => [s.rd q DMC_CFG_DENSITY, s.rd q DMC_CFG_RANKS, s.rd q DMC_CFG_RATE]
  decide (s.rd p DMC_CFG_DENSITY = 3) || decide (4 < s.rd p DMC_CFG_RATE) ||
    (s.on p DMC_CFG_RANKS && decide (s.rd p DMC_CFG_DENSITY ≠ 0)) || decide (v p ≠ v (pg .dmc 0))

/-- Channels fenced or not populated, and those of them that failed. -/
def State.dmcBad (s : State) (t : SelfTest) : Nat × Nat :=
  (upTo 8).foldl (fun a n =>
    if !s.on (pg .dmc n) DMC_CFG_POPULATED then (setBit a.1 n, a.2)
    else if bit t.dmc.toNat n || s.dmcMisfit n then (setBit a.1 n, setBit a.2 n)
    else a) (0, 0)

/-- The units that failed: the function ID of each, 0 for a unit without a page (R36). -/
def failedUnits (t : SelfTest) (dmcFailed : Nat) : List Nat :=
  let l := fun (n v : Nat) (f : Nat → Nat) => ((upTo n).filter fun i => bit v i).map f
  l 8 t.dec.toNat (fidOf .dec) ++ l 2 t.enc.toNat (fidOf .enc) ++ l 2 t.cmp.toNat (fidOf .cmp) ++
    l 4 t.so.toNat (fidOf .gate) ++ l 8 dmcFailed (fidOf .dmc) ++ l 8 t.drv.toNat (fidOf .drv) ++
    l 16 t.quad.toNat (fun _ => 0) ++ l 32 t.scaler.toNat (fun _ => 0) ++ l 24 t.cvu.toNat (fidOf .cvu) ++
    l 48 t.loft.toNat (fun _ => 0) ++ l 64 t.bank.toNat (fun _ => 0) ++ (if t.baseFail then [0] else [])

/-- One SELFTEST_FAIL record per failed unit (R32, R399); the test step is a free value. -/
def State.selfTestRecords (s : State) (l : List Nat) : State :=
  l.foldl (fun s f =>
    let (step, s) := s.draw
    s.emit mssP 0x0801 (le f 2 ++ [step % 256])) s

/-- The minimum service set passes (R31). -/
def minimumSet (t : SelfTest) (dmcFenced : Nat) : Bool :=
  !t.baseFail && decide (popCount 48 t.loft.toNat ≤ 44) && decide (popCount 8 dmcFenced < 8) &&
    decide (popCount 2 t.cmp.toNat < 2) && decide (popCount 4 t.so.toNat < 4) && decide (popCount 16 t.quad.toNat < 16)

/-- Set the fence registers (R35). -/
def State.fenceSet (s : State) (t : SelfTest) (dmcFenced : Nat) : State :=
  let s := ((s.wr 0 SYS_FENCE_A_DEC t.dec.toNat).wr 0 SYS_FENCE_A_ENC t.enc.toNat).wr 0 SYS_FENCE_A_CMP t.cmp.toNat
  let s := ((s.wr 0 SYS_FENCE_A_SO t.so.toNat).wr 0 SYS_FENCE_A_DMC dmcFenced).wr 0 SYS_FENCE_A_DRV t.drv.toNat
  let s := ((s.wr 0 SYS_FENCE_B_QUAD t.quad.toNat).wr 0 SYS_FENCE_C_SCALER t.scaler.toNat).wr 0 SYS_FENCE_D_CVU t.cvu.toNat
  (s.wr 0 SYS_FENCE_E_LOFT_LO t.loft.toNat).wr 0 SYS_FENCE_F_LOFT_HI (t.loft.toNat / 2 ^ 32)

/-- Set SYS_CAPS (R34). -/
def State.capsSet (s : State) (t : SelfTest) (dmcFenced : Nat) (degraded : Bool) : State :=
  let s := ((s.wr 0 SYS_CAPS_DEC_N (8 - popCount 8 t.dec.toNat)).wr 0 SYS_CAPS_ENC_N (2 - popCount 2 t.enc.toNat)).wr 0
    SYS_CAPS_CMP_N (2 - popCount 2 t.cmp.toNat)
  let s := ((s.wr 0 SYS_CAPS_SO_N (4 - popCount 4 t.so.toNat)).wr 0 SYS_CAPS_DMC_N (8 - popCount 8 dmcFenced)).wr 0
    SYS_CAPS_QUAD_N (16 - popCount 16 t.quad.toNat)
  let s := (s.wr 0 SYS_CAPS_DRV_N (8 - popCount 8 t.drv.toNat)).wr 0 SYS_CAPS_LOFT_MIB (48 - popCount 48 t.loft.toNat)
  s.wb 0 SYS_CAPS_DEGRADED degraded

/-- FENCED of the registry entries (R62): lane quads, scaler slices, check-value units, line-buffer banks. -/
def State.entriesFence (s : State) (t : SelfTest) : State :=
  let mark := fun (s : State) (n v base : Nat) => (upTo n).foldl (fun s i =>
    s.wb (ownPg (base + i)) (OWN_ENT_FENCED ((base + i) % 1024)) (bit v i)) s
  mark (mark (mark (mark s 16 t.quad.toNat 1024) 32 t.scaler.toNat 1056) 24 t.cvu.toNat 1088) 64 t.bank.toNat 1152

/-- A channel in service after its training (R99, R100, R112, R123, R124): its map, its first training, its initialiser and its scrubber
at the start. DESIGN CHOICE: that training writes no TRAIN_DONE record (log entry 133). -/
def State.dmcInService (s : State) (n pos : Nat) : State :=
  let p := pg .dmc n
  let (temp, s) := s.dmcDeg n
  let s := (s.dmcLock n true).setDm n { s.dm n with scrubFrom := s.time.run }
  let s := ((s.wr p DMC_MAP_N s.channels.length).wr p DMC_MAP_POS pos).wr p DMC_MAP_MAPPED_GIB s.chanGiB
  let s := s.wr p DMC_TRN_TEMP_LAST temp
  (s.cnt p DMC_TRN_COUNT_COUNT 1).wb p HDR_CTRL_ENABLE true

/-! ### The node ID (R25, R30) -/

/-- R30 NODE_WRITE: NODE_ID changes only while VALID is 0; a write of VALID 0 closes the yoke as a loss of the partner. Both are
frozen by the page's lock (R45). DESIGN CHOICE: the LINK_DOWN record of that closing carries cause 0, silence, because R391 names no
cause for it (log entry 129). -/
def execNodeWrite (w : Writer) (v : Word) (s : State) : Host.Outcome State Fault Refusal :=
  let n := v.toNat
  let l := [SYS_NODE_NODE_ID, SYS_NODE_VALID]
  done (if s.on 0 HDR_CTRL_LOCK then (if s.differs 0 l n then s.lockedWrite 0 0x120 0xFFFF n w else s)
    else if s.on 0 SYS_NODE_VALID then
      if fieldOf n SYS_NODE_VALID = 0 then
        let s := s.wb 0 SYS_NODE_VALID false
        let s := s.claimSet 0 5
        if s.yoke.link then s.ykDown 0 else s
      else s
    else s.setFields 0 l n)

end Sys2Proof.Machine
end

