-- ==== Sys2Proof/Machine/Update.lean ====
section
/-! DEFINITION. Packages and slots, staging, activation, live handover, recovery (R419 to R437). -/

namespace Sys2Proof.Machine

/-! ### The NOR and packages (R419 to R424) -/

/-- Bytes of the NOR. -/
def State.norBytes (s : State) (a n : Nat) : List Nat := (upTo n).map fun i => (Mem.readD 0xFF s.nor (a + i)).toNat

/-- A little-endian number in the NOR. -/
def State.norLE (s : State) (a n : Nat) : Nat := ofLE (s.norBytes a n)

/-- Write bytes to the NOR. -/
def State.norPut (s : State) (a : Nat) (l : List Nat) : State :=
  { s with nor := l.zipIdx.foldl (fun m x => Mem.writeD 0xFF m (a + x.2) (BitVec.ofNat 8 x.1)) s.nor }

/-- Base of slot A (false) or B (true). -/
def slotBase (b : Bool) : Nat := if b then 0x2000000 else 0

/-- A component entry of a package header (R419). -/
structure PkgEntry where
  typ : Nat
  pad : Nat
  off : Nat
  len : Nat
  ver : Nat
  pad2 : Nat
  digest : List Nat

/-- Entry `k` of the header at `b`. -/
def State.pkgEntry (s : State) (b k : Nat) : PkgEntry :=
  let e := b + 0x40 + 64 * k
  ⟨s.norLE e 1, s.norLE (e + 1) 3, s.norLE (e + 4) 4, s.norLE (e + 8) 4, s.norLE (e + 12) 2, s.norLE (e + 14) 2,
    s.norBytes (e + 16) 48⟩

/-- The entries of the header at `b`. -/
def State.pkgEntries (s : State) (b : Nat) : List PkgEntry := (upTo (min 15 (s.norLE (b + 6) 2))).map (s.pkgEntry b)

/-- The component of a type, where the header names one. -/
def State.pkgComp (s : State) (b typ : Nat) : Option PkgEntry := (s.pkgEntries b).find? fun e => decide (e.typ = typ)

/-- A component matches its digest (R423). -/
def State.digestOk (s : State) (b : Nat) (e : PkgEntry) : Bool := decide (Config.sha384 (s.norBytes (b + e.off) e.len) = e.digest)

/-- The rules of R419 and R420 for the entries of a header whose package has LENGTH `len`. -/
def entriesOk (len : Nat) (l : List PkgEntry) : Bool :=
  (l.all fun e => decide (e.typ ≠ 0) && decide (e.pad = 0) && decide (e.pad2 = 0) && decide (e.off % 4096 = 0) &&
    decide (0x1000 ≤ e.off) && decide (e.off + e.len ≤ len)) &&
  ((upTo 5).all fun t => decide ((l.filter fun e => decide (e.typ = t + 1)).length = 1)) &&
  (l.all fun e => decide (e.typ ≠ 1) || decide (e.len ≤ 384 * 1024)) &&
  (l.zipIdx.all fun x => l.zipIdx.all fun y =>
    decide (x.2 = y.2) || decide (x.1.off + x.1.len ≤ y.1.off) || decide (y.1.off + y.1.len ≤ x.1.off))

/-- The layout rules of a header (R419, R420). -/
def State.headerOk (s : State) (b : Nat) : Bool :=
  let count := s.norLE (b + 6) 2
  let len := s.norLE (b + 8) 4
  let flags := s.norLE (b + 0xF) 1
  let zero := fun (a n : Nat) => (s.norBytes (b + a) n).all fun x => decide (x = 0)
  decide (5 ≤ count) && decide (count ≤ 15) && decide (0x1000 ≤ len) && decide (len ≤ 0x1FFF000) && decide (flags ≤ 1) &&
    (decide (flags = 1) || zero 0x10 8) && zero 0x18 40 && zero 0x4C0 2880 && entriesOk len (s.pkgEntries b)

/-- The first rule that a header fails (R423), by its code (R430); digests apart. -/
def State.headerCode (s : State) (b : Nat) : Option Nat :=
  let pub := s.norBytes (b + 0x400) 96
  if s.norBytes b 4 ≠ [0x51, 0x49, 0x4D, 0x47] ∨ s.norLE (b + 4) 2 ≠ 1 then some 16
  else if Config.sha384 pub ≠ Config.fuseKeyHash then some 17
  else if !Config.ecdsaOk pub (Config.sha384 (s.norBytes b 0x460)) (s.norBytes (b + 0x460) 96) then some 18
  else if s.norLE (b + 0xE) 1 ≠ 0xA1 then some 19
  else if !s.headerOk b then some 20
  else if s.norLE (b + 0xF) 1 = 1 ∧ s.norLE (b + 0x10) 8 ≠ Config.fuseUid % 2 ^ 64 then some 22
  else none

/-- The check of a whole package (R423): the code and the component type of the first failure, in the order of the codes. -/
def State.pkgCode (s : State) (b : Nat) : Option (Nat × Nat) :=
  match s.headerCode b with
  | some 22 => match (s.pkgEntries b).find? (fun e => !s.digestOk b e) with
    | some e => some (21, e.typ)
    | none => some (22, 0)
  | some c => some (c, 0)
  | none => match (s.pkgEntries b).find? (fun e => !s.digestOk b e) with
    | some e => some (21, e.typ)
    | none => none

/-- A slot's header and MSS component check (R425). -/
def State.slotBoots (s : State) (slot : Bool) : Bool :=
  let b := slotBase slot
  (s.headerCode b).isNone && (match s.pkgComp b 1 with
    | some e => s.digestOk b e
    | none => false)

/-- The activation marker (R424). -/
def State.markerBytes (s : State) : List Nat :=
  let m := [0x51, 0x41, 0x43, 0x54] ++ Config.sha384 (s.norBytes 0x2000000 0x460)
  m ++ le (crc32c m) 4

/-- The marker is valid and names slot B's header (R425). -/
def State.markerOk (s : State) : Bool := decide (s.norBytes 0x3FFF000 56 = s.markerBytes)

/-! ### Requests (R429, R430) -/

/-- UPD_STATE.STATE. -/
def State.updState (s : State) : Nat := s.rd updP UPD_STATE_STATE

/-- ROM recovery mode (R435). -/
def State.recovery (s : State) : Bool := s.on mssP MSS_BOOT_RECOVERY

/-- The message of a request that came as a datagram, or over the UART behind the byte 0x7E and its length (R429). -/
def updMsg (r : UpdReq) : List Nat :=
  if r.path.val = 3 then
    (if r.bytes.take 1 = [0x7E] ∧ recNum r.bytes 1 2 + 3 = r.bytes.length then r.bytes.drop 3 else [])
  else r.bytes

/-- OFFSET, SEQ and DATA of a message (R429). -/
def updOff (r : UpdReq) : Nat := recNum (updMsg r) 8 4
def updSeq (r : UpdReq) : Nat := recNum (updMsg r) 0xC 4
def updData (r : UpdReq) : List Nat := ((updMsg r).drop 0x10).take (recNum (updMsg r) 6 2)

/-- A message of R429 that asks for `typ`: MAGIC, TYPE, CODE 0, LEN, and a right CRC. DEDUCED: one of another form is no message, and gets no
reply either (log entry 165). -/
def updFormOk (typ : Nat) (r : UpdReq) : Bool :=
  let m := updMsg r
  let n := recNum m 6 2
  decide (m.take 4 = [0x51, 0x55, 0x50, 0x31]) && decide (recNum m 4 2 = typ) && decide (n ≤ 1024) && decide (m.length = n + 20) &&
    decide (recNum m (n + 16) 4 = crc32c (m.take (n + 16)))

/-- A request for `typ` is heard (R429, R436): register writes of the host and the MSS; messages to the update port from the site record's
update address on its update ports, in recovery mode from any address on NET16; UART messages. -/
def State.updHeard (s : State) (typ : Nat) (r : UpdReq) : Bool :=
  match r.path.val with
  | 1 => decide (r.w = .host) || decide (r.w = .mss)
  | 2 => updFormOk typ r && decide (r.dport = s.updPort) && (if s.recovery then decide (r.port.val = 16) && r.v6
      else bit (s.siteNum 0x34 4) r.port.val && decide (s.siteNum 0x20 16 ≠ 0) && decide (r.src = s.siteNum 0x20 16) &&
        r.v6 == bit (s.siteNum 9 1) 1)
  | 3 => updFormOk typ r
  | _ => false

/-- A reply (R429), to the address and port that the request came from; a register write gets none. -/
def State.updReply (s : State) (r : UpdReq) (typ code : Nat) (data : List Nat) : State :=
  let m := [0x51, 0x55, 0x50, 0x31, typ + 0x80, code] ++ le data.length 2 ++ le (updOff r) 4 ++ le (updSeq r) 4 ++ data
  let m := m ++ le (crc32c m) 4
  match r.path.val with
  | 2 => s.netDatagram (2 ^ r.port.val) ⟨r.v6, r.src, r.sport, s.updPort⟩ m
  | 3 => s.emitOut (.uart ([0x7E] ++ le m.length 2 ++ m))
  | _ => s

/-- A request refused: REFUSED, CODE, the reply. -/
def State.updRefuse (s : State) (r : UpdReq) (typ code : Nat) : State :=
  ((s.wr updP UPD_STATE_CODE code).emit updP 0x0001 [typ, code, r.path.val]).updReply r typ code []

/-- The team's sole active member (R430). -/
def State.soleActive (s : State) : Bool :=
  decide (s.claim ≠ 0) && !s.on ykP YK_CFG_SOLO && (decide (s.partnerClaim = 0) || decide (s.partnerClaim = 0xFF))

/-- The codes that OPEN, ACTIVATE and HANDOVER share, in the order of R430. -/
def State.updShared (s : State) : Option Nat :=
  if s.upd.path ≠ 0 ∨ s.updState = 5 ∨ s.updState = 7 then some 1
  else if s.rd sagP SAG_STAT_STATE ≠ 0 then some 2
  else if s.on updP UPD_GUARD_HOLD then some 3
  else if !s.on sagP SAG_STAT_CHARGED then some 4
  else none

/-- The codes that OPEN and ACTIVATE share beyond them. -/
def State.updSole (s : State) : Option Nat :=
  if s.soleActive && !s.recovery then some 5 else if s.updState = 6 then some 6 else none

/-- A request to the open session from another path, or with none open (R427). -/
def State.updPath (s : State) (r : UpdReq) : Option Nat :=
  if s.upd.path = 0 then some 9 else if s.upd.path ≠ r.path.val then some 1 else none

/-! ### Staging (R427, R428) -/

/-- LENGTH of an OPEN: the register, or the message's field. -/
def State.openLength (s : State) (r : UpdReq) : Nat := if r.path.val = 1 then s.rd updP UPD_LENGTH_BYTES else updOff r

/-- Why an OPEN is refused. -/
def State.openCode (s : State) (r : UpdReq) : Option Nat :=
  s.updShared.orElse fun _ => s.updSole.orElse fun _ =>
    if s.openLength r < 0x1000 ∨ 0x1FFF000 < s.openLength r then some 9 else none

/-- R427 UPDATE_OPEN: slot B and the marker are erased from here on. -/
def execUpdateOpen (r : UpdReq) (s : State) : Host.Outcome State Fault Refusal :=
  done (if !s.updHeard 1 r then s
    else match s.openCode r with
      | some c => s.updRefuse r 1 c
      | none =>
        let len := s.openLength r
        let s := (s.norErase 0x2000000 0x4000000).wb updP UPD_STAGED_VALID false
        let s := ((s.wr updP UPD_STATE_STATE 1).wr updP UPD_STATE_PATH r.path.val).wr updP UPD_RECEIVED_GRANULES 0
        ({ s with upd := { s.upd with path := r.path.val, length := len, got := [], writing := [], replies := [] } }).updReply r 1 0 [])

/-- R427 SLOT_ERASE_DONE. -/
def execSlotEraseDone (s : State) : Host.Outcome State Fault Refusal :=
  done (if s.updState = 1 then s.wr updP UPD_STATE_STATE 2 else s)

/-- Offset and bytes of a block: UPD_OFFSET and LEN bytes of UPD_BUF, or the message's. -/
def State.blockOf (s : State) (r : UpdReq) : Nat × List Nat :=
  if r.path.val = 1 then
    let n := r.len % 2048
    (s.rd updP UPD_OFFSET_BYTES, ((upTo 256).flatMap fun i => le (s.rd updP (UPD_BUF_DATA i)) 4).take n ++
      List.replicate (n - 1024) 0)
  else (updOff r, updData r)

/-- A block's offset and length keep R427. -/
def blockFits (len off n : Nat) : Bool :=
  decide (off % 1024 = 0) && decide (n % 4 = 0) && decide (4 ≤ n) && decide (n ≤ 1024) && decide (off + n ≤ len) &&
    (decide (n = 1024) || decide (off + n = len))

/-- The bytes that a granule holds or is about to hold, where it has been received. -/
def State.granule (s : State) (off n : Nat) : Option (List Nat) :=
  match s.upd.writing.find? (fun x => decide (x.1 = off)) with
  | some x => some x.2
  | none => if s.upd.got.contains (off / 1024) then some (s.norBytes (0x2000000 + off) n) else none

/-- Why a block is refused (R427, R430). -/
def State.blockCode (s : State) (r : UpdReq) : Option Nat :=
  let x := s.blockOf r
  (s.updPath r).orElse fun _ =>
    if s.updState ≠ 2 then some 1
    else if !blockFits s.upd.length x.1 x.2.length then some 9
    else match s.granule x.1 x.2.length with
      | some d => if d = x.2 then none else some 10
      | none => none

/-- The code of the first reply to a BLOCK message, where the same bytes have come by the same path since the session was opened. -/
def State.firstReply (s : State) (r : UpdReq) : Option Nat :=
  if r.path.val = 1 then none
  else (s.upd.replies.find? fun x => decide (x.1 = r.path.val) && decide (x.2.1 = r.bytes)).map fun x => x.2.2

/-- The code that a BLOCK message is answered with is kept for its repeats. -/
def State.keepReply (s : State) (r : UpdReq) (c : Nat) : State :=
  if r.path.val = 1 then s else { s with upd := { s.upd with replies := s.upd.replies ++ [(r.path.val, r.bytes, c)] } }

/-- A block is judged: refused, or on its way to the NOR; one that repeats bytes already received is accepted again. -/
def State.blockTake (s : State) (r : UpdReq) : State :=
  match s.blockCode r with
  | some c => (s.updRefuse r 2 c).keepReply r c
  | none =>
    let x := s.blockOf r
    let s := if (s.granule x.1 x.2.length).isSome then s
      else ({ s with upd := { s.upd with writing := s.upd.writing ++ [x] } }).wb updP UPD_BLOCK_BUSY true
    (s.updReply r 2 0 []).keepReply r 0

/-- R428, R429 UPDATE_BLOCK. A repeated message gets the reply it got first, and does nothing else. DEDUCED: a message repeats another when all its
bytes, SEQ among them, and its path are the same (log entry 165). -/
def execUpdateBlock (r : UpdReq) (s : State) : Host.Outcome State Fault Refusal :=
  done (if !s.updHeard 2 r then s
    else match s.firstReply r with
      | some c => s.updReply r 2 c []
      | none => s.blockTake r)

/-- R428 BLOCK_WRITE_DONE: the oldest block's bytes are in the NOR. -/
def execBlockWriteDone (s : State) : Host.Outcome State Fault Refusal :=
  done (match s.upd.writing with
    | [] => s
    | x :: t =>
      let s := s.norPut (0x2000000 + x.1) x.2
      let s := { s with upd := { s.upd with writing := t, got := s.upd.got ++ [x.1 / 1024] } }
      (s.wr updP UPD_RECEIVED_GRANULES s.upd.got.length).wb updP UPD_BLOCK_BUSY (!t.isEmpty))

/-- Why a CLOSE is refused. -/
def State.closeCode (s : State) (r : UpdReq) : Option Nat :=
  (s.updPath r).orElse fun _ =>
    if s.updState ≠ 2 then some 1
    else if s.upd.got.length < (s.upd.length + 1023) / 1024 then some 11 else none

/-- R427 UPDATE_CLOSE. -/
def execUpdateClose (r : UpdReq) (s : State) : Host.Outcome State Fault Refusal :=
  done (if !s.updHeard 3 r then s
    else match s.closeCode r with
      | some c => s.updRefuse r 3 c
      | none => (s.wr updP UPD_STATE_STATE 3).updReply r 3 0 [])

/-- The session is over with STATE `st`. -/
def State.updOver (s : State) (st : Nat) : State :=
  let s := (s.wr updP UPD_STATE_STATE st).wr updP UPD_STATE_PATH 0
  { s with upd := { s.upd with path := 0, length := 0, got := [], writing := [] } }

/-- R423 VERIFY_DONE: the package in slot B is staged, or fails with its first code; `norOk`: every write to the NOR succeeded. A
header whose LENGTH is not the session's breaks R419. -/
def execVerifyDone (norOk : Bool) (s : State) : Host.Outcome State Fault Refusal :=
  let b := slotBase true
  let bad : Option (Nat × Nat) := match s.pkgCode b with
    | some c => if 20 < c.1 ∧ s.norLE (b + 8) 4 ≠ s.upd.length then some (20, 0) else some c
    | none => if s.norLE (b + 8) 4 ≠ s.upd.length then some (20, 0) else if norOk then none else some (23, 0)
  done (if s.updState ≠ 3 then s
    else match bad with
      | some (c, t) => ((s.updOver 0).wr updP UPD_STATE_CODE c).emit updP 0x0802 [c, t]
      | none =>
        let v := s.norLE (b + 0xC) 2
        (((s.updOver 4).wr updP UPD_STAGED_VERSION v).wb updP UPD_STAGED_VALID true).emit updP 0x0801 (le v 2))

/-- R427 UPDATE_ABORT. -/
def execUpdateAbort (r : UpdReq) (s : State) : Host.Outcome State Fault Refusal :=
  done (if !s.updHeard 5 r then s
    else if s.upd.path ≠ 0 ∧ s.upd.path ≠ r.path.val then s.updRefuse r 5 1
    else s.updAbort.updReply r 5 0 [])

/-- R429 UPDATE_STATUS: UPD_STATE, UPD_RECEIVED and UPD_STAGED. -/
def execUpdateStatus (r : UpdReq) (s : State) : Host.Outcome State Fault Refusal :=
  let st := s.updState + 16 * s.rd updP UPD_STATE_PATH + 256 * s.rd updP UPD_STATE_CODE
  let stg := s.rd updP UPD_STAGED_VERSION + 2 ^ 31 * s.rd updP UPD_STAGED_VALID
  done (if s.updHeard 6 r then s.updReply r 6 0 (le st 4 ++ le (s.rd updP UPD_RECEIVED_GRANULES) 4 ++ le stg 4) else s)

/-! ### Activation and recovery (R431, R435) -/

/-- Why an ACTIVATE is refused. -/
def State.activateCode (s : State) : Option Nat :=
  s.updShared.orElse fun _ => s.updSole.orElse fun _ => if s.updState ≠ 4 then some 7 else none

/-- R431 UPDATE_ACTIVATE: the marker is written and read back (`norOk`), the claim falls to 0, GRACE begins. -/
def execUpdateActivate (r : UpdReq) (norOk : Bool) (s : State) : Host.Outcome State Fault Refusal :=
  done (if !s.updHeard 4 r then s
    else match s.activateCode with
      | some c => s.updRefuse r 4 c
      | none =>
        if !norOk then s.updRefuse r 4 23
        else
          let s := ((s.norErase 0x3FFF000 0x4000000).norPut 0x3FFF000 s.markerBytes).wr updP UPD_STATE_STATE 5
          let s := (s.claimSet 0 0).emit updP 0x1001 (le (s.rd updP UPD_STAGED_VERSION) 2)
          ({ s with upd := { s.upd with grace := some s.time.run } }).updReply r 4 0 [])

/-- R431 ACTIVATE_GRACE_EXPIRE: GRACE ms after the claim was lowered the device resets with cause SOFT. -/
def execActivateGraceExpire (s : State) : Host.Outcome State Fault Refusal :=
  done (match s.upd.grace with
    | none => s
    | some t => (s.advanceRun (t + ns (max 1 (s.rd updP UPD_ACT_GRACE) * 1000000))).restart 6)

/-- R435 UPDATE_RECOVER: a write of the host or the MSS restarts the device into recovery mode. -/
def execUpdateRecover (w : Writer) (s : State) : Host.Outcome State Fault Refusal :=
  let go := fun (s : State) =>
    let s := s.resetSys 6 0
    ({ s with mss := { s.mss with recover := true } }).bootStart
  done (match w with
    | .host => go s
    | .mss => go s
    | _ => s)

/-- R426 SLOT_COPY_DONE: the copy of slot B to slot A ends, UPD_STATE returning to STAGED where slot B holds a staged package, or fails at 0 erase, 1 write, 2 read-back, leaving slot A without a
header. -/
def execSlotCopyDone (fail : Option (Fin 3)) (s : State) : Host.Outcome State Fault Refusal :=
  let v := s.norLE 0x200000C 2
  let len := s.norLE 0x2000008 4
  done (if s.updState ≠ 6 then s
    else
      let s := s.wr updP UPD_STATE_STATE (if s.on updP UPD_STAGED_VALID then 4 else 0)
      match fail with
      | some k => (s.norErase 0 0x1000).emit updP 0x1802 (le v 2 ++ [k.val])
      | none =>
        let body := (s.nor.filter fun e => decide (0x2000000 ≤ e.1) && decide (e.1 < 0x2000000 + min len 0x2000000)).map fun e =>
          (e.1 - 0x2000000, e.2)
        let s := { s with nor := body ++ (s.norErase 0 0x2000000).nor }
        ((s.norErase 0x3FFF000 0x4000000).wr updP UPD_COPY_MIB (len / 2 ^ 20)).emit updP 0x1801 (le v 2))

/-- A read of UPD_COPY while the copy runs: how far it has come is a free value that never falls and never exceeds the package (R426, R436; log
entry 171). -/
def State.copySeen (s : State) : State :=
  if s.updState = 6 then
    let (v, s) := s.draw
    s.wr updP UPD_COPY_MIB (max (s.rd updP UPD_COPY_MIB) (min v (s.norLE 0x2000008 4 / 2 ^ 20)))
  else s

/-! ### Live handover (R432, R433) -/

/-- Every drover's epoch increments (R88). -/
def State.drvEpochs (s : State) : State := (upTo 8).foldl (fun s d => s.epochUp (2 + d)) s

/-- Load a drover component into half `h` of the drover code area (R459), as master 1. -/
def State.drvLoad (s : State) (b : Nat) (e : PkgEntry) (h : Nat) : State :=
  (s.hwWrite 1 0x1700 (0x2000000 * h) (s.norBytes (b + e.off) (min e.len 0x2000000)) none).2

/-- Why a HANDOVER is refused (R430). -/
def State.handoverCode (s : State) : Option Nat :=
  s.updShared.orElse fun _ =>
    if s.updState ≠ 4 then some 7
    else if s.inTeam then some 8
    else if (s.cvEngine (s.rd updP UPD_HO_CFG_CANVAS)).isNone then some 9
    else none

/-- The version of the drover component in service (R433, R437). -/
def State.drvVersion (s : State) : Nat :=
  match s.mss.drv with
  | some x => x.2.2
  | none => 0

/-- R432 UPDATE_HANDOVER: the staged drover component is checked and loaded into the other half. -/
def execUpdateHandover (w : Writer) (s : State) : Host.Outcome State Fault Refusal :=
  let r : UpdReq := ⟨1, w, 0, 0, false, 0, 0, 0, []⟩
  done (if !s.updHeard 7 r then s
    else match s.handoverCode with
      | some c => s.updRefuse r 7 c
      | none => match s.pkgComp (slotBase true) 2 with
        | none => s.emit updP 0x0802 [20, 2]
        | some e =>
          if !s.digestOk (slotBase true) e then (s.wr updP UPD_STATE_CODE 21).emit updP 0x0802 [21, 2]
          else
            let s := (s.drvLoad (slotBase true) e (1 - s.rd 0 SYS_DRV_HALF_HALF)).wr updP UPD_STATE_STATE 7
            { s with upd := { s.upd with ho := 1, hoFrom := s.drvVersion, hoTo := (e.len, e.digest, e.ver) } })

/-- The MSS interrupts every drover. The spec names no line: a free value, the same for all (log entry 166). -/
def State.drvInterrupts (s : State) : State :=
  let (line, s) := s.draw
  (upTo 8).foldl (fun s d => s.emitOut (.drvIrq d line)) s

/-- R432 HANDOVER_INTERRUPT: at the canvas's next cut the MSS interrupts every drover. -/
def execHandoverInterrupt (s : State) : Host.Outcome State Fault Refusal :=
  let c := s.rd updP UPD_HO_CFG_CANVAS
  done (if s.upd.ho ≠ 1 then s
    else match s.cvEngine c with
      | none => s
      | some e =>
        let v := s.cvAct e c
        let n := v.firstAfter s.now
        let s := (s.advanceTo (v.cut n)).drvInterrupts
        { s with upd := { s.upd with ho := 2, hoEpoch := n, hoCut := v.cut n } })

/-- Loft offset of the handover record (R421). -/
def State.hoBase (s : State) : Nat := 4096 * s.mss.hoBase

/-- The new firmware accepts the handover record (R433): MAGIC, LENGTH, CRC, and a body version it knows. -/
def State.hoAccepted (s : State) : Bool :=
  let b := s.hoBase
  let len := s.loftLE (b + 8) 4
  let r := s.loft.bytes b len
  decide (s.loft.bytes b 4 = [0x51, 0x48, 0x4E, 0x44]) && decide (32 ≤ len) && decide (len ≤ 32 + 256 * 1024) &&
    decide (s.loftLE (b + 0x18) 4 = crc32c (setSlice r 0x18 [0, 0, 0, 0])) && Config.hoAccepts (s.loftLE (b + 4) 2)

/-- DATA of HO_DONE and HO_FAIL (R437). -/
def State.hoData (s : State) : List Nat := le s.upd.hoFrom 2 ++ le s.upd.hoTo.2.2 2 ++ le s.upd.hoEpoch 4

/-- The handover is over: the package is staged as before. -/
def State.hoOver (s : State) : State := { (s.wr updP UPD_STATE_STATE 4) with upd := { s.upd with ho := 0 } }

/-- The last yard time at which the new firmware's READY counts (R432). -/
def State.hoEnd (s : State) : Nat := s.upd.hoCut + max 1 (s.rd updP UPD_HO_CFG_LIMIT) * 1000000

/-- R432 HANDOVER_READY: a drover's write. The first says that the record is written: the drovers restart at the new image. The
second, of a new image that accepts the record, ends the handover. One later than LIMIT ms after the cut does nothing. -/
def execHandoverReady (w : Writer) (s : State) : Host.Outcome State Fault Refusal :=
  done (match w with
    | .drover _ =>
      if s.hoEnd < s.now then s
      else if s.upd.ho = 2 then
        let s := s.drvEpochs.wr 0 SYS_DRV_HALF_HALF (1 - s.rd 0 SYS_DRV_HALF_HALF)
        { s with upd := { s.upd with ho := 3 } }
      else if s.upd.ho = 3 ∧ s.hoAccepted then
        let s := (s.emit updP 0x2001 s.hoData).hoOver
        { s with mss := { s.mss with drv := some s.upd.hoTo } }
      else s
    | _ => s)

/-- R432 HANDOVER_TIMEOUT: LIMIT ms after the cut without READY, the drovers are reset again and run the old image. -/
def execHandoverTimeout (s : State) : Host.Outcome State Fault Refusal :=
  done (if s.upd.ho < 2 then s
    else
      let s := s.advanceTo s.hoEnd
      let why := if s.upd.ho = 2 then 0 else if s.hoAccepted then 1 else 2
      let s := if s.upd.ho = 3 then s.wr 0 SYS_DRV_HALF_HALF (1 - s.rd 0 SYS_DRV_HALF_HALF) else s
      ((s.drvEpochs).emit updP 0x2002 (s.hoData ++ [why])).hoOver)

end Sys2Proof.Machine
end

