-- ==== Sys2Proof/Machine/Farrier.lean ====
section
/-! DEFINITION. The farrier (R412 to R418) and the blocks that the save image holds (R405, R406). -/

namespace Sys2Proof.Machine

/-! ### Values (R413) -/

/-- Indices of the value words in ascending offset; 30 and 31 are reserved. -/
def farIdx : List Nat := upTo 30 ++ (upTo 160).map fun i => 32 + i

/-- The value words in ascending offset. -/
def State.farWords (s : State) : List Nat := farIdx.map fun i => s.rd farP (FAR_VAL_VALUE i)

/-- FAR_SUM: the CRC-32C of a list of words. -/
def wordsSum (l : List Nat) : Nat := crc32c (l.flatMap fun v => le v 4)

/-- Set the value words. -/
def State.farLoad (s : State) (l : List Nat) : State :=
  (farIdx.zip l).foldl (fun s x => s.wr farP (FAR_VAL_VALUE x.1) x.2) s

/-- The calibration block of the save image: the words, FAR_SUM, 4 bytes of 0 (R405). -/
def calBlock (l : List Nat) : List Nat := l.flatMap (fun v => le v 4) ++ le (wordsSum l) 4 ++ [0, 0, 0, 0]

/-- The counters block (R405). -/
def State.cntBlock (s : State) : List Nat :=
  let far := s.rd farP FAR_COUNT_ACCEPTED + 2 ^ 16 * s.rd farP FAR_COUNT_REJECTED
  let l := [s.rd mssP MSS_LIFE_S_S, s.rd mssP MSS_LIFE_TAVG_T, s.rd mssP MSS_LOCKSTEP_COUNT, s.rd sagP SAG_COUNT_COUNT, far] ++
    (upTo 7).map fun c => Store.getD 0 c s.mss.resets
  padTo 256 (l.flatMap fun v => le v 4)

/-! ### Headers (R406) -/

/-- Bytes of the NVM. -/
def State.nvmBytes (s : State) (a n : Nat) : List Nat := s.nvm.bytes a n

/-- The header at `a` is valid. -/
def State.hdrOk (s : State) (a : Nat) : Bool :=
  decide (s.nvmBytes a 4 = [0x51, 0x53, 0x41, 0x56]) && decide (s.nvm.readLE (a + 4) 1 = 1) &&
    decide (s.nvm.readLE (a + 8) 8 = Config.fuseUid % 2 ^ 64) && decide (s.nvm.readLE (a + 0x3C) 4 = crc32c (s.nvmBytes a 0x3C))

/-- SEQ of the header at `a`. -/
def State.hdrSeq (s : State) (a : Nat) : Nat := s.nvm.readLE (a + 0x10) 4

/-- The current header: the valid one whose SEQ is after the other's, or the only valid one. -/
def State.hdrCur (s : State) : Option Nat :=
  match s.hdrOk 0, s.hdrOk 0x40 with
  | true, true => if 0 < (s.hdrSeq 0x40 + 2 ^ 32 - s.hdrSeq 0) % 2 ^ 32 ∧ (s.hdrSeq 0x40 + 2 ^ 32 - s.hdrSeq 0) % 2 ^ 32 < 2 ^ 31
      then some 0x40 else some 0
  | true, false => some 0
  | false, true => some 0x40
  | false, false => none

/-- The calibration words of a valid save image whose CAL flag and CAL_CRC stand (R407, R415). -/
def State.savedCal (s : State) : Option (List Nat) :=
  match s.hdrCur with
  | none => none
  | some a =>
    if bit (s.nvm.readLE (a + 0x1C) 2) 0 ∧ s.nvm.readLE (a + 0x28) 4 = crc32c (s.nvmBytes 0x100 768)
    then some ((upTo 190).map fun i => s.nvm.readLE (0x100 + 4 * i) 4) else none

/-! ### Runs (R414, R415) -/

/-- The temperature sensors' values, as registers show them. -/
def State.temps (s : State) : List Nat := (upTo 12).map fun i => s.rd mssP (MSS_TS_VAL_T i)

/-- The hottest of a list of temperatures, 1/16 °C. -/
def hottest (l : List Nat) : Int := (l.map (sint 16)).foldl max (-32768)

/-- Start a run with trigger `t` (R414, R415): on the enabled matrix ports that do not take their samples from a partner. When pass 1 has
measured its sensor values, within 1 ms, is a free value (log entry 176). -/
def State.farStart (s : State) (t : Nat) : State :=
  let ports := (upTo 2).filter fun p => s.enabled (tchP p) && !s.mirrorIn p
  let s := (s.wb farP FAR_CTRL_RUN false).wb farP FAR_STATUS_BUSY true
  let (v, s) := s.draw
  { s with far := { s.far with run := some t, ports := ports, frames := [], base := s.temps, from_ := s.time.run + ns (v % 1000001) } }

/-- Runs may start: the MSS is not held after a second mismatch (R394), and the clocks run. -/
def State.farFree (s : State) : Bool := decide (s.mss.hold ≠ 2) && decide (s.pwrState = 0)

/-- The run is over; one that waits starts. -/
def State.farOver (s : State) : State :=
  let s := s.wb farP FAR_STATUS_BUSY false
  let s := { s with far := { s.far with run := none, ports := [], frames := [], lastEnd := some s.time.run, base := [] } }
  if s.on farP FAR_CTRL_RUN then s.farStart 1 else s

/-- The run is rejected with a cause; `idx` and `dif` name the first disagreement (R415, R418). -/
def State.farReject (s : State) (t cause idx dif : Nat) : State :=
  (s.cnt farP FAR_COUNT_REJECTED 1).emit farP 0x0801 ([t, cause] ++ le idx 2 ++ le dif 2)

/-- A rejected run of stage 5 loads the calibration block of a valid save image, where the NVM answered its latest access (R407, R415). -/
def State.farFallback (s : State) (t : Nat) : State :=
  match (if t = 2 ∧ s.on sagP SAG_STAT_NVM_OK then s.savedCal else none) with
  | some l => (s.farLoad l).wr farP FAR_STATUS_SOURCE 3
  | none => s

/-- A run in progress is abandoned (R408, R413), and none follows it. -/
def State.farAbandon (s : State) : State :=
  match s.far.run with
  | none => s
  | some t => (((s.farReject t 3 0 0).farFallback t).wb farP FAR_CTRL_RUN false).farOver

/-- R414 FARRIER_TRIGGER_CHECK. -/
def execFarrierTriggerCheck (s : State) : Host.Outcome State Fault Refusal :=
  let d := (upTo 12).foldl (fun m i =>
    max m (sint 16 (s.rd mssP (MSS_TS_VAL_T i)) - sint 16 (s.rd farP (FAR_BASE_T_T i))).natAbs) 0
  let rested : Bool := match s.far.lastEnd with
    | some t => decide (t + ns (max 1 (s.rd farP FAR_TRIG_RETRY) * 1000000000) ≤ s.time.run)
    | none => true
  done (if s.on farP FAR_CTRL_AUTO ∧ s.farFree ∧ s.far.run.isNone ∧ rested ∧ 16 * max 1 (s.rd farP FAR_TRIG_DELTA) < d
    then s.farStart 0 else s)

/-- R414 FARRIER_RUN_REQUEST. -/
def execFarrierRunRequest (_w : Writer) (s : State) : Host.Outcome State Fault Refusal :=
  done (if !s.farFree then s
    else if s.far.run.isSome then s.wb farP FAR_CTRL_RUN true else s.farStart 1)

/-- Value indices that a run on some ports measures (R413, R415). -/
def farMeasured (ports : List Nat) : List Nat :=
  upTo 28 ++ ports.map (28 + ·) ++ ports.flatMap fun p => (upTo 80).map fun i => 32 + 80 * p + i

/-- The larger difference of the two fields of one word between the passes. -/
def wordDiff (a b : Nat) : Nat :=
  max (((a % 2 ^ 16 : Nat) : Int) - ((b % 2 ^ 16 : Nat) : Int)).natAbs
    (sint 16 (a / 2 ^ 16) - sint 16 (b / 2 ^ 16)).natAbs

/-- floor((a + b + 1) ÷ 2) of each field of a word. -/
def wordMean (a b : Nat) : Nat :=
  (a % 2 ^ 16 + b % 2 ^ 16 + 1) / 2 + 2 ^ 16 * uint 16 (floorDiv (sint 16 (a / 2 ^ 16) + sint 16 (b / 2 ^ 16) + 1) 2)

/-- The run is accepted: values `l` (index, word) take effect, and what the registers and records show of it (R415, R417, R418). -/
def State.farAccept (s : State) (t : Nat) (l : List (Nat × Nat)) : State :=
  let s := l.foldl (fun s x => s.wr farP (FAR_VAL_VALUE x.1) x.2) s
  let s := (s.wr farP FAR_STATUS_SOURCE 1).wr farP FAR_STATUS_PORTS (s.far.ports.foldl (fun m p => m + 2 ^ p) 0)
  let s := s.far.base.zipIdx.foldl (fun s x => s.wr farP (FAR_BASE_T_T x.2) x.1) s
  let s := (s.cnt farP FAR_COUNT_ACCEPTED 1).wr64 farP FAR_LAST_LO_T FAR_LAST_HI_T s.now
  s.emit farP 0x0001 ([t, 0] ++ le (s.rd farP FAR_DIFF_CODES) 2 ++ le (uint 16 (hottest s.far.base)) 2)

/-- The end of a run with both passes measured: words by value index. Of several causes the lowest is reported. -/
def State.farJudge (s : State) (t : Nat) (a b : List Nat) (vrefBad crefBad : Bool) : State :=
  let m := farMeasured s.far.ports
  let x := m.map fun i => (i, a.getD i 0, b.getD i 0)
  let worst := x.foldl (fun (w : Nat × Nat) e => if w.1 < wordDiff e.2.1 e.2.2 then (wordDiff e.2.1 e.2.2, e.1) else w) (0, 0)
  let s := (s.wr farP FAR_DIFF_CODES worst.1).wr farP FAR_DIFF_INDEX worst.2
  let first := x.find? fun e => decide (max 1 (s.rd farP FAR_TOL_CODES) < wordDiff e.2.1 e.2.2)
  let reject := fun (c idx dif : Nat) => (s.farReject t c idx dif).farFallback t
  match first with
  | some e => reject 0 e.1 (wordDiff e.2.1 e.2.2)
  | none =>
    if vrefBad then reject 1 0 0
    else if crefBad then reject 2 0 0
    else s.farAccept t (x.map fun e => (e.1, wordMean e.2.1 e.2.2 % (if e.1 = 28 ∨ e.1 = 29 then 2 ^ 16 else 2 ^ 32)))

/-- R415 FARRIER_RUN_END: pass 2 has ended; `a` and `b` are the words of the passes by value index, and whether VREF or CREF read
outside its range. Before every port measured has had its run frame 57 nothing ends. -/
def execFarrierRunEnd (a b : List Nat) (vrefBad crefBad : Bool) (s : State) : Host.Outcome State Fault Refusal :=
  done (match s.far.run with
    | none => s
    | some t =>
      if s.far.ports.all fun p => decide (58 ≤ Store.getD 0 p s.far.frames) || !s.enabled (tchP p) then
        (s.farJudge t a b vrefBad crefBad).farOver
      else s)

/-- R416 FARRIER_VALUE_WRITE. -/
def execFarrierValueWrite (w : Writer) (i : Fin 192) (v : Word) (s : State) : Host.Outcome State Fault Refusal :=
  done (if i.val = 30 ∨ i.val = 31 then s
    else if s.far.run.isSome then s.emit farP 0x1001 (le (0x400 + 4 * i.val) 2 ++ le w.fid 2)
    else
      let x := if i.val = 28 ∨ i.val = 29 then v.toNat % 2 ^ 16 else v.toNat
      (s.wr farP (FAR_VAL_VALUE i.val) x).wr farP FAR_STATUS_SOURCE 2)

end Sys2Proof.Machine
end

