-- ==== Sys2Proof/Machine/Sag.lean ====
section
/-! DEFINITION. Sags: detection, the save image, restart, the hold-up capacitor (R403 to R411). -/

namespace Sys2Proof.Machine

/-- SAG_STAT.STATE: 0 NORMAL, 1 SAVING, 2 HOLDING, 3 RESTART. -/
def State.sagState (s : State) : Nat := s.rd sagP SAG_STAT_STATE

/-! ### The save image (R405, R406) -/

/-- Write bytes to the NVM. -/
def State.nvmPut (s : State) (a : Nat) (l : List Nat) : State := { s with nvm := s.nvm.putBytes a l }

/-- Index of the first record not yet mirrored that the daybook still holds. -/
def State.unsavedFrom (s : State) (upTo_ : Nat) : Nat := max s.sag.mirrored (upTo_ - 2048)

/-- SAG_UNSAVED: records not yet mirrored (R410). -/
def State.sagUnsaved (s : State) : Nat :=
  let w := s.rd (pg .dbk 0) DBK_WR_COUNT
  w - s.unsavedFrom w

/-- Write `n` records from index `a` into the mirror. -/
def State.mirrorWrite (s : State) (a : Nat) : Nat → State
  | 0 => s
  | n + 1 =>
    let s := match Store.find (a % 2048) s.dbk with
      | some r => s.nvmPut (0x1000 + 32 * (a % 2048)) r.bytes
      | none => s
    s.mirrorWrite (a + 1) n

/-- The mirror now holds records up to `w`, `n` of them new from index `a` (R406). -/
def State.mirrorMark (s : State) (a n : Nat) : State :=
  let first := if s.sag.mirrored < a then a else s.sag.first
  { s with sag := { s.sag with mirrored := a + n, first := max first (a + n - 2048) } }

/-- NVM_VCC is switched on for an access and off after it, with NVM_CS_N active in between (R404, R405). -/
def State.nvmPower (s : State) (on : Bool) : State :=
  let vcc := Out.pin "NVM_VCC" 0 (b2n on)
  let l := if on then [vcc] else [.pin "NVM_CS_N" 0 0, .pin "NVM_CS_N" 0 1, vcc]
  { s with sag := { s.sag with nvmVcc := on }, out := s.out ++ l }

/-- The bytes of a header (R406) that follows the current one. NODE, FLAGS and the CRCs are the caller's. -/
def State.headerBytes (s : State) (kind node flags notSaved calCrc cntCrc : Nat) : List Nat :=
  let seq := match s.hdrCur with
    | some a => s.hdrSeq a + 1
    | none => 0
  let h := [0x51, 0x53, 0x41, 0x56, 1, kind] ++ le node 2 ++ le Config.fuseUid 8 ++ le seq 4 ++ le s.sag.mirrored 4 ++
    le s.sag.first 4 ++ le flags 2 ++ le notSaved 2 ++ le s.now 8 ++ le calCrc 4 ++ le cntCrc 4 ++ List.replicate 12 0
  h ++ le (crc32c h) 4

/-- The header slot that does not hold the current header. -/
def State.hdrSpare (s : State) : Nat := if s.hdrCur = some 0 then 0x40 else 0

/-- The save of a sag (R404 to R406, R408): the oldest MAXREC unsaved records, the calibration block as it stood at detection, the
counters, the header. Records saved, and left out. -/
def State.sagSave (s : State) : Nat × Nat × State :=
  let a := s.unsavedFrom s.sag.upTo_
  let n := s.sag.upTo_ - a
  let k := min n (s.rd sagP SAG_CFG_MAXREC)
  let cal := calBlock s.sag.cal
  let cnt := s.cntBlock
  let s := (((s.mirrorWrite a k).mirrorMark a k).nvmPut 0x100 cal).nvmPut 0x400 cnt
  let h := s.headerBytes (if s.sag.cause = 2 then 2 else 1) s.sag.node (3 + if k < n then 4 else 0) (n - k) (crc32c cal) (crc32c cnt)
  (k, n - k, s.nvmPut s.hdrSpare h)

/-! ### The sequence (R403, R404, R408) -/

/-- The IDLE packet of a sag on lane `l` (R404): of the lane's lowest head, sent at its next packet boundary, ahead of slot
turns. -/
def State.sagIdle (s : State) (e l : Nat) : State :=
  match sortNat (s.laneHeads e l) with
  | [] => s
  | h :: _ =>
    let ls := s.headLanes e h
    let f := match Store.find h s.heads with
      | some y => if y.count = 0 then 0 else s.rd (hdP h) HD_FRAME_NUMBER
      | none => 0
    s.blQueue e l ⟨h, 5, 0xFFFC, f, false, (s.geoAct h).d24, (firstIdx (fun a => decide (a = l)) ls).getD 0,
      s.rd (blP e) (BL_HEAD_CFG_COUNT h), [], none, false, false⟩

/-- Detection with a cause: 0 PFAIL_N, 1 a watched rail, 2 thermal; a further one while a sag is in progress is ignored. The charge switch
opens but in a thermal trip (R397), and NVM_VCC is on for the save. -/
def State.sagDetect (s : State) (cause sensor : Nat) : State :=
  if s.sagState ≠ 0 then s
  else
    let s := s.claimSet 0 2
    let s := (upTo 4).foldl (fun s e => if s.enabled (blP e) then (s.blRun e).foldl (fun s l => s.sagIdle e l) s else s) s
    let cal := s.farWords
    let s := ((s.emit sagP 0x0001 [cause, sensor]).farAbandon.updAbort).nvmPower true
    let s := ((s.wr sagP SAG_STAT_STATE 1).cnt sagP SAG_COUNT_COUNT 1).wr64 sagP SAG_LAST_LO_T SAG_LAST_HI_T s.now
    { s with sag := { s.sag with cause := cause, at_ := s.time.run, tailed := false, cal := cal, node := s.node,
                                 charging := decide (cause = 2),
                                 upTo_ := s.rd (pg .dbk 0) DBK_WR_COUNT } }

/-- R403 SAG_DETECT: PFAIL_N low (no rail), or rail `v` below its threshold for 2 µs. Detection needs a running core clock. -/
def execSagDetect (rail : Option (Fin 15)) (s : State) : Host.Outcome State Fault Refusal :=
  done (if s.mss.hold = 1 ∨ s.mss.hold = 5 then s
    else match rail with
      | none => if s.on sagP SAG_CFG_PFAIL_EN then s.sagDetect 0 0 else s
      | some v => if s.on mssP (MSS_VS_SAG_WATCH v.val) then s.sagDetect 1 v.val else s)

/-- SAG_CFG.TAIL, kept within 10 to 255. -/
def State.sagTail (s : State) : Nat := max 10 (s.rd sagP SAG_CFG_TAIL)

/-- R404 SAG_TAIL: TAIL after detection every domain but the always-on one is held in reset; heads stop without an ABORT, lanes
fall idle, DRAM is lost. -/
def execSagTail (s : State) : Host.Outcome State Fault Refusal :=
  done (if s.sagState = 0 ∨ s.sag.tailed then s
    else
      let s := (s.advanceRun (s.sag.at_ + ns (s.sagTail * 1000))).clearSys 4
      { s with sag := { s.sag with tailed := true } })

/-- R404 SAVE_DONE: the save ends `us` µs after detection; `resp`: the NVM answered. -/
def execSaveDone (us : Nat) (resp : Bool) (s : State) : Host.Outcome State Fault Refusal :=
  let fin := fun (s : State) (records last : Nat) =>
    let s := ((s.wr sagP SAG_SAVE_US (min us 0xFFFF)).wr sagP SAG_SAVE_RECORDS records).wr sagP SAG_STAT_LAST last
    let s := (s.wb sagP SAG_STAT_NVM_OK resp).wr sagP SAG_STAT_STATE 2
    { s with sag := { s.sag with ended := s.time.run } }.nvmPower false
  done (if s.sagState ≠ 1 then s
    else
      let s := s.advanceRun (s.sag.at_ + ns (us * 1000))
      if !resp then (fin s 0 3).emit sagP 0x0802 [0]
      else if 5000 < us then (fin s 0 3).emit sagP 0x0802 [1]
      else
        let r := s.sagSave
        (fin r.2.2 r.1 (if r.2.1 = 0 then 1 else 2)).emit sagP 0x0801 (le us 4 ++ le r.1 2 ++ le r.2.1 2))

/-- Every temperature has been sampled since the fast domains stopped, and is below WARN (R397). -/
def State.cooled (s : State) : Bool :=
  (upTo 12).all fun i => s.on mssP (MSS_TS_VAL_VALID i) &&
    decide (sint 16 (s.rd mssP (MSS_TS_VAL_T i)) < 16 * sint 8 (s.rd mssP (MSS_TS_LIM_WARN i)))

/-- R397, R407 SAG_RESTART: the supply has been good for SAG_SETTLE ms since the save ended, or every temperature is below WARN again: a
reset with cause SAG_RESTART or THERMAL, and boot from stage 0. The charge switch is closed again. -/
def execSagRestart (s : State) : Host.Outcome State Fault Refusal :=
  let thermal := decide (s.sag.cause = 2)
  done (if s.sagState ≠ 2 ∨ (thermal ∧ !s.cooled) then s
    else
      let wait := if thermal then 0 else ns (max 1 (s.rd sagP SAG_SETTLE_MS) * 1000000)
      let s := ((s.advanceRun (s.sag.ended + wait)).wr sagP SAG_STAT_STATE 3).restart (if thermal then 2 else 1)
      { s.wr sagP SAG_STAT_STATE 0 with sag := { s.sag with charging := true } })

/-- R407 VHOLD_COLLAPSE: below 2.7 V the always-on domain stops and loses what it held; a power-on reset comes next. -/
def execVholdCollapse (s : State) : Host.Outcome State Fault Refusal :=
  let r := State.reset
  let m : MssSt := { r.mss with hold := 5 }
  done { r with rdata := s.rdata, out := s.out, freeCtr := s.freeCtr, host := s.host, nvm := s.nvm, nor := s.updAbort.nor,
                pending := s.pending, mss := m }

/-- R409 VHOLD_CHARGE_CHANGE: CHARGED rises at 4,750 mV and falls below 4,500 mV. -/
def execVholdChargeChange (mv : Nat) (s : State) : Host.Outcome State Fault Refusal :=
  done (if s.mss.hold = 5 then s
    else if 4750 ≤ mv then s.wb sagP SAG_STAT_CHARGED true
    else if mv < 4500 then s.wb sagP SAG_STAT_CHARGED false
    else s)

/-- FLAGS [1:0] and the CRCs of the current header, which a mirror batch keeps. -/
def State.keptFlags (s : State) : Nat × Nat × Nat :=
  match s.hdrCur with
  | some a => (s.nvm.readLE (a + 0x1C) 1 % 4, s.nvm.readLE (a + 0x28) 4, s.nvm.readLE (a + 0x2C) 4)
  | none => (0, 0, 0)

/-- The bytes that a batch writes, with their NVM addresses, in order: records `a … a + n − 1`, then the header `h`. -/
def State.batchBytes (s : State) (a n slot : Nat) (h : List Nat) : List (Nat × Nat) :=
  let at_ := fun (b : Nat) (l : List Nat) => l.zipIdx.map fun x => (b + x.2, x.1)
  ((upTo n).flatMap fun i => match Store.find ((a + i) % 2048) s.dbk with
    | some r => at_ (0x1000 + 32 * ((a + i) % 2048)) r.bytes
    | none => []) ++ at_ slot h

/-- The save engine mirrors in normal service (R405): not before stage 4 has restored, nor while the device is held in reset or without
power. -/
def State.mirrors (s : State) : Bool :=
  s.on sagP SAG_CFG_MIRROR && decide (s.sagState = 0) && !s.mss.restore && decide (s.mss.hold = 0 ∨ s.mss.hold = 2)

/-- R405, R408 MIRROR_BATCH: the new records and a header of KIND 0; `resp`: the NVM answered. A batch that a sag cuts off leaves what it has
written so far; the sag's own row follows. -/
def execMirrorBatch (resp : Bool) (how : BatchEnd) (s : State) : Host.Outcome State Fault Refusal :=
  let w := s.rd (pg .dbk 0) DBK_WR_COUNT
  let a := s.unsavedFrom w
  let kept := s.keptFlags
  let spare := s.hdrSpare
  let m := s.mirrorMark a (w - a)
  let hdr := m.headerBytes 0 s.node kept.1 0 kept.2.1 kept.2.2
  done (if !s.mirrors ∨ w ≤ a then s
    else if !resp then (((s.nvmPower true).nvmPower false).wb sagP SAG_STAT_NVM_OK false).emit sagP 0x1001 [0]
    else match how with
      | .cut n =>
        let l := (s.batchBytes a (w - a) spare hdr).take n
        l.foldl (fun s x => s.nvmPut x.1 [x.2]) ((s.nvmPower true).wb sagP SAG_STAT_NVM_OK true)
      | .whole true =>
        (((m.nvmPower true).mirrorWrite a (w - a)).nvmPut spare hdr).wb sagP SAG_STAT_NVM_OK true |>.nvmPower false
      | .whole false =>
        let s := ((s.nvmPower true).mirrorWrite a (w - a)).nvmPut spare (List.replicate 64 0)
        ((s.nvmPower false).wb sagP SAG_STAT_NVM_OK true).emit sagP 0x1001 [1])

end Sys2Proof.Machine
end

