-- ==== Sys2Proof/Machine/Live.lean ====
section
/-! DEFINITION. What a register word reads (R39, R41, R43): the fields of every page and window, and the words that hardware forms
from its own state at the moment of the read. -/

namespace Sys2Proof.Machine

/-! ### The words of BAR0 -/

/-- The block-specific words of a page. -/
def blkRows (b : Blk) (i : Nat) : List Row :=
  match b with
  | .sys => rowsSYS | .own => rowsOWN | .pwr => rowsPWR | .clk => rowsCLK | .mss => rowsMSS | .dbk => rowsDBK | .far => rowsFAR
  | .upd => rowsUPD | .sag => rowsSAG | .tb => rowsTB | .pci => rowsPCI | .tst => rowsTST | .xb => rowsXB | .grd => rowsGRD
  | .hit => rowsHIT | .loft => rowsLOFT | .dmc => rowsDMC | .dec => rowsDEC | .enc => rowsENC | .cmp => rowsCMP | .bay => rowsBAY
  | .feed => rowsFEED | .yk => rowsYK | .gate => rowsGATE | .bl => rowsBL | .tch => if i = 2 then rowsTCHK else rowsTCH
  | .net => rowsNET i | .cvu => rowsCVU | .drv => [] | .ln => rowsLN | .hd => rowsHD

/-- The words of an entry of a window. -/
def winRows : Win → List Row
  | .msixTable => rowsMSIX | .msixPend => rowsMSIP | .feedTable => rowsFEEDD | .bayTable => rowsBAYD | .stallTable => rowsSTL
  | .touchBase => rowsTCHN

/-- Whether a header word exists in pages of a block: the event registers do not in HD and registry pages (R46, R56). -/
def hdrHere (b : Blk) (off : Nat) : Bool := !(b.noEvents && decide (0x10 ≤ off ∧ off ≤ 0x1C))

/-- A quad register's offset in a page that is not that of the quad's first lane: it reads 0 there (R317). -/
def quadElsewhere (b : Blk) (i off : Nat) : Bool := decide (b = .ln ∧ i % 4 ≠ 0 ∧ 0x300 ≤ off)

/-- The page or entry that holds the word at BAR0 address `a`, the word's offset in it, and its fields; GATE_CRC_HOLD has one copy, in
GATE 0 (R282). -/
def wordAt (a : Nat) : Option (Nat × Nat × List Fld) :=
  match pageOf a with
  | some (b, i) =>
    let p := pg b i
    let off := a - p
    let l := if off < 0x28 ∧ off ≠ 4 ∧ off ≠ 0xC then (if hdrHere b off then fieldsAt rowsHDR off else [])
      else if quadElsewhere b i off then [] else fieldsAt (blkRows b i) off
    some (if b = .gate ∧ (off = 0x120 ∨ off = 0x124) then pg .gate 0 else p, off, l)
  | none => (winOf a).map fun x => (x.2, a - x.2, fieldsAt (winRows x.1) (a - x.2))

/-! ### Words formed at the read -/

/-- CAPS of the pages that give it as a constant. -/
def capsOf (b : Blk) (i : Nat) : Option Nat := if b = .tch ∧ i = 2 then some 0x820 else b.capsConst

/-- Yard time in ns of TB_SLEW, rounded up (R156). -/
def State.slewNs (s : State) : Nat := (s.time.slew + subNs - 1) / subNs

/-- HD_STATE.LINE: the line within the phase (R258). -/
def State.headLine (s : State) (h : Nat) : Nat :=
  let x := s.hd h
  let cyc := (s.time.run - x.t0) / max 1 s.cycleInc
  let k := cyc * x.geo.inc / (2 ^ 32 * max 1 x.geo.hTot)
  match s.rd (hdP h) HD_STATE_PHASE with
  | 1 => k
  | 2 => k - x.geo.start
  | 3 => k - x.blank.getD k
  | 4 => k - (x.blank.getD k + (s.geoAct h).vmin)
  | _ => 0

/-- GATE_LOAD of engine `e`: the active rates of its enabled heads, in Mpx/s rounded up. -/
def State.gateMpx (s : State) (e : Nat) : Nat :=
  let t := fracSum ((s.engineHeads e).map fun h => (s.geoAct h).actRate)
  let d := 2 ^ 32 * t.2
  (t.1 * 1200 + d - 1) / d

/-- ENC_LOAD.PERMIL of pipeline `p`. -/
def State.encPermil (s : State) (p : Nat) : Nat :=
  let t := fracSum (s.encLoads p 99)
  t.1 * 1000 / (1040000000 * t.2)

/-- The STATUS word of a page whose chapter forms it from the block's state. -/
def State.statusWord (s : State) (b : Blk) (i : Nat) : Option Nat :=
  match b with
  | .ln => some (s.lnStatus i)
  | .dec => some (b2n (s.pipe i).job.isSome)
  | .cmp => some (b2n (s.cvs.any fun e => decide (e.1 / 64 = i) && (!e.2.begun.isEmpty || e.2.drains.any fun x => x.direct)))
  | .hd => some (b2n (s.enabled (hdP i) && decide (0 < (s.hd i).count)))
  | .gate => some (b2n ((s.engineHeads i).any fun h => decide (0 < (s.hd h).count)))
  | .bl => some (b2n (s.enabled (blP i) && (s.blRun i).any fun l => decide (s.time.run < (s.bl i l).busy) || !(s.bl i l).queue.isEmpty))
  | .enc => some (b2n (Store.find i s.encJobs).isSome)
  | .tch =>
    if i = 2 then some (b2n (s.enabled (tchP 2)) + 2 * b2n s.keys.init.isSome)
    else
      let x := s.tchSt i
      some (b2n (s.enabled (tchP i)) + 2 * b2n x.init.isSome + 4 * (x.contacts.filter fun c => c.confirmed).length)
  | .yk =>
    let w := match s.yoke.width with
      | 0 => 0
      | 1 => 1
      | 2 => 2
      | _ => 3
    some (s.yoke.state + 8 * b2n s.isLead + 16 * b2n (s.isSeq && decide (s.yoke.state ≠ 0)) + 32 * w + 128 * b2n s.inTeam)
  | _ => none

/-- A word of the TB page that follows the clock or the stamp queue (R156, R160, R167, R173). -/
def State.tbWord (s : State) (off : Nat) : Option Nat :=
  let q := s.time.txq.headD ⟨0, 0, 0, 0⟩
  match off with
  | 0x0C => some (s.rd tb TB_STATUS_STATE + 8 * b2n (decide (s.time.slew ≠ 0)) + 16 * s.rd tb TB_STATUS_STEP_PENDING +
      32 * b2n s.time.coarse)
  | 0x100 => some (s.now % 2 ^ 32)
  | 0x104 => some (s.rdCap tb TB_NOW_HI_NOW)
  | 0x128 => some (s.slewNs % 2 ^ 32)
  | 0x12C => some (s.slewNs / 2 ^ 32)
  | 0x130 => some (s.rd tb TB_HOLD_LIMIT + 2 ^ 16 * s.tbElapsed)
  | 0x200 => some (q.seqId + 2 ^ 16 * q.msgType + 2 ^ 20 * q.port + 2 ^ 31 * b2n (!s.time.txq.isEmpty))
  | 0x204 => some (q.t % 2 ^ 32)
  | 0x208 => some (q.t / 2 ^ 32 % 2 ^ 32)
  | 0x20C => some (s.time.txq.length + 128 * s.rd tb TB_TXQ_STAT_OVF)
  | _ => if 0x300 ≤ off ∧ off < 0x380 ∧ off % 16 = 8 then some (s.rdCap tb (TB_TI_CAP_HI_T ((off - 0x300) / 16))) else none

/-- A word of the fabric's and the hitches' pages that shows their present books (R79, R96). -/
def State.xbWord (s : State) (off : Nat) : Option Nat :=
  if off = 0x100 then some s.fab.reqs.length
  else if 0x1C0 ≤ off ∧ off < 0x200 then some (s.slotsUsed ((off - 0x1C0) / 4))
  else if 0x200 ≤ off ∧ off < 0x280 then
    let m := (off - 0x200) / 4
    some (s.rd (pg .xb 0) (XB_TAGS_LIMIT m) + 2 ^ 16 * s.tagsHeld m)
  else none

/-- HIT_VIEW n (R96). -/
def State.hitView (s : State) (n : Nat) : Nat :=
  match Store.find n s.hit.held with
  | some (o, e) => e + 2 ^ 16 * slotFid o
  | none => 0

/-- A word of the BAY page that counts bays (R151). -/
def State.bayWord (s : State) (off : Nat) : Option Nat :=
  if off = 0x100 then
    let h := s.bayTotal 2
    some (8192 - h + 2 ^ 16 * h)
  else if off = 0x104 then some (8192 - s.bayTotal 1 - s.bayTotal 2)
  else if 0x140 ≤ off ∧ off < 0x180 then
    let c := (off - 0x140) / 4
    some (s.bayCount 1 c + 2 ^ 16 * s.bayCount 2 c)
  else none

/-- A word of another page that hardware forms at the read. -/
def State.pageWord (s : State) (b : Blk) (i off : Nat) : Option Nat :=
  match b with
  | .tb => s.tbWord off
  | .xb => s.xbWord off
  | .bay => s.bayWord off
  | .hit => if 0x500 ≤ off ∧ off < 0x900 then some (s.hitView ((off - 0x500) / 4)) else none
  | .dbk =>
    if 0x110 ≤ off ∧ off < 0x130 then
      let l := match Store.find (s.rd (pg .dbk 0) DBK_SEL_SLOT) s.dbk with
        | some r => r.bytes
        | none => []
      some (ofLE ((l.drop (off - 0x110)).take 4))
    else none
  | .sag => if off = 0x120 then some s.sagUnsaved else if off = 0x114 then some (s.rdCap sagP SAG_LAST_HI_T) else none
  | .far => if off = 0x118 then some (wordsSum s.farWords) else if off = 0x114 then some (s.rdCap farP FAR_LAST_HI_T) else none
  | .own =>
    if off < 0x100 then none
    else
      let e := (i - 1) * 1024 + (off - 0x100) / 4
      if entExists e then
        let p := ownPg e
        let k := e % 1024
        some (s.rd p (OWN_ENT_OWNER k) + 2 ^ 24 * s.rd p (OWN_ENT_TAKEN k) + 2 ^ 25 * b2n (s.entInUse e) +
          2 ^ 26 * s.rd p (OWN_ENT_FENCED k) + 2 ^ 31 * s.rd p (OWN_ENT_LOCK k))
      else none
  | .grd =>
    if off = 0x108 then some (s.rd (pg .grd i) GRD_FENCE_GEN + 2 ^ 31 * b2n (!s.guardBusy i)) else none
  | .dmc =>
    let slot := fun (copyB : Bool) (k : Nat) =>
      if s.on (pg .dmc i) DMC_SLOT_CTRL_ACTIVE = copyB then (Store.find k (s.dm i).deferred).map fun v => v % 32 + 128 * bits v 7 1
      else none
    if 0x400 ≤ off ∧ off < 0x500 then slot false ((off - 0x400) / 4)
    else if 0x500 ≤ off ∧ off < 0x600 then slot true ((off - 0x500) / 4)
    else if off = 0x120 then
      let p := pg .dmc i
      some (s.rd p DMC_SCRUB_PERIOD + 2 ^ 30 * b2n (s.scrubBehind i) + 2 ^ 31 * s.rd p DMC_SCRUB_EN)
    else if off = 0x10C then
      let p := pg .dmc i
      let hot := s.on p DMC_REF_AUTO_TEMP && (Store.getD dmc0 i s.dmc).hot
      some (s.rd p DMC_REF_INTERVAL + 2 ^ 16 * s.rd p DMC_REF_AUTO_TEMP + 2 ^ 17 * b2n hot + 2 ^ DMC_REF_OWED.lo * s.rd p DMC_REF_OWED)
    else none
  | .dec =>
    let p := pg .dec i
    if off = 0x100 then
      some (s.rd p DEC_SCHED_CTRL_ACTIVE + 2 * s.rd p DEC_SCHED_CTRL_SWAP + 2 ^ 8 * s.rd p DEC_SCHED_CTRL_CUR + 2 ^ 16 * b2n (s.decIdle i))
    else if off = 0x108 then some ((s.decLoad i).1 + 2 ^ 16 * (s.decLoad i).2)
    else none
  | .cmp => if off = 0x100 then some (s.rd (cmpP i) CMP_DENSITY_PERMIL + 2 ^ 16 * (s.slicesOf i).length) else none
  | .hd =>
    if off = 0x140 then
      let p := hdP i
      some (s.rd p HD_STATE_PHASE + 8 * s.rd p HD_STATE_REPEAT + 16 * s.rd p HD_STATE_OUTSIDE + 2 ^ 16 * s.headLine i)
    else if off = 0x14C then some (s.rdCap (hdP i) HD_TS_HI_TS) else none
  | .gate => if off = 0x128 then some (s.gateMpx i) else none
  | .bl =>
    if off = 0x100 then some (s.claim + 256 * b2n s.inTeam)
    else if 0x400 ≤ off ∧ off < 0x800 then some (s.schedWord i (decide (0x600 ≤ off)) (off / 8 % 64) (decide (off % 8 = 4)))
    else none
  | .cvu =>
    let q := (s.cvu i).queue.headD (0, 0)
    if off = 0x150 then some (q.1 % 2 ^ 32) else if off = 0x154 then some (q.1 / 2 ^ 32)
    else if 0x104 ≤ off ∧ off < 0x11C then some (s.cvuParam i ((off - 0x104) / 4))
    else if off = 0x15C then some (q.2 % 2 ^ 32) else none
  | .enc =>
    if off = 0x100 then some (s.encPermil i + 2 ^ 16 * (s.enc.filter fun e => decide (e.1 / 32 = i)).length) else none
  | .yk =>
    if off = 0x130 then
      let wait := (s.feeds.filter fun e => !s.yoke.clean.contains e.1).length
      let on := s.cvs.filter fun e => s.cvOn (e.1 / 64) (e.1 % 64)
      let run := on.foldl (fun m e => min m (Store.getD 0 (e.1 % 64) s.yoke.runs)) 255
      some ((if s.yoke.state = 4 ∨ s.yoke.state = 5 then min wait 1023 else 0) + 2 ^ 16 * (if on.isEmpty then 0 else run))
    else none
  | _ => none

/-- A header word that hardware forms at the read (R43, R2). -/
def State.hdrWord (s : State) (b : Blk) (i off : Nat) : Option Nat :=
  let p := pg b i
  match off with
  | 0x0 => some (b.typeCode * 2 ^ 16 + i * 2 ^ 8 + if b = .sys then 0xA1 else 0x01)
  | 0x4 => capsOf b i
  | 0xC => s.statusWord b i
  | 0x18 => if b.noEvents then some 0 else some (s.evtPend p)
  | 0x20 => some (fidOf b i + 2 ^ 16 * s.ownHeld (fidOf b i) + 2 ^ 31 * s.rd p HDR_OWN_TAKEN)
  | _ => none

/-! ### Reading a word -/

/-- What a field reads in its word (R41): WO fields read 0. -/
def State.fieldRead (s : State) (p : Nat) (f : Fld) : Nat := if f.acc = .wo then 0 else 2 ^ f.lo * s.rd p f

/-- What the word at BAR0 address `a` reads, without the effects of the read. -/
def State.peekWord (s : State) (a : Nat) : Nat :=
  let live := match pageOf a with
    | some (b, i) =>
      let off := a - pg b i
      match s.hdrWord b i off with
      | some v => some v
      | none => s.pageWord b i off
    | none => none
  match live, wordAt a with
  | some v, _ => v
  | none, some (p, _, l) => l.foldl (fun t f => t + s.fieldRead p f) 0
  | none, none => 0

/-- R42 RC_COUNTER_READ: the read returns the present value of the word, and its RC fields return to their reset value (log entry 17). -/
def State.rcRead (s : State) (a : Nat) : State :=
  let v := s.peekWord a
  match wordAt a with
  | some (p, _, l) => ((l.filter fun f => decide (f.acc = .rc)).foldl (fun s f => s.wr p f f.rst) s).ret v
  | none => s.ret v

/-- The low words whose read latches a high word (R173): the page, and the high field with its live value. -/
def State.latchOf (s : State) (a : Nat) : Option (Nat × Fld × Nat) :=
  match pageOf a with
  | some (.tb, _) =>
    let off := a - tb
    if off = 0x100 then some (tb, TB_NOW_HI_NOW, s.now / 2 ^ 32)
    else if 0x300 ≤ off ∧ off < 0x380 ∧ off % 16 = 4 then
      let f := TB_TI_CAP_HI_T ((off - 0x300) / 16)
      some (tb, f, s.rd tb f)
    else none
  | some (.hd, i) => if a = hdP i + 0x148 then some (hdP i, HD_TS_HI_TS, s.rd (hdP i) HD_TS_HI_TS) else none
  | some (.sag, _) => if a = sagP + 0x110 then some (sagP, SAG_LAST_HI_T, s.rd sagP SAG_LAST_HI_T) else none
  | some (.far, _) => if a = farP + 0x110 then some (farP, FAR_LAST_HI_T, s.rd farP FAR_LAST_HI_T) else none
  | _ => none

/-- A read of a low word latches the high one of the same moment. -/
def State.latchRead (s : State) (a : Nat) : State :=
  let s := s.ret (s.peekWord a)
  match s.latchOf a with
  | some (p, f, v) => { s with cap := Store.setD f.rst (fkey p f) (v % 2 ^ f.w) s.cap }
  | none => s

end Sys2Proof.Machine
end

