-- ==== Sys2Proof/Machine/Pcie.lean ====
section
/-! DEFINITION. The PCI Express endpoint and its DMA engine (R458 to R463). -/

namespace Sys2Proof.Machine

/-- PCI_LINK.UP. -/
def State.linkUp (s : State) : Bool := s.on pciP PCI_LINK_UP

/-- R450: the endpoint completes configuration requests with Request Retry Status: until SYS_CAPS is final, but for the cases of R32, in
which it never gets there. -/
def State.cfgRetry (s : State) : Bool := decide (s.capsWord = 0) && decide (s.mss.hold ≠ 3) && !s.on mssP MSS_BOOT_RECOVERY

/-- R463 PCIE_LINK_CHANGE: PCI_LINK follows the link; a change writes LINK. After a failed self-test of the always-on domain or the MSS
(hold 3) the link does not train (R32). -/
def execPcieLinkChange (up : Bool) (speed : Fin 5) (width : Fin 9) (s : State) : Host.Outcome State Fault Refusal :=
  done (if s.mss.hold = 3 ∨ s.linkUp == up ∧ s.rd pciP PCI_LINK_SPEED = speed.val ∧ s.rd pciP PCI_LINK_WIDTH = width.val then s
    else
      let s := ((s.wb pciP PCI_LINK_UP up).wr pciP PCI_LINK_SPEED speed.val).wr pciP PCI_LINK_WIDTH width.val
      s.emit pciP 0x1001 [b2n up, speed.val, width.val])

/-- R460 PCIE_COMPLETION_TIMEOUT: the parts of the request that wait for a host completion end with TGTERR. -/
def execPcieCompletionTimeout (tag : Fin 1024) (s : State) : Host.Outcome State Fault Refusal :=
  let late := s.fab.queued.filter fun x => decide (x.tag = tag.val) && decide (x.target = 13) && decide (x.kind ≠ .write)
  done (late.foldl (fun s x =>
    ({ s with fab := { s.fab with queued := dropPart s.fab.queued x } }).answer x 1 0 []) s)

/-! ### The DMA engine (R462) -/

/-- A piece of the engine's access at a fabric address: under a tag of its own (R67), after what is at its port; routed, judged by its guard, performed; response code and data. Register
space and an outbound access without a link end in errors. -/
def State.dmaFabric (s : State) (k : AccKind) (a len : Nat) (data : List Nat) : Nat × List Nat × State :=
  let s := if k = .write then s.cvuSnoop 30 a (padTo len data) else s
  let (t, b, tg) := s.route 30 a
  let s := if t < 12 ∨ 13 ≤ t then (s.tagReady 30).portRun t else s.tagReady 30
  let gen := match guardOf t with
    | some g => s.rd (pg .grd g) GRD_FENCE_GEN
    | none => 0
  let x : Part := ⟨0, 30, 0x1D00, k, b, len, 0, data, tg, t, 0, 0, gen, s.time.cyc, none, false⟩
  let deny : Option (Nat × Nat × Nat) := match guardOf t with
    | some g => (s.guardJudge g k 30 b).map fun r => (g, r.1, r.2)
    | none => none
  match deny with
  | some (g, r, f) => (3, [], s.guardViolate g 30 0x1D00 k b r f 1 gen)
  | none =>
    if t < 8 then
      let r := (s.hwEnter 30 (b - dramBase) len).dramPerform t x
      (r.1, r.2.2.1, r.2.2.2)
    else if t < 12 then s.loftPerform x
    else if t = 14 then
      let r := memPerform s.sram (b - 0x4000000) x
      (0, r.1, { s with sram := r.2 })
    else if t = 13 ∧ s.linkUp then
      let r := memPerform s.host (s.busAddr b) x
      (0, r.1, { s with host := r.2 })
    else if t = 13 then (1, [], s)
    else (2, [], s.emit (pg .xb 0) 0x0001 (le a 5 ++ [30] ++ le 0x1D00 2 ++ [k.code]))

/-- A piece at a fabric address, or at a host bus address. -/
def State.dmaPiece (s : State) (host : Bool) (k : AccKind) (a len : Nat) (data : List Nat) : Nat × List Nat × State :=
  if !host then s.dmaFabric k a len data
  else if !s.linkUp then (1, [], s)
  else if k = .write then (0, [], { s with host := s.host.putBytes a (padTo len data) })
  else (0, s.host.bytes a len, s)

/-- The pieces of a transfer in host memory, or in the fabric's address space (R70). -/
def dmaPieces (host : Bool) (a len : Nat) : List (Nat × Nat) := if host then pieces a len else fabricPieces a len

/-- Write the pieces of a destination in turn; the code and address of the first that fails. -/
def State.dmaWrite (s : State) (host : Bool) (a : Nat) (data : List Nat) : List (Nat × Nat) → Option (Nat × Nat) × State
  | [] => (none, s)
  | x :: t =>
    let r := s.dmaPiece host .write x.1 x.2 ((data.drop (x.1 - a)).take x.2)
    if r.1 = 0 then r.2.2.dmaWrite host a data t else (some (r.1, x.1), r.2.2)

/-- Copy piece by piece of the source; the code and address of the first part that fails. -/
def State.dmaCopy (s : State) (srcHost dstHost : Bool) (src dst : Nat) : List (Nat × Nat) → Option (Nat × Nat) × State
  | [] => (none, s)
  | x :: t =>
    let r := s.dmaPiece srcHost .read x.1 x.2 []
    if r.1 ≠ 0 then (some (r.1, x.1), r.2.2)
    else
      let d := dst + (x.1 - src)
      let w := r.2.2.dmaWrite dstHost d r.2.1 (dmaPieces dstHost d x.2)
      match w.1 with
      | some e => (some e, w.2)
      | none => w.2.dmaCopy srcHost dstHost src dst t

/-- PCI_DMA_STAT.BUSY: a posted descriptor is in progress. -/
def State.dmaBusy (s : State) : State :=
  s.wb pciP PCI_DMA_STAT_BUSY (s.on pciP PCI_DMA_RING_EN && !s.on pciP PCI_DMA_STAT_STOPPED &&
    decide (s.rd pciP PCI_DMA_HEAD_IDX ≠ s.rd pciP PCI_DMA_TAIL_IDX))

/-- R462 DMA_TAIL_WRITE. -/
def execDmaTailWrite (_w : Writer) (idx : BitVec 16) (s : State) : Host.Outcome State Fault Refusal :=
  done ((s.wr pciP PCI_DMA_TAIL_IDX idx.toNat).dmaBusy)

/-- The engine stops at descriptor `i` (R462). -/
def State.dmaStop (s : State) (i code a : Nat) : State :=
  ((s.wb pciP PCI_DMA_STAT_STOPPED true).dmaBusy).emit pciP 0x0001 (le i 2 ++ [code, 0, 0, 0, 0, 0] ++ le a 8)

/-- R462 DMA_DESCRIPTOR_DONE: the descriptor at HEAD has been performed, or stops the engine. STATUS is written in the ring. -/
def execDmaDescriptorDone (s : State) : Host.Outcome State Fault Refusal :=
  let i := s.rd pciP PCI_DMA_HEAD_IDX
  let at_ := loftBase + 4096 * s.rd pciP PCI_DMA_RING_BASE + 32 * (i % ringSlots (s.rd pciP PCI_DMA_RING_SIZE))
  done (if !s.on pciP PCI_DMA_STAT_BUSY then s
    else
      let r := s.dmaFabric .read at_ 32 []
      let s := r.2.2
      if r.1 ≠ 0 then s.dmaStop i r.1 at_
      else
        let f := fun (o n : Nat) => ofLE ((r.2.1.drop o).take n)
        let flags := f 0x14 2
        let c := s.dmaCopy (bit flags 0) (bit flags 1) (f 0 8) (f 8 8) (dmaPieces (bit flags 0) (f 0 8) (f 0x10 4))
        match c.1 with
        | some (code, a) => ((c.2.dmaFabric .write (at_ + 0x1C) 4 (le (2 + 256 * code) 4)).2.2).dmaStop i code a
        | none =>
          let s := (c.2.dmaFabric .write (at_ + 0x1C) 4 (le 1 4)).2.2
          let s := (s.inc pciP PCI_DMA_HEAD_IDX 1).dmaBusy
          if bit flags 2 then s.emit pciP 0x0801 (le i 2 ++ [0, 0] ++ le (f 0x18 4) 4) else s)

/-- R462 DMA_RESUME: a write of 1 to STOPPED resumes at the next descriptor. -/
def execDmaResume (_w : Writer) (s : State) : Host.Outcome State Fault Refusal :=
  done (if s.on pciP PCI_DMA_STAT_STOPPED then
      ((s.wb pciP PCI_DMA_STAT_STOPPED false).inc pciP PCI_DMA_HEAD_IDX 1).dmaBusy
    else s)

end Sys2Proof.Machine
end

