-- ==== Sys2Proof/Machine/Power.lean ====
section
/-! DEFINITION. Clocks (R442 to R444) and the stabled state (R445 to R448). -/

namespace Sys2Proof.Machine

/-! ### PLLs and references (R443, R444) -/

/-- A DEC or ENC page is enabled. -/
def State.codecUsed (s : State) : Bool :=
  (upTo 8).any (fun i => s.enabled (pg .dec i)) || (upTo 2).any fun i => s.enabled (pg .enc i)

/-- PLL `k` runs (R443): 0 core, 1 MSS, 2 codec, 3 drover, 8 + n DMC n. -/
def State.pllRuns (s : State) (k : Nat) : Bool :=
  if k ≤ 1 then decide (s.pwrState ≠ 2)
  else if k = 2 then s.codecUsed || s.pwr.codecIdle.isSome
  else if k = 3 then s.mss.drovers
  else decide (8 ≤ k) && s.on (pg .dmc (k - 8)) DMC_CFG_POPULATED && decide (k - 8 ∈ s.channels) &&
    decide (s.rd (pg .dmc (k - 8)) DMC_PM_STATE ≠ 2)

/-- PLL `k` is locked. -/
def State.pllIsLocked (s : State) (k : Nat) : Bool := if k < 4 then s.pll k else s.dmcPll (k - 8)

/-- PLL `k` of the first four has locked, or has not. -/
def State.setLock (s : State) (k : Nat) (on : Bool) : State :=
  let v := s.rd clkP CLK_STAT_LOCK
  (s.wr clkP CLK_STAT_LOCK (if on then setBit v k else clrBit v k)).pllAnew k

/-- Core and MSS PLLs have locked on the way out of the stabled state: the fine part runs again from a TCXO edge, the fabric clock runs and every channel starts its exit
(R446). -/
def State.wakeClocks (s : State) : State :=
  let s := if s.time.coarse then s.clockEdge else s
  let s := { s with time := { s.time with coarse := false } }.wb tb TB_STATUS_COARSE false
  s.channels.foldl (fun s n => if s.rd (pg .dmc n) DMC_PM_STATE = 2 then s.wr (pg .dmc n) DMC_PM_STATE 3 else s) s

/-- R443 DEVICE_PLL_LOCK: a running PLL locks: 0 core, 1 MSS, 2 codec, 3 drover, 8 + n DMC n. The blocks it clocks start, which
their own commands read from CLK_STAT. One that does not run cannot lock (log entry 3). -/
def execDevicePllLock (k : Fin 16) (s : State) : Host.Outcome State Fault Refusal :=
  done (if !s.pllRuns k.val || s.pllIsLocked k.val then s
    else if k.val < 4 then
      let s := s.setLock k.val true
      if s.pwrState = 3 ∧ s.time.coarse ∧ s.pllIsLocked 0 ∧ s.pllIsLocked 1 then s.wakeClocks else s
    else s.dmcLock (k.val - 8) true)

/-- R443 PLL_FAIL: a running PLL has not locked within 1 ms, or within the 1 ms of a retry: one record, however often it retries. -/
def execPllFail (k : Fin 16) (s : State) : Host.Outcome State Fault Refusal :=
  done (if !s.pllRuns k.val || s.pllIsLocked k.val || s.pwr.failed.contains k.val then s
    else { s with pwr := { s.pwr with failed := k.val :: s.pwr.failed } }.emit clkP 0x0001 [k.val])

/-- R443 CODEC_PLL_IDLE_STOP: 1 ms after the last DEC or ENC page was disabled the codec PLL stops. -/
def execCodecPllIdleStop (s : State) : Host.Outcome State Fault Refusal :=
  done (match s.pwr.codecIdle with
    | none => s
    | some t =>
      if s.codecUsed then { s with pwr := { s.pwr with codecIdle := none } }
      else
        let s := (s.advanceRun (t + ns 1000000)).setLock 2 false
        { s with pwr := { s.pwr with codecIdle := none } })

/-- The CLK_STAT bit of reference input `i`: 0 TCXO, 1 LREF0, 2 LREF1, 3 PCIe. -/
def refFld (i : Nat) : Fld :=
  match i with
  | 0 => CLK_STAT_TCXO_OK
  | 1 => CLK_STAT_LREF0_OK
  | 2 => CLK_STAT_LREF1_OK
  | _ => CLK_STAT_PCIE_REF_OK

/-- R444 REF_CLOCK_CHANGE: REF_FOUND or REF_LOST; an input already as said changes nothing. -/
def execRefClockChange (i : Fin 4) (found : Bool) (s : State) : Host.Outcome State Fault Refusal :=
  done (if s.on clkP (refFld i.val) == found then s
    else (s.wb clkP (refFld i.val) found).emit clkP (if found then 0x0802 else 0x0801) [i.val])

/-! ### Entry (R445, R446) -/

/-- The function ID of the first block found enabled that bars the stabled state, in the order of R445. -/
def State.stableBlock (s : State) : Option Nat :=
  let net := s.rd pwrP PWR_WAKE_NET_NET
  let l : List (Blk × List Nat) := [(.hd, upTo 64), (.dec, upTo 8), (.enc, upTo 2), (.cmp, upTo 2), (.bl, upTo 4), (.yk, [0]),
    (.feed, [0]), (.tch, [0, 1]), (.net, (upTo 18).filter fun n => decide (n ≠ net))]
  let hit := l.findSome? fun x => (x.2.find? fun i => s.enabled (pg x.1 i)).map (fidOf x.1)
  hit.orElse fun _ => if s.on pciP PCI_DMA_RING_EN then some 0x1D00 else none

/-- Why a STABLE request is refused (R445, R448): function ID and reason. -/
def State.stableRefusal (s : State) : Option (Nat × Nat) :=
  if s.pwrState ≠ 0 then some (0, 3)
  else match s.stableBlock with
    | some f => some (f, 0)
    | none =>
      if s.updState ≠ 0 ∧ s.updState ≠ 4 then some (0, 1)
      else if s.far.run.isSome || (upTo 8).any (fun n => s.on (pg .dmc n) DMC_TRN_BUSY) then some (0, 2)
      else none

/-- The drovers go into reset: their epochs increment (R88, R92). -/
def State.droversHeld (s : State) : State :=
  let s := (upTo 8).foldl (fun s d => s.epochUp (2 + d)) s
  { s with mss := { s.mss with drovers := false } }.setLock 3 false

/-- R445 STABLE_REQUEST. -/
def execStableRequest (_w : Writer) (s : State) : Host.Outcome State Fault Refusal :=
  done (match s.stableRefusal with
    | some (f, r) => s.emit pwrP 0x1001 (le f 2 ++ [r])
    | none =>
      let s := ((s.wb pwrP PWR_CTRL_STABLE true).wr pwrP PWR_STATE_STATE 1).droversHeld
      { s with pwr := { s.pwr with from_ := s.now } })

/-- The quad of the wake path; a NET in RGMII mode has none. -/
def State.wakeQuad (s : State) : Option Nat :=
  let n := s.rd pwrP PWR_WAKE_NET_NET
  if s.netMode n = 4 then none else some (s.netLane n / 4)

/-- The PLLs of a quad stop and its lanes hold electrical idle. -/
def State.quadStop (s : State) (q : Nat) : State :=
  let p := pg .ln (4 * q)
  let s := (upTo 2).foldl (fun s k =>
    let f := pllFlds k
    { (((s.wb p f.1 false).wb p f.2.1 false).wr p f.2.2 0) with pllRetry := Store.del (2 * q + k) s.pllRetry }) s
  (upTo 4).foldl (fun s i => s.lnQuiet (4 * q + i)) s

/-- A port of TB_PTP_PORTS belongs to the quad of the wake path (R172). -/
def State.ptpStays (s : State) : Bool :=
  (upTo 18).any fun n => bit (s.rd tb TB_PTP_PORTS_PORTS) n && s.wakeQuad.isSome &&
    decide (s.netMode n ≠ 4) && decide (some (s.netLane n / 4) = s.wakeQuad)

/-- R446 STABLED: every channel in self-refresh, the quad PLLs but the wake quad's and all device PLLs stopped, the coarse part
of the time base alone running, with HOLDOVER where no PTP port stays (R172). A cause kept from ENTERING starts the exit
(R447). -/
def execStabled (s : State) : Host.Outcome State Fault Refusal :=
  done (if s.pwrState ≠ 1 then s
    else
      let s := s.channels.foldl (fun s n => if s.rd (pg .dmc n) DMC_PM_STATE = 2 then s else (s.tokensDone n).srEnter n) s
      let s := (upTo 16).foldl (fun s q => if s.wakeQuad = some q then s else s.quadStop q) s
      let s := (upTo 2).foldl State.matrixOff s
      let s := (s.wr clkP CLK_STAT_LOCK 0).wr clkP CLK_STAT_DMC_LOCK 0
      let s := if (s.rd tb TB_STATUS_STATE = 1 ∨ s.rd tb TB_STATUS_STATE = 2) ∧ !s.ptpStays then (s.wr tb TB_SERVO_STATE 3).setTbState 3 else s
      let s := { s with time := { s.time with coarse := true } }.wb tb TB_STATUS_COARSE true
      let s := ((s.wb pwrP PWR_CTRL_STABLE false).wr pwrP PWR_STATE_STATE 2).emit pwrP 0x0001 []
      let wakes := s.pwr.wakes
      let s := { s with pwr := { s.pwr with wakes := [], codecIdle := none, failed := [] } }
      if wakes.isEmpty then s else s.wr pwrP PWR_STATE_STATE 3)

/-! ### Exit (R446, R447) -/

/-- R447 WAKE_REQUEST: a write of WAKE 1. -/
def execWakeRequest (_w : Writer) (s : State) : Host.Outcome State Fault Refusal := done (s.wake 0)

/-- R447 WAKE_ALARM: yard time reaches PWR_WAKE_AT, outside ACTIVE; an alarm that lay in the past when entry began is not
reached. -/
def execWakeAlarm (s : State) : Host.Outcome State Fault Refusal :=
  let a := s.rd64 pwrP PWR_WAKE_AT_LO_T PWR_WAKE_AT_HI_T
  done (if s.pwrState = 0 ∨ !s.on pwrP PWR_WAKE_EN_ALARM ∨ a ≤ s.pwr.from_ then s
    else
      let s := (s.advanceTo a).wake 3
      { s with pwr := { s.pwr with from_ := max a s.now } })

/-- R446 WAKE_COMPLETE: PLLs locked, channels active again, STATE ACTIVE with a WAKE record; the quads' PLLs start as their
lanes need them (R311). -/
def execWakeComplete (s : State) : Host.Outcome State Fault Refusal :=
  done (if s.pwrState ≠ 3 then s
    else
      let s := ((s.setLock 0 true).setLock 1 true).wakeClocks
      let s := s.channels.foldl (fun s n => if s.rd (pg .dmc n) DMC_PM_STATE = 3 then s.srLeave n else s) s
      let s := (upTo 16).foldl State.lnRefresh s
      let s := (upTo 2).foldl State.matrixWake s
      let s := (s.wr pwrP PWR_STATE_STATE 0).emit pwrP 0x0801 [s.rd pwrP PWR_WAKE_CAUSE_CAUSE]
      if s.on pwrP PWR_WAKE_EN_PCIE then s.emitOut (.pin "PCIE_WAKE_N" 0 1) else s)

end Sys2Proof.Machine
end

