-- ==== Sys2Proof/Machine/Enable.lean ====
section
/-! DEFINITION. The enable bits of block pages and what SOFT_RESET does (R43, R44, R59, R83, R95, R177, R184, R366, R371, R372). -/

namespace Sys2Proof.Machine

/-! ### Ethernet ports (R176, R177, R181) -/

/-- MODE is allowed for NET instance `n` (R176). -/
def netModeOk (n mode : Nat) : Bool := if n < 16 then decide (1 ≤ mode ∧ mode ≤ 3) else decide (mode = 4)

/-- The registry entries that NET `n` needs: its lane quad, or its RGMII balls in the order of R455. -/
def netNeeds (n mode lane : Nat) : List Nat :=
  if mode = 4 then (upTo 14).map fun j => 14 * (n - 16) + j else [quadIdx (lane / 4)]

/-- Enable NET `n`: an unsuitable MODE is refused, a lane in use writes LANE_BUSY, and the registry judges the rest (R177). -/
def State.netEnable (s : State) (w : Writer) (n : Nat) : State :=
  let p := pg .net n
  let mode := s.rd p NET_CFG_MODE
  let lane := s.rd p (NET_CFG_LANE n)
  if !netModeOk n mode then s
  else match (if mode = 4 then none else s.laneNet lane) with
    | some m => s.emit p 0x0801 ([lane, 0] ++ le (0x0A00 + m) 2)
    | none => match s.ownCheck (0x0A00 + n) (0x0A00 + n) w.fid (netNeeds n mode lane) with
      | some s => s
      | none =>
        let s := ((s.useSet (netNeeds n mode lane) true).wb p HDR_CTRL_ENABLE true).commitNow p [NET_CFG_MODE, NET_CFG_LANE n]
        if mode = 4 then s else s.lnRefresh (lane / 4)

/-- Disable NET `n`: its link falls, and its entries are free again but for a quad that another port uses (R59, R181). -/
def State.netDisable (s : State) (n : Nat) : State :=
  let p := pg .net n
  let q := s.netLane n / 4
  let s := (s.netLink n false false).wb p HDR_CTRL_ENABLE false
  if s.netMode n = 4 then s.useSet (netNeeds n 4 0) false
  else
    let s := if (upTo 4).any fun i => (s.laneNet (4 * q + i)).isSome then s else s.useSet [quadIdx q] false
    s.lnRefresh q

/-! ### The yoke (R362, R366, R371, R372) -/

/-- The YOKE partition holds 512 bytes for every unit of the VCs' buffers. -/
def State.ykRoom (s : State) : Bool :=
  s.hasPart 3 (512 * (upTo 5).foldl (fun t v => t + s.rd ykP (YK_VC_BUF_UNITS v)) 0)

/-- Enable YK. The claim becomes 0, or SOLO_CLAIM, and a change shows on the packetisers (R295). DEDUCED: no CLAIM record goes with it,
since R363's causes name none for an enable (log entry 145). DESIGN CHOICE: a SOLO_CLAIM of 255, which is never held, gives claim 0 (log entry
173). -/
def State.ykEnable (s : State) (w : Writer) : State :=
  let solo := s.on ykP YK_CFG_SOLO
  let q := s.rd ykP YK_CFG_QUAD
  if !s.on 0 SYS_NODE_VALID && !solo then s
  else match s.ownCheck 0x1600 0x1600 w.fid [quadIdx q] with
    | some s => s
    | none =>
      if !s.ykRoom then s
      else
        let s := (s.useSet [quadIdx q] true).wb ykP HDR_CTRL_ENABLE true
        let old := s.claim
        let new := if solo ∧ s.rd ykP YK_CFG_SOLO_CLAIM ≠ 255 then s.rd ykP YK_CFG_SOLO_CLAIM else 0
        let s := s.wr ykP YK_CLAIM_CLAIM new
        let s := if new = old then s else s.claimShown new old
        let s := s.yk fun y => { y with divs := 0 }
        (s.ykState (if solo then 1 else 2)).lnRefresh q

/-- Disable YK: its link goes down with cause 4, and its state is OFF. -/
def State.ykDisable (s : State) : State :=
  let q := s.rd ykP YK_CFG_QUAD
  let s := if s.yoke.link then s.ykDown 4 else s
  let s := (s.useSet [quadIdx q] false).wb ykP HDR_CTRL_ENABLE false
  (s.ykState 0).lnRefresh q

/-! ### Every block -/

/-- The block's unit is fenced: its function ID (R36). -/
def State.blkFenced (s : State) (b : Blk) (i : Nat) : Bool :=
  match b with
  | .dec => bit (s.rd 0 SYS_FENCE_A_DEC) i
  | .enc => bit (s.rd 0 SYS_FENCE_A_ENC) i
  | .cmp => bit (s.rd 0 SYS_FENCE_A_CMP) i
  | .gate => bit (s.rd 0 SYS_FENCE_A_SO) i
  | .bl => bit (s.rd 0 SYS_FENCE_A_SO) i
  | .dmc => bit (s.rd 0 SYS_FENCE_A_DMC) i
  | .drv => bit (s.rd 0 SYS_FENCE_A_DRV) i
  | _ => false

/-- Note when the last user of the codec PLL goes, and when one comes (R443). -/
def State.codecNote (s : State) : State :=
  { s with pwr := { s.pwr with codecIdle := if s.codecUsed then none else some (s.pwr.codecIdle.getD s.time.run) } }

/-- The scaler slices that engine `e` may use: owned by it or by every engine, and not fenced (R238). -/
def State.slicesOwned (s : State) (e : Nat) : List Nat :=
  ((upTo 32).map (1056 + ·)).filter fun i => s.ownedBy (0x0F00 + e) i && !s.entFenced i

/-- Engine `e` is disabled: its slices are no longer in use, but for shared ones that the other engine uses (R59, R238). -/
def State.slicesRelease (s : State) (e : Nat) : State :=
  s.useSet ((s.slicesOwned e).filter fun i => decide (s.owner i ≠ 0x0FFF) || !s.enabled (pg .cmp (1 - e))) false

/-- ENABLE 1 of a block that passed the device-wide tests of R44; what else its own chapter asks decides here. -/
def State.blkStart (s : State) (w : Writer) (b : Blk) (i : Nat) : State :=
  let p := pg b i
  let on := s.wb p HDR_CTRL_ENABLE true
  match b with
  | .hd => s.headEnable w i
  | .bl => s.blEnable w.fid i
  | .ln => s.lnEnable w i
  | .cvu => s.cvuEnable w i
  | .tch => s.tchEnable i
  | .net => s.netEnable w i
  | .yk => s.ykEnable w
  | .feed => if s.hasPart 2 (2 ^ 20) then on else s
  | .dec => if s.hasPart 1 (2 ^ 20) then on.codecNote else s
  | .enc => on.codecNote
  | .cmp => on.useSet (s.slicesOwned i) true
  | _ => on

/-- ENABLE 0 of an enabled block. -/
def State.blkStop (s : State) (b : Blk) (i : Nat) : State :=
  let p := pg b i
  let off := s.wb p HDR_CTRL_ENABLE false
  match b with
  | .hd => s.headDisable i
  | .bl => s.blDisable i
  | .ln => s.lnDisable i
  | .cvu => s.cvuDisable i
  | .tch => s.tchDisable i
  | .net => s.netDisable i
  | .yk => s.ykDisable
  | .feed => (upTo 512).foldl State.feedDisable off
  | .dec => off.codecNote
  | .enc => off.codecNote
  | .cmp => off.slicesRelease i
  | .hit =>
    let s := off.hit.waits.foldl (fun s w => s.setWait w.slot 0 false) off
    { s with hit := ⟨[], []⟩ }
  | _ => off

/-- A write of CTRL.ENABLE (R44): refused before SYS_CAPS is final and for a fenced unit. A guard counts an accepted one in GEN
(R83). -/
def State.enableWrite (s : State) (w : Writer) (b : Blk) (i : Nat) (v : Bool) : State :=
  let p := pg b i
  let s' :=
    if s.enabled p == v then s
    else if !v then s.blkStop b i
    else if s.capsWord = 0 then s
    else if s.blkFenced b i then s.enableFenced (fidOf b i) (fidOf b i) 0xFFFF w.fid
    else s.blkStart w b i
  if b = .grd ∧ (!v ∨ s.enabled p ∨ s.capsWord ≠ 0) then s'.guardBump i else s'

/-- ENABLE_WRITE and the other commands that name a page by its address reach it where it is decoded; the UPD page hears only the
host and the MSS (R436). -/
def State.pageFor (s : State) (w : Writer) (a : Nat) : Option (Blk × Nat) :=
  if !s.regDecoded w.master a then none
  else match pageOf a with
    | some (.upd, i) => if w = .host ∨ w = .mss then some (.upd, i) else none
    | r => r

/-- An access to BAR0 that is not decoded goes to the default target, which records it and answers DECERR (R40, R72). -/
def State.missed (s : State) (w : Writer) (k : AccKind) (a : Nat) : State :=
  if s.regDecoded w.master a then s
  else s.missRecord w k a

/-- A write of `v` to the word at `a` that is not decoded; in a fenced unit's page it may be an attempt to enable (R36). -/
def State.missedWrite (s : State) (w : Writer) (a v : Nat) : State :=
  let t := s.missed w .write a
  if s.regDecoded w.master a then t else t.fencedTry w a v

/-- R44 ENABLE_WRITE. -/
def execEnableWrite (w : Writer) (page : BitVec 26) (v : Bool) (s : State) : Host.Outcome State Fault Refusal :=
  done (match s.pageFor w page.toNat with
    | some (b, i) => s.enableWrite w b i v
    | none => s.missedWrite w (page.toNat / 4096 * 4096 + 8) (b2n v))

/-! ### SOFT_RESET (R43) -/

/-- The epochs in progress of engine `e` are abandoned, and their bays and holds released. -/
def State.cmpAbandon (s : State) (e : Nat) : State :=
  (upTo 64).foldl (fun s c =>
    let x := s.cv e c
    let s := (x.begun ++ x.drains).foldl State.epochRelease s
    s.setCv e c { x with begun := [], drains := [] }) s

/-- Parts that a soft reset takes out of a block are answered with an error, so that their requests end (log entry 138). -/
def State.partsFail (s : State) (l : List Part) : State := l.foldl (fun s x => s.answer x 1 0 []) s

/-- SOFT_RESET of XB: what waits or is queued at the target ports is gone, and the rotations start anew (R43, R74). A request that a guard
had denied parts of makes its violation, since no part of it waits there any more (R85). -/
def State.xbSoftReset (s : State) : State :=
  let lost := s.fab.waiting
  let s := s.partsFail (lost ++ s.fab.queued)
  let s := { s with fab := { s.fab with waiting := [], queued := [], rot := [], blocked := [] } }
  lost.foldl (fun s x => match guardOf x.target with
    | some g => s.closeDenial x g
    | none => s) s

/-- SOFT_RESET of DMC `n`: its requests, retraining, owed refreshes, open rows and slot position are gone (R43). -/
def State.dmcSoftReset (s : State) (n : Nat) : State :=
  let p := pg .dmc n
  let s := s.partsFail (s.dmcServing n)
  let s := { s with fab := { s.fab with serving := s.fab.serving.filter fun x => decide (x.target ≠ n) } }
  let s := (upTo 32).foldl (fun s m => s.wr p (DMC_TOK_HELD m) 0) s
  let s := ((s.wr p DMC_TOKFREE_FREE 128).wr p DMC_REF_OWED 0).wb p DMC_TRN_BUSY false
  let s := (((s.wb p DMC_TRN_NOW false).wb p DMC_SLOT_CTRL_SWAP false).wr p DMC_SLOT_CTRL_CUR 0).wb p DMC_SCRUB_BEHIND false
  let s := s.wr p DMC_SCRUB_POS_MIB 0
  s.setDm n { dmc0 with initTo := (s.dm n).initTo, hot := (s.dm n).hot, scrubFrom := s.time.run }

/-- SOFT_RESET of GATE `e`: the ledgers it has read and the output checks it runs are gone (R43). -/
def State.gateSoftReset (s : State) (e : Nat) : State :=
  let mine := s.engineHeads e
  let cvs := mine.map fun h => (s.geoAct h).canvas
  { s with ledgers := Store.keep (fun k => decide (k / 64 ≠ e)) s.ledgers
           crcs := Store.keep (fun c => !cvs.contains c) s.crcs }

/-- SOFT_RESET of TB: pulses and schedules of the outputs, latency entries, transmit stamps, a pending step and the slew are gone; yard
time and its state go on, for no other reset than that of the always-on domain changes them (R43, R153). -/
def State.tbSoftReset (s : State) : State :=
  let s := (upTo 8).foldl (fun s j =>
    let s := if (s.tout j).pulseEnd.isSome then s.toDrive j false else s
    (((s.wb tb (TB_TO_CTRL_ARM j) false).wb tb (TB_RXL_VALID j) false).wb tb (TB_RXL_RUN j) false).setTout j ⟨none, none⟩) s
  let s := s.wb tb TB_STATUS_STEP_PENDING false
  { s with time := { s.time with txq := [], rxOpen := [], pend := none, slew := 0 } }

/-- What a block's chapter says its SOFT_RESET does beside R43, before the page is disabled. -/
def State.softOwn (s : State) (w : Writer) (b : Blk) (i : Nat) : State :=
  match b with
  | .hit => s.hitSoftReset
  | .bay => s.baySoftReset w
  | .dec => s.decAbandonSnoop i
  | .cmp => s.cmpAbandon i
  | .enc => (upTo 32).foldl (fun s k => s.chEnd i k) s
  | .far => s.farAbandon
  | .upd => s.updAbort
  | .cvu => s.setCvu i cvu0
  | .yk => s.claimSet 0 6
  | .pci => (s.wb pciP PCI_DMA_RING_EN false).dmaBusy
  | .xb => s.xbSoftReset
  | .dmc => s.dmcSoftReset i
  | .gate => s.gateSoftReset i
  | .tb => s.tbSoftReset
  | _ => s

/-- A write of SOFT_RESET: the block stops, and ENABLE and EVT_RAW read 0 (R43). The reset has finished when the command has. -/
def State.softReset (s : State) (w : Writer) (b : Blk) (i : Nat) : State :=
  let p := pg b i
  let s := s.softOwn w b i
  let s := if s.enabled p then s.blkStop b i else s
  let s := s.wr p HDR_EVT_RAW_RAW 0
  let s := if b = .cvu then s.wr p CVU_RES_STAT_USED 0 else s
  if b = .grd then s.guardBump i else s

/-- R43 SOFT_RESET: an enable in the same write is ignored. -/
def execSoftReset (w : Writer) (page : BitVec 26) (_en : Bool) (s : State) : Host.Outcome State Fault Refusal :=
  done (match s.pageFor w page.toNat with
    | some (b, i) => s.softReset w b i
    | none => s.missed w .write page.toNat)

/-- R43 PAGE_LOCK: LOCK := 1 freezes every RWL field of the page. -/
def execPageLock (w : Writer) (page : BitVec 26) (s : State) : Host.Outcome State Fault Refusal :=
  done (match s.pageFor w page.toNat with
    | some (b, i) => s.wb (pg b i) HDR_CTRL_LOCK true
    | none => s.missed w .write page.toNat)

end Sys2Proof.Machine
end

