-- ==== Sys2Proof/Machine/Mss.lean ====
section
/-! DEFINITION. The management subsystem: boot, lockstep, watchdog, sensors, log and daybook (R392 to R402, R407, R421, R422, R425,
R451). -/

namespace Sys2Proof.Machine

/-! ### Recovery (R435) -/

/-- Every function is disabled but NET16 and those whose pages recovery mode keeps, or that lie in the always-on domain; the drovers
are held (R435). -/
def State.functionsOff (s : State) : State :=
  let keep : List Blk := [.sys, .own, .pwr, .clk, .mss, .dbk, .upd, .sag, .tb]
  let l := (blkMap.filter fun e => !keep.contains e.1).flatMap fun e => (upTo e.2.2.2).map fun j => (e.1, e.2.2.1 + j)
  let s := l.foldl (fun s x =>
    if s.enabled (pg x.1 x.2) ∧ x ≠ (.net, 16) then
      let s := s.blkStop x.1 x.2
      if x.1 = .grd then s.guardBump x.2 else s
    else s) s
  let s := if s.on pciP PCI_DMA_RING_EN then (s.wb pciP PCI_DMA_RING_EN false).dmaBusy else s
  if s.mss.drovers then s.droversHeld else s

/-- NET16 runs in RGMII mode with the IPv6 link-local address whose interface identifier is the low 64 bits of UID (R435). -/
def State.recoveryNet (s : State) : State :=
  let p := pg .net 16
  let id := beBytes (Config.fuseUid % 2 ^ 64) 8
  let s := s.wr p NET_CFG_MODE 4
  let s := ((s.wr p (NET_IP6_ADDR 0) 0x80FE).wr p (NET_IP6_ADDR 1) 0).wr p (NET_IP6_ADDR 2) (ofLE (id.take 4))
  let s := s.wr p (NET_IP6_ADDR 3) (ofLE (id.drop 4))
  if s.enabled p then s else s.netEnable .mss 16

/-- The MSS enters ROM recovery mode (R32, R425, R435): the claim falls to 0, every function is disabled, M28 and M29 are its own and M0 to
M13 are NET16's (R455). DEDUCED: the claim is lowered as by YK_LOWER, with cause 0 (log entry 168). -/
def State.enterRecovery (s : State) : State :=
  let s := (s.claimSet 0 0).functionsOff
  let s := s.wb mssP MSS_BOOT_RECOVERY true
  let s := { s with mss := { s.mss with recover := false } }
  let s := (upTo 14).foldl (fun s k => s.ownWrite 0x1700 k 0x0A10 0x0A10) s
  ((s.ownWrite 0x1700 28 0x1700 0x1700).ownWrite 0x1700 29 0x1700 0x1700).recoveryNet

/-- The check of component `typ` has failed with a code of R430, which sends the device to ROM recovery mode (R425, R435). -/
def State.verifyFail (s : State) (code typ : Nat) : State := (s.emit updP 0x0802 [code, typ]).enterRecovery

/-! ### Self-test (R31 to R34) -/

/-- The device falls silent (R32): the MSS is held, the PCI Express link is down, and no pin is driven. -/
def State.silence (s : State) : State :=
  let outs := (upTo 8).filter fun j => s.on tb (TB_TO_CTRL_EN j)
  let s := s.resetFields pciP [PCI_LINK_SPEED, PCI_LINK_UP, PCI_LINK_WIDTH]
  let s := { s with mss := { s.mss with hold := 3 } }
  outs.foldl (fun s j => (((s.wb tb (TB_TO_CTRL_EN j) false).wb tb (TB_TO_CTRL_ARM j) false).setTout j ⟨none, none⟩).toRelease j) s

/-- Self-test and training end (R32, R33): the results of the minimum set decide. After a failure of the always-on domain or the MSS
nothing runs (hold 3). -/
def State.selfTest (s : State) (t : SelfTest) : State :=
  let d := s.dmcBad t
  let failed := failedUnits t d.2
  if t.aonFail || !s.on clkP CLK_STAT_TCXO_OK then s.silence
  else if !(minimumSet t d.1 && (s.on clkP CLK_STAT_LREF0_OK || s.on clkP CLK_STAT_LREF1_OK)) then (s.selfTestRecords failed).enterRecovery
  else
    let s := (s.selfTestRecords failed).fenceSet t d.1
    let s := (s.capsSet t d.1 (!failed.isEmpty)).entriesFence t
    s.channels.zipIdx.foldl (fun s x => s.dmcInService x.1 x.2) s

/-- R33 SELF_TEST_DONE: at stage 3 of the MSS's boot, before SYS_CAPS is final; elsewhere nothing happens (log entry 3). -/
def execSelfTestDone (t : SelfTest) (s : State) : Host.Outcome State Fault Refusal :=
  done (if s.rd mssP MSS_BOOT_STAGE = 3 ∧ s.mss.hold = 0 ∧ s.capsWord = 0 ∧ !s.on mssP MSS_BOOT_RECOVERY then s.selfTest t else s)

/-! ### The records of stage 2 (R421, R422) -/

/-- The board record keeps R421. -/
def boardOk (l : List Nat) : Bool :=
  let f := fun (off n : Nat) => recNum l off n
  let solo := bit (f 0xC 1) 0
  decide (l.length = 0x220) && decide (l.take 4 = [0x51, 0x42, 0x52, 0x44]) && decide (f 4 2 = 1) && decide (f 6 2 = 0x220) &&
    decide (f 8 1 ≤ 3) && decide (f 9 1 ≤ 1) && decide (f 0xA 1 ≤ 7) && decide (f 0xC 1 ≤ 3) &&
    (if solo then decide (1 ≤ f 0xD 1) && decide (f 0xD 1 ≤ 254) else decide (f 0xD 1 = 0)) &&
    decide (f 0x12 2 = 0) && decide (f 0x1E 2 = 0) &&
    decide (bits (f 0x14 4) 2 6 = 0) && decide (10 ≤ bits (f 0x14 4) 8 8) && decide (bits (f 0x14 4) 16 12 ≤ 2048) &&
    decide (bits (f 0x14 4) 28 4 = 0) && decide (bits (f 0x18 4) 0 2 ≤ 2) && decide (bits (f 0x18 4) 12 4 = 0) &&
    decide (10 ≤ bits (f 0x18 4) 16 16) && decide (f 0x1C 2 * 4096 + 260 * 1024 ≤ 48 * 2 ^ 20)

/-- The site record keeps R422. -/
def siteOk (l : List Nat) : Bool :=
  let f := fun (off n : Nat) => recNum l off n
  decide (l.length = 0xA0) && decide (l.take 4 = [0x51, 0x53, 0x49, 0x54]) && decide (f 4 2 = 1) && decide (f 6 2 = 0xA0) &&
    decide (f 8 1 ≤ 31) && decide (f 9 1 ≤ 3) && decide (f 0x30 4 < 2 ^ 18) && decide (f 0x34 4 < 2 ^ 18) && decide (f 0x38 8 = 0) &&
    (bit (f 9 1) 0 || decide (f 0x14 12 = 0)) && (bit (f 9 1) 1 || decide (f 0x24 12 = 0))

/-- Base of the slot booted. -/
def State.bootBase (s : State) : Nat := slotBase (s.on mssP MSS_BOOT_SLOT)

/-- The bytes of component `typ` of the booted package, where they match their digest. -/
def State.bootComp (s : State) (typ : Nat) : Option (List Nat) :=
  match s.pkgComp s.bootBase typ with
  | some e => if s.digestOk s.bootBase e then some (s.norBytes (s.bootBase + e.off) e.len) else none
  | none => none

/-- The MSS writes RWL fields of a word (R45). -/
def State.mssWrite (s : State) (p : Nat) (l : List Fld) (off v : Nat) : State :=
  if s.on p HDR_CTRL_LOCK then (if s.differs p l v then s.lockedWrite p off 0xFFFF v .mss else s) else s.setFields p l v

/-- The board record is applied (R421): each page's fields are written and the page locked; a page locked before keeps its values, and a write of
others is recorded (R45). -/
def State.boardApply (s : State) (l : List Nat) : State :=
  let f := fun (off n : Nat) => recNum l off n
  let s := { s with mss := { s.mss with board := l, testAllow := bit (f 0xC 1) 1, hoBase := f 0x1C 2 } }
  let s := (upTo 8).foldl (fun s n =>
    let p := pg .dmc n
    let v := f 8 1 + 4 * f 9 1 + 8 * f 0xA 1 + 64 * b2n (bit (f 0xB 1) n)
    (s.mssWrite p [DMC_CFG_DENSITY, DMC_CFG_RANKS, DMC_CFG_RATE, DMC_CFG_POPULATED] 0x100 v).wb p HDR_CTRL_LOCK true) s
  let s := s.mssWrite ykP [YK_CFG_SOLO, YK_CFG_SOLO_CLAIM] 0x100 (16 * b2n (bit (f 0xC 1) 0) + 256 * f 0xD 1)
  let s := s.wb ykP HDR_CTRL_LOCK true
  let s := s.mssWrite sagP [SAG_CFG_PFAIL_EN, SAG_CFG_MIRROR, SAG_CFG_TAIL, SAG_CFG_MAXREC] 0x100 (f 0x14 4)
  let s := s.mssWrite sagP [SAG_NVM_CLK, SAG_NVM_SIZE, SAG_NVM_TPWRUP, SAG_NVM_BATCH] 0x104 (f 0x18 4)
  let s := s.wb sagP HDR_CTRL_LOCK true
  (upTo 256).foldl (fun s k => if f (0x20 + 2 * k) 2 = 0 then s else s.ownWrite 0x1700 k (f (0x20 + 2 * k) 2) (f (0x20 + 2 * k) 2)) s

/-! ### Restore (R407) -/

/-- A record from its 32 bytes (R47). -/
def recOf (l : List Nat) : Rec := ⟨recNum l 0 8, recNum l 8 2, recNum l 0xA 2, recNum l 0xC 4, l.drop 16⟩

/-- Mirror records `a … a + n − 1` go into the daybook. -/
def State.restoreRecs (s : State) (a : Nat) : Nat → State
  | 0 => s
  | n + 1 =>
    let r := recOf (s.nvmBytes (0x1000 + 32 * (a % 2048)) 32)
    ({ s with dbk := Store.put (a % 2048) r s.dbk }).restoreRecs (a + 1) n

/-- The counters of the counters block are added to what has been counted since the power-on reset; the mean temperature is that of both. -/
def State.restoreCounters (s : State) : State :=
  let c := fun (i : Nat) => s.nvm.readLE (0x400 + 4 * i) 4
  let ms := c 0 * 1000 + s.mss.lifeMs
  let sum := sint 16 (c 1) * (c 0 * 1000) + s.mss.lifeSum
  let mean := if ms = 0 then c 1 else uint 16 (floorDiv sum ms)
  let s := ((s.cnt mssP MSS_LIFE_S_S (c 0)).wr mssP MSS_LIFE_TAVG_T mean).cnt mssP MSS_LOCKSTEP_COUNT (c 2)
  let s := (s.cnt sagP SAG_COUNT_COUNT (c 3)).cnt farP FAR_COUNT_ACCEPTED (c 4 % 2 ^ 16)
  let s := s.cnt farP FAR_COUNT_REJECTED (c 4 / 2 ^ 16)
  let resets := (upTo 7).foldl (fun m i => Store.put i (satAdd 32 (Store.getD 0 i s.mss.resets) (c (5 + i))) m) []
  { s with mss := { s.mss with resets := resets, lifeMs := ms, lifeSum := sum } }

/-- Stage 4 after a power-on reset (R407); records of this start follow the restored ones. -/
def State.restoreImage (s : State) : State :=
  let dbk := pg .dbk 0
  match s.hdrCur with
  | none => s
  | some a =>
    let w := s.nvm.readLE (a + 0x14) 4
    let first := max (s.nvm.readLE (a + 0x18) 4) (w - 2048)
    let flags := s.nvm.readLE (a + 0x1C) 2
    let since := s.dbk.map fun e => e.2
    let s := ({ s with dbk := [] }.restoreRecs first (w - first)).wr dbk DBK_WR_COUNT w
    let s := { s with sag := { s.sag with mirrored := w, first := first } }
    let s := since.foldl State.dbkAppend s
    let s := if bit flags 1 ∧ s.nvm.readLE (a + 0x2C) 4 = crc32c (s.nvmBytes 0x400 256) then s.restoreCounters else s
    s.emit mssP 0x2801 (le (w - first) 4 ++ le (s.hdrSeq a) 4 ++ [flags % 256])

/-! ### Boot (R393) -/

/-- The stage in progress. -/
def State.bootStage (s : State) : Nat := s.rd mssP MSS_BOOT_STAGE

/-- The next stage begins. -/
def State.stageTo (s : State) (n : Nat) : State := s.wr mssP MSS_BOOT_STAGE n

/-- Stage 1: the slot to boot (R425). -/
def State.stage1 (s : State) : State :=
  let go := fun (b : Bool) =>
    ((s.wb mssP MSS_BOOT_SLOT b).wr mssP MSS_BOOT_IMAGE_VER (s.norLE (slotBase b + 0xC) 2)).stageTo 2
  if s.markerOk ∧ s.slotBoots true then go true
  else if s.slotBoots false then go false
  else if s.slotBoots true then go true
  else s.enterRecovery

/-- Stage 2: the board record and the site record (R421, R422). -/
def State.stage2 (s : State) : State :=
  match s.bootComp 4 with
  | none => s.verifyFail 21 4
  | some b =>
    if !boardOk b then s.verifyFail 20 4
    else match s.bootComp 5 with
      | none => s.verifyFail 21 5
      | some t =>
        if !siteOk t then s.verifyFail 20 5
        else
          let s := s.boardApply b
          ({ s with mss := { s.mss with site := t } }).stageTo 3

/-- The MSS protects the drover code area with a locked region in every DRAM guard: reads by masters 2 to 9, writes by master 1 (R459). The
region's number is a free value. -/
def State.codeProtect (s : State) : State :=
  (upTo 8).foldl (fun s g =>
    let k := Config.codeRegion % 64
    let s := [(4, dramBase / 256), (8, (dramBase + 0x4000000) / 256 - 1), (12, 0x3FC), (16, 2), (0, 1)].foldl (fun s x =>
      s.guardRuleWrite .mss g (0x200 + 32 * k + x.1) x.2) s
    s.wb (pg .grd g) (GRD_RG_CTRL_LOCK k) true) s

/-- Stage 3 once SYS_CAPS is final: codec microcode and drover component checked (R425), the drovers loaded into half 0 and
released, the area protected (R459). Drovers that run on through a reset of the MSS alone are left as they are. -/
def State.stage3 (s : State) : State :=
  if s.capsWord = 0 then s
  else if (s.bootComp 3).isNone then s.verifyFail 21 3
  else match s.pkgComp s.bootBase 2, s.bootComp 2 with
    | some e, some _ =>
      if s.mss.drovers then s.stageTo 4
      else
        let s := ((s.drvLoad s.bootBase e 0).wr 0 SYS_DRV_HALF_HALF 0).codeProtect
        ({ s with mss := { s.mss with drovers := true, drv := some (e.len, e.digest, e.ver) } }).stageTo 4
    | _, _ => s.verifyFail 21 2

/-- Stage 4; the stage that follows begins the first farrier run (R415). -/
def State.stage4 (s : State) (ok : Bool) : State :=
  let s := if s.mss.restore then
      let s := ((s.nvmPower true).nvmPower false).wb sagP SAG_STAT_NVM_OK ok
      let s := if ok then s.restoreImage else s
      { s with mss := { s.mss with restore := false } }
    else s
  let s := s.stageTo 5
  if s.far.run.isNone then s.farStart 2 else s

/-- Stage 5 ends with its run; in service, heartbeats begin, and a booted slot B is copied to slot A (R385, R425, R426). -/
def State.stage5 (s : State) : State :=
  if s.far.run = some 2 then s
  else
    let s := (s.stageTo 6).yk fun y => { y with beat := s.time.run }
    if s.on mssP MSS_BOOT_SLOT ∧ (s.updState = 0 ∨ s.updState = 4) then (s.wr updP UPD_STATE_STATE 6).wr updP UPD_COPY_MIB 0 else s

/-- R393 MSS_BOOT_STAGE: the work of the stage in progress is done. `ok`: at stage 0 the self-check passes, else the device stays
silent (R32); at stage 4 the NVM answers. -/
def execMssBootStage (ok : Bool) (s : State) : Host.Outcome State Fault Refusal :=
  done (if s.mss.hold ≠ 0 ∨ s.recovery then s
    else match s.bootStage with
      | 0 =>
        if !ok then s.silence
        else if s.mss.recover then s.enterRecovery
        else s.stageTo 1
      | 1 => s.stage1
      | 2 => s.stage2
      | 3 => s.stage3
      | 4 => s.stage4 ok
      | 5 => s.stage5
      | _ => s)

/-- The MSS checks the drover code in the half in use against the drover component in service (R425, R446, R459): a read of DRAM as master 1, whose
words are examined as R106 says. DEDUCED: it passes the guards, for the region that protects the area permits no read by master 1 (log entry
169). -/
def State.drvCodeOk (s : State) : Bool × State :=
  match s.mss.drv with
  | some (len, digest, _) =>
    let r := (pieces (0x2000000 * s.rd 0 SYS_DRV_HALF_HALF) len).foldl (fun (a : Bool × List Nat × State) x =>
      let q := (a.2.2.hwEnter 1 x.1 x.2).dramRead 1 x.1 x.2 none fun _ => false
      (a.1 && decide (q.1 = 0), a.2.1 ++ q.2.1, q.2.2)) (true, [], s)
    (r.1 && decide (Config.sha384 r.2.1 = digest), r.2.2)
  | none => (false, s)

/-- R446 DROVER_RELEASE: after a wake the MSS checks the drover code and releases the drovers; code that does not match sends the
device to recovery (R425). -/
def execDroverRelease (s : State) : Host.Outcome State Fault Refusal :=
  let r := s.drvCodeOk
  done (if s.pwrState ≠ 0 ∨ s.mss.hold ≠ 0 ∨ s.mss.drovers ∨ s.recovery then s
    else if r.1 then { r.2 with mss := { r.2.mss with drovers := true } }
    else r.2.verifyFail 21 2)

/-! ### Lockstep and watchdog (R394, R451) -/

/-- R394 LOCKSTEP: the program counters of the two cores. A second mismatch within 60 s of the first holds the MSS, and farrier
runs stop. -/
def execLockstep (a b : Word) (s : State) : Host.Outcome State Fault Refusal :=
  done (if s.mss.hold ≠ 0 then s
    else
      let again : Bool := match s.mss.lastMiss with
        | some t => decide (s.time.run ≤ t + ns (60 * 10 ^ 9))
        | none => false
      let s := (s.claimSet 0 3).cnt mssP MSS_LOCKSTEP_COUNT 1
      let s := s.emit mssP 0x1001 (le a.toNat 4 ++ le b.toNat 4)
      let s := { s with mss := { s.mss with lastMiss := some s.time.run } }
      if again then (s.mssReset 3 2).farAbandon else s.mssReset 3 0)

/-- R451 MSS_WATCHDOG_EXPIRE: the MSS alone restarts, the claim unchanged (R449); WATCHDOG carries the new MSS epoch. -/
def execMssWatchdogExpire (s : State) : Host.Outcome State Fault Refusal :=
  done (if s.mss.hold ≠ 0 ∨ !s.on 0 SYS_WDOG_EN then s
    else
      let s := s.advanceRun (s.mss.wdog + ns (max 10 (s.rd 0 SYS_WDOG_TIMEOUT) * 1000000))
      let s := s.mssReset 4 0
      s.emit 0 0x1801 (le (s.rd (pg .hit 0) (HIT_EPOCH_EPOCH 1)) 2))

/-- R451 WATCHDOG_KICK: only the MSS's write takes effect. -/
def execWatchdogKick (w : Writer) (s : State) : Host.Outcome State Fault Refusal :=
  done (match w with
    | .mss => { s with mss := { s.mss with wdog := s.time.run } }
    | _ => s)

/-! ### Sensors (R395 to R398) -/

/-- A sensor shows a sample. -/
def State.tempShow (s : State) (i t : Nat) : State := (s.wr mssP (MSS_TS_VAL_T i) t).wb mssP (MSS_TS_VAL_VALID i) true

/-- One temperature sample of sensor `i`, 1/16 °C. -/
def State.tempSample (s : State) (i t : Nat) : State :=
  let v := sint 16 t
  let s := s.tempShow i t
  let s := if sint 16 (s.rd mssP (MSS_TS_MAX_T i)) < v then s.wr mssP (MSS_TS_MAX_T i) t else s
  let warm := s.mss.warm.contains i
  let hot := decide (16 * sint 8 (s.rd mssP (MSS_TS_LIM_WARN i)) ≤ v)
  let d := [i, 0] ++ le t 2
  let s := if hot && !warm then { s with mss := { s.mss with warm := s.mss.warm ++ [i] } }.emit mssP 0x1801 d
    else if warm && !hot then
      { s with mss := { s.mss with warm := s.mss.warm.filter fun j => decide (j ≠ i) } }.emit mssP 0x1803 d
    else s
  let n := if 16 * sint 8 (s.rd mssP (MSS_TS_LIM_CRIT i)) ≤ v then Store.getD 0 i s.mss.crit + 1 else 0
  let s := { s with mss := { s.mss with crit := Store.setD 0 i n s.mss.crit } }
  if n = 10 then (s.emit mssP 0x1802 d).sagDetect 2 i else s

/-- One voltage sample of sensor `i`, in mV. -/
def State.voltSample (s : State) (i mv : Nat) : State :=
  let s := (s.wr mssP (MSS_VS_VAL_MV i) mv).wb mssP (MSS_VS_VAL_VALID i) true
  let s := if mv < s.rd mssP (MSS_VS_MIN_MV i) then s.wr mssP (MSS_VS_MIN_MV i) mv else s
  let was := Store.getD 0 i s.mss.volts
  let now := if mv < s.rd mssP (MSS_VS_LIM_LOW i) then 1 else if s.rd mssP (MSS_VS_LIM_HIGH i) < mv then 2 else 0
  let d := [i, 0] ++ le mv 2
  let s := { s with mss := { s.mss with volts := Store.setD 0 i now s.mss.volts } }
  if was = 0 ∧ now ≠ 0 then s.emit mssP (0x2000 + now) d
  else if was ≠ 0 ∧ now = 0 then s.emit mssP 0x2003 d
  else s

/-- Time in service and its mean temperature (R398). -/
def State.lifeSample (s : State) (hot : Int) : State :=
  let p := max 1 (s.rd mssP MSS_SENSE_PERIOD)
  let ms := s.mss.lifeMs + p
  let sum := s.mss.lifeSum + hot * p
  let s := { s with mss := { s.mss with lifeMs := ms, lifeSum := sum } }
  (s.wr mssP MSS_LIFE_S_S (min (ms / 1000) (2 ^ 32 - 1))).wr mssP MSS_LIFE_TAVG_T (uint 16 (floorDiv sum ms))

/-- R397 SENSOR_SAMPLE: 12 temperatures in 1/16 °C and 16 voltages in mV, PERIOD ms after the last; with RESET_N low or without
power nothing is sampled. While a sag or thermal trip holds the fast domains only the temperatures are read, which end a thermal trip (R397). -/
def execSensorSample (temps volts : List Nat) (s : State) : Host.Outcome State Fault Refusal :=
  let ts := (upTo 12).map fun i => temps.getD i 0 % 2 ^ 16
  let vs := (upTo 16).map fun i => volts.getD i 0 % 2 ^ 16
  done (if s.mss.hold = 1 ∨ s.mss.hold = 5 then s
    else if s.mss.hold = 4 then ts.zipIdx.foldl (fun s x => s.tempShow x.2 x.1) s
    else
      let s := s.lifeSample (hottest ts)
      let s := vs.zipIdx.foldl (fun s x => s.voltSample x.2 x.1) s
      ts.zipIdx.foldl (fun s x => s.tempSample x.2 x.1) s)

/-! ### Log and daybook (R398, R402) -/

/-- R398 LOG_EMIT: an MSS write of MSS_LOG_CODE. -/
def execLogEmit (w : Writer) (code : BitVec 16) (s : State) : Host.Outcome State Fault Refusal :=
  done (match w with
    | .mss => s.emit mssP code.toNat ((upTo 4).flatMap fun k => le (s.rd mssP (MSS_LOG_DATA_DATA k)) 4)
    | _ => s)

/-- R402 DBK_CLEAR: an MSS write empties the daybook; CLEARED is record 0, whatever the filters say. -/
def execDbkClear (w : Writer) (s : State) : Host.Outcome State Fault Refusal :=
  let p := pg .dbk 0
  done (match w with
    | .mss =>
      let data := le (s.rd p DBK_WR_COUNT) 4
      let r : Rec := ⟨s.stamp, 0x1900, 0x0001, Store.getD 0 p s.evSeq, data⟩
      let s := ({ s with dbk := [], sag := { s.sag with mirrored := 0, first := 0 } }.wr p DBK_WR_COUNT 0).wr p DBK_LOST_COUNT 0
      let s := s.emit p 0x0001 data
      if s.rd p DBK_WR_COUNT = 0 then s.dbkAppend r else s
    | _ => s)

end Sys2Proof.Machine
end

