-- ==== Sys2Proof/Machine/Pins.lean ====
section
/-! DEFINITION. Which balls the device drives (R453, R455): every other one is high-impedance. A view of State: each ball follows
from the function that it belongs to. -/

namespace Sys2Proof.Machine

/-- The device's own output balls, and the input-output balls in their driven sense (R453, R454). Lane and PCI Express transmitters hold electrical
idle instead and are not among them. -/
inductive Ball where
  /-- Multiplexed ball Mk (R455). -/
  | mux (k : Fin 256)
  /-- TOUTj. -/
  | tout (j : Fin 8)
  /-- The balls of DRAM channel `n`. -/
  | dram (n : Fin 8)
  /-- The drive balls of touch panel page `p`. -/
  | touch (p : Fin 2)
  /-- KEY_E. -/
  | keyE
  /-- The balls of the NOR. -/
  | nor
  /-- The balls of the NVM, NVM_VCC among them. -/
  | nvm
  /-- PCIE_WAKE_N, open drain: driven low. -/
  | pcieWake
deriving DecidableEq, Repr

/-- NET 16 + `i` in service and in RGMII mode. -/
def State.rgmiiOn (s : State) (i : Nat) : Bool := s.enabled (pg .net (16 + i)) && decide (s.netMode (16 + i) = 4)

/-- Ball Mk is driven by the function of its owner (R455): the outputs of an RGMII port whose NET is in service (TXC, TX_CTL, TXD, MDC, MDIO), UART_TX while the MSS runs, a
general-purpose output. -/
def State.muxDriven (s : State) (k : Nat) : Bool :=
  if k < 28 then
    s.rgmiiOn (k / 14) && decide (k % 14 < 6 ∨ 12 ≤ k % 14) && ballAllows k (s.owner k) && !s.ballTaken k
  else if k < 30 then decide (k = 28) && decide (s.mss.hold = 0) && ballAllows k (s.owner k) && !s.ballTaken k
  else s.gpioDriven k

/-- R453: the device drives the ball. It is high-impedance through reset and until its function enables it, and again once that
function is disabled or reset; with hold 3 every pin keeps its state of reset (R32). A DRAM channel's balls are driven from its training on, of which the model has the
end; the NOR's while the MSS runs, which alone reads and writes it; a panel's during a scan frame in which it drives, so not in a calibration frame nor from mirrored samples. -/
def State.ballDriven (s : State) (b : Ball) : Bool :=
  decide (s.mss.hold ≠ 3) && match b with
    | .mux k => s.muxDriven k.val
    | .tout j => s.on tb (TB_TO_CTRL_EN j.val)
    | .dram n => s.enabled (pg .dmc n.val)
    | .touch p => (s.tchSt p.val).scanning && !(s.tchSt p.val).calib && !s.mirrorIn p.val
    | .keyE => s.enabled (pg .tch 2)
    | .nor => decide (s.mss.hold = 0)
    | .nvm => s.sag.nvmVcc
    | .pcieWake => s.pcieWakeLow

end Sys2Proof.Machine
end

