-- ==== Sys2Proof/Machine/Receiver.lean ====
section
/-! DEFINITION. The compatible receiver of the display link (R286, R304 to R308). The model holds 64 receivers, by number; each
shows the head it is configured for. -/

namespace Sys2Proof.Machine

/-- The configuration of receiver `r` that the model begins with. DESIGN CHOICE: head `r`, two inputs of one lane at 10.0 Gb/s; T_LOSS at
its default (R307; log entry 149). -/
def rcvCfg0 (r : Nat) : RcvCfg := ⟨r, [1, 1], [3, 3], 300⟩

/-- Receiver `r` before anything has arrived: it shows its no-signal pattern. -/
def rcv0 (r : Nat) : RcvSt := ⟨rcvCfg0 r, [], [], 0, false, false, 0, false, [], false, [], 0, 0, true, 0, 0⟩

/-- Receiver `r`. -/
def State.rcv (s : State) (r : Nat) : RcvSt := Store.getD (rcv0 r) r s.rcvs

/-- Set it. -/
def State.setRcv (s : State) (r : Nat) (x : RcvSt) : State := { s with rcvs := Store.setD (rcv0 r) r x s.rcvs }

/-- T_LOSS, kept within 300 to 1,000 ms (R307). -/
def RcvSt.tLoss (x : RcvSt) : Nat := ns (min 1000 (max 300 x.cfg.tLoss) * 1000000)

/-- The clock at which the receiver blanks where nothing more arrives (R307). -/
def RcvSt.lossAt (x : RcvSt) : Nat := min x.lastValid x.lastStart + x.tLoss

/-- Lanes of an input. -/
def RcvSt.lanesOf (x : RcvSt) (input : Nat) : Nat := x.cfg.lanes.getD input 0

/-- R286 RECEIVER_ALIGN_ACQUIRE: three clean /I/ on a lane of an input. Only a lane of the configuration, at
the configured rate, aligns (R304). -/
def execReceiverAlignAcquire (r : Fin 64) (input : Fin 2) (lane : LaneRate) (s : State) : Host.Outcome State Fault Refusal :=
  let x := s.rcv r.val
  let k := input.val * 4 + lane.lane.val
  done (if x.aligned.contains k ∨ x.lanesOf input.val ≤ lane.lane.val ∨ x.cfg.rates.getD input.val 0 ≠ lane.rate then s
    else s.setRcv r.val { x with aligned := k :: x.aligned })

/-- R286 RECEIVER_ALIGN_LOSS: four code-group errors within 64 code groups. -/
def execReceiverAlignLoss (h : Fin 64) (input : Fin 2) (lane : Fin 4) (s : State) : Host.Outcome State Fault Refusal :=
  let x := s.rcv h.val
  done (s.setRcv h.val { x with aligned := x.aligned.filter fun a => decide (a ≠ input.val * 4 + lane.val) })

/-! ### Packets (R304, R305) -/

/-- A number in a packet's bytes. -/
def pnum (d : List Nat) (o n : Nat) : Nat := ofLE ((d.drop o).take n)

/-- B of R292 for a frame's geometry. -/
def RcvFrame.lineLen (f : RcvFrame) : Nat := ((if f.d24 then 24 else 30) * f.hAct + 31) / 32 * 4

/-- R304: the bytes from the header to the CRC are a valid packet for head `h`. -/
def RcvSt.valid (x : RcvSt) (h : Nat) (d : List Nat) : Bool :=
  let typ := pnum d 0 1 % 16
  let len := pnum d 0xA 2
  let n := d.length - 4
  let lenOk := if typ = 1 then decide (len = 32) else if typ = 2 then
      (match x.frames with
       | f :: _ => decide (len = f.lineLen)
       | [] => false)
    else if typ = 3 then decide (len = 0) else if typ = 4 then decide (len = 4) else decide (len = 0)
  decide (d.length = 20 + len) && decide (pnum d 0 1 / 16 = 1) && decide (1 ≤ typ) && decide (typ ≤ 5) && lenOk &&
    decide (pnum d 3 1 % 64 = h) &&
    decide (crc32c ([h, 0] ++ (d.drop 8).take 2 ++ (d.drop 4).take 4 ++ d.take n) = pnum d n 4)

/-- Serial number arithmetic: `a` is after `b` (R305). -/
def serialAfter (a b : Nat) : Bool :=
  let d := (a + 2 ^ 32 - b) % 2 ^ 32
  decide (1 ≤ d) && decide (d < 2 ^ 31)

/-- Inputs whose latest claim is at most 250 ms old at `t`. -/
def RcvSt.current (x : RcvSt) (t : Nat) : List (Nat × Nat × Nat) := x.seen.filter fun e => decide (t ≤ e.2.2 + ns 250000000)

/-- The clock at which line `g` of a frame is presented (R306). `d`: the receiver's fixed delay in ns. -/
def RcvFrame.at_ (f : RcvFrame) (d g : Nat) : Nat :=
  f.t0 + ns d + (f.start + g) * f.hTot * 2 ^ 32 * subNs * 10 / (max 1 f.inc * 12)

/-- A valid packet on input `i` at clock `t` (R305, R306, R307). -/
def RcvSt.packet (x : RcvSt) (h i t : Nat) (d : List Nat) : RcvSt :=
  let typ := pnum d 0 1 % 16
  let claim := pnum d 2 1
  let fr := pnum d 4 4
  let grp := pnum d 8 2
  let x : RcvSt := { x with seen := Store.put i (claim, t) x.seen, lastValid := t }
  let c : Nat := (x.current t).foldl (fun (m : Nat) e => max m e.2.1) 0
  let x : RcvSt := if c ≠ x.cur then { x with cur := c, switched := true } else x
  if claim = 0 ∨ claim ≠ c then x
  else
    let x := { x with team := bit (pnum d 1 1) 2 }
    if typ = 5 then x
    else if typ = 1 then
      if x.have_ ∧ fr = x.frame then x
      else if x.have_ ∧ !x.switched ∧ !serialAfter fr x.frame then x
      else
        let f : RcvFrame := ⟨fr, t, pnum d 0x18 4, pnum d 0x1C 2, pnum d 0x1E 2, pnum d 0x20 2, pnum d 0x22 1,
          bit (pnum d 1 1) 3, [], 0⟩
        { x with frame := fr, have_ := true, open_ := true, switched := false, got := [], frames := f :: x.frames.take 3,
                 lastStart := t, blanked := false }
    else if !x.have_ ∨ fr ≠ x.frame then x
    else if typ = 2 then
      if x.open_ ∧ !x.got.contains grp then
        let x := { x with got := grp :: x.got }
        match x.frames with
        | f :: rest =>
          if t ≤ f.at_ (Config.rcvDelay h) grp ∧ grp < f.vAct then
            { x with frames := { f with lines := Store.put grp ((d.drop 16).take (pnum d 0xA 2)) f.lines } :: rest }
          else x
        | [] => x
      else x
    else { x with open_ := false }

/-- The receiver as it stands at clock `t`, past which T_LOSS blanks it (R307); a packet that arrives exactly at T_LOSS still prevents
that. -/
def RcvSt.timed (x : RcvSt) (t : Nat) : RcvSt := if x.lossAt < t then { x with blanked := true } else x

/-- R305 RECEIVER_PACKET: `clean`: no code-group or disparity error from /S/ to /T/, and /T/ at the position LEN gives. Without
alignment all is discarded (R286). -/
def execReceiverPacket (h : Fin 64) (input : Fin 2) (lane : Fin 4) (clean : Bool) (d : List Nat) (s : State) :
    Host.Outcome State Fault Refusal :=
  let i := h.val
  let x := s.rcv i
  done (if !x.aligned.contains (input.val * 4 + lane.val) then s
    else if clean && x.valid x.cfg.head d then s.setRcv i ((x.timed s.time.run).packet i input.val s.time.run d)
    else s.setRcv i { x with invalid := (x.invalid + 1) % 2 ^ 32 })

/-! ### Presentation (R306, R307) -/

/-- The frame whose next line is due first, with the frame before it: an older frame gives way once the next frame's raster has
begun. -/
def duePair (d : Nat) : List RcvFrame → Option (RcvFrame × Option RcvFrame)
  | [] => none
  | f :: rest =>
    let older := match duePair d rest with
      | some (g, p) => if g.next < g.vAct ∧ g.at_ d g.next < f.at_ d 0 then some (g, p) else none
      | none => none
    match older with
    | some r => some r
    | none => if f.next < f.vAct then some (f, rest.head?) else none

/-- R306 RECEIVER_LINE_PRESENT: the next line's presentation time arrives, and it is shown from its own frame, else as the previous
frame had it, else as no-signal. -/
def execReceiverLinePresent (h : Fin 64) (s : State) : Host.Outcome State Fault Refusal :=
  let i := h.val
  let d := Config.rcvDelay i
  done (match duePair d (s.rcv i).frames with
    | none => s
    | some (f, p) =>
      let g := f.next
      let s := s.advanceRun (f.at_ d g)
      let x := (s.rcv i).timed s.time.run
      let step := mapWhere (fun (a : RcvFrame) => decide (a.frame = f.frame) && decide (a.t0 = f.t0))
        (fun (a : RcvFrame) => { a with next := g + 1 }) x.frames
      let x := { x with frames := step }
      let miss := { x with missed := (x.missed + 1) % 2 ^ 32 }
      if x.blanked then (s.setRcv i miss).emitOut (.shown i g 2 [])
      else match Store.find g f.lines with
        | some b => (s.setRcv i x).emitOut (.shown i g 0 b)
        | none => match p.bind fun q => Store.find g q.lines with
          | some b => (s.setRcv i miss).emitOut (.shown i g 1 b)
          | none => (s.setRcv i miss).emitOut (.shown i g 2 []))

/-- R307 RECEIVER_LOSS_TIMEOUT: T_LOSS has passed without a valid packet, or without an accepted FRAME_START. -/
def execReceiverLossTimeout (h : Fin 64) (s : State) : Host.Outcome State Fault Refusal :=
  let i := h.val
  let x := s.rcv i
  done (if x.blanked then s
    else (s.advanceRun x.lossAt).setRcv i { x with blanked := true })

/-- Latest claim on an input, 0xFF when it is older than 250 ms (R308). -/
def RcvSt.claimIn (x : RcvSt) (t i : Nat) : Nat :=
  match (x.current t).find? fun e => decide (e.1 = i) with
  | some e => e.2.1
  | none => 0xFF

/-- Every lane that the receiver's configuration gives an input is aligned, and there is one. -/
def RcvSt.inputAligned (x : RcvSt) (i : Nat) : Bool :=
  decide (0 < x.lanesOf i) && (upTo (x.lanesOf i)).all fun l => x.aligned.contains (i * 4 + l)

/-- R308 RECEIVER_STATUS_SEND. -/
def execReceiverStatusSend (h : Fin 64) (s : State) : Host.Outcome State Fault Refusal :=
  let i := h.val
  let t := s.time.run
  let x := (s.rcv i).timed t
  let now := x.current t
  let tie := decide (2 ≤ (now.filter fun e => decide (e.2.1 = x.cur)).length)
  let flags := b2n x.blanked + 2 * b2n (x.inputAligned 0) + 4 * b2n (x.inputAligned 1) + 8 * b2n tie +
    16 * b2n (x.team && decide (now.length = 1))
  done (s.emitOut (.rcvStatus i ([0x42, 0x4C, 0x4A, 0x53, 1, x.cfg.head, x.cur, flags] ++ le x.frame 4 ++
    [x.claimIn t 0, x.claimIn t 1, 0, 0] ++ le x.invalid 4 ++ le x.missed 4 ++ le (Config.rcvSerial i) 4)))

end Sys2Proof.Machine
end

