-- ==== Sys2Proof/Machine/Test.lean ====
section
/-! DEFINITION. Test unlock, the test multiplexer and the debug port (R478 to R486). -/

namespace Sys2Proof.Machine

/-- The device is unlocked. -/
def State.unlocked (s : State) : Bool := s.on tstP TST_UNLOCK_UNLOCKED

/-- Why an unlock is refused (R478, R486): 0 key, 1 writer, 2 board record. -/
def State.unlockRefusal (s : State) (w : Writer) (key : Nat) : Option Nat :=
  if key ≠ s.rd tstP TST_CHAL_VALUE then some 0
  else if w ≠ .host ∧ w ≠ .mss then some 1
  else if !s.mss.testAllow then some 2
  else none

/-- R478 TEST_UNLOCK: the LFSRs are loaded from TST_SEED (R480). A refused write leaves the device locked. -/
def execTestUnlock (w : Writer) (key : BitVec 16) (s : State) : Host.Outcome State Fault Refusal :=
  done (match s.unlockRefusal w key.toNat with
    | some r => s.emit tstP 0x0801 (le w.fid 2 ++ [r])
    | none =>
      let s := s.wb tstP TST_UNLOCK_UNLOCKED true
      ({ s with lfsr := [] }).emit tstP 0x0001 (le w.fid 2))

/-- TST_MUX `k` gives up its ball, if it holds one (R482). -/
def State.muxDrop (s : State) (k : Nat) : State :=
  if s.on tstP (TST_MUX_EN k) then (s.ballReturn (s.rd tstP (TST_MUX_BALL k))).wb tstP (TST_MUX_EN k) false else s

/-- R479 TEST_RELOCK: every ball returned, a new challenge drawn; PERTURB registers keep their values. A locked device stays as
it is. -/
def execTestRelock (w : Writer) (s : State) : Host.Outcome State Fault Refusal :=
  done (if !s.unlocked then s
    else
      let s := s.wb tstP TST_UNLOCK_UNLOCKED false
      let s := (upTo 4).foldl State.muxDrop s
      s.drawChal.emit tstP 0x0002 (le w.fid 2))

/-- R480 TEST_SEED_WRITE: every LFSR is loaded again. -/
def execTestSeedWrite (_w : Writer) (v : Word) (s : State) : Host.Outcome State Fault Refusal :=
  done ({ s with lfsr := [] }.wr tstP TST_SEED_SEED v.toNat)

/-- A SIGNAL that R483 lists. -/
def signalOk (v : Nat) : Bool :=
  decide (v ≤ 2) || decide (0x100 ≤ v ∧ v < 0x140) || decide (0x200 ≤ v ∧ v < 0x240) || decide (0x300 ≤ v ∧ v < 0x340) ||
    decide (0x400 ≤ v ∧ v < 0x408) || decide (0x500 ≤ v ∧ v < 0x508) || decide (v = 0x600) ||
    decide (0x700 ≤ v ∧ v < 0x708) || decide (v = 0x800)

/-- Why TST_MUX `k` may not take a ball (R482, R486): 0 locked, 1 held by another, 2 reserved signal. -/
def State.muxRefusal (s : State) (k ball signal : Nat) : Option Nat :=
  if !s.unlocked then some 0
  else if (upTo 4).any (fun j => decide (j ≠ k) && s.on tstP (TST_MUX_EN j) && decide (s.rd tstP (TST_MUX_BALL j) = ball))
    then some 1
  else if !signalOk signal then some 2
  else none

/-- R482 MUX_TAKE: a write with EN 1. A ball that TST_MUX `k` held before and is not asked for again is returned first. -/
def execMuxTake (_w : Writer) (k : Fin 4) (ball : BitVec 8) (signal : BitVec 16) (s : State) : Host.Outcome State Fault Refusal :=
  let b := ball.toNat
  done (match s.muxRefusal k.val b signal.toNat with
    | some r => (s.muxDrop k.val).emit tstP 0x1001 [k.val, b, r]
    | none =>
      if s.on tstP (TST_MUX_EN k.val) ∧ s.rd tstP (TST_MUX_BALL k.val) = b then s.wr tstP (TST_MUX_SIGNAL k.val) signal.toNat
      else
        let s := (s.muxDrop k.val).ballTake b
        ((s.wr tstP (TST_MUX_BALL k.val) b).wr tstP (TST_MUX_SIGNAL k.val) signal.toNat).wb tstP (TST_MUX_EN k.val) true)

/-- R482 MUX_RETURN: a write with EN 0. -/
def execMuxReturn (_w : Writer) (k : Fin 4) (ball : BitVec 8) (signal : BitVec 16) (s : State) : Host.Outcome State Fault Refusal :=
  let s := s.muxDrop k.val
  done ((s.wr tstP (TST_MUX_BALL k.val) ball.toNat).wr tstP (TST_MUX_SIGNAL k.val) signal.toNat)

/-! ### The debug port (R484) -/

/-- R484 DEBUG_REQUEST: locked, every request but reads of SYS_ID, TST_CHAL and TST_UNLOCK goes to the default target; unlocked,
the port is master 31, and the emergency requester while TST_DBG.EMERG is 1 (R77). -/
def execDebugRequest (k : AccKind) (addr : BitVec 40) (len : Nat) (data : List Nat) (s : State) : Host.Outcome State Fault Refusal :=
  let a := addr.toNat
  done (if s.unlocked then s.fabricIssue 31 0x1C00 k a len data none (s.on tstP TST_DBG_EMERG)
    else if k = .read ∧ len = 4 ∧ (a = 0 ∨ a = 0xC100 ∨ a = 0xC104) then s.fabricIssue 31 0x1C00 k a len data none false
    else s.fabricIssueAt true 31 0x1C00 k a len data none false)

end Sys2Proof.Machine
end

