-- ==== Sys2Proof/Machine/Registers.lean ====
section
/-! DEFINITION. Writes of registers: the plain fields by their access type, the fields that are frozen while their function runs, the
event rings, EVT_PEND, the MSI-X masks, and the words whose write is another command of the table (R39 to R54, R461, R487). -/

namespace Sys2Proof.Machine

/-! ### Rings (R50 to R54, R352) -/

/-- The fields of a page's event ring, or of its report ring: BASE, SIZE, VECTOR, TARGET, EN. -/
structure RingFlds where
  base : Fld
  size : Fld
  vector : Fld
  target : Fld
  en : Fld

/-- The event ring's fields, or the report ring's. -/
def ringFlds (rpt : Bool) : RingFlds :=
  if rpt then ⟨RPT_RING_BASE, RPT_RING_SIZE, RPT_RING_VECTOR, RPT_RING_TARGET, RPT_RING_EN⟩
  else ⟨EVT_RING_BASE, EVT_RING_SIZE, EVT_RING_VECTOR, EVT_RING_TARGET, EVT_RING_EN⟩

/-- Every page with an event ring, and the pages with a report ring. -/
def ringPages : List (Nat × Bool) :=
  ((blkMap.filter fun e => !e.1.noEvents).flatMap fun e => (upTo e.2.2.2).map fun j => (e.2.1 + 0x1000 * j, false)) ++
    (upTo 3).map fun p => (pg .tch p, true)

/-- The area of a ring: its first byte and its length (R51). -/
def State.ringAt (s : State) (p : Nat) (rpt : Bool) : Nat × Nat :=
  let f := ringFlds rpt
  (4096 * s.rd p f.base, ringArea (s.rd p f.size))

/-- An enabled ring whose area overlaps the one of page `p`: its page. -/
def State.ringOverlap (s : State) (p : Nat) (rpt : Bool) : Option Nat :=
  let a := s.ringAt p rpt
  (ringPages.find? fun x => decide (x ≠ (p, rpt)) && s.on x.1 (ringFlds x.2).en &&
    (let b := s.ringAt x.1 x.2
     decide (a.1 < b.1 + b.2) && decide (b.1 < a.1 + a.2))).map (·.1)

/-- EN changes from 0 to 1 (R53): the header is written, and only then EN reads 1. DESIGN CHOICE: the header's reserved bytes, 0x0C to
0x0F and 0x12 to 0x1F, keep what the loft held (log entry 137). -/
def State.ringStart (s : State) (p : Nat) (rpt : Bool) : State :=
  let base := (s.ringAt p rpt).1
  ((s.loftPut base (List.replicate 12 0)).loftPutLE (base + 0x10) (pageFid p) 2).wb p (ringFlds rpt).en true

/-- A write of a ring's word that sets EN (R51, R487): with EN 0 its fields are taken and judged; with EN 1 only VECTOR and TARGET
are. Before SYS_CAPS is final the enable is refused (R44, R489). DESIGN CHOICE: the record of a fenced loft bank, which has no registry index,
gives index 0xFFFF (log entry 48). -/
def State.ringEnable (s : State) (w : Writer) (p : Nat) (rpt : Bool) (v : Nat) : State :=
  let f := ringFlds rpt
  if s.on p f.en then s.setFields p [f.vector, f.target] v
  else
    let early := decide (s.capsWord = 0)
    let s := s.setFields p [f.base, f.size, f.vector, f.target] v
    let a := s.ringAt p rpt
    if early then s
    else if 9 ≤ s.rd p f.size ∨ 48 * 2 ^ 20 < a.1 + a.2 then s
    else if s.areaFenced a.1 a.2 then s.enableFenced (pageFid p) 0 0xFFFF w.fid
    else match s.ringOverlap p rpt with
      | some q => s.emit 0 0x1001 (le (pageFid p) 2 ++ le (pageFid q) 2)
      | none => s.ringStart p rpt

/-- A write of a ring's word. -/
def State.ringWrite (s : State) (w : Writer) (p : Nat) (rpt : Bool) (v : Nat) : State :=
  let f := ringFlds rpt
  if bit v 31 then s.ringEnable w p rpt v
  else if s.on p f.en then (s.setFields p [f.vector, f.target] v).wb p f.en false
  else s.setFields p [f.base, f.size, f.vector, f.target] v

/-- The page with a ring that a command names: report rings stand in the TCH pages, event rings in every page that raises events. -/
def State.ringPage (s : State) (w : Writer) (a : Nat) (rpt : Bool) : Option Nat :=
  match s.pageFor w a with
  | some (b, i) => if (if rpt then decide (b = .tch) else !b.noEvents) then some (pg b i) else none
  | none => none

/-- R53 RING_ENABLE. -/
def execRingEnable (w : Writer) (page : BitVec 26) (rpt : Bool) (v : Word) (s : State) : Host.Outcome State Fault Refusal :=
  done (match s.ringPage w page.toNat rpt with
    | some p => s.ringEnable w p rpt v.toNat
    | none => s.missed w .write page.toNat)

/-- A write of EVT_PEND (R43, R54): bits written 1 clear in EVT_RAW; EVT_PEND left non-zero sends the interrupt. -/
def State.evtPendWrite (s : State) (p v : Nat) : State :=
  let s := s.wr p HDR_EVT_RAW_RAW (andNot (s.rd p HDR_EVT_RAW_RAW) v)
  if s.evtPend p ≠ 0 then s.raisePage p else s

/-- R54 EVT_PEND_CLEAR. HD and registry pages have no EVT_PEND (R46, R56). -/
def execEvtPendClear (w : Writer) (page : BitVec 26) (v : Word) (s : State) : Host.Outcome State Fault Refusal :=
  done (match s.pageFor w page.toNat with
    | some (b, i) => if b.noEvents then s else s.evtPendWrite (pg b i) v.toNat
    | none => s.missed w .write page.toNat)

/-- A vector is unmasked (R54, R461): a pending message is sent, and its pending bit clears. -/
def State.msixUnmask (s : State) (n : Nat) : State :=
  let s := s.wb 0xD000 (MSIX_CTL_MASK n) false
  let f := MSIP_PEND (n / 32)
  let v := s.rd 0xE000 f
  if bit v (n % 32) then (s.wr 0xE000 f (clrBit v (n % 32))).raiseMsix n else s

/-- R461 MSIX_UNMASK. -/
def execMsixUnmask (_w : Writer) (vec : Fin 256) (s : State) : Host.Outcome State Fault Refusal := done (s.msixUnmask vec.val)

/-! ### Plain fields (R41, R45) -/

/-- A write of one field by its access type (R41). -/
def State.fieldWrite (s : State) (p v : Nat) (f : Fld) : State :=
  let x := fieldOf v f
  match f.acc with
  | .rw => s.wr p f x
  | .rws => s.wr p f x
  | .rwl => s.wr p f x
  | .w1c => s.wr p f (andNot (s.rd p f) x)
  | .w1s => s.wr p f (s.rd p f ||| x)
  | .ro => s
  | .wo => s
  | .rc => s

/-- Either PLL of the quad of lane `l` runs (R313). -/
def State.pllOn (s : State) (l : Nat) : Bool := s.on (quadP l) LN_QSTAT_A_ON || s.on (quadP l) LN_QSTAT_B_ON

/-- A TCH word that may be written only while its page is disabled (R358, R360). -/
def tchHeld (i off : Nat) : Bool :=
  if i = 2 then decide (0x100 ≤ off) && decide (off ≠ 0x114) && decide (off ≠ 0x200)
  else decide (0x104 ≤ off) && decide (off ≠ 0x11C) && !(decide (0x180 ≤ off) && decide (off ≤ 0x200))

/-- A write of the word at `off` by `w` leaves its plain fields as they are: they are frozen while their function runs, or another
command writes the word. PERTURB keeps what is written, and acts only while the device is unlocked (R43, R480). -/
def State.frozen (s : State) (w : Writer) (b : Blk) (i off : Nat) : Bool :=
  let p := pg b i
  if b = .upd ∧ w ≠ .host ∧ w ≠ .mss then true
  else if off = 0x24 then false
  else if off = 0x1C then true
  else match b with
    | .sys => decide (off = 0x134) && decide (w ≠ .mss)
    | .pci => decide (off = 0x110 ∨ off = 0x11C)
    | .hd => decide (off = 0x100) && s.enabled p
    | .bl => decide (0x200 ≤ off ∧ off < 0x400) && s.enabled (hdP ((off - 0x200) / 8))
    | .ln => (decide (off = 0x100) && (s.enabled p || decide ((s.lnRun i).1 ≠ 0))) || (decide (off = 0x300) && s.pllOn i)
    | .yk => (decide (off = 0x100) || decide (off = 0x118) || decide (0x180 ≤ off ∧ off < 0x1A8)) && s.enabled p
    | .cvu => decide (0x100 ≤ off ∧ off ≤ 0x130) && s.enabled p
    | .enc =>
      decide (0x400 ≤ off) && (decide (off % 64 = 0) ||
        (decide (off % 64 ≤ 0x1C) && s.on p (ENC_CH_CTRL_EN ((off - 0x400) / 64))))
    | .tch => decide (off = 0x200) || (s.enabled p && tchHeld i off)
    | _ => false

/-- The plain fields of the word at BAR0 address `a`, with its page or entry, its offset there, and whether they are frozen. -/
def State.plainFields (s : State) (w : Writer) (a : Nat) : Option (Nat × Nat × List Fld × Bool) :=
  match wordAt a, pageOf a with
  | some (p, off, l), some (b, i) => some (p, off, l.filter fun f => !f.own, s.frozen w b i off)
  | some (p, off, l), none => some (p, off, l.filter fun f => !f.own, false)
  | none, _ => none

/-- Write the plain fields, unless they are frozen: RWL ones only while their page is not locked, with a record where a locked value
would change (R45). -/
def State.plainWrite (s : State) (w : Writer) (p off v : Nat) (l : List Fld) (frozen : Bool) : State :=
  let lock := fun (f : Fld) => decide (f.acc = .rwl) && s.on p HDR_CTRL_LOCK
  let held := l.filter lock
  let s' := if frozen then s else (l.filter fun f => !lock f).foldl (fun s f => s.fieldWrite p v f) s
  if s.differs p held v then s'.lockedWrite p off 0xFFFF v w else s'

/-! ### What follows from a plain write -/

/-- Time pin `j` of TB, an input or an output, has been written with EN at `en` after `was` (R169): it needs its registry entry, and SYS_CAPS
final (R489). The entry is in use while the TB page is enabled too (R57). -/
def State.pinEn (s : State) (p : Nat) (f : Fld) (idx : Nat) (was : Bool) : State :=
  let en := s.on p f
  if en && !was then
    if s.capsWord = 0 then s.wb p f false
    else match s.ownCheck 0x0C00 0x0C00 0x0C00 [idx] with
      | some t => t.wb p f false
      | none => s
  else s

/-- TB_TO_CTRL of output `j` has been written; `t` is the state before. Disabled, its schedule and ARM clear and it is tri-stated.
Enabled, or with another POL and no pulse in progress, it drives its inactive level (R169). -/
def State.toutEn (s : State) (j : Nat) (t : State) : State :=
  let was := t.on tb (TB_TO_CTRL_EN j)
  let s := s.pinEn tb (TB_TO_CTRL_EN j) (1048 + j) was
  let turned := s.on tb (TB_TO_CTRL_POL j) != t.on tb (TB_TO_CTRL_POL j)
  if !s.on tb (TB_TO_CTRL_EN j) then
    (if was then ((s.wb tb (TB_TO_CTRL_ARM j) false).setTout j ⟨none, none⟩).toRelease j else s)
  else if !was || (turned && (s.tout j).pulseEnd.isNone) then s.toDrive j false
  else s

/-- What the TB page does when a word of it has been written; `t` is the state before the write. -/
def State.tbAfter (s t : State) (off : Nat) : State :=
  if off = 0x130 then s.holdoverCheck
  else if 0x180 ≤ off ∧ off < 0x200 ∧ off % 16 = 0 then
    let e := (off - 0x180) / 16
    if s.on tb (TB_RXL_VALID e) then s
    else { (s.wb tb (TB_RXL_RUN e) false) with time := { s.time with rxOpen := Store.del e s.time.rxOpen } }
  else if 0x300 ≤ off ∧ off < 0x380 ∧ off % 16 = 0 then
    let i := (off - 0x300) / 16
    s.pinEn tb (TB_TI_CTRL_EN i) (1040 + i) (t.on tb (TB_TI_CTRL_EN i))
  else if 0x400 ≤ off ∧ off < 0x500 ∧ off % 32 = 0 then
    let j := (off - 0x400) / 32
    s.toutEn j t
  else s

/-- Effects of a plain write on the block; `t` is the state before it: EVT_MASK may raise EVT_PEND (R54), SYS_WDOG.EN starts a period
(R451), PCI_OUT_BASE keeps its low bits 0. -/
def State.afterWrite (s t : State) (b : Blk) (i off : Nat) : State :=
  let p := pg b i
  if off = 0x14 then (if t.evtPend p = 0 ∧ s.evtPend p ≠ 0 then s.raisePage p else s)
  else match b with
    | .tb => s.tbAfter t off
    | .sys =>
      if off = 0x134 ∧ !t.on 0 SYS_WDOG_EN ∧ s.on 0 SYS_WDOG_EN then { s with mss := { s.mss with wdog := s.time.run } } else s
    | .ln => if off = 0x100 then s.laneConfigured i else s
    | .pci =>
      if off = 0x108 then s.wr p PCI_OUT_BASE_LO_ADDR (s.rd p PCI_OUT_BASE_LO_ADDR / 4096 * 4096) else s
    | _ => s

/-- The effect of a write on the plain fields of the word at `a`. -/
def State.regWrite (s : State) (w : Writer) (a v : Nat) : State :=
  match s.plainFields w a with
  | none => s
  | some (_, _, [], _) => s
  | some (p, off, l, frozen) =>
    let s' := s.plainWrite w p off v l frozen
    match (if frozen then none else pageOf a) with
    | some (b, i) => s'.afterWrite s b i off
    | none => s'

/-! ### Words whose write is another command -/

/-- The state a meaning answers. -/
def nextOf (s : State) (m : State → Host.Outcome State Fault Refusal) : State :=
  match m s with
  | .next t => t
  | _ => s

/-- A write of PCI_DMA_RING (R463): BASE and SIZE are taken while EN is 0; EN is refused for a reserved SIZE and a fenced bank. -/
def State.dmaRing (s : State) (w : Writer) (v : Nat) : State :=
  let p := pciP
  let s := if s.on p PCI_DMA_RING_EN then s else s.setFields p [PCI_DMA_RING_BASE, PCI_DMA_RING_SIZE] v
  if !bit v 31 then (s.wb p PCI_DMA_RING_EN false).dmaBusy
  else if s.on p PCI_DMA_RING_EN ∨ s.capsWord = 0 then s
  else
    let z := s.rd p PCI_DMA_RING_SIZE
    if 9 ≤ z then s
    else if s.areaFenced (4096 * s.rd p PCI_DMA_RING_BASE) (32 * ringSlots z) then s.enableFenced 0x1D00 0 0xFFFF w.fid
    else (s.wb p PCI_DMA_RING_EN true).dmaBusy

/-- A write of CTRL: SOFT_RESET and the enable it displaces, then LOCK (R43). -/
def State.ctrlWrite (s : State) (w : Writer) (b : Blk) (i v : Nat) : State :=
  let s := if bit v 1 then s.softReset w b i else s.enableWrite w b i (bit v 0)
  if bit v 2 then s.wb (pg b i) HDR_CTRL_LOCK true else s

/-- The command meant by a write of a header word. -/
def State.hdrRow (s : State) (w : Writer) (b : Blk) (i off v : Nat) : State :=
  match off with
  | 0x8 => s.ctrlWrite w b i v
  | 0x18 => if b.noEvents then s else s.evtPendWrite (pg b i) v
  | 0x1C => if b.noEvents then s else s.ringWrite w (pg b i) false v
  | _ => s

/-- Commands of the SYS and registry pages. -/
def State.sysRow (s : State) (w : Writer) (off v : Nat) : State :=
  let word := BitVec.ofNat 32 v
  if off = 0x120 then nextOf s (execNodeWrite w word)
  else if off = 0x130 then (if bit v 0 then nextOf s (execSysResetGo w) else s)
  else if off = 0x134 then (if bit v 16 then nextOf s (execWatchdogKick w) else s)
  else if 0x200 ≤ off ∧ off < 0x220 then nextOf s (execGpioWrite w false (Fin.ofNat 8 ((off - 0x200) / 4)) word)
  else if 0x220 ≤ off ∧ off < 0x240 then nextOf s (execGpioWrite w true (Fin.ofNat 8 ((off - 0x220) / 4)) word)
  else s

/-- A write of a registry entry: OWNER is judged, and LOCK set unless the write was refused, which leaves the entry unchanged
(R57, R58). -/
def State.ownRow (s : State) (w : Writer) (i off v : Nat) : State :=
  if off < 0x100 then s
  else
    let idx := Fin.ofNat 2048 ((i - 1) * 1024 + (off - 0x100) / 4)
    let t := if s.ownReach w then s.ownWrite w.fid idx.val (v % 2 ^ 16) v else s
    if s.ownReach w && bit v 31 && !s.entFenced idx.val && !s.entLocked idx.val && s.ownTakes idx.val (v % 2 ^ 16) then
      nextOf t (execOwnEntryLock w idx)
    else t

/-- Commands of the PWR, MSS, DBK and FAR pages. -/
def State.mgmtRow (s : State) (w : Writer) (b : Blk) (off v : Nat) : State :=
  match b with
  | .pwr =>
    if off ≠ 0x100 then s
    else
      let s := if bit v 0 then nextOf s (execStableRequest w) else s
      if bit v 1 then nextOf s (execWakeRequest w) else s
  | .mss => if off = 0x120 then nextOf s (execLogEmit w (BitVec.ofNat 16 v)) else s
  | .dbk => if off = 0x130 ∧ bit v 0 then nextOf s (execDbkClear w) else s
  | .far =>
    if off = 0x100 then (if bit v 0 then nextOf s (execFarrierRunRequest w) else s)
    else if 0x400 ≤ off ∧ off < 0x700 then
      nextOf s (execFarrierValueWrite w (Fin.ofNat 192 ((off - 0x400) / 4)) (BitVec.ofNat 32 v))
    else s
  | _ => s

/-- A request of the update protocol over PCI Express. -/
def pciReq (w : Writer) (len : Nat) : UpdReq := ⟨1, w, len, 0, false, 0, 0, 0, []⟩

/-- Commands of the UPD page. Whether the NOR takes ACTIVATE's marker is a free value here. -/
def State.updRow (s : State) (w : Writer) (off v : Nat) : State :=
  let r := pciReq w 0
  if off = 0x100 then
    let s := if bit v 0 then nextOf s (execUpdateOpen r) else s
    let s := if bit v 1 then nextOf s (execUpdateClose r) else s
    let s := if bit v 2 then
        let x := s.draw
        nextOf x.2 (execUpdateActivate r (bit x.1 0))
      else s
    let s := if bit v 3 then nextOf s (execUpdateAbort r) else s
    let s := if bit v 4 then nextOf s (execUpdateRecover w) else s
    if bit v 5 then nextOf s (execUpdateHandover w) else s
  else if off = 0x110 then nextOf s (execUpdateBlock (pciReq w (bits v 0 11)))
  else if off = 0x128 ∧ bit v 0 then nextOf s (execHandoverReady w)
  else s

/-- TB_STEP_LO is kept for the step that STEP_HI asks for (R156, R158). -/
def State.stepLoWrite (s : State) (w : Writer) (v : Nat) : State :=
  if s.tbWriterOk w then { s with time := { s.time with stepLo := v } } else s.wrongWriter w 0x110

/-- Commands of the TB page. -/
def State.tbRow (s : State) (w : Writer) (off v : Nat) : State :=
  let word := BitVec.ofNat 32 v
  let key := BitVec.ofNat 16 (v / 2 ^ 16)
  match off with
  | 0x10C => nextOf s (execTbRateWrite w word)
  | 0x110 => s.stepLoWrite w v
  | 0x114 => nextOf s (execTimeStepRequest w word)
  | 0x124 =>
    if bit v 0 then nextOf s (execStepAccept w key) else if bit v 1 then nextOf s (execStepDiscard w key)
    else if w = .host ∨ w = .mss then s else s.wrongWriter w 0x124
  | 0x134 => nextOf s (execServoStateWrite w (BitVec.ofNat 3 v))
  | _ =>
    if 0x400 ≤ off ∧ off < 0x500 ∧ off % 32 = 0 ∧ bit v 3 then nextOf s (execTimeOutputArm w (Fin.ofNat 8 ((off - 0x400) / 32)))
    else s

/-- Commands of the PCI and TST pages. -/
def State.testRow (s : State) (w : Writer) (b : Blk) (off v : Nat) : State :=
  match b with
  | .pci =>
    if off = 0x110 then s.dmaRing w v
    else if off = 0x114 then nextOf s (execDmaTailWrite w (BitVec.ofNat 16 v))
    else if off = 0x11C ∧ bit v 1 then nextOf s (execDmaResume w)
    else s
  | .tst =>
    if off = 0x104 then
      if bit v 16 then nextOf s (execTestRelock w) else nextOf s (execTestUnlock w (BitVec.ofNat 16 v))
    else if off = 0x108 then nextOf s (execTestSeedWrite w (BitVec.ofNat 32 v))
    else if 0x140 ≤ off ∧ off < 0x150 then
      let k := Fin.ofNat 4 ((off - 0x140) / 4)
      if bit v 31 then nextOf s (execMuxTake w k (BitVec.ofNat 8 v) (BitVec.ofNat 16 (v / 256)))
      else nextOf s (execMuxReturn w k (BitVec.ofNat 8 v) (BitVec.ofNat 16 (v / 256)))
    else s
  | _ => s

/-- Commands of the guards and the hitches. One write of GRD_RG_CTRL counts once in GEN (R83). -/
def State.lockRow (s : State) (w : Writer) (b : Blk) (i off v : Nat) : State :=
  match b with
  | .grd =>
    let p := pg .grd i
    let k := (off - 0x200) / 32
    let t := s.guardRuleWrite w i off v
    if 0x200 ≤ off ∧ off < 0xA00 ∧ off % 32 = 0 ∧ bit v 31 then
      if s.regionLocked p k then nextOf t (execGuardRegionLock w (Fin.ofNat 12 i) (Fin.ofNat 64 k))
      else t.wb p (GRD_RG_CTRL_LOCK k) true
    else t
  | .hit =>
    if 0x100 ≤ off ∧ off < 0x500 then s.hitRelease w ((off - 0x100) / 4) (bit v 0)
    else if 0x900 ≤ off ∧ off < 0x928 then
      let o := (off - 0x900) / 4
      if bits v 8 20 = 0 then s.hitWaitZero w o (bits v 0 8) else s.hitWait w o (bits v 0 8) (bits v 8 20)
    else s
  | _ => s

/-- Commands of a DMC page. -/
def State.dmcRow (s : State) (w : Writer) (i off v : Nat) : State :=
  let n := Fin.ofNat 8 i
  let word := BitVec.ofNat 32 v
  if off = 0x114 then (if bit v 0 then nextOf s (execSrEntryRequest w n) else nextOf s (execSrExitRequest n (some w)))
  else if off = 0x118 then (if bit v 8 then nextOf s (execRetrainNow w n) else s)
  else if off = 0x180 then (if bit v 9 then nextOf s (execQosSlotSwapRequest w n) else s)
  else if 0x280 ≤ off ∧ off < 0x300 then nextOf s (execDmcTokWrite w n (Fin.ofNat 32 ((off - 0x280) / 4)) word)
  else if 0x400 ≤ off ∧ off < 0x500 then nextOf s (execQosSlotWrite w n false (Fin.ofNat 64 ((off - 0x400) / 4)) word)
  else if 0x500 ≤ off ∧ off < 0x600 then nextOf s (execQosSlotWrite w n true (Fin.ofNat 64 ((off - 0x500) / 4)) word)
  else s

/-- Commands of the LOFT and BAY pages. -/
def State.yardRow (s : State) (w : Writer) (b : Blk) (off v : Nat) : State :=
  let bay := Fin.ofNat 8192 (bits v 0 13)
  let gen := BitVec.ofNat 16 (v / 2 ^ 16)
  match b with
  | .loft =>
    if 0x140 ≤ off ∧ off < 0x180 then nextOf s (execLoftPartWrite w (Fin.ofNat 16 ((off - 0x140) / 4)) (BitVec.ofNat 32 v)) else s
  | .bay =>
    if off = 0x1C0 then (if bit v 13 then nextOf s (execBayForceFree w bay gen) else nextOf s (execBayFree w bay gen))
    else if off = 0x1C4 then nextOf s (execBayEnlist w bay (bit v 13))
    else if 0x200 ≤ off ∧ off < 0x240 then
      let a := Fin.ofNat 16 ((off - 0x200) / 4)
      if bit v 15 then nextOf s (execApertureOpen w a bay gen)
      else ((nextOf s (execApertureClose w a)).wr (pg .bay 0) (BAY_APT_BAY a.val) bay.val).wr (pg .bay 0) (BAY_APT_GEN a.val) gen.toNat
    else s
  | _ => s

/-- Commands of the DEC, ENC and CMP pages. -/
def State.codecRow (s : State) (w : Writer) (b : Blk) (i off v : Nat) : State :=
  let word := BitVec.ofNat 32 v
  match b with
  | .dec =>
    let n := Fin.ofNat 8 i
    if off = 0x100 then (if bit v 1 then nextOf s (execDecSlotSwapRequest w n) else s)
    else if off = 0x11C then (if bit v 31 then nextOf s (execDecFlush w n (Fin.ofNat 512 (bits v 0 9))) else s)
    else if 0x200 ≤ off ∧ off < 0x300 then nextOf s (execDecSlotWrite w n false (Fin.ofNat 64 ((off - 0x200) / 4)) word)
    else if 0x300 ≤ off ∧ off < 0x400 then nextOf s (execDecSlotWrite w n true (Fin.ofNat 64 ((off - 0x300) / 4)) word)
    else s
  | .enc =>
    if 0x400 ≤ off ∧ off < 0xC00 ∧ off % 64 = 0 then
      nextOf s (execEncChannelEnable w (Fin.ofNat 2 i) (Fin.ofNat 32 ((off - 0x400) / 64)) word)
    else s
  | .cmp =>
    if 0x400 ≤ off ∧ off < 0xC00 ∧ off % 32 = 0 ∧ bit v 1 then
      nextOf s (execCanvasCommit w (Fin.ofNat 2 i) (Fin.ofNat 64 ((off - 0x400) / 32)))
    else s
  | _ => s

/-- Commands of the HD, GATE, BL, LN, CVU, TCH and YK pages. -/
def State.linkRow (s : State) (w : Writer) (b : Blk) (i off v : Nat) : State :=
  let word := BitVec.ofNat 32 v
  match b with
  | .hd => if off = 0x124 ∧ bit v 0 then nextOf s (execHeadCommit w (Fin.ofNat 64 i)) else s
  | .gate =>
    if off = 0x120 ∨ off = 0x124 then nextOf s (execCrcHoldClear w (Fin.ofNat 4 i) (decide (off = 0x124)) word) else s
  | .bl =>
    if off = 0x108 then (if bit v 1 then nextOf s (execBlSchedSwapRequest w (Fin.ofNat 4 i)) else s)
    else if 0x400 ≤ off ∧ off < 0x800 then
      nextOf s (execBlSchedWrite w (Fin.ofNat 4 i) (decide (0x600 ≤ off)) (Fin.ofNat 64 (off / 8)) (decide (off % 8 = 4)) word)
    else s
  | .ln => if off = 0x108 ∧ bit v 9 then nextOf s (execInjectOne w (Fin.ofNat 64 i)) else s
  | .cvu =>
    let u := Fin.ofNat 24 i
    if off = 0x140 then nextOf s (execCvuDataWrite w u word)
    else if off = 0x144 then nextOf s (execCvuDataBWrite w u (BitVec.ofNat 8 v))
    else if off = 0x148 ∧ bit v 0 then nextOf s (execCvuEnd w u)
    else s
  | .tch => if off = 0x200 then s.ringWrite w (pg .tch i) true v else s
  | .yk =>
    if off = 0x108 then nextOf s (execYkLower w (BitVec.ofNat 8 v))
    else if off = 0x10C then nextOf s (execYkSet w (BitVec.ofNat 8 v))
    else s
  | _ => s

/-- The command that a write of a page's word means beside its plain fields. -/
def State.pageRow (s : State) (w : Writer) (b : Blk) (i off v : Nat) : State :=
  if b = .upd ∧ off ≠ 0x128 ∧ w ≠ .host ∧ w ≠ .mss then s
  else if off < 0x28 then s.hdrRow w b i off v
  else match b with
    | .sys => s.sysRow w off v
    | .own => s.ownRow w i off v
    | .pwr => s.mgmtRow w b off v
    | .mss => s.mgmtRow w b off v
    | .dbk => s.mgmtRow w b off v
    | .far => s.mgmtRow w b off v
    | .upd => s.updRow w off v
    | .tb => s.tbRow w off v
    | .pci => s.testRow w b off v
    | .tst => s.testRow w b off v
    | .grd => s.lockRow w b i off v
    | .hit => s.lockRow w b i off v
    | .dmc => s.dmcRow w i off v
    | .loft => s.yardRow w b off v
    | .bay => s.yardRow w b off v
    | .dec => s.codecRow w b i off v
    | .enc => s.codecRow w b i off v
    | .cmp => s.codecRow w b i off v
    | _ => s.linkRow w b i off v

/-- The command that a write of a window's word means beside its plain fields. -/
def State.winRow (s : State) (w : Writer) (a v : Nat) : State :=
  match winOf a with
  | some (.msixTable, e) =>
    if a - e = 0xC then
      let n := (e - 0xD000) / 16
      if bit v 0 then s.wb 0xD000 (MSIX_CTL_MASK n) true else s.msixUnmask n
    else s
  | some (.feedTable, e) =>
    let f := (e - feedE 0) / 128
    let s := s.feedDescWrite w f (a - e) v
    if a - e ≠ 0 then s else if bit v 0 then s.feedEnable w f else s.feedDisable f
  | some (.bayTable, e) => s.bayDescWrite w ((e - bayE 0) / 64) (a - e) v
  | some (.stallTable, e) => s.stallWrite ((e - stallE 0) / 64) (a - e) v
  | _ => s

/-- A write of the 32-bit register word at BAR0 address `a`, which is decoded (R39, R41). -/
def State.busWrite (s : State) (w : Writer) (a v : Nat) : State :=
  let s := s.regWrite w a v
  match pageOf a with
  | some (b, i) => s.pageRow w b i (a - pg b i) v
  | none => s.winRow w a v

/-- R41 REGISTER_WRITE. Addresses name whole words: any other has no effect and returns an error response (R39). -/
def execRegisterWrite (w : Writer) (addr : BitVec 26) (v : Word) (s : State) : Host.Outcome State Fault Refusal :=
  let a := addr.toNat
  done (if !s.regDecoded w.master a then s.missedWrite w a v.toNat
    else if a % 4 ≠ 0 then s.errorResponse w.master .write 1
    else s.busWrite w a v.toNat)

/-- A read command at an address, with the effect `f` of a read that R39 accepts; else it returns 0 and an error response. -/
def State.readAt (s : State) (w : Writer) (a : Nat) (f : State → State) : State :=
  if !s.regDecoded w.master a then (s.missed w .read a).ret 0
  else if a % 4 ≠ 0 then (s.errorResponse w.master .read 1).ret 0
  else if hitHidden w a then s.ret 0
  else f s

/-- R42 RC_COUNTER_READ. -/
def execRcCounterRead (w : Writer) (addr : BitVec 26) (s : State) : Host.Outcome State Fault Refusal :=
  done (s.readAt w addr.toNat fun s => s.rcRead addr.toNat)

/-- R173 LATCHING_READ. -/
def execLatchingRead (w : Writer) (addr : BitVec 26) (s : State) : Host.Outcome State Fault Refusal :=
  done (s.readAt w addr.toNat fun s => s.latchRead addr.toNat)

/-! ### Reads, and accesses over the fabric -/

/-- A read of the 32-bit register word at BAR0 address `a`, which is decoded, with the effects of the read. The value is in
`rdata`. A general-purpose input that the block does not drive reads a free value (R456). -/
def State.busRead (s : State) (w : Writer) (a : Nat) : State :=
  match pageOf a with
  | none => s.ret (s.peekWord a)
  | some (b, i) =>
    let off := a - pg b i
    if hitHidden w a then s.ret 0
    else if b = .hit ∧ 0x100 ≤ off ∧ off < 0x500 then s.hitTake w ((off - 0x100) / 4)
    else if b = .hit ∧ 0x900 ≤ off ∧ off < 0x928 then nextOf s (execHitWaitRead w (Fin.ofNat 10 ((off - 0x900) / 4)))
    else if b = .bay ∧ 0x180 ≤ off ∧ off < 0x1C0 then nextOf s (execBayAlloc w (Fin.ofNat 16 ((off - 0x180) / 4)))
    else if b = .upd ∧ off = 0x12C then s.copySeen.rcRead a
    else if b = .tb ∧ off = 0x208 then nextOf s (execTxqPop w)
    else if b = .cvu ∧ off = 0x154 then nextOf s (execCvuResultPop w (Fin.ofNat 24 i))
    else if b = .sys ∧ 0x240 ≤ off ∧ off < 0x260 then
      let x := s.draw
      let k := (off - 0x240) / 4
      x.2.ret ((upTo 32).foldl (fun t j =>
        t + 2 ^ j * (if s.gpioDriven (32 * k + j) then b2n (bit (s.rd 0 (SYS_GPIO_OUT_OUT k)) j) else b2n (bit x.1 j))) 0)
    else if (s.latchOf a).isSome then s.latchRead a
    else s.rcRead a

/-- A part at register space has a width and alignment that R39 accepts. DESIGN CHOICE: the MSI-X table and pending-bit pages, which are
neither block pages nor table windows by name, accept aligned 64-bit accesses as the table windows do (log entry 153). -/
def regShape (x : Part) : Bool :=
  decide (x.addr % 4 = 0) && (decide (x.len = 4) ||
    (decide (x.len = 8) && decide (x.addr % 8 = 0) && (winOf x.addr).isSome) ||
    (decide (x.master = 0 ∧ x.kind = .write) && decide (0 < x.len) && decide (x.len % 4 = 0)))

/-- Read `n` words from `a` upwards: their bytes. -/
def State.busReads (s : State) (w : Writer) (a : Nat) : Nat → List Nat × State
  | 0 => ([], s)
  | n + 1 =>
    let s := s.busRead w a
    let b := le s.rdata 4
    let r := s.busReads w (a + 4) n
    (b ++ r.1, r.2)

/-- Write `n` words from `a` upwards. -/
def State.busWrites (s : State) (w : Writer) (a : Nat) (d : List Nat) : Nat → State
  | 0 => s
  | n + 1 => (s.busWrite w a (ofLE (d.take 4))).busWrites w (a + 4) (d.drop 4) n

/-- Perform a part at register space (R39): response code, data, state. -/
def State.regPerform (s : State) (x : Part) : Nat × List Nat × State :=
  match (if regShape x then writerOf x.master else none) with
  | none => (1, [], s)
  | some w =>
    let n := x.len / 4
    match x.kind with
    | .write => (0, [], s.busWrites w x.addr (padTo x.len x.data) n)
    | .atomic =>
      let r := s.busReads w x.addr n
      (0, r.1, r.2.busWrites w x.addr (padTo x.len x.data) n)
    | _ =>
      let r := s.busReads w x.addr n
      (0, r.1, r.2)

/-- Serve a queued part of register space, host memory, MSS SRAM or the default target. -/
def State.servePart (s : State) (x : Part) : State :=
  if x.target = 12 then
    let s := { s with fab := { s.fab with queued := dropPart s.fab.queued x } }
    let r := s.perRuns (fun s y => let q := s.regPerform y; (q.1, 0, q.2.1, q.2.2)) x
    r.2.2.2.answer x r.1 0 r.2.2.1
  else s.serveOuter x

/-- The parts of a queue that come up to the last one of a tag. -/
def upToTag (tag : Nat) (l : List Part) : List Part := (l.reverse.dropWhile fun x => decide (x.tag ≠ tag)).reverse

/-- R71 FABRIC_RESPONSE: the parts of the request that wait in the queues of register space, host memory, MSS SRAM and the default target
are performed, after those ahead of them in their queue, the emergency part first (R69, R77); with every part answered, the response
goes to the master and the tag is free. -/
def execFabricResponse (tag : Fin 1024) (s : State) : Host.Outcome State Fault Refusal :=
  let l := [12, 13, 14, 15].flatMap fun t => upToTag tag.val (atTarget s.fab.queued t)
  done ((l.foldl State.servePart s).respond tag.val)

end Sys2Proof.Machine
end

