-- ==== Sys2Proof/Machine/Dispatch.lean ====
section
/-! DEFINITION. One arm per command: the meaning it calls, or the row's refusal by name. -/

namespace Sys2Proof.Machine

def exec (i : Instr) (s : State) : Host.Outcome State Fault Refusal :=
  match i with
  | .registerWrite w addr v => Sys2Proof.Machine.execRegisterWrite w addr v s
  | .rcCounterRead w addr => Sys2Proof.Machine.execRcCounterRead w addr s
  | .latchingRead w addr => Sys2Proof.Machine.execLatchingRead w addr s
  | .enableWrite w page v => Sys2Proof.Machine.execEnableWrite w page v s
  | .softReset w page en => Sys2Proof.Machine.execSoftReset w page en s
  | .pageLock w page => Sys2Proof.Machine.execPageLock w page s
  | .evtPendClear w page v => Sys2Proof.Machine.execEvtPendClear w page v s
  | .ringEnable w page rpt v => Sys2Proof.Machine.execRingEnable w page rpt v s
  | .msixUnmask w vec => Sys2Proof.Machine.execMsixUnmask w vec s
  | .ownerWrite w idx v => Sys2Proof.Machine.execOwnerWrite w idx v s
  | .ownEntryLock w idx => Sys2Proof.Machine.execOwnEntryLock w idx s
  | .selfTestDone t => Sys2Proof.Machine.execSelfTestDone t s
  | .nodeWrite w v => Sys2Proof.Machine.execNodeWrite w v s
  | .fabricRequest m fid k addr len data tag => Sys2Proof.Machine.execFabricRequest m fid k addr len data tag s
  | .slotGrant t => Sys2Proof.Machine.execSlotGrant t s
  | .fabricResponse tag => Sys2Proof.Machine.execFabricResponse tag s
  | .guardRuleWrite w g off v => Sys2Proof.Machine.execGuardRuleWrite w g off v s
  | .guardDrained g => Sys2Proof.Machine.execGuardDrained g s
  | .guardRegionLock w g k => Sys2Proof.Machine.execGuardRegionLock w g k s
  | .hitTake w n => Sys2Proof.Machine.execHitTake w n s
  | .hitRelease w n rel => Sys2Proof.Machine.execHitRelease w n rel s
  | .hitWait w slot n tmo => Sys2Proof.Machine.execHitWait w slot n tmo s
  | .hitWaitCancel w slot => Sys2Proof.Machine.execHitWaitCancel w slot s
  | .hitWaitTimeout slot => Sys2Proof.Machine.execHitWaitTimeout slot s
  | .hitWaitRead w slot => Sys2Proof.Machine.execHitWaitRead w slot s
  | .ownerEpochIncrement slot => Sys2Proof.Machine.execOwnerEpochIncrement slot s
  | .dmcTokenTake n => Sys2Proof.Machine.execDmcTokenTake n s
  | .dmcCommandIssue n => Sys2Proof.Machine.execDmcCommandIssue n s
  | .dmcTokWrite w n m v => Sys2Proof.Machine.execDmcTokWrite w n m v s
  | .refreshInterval n => Sys2Proof.Machine.execRefreshInterval n s
  | .refreshIssue n rank sub => Sys2Proof.Machine.execRefreshIssue n rank sub s
  | .mr4Poll n hot => Sys2Proof.Machine.execMr4Poll n hot s
  | .dramInitDone n => Sys2Proof.Machine.execDramInitDone n s
  | .srEntryRequest w n => Sys2Proof.Machine.execSrEntryRequest w n s
  | .srEntry n => Sys2Proof.Machine.execSrEntry n s
  | .srExitRequest n cause => Sys2Proof.Machine.execSrExitRequest n cause s
  | .srExit n => Sys2Proof.Machine.execSrExit n s
  | .retrainCheck n => Sys2Proof.Machine.execRetrainCheck n s
  | .retrainNow w n => Sys2Proof.Machine.execRetrainNow w n s
  | .retrainStep n ok => Sys2Proof.Machine.execRetrainStep n ok s
  | .scrubRead n => Sys2Proof.Machine.execScrubRead n s
  | .qosSlotWrite w n copyB slot v => Sys2Proof.Machine.execQosSlotWrite w n copyB slot v s
  | .qosSlotSwapRequest w n => Sys2Proof.Machine.execQosSlotSwapRequest w n s
  | .qosSlotBoundary n => Sys2Proof.Machine.execQosSlotBoundary n s
  | .loftServe port => Sys2Proof.Machine.execLoftServe port s
  | .loftScrub word => Sys2Proof.Machine.execLoftScrub word s
  | .loftPartWrite w p v => Sys2Proof.Machine.execLoftPartWrite w p v s
  | .bayDescWrite w b word v => Sys2Proof.Machine.execBayDescWrite w b word v s
  | .bayEnlist w b enlist => Sys2Proof.Machine.execBayEnlist w b enlist s
  | .bayAlloc w cls => Sys2Proof.Machine.execBayAlloc w cls s
  | .bayFree w b gen => Sys2Proof.Machine.execBayFree w b gen s
  | .bayForceFree w b gen => Sys2Proof.Machine.execBayForceFree w b gen s
  | .apertureOpen w a b gen => Sys2Proof.Machine.execApertureOpen w a b gen s
  | .apertureClose w a => Sys2Proof.Machine.execApertureClose w a s
  | .timeStepRequest w hi => Sys2Proof.Machine.execTimeStepRequest w hi s
  | .stepAccept w key => Sys2Proof.Machine.execStepAccept w key s
  | .stepDiscard w key => Sys2Proof.Machine.execStepDiscard w key s
  | .tbRateWrite w v => Sys2Proof.Machine.execTbRateWrite w v s
  | .servoStateWrite w v => Sys2Proof.Machine.execServoStateWrite w v s
  | .holdoverExpire => Sys2Proof.Machine.execHoldoverExpire s
  | .sfdDetect port align => Sys2Proof.Machine.execSfdDetect port align s
  | .entryLatch => Sys2Proof.Machine.execEntryLatch s
  | .latencyCountSaturate e => Sys2Proof.Machine.execLatencyCountSaturate e s
  | .txqPop w => Sys2Proof.Machine.execTxqPop w s
  | .tiCapture pin edge => Sys2Proof.Machine.execTiCapture pin edge s
  | .timeOutputArm w j => Sys2Proof.Machine.execTimeOutputArm w j s
  | .timeOutputEdge j => Sys2Proof.Machine.execTimeOutputEdge j s
  | .timeOutputPulseEnd j => Sys2Proof.Machine.execTimeOutputPulseEnd j s
  | .netFrameReceive port fr ago => Sys2Proof.Machine.execNetFrameReceive port fr ago s
  | .netFrameTransmit port bytes stamp => Sys2Proof.Machine.execNetFrameTransmit port bytes stamp s
  | .unmatchedReply => Sys2Proof.Machine.execUnmatchedReply s
  | .netLinkChange port up fec => Sys2Proof.Machine.execNetLinkChange port up fec s
  | .feedDescWrite w f word v => Sys2Proof.Machine.execFeedDescWrite w f word v s
  | .feedEnable w f v => Sys2Proof.Machine.execFeedEnable w f v s
  | .feedDisable w f v => Sys2Proof.Machine.execFeedDisable w f v s
  | .rtpPacket f => Sys2Proof.Machine.execRtpPacket f s
  | .auTimeout f => Sys2Proof.Machine.execAuTimeout f s
  | .auAdmit f => Sys2Proof.Machine.execAuAdmit f s
  | .senderReport f => Sys2Proof.Machine.execSenderReport f s
  | .receiverReportSend f => Sys2Proof.Machine.execReceiverReportSend f s
  | .membershipReport port f => Sys2Proof.Machine.execMembershipReport port f s
  | .membershipQuery => Sys2Proof.Machine.execMembershipQuery s
  | .feedSilent f => Sys2Proof.Machine.execFeedSilent f s
  | .decPictureStart n switch => Sys2Proof.Machine.execDecPictureStart n switch s
  | .auRecordConsume n => Sys2Proof.Machine.execAuRecordConsume n s
  | .decPictureDone n feed => Sys2Proof.Machine.execDecPictureDone n feed s
  | .candidateExpire f => Sys2Proof.Machine.execCandidateExpire f s
  | .decSlotWrite w n copyB slot v => Sys2Proof.Machine.execDecSlotWrite w n copyB slot v s
  | .decSlotSwapRequest w n => Sys2Proof.Machine.execDecSlotSwapRequest w n s
  | .decFlush w n f => Sys2Proof.Machine.execDecFlush w n f s
  | .stallDescWrite w n word v => Sys2Proof.Machine.execStallDescWrite w n word v s
  | .canvasCommit w e c => Sys2Proof.Machine.execCanvasCommit w e c s
  | .epochCut e c => Sys2Proof.Machine.execEpochCut e c s
  | .epochCommit e c ack led => Sys2Proof.Machine.execEpochCommit e c ack led s
  | .epochWritesDrain e c => Sys2Proof.Machine.execEpochWritesDrain e c s
  | .headCommit w h => Sys2Proof.Machine.execHeadCommit w h s
  | .commitWindowClose h => Sys2Proof.Machine.execCommitWindowClose h s
  | .frameStart h => Sys2Proof.Machine.execFrameStart h s
  | .endOfActive h => Sys2Proof.Machine.execEndOfActive h s
  | .lineDue h => Sys2Proof.Machine.execLineDue h s
  | .scanoutReadComplete h => Sys2Proof.Machine.execScanoutReadComplete h s
  | .headDisable w h => Sys2Proof.Machine.execHeadDisable w h s
  | .crcHoldClear w e hi v => Sys2Proof.Machine.execCrcHoldClear w e hi v s
  | .beljaPacketSend l => Sys2Proof.Machine.execBeljaPacketSend l s
  | .beljaIdleTimer l h => Sys2Proof.Machine.execBeljaIdleTimer l h s
  | .blSchedWrite w e copy l hi v => Sys2Proof.Machine.execBlSchedWrite w e copy l hi v s
  | .blSchedSwapRequest w e => Sys2Proof.Machine.execBlSchedSwapRequest w e s
  | .blLaneWrap l => Sys2Proof.Machine.execBlLaneWrap l s
  | .receiverAlignAcquire h input lane => Sys2Proof.Machine.execReceiverAlignAcquire h input lane s
  | .receiverAlignLoss h input lane => Sys2Proof.Machine.execReceiverAlignLoss h input lane s
  | .receiverPacket h input lane clean d => Sys2Proof.Machine.execReceiverPacket h input lane clean d s
  | .receiverLinePresent h => Sys2Proof.Machine.execReceiverLinePresent h s
  | .receiverLossTimeout h => Sys2Proof.Machine.execReceiverLossTimeout h s
  | .receiverStatusSend h => Sys2Proof.Machine.execReceiverStatusSend h s
  | .pllLocked q k => Sys2Proof.Machine.execPllLocked q k s
  | .pllLost q k => Sys2Proof.Machine.execPllLost q k s
  | .pllRetry q k => Sys2Proof.Machine.execPllRetry q k s
  | .losChange l los => Sys2Proof.Machine.execLosChange l los s
  | .patternCheckLock l rx good more => Sys2Proof.Machine.execPatternCheckLock l rx good more s
  | .injectOne w l => Sys2Proof.Machine.execInjectOne w l s
  | .cvuDataWrite w u v => Sys2Proof.Machine.execCvuDataWrite w u v s
  | .cvuDataBWrite w u v => Sys2Proof.Machine.execCvuDataBWrite w u v s
  | .cvuEnd w u => Sys2Proof.Machine.execCvuEnd w u s
  | .cvuSnoopBlock u k => Sys2Proof.Machine.execCvuSnoopBlock u k s
  | .cvuResultPop w u => Sys2Proof.Machine.execCvuResultPop w u s
  | .encChannelEnable w p k v => Sys2Proof.Machine.execEncChannelEnable w p k v s
  | .tapRecordComplete p k => Sys2Proof.Machine.execTapRecordComplete p k s
  | .encPictureStart p => Sys2Proof.Machine.execEncPictureStart p s
  | .encPictureDone p c => Sys2Proof.Machine.execEncPictureDone p c s
  | .encStreamSend p k port sr => Sys2Proof.Machine.execEncStreamSend p k port sr s
  | .scanFrameStart p => Sys2Proof.Machine.execScanFrameStart p s
  | .scanFrameEnd p m lcur lcand => Sys2Proof.Machine.execScanFrameEnd p m lcur lcand s
  | .keyFrame counts => Sys2Proof.Machine.execKeyFrame counts s
  | .ykLower w v => Sys2Proof.Machine.execYkLower w v s
  | .ykSet w v => Sys2Proof.Machine.execYkSet w v s
  | .yokeTrain aligned => Sys2Proof.Machine.execYokeTrain aligned s
  | .yokeFrameReceive bytes fr => Sys2Proof.Machine.execYokeFrameReceive bytes fr s
  | .yokeAckTimer => Sys2Proof.Machine.execYokeAckTimer s
  | .yokeReplayTimeout v => Sys2Proof.Machine.execYokeReplayTimeout v s
  | .yokeSilenceTimeout => Sys2Proof.Machine.execYokeSilenceTimeout s
  | .yokeRetry => Sys2Proof.Machine.execYokeRetry s
  | .yokeTimeSend => Sys2Proof.Machine.execYokeTimeSend s
  | .yokeJoinStart => Sys2Proof.Machine.execYokeJoinStart s
  | .fwdDrop => Sys2Proof.Machine.execFwdDrop s
  | .mergeEmit => Sys2Proof.Machine.execMergeEmit s
  | .mergeMarkSend => Sys2Proof.Machine.execMergeMarkSend s
  | .checkHoldExpire => Sys2Proof.Machine.execCheckHoldExpire s
  | .samplesLost p => Sys2Proof.Machine.execSamplesLost p s
  | .heartbeat => Sys2Proof.Machine.execHeartbeat s
  | .setClaim m => Sys2Proof.Machine.execSetClaim m s
  | .mssBootStage ok => Sys2Proof.Machine.execMssBootStage ok s
  | .lockstep a b => Sys2Proof.Machine.execLockstep a b s
  | .mssWatchdogExpire => Sys2Proof.Machine.execMssWatchdogExpire s
  | .watchdogKick w => Sys2Proof.Machine.execWatchdogKick w s
  | .sensorSample temps volts => Sys2Proof.Machine.execSensorSample temps volts s
  | .logEmit w code => Sys2Proof.Machine.execLogEmit w code s
  | .dbkClear w => Sys2Proof.Machine.execDbkClear w s
  | .sagDetect rail => Sys2Proof.Machine.execSagDetect rail s
  | .sagTail => Sys2Proof.Machine.execSagTail s
  | .saveDone us resp => Sys2Proof.Machine.execSaveDone us resp s
  | .sagRestart => Sys2Proof.Machine.execSagRestart s
  | .vholdCollapse => Sys2Proof.Machine.execVholdCollapse s
  | .vholdChargeChange mv => Sys2Proof.Machine.execVholdChargeChange mv s
  | .mirrorBatch resp how => Sys2Proof.Machine.execMirrorBatch resp how s
  | .farrierTriggerCheck => Sys2Proof.Machine.execFarrierTriggerCheck s
  | .farrierRunRequest w => Sys2Proof.Machine.execFarrierRunRequest w s
  | .farrierRunEnd a b vrefBad crefBad => Sys2Proof.Machine.execFarrierRunEnd a b vrefBad crefBad s
  | .farrierValueWrite w ix v => Sys2Proof.Machine.execFarrierValueWrite w ix v s
  | .updateOpen r => Sys2Proof.Machine.execUpdateOpen r s
  | .slotEraseDone => Sys2Proof.Machine.execSlotEraseDone s
  | .updateBlock r => Sys2Proof.Machine.execUpdateBlock r s
  | .blockWriteDone => Sys2Proof.Machine.execBlockWriteDone s
  | .updateClose r => Sys2Proof.Machine.execUpdateClose r s
  | .verifyDone norOk => Sys2Proof.Machine.execVerifyDone norOk s
  | .updateAbort r => Sys2Proof.Machine.execUpdateAbort r s
  | .updateActivate r norOk => Sys2Proof.Machine.execUpdateActivate r norOk s
  | .activateGraceExpire => Sys2Proof.Machine.execActivateGraceExpire s
  | .updateStatus r => Sys2Proof.Machine.execUpdateStatus r s
  | .updateRecover w => Sys2Proof.Machine.execUpdateRecover w s
  | .slotCopyDone fail => Sys2Proof.Machine.execSlotCopyDone fail s
  | .updateHandover w => Sys2Proof.Machine.execUpdateHandover w s
  | .handoverInterrupt => Sys2Proof.Machine.execHandoverInterrupt s
  | .handoverReady w => Sys2Proof.Machine.execHandoverReady w s
  | .handoverTimeout => Sys2Proof.Machine.execHandoverTimeout s
  | .stableRequest w => Sys2Proof.Machine.execStableRequest w s
  | .stabled => Sys2Proof.Machine.execStabled s
  | .wakeRequest w => Sys2Proof.Machine.execWakeRequest w s
  | .wakeAlarm => Sys2Proof.Machine.execWakeAlarm s
  | .wakeComplete => Sys2Proof.Machine.execWakeComplete s
  | .droverRelease => Sys2Proof.Machine.execDroverRelease s
  | .powerOnReset => Sys2Proof.Machine.execPowerOnReset s
  | .resetNAssert => Sys2Proof.Machine.execResetNAssert s
  | .resetRelease pfailLow recoveryLow => Sys2Proof.Machine.execResetRelease pfailLow recoveryLow s
  | .sysResetGo w => Sys2Proof.Machine.execSysResetGo w s
  | .pciReset kind => Sys2Proof.Machine.execPciReset kind s
  | .pllFail k => Sys2Proof.Machine.execPllFail k s
  | .refClockChange ix found => Sys2Proof.Machine.execRefClockChange ix found s
  | .pcieLinkChange up speed width => Sys2Proof.Machine.execPcieLinkChange up speed width s
  | .pcieCompletionTimeout tag => Sys2Proof.Machine.execPcieCompletionTimeout tag s
  | .dmaTailWrite w idx => Sys2Proof.Machine.execDmaTailWrite w idx s
  | .dmaDescriptorDone => Sys2Proof.Machine.execDmaDescriptorDone s
  | .dmaResume w => Sys2Proof.Machine.execDmaResume w s
  | .gpioWrite w oe k v => Sys2Proof.Machine.execGpioWrite w oe k v s
  | .testUnlock w key => Sys2Proof.Machine.execTestUnlock w key s
  | .testRelock w => Sys2Proof.Machine.execTestRelock w s
  | .testSeedWrite w v => Sys2Proof.Machine.execTestSeedWrite w v s
  | .muxTake w k ball signal => Sys2Proof.Machine.execMuxTake w k ball signal s
  | .muxReturn w k ball signal => Sys2Proof.Machine.execMuxReturn w k ball signal s
  | .debugRequest k addr len data => Sys2Proof.Machine.execDebugRequest k addr len data s
  | .slewAbsorbed => Sys2Proof.Machine.execSlewAbsorbed s
  | .feedDegradedLapse f => Sys2Proof.Machine.execFeedDegradedLapse f s
  | .vminReached h => Sys2Proof.Machine.execVminReached h s
  | .devicePllLock k => Sys2Proof.Machine.execDevicePllLock k s
  | .codecPllIdleStop => Sys2Proof.Machine.execCodecPllIdleStop s
  | .cdrLockChange l locked => Sys2Proof.Machine.execCdrLockChange l locked s

end Sys2Proof.Machine
end

