-- ==== Sys2Proof/Machine/Tick.lean ====
section
/-! DEFINITION. One tick of the block's clock, taken when no command waits: one core cycle of yard time, or one TCXO cycle
while only the coarse part runs (R153, R172), and the latency counts that run with it (R164). -/

namespace Sys2Proof.Machine

/-- The tick: one core cycle, or one TCXO cycle while the fine part is stopped. -/
def State.tick (s : State) : State := s.clockEdge

end Sys2Proof.Machine
end

