-- ==== Sys2Proof/Safety.lean ====
section
/-! DEFINITION. What counts as a safe step, in the terms the statements use. -/

namespace Sys2Proof.Machine

/-- The step goes on: it neither faults nor refuses. -/
def goesOn (o : Host.Outcome State Fault Refusal) : Prop := ∃ t, o = .next t

/-- The command runs to a next state, and that state satisfies `P`. -/
def completes (c : Instr) (s : State) (P : State → Prop) : Prop := ∃ t, exec c s = .next t ∧ P t

/-- The byte memories of the block and of its board are in canonical form. -/
def State.memWf (s : State) : Bool :=
  Memory.wf s.loft && Memory.wf s.dram && Memory.wf s.sram && Memory.wf s.host && Memory.wf s.nvm && Memory.wfD 0xFF s.nor

/-- The keys that an event of the page at `q` may change: its EVT_RAW (R47), the daybook's counters (R400), and the pending
bits of MSI-X (R461): the 32 bytes at 0xE000, a key being a bit's number. -/
def evKey (q k : Nat) : Prop :=
  k = fkey q HDR_EVT_RAW_RAW ∨ k = fkey (pg .dbk 0) DBK_WR_COUNT ∨ k = fkey (pg .dbk 0) DBK_LOST_COUNT ∨
    k / (32 * 32) = 0xE000 / 32

/-- The loft offset lies in the area of the event ring of the page at `q` (R50, R51). -/
def inRing (s : State) (q a : Nat) : Prop :=
  4096 * s.rd q EVT_RING_BASE ≤ a ∧ a < 4096 * s.rd q EVT_RING_BASE + ringArea (s.rd q EVT_RING_SIZE)

/-- From `s` to `t` nothing changes but register fields whose keys are in `l`. -/
def onlyRegs (l : List Nat) (s t : State) : Prop :=
  t = { s with regs := t.regs } ∧ ∀ k, k ∉ l → Store.find k t.regs = Store.find k s.regs

/-- The keys that sending from the Ethernet ports may change: their NET_TX_FRAMES, and LN_TX_DROP of their lanes (R176, R311). -/
def State.txKeys (s : State) : List Nat :=
  (upTo 18).flatMap fun n => [fkey (pg .net n) NET_TX_FRAMES_COUNT, fkey (pg .ln (s.netLane n)) LN_TX_DROP_COUNT]

/-- From `s` to `t` nothing changes but register fields whose keys are in `l`, and what events of the page at `q` change: the
keys of `evKey`, the page's SEQ, the daybook, its ring in the loft, and the emissions. -/
def onlyRegsEv (l : List Nat) (q : Nat) (s t : State) : Prop :=
  t = { s with regs := t.regs, evSeq := t.evSeq, dbk := t.dbk, loft := t.loft, loftSyn := t.loftSyn, out := t.out } ∧
  (∀ k, k ∉ l → ¬ evKey q k → Store.find k t.regs = Store.find k s.regs) ∧
  (∀ a, ¬ inRing s q a → t.loft.read a = s.loft.read a) ∧
  (∀ p, p ≠ q → Store.find p t.evSeq = Store.find p s.evSeq)

end Sys2Proof.Machine
end

