-- ==== Sys2Proof/Certificates/Slice0/Obligations.lean ====
section
/-! DEFINITION. The statements: what the spec's rules say each command does, for every state and operand, and what every step
keeps. A register field of a statement is named by its page and its field; `completes c s P` says that the command runs to a next
state and that `P` holds of it. -/

open Sys2Proof Sys2Proof.Machine

/-- A step takes the command at the front of the queue and runs it with the queue's rest; with none waiting, one clock passes (this
last is the model's choice, log entry 1). -/
def Obligations.StepRunsTheFrontCommand : Prop :=
  (∀ (c : Instr) (rest : List Instr) (s : State), s.pending = c :: rest → step s = exec c { s with pending := rest }) ∧
  (∀ (c : Instr) (s : State), step { s with pending := c :: s.pending } = exec c s) ∧
  (∀ s : State, s.pending = [] → step s = .next s.tick)

/-- No command stops the block: every command of the table, each constructor of Instr, from every state and with every operand,
completes: exec answers next t for some t. -/
def Obligations.EveryCommandGoesOn : Prop :=
  ∀ (c : Instr) (s : State), goesOn (exec c s) ∧ ∃ t, exec c s = .next t

/-- A command's effect leaves the queue of waiting commands alone. -/
def Obligations.CommandsKeepTheQueue : Prop :=
  ∀ (c : Instr) (s t : State), exec c s = .next t → t.pending = s.pending

/-- R3: after reset every register field reads the reset value of its table, no command waits, no memory lists a byte, no hitch is
held, no request is outstanding and nothing has been emitted; yard time and the running clock stand at 0. -/
def Obligations.ResetState : Prop :=
  (∀ (b : Blk) (i : Nat) (f : Fld), State.reset.rd (pg b i) f = f.rst) ∧
  State.reset.pending = [] ∧ State.reset.memWf = true ∧ State.reset.loft = [] ∧ State.reset.dram = [] ∧
  State.reset.sram = [] ∧ State.reset.hit = ⟨[], []⟩ ∧ State.reset.fab.reqs = [] ∧ State.reset.out = [] ∧
  State.reset.time.yt = 0 ∧ State.reset.time.run = 0

/-- Every step keeps the canonical form of the six byte memories: whatever the state and whatever command is in front, memories that
list rising addresses and no byte that an unlisted address would read as still do so afterwards. -/
def Obligations.StepKeepsMemoriesCanonical : Prop :=
  ∀ s t : State, s.memWf = true → step s = .next t → t.memWf = true

/-- R36, R39, R40, R41, R45, R72: a register write (REGISTER_WRITE). An address that decodes to nothing is recorded by the default
target, which answers DECERR; in a fenced unit's page it may be an attempt to enable as well. An address that is no multiple of
4 answers TGTERR and changes nothing. In the pages whose words no other command writes (clocks, drovers, Ethernet ports,
fabric), each field of the word takes the value that its access type gives, a locked one keeps its value, and nothing else
changes but the record of a locked write. `l`: the plain fields of the word. R42, R173: a read of a decoded register
(RC_COUNTER_READ, LATCHING_READ) answers the word's present value, but for the hitch unit's words read by a requester without a
slot, which read 0 (R88). The RC fields then hold their reset value and nothing else changes; a latching read keeps the high
half of the moment for the read that follows. A read that decodes to nothing is recorded and answers DECERR, to the host as a
Completer Abort, and its data are 0. COMPLETES (exec answers next t, by hypotheses on state and operands alone): registerWrite,
rcCounterRead, latchingRead. -/
def Obligations.RegisterAccess : Prop :=
  (∀ (w : Writer) (addr : BitVec 26) (v : Word) (s : State),
     (s.regDecoded w.master addr.toNat = false →
       exec (.registerWrite w addr v) s = .next (s.fencedWrite w addr.toNat v.toNat)) ∧
     (s.regDecoded w.master addr.toNat = false → pageOf addr.toNat = none →
       exec (.registerWrite w addr v) s = .next (s.missRecord w .write addr.toNat)) ∧
     (s.regDecoded w.master addr.toNat = true → addr.toNat % 4 ≠ 0 →
       exec (.registerWrite w addr v) s = .next (s.errorResponse w.master .write 1)) ∧
     (s.regDecoded w.master addr.toNat = true → addr.toNat % 4 = 0 →
       ∀ b i off l, pageOf addr.toNat = some (b, i) → b ∈ [Blk.clk, .drv, .net, .xb] → 0x28 ≤ off →
         s.plainFields w addr.toNat = some (pg b i, off, l, false) → (∀ f ∈ l, f.off = off ∧ f.lo + f.w ≤ 32) → (l.map Fld.lo).Nodup →
         completes (.registerWrite w addr v) s fun t =>
           onlyRegsEv (l.map (fkey (pg b i))) (pg b i) s t ∧
           ∀ f ∈ l, t.rd (pg b i) f =
             match f.acc with
             | .rw => fieldOf v.toNat f
             | .rws => fieldOf v.toNat f
             | .rwl => if s.on (pg b i) HDR_CTRL_LOCK = true then s.rd (pg b i) f else fieldOf v.toNat f
             | .w1c => andNot (s.rd (pg b i) f) (fieldOf v.toNat f) % 2 ^ f.w
             | .w1s => (s.rd (pg b i) f ||| fieldOf v.toNat f) % 2 ^ f.w
             | _ => s.rd (pg b i) f)) ∧
  ((∀ (w : Writer) (addr : BitVec 26) (s : State), s.regDecoded w.master addr.toNat = false →
     exec (.rcCounterRead w addr) s = .next ((s.missRecord w .read addr.toNat).ret 0) ∧
     exec (.latchingRead w addr) s = .next ((s.missRecord w .read addr.toNat).ret 0) ∧
     (w = .host → completes (.rcCounterRead w addr) s fun t => t.rdata = 0 ∧ .completerAbort ∈ t.out)) ∧
   (∀ (w : Writer) (addr : BitVec 26) (s : State), s.regDecoded w.master addr.toNat = true → addr.toNat % 4 = 0 →
     hitHidden w addr.toNat = true →
     exec (.rcCounterRead w addr) s = .next (s.ret 0) ∧ exec (.latchingRead w addr) s = .next (s.ret 0)) ∧
   ∀ (w : Writer) (addr : BitVec 26) (s : State), s.regDecoded w.master addr.toNat = true → addr.toNat % 4 = 0 →
     hitHidden w addr.toNat = false →
     (∀ p off l, wordAt addr.toNat = some (p, off, l) → completes (.rcCounterRead w addr) s fun t =>
       t.rdata = s.peekWord addr.toNat ∧ (∀ f ∈ l, f.acc = .rc → f.rst < 2 ^ f.w → t.rd p f = f.rst) ∧
       onlyRegs ((l.filter fun f => decide (f.acc = .rc)).map (fkey p)) { s with rdata := s.peekWord addr.toNat } t) ∧
     (∀ p f x, s.latchOf addr.toNat = some (p, f, x) → completes (.latchingRead w addr) s fun t =>
       t = { s with rdata := s.peekWord addr.toNat, cap := t.cap } ∧ t.rdCap p f = x % 2 ^ f.w) ∧
     (s.latchOf addr.toNat = none → exec (.latchingRead w addr) s = .next { s with rdata := s.peekWord addr.toNat }))

/-- R36, R44: CTRL.ENABLE of the blocks whose chapters add no condition. A write that changes nothing, or an enable before SYS_CAPS
is final, leaves the state as it is; an enable of a fenced unit only writes ENABLE_FENCED; else ENABLE reads what was written
and nothing else changes. R43: SOFT_RESET of any page leaves EVT_RAW 0, whatever enable comes with it; LOCK sets the page's LOCK
bit and changes nothing else. COMPLETES (exec answers next t, by hypotheses on state and operands alone): enableWrite,
softReset, pageLock. -/
def Obligations.PageControl : Prop :=
  (∀ (w : Writer) (page : BitVec 26) (v : Bool) (s : State) (b : Blk) (i : Nat),
     s.pageFor w page.toNat = some (b, i) →
     b ∈ [Blk.sys, .pwr, .clk, .mss, .dbk, .far, .upd, .sag, .tb, .pci, .tst, .xb, .loft, .dmc, .bay, .gate, .drv] →
     (s.enabled (pg b i) = v → exec (.enableWrite w page v) s = .next s) ∧
     (s.enabled (pg b i) = true → v = false →
       exec (.enableWrite w page v) s = .next (s.wb (pg b i) HDR_CTRL_ENABLE false)) ∧
     (s.enabled (pg b i) = false → v = true →
       (s.capsWord = 0 → exec (.enableWrite w page v) s = .next s) ∧
       (s.capsWord ≠ 0 → s.blkFenced b i = true →
         exec (.enableWrite w page v) s = .next (s.enableFenced (fidOf b i) (fidOf b i) 0xFFFF w.fid)) ∧
       (s.capsWord ≠ 0 → s.blkFenced b i = false →
         exec (.enableWrite w page v) s = .next (s.wb (pg b i) HDR_CTRL_ENABLE true)))) ∧
  (∀ (w : Writer) (page : BitVec 26) (en : Bool) (s : State) (b : Blk) (i : Nat), s.pageFor w page.toNat = some (b, i) →
     (completes (.softReset w page en) s fun t => t.rd (pg b i) HDR_EVT_RAW_RAW = 0) ∧
     exec (.pageLock w page) s = .next (s.wb (pg b i) HDR_CTRL_LOCK true))

/-- R43, R54: writing EVT_PEND clears the bits written 1 in EVT_RAW, and raises the page's interrupt again while EVT_PEND is not
zero. Unmasking an MSI-X vector sends a pending message and clears its pending bit (R461). R51, R53: a ring that is off, with a
SIZE that exists and an area inside the loft that no fenced bank and no other enabled ring touches, is enabled (RING_ENABLE):
the indexes and the lost count in its header are 0 before EN reads 1, and no byte outside the header reads otherwise. A ring
that is on takes only VECTOR and TARGET; before SYS_CAPS is final the fields are taken and EN is refused (R487, R489); an
unsuitable SIZE or area is stored and the ring stays off, a fenced bank writes ENABLE_FENCED (R36; its index 0xFFFF is log entry
48) and an overlap RING_OVERLAP. COMPLETES (exec answers next t, by hypotheses on state and operands alone): evtPendClear,
msixUnmask, ringEnable. -/
def Obligations.EventsAndRings : Prop :=
  ((∀ (w : Writer) (page : BitVec 26) (v : Word) (s : State) (b : Blk) (i : Nat), s.pageFor w page.toNat = some (b, i) →
     b.noEvents = false → completes (.evtPendClear w page v) s fun t =>
       t.rd (pg b i) HDR_EVT_RAW_RAW = andNot (s.rd (pg b i) HDR_EVT_RAW_RAW) v.toNat % 2 ^ 32 ∧
       (s.rd (pg b i) HDR_EVT_MASK_MASK &&& (andNot (s.rd (pg b i) HDR_EVT_RAW_RAW) v.toNat % 2 ^ 32) = 0 →
         onlyRegs [fkey (pg b i) HDR_EVT_RAW_RAW] s t)) ∧
   (∀ (w : Writer) (vec : Fin 256) (s : State),
     (bit (s.rd 0xE000 (MSIP_PEND (vec.val / 32))) (vec.val % 32) = false →
       exec (.msixUnmask w vec) s = .next (s.wb 0xD000 (MSIX_CTL_MASK vec.val) false)) ∧
     (bit (s.rd 0xE000 (MSIP_PEND (vec.val / 32))) (vec.val % 32) = true → completes (.msixUnmask w vec) s fun t =>
       t.on 0xD000 (MSIX_CTL_MASK vec.val) = false ∧
       bit (t.rd 0xE000 (MSIP_PEND (vec.val / 32))) (vec.val % 32) = false ∧
       t.out = s.out ++ [.msix vec.val (s.rd 0xD000 (MSIX_ALO_ADDR vec.val) * 4 + 2 ^ 32 * s.rd 0xD000 (MSIX_AHI_ADDR vec.val))
         (s.rd 0xD000 (MSIX_DATA_DATA vec.val))]))) ∧
  (∀ (w : Writer) (page : BitVec 26) (rpt : Bool) (v : Word) (s : State) (p : Nat),
     s.ringPage w page.toNat rpt = some p →
     (s.on p (ringFlds rpt).en = true →
       exec (.ringEnable w page rpt v) s = .next (s.setFields p [(ringFlds rpt).vector, (ringFlds rpt).target] v.toNat)) ∧
     (s.on p (ringFlds rpt).en = false →
     let u := s.setFields p [(ringFlds rpt).base, (ringFlds rpt).size, (ringFlds rpt).vector, (ringFlds rpt).target] v.toNat
     (s.capsWord = 0 → exec (.ringEnable w page rpt v) s = .next u) ∧
     (s.capsWord ≠ 0 →
     let a := u.ringAt p rpt
     ((9 ≤ u.rd p (ringFlds rpt).size ∨ 48 * 2 ^ 20 < a.1 + a.2) → exec (.ringEnable w page rpt v) s = .next u) ∧
     (u.rd p (ringFlds rpt).size < 9 → a.1 + a.2 ≤ 48 * 2 ^ 20 → u.areaFenced a.1 a.2 = true →
       exec (.ringEnable w page rpt v) s = .next (u.enableFenced (pageFid p) 0 0xFFFF w.fid)) ∧
     (u.rd p (ringFlds rpt).size < 9 → a.1 + a.2 ≤ 48 * 2 ^ 20 → u.areaFenced a.1 a.2 = false →
       ∀ q, u.ringOverlap p rpt = some q →
         exec (.ringEnable w page rpt v) s = .next (u.emit 0 0x1001 (le (pageFid p) 2 ++ le (pageFid q) 2))) ∧
     (u.rd p (ringFlds rpt).size < 9 → a.1 + a.2 ≤ 48 * 2 ^ 20 → u.areaFenced a.1 a.2 = false → u.ringOverlap p rpt = none →
       completes (.ringEnable w page rpt v) s fun t =>
       t.on p (ringFlds rpt).en = true ∧ t.loftLE a.1 4 = 0 ∧ t.loftLE (a.1 + 4) 4 = 0 ∧ t.loftLE (a.1 + 8) 4 = 0 ∧
       (∀ x, x < a.1 ∨ a.1 + 0x12 ≤ x → t.loftByte x = s.loftByte x)))))

/-- R57, R58, R489: the registry (OWNER_WRITE, OWN_ENTRY_LOCK) answers every writer once SYS_CAPS is final, before that the MSS
alone. OWNER of an entry that exists and is neither fenced nor locked takes a value while the entry is free, or the value it
has, or 0 while the entry is not in use; any other value is refused with an OWN_CONFLICT event. A fenced entry writes
ENABLE_FENCED, a locked one LOCKED_WRITE (R48). LOCK only sets the entry's LOCK. COMPLETES (exec answers next t, by hypotheses
on state and operands alone): ownEntryLock, ownerWrite. -/
def Obligations.OwnerRegistry : Prop :=
  ∀ (w : Writer) (idx : Fin 2048) (v : BitVec 16) (s : State), entExists idx.val = true →
    (s.capsWord = 0 → w ≠ .mss →
      exec (.ownerWrite w idx v) s = .next s ∧ exec (.ownEntryLock w idx) s = .next s) ∧
    ((s.capsWord ≠ 0 ∨ w = .mss) →
    exec (.ownEntryLock w idx) s = .next (s.wb (ownPg idx.val) (OWN_ENT_LOCK (idx.val % 1024)) true) ∧
    (s.entFenced idx.val = true →
      exec (.ownerWrite w idx v) s = .next (s.enableFenced v.toNat (entUnit idx.val) idx.val w.fid)) ∧
    (s.entFenced idx.val = false → s.entLocked idx.val = true →
      exec (.ownerWrite w idx v) s =
        .next (s.emit 0 0xF000 (le (entOff idx.val) 2 ++ [0xFF, 0xFF] ++ le v.toNat 4 ++ le w.fid 2))) ∧
    (s.entFenced idx.val = false → s.entLocked idx.val = false →
      ((s.owner idx.val = 0 ∨ v.toNat = s.owner idx.val ∨
          (v = 0 ∧ s.entInUse idx.val = false)) →
        exec (.ownerWrite w idx v) s = .next (s.wr (ownPg idx.val) (OWN_ENT_OWNER (idx.val % 1024)) v.toNat)) ∧
      (s.owner idx.val ≠ 0 → v.toNat ≠ s.owner idx.val →
        (v ≠ 0 ∨ s.entInUse idx.val = true) →
        exec (.ownerWrite w idx v) s = .next (s.ownConflict v.toNat (s.owner idx.val) idx.val 1))))

/-- R30, R45: NODE_ID and VALID are taken while VALID is 0 and the page is not locked; while VALID is 1 only a write of VALID 0 has
an effect, and it closes the yoke link as a loss of partner: no partner is valid and a team is split; locked, nothing changes
but the record of a locked write. COMPLETES (exec answers next t, by hypotheses on state and operands alone): nodeWrite. -/
def Obligations.NodeIdentity : Prop :=
  ∀ (w : Writer) (v : Word) (s : State),
    (s.on 0 HDR_CTRL_LOCK = true → s.differs 0 [SYS_NODE_NODE_ID, SYS_NODE_VALID] v.toNat = false →
      exec (.nodeWrite w v) s = .next s) ∧
    (s.on 0 HDR_CTRL_LOCK = true → s.differs 0 [SYS_NODE_NODE_ID, SYS_NODE_VALID] v.toNat = true →
      exec (.nodeWrite w v) s = .next (s.lockedWrite 0 0x120 0xFFFF v.toNat w)) ∧
    (s.on 0 HDR_CTRL_LOCK = false → s.on 0 SYS_NODE_VALID = true → fieldOf v.toNat SYS_NODE_VALID = 1 →
      exec (.nodeWrite w v) s = .next s) ∧
    (s.on 0 HDR_CTRL_LOCK = false → s.on 0 SYS_NODE_VALID = true → fieldOf v.toNat SYS_NODE_VALID = 0 →
      completes (.nodeWrite w v) s fun t =>
        t.on 0 SYS_NODE_VALID = false ∧ t.rd 0 SYS_NODE_NODE_ID = s.rd 0 SYS_NODE_NODE_ID ∧ t.yoke.link = false ∧
        (s.yoke.link = true → t.on ykP YK_PARTNER_VALID = false ∧ (s.inTeam = true → t.yoke.state = 6))) ∧
    (s.on 0 HDR_CTRL_LOCK = false → s.on 0 SYS_NODE_VALID = false → completes (.nodeWrite w v) s fun t =>
      t.rd 0 SYS_NODE_NODE_ID = fieldOf v.toNat SYS_NODE_NODE_ID ∧ t.rd 0 SYS_NODE_VALID = fieldOf v.toNat SYS_NODE_VALID ∧
      onlyRegs [fkey 0 SYS_NODE_NODE_ID, fkey 0 SYS_NODE_VALID] s t)

/-- R31, R33, R34, R35: when self-test and training end (SELF_TEST_DONE) with the minimum service set, the fence registers hold what
failed and SYS_CAPS counts what is left. R32: without that set, or with neither LREF input (R444), the device stays in recovery
with SYS_CAPS 0; where the always-on domain or the MSS failed, or TCXO_IN does not toggle, it holds silent: the PCI Express link
is down and no TOUT is enabled. At any other moment the command has no effect. COMPLETES (exec answers next t, by hypotheses on
state and operands alone): selfTestDone. -/
def Obligations.SelfTestSetsCapsAndFences : Prop :=
  (∀ (r : SelfTest) (s : State),
    (s.rd mssP MSS_BOOT_STAGE ≠ 3 ∨ s.mss.hold ≠ 0 ∨ s.capsWord ≠ 0 ∨ s.on mssP MSS_BOOT_RECOVERY = true) →
    exec (.selfTestDone r) s = .next s) ∧
  ∀ (r : SelfTest) (s : State), s.rd mssP MSS_BOOT_STAGE = 3 → s.mss.hold = 0 → s.capsWord = 0 →
    s.on mssP MSS_BOOT_RECOVERY = false →
    ((r.aonFail = true ∨ s.on clkP CLK_STAT_TCXO_OK = false) → completes (.selfTestDone r) s fun t =>
      t.mss = { s.mss with hold := 3 } ∧ t.on pciP PCI_LINK_UP = false ∧ (∀ j, j < 8 → t.on tb (TB_TO_CTRL_EN j) = false) ∧
      t.capsWord = 0) ∧
    (r.aonFail = false → s.on clkP CLK_STAT_TCXO_OK = true →
      (minimumSet r (s.dmcBad r).1 = false ∨ (s.on clkP CLK_STAT_LREF0_OK = false ∧ s.on clkP CLK_STAT_LREF1_OK = false)) →
      completes (.selfTestDone r) s fun t => t.on mssP MSS_BOOT_RECOVERY = true ∧ t.capsWord = 0) ∧
    (r.aonFail = false → s.on clkP CLK_STAT_TCXO_OK = true → minimumSet r (s.dmcBad r).1 = true →
      (s.on clkP CLK_STAT_LREF0_OK = true ∨ s.on clkP CLK_STAT_LREF1_OK = true) →
    completes (.selfTestDone r) s fun t =>
      t.rd 0 SYS_FENCE_A_DEC = r.dec.toNat ∧ t.rd 0 SYS_FENCE_A_CMP = r.cmp.toNat ∧ t.rd 0 SYS_FENCE_A_SO = r.so.toNat ∧
      t.rd 0 SYS_FENCE_B_QUAD = r.quad.toNat ∧ t.rd 0 SYS_FENCE_D_CVU = r.cvu.toNat ∧
      t.rd 0 SYS_CAPS_DEC_N = 8 - popCount 8 r.dec.toNat ∧ t.rd 0 SYS_CAPS_CMP_N = 2 - popCount 2 r.cmp.toNat ∧
      t.rd 0 SYS_CAPS_LOFT_MIB = 48 - popCount 48 r.loft.toNat)

/-- R63, R67, R70, R72, R78: FABRIC_REQUEST. A request of 1 to 16 beats inside 4 KiB (an atomic: 1, 2, 4 or 8 aligned bytes) of a
master that may issue, with a free tag: it is outstanding under that tag. In a locked device, a request of one part waits at the
target its address routes to, or, where it decodes to nothing, at the default target; a port with no request waiting that is
parked on its master may grant it at once. Without a tag, or with another shape, nothing happens. R484, R77, R72: DEBUG_REQUEST.
Unlocked, it is a request of master 31, as any other of the fabric, with the emergency right of TST_DBG.EMERG; locked, so are
the reads of SYS_ID, TST_CHAL and TST_UNLOCK, and every other request reaches the default target alone. Where master 31 may
issue, the request is outstanding under a free tag. COMPLETES (exec answers next t, by hypotheses on state and operands alone):
fabricRequest, debugRequest. -/
def Obligations.FabricRequests : Prop :=
  (∀ (m : Fin 32) (fid : BitVec 16) (k : AccKind) (addr : BitVec 40) (len : Nat) (data : List Nat) (tag : Option Tag) (s : State),
     ((s.mayIssue m.val = false ∨ reqShape k addr.toNat len = false ∨ s.freeTag = none) →
       exec (.fabricRequest m fid k addr len data tag) s = .next s) ∧
     (∀ g, s.mayIssue m.val = true → reqShape k addr.toNat len = true → s.freeTag = some g →
       (completes (.fabricRequest m fid k addr len data tag) s fun t =>
         ∃ r ∈ t.fab.reqs, r.tag = g ∧ r.master = m.val ∧ r.kind = k ∧ r.addr = addr.toNat ∧ r.len = len) ∧
       (∀ j a tg, (k = .atomic ∨ fabricPieces addr.toNat len = [(addr.toNat, len)]) → s.unlocked = false →
         s.route m.val addr.toNat = (j, a, tg) → (s.parkedOn j m.val = false ∨ ∃ y ∈ s.fab.waiting, y.target = j) →
         completes (.fabricRequest m fid k addr len data tag) s fun t =>
           ∃ y, t.fab.waiting = s.fab.waiting ++ [y] ∧ y.tag = g ∧ y.master = m.val ∧ y.target = j ∧ y.addr = a ∧ y.len = len ∧
             y.kind = k ∧ t.fab.queued = s.fab.queued))) ∧
  (∀ (k : AccKind) (addr : BitVec 40) (len : Nat) (data : List Nat) (s : State),
     (∀ g, s.mayIssue 31 = true → reqShape k addr.toNat len = true → s.freeTag = some g →
       completes (.debugRequest k addr len data) s fun t =>
         ∃ r ∈ t.fab.reqs, r.tag = g ∧ r.master = 31 ∧ r.kind = k ∧ r.addr = addr.toNat ∧ r.len = len) ∧
     (s.unlocked = true → s.on tstP TST_DBG_EMERG = false →
       exec (.debugRequest k addr len data) s = exec (.fabricRequest 31 0x1C00 k addr len data none) s) ∧
     (s.unlocked = false → (k = .read ∧ len = 4 ∧ (addr.toNat = 0 ∨ addr.toNat = 0xC100 ∨ addr.toNat = 0xC104)) →
       exec (.debugRequest k addr len data) s = exec (.fabricRequest 31 0x1C00 k addr len data none) s) ∧
     (s.unlocked = false → ¬ (k = .read ∧ len = 4 ∧ (addr.toNat = 0 ∨ addr.toNat = 0xC100 ∨ addr.toNat = 0xC104)) →
       completes (.debugRequest k addr len data) s fun t =>
         (∀ y ∈ t.fab.waiting ++ t.fab.queued, y ∈ s.fab.waiting ++ s.fab.queued ∨ y.target = 15) ∧
         t.sram = s.sram ∧ t.dram = s.dram ∧ t.host = s.host ∧ t.loft = s.loft ∧ t.regs = s.regs))

/-- R68, R74, R77, R80, R82: SLOT_GRANT. The debug port's emergency part goes ahead, while none occupies its reserved slot. Else, in
a locked device, a port that is not held back and has a free slot grants it to the winner. A part that its guard permits takes
the slot, marked with the guard's generation; one that the guard denies reaches no queue, and no longer waits; a part of the
default target has no guard. A port without a free slot, or held back, grants nothing. R67, R71, R73, R109: FABRIC_RESPONSE. A
request whose every part has been answered, none waiting in the queues of register space, host memory, MSS SRAM and the default
target: its response goes to its master with its code and error detail, with data only for a request that reads, and its tag is
free; a code other than OKAY has the master's own consequence (a Completer Abort of a host read, an access fault of a core). A
request with parts unanswered waits on. COMPLETES (exec answers next t, by hypotheses on state and operands alone): slotGrant,
fabricResponse. -/
def Obligations.SlotsAndResponses : Prop :=
  ((∀ (t : Fin 16) (s : State) (x : Part), s.emergPart t.val = some x → exec (.slotGrant t) s = .next (s.grantPart x)) ∧
   (∀ (t : Fin 16) (s : State), s.unlocked = false → s.emergPart t.val = none →
     (s.portBlocked t.val = true ∨ slotsOf t.val ≤ s.slotsUsed t.val) → exec (.slotGrant t) s = .next s) ∧
   ∀ (t : Fin 16) (s : State) (x : Part),
     let here := (s.readyParts t.val).filter fun y => !y.emerg
     s.unlocked = false → s.emergPart t.val = none → s.portBlocked t.val = false →
     s.arbWinner t.val here = some x → s.slotsUsed t.val < slotsOf t.val →
     (guardOf x.target = none → completes (.slotGrant t) s fun u =>
       u.fab.queued = s.fab.queued ++ [x] ∧ u.fab.waiting.length + 1 = s.fab.waiting.length) ∧
     ∀ g, guardOf x.target = some g →
     (s.guardJudge g x.kind x.master x.addr = none → completes (.slotGrant t) s fun u =>
       u.fab.queued = s.fab.queued ++ [{ x with gen := s.rd (pg .grd g) GRD_FENCE_GEN, lost := 0 }] ∧
       u.fab.waiting.length + 1 = s.fab.waiting.length) ∧
     (∀ r f, s.guardJudge g x.kind x.master x.addr = some (r, f) → completes (.slotGrant t) s fun u =>
       u.fab.queued = s.fab.queued ∧ u.fab.waiting.length + 1 = s.fab.waiting.length)) ∧
  (∀ (tag : Fin 1024) (s : State), (∀ x ∈ s.fab.queued, x.tag = tag.val → x.target < 12) →
     (s.fab.reqs.find? (fun q => decide (q.tag = tag.val)) = none → exec (.fabricResponse tag) s = .next s) ∧
     (∀ r, s.fab.reqs.find? (fun q => decide (q.tag = tag.val)) = some r →
       (r.left ≠ 0 → exec (.fabricResponse tag) s = .next s) ∧
       (r.left = 0 →
         let u := ({ s with fab := { s.fab with reqs := s.fab.reqs.filter fun q => decide (q.tag ≠ tag.val) } }).emitOut
           (.response r.master tag.val r.code r.detail (if r.kind = AccKind.write then [] else r.data))
         (r.code = 0 → exec (.fabricResponse tag) s = .next u) ∧
         (r.code ≠ 0 → exec (.fabricResponse tag) s = .next (u.accessFailed r.master r.kind r.code)))))

/-- R83, R84, R86, R87: the rules of a guard. GUARD_RULE_WRITE: a write of DFLT_RD, of DFLT_WR or of a region's word takes the
values and counts one generation; a locked word keeps its values. GUARD_REGION_LOCK freezes a region, and the first lock counts
one generation. GUARD_DRAINED: DRAINED rises, with its event, once no part of an older generation is outstanding. COMPLETES
(exec answers next t, by hypotheses on state and operands alone): guardRuleWrite, guardRegionLock, guardDrained. -/
def Obligations.GuardRules : Prop :=
  ∀ (w : Writer) (g : Fin 12) (s : State),
    (∀ (v : Word), s.on (pg .grd g.val) HDR_CTRL_LOCK = false →
      (completes (.guardRuleWrite w g 0x100 v) s fun t => t.rd (pg .grd g.val) GRD_DFLT_RD_MASK = v.toNat ∧
        t.rd (pg .grd g.val) GRD_FENCE_GEN = (s.rd (pg .grd g.val) GRD_FENCE_GEN + 1) % 2 ^ 16) ∧
      (completes (.guardRuleWrite w g 0x104 v) s fun t => t.rd (pg .grd g.val) GRD_DFLT_WR_MASK = v.toNat ∧
        t.rd (pg .grd g.val) GRD_FENCE_GEN = (s.rd (pg .grd g.val) GRD_FENCE_GEN + 1) % 2 ^ 16)) ∧
    (∀ (off : BitVec 12) (v : Word) l, s.guardWord (pg .grd g.val) off.toNat = (l, false) → l ≠ [] →
      completes (.guardRuleWrite w g off v) s fun t => (∀ f ∈ l, t.rd (pg .grd g.val) f = fieldOf v.toNat f) ∧
        t.rd (pg .grd g.val) GRD_FENCE_GEN = (s.rd (pg .grd g.val) GRD_FENCE_GEN + 1) % 2 ^ 16) ∧
    (∀ (off : BitVec 12) (v : Word), s.on (pg .grd g.val) HDR_CTRL_LOCK = true →
      completes (.guardRuleWrite w g off v) s fun t => onlyRegsEv [] (pg .grd g.val) s t) ∧
    (∀ (k : Fin 64), (completes (.guardRegionLock w g k) s fun t => t.on (pg .grd g.val) (GRD_RG_CTRL_LOCK k.val) = true) ∧
      (s.on (pg .grd g.val) (GRD_RG_CTRL_LOCK k.val) = false → completes (.guardRegionLock w g k) s fun t =>
        t.rd (pg .grd g.val) GRD_FENCE_GEN = (s.rd (pg .grd g.val) GRD_FENCE_GEN + 1) % 2 ^ 16) ∧
      (s.on (pg .grd g.val) (GRD_RG_CTRL_LOCK k.val) = true → exec (.guardRegionLock w g k) s = .next s)) ∧
    (s.on (pg .grd g.val) GRD_FENCE_DRAINED = false → s.guardBusy g.val = false →
      exec (.guardDrained g) s = .next ((s.wb (pg .grd g.val) GRD_FENCE_DRAINED true).emit (pg .grd g.val) 0x0801
        (le (s.rd (pg .grd g.val) GRD_FENCE_GEN) 2))) ∧
    ((s.on (pg .grd g.val) GRD_FENCE_DRAINED = true ∨ s.guardBusy g.val = true) → exec (.guardDrained g) s = .next s)

/-- R88, R89, R95: HIT_TAKE. A requester without an owner slot reads 0 and changes nothing. A take attempt of a requester that has
one: enabled, a free hitch is taken, its abandoned mark is returned and cleared, and only that mark, the new owner and what an
ORDER event changes differ; a held hitch only answers. Disabled, the read returns 0 and changes nothing. COMPLETES (exec answers
next t, by hypotheses on state and operands alone): hitTake. -/
def Obligations.HitchTake : Prop :=
  (∀ (w : Writer) (n : Fin 256) (s : State), w.hitSlot = none → exec (.hitTake w n) s = .next { s with rdata := 0 }) ∧
  ∀ (w : Writer) (n : Fin 256) (s : State) (o : Nat), w.hitSlot = some o →
    (s.enabled (pg .hit 0) = false → completes (.hitTake w n) s fun t => t = { s with rdata := 0 }) ∧
    (s.enabled (pg .hit 0) = true →
      (∀ o' e, Store.find n.val s.hit.held = some (o', e) →
        completes (.hitTake w n) s fun t => t = { s with rdata := takeWord (decide (o' = o)) false e (slotFid o') }) ∧
      (Store.find n.val s.hit.held = none → completes (.hitTake w n) s fun t =>
        t.abandoned n.val = false ∧
        onlyRegsEv [fkey (pg .hit 0) (HIT_ABAND_ABAND (n.val / 32))] (pg .hit 0)
          { s with
            rdata := takeWord true (s.abandoned n.val) (s.hitEpoch o) (slotFid o)
            hit := { s.hit with held := Store.put n.val (o, s.hitEpoch o) s.hit.held } } t))

/-- R90, R95: HIT_RELEASE. By the owner it frees the hitch, or passes it to the waiter that has waited longest, whose register then
reads granted; by anyone else, a requester without an owner slot among them, it only writes a WRONG_RELEASE event, which names
the owner (of a hitch that nobody owns the event's owner is the model's choice, log entry 130); with RELEASE 0 or disabled it
changes nothing. R92: an owner's epoch increments (OWNER_EPOCH_INCREMENT): its EPOCH counts one more, it holds no hitch and
waits for none. COMPLETES (exec answers next t, by hypotheses on state and operands alone): hitRelease, ownerEpochIncrement. -/
def Obligations.HitchReleases : Prop :=
  (∀ (w : Writer) (n : Fin 256) (rel : Bool) (s : State),
     ((rel = false ∨ s.enabled (pg .hit 0) = false) → completes (.hitRelease w n rel) s fun t => t = s) ∧
     (rel = true → s.enabled (pg .hit 0) = true →
       (Store.find n.val s.hit.held = none → completes (.hitRelease w n rel) s fun t => onlyRegsEv [] (pg .hit 0) s t) ∧
       (∀ o e, Store.find n.val s.hit.held = some (o, e) → w.hitSlot ≠ some o →
         exec (.hitRelease w n rel) s =
           .next (s.emit (pg .hit 0) 0x1801 (le n.val 2 ++ le w.fid 2 ++ le (slotFid o) 2))) ∧
       (∀ o e, Store.find n.val s.hit.held = some (o, e) → w.hitSlot = some o →
         ((∀ x ∈ s.hit.waits, x.hitch ≠ n.val) → completes (.hitRelease w n rel) s fun t =>
           t = { s with hit := { s.hit with held := Store.del n.val s.hit.held } }) ∧
         (∀ x, s.hit.waits.find? (fun y => decide (y.hitch = n.val)) = some x → completes (.hitRelease w n rel) s fun t =>
           Store.find n.val t.hit.held = some (x.slot, s.hitEpoch x.slot) ∧
           t.rd (pg .hit 0) (HIT_WAIT_STATE x.slot) = 2 ∧
           onlyRegsEv [fkey (pg .hit 0) (HIT_WAIT_STATE x.slot), fkey (pg .hit 0) (HIT_WAIT_ABANDONED x.slot)] (pg .hit 0)
             { s with hit := t.hit } t)))) ∧
  (∀ (slot : Fin 10) (s : State), completes (.ownerEpochIncrement slot) s fun t =>
     t.hitEpoch slot.val = (s.hitEpoch slot.val + 1) % 2 ^ 16 ∧
     (∀ e ∈ t.hit.held, e.2.1 ≠ slot.val) ∧ t.waiting slot.val = false)

/-- R93, R95, R96: HIT_WAIT, a wait request on the writer's own slot, while no wait is pending there. A free hitch, or one it holds
already, is granted at once; held by another owner the slot waits, last in line. Any other write with a timeout changes nothing.
R93, R96: cancelling, timing out and reading a wait (HIT_WAIT_CANCEL, HIT_WAIT_TIMEOUT, HIT_WAIT_READ). Only the slot's own
owner cancels; at the limit the wait ends with STATE 3; a read that returns granted or timed out returns the register to idle.
COMPLETES (exec answers next t, by hypotheses on state and operands alone): hitWait, hitWaitCancel, hitWaitTimeout, hitWaitRead. -/
def Obligations.HitchWaits : Prop :=
  (∀ (w : Writer) (slot : Fin 10) (n : Fin 256) (tmo : BitVec 20) (s : State),
     ((w.hitSlot ≠ some slot.val ∨ s.enabled (pg .hit 0) = false ∨ tmo = 0 ∨ s.waiting slot.val = true) →
       completes (.hitWait w slot n tmo) s fun t => t = s) ∧
     (w.hitSlot = some slot.val → s.enabled (pg .hit 0) = true → tmo ≠ 0 → s.waiting slot.val = false →
       (∀ o e, Store.find n.val s.hit.held = some (o, e) → o ≠ slot.val → completes (.hitWait w slot n tmo) s fun t =>
         t.rd (pg .hit 0) (HIT_WAIT_STATE slot.val) = 1 ∧ t.rd (pg .hit 0) (HIT_WAIT_HITCH slot.val) = n.val ∧
         onlyRegs [fkey (pg .hit 0) (HIT_WAIT_HITCH slot.val), fkey (pg .hit 0) (HIT_WAIT_STATE slot.val),
             fkey (pg .hit 0) (HIT_WAIT_ABANDONED slot.val)]
           { s with hit := { s.hit with
               waits := s.hit.waits ++ [⟨slot.val, n.val, s.time.run + tmo.toNat * usRun⟩] } } t) ∧
       (∀ e, Store.find n.val s.hit.held = some (slot.val, e) → completes (.hitWait w slot n tmo) s fun t =>
         t.rd (pg .hit 0) (HIT_WAIT_STATE slot.val) = 2 ∧ t.hit = s.hit) ∧
       (Store.find n.val s.hit.held = none → completes (.hitWait w slot n tmo) s fun t =>
         t.rd (pg .hit 0) (HIT_WAIT_STATE slot.val) = 2 ∧ t.hit.waits = s.hit.waits ∧
         Store.find n.val t.hit.held = some (slot.val, s.hitEpoch slot.val)))) ∧
  (∀ (w : Writer) (slot : Fin 10) (s : State),
     (completes (.hitWaitCancel w slot) s fun t =>
       if w.hitSlot = some slot.val ∧ s.enabled (pg .hit 0) = true ∧ s.waiting slot.val = true then
         t.rd (pg .hit 0) (HIT_WAIT_STATE slot.val) = 0 ∧ t.waiting slot.val = false ∧
         onlyRegs [fkey (pg .hit 0) (HIT_WAIT_STATE slot.val), fkey (pg .hit 0) (HIT_WAIT_ABANDONED slot.val)]
           { s with hit := t.hit } t ∧
         t.hit.held = s.hit.held
       else t = s) ∧
     (∀ x, s.hit.waits.find? (fun y => decide (y.slot = slot.val)) = some x →
       completes (.hitWaitTimeout slot) s fun t =>
         t.rd (pg .hit 0) (HIT_WAIT_STATE slot.val) = 3 ∧ t.waiting slot.val = false ∧ x.due ≤ t.time.run ∧
         t.hit.held = s.hit.held) ∧
     (completes (.hitWaitRead w slot) s fun t =>
       match w.hitSlot with
       | none => t = { s with rdata := 0 }
       | some _ => t.rdata = s.waitWord slot.val ∧
         (2 ≤ s.rd (pg .hit 0) (HIT_WAIT_STATE slot.val) → t.rd (pg .hit 0) (HIT_WAIT_STATE slot.val) = 0) ∧
         onlyRegs [fkey (pg .hit 0) (HIT_WAIT_STATE slot.val), fkey (pg .hit 0) (HIT_WAIT_ABANDONED slot.val)]
           { s with rdata := s.waitWord slot.val } t))

/-- R95: while HIT_CTRL.ENABLE is 0, takes return 0 and takes, releases and waits have no other effect; the write that clears it and
SOFT_RESET leave no hitch held and no wait; SOFT_RESET marks each held hitch abandoned and leaves the epochs. COMPLETES (exec
answers next t, by hypotheses on state and operands alone): enableWrite, softReset, hitTake. -/
def Obligations.HitchUnitOff : Prop :=
  (∀ (w : Writer) (n : Fin 256) (s : State), s.enabled (pg .hit 0) = false →
    (exec (.hitTake w n) s = .next { s with rdata := 0 }) ∧
    (∀ rel, exec (.hitRelease w n rel) s = .next s) ∧
    (∀ slot tmo, exec (.hitWait w slot n tmo) s = .next s) ∧
    (∀ slot, exec (.hitWaitCancel w slot) s = .next s)) ∧
  (∀ (w : Writer) (page : BitVec 26) (s : State), s.pageFor w page.toNat = some (.hit, 0) →
    (s.enabled (pg .hit 0) = true → completes (.enableWrite w page false) s fun t =>
      t.enabled (pg .hit 0) = false ∧ t.hit.held = [] ∧ t.hit.waits = []) ∧
    (∀ en, completes (.softReset w page en) s fun t =>
      t.hit.held = [] ∧ t.hit.waits = [] ∧
      (∀ n : Fin 256, (∃ e ∈ s.hit.held, e.1 = n.val) → t.abandoned n.val = true) ∧
      (∀ slot : Fin 10, t.hitEpoch slot.val = s.hitEpoch slot.val)))

/-- R113, R114, R122: tokens (DMC_TOKEN_TAKE, DMC_TOK_WRITE). In the active state of a locked device the next part that can take a
token leaves the queue, which frees its slot, and holds one; outside the active state none is given, and none from a reserve
that is not above HELD. A reserve that keeps the sum of the reserves at 112 or below is taken, one that would raise it above
changes nothing. COMPLETES (exec answers next t, by hypotheses on state and operands alone): dmcTokenTake, dmcTokWrite. -/
def Obligations.DmcTokens : Prop :=
  ∀ (w : Writer) (n : Fin 8) (s : State),
    (s.rd (pg .dmc n.val) DMC_PM_STATE ≠ 0 → exec (.dmcTokenTake n) s = .next s) ∧
    (∀ x, s.rd (pg .dmc n.val) DMC_PM_STATE = 0 → s.unlocked = false → s.tokenNext n.val = some x →
      completes (.dmcTokenTake n) s fun t =>
        t.fab.queued = dropPart s.fab.queued x ∧ t.fab.serving = s.fab.serving ++ [{ x with stamp := s.time.cyc, lat := none }] ∧
        t.rd (pg .dmc n.val) (DMC_TOK_HELD x.master) =
          (s.rd (pg .dmc n.val) (DMC_TOK_HELD x.master) + 1) % 2 ^ (DMC_TOK_HELD x.master).w) ∧
    ((∀ x ∈ atTarget s.fab.queued n.val,
        s.rd (pg .dmc n.val) (DMC_TOK_RESERVE x.master) ≤ s.rd (pg .dmc n.val) (DMC_TOK_HELD x.master)) →
      s.poolFree n.val = 0 → exec (.dmcTokenTake n) s = .next s) ∧
    (∀ (m : Fin 32) (v : Word),
      let sum := (upTo 32).foldl (fun t i => t + s.rd (pg .dmc n.val) (DMC_TOK_RESERVE i)) 0
      let old := s.rd (pg .dmc n.val) (DMC_TOK_RESERVE m.val)
      ((v.toNat % 2 ^ 7 ≤ old ∨ sum - old + v.toNat % 2 ^ 7 ≤ 112) →
        exec (.dmcTokWrite w n m v) s = .next (s.wr (pg .dmc n.val) (DMC_TOK_RESERVE m.val) (v.toNat % 2 ^ 7))) ∧
      (old < v.toNat % 2 ^ 7 → 112 < sum - old + v.toNat % 2 ^ 7 → exec (.dmcTokWrite w n m v) s = .next s))

/-- R112, R120, R121, R122: refresh and initialisation (REFRESH_INTERVAL, REFRESH_ISSUE, MR4_POLL, DRAM_INIT_DONE). An interval adds
one to what each rank owes, and none in self-refresh; issuing an owed refresh, with the channel's PLL locked (R443), takes one
off and closes the rank's rows; the poll keeps what the components report; the initialiser's end leaves every byte that it had
not passed 0, and changes no other byte. R122: self-refresh (SR_ENTRY_REQUEST, SR_ENTRY, SR_EXIT_REQUEST, SR_EXIT). A request
starts entry from the active state; entry ends, with its event, when no token is held; a write of SR_REQ 0, or a request that
waits, starts exit from self-refresh; exit makes the channel active again. COMPLETES (exec answers next t, by hypotheses on
state and operands alone): refreshInterval, refreshIssue, mr4Poll, dramInitDone, srEntryRequest, srEntry, srExitRequest, srExit. -/
def Obligations.DmcPower : Prop :=
  (∀ (n : Fin 8) (s : State),
     (s.rd (pg .dmc n.val) DMC_PM_STATE = 2 → exec (.refreshInterval n) s = .next s) ∧
     (s.rd (pg .dmc n.val) DMC_PM_STATE ≠ 2 → s.unlocked = false →
       (∀ x ∈ s.rankSubs n.val, Store.getD 0 (x.1 * 2 + x.2) (s.dm n.val).owed < 4) → completes (.refreshInterval n) s fun t =>
         ∀ x ∈ s.rankSubs n.val,
           Store.getD 0 (x.1 * 2 + x.2) (t.dm n.val).owed = Store.getD 0 (x.1 * 2 + x.2) (s.dm n.val).owed + 1) ∧
     (s.dmcPll n.val = false → ∀ rank sub : Fin 2, exec (.refreshIssue n rank sub) s = .next s) ∧
     (∀ (rank sub : Fin 2) (v : Nat), s.dmcPll n.val = true → Store.getD 0 (rank.val * 2 + sub.val) (s.dm n.val).owed = v + 1 →
       s.rankUrgent n.val rank.val sub.val = false → (s.dm n.val).refHold = false → completes (.refreshIssue n rank sub) s fun t =>
         Store.getD 0 (rank.val * 2 + sub.val) (t.dm n.val).owed = v ∧
         (t.dm n.val).rows = closeRows (s.dm n.val).rows rank.val sub.val) ∧
     (∀ hot, completes (.mr4Poll n hot) s fun t => (t.dm n.val).hot = hot ∧ t = { s with dmc := t.dmc }) ∧
     (s.on (pg .dmc n.val) DMC_INIT_DONE = false → n.val ∈ s.channels → completes (.dramInitDone n) s fun t =>
       t.on (pg .dmc n.val) DMC_INIT_DONE = true ∧
       (∀ a x, s.chanOf a = some x → x.1 = n.val → (s.dm n.val).initTo ≤ x.2 → x.2 < 2 ^ 30 * s.chanGiB → t.dram.read a = 0) ∧
       (∀ a, (∀ x, s.chanOf a = some x → x.1 ≠ n.val ∨ x.2 < (s.dm n.val).initTo) → t.dram.read a = s.dram.read a))) ∧
  (∀ (w : Writer) (n : Fin 8) (s : State),
     (completes (.srEntryRequest w n) s fun t => t.on (pg .dmc n.val) DMC_PM_SR_REQ = true ∧
       t.rd (pg .dmc n.val) DMC_PM_STATE = (if s.rd (pg .dmc n.val) DMC_PM_STATE = 0 then 1 else s.rd (pg .dmc n.val) DMC_PM_STATE) ∧
       onlyRegs [fkey (pg .dmc n.val) DMC_PM_SR_REQ, fkey (pg .dmc n.val) DMC_PM_STATE] s t) ∧
     (s.rd (pg .dmc n.val) DMC_PM_STATE = 1 → (∀ x ∈ s.fab.serving, x.target ≠ n.val) → completes (.srEntry n) s fun t =>
       t.rd (pg .dmc n.val) DMC_PM_STATE = 2 ∧ t.rd (pg .dmc n.val) DMC_REF_OWED = 0 ∧ t.dram = s.dram) ∧
     ((∃ x ∈ s.fab.serving, x.target = n.val) → exec (.srEntry n) s = .next s) ∧
     (s.rd (pg .dmc n.val) DMC_PM_STATE = 2 →
       (completes (.srExitRequest n (some w)) s fun t =>
         t.rd (pg .dmc n.val) DMC_PM_STATE = 3 ∧ t.on (pg .dmc n.val) DMC_PM_SR_REQ = false) ∧
       ((∃ x ∈ s.fab.queued, x.target = n.val) → completes (.srExitRequest n none) s fun t =>
         t.rd (pg .dmc n.val) DMC_PM_STATE = 3)) ∧
     (s.rd (pg .dmc n.val) DMC_PM_STATE = 3 → completes (.srExit n) s fun t => t.rd (pg .dmc n.val) DMC_PM_STATE = 0))

/-- R112, R113, R115, R116, R122, R443: DMC_COMMAND_ISSUE. The chosen request leaves service with its answer and gives its token
back; with none to choose in an initialised channel, or none in service, and in a channel in self-refresh or with its PLL
unlocked, nothing happens. R123, R124: training and scrubbing (RETRAIN_NOW, RETRAIN_CHECK, RETRAIN_STEP, SCRUB_READ). A
requested retraining, or a temperature that has moved by more than DELTA, makes BUSY read 1; the sixteenth good step ends it
with the new temperature, a failed step ends it with FAIL. With the scrubber on, the channel active with its PLL locked (R443)
and no request to serve, one line is examined and the pass moves on. COMPLETES (exec answers next t, by hypotheses on state and
operands alone): dmcCommandIssue, retrainCheck, retrainStep, scrubRead, retrainNow. -/
def Obligations.DmcService : Prop :=
  (∀ (n : Fin 8) (s : State),
     (s.dmcChoose n.val = none → (s.on (pg .dmc n.val) DMC_INIT_DONE = true ∨ s.dmcServing n.val = []) →
       exec (.dmcCommandIssue n) s = .next s) ∧
     (2 ≤ s.rd (pg .dmc n.val) DMC_PM_STATE ∨ s.dmcPll n.val = false → exec (.dmcCommandIssue n) s = .next s) ∧
     (∀ x, s.rd (pg .dmc n.val) DMC_PM_STATE < 2 → s.dmcPll n.val = true → s.dmcChoose n.val = some x → x.master < 32 → completes (.dmcCommandIssue n) s fun t =>
       t.fab.serving = dropPart s.fab.serving x ∧ t.fab.queued = s.fab.queued ∧
       t.rd (pg .dmc n.val) (DMC_TOK_HELD x.master) =
         (s.rd (pg .dmc n.val) (DMC_TOK_HELD x.master) - 1) % 2 ^ (DMC_TOK_HELD x.master).w)) ∧
  (∀ (w : Writer) (n : Fin 8) (s : State),
     exec (.retrainNow w n) s = .next (s.wb (pg .dmc n.val) DMC_TRN_NOW true) ∧
     (s.rd (pg .dmc n.val) DMC_TRN_DELTA ≠ 0 → s.on (pg .mss 0) (MSS_TS_VAL_VALID n.val) = true →
       s.rd (pg .dmc n.val) DMC_PM_STATE = 0 → s.on (pg .dmc n.val) DMC_TRN_BUSY = false →
       16 * s.rd (pg .dmc n.val) DMC_TRN_DELTA < (s.dmcTemp n.val - 16 * sint 8 (s.rd (pg .dmc n.val) DMC_TRN_TEMP_LAST)).natAbs →
       completes (.retrainCheck n) s fun t => t.on (pg .dmc n.val) DMC_TRN_BUSY = true) ∧
     (s.rd (pg .dmc n.val) DMC_TRN_DELTA = 0 → exec (.retrainCheck n) s = .next s) ∧
     (s.on (pg .dmc n.val) DMC_TRN_BUSY = true → s.rd (pg .dmc n.val) DMC_PM_STATE = 0 →
       ((s.dm n.val).trnStep = 15 → completes (.retrainStep n true) s fun t =>
         t.on (pg .dmc n.val) DMC_TRN_BUSY = false ∧ t.on (pg .dmc n.val) DMC_TRN_FAIL = false) ∧
       (completes (.retrainStep n false) s fun t =>
         t.on (pg .dmc n.val) DMC_TRN_BUSY = false ∧ t.on (pg .dmc n.val) DMC_TRN_FAIL = true ∧
         t.rd (pg .dmc n.val) DMC_TRN_TEMP_LAST = s.rd (pg .dmc n.val) DMC_TRN_TEMP_LAST)) ∧
     (s.dmcPll n.val = false → exec (.scrubRead n) s = .next s) ∧
     (s.dmcPll n.val = true → s.on (pg .dmc n.val) DMC_SCRUB_EN = true → s.rd (pg .dmc n.val) DMC_PM_STATE = 0 → s.dmcCandidates n.val = [] →
       n.val ∈ s.channels → completes (.scrubRead n) s fun t =>
         (t.dm n.val).scrubAt = (if 2 ^ 30 * s.chanGiB ≤ (s.dm n.val).scrubAt + 64 then 0 else (s.dm n.val).scrubAt + 64)))

/-- R118, R119: the QoS slot table (QOS_SLOT_SWAP_REQUEST, QOS_SLOT_WRITE, QOS_SLOT_BOUNDARY). A write of another entry than the one
in use is taken at once, a write of that one waits for the next slot boundary; at the boundary the slot moves on, and at the
wrap a requested swap makes the other copy active, with its event. COMPLETES (exec answers next t, by hypotheses on state and
operands alone): qosSlotWrite, qosSlotBoundary, qosSlotSwapRequest. -/
def Obligations.QosSlotTable : Prop :=
  ∀ (w : Writer) (n : Fin 8) (s : State),
    exec (.qosSlotSwapRequest w n) s = .next (s.wb (pg .dmc n.val) DMC_SLOT_CTRL_SWAP true) ∧
    (∀ (copyB : Bool) (slot : Fin 64) (v : Word),
      ((s.on (pg .dmc n.val) DMC_SLOT_CTRL_ACTIVE ≠ copyB ∨ s.rd (pg .dmc n.val) DMC_SLOT_CTRL_CUR ≠ slot.val) →
        exec (.qosSlotWrite w n copyB slot v) s = .next (s.setFields (pg .dmc n.val)
          (if copyB then [DMC_SLOTB_MASTER slot.val, DMC_SLOTB_VALID slot.val]
            else [DMC_SLOTA_MASTER slot.val, DMC_SLOTA_VALID slot.val]) v.toNat)) ∧
      (s.on (pg .dmc n.val) DMC_SLOT_CTRL_ACTIVE = copyB → s.rd (pg .dmc n.val) DMC_SLOT_CTRL_CUR = slot.val →
        completes (.qosSlotWrite w n copyB slot v) s fun t =>
          Store.find slot.val (t.dm n.val).deferred = some v.toNat ∧ t = { s with dmc := t.dmc })) ∧
    (completes (.qosSlotBoundary n) s fun t =>
      t.rd (pg .dmc n.val) DMC_SLOT_CTRL_CUR = (s.rd (pg .dmc n.val) DMC_SLOT_CTRL_CUR + 1) % 64 ∧
      (t.dm n.val).deferred = [] ∧
      ((s.rd (pg .dmc n.val) DMC_SLOT_CTRL_CUR + 1) % 64 = 0 → s.on (pg .dmc n.val) DMC_SLOT_CTRL_SWAP = true →
        t.on (pg .dmc n.val) DMC_SLOT_CTRL_ACTIVE = !s.on (pg .dmc n.val) DMC_SLOT_CTRL_ACTIVE ∧
        t.on (pg .dmc n.val) DMC_SLOT_CTRL_SWAP = false))

/-- R128, R129, R130, R489: the loft (LOFT_SERVE, LOFT_SCRUB, LOFT_PART_WRITE). A port serves its oldest part, which leaves the
queue; a whole-word write is read back. The scrubber, while on, examines one word and leaves one that has no error as it is. A
partition entry that is locked keeps its fields, and the lock bit of the write always counts; an unlocked entry that is off
takes its fields, and EN once SYS_CAPS is final unless its area or use is refused. COMPLETES (exec answers next t, by hypotheses
on state and operands alone): loftServe, loftScrub, loftPartWrite. -/
def Obligations.LoftPorts : Prop :=
  ∀ (s : State),
    (∀ (port : Fin 4) (x : Part) (l : List Part), atTarget s.fab.queued (8 + port.val) = x :: l →
      (completes (.loftServe port) s fun t => t.fab.queued = dropPart s.fab.queued x) ∧
      (x.kind = AccKind.write → 0 < x.len → (x.addr - loftBase) % 8 = 0 → x.len % 8 = 0 → x.data.length = x.len → (∀ b ∈ x.data, b < 256) →
        completes (.loftServe port) s fun t =>
          (∀ i, i < x.len → t.loft.read (x.addr - loftBase + i) = BitVec.ofNat 8 (x.data.getD i 0)) ∧
          (∀ a, (a < x.addr - loftBase ∨ x.addr - loftBase + x.len ≤ a) → t.loft.read a = s.loft.read a))) ∧
    (∀ (word : Fin 6291456), s.on (pg .loft 0) LOFT_SCRUB_EN = true → s.time.coarse = false →
      (Store.getD 0 word.val s.loftSyn = 0 → exec (.loftScrub word) s = .next s) ∧
      (∀ x, Store.getD 0 word.val s.loftSyn ≠ 0 →
        correctWord (s.loft.readLE (word.val * 8) 8) (Store.getD 0 word.val s.loftSyn) = some x →
        completes (.loftScrub word) s fun t => Store.getD 0 word.val t.loftSyn = 0)) ∧
    (∀ (w : Writer) (p : Fin 16) (v : Word),
      (s.on (pg .loft 0) (LOFT_PART_LOCK p.val) = true → completes (.loftPartWrite w p v) s fun t =>
        t.rd (pg .loft 0) (LOFT_PART_BASE p.val) = s.rd (pg .loft 0) (LOFT_PART_BASE p.val) ∧
        t.rd (pg .loft 0) (LOFT_PART_SIZE p.val) = s.rd (pg .loft 0) (LOFT_PART_SIZE p.val) ∧
        t.on (pg .loft 0) (LOFT_PART_EN p.val) = s.on (pg .loft 0) (LOFT_PART_EN p.val)) ∧
      (s.on (pg .loft 0) HDR_CTRL_LOCK = false → s.on (pg .loft 0) (LOFT_PART_LOCK p.val) = false → s.partOn p.val = false →
        (fieldOf v.toNat (LOFT_PART_EN p.val) = 0 ∨ s.capsWord ≠ 0) → completes (.loftPartWrite w p v) s fun t =>
          t.rd (pg .loft 0) (LOFT_PART_BASE p.val) = fieldOf v.toNat (LOFT_PART_BASE p.val) ∧
          t.rd (pg .loft 0) (LOFT_PART_SIZE p.val) = fieldOf v.toNat (LOFT_PART_SIZE p.val) ∧
          (t.on (pg .loft 0) (LOFT_PART_LOCK p.val) = bit v.toNat 31) ∧
          (fieldOf v.toNat (LOFT_PART_EN p.val) = 1 →
            let u := s.setFields (pg .loft 0) [LOFT_PART_BASE p.val, LOFT_PART_SIZE p.val, LOFT_PART_USE p.val] v.toNat
            u.partRefusal p.val (u.rd (pg .loft 0) (LOFT_PART_BASE p.val)) (u.rd (pg .loft 0) (LOFT_PART_SIZE p.val))
              (u.rd (pg .loft 0) (LOFT_PART_USE p.val)) = none → t.on (pg .loft 0) (LOFT_PART_EN p.val) = true)))

/-- R45, R133, R136: descriptor words (BAY_DESC_WRITE, BAY_ENLIST). A layout word is taken while its bay is not HELD and the page
not locked, a content word while its bay is HELD by the writer and not READY; a refused write only writes its event; a write
that changes no value does nothing. Enlisting takes an UNSET bay with a possible layout to FREE and a FREE one back. R137: an
allocation (BAY_ALLOC) makes the FREE bay that it finds HELD by the reader with one hold, the owner's, and the next generation,
and answers the bay, GOT and the generation; no other bay changes, and no memory. With none, it answers 0 and every bay stays as
it is. COMPLETES (exec answers next t, by hypotheses on state and operands alone): bayDescWrite, bayEnlist, bayAlloc. -/
def Obligations.BayWords : Prop :=
  (∀ (w : Writer) (b : Fin 8192) (word : Fin 16) (v : Word) (s : State),
     (∀ f fs, layoutWord (4 * word.val) = f :: fs →
       (s.differs (bayE b.val) (f :: fs) v.toNat = false → exec (.bayDescWrite w b word v) s = .next s) ∧
       (s.differs (bayE b.val) (f :: fs) v.toNat = true → s.on (pg .bay 0) HDR_CTRL_LOCK = true →
         exec (.bayDescWrite w b word v) s = .next (s.lockedWrite (pg .bay 0) (4 * word.val) b.val v.toNat w)) ∧
       (s.differs (bayE b.val) (f :: fs) v.toNat = true → s.on (pg .bay 0) HDR_CTRL_LOCK = false →
         (s.bayState b.val = 2 → exec (.bayDescWrite w b word v) s = .next (s.descRefused w b.val (4 * word.val) 0)) ∧
         (s.bayState b.val ≠ 2 →
           exec (.bayDescWrite w b word v) s = .next (s.setFields (bayE b.val) (f :: fs) v.toNat)))) ∧
     (∀ f fs, layoutWord (4 * word.val) = [] → contentWord (4 * word.val) = f :: fs →
       (s.differs (bayE b.val) (f :: fs) v.toNat = false → exec (.bayDescWrite w b word v) s = .next s) ∧
       (s.differs (bayE b.val) (f :: fs) v.toNat = true →
       (s.bayState b.val = 2 → s.rd (bayE b.val) BAYD_OWNER_OWNER = w.fid → s.on (bayE b.val) BAYD_STAT_READY = false →
         exec (.bayDescWrite w b word v) s = .next (s.setFields (bayE b.val) (f :: fs) v.toNat)) ∧
       (s.bayState b.val ≠ 2 → exec (.bayDescWrite w b word v) s = .next (s.descRefused w b.val (4 * word.val) 0)) ∧
       (s.bayState b.val = 2 → s.rd (bayE b.val) BAYD_OWNER_OWNER ≠ w.fid →
         exec (.bayDescWrite w b word v) s = .next (s.descRefused w b.val (4 * word.val) 1)) ∧
       (s.bayState b.val = 2 → s.rd (bayE b.val) BAYD_OWNER_OWNER = w.fid → s.on (bayE b.val) BAYD_STAT_READY = true →
         exec (.bayDescWrite w b word v) s = .next (s.descRefused w b.val (4 * word.val) 2)))) ∧
     (s.bayState b.val = 0 → s.bayLayoutOk b.val = true →
       exec (.bayEnlist w b true) s = .next (s.wr (bayE b.val) BAYD_STAT_STATE 1)) ∧
     (s.bayState b.val = 0 → s.bayLayoutOk b.val = false →
       exec (.bayEnlist w b true) s = .next (s.descRefused w b.val 0xFFFF 3)) ∧
     (s.bayState b.val = 1 → exec (.bayEnlist w b false) s = .next (s.wr (bayE b.val) BAYD_STAT_STATE 0)) ∧
     (s.bayState b.val = 2 → exec (.bayEnlist w b false) s = .next s ∧ exec (.bayEnlist w b true) s = .next s)) ∧
  (∀ (w : Writer) (cls : Fin 16) (s : State),
     (∀ n, s.enabled (pg .bay 0) = true → s.lowestFree cls.val = some n → completes (.bayAlloc w cls) s fun t =>
       t.bayState n = 2 ∧ t.bayGen n = (s.bayGen n + 1) % 2 ^ 16 ∧ t.rd (bayE n) BAYD_OWNER_OWNER = w.fid ∧
       t.rd (bayE n) BAYD_OWNER_REFCNT = 1 ∧ t.on (bayE n) BAYD_STAT_OWNED = true ∧ t.rd (bayE n) BAYD_STAT_MARKS = 0 ∧
       t.rdata = n + 2 ^ 13 + (s.bayGen n + 1) % 2 ^ 16 * 2 ^ 16 ∧
       t = { s with regs := t.regs, rdata := t.rdata } ∧
       ∀ k, (k < bayE n * 32 ∨ bayE (n + 1) * 32 ≤ k) → Store.find k t.regs = Store.find k s.regs) ∧
     ((s.enabled (pg .bay 0) = false ∨ s.lowestFree cls.val = none) → completes (.bayAlloc w cls) s fun t =>
       t.rdata = 0 ∧ (∀ n, t.bayState n = s.bayState n ∧ t.bayGen n = s.bayGen n) ∧ t.dram = s.dram))

/-- R139, R140, R328: the owner's free (BAY_FREE) drops the owner's hold. With no hold and no mark left the bay is FREE at once;
else it stays HELD with one hold fewer; a recording channel whose ring bay has so left HELD stops (R328). A free of another
owner, of an old generation or of a bay that is not HELD changes nothing but its event. R140, R328: a forced free
(BAY_FORCE_FREE) by the host or the MSS makes the bay FREE whatever holds and marks it has, and stops a recording channel whose
ring bay it was; by a drover it only writes its event. COMPLETES (exec answers next t, by hypotheses on state and operands
alone): bayFree, bayForceFree. -/
def Obligations.BayFrees : Prop :=
  (∀ (w : Writer) (b : Fin 8192) (gen : BitVec 16) (s : State) (r : Nat),
     s.bayState b.val = 2 → s.bayGen b.val = gen.toNat → s.rd (bayE b.val) BAYD_OWNER_REFCNT = r + 1 →
     r < 2 ^ BAYD_OWNER_REFCNT.w →
     (s.rd (bayE b.val) BAYD_OWNER_OWNER = w.fid → s.on (bayE b.val) BAYD_STAT_OWNED = true →
       exec (.bayFree w b gen) s = .next (s.ownerRelease b.val gen.toNat).ringsLost ∧
       ((∀ e ∈ s.enc, (s.ownerRelease b.val gen.toNat).encRing (e.1 / 32) (e.1 % 32) = true) →
         completes (.bayFree w b gen) s fun t =>
         t.on (bayE b.val) BAYD_STAT_OWNED = false ∧
         (r = 0 → s.rd (bayE b.val) BAYD_STAT_MARKS = 0 → t.bayState b.val = 1) ∧
         (r ≠ 0 → t.bayState b.val = 2 ∧ t.rd (bayE b.val) BAYD_OWNER_REFCNT = r))) ∧
     (s.rd (bayE b.val) BAYD_OWNER_OWNER ≠ w.fid →
       exec (.bayFree w b gen) s = .next (s.freeRefused w b.val gen.toNat 0)) ∧
     (∀ gen', s.bayGen b.val ≠ BitVec.toNat gen' →
       exec (.bayFree w b gen') s = .next (s.freeRefused w b.val gen'.toNat 1))) ∧
  (∀ (w : Writer) (b : Fin 8192) (gen : BitVec 16) (s : State), s.bayState b.val = 2 → s.bayGen b.val = gen.toNat →
     ((w = .host ∨ w = .mss) →
       let u := (s.bayForce b.val).emit (pg .bay 0) 0x1001 (le b.val 2 ++ le w.fid 2 ++ le gen.toNat 2 ++
         le (s.rd (bayE b.val) BAYD_OWNER_REFCNT) 2 ++ [s.rd (bayE b.val) BAYD_STAT_MARKS])
       exec (.bayForceFree w b gen) s = .next u.ringsLost ∧
       ((∀ e ∈ s.enc, u.encRing (e.1 / 32) (e.1 % 32) = true) → completes (.bayForceFree w b gen) s fun t =>
       t.bayState b.val = 1 ∧ t.rd (bayE b.val) BAYD_OWNER_REFCNT = 0 ∧ t.bayGen b.val = s.bayGen b.val)) ∧
     (∀ d, w = .drover d → exec (.bayForceFree w b gen) s = .next (s.freeRefused w b.val gen.toNat 3)))

/-- R144: an aperture that is closed opens (APERTURE_OPEN) on a bay that the writer owns under that generation, and takes a hold;
else it writes its event and stays as it stood. Closing (APERTURE_CLOSE) clears EN; a closed aperture stays as it is. COMPLETES
(exec answers next t, by hypotheses on state and operands alone): apertureOpen, apertureClose. -/
def Obligations.Apertures : Prop :=
  ∀ (w : Writer) (a : Fin 16) (b : Fin 8192) (gen : BitVec 16) (s : State),
    (s.on (pg .bay 0) (BAY_APT_EN a.val) = false → s.bayHeld b.val gen.toNat = true →
      s.rd (bayE b.val) BAYD_OWNER_OWNER = w.fid → completes (.apertureOpen w a b gen) s fun t =>
        t.on (pg .bay 0) (BAY_APT_EN a.val) = true ∧ t.rd (pg .bay 0) (BAY_APT_BAY a.val) = b.val ∧
        t.rd (bayE b.val) BAYD_OWNER_REFCNT = (s.rd (bayE b.val) BAYD_OWNER_REFCNT + 1) % 2 ^ BAYD_OWNER_REFCNT.w) ∧
    ((s.on (pg .bay 0) (BAY_APT_EN a.val) = true ∨ s.bayHeld b.val gen.toNat = false ∨
        s.rd (bayE b.val) BAYD_OWNER_OWNER ≠ w.fid) →
      completes (.apertureOpen w a b gen) s fun t => onlyRegsEv [] (pg .bay 0) s t) ∧
    (s.on (pg .bay 0) (BAY_APT_EN a.val) = true → completes (.apertureClose w a) s fun t =>
      t.on (pg .bay 0) (BAY_APT_EN a.val) = false) ∧
    (s.on (pg .bay 0) (BAY_APT_EN a.val) = false → exec (.apertureClose w a) s = .next s)

/-- R156, R157, R158: steps (TIME_STEP_REQUEST). A writer that the mode does not name only writes its event. The first step out of
UNSET sets yard time either way and STATE becomes ACQUIRING; a step within the threshold is applied, backward by withholding
time and forward by what the slew does not absorb, and yard time never moves backward; a larger one waits as pending. R157: the
pending step (STEP_ACCEPT, STEP_DISCARD). The host or the MSS, with the step's low 16 bits as KEY, accepts or discards it, and
none is pending any more; with another KEY, or by another writer, the step stays and an event is written. COMPLETES (exec
answers next t, by hypotheses on state and operands alone): timeStepRequest, stepAccept, stepDiscard. -/
def Obligations.TimeSteps : Prop :=
  (∀ (w : Writer) (hi : Word) (s : State),
     let x := sint 64 (s.time.stepLo + 2 ^ 32 * hi.toNat)
     (s.tbWriterOk w = false → exec (.timeStepRequest w hi) s = .next (s.wrongWriter w 0x114)) ∧
     (s.tbWriterOk w = true → s.rd tb TB_STATUS_STATE = 0 → completes (.timeStepRequest w hi) s fun t =>
       t.rd tb TB_STATUS_STATE = 1 ∧ t.time.yt = (clamp 0 (ns ytMax) ((s.time.yt : Int) + x * subNs)).toNat) ∧
     (s.tbWriterOk w = true → s.rd tb TB_STATUS_STATE ≠ 0 → x.natAbs ≤ s.rd tb TB_JUMP_THRESH →
       (x < 0 → completes (.timeStepRequest w hi) s fun t =>
         t.time.yt = s.time.yt ∧ t.time.slew = s.time.slew + ns x.natAbs) ∧
       (0 ≤ x → ns x.toNat ≤ s.time.slew → completes (.timeStepRequest w hi) s fun t =>
         t.time.yt = s.time.yt ∧ t.time.slew = s.time.slew - ns x.toNat) ∧
       (0 ≤ x → s.time.slew < ns x.toNat → completes (.timeStepRequest w hi) s fun t =>
         t.time.yt = min (s.time.yt + (ns x.toNat - s.time.slew)) (ns ytMax) ∧ t.time.slew = 0)) ∧
     (s.tbWriterOk w = true → s.rd tb TB_STATUS_STATE ≠ 0 → s.rd tb TB_JUMP_THRESH < x.natAbs →
       exec (.timeStepRequest w hi) s =
         .next ((s.setPend (some x)).emit tb 0x0801 (le (uint 64 x) 8 ++ le (uint 16 x) 2)))) ∧
  (∀ (w : Writer) (key : BitVec 16) (s : State) (x : Int), s.time.pend = some x →
     ((w = .host ∨ w = .mss) → uint 16 x = key.toNat →
       (completes (.stepAccept w key) s fun t => t.time.pend = none ∧ t.on tb TB_STATUS_STEP_PENDING = false) ∧
       exec (.stepDiscard w key) s = .next (s.setPend none)) ∧
     ((w = .host ∨ w = .mss) → uint 16 x ≠ key.toNat →
       exec (.stepAccept w key) s = .next (s.wrongKey w) ∧ exec (.stepDiscard w key) s = .next (s.wrongKey w)) ∧
     (w ≠ .host → w ≠ .mss →
       exec (.stepAccept w key) s = .next (s.wrongWriter w 0x124) ∧ exec (.stepDiscard w key) s = .next (s.wrongWriter w 0x124)))

/-- R156, R158, R160: rate, servo state, holdover and slewing (TB_RATE_WRITE, SERVO_STATE_WRITE, HOLDOVER_EXPIRE, SLEW_ABSORBED).
Rate and STATE take what the right writer writes; holdover ends when its time has passed; the slew ends when yard time has
advanced by what was withheld, with the core clock stopped at the first TCXO edge after it. COMPLETES (exec answers next t, by
hypotheses on state and operands alone): servoStateWrite, holdoverExpire, slewAbsorbed, tbRateWrite. -/
def Obligations.TimeBaseState : Prop :=
  ∀ (w : Writer) (v : Word) (s : State),
    (s.tbWriterOk w = true → exec (.tbRateWrite w v) s = .next (s.wr tb TB_RATE_RATE v.toNat)) ∧
    (s.tbWriterOk w = false → exec (.tbRateWrite w v) s = .next (s.wrongWriter w 0x10C)) ∧
    (∀ n : BitVec 3, w ≠ .mss → exec (.servoStateWrite w n) s = .next s) ∧
    (∀ n : BitVec 3, 1 ≤ n.toNat → n.toNat ≤ 3 → s.rd tb TB_STATUS_STATE ≠ 0 →
      (s.rd tb TB_STATUS_STATE = 4 → n.toNat ≠ 3) → (s.rd tb TB_STATUS_STATE = 3 → n.toNat ≠ 3) →
      completes (.servoStateWrite .mss n) s fun t =>
        t.rd tb TB_STATUS_STATE = n.toNat ∧ t.rd tb TB_SERVO_STATE = n.toNat) ∧
    (s.rd tb TB_STATUS_STATE = 3 → completes .holdoverExpire s fun t =>
      t.rd tb TB_STATUS_STATE = 4 ∧ s.time.holdFrom + ns (s.tbLimit * 10 ^ 9) ≤ t.time.run) ∧
    (s.rd tb TB_STATUS_STATE ≠ 3 → exec .holdoverExpire s = .next s) ∧
    (completes .slewAbsorbed s fun t => t.time.slew = 0 ∧ s.time.yt + s.time.slew ≤ t.time.yt ∧
      (s.time.coarse = false → t.time.yt = s.time.yt + s.time.slew))

/-- R164, R165, R166, R167: stamps (SFD_DETECT, ENTRY_LATCH, LATENCY_COUNT_SATURATE, TXQ_POP). A start of frame on an enabled PTP
port takes the lowest free latency entry, which runs from the port's fixed latency; with none free RXL_OVF is written, on
another port nothing happens. The entry latch keeps yard time and stops every count. A running count stops at 0xFF_FFFF with SAT
once the core cycles have passed that bring it there; a stopped core clock counts nothing. Reading the transmit queue's high
word pops the oldest stamp. COMPLETES (exec answers next t, by hypotheses on state and operands alone): sfdDetect, entryLatch,
latencyCountSaturate, txqPop. -/
def Obligations.LatencyAndStamps : Prop :=
  ∀ (w : Writer) (s : State),
    (∀ (port : Fin 18) (align e : Nat), bit (s.rd tb TB_PTP_PORTS_PORTS) port.val = true → s.enabled (pg .net port.val) = true →
      s.unlocked = false → s.freeRxl = some e → completes (.sfdDetect port align) s fun t =>
        t.on tb (TB_RXL_VALID e) = true ∧ t.on tb (TB_RXL_RUN e) = true ∧ t.on tb (TB_RXL_SAT e) = false ∧
        t.rd tb (TB_RXL_COUNT e) = portLatency (s.netMode port.val) align % 2 ^ 24 ∧
        Store.find e t.time.rxOpen = some port.val) ∧
    (∀ (port : Fin 18) (align : Nat),
      ((bit (s.rd tb TB_PTP_PORTS_PORTS) port.val = false ∨ s.enabled (pg .net port.val) = false) →
        exec (.sfdDetect port align) s = .next s) ∧
      (bit (s.rd tb TB_PTP_PORTS_PORTS) port.val = true → s.enabled (pg .net port.val) = true → s.freeRxl = none →
        exec (.sfdDetect port align) s = .next (s.emit tb 0x2801 [0, 0, 0, port.val]))) ∧
    (completes .entryLatch s fun t =>
      t.rd tb TB_ENTRY_LO_T = s.now % 2 ^ 32 ∧ t.rd tb TB_ENTRY_HI_T = s.now / 2 ^ 32 % 2 ^ 32 ∧
      ∀ e, e < 8 → t.on tb (TB_RXL_RUN e) = false) ∧
    (∀ e : Fin 8, s.on tb (TB_RXL_VALID e.val) = true → s.on tb (TB_RXL_RUN e.val) = true →
      (s.time.coarse = false → completes (.latencyCountSaturate e) s fun t =>
        t.rd tb (TB_RXL_COUNT e.val) = 0xFFFFFF ∧ t.on tb (TB_RXL_SAT e.val) = true ∧ t.on tb (TB_RXL_RUN e.val) = false ∧
        t.time.run = s.time.run + (0xFFFFFF - s.rd tb (TB_RXL_COUNT e.val)) * s.cycleInc) ∧
      (s.time.coarse = true → exec (.latencyCountSaturate e) s = .next s)) ∧
    (s.time.txq = [] → exec (.txqPop w) s = .next { s with rdata := 0 }) ∧
    (∀ x l, s.time.txq = x :: l → exec (.txqPop w) s =
      .next { s with rdata := x.t / 2 ^ 32 % 2 ^ 32, time := { s.time with txq := l } })

/-- R155, R170, R171, R173: time pins (TI_CAPTURE, TIME_OUTPUT_ARM, TIME_OUTPUT_EDGE, TIME_OUTPUT_PULSE_END). A selected edge at an
enabled input that bounds pulses of 4 ns and more captures yard time less the fixed delay and counts; any other is ignored.
Arming schedules the output's first edge, a periodic one on its grid; a START already past misses a single pulse; a period that
does not exceed the width is refused and ARM clears with nothing scheduled. A scheduled edge drives the pin active and counts a
pulse, whose end drives it inactive, and with nothing more scheduled ARM clears. COMPLETES (exec answers next t, by hypotheses
on state and operands alone): tiCapture, timeOutputArm, timeOutputEdge, timeOutputPulseEnd. -/
def Obligations.TimePins : Prop :=
  ∀ (w : Writer) (j : Fin 8) (s : State),
    let start := s.rd64 tb (TB_TO_START_LO_T j.val) (TB_TO_START_HI_T j.val)
    (∀ x, s.on tb (TB_TI_CTRL_EN j.val) = true → edgeSelected (s.rd tb (TB_TI_CTRL_EDGE j.val)) x.rising = true →
      4 ≤ x.pulse → completes (.tiCapture j x) s fun t =>
        t.rd tb (TB_TI_CAP_LO_T j.val) = (s.stamp - tiDelay) % 2 ^ 32 ∧
        t.rd tb (TB_TI_CAP_HI_T j.val) = (s.stamp - tiDelay) / 2 ^ 32 % 2 ^ 32 ∧
        t.rd tb (TB_TI_STAT_COUNT j.val) = (s.rd tb (TB_TI_STAT_COUNT j.val) + 1) % 2 ^ (TB_TI_STAT_COUNT j.val).w) ∧
    (∀ x : TiEdge, (s.on tb (TB_TI_CTRL_EN j.val) = false ∨
        edgeSelected (s.rd tb (TB_TI_CTRL_EDGE j.val)) x.rising = false ∨ x.pulse < 4) →
      exec (.tiCapture j x) s = .next s) ∧
    (s.on tb (TB_TO_CTRL_EN j.val) = false → exec (.timeOutputArm w j) s = .next s) ∧
    (s.on tb (TB_TO_CTRL_EN j.val) = true → s.rd tb (TB_TO_PERIOD_NS j.val) ≤ s.rd tb (TB_TO_WIDTH_NS j.val) →
      exec (.timeOutputArm w j) s = .next (s.toDisarm j.val)) ∧
    (s.on tb (TB_TO_CTRL_EN j.val) = true → s.rd tb (TB_TO_WIDTH_NS j.val) < s.rd tb (TB_TO_PERIOD_NS j.val) →
      (s.now ≤ start → completes (.timeOutputArm w j) s fun t =>
        t.on tb (TB_TO_CTRL_ARM j.val) = true ∧ (t.tout j.val).next = some start) ∧
      (start < s.now → s.on tb (TB_TO_CTRL_PERIODIC j.val) = true → completes (.timeOutputArm w j) s fun t =>
        t.on tb (TB_TO_CTRL_ARM j.val) = true ∧
        (t.tout j.val).next = some (gridAt start (s.rd tb (TB_TO_PERIOD_NS j.val)) s.now)) ∧
      (start < s.now → s.on tb (TB_TO_CTRL_PERIODIC j.val) = false → completes (.timeOutputArm w j) s fun t =>
        t.on tb (TB_TO_CTRL_ARM j.val) = false ∧ (t.tout j.val).next = none ∧ t.on tb (TB_TO_STAT_MISSED j.val) = true)) ∧
    ((s.tout j.val).next = none → exec (.timeOutputEdge j) s = .next s) ∧
    (∀ a, (s.tout j.val).next = some a → completes (.timeOutputEdge j) s fun t =>
      (t.tout j.val).pulseEnd = some (t.now + s.rd tb (TB_TO_WIDTH_NS j.val)) ∧
      (s.time.coarse = false → t.now = max s.now a) ∧
      t.rd tb (TB_TO_STAT_PULSES j.val) = (s.rd tb (TB_TO_STAT_PULSES j.val) + 1) % 2 ^ (TB_TO_STAT_PULSES j.val).w ∧
      t.out = s.out ++ [.pin "TOUT" j.val (b2n (true != s.on tb (TB_TO_CTRL_POL j.val)))]) ∧
    ((s.tout j.val).pulseEnd = none → exec (.timeOutputPulseEnd j) s = .next s) ∧
    (∀ a, (s.tout j.val).pulseEnd = some a → completes (.timeOutputPulseEnd j) s fun t =>
      (t.tout j.val).pulseEnd = none ∧
      ((s.tout j.val).next = none → t.on tb (TB_TO_CTRL_ARM j.val) = false) ∧
      t.out = s.out ++ [.pin "TOUT" j.val (b2n (false != s.on tb (TB_TO_CTRL_POL j.val)))])

/-- R164, R175, R178, R179: a frame received (NET_FRAME_RECEIVE). A port that is not up takes nothing; a bad FCS is only counted; a
good frame counts in NET_RX_FRAMES, and a PAUSE frame or one that R178 discards reaches no packet slot; outside a team, a frame
that a feed takes, or the unmatched queue, stands last in the packet slots with the lowest free slot and the stamp of its SFD;
while check-value units have to pass it, or frames of its port before it, it waits with its stamp (R320, R321). In the stabled
state no frame reaches a slot (R445). A valid PTP event message on a PTP port leaves its port, type and sequenceId in the
latency entry it took. COMPLETES (exec answers next t, by hypotheses on state and operands alone): netFrameReceive. -/
def Obligations.NetFrameReceived : Prop :=
  ∀ (port : Fin 18) (fr : NetFrame) (ago : Nat) (s : State),
    let p := pg .net port.val
    (s.netUp port.val = false → exec (.netFrameReceive port fr ago) s = .next s) ∧
    (s.netUp port.val = true → fr.fcsOk = false → completes (.netFrameReceive port fr ago) s fun t =>
      t.rd p NET_RX_FCS_COUNT = satAdd 32 (s.rd p NET_RX_FCS_COUNT) 1 ∧ t.pkts = s.pkts) ∧
    (s.netUp port.val = true → fr.fcsOk = true → fr.pause = true → completes (.netFrameReceive port fr ago) s fun t =>
      t.rd p NET_RX_FRAMES_COUNT = satAdd 32 (s.rd p NET_RX_FRAMES_COUNT) 1 ∧ t.pkts = s.pkts) ∧
    (s.netUp port.val = true → fr.fcsOk = true → fr.pause = false → s.rxDrops port.val fr = true →
      completes (.netFrameReceive port fr ago) s fun t =>
        t.rd p NET_RX_FRAMES_COUNT = satAdd 32 (s.rd p NET_RX_FRAMES_COUNT) 1 ∧
        t.rd p NET_RX_DROP_COUNT = satAdd 32 (s.rd p NET_RX_DROP_COUNT) 1 ∧ t.pkts = s.pkts) ∧
    (∀ mt sq e, s.netUp port.val = true → fr.fcsOk = true → s.rxDrops port.val fr = false →
      bit (s.rd tb TB_PTP_PORTS_PORTS) port.val = true → s.ptpEvent fr = some (mt, sq) →
      (upTo 8).find? (fun e => s.on tb (TB_RXL_VALID e) && decide (Store.find e s.time.rxOpen = some port.val)) = some e →
      completes (.netFrameReceive port fr ago) s fun t =>
        t.rd tb (TB_RXL_ID_PORT e) = port.val ∧ t.rd tb (TB_RXL_ID_SEQ_ID e) = sq % 2 ^ 16 ∧
        t.rd tb (TB_RXL_ID_MSG_TYPE e) = mt % 2 ^ (TB_RXL_ID_MSG_TYPE e).w ∧ Store.find e t.time.rxOpen = none) ∧
    (s.netUp port.val = true → fr.fcsOk = true → fr.pause = false → s.rxDrops port.val fr = false →
      s.wakeFrame port.val fr = false → s.pwrState < 2 → s.rxUnits port.val fr ≠ [] →
      completes (.netFrameReceive port fr ago) s fun t =>
        t.rxHeld = s.rxHeld ++ [⟨port.val, fr, s.stamp - ago, s.rxUnits port.val fr⟩] ∧ t.pkts = s.pkts) ∧
    (s.netUp port.val = true → fr.fcsOk = true → 2 ≤ s.pwrState → completes (.netFrameReceive port fr ago) s fun t =>
      t.pkts = s.pkts ∧ t.rxHeld = s.rxHeld) ∧
    (s.netUp port.val = true → fr.fcsOk = true → fr.pause = false → s.rxDrops port.val fr = false →
      s.wakeFrame port.val fr = false → s.pwrState < 2 → s.rxUnits port.val fr = [] →
      s.rxHeld.all (fun x => decide (x.port ≠ port.val)) = true → s.forMss port.val fr = false →
      (s.freePkt = none → completes (.netFrameReceive port fr ago) s fun t =>
        t.rd p NET_RX_NOBUF_COUNT = satAdd 32 (s.rd p NET_RX_NOBUF_COUNT) 1 ∧ t.pkts = s.pkts) ∧
      (∀ n f rtcp, s.freePkt = some n → s.feedMatch port.val fr = some (f, rtcp) → s.inTeam = false →
        completes (.netFrameReceive port fr ago) s fun t =>
          t.rd feedP FEED_MATCHED_COUNT = satAdd 32 (s.rd feedP FEED_MATCHED_COUNT) 1 ∧
          t.pkts = s.pkts ++ [⟨n, port.val, 3, f, rtcp, true, s.stamp - ago, fr⟩]) ∧
      (∀ n, s.freePkt = some n → s.feedMatch port.val fr = none → completes (.netFrameReceive port fr ago) s fun t =>
        t.rd feedP FEED_UNMATCHED_COUNT = satAdd 32 (s.rd feedP FEED_UNMATCHED_COUNT) 1 ∧
        t.pkts = if s.on feedP FEED_UNM_CTRL_EN then s.pkts ++ [⟨n, port.val, 4, 0, false, true, s.stamp - ago, fr⟩] else s.pkts))

/-- R167, R176, R181, R311: sending and the link (NET_FRAME_TRANSMIT, NET_LINK_CHANGE). A frame on a port that is up leaves and
counts in NET_TX_FRAMES, and its STAMP puts the yard time plus the port's latency into the transmit queue while that has room; a
port that is not up sends nothing, and counts LN_TX_DROP where it is enabled and its lane's PLL is not locked (R311). UP needs
an enabled port and the lock of its PLL, and NET_LINK shows nothing else. R175, R180, R195, R196: what ingress firmware answers
(UNMATCHED_REPLY, MEMBERSHIP_QUERY, MEMBERSHIP_REPORT, RECEIVER_REPORT_SEND). While the drovers do not run, nothing is answered.
The oldest unmatched frame is taken and its slot freed, and the oldest membership query likewise; with none, nothing changes; a
membership report on a port that is up counts one of the reports left, on any other nothing happens; a receiver report goes to a
source and an SSRC that are known and remembers what it covered. COMPLETES (exec answers next t, by hypotheses on state and
operands alone): netFrameTransmit, netLinkChange, unmatchedReply, membershipQuery, membershipReport, receiverReportSend. -/
def Obligations.NetSending : Prop :=
  (∀ (port : Fin 18) (s : State),
     let p := pg .net port.val
     (∀ bytes stamp, s.netUp port.val = false → completes (.netFrameTransmit port bytes stamp) s fun t => t =
       if s.enabled p && !s.netPll port.val then s.cnt (pg .ln (s.netLane port.val)) LN_TX_DROP_COUNT 1 else s) ∧
     (∀ bytes, s.netUp port.val = true → completes (.netFrameTransmit port bytes none) s fun t =>
       t.out = s.out ++ [.netFrame port.val bytes] ∧
       t.rd p NET_TX_FRAMES_COUNT = satAdd 32 (s.rd p NET_TX_FRAMES_COUNT) 1 ∧
       onlyRegs [fkey p NET_TX_FRAMES_COUNT] { s with out := t.out } t) ∧
     (∀ bytes seqId msgType align, s.netUp port.val = true → s.time.txq.length < 64 →
       completes (.netFrameTransmit port bytes (some (seqId, msgType, align))) s fun t =>
         t.out = s.out ++ [.netFrame port.val bytes] ∧
         t.time.txq = s.time.txq ++
           [⟨s.stamp + portLatency (s.netMode port.val) align * 5 / 6, seqId, msgType, port.val⟩] ∧
         onlyRegs [fkey p NET_TX_FRAMES_COUNT] { s with out := t.out, time := { s.time with txq := t.time.txq } } t) ∧
     (∀ up fec, completes (.netLinkChange port up fec) s fun t =>
       t.on p NET_LINK_UP = (up && s.enabled p && s.netPll port.val) ∧
       onlyRegsEv [fkey p NET_LINK_UP, fkey p NET_LINK_FEC_LOCK] p s t)) ∧
  (∀ (s : State),
     (s.drvRuns = false → exec .unmatchedReply s = .next s ∧ exec .membershipQuery s = .next s ∧
       (∀ (port : Fin 18) (f : Fin 512), exec (.membershipReport port f) s = .next s) ∧
       ∀ f : Fin 512, exec (.receiverReportSend f) s = .next s) ∧
     (s.unmatched (fun _ => true) = none → exec .unmatchedReply s = .next s) ∧
     (∀ x, s.drvRuns = true → s.unmatched (fun _ => true) = some x → completes .unmatchedReply s fun t => t.pkts = s.pkts.erase x) ∧
     (s.unmatched (fun a => match a with | .query _ _ _ => true | _ => false) = none → exec .membershipQuery s = .next s) ∧
     (∀ x v g l, s.drvRuns = true → s.unmatched (fun a => match a with | .query _ _ _ => true | _ => false) = some x → x.frame.ask = .query v g l →
       completes .membershipQuery s fun t => t.pkts = s.pkts.erase x) ∧
     (∀ (port : Fin 18) (f : Fin 512) (j : Join), s.drvRuns = true → j ∈ s.joins → j.port = port.val → (j.v6, j.group) = s.feedGroup f.val →
       0 < j.left → s.netUp port.val = true → completes (.membershipReport port f) s fun t =>
         t.joins = mapWhere (fun (j : Join) => decide (j.port = port.val) && decide ((j.v6, j.group) = s.feedGroup f.val) &&
           decide (0 < j.left)) (fun (j : Join) => { j with left := j.left - 1 }) s.joins) ∧
     (∀ (f : Fin 512) st a k m, s.drvRuns = true → Store.find f.val s.feeds = some st → s.rd feedP FEED_RR_INT_INTERVAL ≠ 0 → s.highClaim = true →
       s.feedSource f.val st = some a → s.feedSsrc f.val st = some k → st.maxSeq = some m →
       completes (.receiverReportSend f) s fun t =>
         Store.find f.val t.feeds = some { st with rrExp := m + 1 - st.baseSeq, rrRec := st.received } ∧
         t.pkts = s.pkts))

/-- R182, R184, R196: a feed's descriptor (FEED_DESC_WRITE, FEED_ENABLE, FEED_DISABLE). While EN is 1 a write of its words changes
nothing; while EN is 0 and nothing is locked it sets the word's fields; locked, a write that changes no value changes nothing,
and one that would only writes a record. An enable that R184 does not refuse sets EN with HEALTH 1 and the counters 0; a disable
clears EN and HEALTH and ends matching. COMPLETES (exec answers next t, by hypotheses on state and operands alone):
feedDescWrite, feedEnable, feedDisable. -/
def Obligations.FeedDescriptor : Prop :=
  ∀ (w : Writer) (f : Fin 512) (v : Word) (s : State),
    let p := feedE f.val
    let l := fun (word : Fin 32) => feedWord (4 * word.val)
    (∀ word : Fin 32, s.feedOn f.val = true → exec (.feedDescWrite w f word v) s = .next s) ∧
    (∀ word : Fin 32, word.val ≠ 0 → s.feedOn f.val = false → s.on p FEEDD_W00_LOCK = false → s.on feedP HDR_CTRL_LOCK = false →
      completes (.feedDescWrite w f word v) s fun t =>
        onlyRegs ((l word).map (fkey p)) s t ∧ ∀ g ∈ l word, t.rd p g = fieldOf v.toNat g) ∧
    (∀ word : Fin 32, word.val ≠ 0 → s.feedOn f.val = false → (s.on p FEEDD_W00_LOCK || s.on feedP HDR_CTRL_LOCK) = true →
      exec (.feedDescWrite w f word v) s =
        .next (if s.differs p (l word) v.toNat then s.lockedWrite feedP (4 * word.val) f.val v.toNat w else s)) ∧
    (∀ u, u = s.feedDescWrite w f.val 0 v.toNat → u.feedOn f.val = false → u.feedRefusal f.val = none →
      completes (.feedEnable w f v) s fun t =>
        t.feedOn f.val = true ∧ t.rd p FEEDD_W44_HEALTH = 1 ∧ t.rd p FEEDD_PKTS_PKTS = 0 ∧ t.rd p FEEDD_LOST_LOST = 0 ∧
        Store.find f.val t.feeds = some (feed0 (u.on p FEEDD_W00_PSET_EN))) ∧
    (s.feedOn f.val = true → completes (.feedEnable w f v) s fun t => t = s) ∧
    (s.feedOn f.val = true → completes (.feedDisable w f v) s fun t =>
      t.feedOn f.val = false ∧ t.rd p FEEDD_W44_HEALTH = 0 ∧ Store.find f.val t.feeds = none ∧ t.pkts = s.pkts)

/-- R179, R182, R185, R186, R193: RTP_PACKET and SENDER_REPORT. Without drover code running nothing happens (R443). An RTP or RTCP
packet that a feed's firmware takes frees its slot. Every RTP packet taken counts in PKTS and, with its payload, in KIB, and
leaves its stamp in LAST_RX. One that is no RTP of the feed counts as unsupported besides, and one whose sequence number was
received already as a duplicate; neither changes more of the feed's ingress state. COMPLETES (exec answers next t, by hypotheses
on state and operands alone): senderReport, rtpPacket. -/
def Obligations.FeedPackets : Prop :=
  ∀ (f : Fin 512) (s : State),
    let p := feedE f.val
    (s.drvRuns = false → exec (.rtpPacket f) s = .next s ∧ exec (.senderReport f) s = .next s) ∧
    (s.feedFrame f.val false = none → exec (.rtpPacket f) s = .next s) ∧
    (∀ x, s.drvRuns = true → s.feedFrame f.val true = some x → completes (.senderReport f) s fun t => t.pkts = s.pkts.erase x) ∧
    (s.feedFrame f.val true = none → exec (.senderReport f) s = .next s) ∧
    (∀ x, s.drvRuns = true → s.feedFrame f.val false = some x → completes (.rtpPacket f) s fun t => t.pkts = s.pkts.erase x) ∧
    (∀ x st u, s.drvRuns = true → s.feedFrame f.val false = some x → Store.find f.val s.feeds = some st → x.frame.udp = some u →
      (completes (.rtpPacket f) s fun t =>
        t.rd p FEEDD_LAST_RX_LO_T = x.stamp % 2 ^ 32 ∧ t.rd p FEEDD_LAST_RX_HI_T = x.stamp / 2 ^ 32 % 2 ^ 32 ∧
        t.rd p FEEDD_PKTS_PKTS = (s.rd p FEEDD_PKTS_PKTS + 1) % 2 ^ FEEDD_PKTS_PKTS.w ∧
        t.rd p FEEDD_KIB_KIB = (st.bytes + (rtpParse u.payload).data.length) / 1024 % 2 ^ FEEDD_KIB_KIB.w) ∧
      ((rtpParse u.payload).v ≠ 2 ∨ (rtpParse u.payload).pt ≠ s.rd p FEEDD_W04_PT → completes (.rtpPacket f) s fun t =>
        t.rd p FEEDD_W64_UNSUP = (s.rd p FEEDD_W64_UNSUP + 1) % 2 ^ FEEDD_W64_UNSUP.w ∧
        Store.find f.val t.feeds = some { st with bytes := st.bytes + (rtpParse u.payload).data.length }) ∧
      ((rtpParse u.payload).v = 2 → (rtpParse u.payload).pt = s.rd p FEEDD_W04_PT →
        (if s.on p FEEDD_W00_SSRC_ANY then st.ssrc else some (s.rd p FEEDD_W0C_SSRC)).getD (rtpParse u.payload).ssrc =
          (rtpParse u.payload).ssrc →
        nalUnsupported (decide (s.rd p FEEDD_W00_CODEC = 1)) (rtpParse u.payload).data = false →
        (seqJudge st (rtpParse u.payload).seq = .dup → completes (.rtpPacket f) s fun t =>
          t.rd p FEEDD_DUP_DUP = (s.rd p FEEDD_DUP_DUP + 1) % 2 ^ FEEDD_DUP_DUP.w ∧
          Store.find f.val t.feeds = some { st with bytes := st.bytes + (rtpParse u.payload).data.length }) ∧
        (∀ ext, seqJudge st (rtpParse u.payload).seq = .good ext → completes (.rtpPacket f) s fun t =>
          ∃ st2, Store.find f.val t.feeds = some st2 ∧ st2.maxSeq = some (max ext (st.maxSeq.getD ext)) ∧
            st2.received = st.received + 1 ∧ st2.lastAcc = x.stamp)))

/-- R188, R189, R191, R197: access units and health (AU_TIMEOUT, AU_ADMIT, FEED_SILENT, FEED_DEGRADED_LAPSE). Without drover code
running nothing happens (R443). The oldest open access unit closes AU_TIMEOUT after its newest packet; the closed one with the
least closing stamp is admitted, or dropped, and is open no more; without one nothing happens. A feed that has accepted nothing
for SILENT ms reads SILENT, and a degraded one reads RUNNING again 1,000 ms after its last flagged access unit. COMPLETES (exec
answers next t, by hypotheses on state and operands alone): auTimeout, auAdmit, feedSilent, feedDegradedLapse. -/
def Obligations.AccessUnits : Prop :=
  ∀ (f : Fin 512) (s : State) (st : FeedSt), Store.find f.val s.feeds = some st →
    let p := feedE f.val
    (s.drvRuns = false → exec (.auTimeout f) s = .next s ∧ exec (.auAdmit f) s = .next s ∧ exec (.feedSilent f) s = .next s ∧
      exec (.feedDegradedLapse f) s = .next s) ∧
    (∀ a, s.drvRuns = true → st.aus.find? (fun a => a.closing.isNone) = some a → s.ingressAt (a.newest + s.auTimeoutNs f.val) = true →
      completes (.auTimeout f) s fun t =>
        Store.find f.val t.feeds = some { st with
          aus := mapWhere (fun x => decide (x.ts = a.ts)) (OpenAu.close (a.newest + s.auTimeoutNs f.val) false) st.aus }) ∧
    ((∀ a ∈ st.aus, a.closing.isSome = true) → exec (.auTimeout f) s = .next s) ∧
    ((∀ a ∈ st.aus, a.closing = none) → exec (.auAdmit f) s = .next s) ∧
    (∀ x, s.drvRuns = true → nextAu st.aus = some x → s.ingressAt (s.auStamp f.val st x) = true →
      s.bayHeld (s.rd p FEEDD_RING_RING_BAY) (s.rd p FEEDD_RING_RING_GEN) = true → st.pset = false →
      let st' := { st with aus := st.aus.filter fun y => decide (y.ts ≠ x.ts) }
      let a := s.auStamp f.val st x
      let data := annexB (assemble (decide (s.rd p FEEDD_W00_CODEC = 1)) none (pktSort x.pkts))
      (s.auDrops f.val st' a data.length = true → completes (.auAdmit f) s fun t =>
        t.rd p FEEDD_W64_DROPPED = (s.rd p FEEDD_W64_DROPPED + 1) % 2 ^ FEEDD_W64_DROPPED.w ∧
        ∃ st2, Store.find f.val t.feeds = some st2 ∧ st2.aus = st'.aus ∧ st2.gap = true) ∧
      (s.auDrops f.val st' a data.length = false →
        exec (.auAdmit f) s = .next ((s.ingressTo a).auWrite f.val st' x a data false))) ∧
    (s.drvRuns = true → (s.rd p FEEDD_W44_HEALTH = 2 ∨ s.rd p FEEDD_W44_HEALTH = 3) → completes (.feedSilent f) s fun t =>
      t.rd p FEEDD_W44_HEALTH = 4 ∧
      st.lastAcc + (if s.rd p FEEDD_W40_SILENT = 0 then 1000 else s.rd p FEEDD_W40_SILENT) * 1000000 < t.now) ∧
    (s.rd p FEEDD_W44_HEALTH ≠ 2 → s.rd p FEEDD_W44_HEALTH ≠ 3 → exec (.feedSilent f) s = .next s) ∧
    (∀ a, s.drvRuns = true → st.flaggedAt = some a → s.rd p FEEDD_W44_HEALTH = 3 → completes (.feedDegradedLapse f) s fun t =>
      t.rd p FEEDD_W44_HEALTH = 2 ∧ a + 1000000000 ≤ t.now)

/-- R36, R204, R205, R206, R227: a decoder pipeline's schedule (DEC_SLOT_WRITE, DEC_SLOT_SWAP_REQUEST, DEC_FLUSH). A slot write
reads back at once, after which a pipeline without work stands at the wrap, and is refused where the feed it names is bound to
another pipeline; a swap is made at once in an idle pipeline and waits for the wrap in one with work; a flush of a feed bound
elsewhere is refused, one of the picture in progress waits for the picture boundary, and one of a feed bound to none empties its
decoded picture buffer. The page of a fenced pipeline answers nothing of this. COMPLETES (exec answers next t, by hypotheses on
state and operands alone): decSlotWrite, decSlotSwapRequest, decFlush. -/
def Obligations.DecoderSchedule : Prop :=
  ∀ (w : Writer) (n : Fin 8) (s : State),
    let p := pg .dec n.val
    (∀ copyB (slot : Fin 64) v f, s.pageFenced .dec n.val = true →
      exec (.decSlotWrite w n copyB slot v) s =
        .next (s.fencedWrite w (p + (if copyB then 0x300 else 0x200) + 4 * slot.val) (BitVec.toNat v)) ∧
      exec (.decSlotSwapRequest w n) s = .next (s.missRecord w .write (p + 0x100)) ∧
      exec (.decFlush w n f) s = .next (s.missRecord w .write (p + 0x11C))) ∧
    (s.pageFenced .dec n.val = false →
      (∀ copyB (slot : Fin 64) (v : Word) m, bit v.toNat 15 = true → s.decHolder n.val (v.toNat % 512) = some m →
        completes (.decSlotWrite w n copyB slot v) s fun t => onlyRegsEv [] p s t) ∧
      (∀ copyB (slot : Fin 64) (v : Word), bit v.toNat 15 = false ∨ s.decHolder n.val (v.toNat % 512) = none →
        completes (.decSlotWrite w n copyB slot v) s fun t =>
          let f := if copyB then DEC_SLOTB_FEED slot.val else DEC_SLOTA_FEED slot.val
          let b := if copyB then DEC_SLOTB_VALID slot.val else DEC_SLOTA_VALID slot.val
          t.rd p f = v.toNat % 512 ∧ t.on p b = bit v.toNat 15 ∧
          ∃ u, onlyRegs [fkey p f, fkey p b] { s with dec := u.dec } u ∧ t = u.decRest n.val) ∧
      (s.decIdle n.val = true → completes (.decSlotSwapRequest w n) s fun t =>
        t.on p DEC_SCHED_CTRL_ACTIVE = !s.on p DEC_SCHED_CTRL_ACTIVE ∧ t.on p DEC_SCHED_CTRL_SWAP = false ∧
        t.on p DEC_SCHED_CTRL_IDLE = true) ∧
      (s.decIdle n.val = false → completes (.decSlotSwapRequest w n) s fun t =>
        t.on p DEC_SCHED_CTRL_SWAP = true ∧ onlyRegs [fkey p DEC_SCHED_CTRL_SWAP] s t) ∧
      (∀ (f : Fin 512) m, s.decHolder n.val f.val = some m →
        completes (.decFlush w n f) s fun t => onlyRegsEv [] p s t) ∧
      (∀ f : Fin 512, s.decHolder n.val f.val = none → (s.pipe n.val).job = none → completes (.decFlush w n f) s fun t =>
        (t.decFeed f.val).dpb = [] ∧ (t.decFeed f.val).outs = [] ∧ (t.decFeed f.val).fresh = true) ∧
      (∀ (f : Fin 512) j, s.decHolder n.val f.val = none → (s.pipe n.val).job = some j → j.feed = f.val →
        completes (.decFlush w n f) s fun t =>
          (t.pipe n.val).flushes = (s.pipe n.val).flushes ++ [f.val] ∧ t = { s with dec := t.dec }))

/-- R204, R210, R216, R217: decoding (DEC_PICTURE_START, AU_RECORD_CONSUME, DEC_PICTURE_DONE, CANDIDATE_EXPIRE). A pipeline that is
enabled, with its clock and no picture in progress, takes the slot its schedule gives, which becomes the current one; without
work it stands idle. Consuming the access unit advances AU_RD once; the picture ends at its boundary, and with no picture of the
feed named nothing happens. The oldest candidate loses its place when KEEP has passed since a later picture. COMPLETES (exec
answers next t, by hypotheses on state and operands alone): auRecordConsume, candidateExpire, decPictureStart, decPictureDone. -/
def Obligations.DecoderPictures : Prop :=
  ∀ (n : Fin 8) (sw : Nat) (g : Fin 512) (s : State),
    let p := pg .dec n.val
    let d := s.pipe n.val
    (s.enabled p = false ∨ s.pll 2 = false ∨ d.job.isSome = true → exec (.decPictureStart n sw) s = .next s) ∧
    (s.enabled p = true → s.pll 2 = true → d.job = none →
      (∀ u, s.decChoose n.val = (none, u) → u.on p DEC_SCHED_CTRL_IDLE = true ∧ exec (.decPictureStart n sw) s = .next u) ∧
      (∀ i f u, s.decChoose n.val = (some (i, f), u) →
        u.rd p DEC_SCHED_CTRL_CUR = i ∧ u.on p DEC_SCHED_CTRL_IDLE = false ∧ u.decWork f = true ∧
        exec (.decPictureStart n sw) s = .next
          (if ((u.decTake n.val f sw).pipe n.val).job.isNone then ((u.decTake n.val f sw).snoopDone f).decRest n.val
           else u.decTake n.val f sw))) ∧
    (d.job = none → exec (.auRecordConsume n) s = .next s ∧ exec (.decPictureDone n g) s = .next s) ∧
    (∀ j, d.job = some j →
      (j.consumed = true → exec (.auRecordConsume n) s = .next s) ∧
      (j.consumed = false → completes (.auRecordConsume n) s fun t =>
        (t.pipe n.val).job = some { j with consumed := true } ∧
        t = { (s.decConsume j.feed) with dec := t.dec }) ∧
      (s.pll 2 = false ∨ j.feed ≠ g.val → exec (.decPictureDone n g) s = .next s) ∧
      (s.pll 2 = true → j.feed = g.val → ∀ a, j.held = some a → exec (.decPictureDone n g) s =
        .next ((((s.advanceTo a).decDone n.val j ((s.advanceTo a).decBody j)).snoopDone j.feed).cleanIrap j)) ∧
      (s.pll 2 = true → j.feed = g.val → j.held = none → s.unlocked = false → exec (.decPictureDone n g) s =
        .next (((s.decDone n.val j (s.decBody j)).snoopDone j.feed).cleanIrap j))) ∧
    (∀ f : Fin 512, (s.decFeed f.val).outs.length < 2 → exec (.candidateExpire f) s = .next s) ∧
    (∀ (f : Fin 512) x y l, (s.decFeed f.val).outs = x :: y :: l → completes (.candidateExpire f) s fun t =>
      (t.decFeed f.val).outs = y :: l ∧ y.time + s.decKeep f.val ≤ t.now)

/-- R36, R230, R233, R235: stalls and canvas commits (STALL_DESC_WRITE, CANVAS_COMMIT). A write of a stall's word sets the shadow
fields of that word and no other register changes; one that would change CANVAS while EN is 1 in shadow or active descriptor has
no effect (as a whole: the model's reading, log entry 72). A commit that is refused makes nothing captured, active or pending;
one that is accepted is pending until the next cut, or in force at once for an inactive canvas. COMPLETES (exec answers next t,
by hypotheses on state and operands alone): stallDescWrite, canvasCommit. -/
def Obligations.StallAndCommit : Prop :=
  ∀ (w : Writer) (s : State),
    (∀ (n : Fin 4096) (word : Fin 16) (v : Word),
      let p := stallE n.val
      let l := stallFields.filter fun f => decide (f.off = 4 * word.val)
      let keep := s.on p STL_W00_EN || decide (s.rdAct p STL_W00_EN = 1)
      ((word.val ≠ 0 ∨ keep = false ∨ fieldOf v.toNat STL_W00_CANVAS = s.rd p STL_W00_CANVAS) →
        completes (.stallDescWrite w n word v) s fun t =>
          onlyRegs (l.map (fkey p)) s t ∧ ∀ f ∈ l, t.rd p f = fieldOf v.toNat f) ∧
      (word.val = 0 → keep = true → fieldOf v.toNat STL_W00_CANVAS ≠ s.rd p STL_W00_CANVAS →
        exec (.stallDescWrite w n word v) s = .next s)) ∧
    (∀ (e : Fin 2) (c : Fin 64),
      (s.pageFenced .cmp e.val = true →
        exec (.canvasCommit w e c) s = .next (s.fencedWrite w (pg .cmp e.val + 0x400 + 32 * c.val) 2)) ∧
      (s.pageFenced .cmp e.val = false →
        (∀ r, s.judgeCommit e.val c.val = some r → completes (.canvasCommit w e c) s fun t =>
          t.act = s.act ∧ t.cap = s.cap ∧ (t.cv e.val c.val).pend = (s.cv e.val c.val).pend) ∧
        (s.judgeCommit e.val c.val = none → s.cvOn e.val c.val = true → completes (.canvasCommit w e c) s fun t =>
          (t.cv e.val c.val).pend = some (s.commitStalls e.val c.val) ∧ t.act = s.act) ∧
        (s.judgeCommit e.val c.val = none → s.cvOn e.val c.val = false → completes (.canvasCommit w e c) s fun t =>
          (t.cv e.val c.val).pend = none)))

/-- R234, R252, R253: epochs (EPOCH_CUT, EPOCH_COMMIT, EPOCH_WRITES_DRAIN). The cut of an active canvas is not passed before its
time; r_n takes the oldest epoch off the begun ones, whether it commits or is missed; the writes of a missed epoch drain oldest
first. With no epoch there nothing happens. COMPLETES (exec answers next t, by hypotheses on state and operands alone):
epochCut, epochCommit, epochWritesDrain. -/
def Obligations.Epochs : Prop :=
  ∀ (e : Fin 2) (c : Fin 64) (s : State),
    (s.cvOn e.val c.val = true → completes (.epochCut e c) s fun t =>
      (s.cvAct e.val c.val).cut (s.cv e.val c.val).next ≤ t.now) ∧
    (s.cvOn e.val c.val = false → completes (.epochCut e c) s fun t => t.time = s.time ∧ t.act = s.act ∧ t.cap = s.cap) ∧
    (∀ ack led, (s.cv e.val c.val).begun = [] → exec (.epochCommit e c ack led) s = .next s) ∧
    (∀ ack led x l, (s.cv e.val c.val).begun = x :: l → completes (.epochCommit e c ack led) s fun t =>
      (t.cv e.val c.val).begun = l ∧ x.ready ≤ t.now) ∧
    ((s.cv e.val c.val).drains = [] → exec (.epochWritesDrain e c) s = .next s) ∧
    (∀ x l, (s.cv e.val c.val).drains = x :: l → completes (.epochWritesDrain e c) s fun t =>
      (t.cv e.val c.val).drains = l)

/-- R261 to R264: starting a frame and committing a head (FRAME_START, VMIN_REACHED, HEAD_COMMIT, COMMIT_WINDOW_CLOSE). A head that
is disabled, in a frame, or outside its canvas, and any head while the core PLL is unlocked (R443), starts none; else, with a
bay ready, or one to repeat, a frame begins, in fixed timing only at r_n. With no bay ready when VMIN has passed, PHASE becomes
WAIT. A commit after the window has closed is late; the window closes once, and judges then. COMPLETES (exec answers next t, by
hypotheses on state and operands alone): frameStart, vminReached, headCommit, commitWindowClose. -/
def Obligations.HeadFrameStart : Prop :=
  ∀ (w : Writer) (h : Fin 64) (s : State),
    let i := h.val
    let p := hdP i
    let x := s.hd i
    let g := s.geoAct i
    (s.pll 0 = false ∨ s.enabled p = false ∨ x.inFrame = true ∨ s.mayStart i = false → exec (.frameStart h) s = .next s) ∧
    (s.pll 0 = true → s.enabled p = true → x.inFrame = false → s.mayStart i = true →
      ((g.fixed && g.member) = true → x.fixedDue = none → exec (.frameStart h) s = .next s) ∧
      ((g.fixed && g.member) = false → (s.advanceRun (s.blankAt x g.vmin)).bayReady i = true →
        completes (.frameStart h) s fun t => (t.hd i).inFrame = true ∧ (t.hd i).sent = 0 ∧ (t.hd i).run = 0) ∧
      ((g.fixed && g.member) = false → (s.advanceRun (s.blankAt x g.vmin)).bayReady i = false →
        ((x.shown = none ∨ x.blank = none ∨ g.fixed = true) →
          exec (.frameStart h) s = .next (s.advanceRun (s.blankAt x g.vmin))) ∧
        (∀ y b, x.shown = some y → x.blank = some b → g.fixed = false → completes (.frameStart h) s fun t =>
          (t.hd i).inFrame = true ∧ (t.hd i).sent = 0 ∧ (t.hd i).run = x.run + 1))) ∧
    (s.enabled p = true → x.inFrame = false → s.rd p HD_STATE_PHASE = 3 →
      (s.advanceRun (s.blankAt x g.vmin)).bayReady i = false → completes (.vminReached h) s fun t =>
        t.rd p HD_STATE_PHASE = 4) ∧
    (s.on p HD_COMMIT_COMMIT = true → exec (.headCommit w h) s = .next s) ∧
    (s.on p HD_COMMIT_COMMIT = false → (s.enabled p = false ∨ x.closed = false) → completes (.headCommit w h) s fun t =>
      t.on p HD_COMMIT_COMMIT = true ∧ onlyRegs [fkey p HD_COMMIT_COMMIT] s t) ∧
    (s.on p HD_COMMIT_COMMIT = false → s.enabled p = true → x.closed = true → completes (.headCommit w h) s fun t =>
      t.on p HD_COMMIT_COMMIT = true ∧ t.on p HD_COMMIT_LATE = true ∧
      t.rd p HD_LATE_COUNT = satAdd HD_LATE_COUNT.w (s.rd p HD_LATE_COUNT) 1) ∧
    (x.inFrame = false ∨ x.closed = true → exec (.commitWindowClose h) s = .next s) ∧
    (x.inFrame = true → x.closed = false → completes (.commitWindowClose h) s fun t =>
      (t.hd i).closed = true ∧ (s.on p HD_COMMIT_COMMIT = true →
        (t.hd i).accepted = true ∨ t.on p HD_COMMIT_REFUSED = true ∧ t.on p HD_COMMIT_COMMIT = false))

/-- R260, R266, R267, R270, R281: the frame in progress (LINE_DUE, SCANOUT_READ_COMPLETE, END_OF_ACTIVE, HEAD_DISABLE,
CRC_HOLD_CLEAR). A line whose data is in the banks is handed over at its time, one whose data is not aborts the frame; a read
brings in the next line; after the last line the frame ends and blanking begins; a disable ends everything the head did. CRC
holds end for the canvases whose bits are written 1, and for no other. COMPLETES (exec answers next t, by hypotheses on state
and operands alone): lineDue, scanoutReadComplete, endOfActive, headDisable, crcHoldClear. -/
def Obligations.HeadLines : Prop :=
  ∀ (w : Writer) (h : Fin 64) (s : State),
    let i := h.val
    let x := s.hd i
    (s.pll 0 = false ∨ x.frames = [] ∨ x.inFrame = false ∨ x.geo.vAct ≤ x.sent → exec (.lineDue h) s = .next s) ∧
    (s.pll 0 = true → x.frames ≠ [] → x.inFrame = true → x.sent < x.geo.vAct →
      ((x.bank.find? fun b => decide (b.line = x.sent)).isSome = true → completes (.lineDue h) s fun t =>
        (t.hd i).sent = x.sent + 1 ∧ (t.hd i).inFrame = true) ∧
      ((x.bank.find? fun b => decide (b.line = x.sent)) = none → completes (.lineDue h) s fun t =>
        (t.hd i).inFrame = false)) ∧
    (x.inFrame = false ∨ x.geo.vAct ≤ x.fetched ∨ x.sent + 4 ≤ x.fetched ∨ x.last = none →
      exec (.scanoutReadComplete h) s = .next s) ∧
    (∀ bay, x.inFrame = true → x.fetched < x.geo.vAct → x.fetched < x.sent + 4 → x.last = some bay →
      completes (.scanoutReadComplete h) s fun t => (t.hd i).fetched = x.fetched + 1) ∧
    (x.frames = [] ∨ x.inFrame = false ∨ x.sent < x.geo.vAct → exec (.endOfActive h) s = .next s) ∧
    (x.frames ≠ [] → x.inFrame = true → x.geo.vAct ≤ x.sent → completes (.endOfActive h) s fun t =>
      (t.hd i).inFrame = false) ∧
    (s.enabled (hdP i) = false → exec (.headDisable w h) s = .next s) ∧
    (s.enabled (hdP i) = true → completes (.headDisable w h) s fun t =>
      Store.find i t.heads = none ∧
      (x.inFrame = false → s.enc = [] → (∀ e, (s.cv e x.geo.canvas).closing = false) → t.enabled (hdP i) = false)) ∧
    (∀ (e : Fin 4) (hi : Bool) (v : Word), s.pageFenced .gate e.val = true → exec (.crcHoldClear w e hi v) s =
      .next (s.missRecord w .write (gtP e.val + (if hi then GATE_CRC_HOLD_HI_HOLD else GATE_CRC_HOLD_LO_HOLD).off))) ∧
    (∀ (e : Fin 4) (hi : Bool) (v : Word), s.pageFenced .gate e.val = false → completes (.crcHoldClear w e hi v) s fun t =>
      let f := if hi then GATE_CRC_HOLD_HI_HOLD else GATE_CRC_HOLD_LO_HOLD
      (∀ j, j < 32 → bit (t.rd (gtP 0) f) j = (bit (s.rd (gtP 0) f) j && !bit v.toNat j)) ∧
      onlyRegs [fkey (gtP 0) f] s t)

/-- R285, R287, R289, R299, R300, R311: a Belja lane. A lane that does not carry Belja, or has nothing queued, sends nothing; else
the packet that its schedule picks goes out, as code groups from /S/ to /T/ with an /I/ after it, and the lane is busy with it,
or is discarded with its PLL lost. An IDLE packet is queued for a head without one; a schedule word of the copy not in use takes
what is written; a swap waits on each lane for its wrap. Which of two pages that share a quad sends first is the model's choice
(log entry 146). COMPLETES (exec answers next t, by hypotheses on state and operands alone): beljaPacketSend, beljaIdleTimer,
blLaneWrap, blSchedWrite, blSchedSwapRequest. -/
def Obligations.BeljaLanes : Prop :=
  ∀ (w : Writer) (l : Fin 64) (s : State),
    let i := l.val
    ((s.lnRun i).1 ≠ 2 ∨ s.laneTurn i = none → exec (.beljaPacketSend l) s = .next s) ∧
    ((∀ e, e < 4 → (s.bl e i).queue = []) → exec (.beljaPacketSend l) s = .next s) ∧
    (∀ e, (s.lnRun i).1 = 2 → s.laneTurn i = some e →
      (∀ v, (s.laneFree i).blPick e i = (none, v) → exec (.beljaPacketSend l) s = .next v) ∧
      (∀ q k v, (s.laneFree i).blPick e i = (some (q, k), v) →
        (v.lnLocked i = false → exec (.beljaPacketSend l) s = .next (v.cnt (lnP i) LN_TX_DROP_COUNT 1)) ∧
        (v.lnLocked i = true → completes (.beljaPacketSend l) s fun t =>
          (∃ r, t.out = v.out ++ .belja i (packetGroups (v.blBytes q)) :: r) ∧
          (t.bl e i).busy = v.time.run + v.pktTime i q.payload.length ∧ (t.bl e i).slot = k ∧
          (t.bl e i).queue = (v.bl e i).queue))) ∧
    (∀ h : Fin 64, let e := (s.geoAct h.val).engine
      (s.lnRun i).1 = 2 → s.lnLocked i = true → s.enabled (hdP h.val) = true → (s.quadBls (i / 4)).contains e = true →
      (s.laneHeads e i).contains h.val = true → (∀ q ∈ (s.bl e i).queue, q.head ≠ h.val) → completes (.beljaIdleTimer l h) s fun t =>
        ∃ y, (t.bl e i).queue = (s.bl e i).queue ++ [y] ∧ y.head = h.val ∧ y.typ = 5 ∧ y.group = 0xFFFC) ∧
    (∀ h : Fin 64, (s.lnRun i).1 ≠ 2 → exec (.beljaIdleTimer l h) s = .next s ∧ exec (.blLaneWrap l) s = .next s) ∧
    (∀ e, (s.lnRun i).1 = 2 → s.quadBls (i / 4) = [e] → (s.laneFree i).nextSlot e i = none → completes (.blLaneWrap l) s fun t =>
      (t.bl e i).pos = 0) ∧
    (∀ (e : Fin 4) copy hi (v : Word), s.pageFenced .bl e.val = false → copy ≠ (s.bl e.val i).copy →
      completes (.blSchedWrite w e copy l hi v) s fun t => ∀ j, j < 4 →
        let f := slotFlds copy i ((if hi then 4 else 0) + j)
        t.rd (blP e.val) f.1 = bits v.toNat (8 * j) 6 ∧ t.on (blP e.val) f.2 = bit v.toNat (8 * j + 7)) ∧
    (∀ e : Fin 4, s.pageFenced .bl e.val = false → s.on (blP e.val) BL_SCHED_CTRL_SWAP = false →
      (∀ a b, s.slotless e.val (fun _ => !s.on (blP e.val) BL_SCHED_CTRL_ACTIVE) (fun _ => true) = some (a, b) →
        exec (.blSchedSwapRequest w e) s = .next (s.emit (blP e.val) 0x0801 [a, b, 0])) ∧
      (s.slotless e.val (fun _ => !s.on (blP e.val) BL_SCHED_CTRL_ACTIVE) (fun _ => true) = none →
        completes (.blSchedSwapRequest w e) s fun t => ∀ a ∈ s.blRun e.val,
          (t.bl e.val a).swap = ((t.bl e.val a).copy == s.on (blP e.val) BL_SCHED_CTRL_ACTIVE))) ∧
    (∀ e : Fin 4, s.pageFenced .bl e.val = false → s.on (blP e.val) BL_SCHED_CTRL_SWAP = true →
      exec (.blSchedSwapRequest w e) s = .next s)

/-- R286, R304 to R308: the reference receiver. Alignment of a lane is gained, at its input's configured rate on a lane of the
configuration alone, and lost; a packet on a lane without it is discarded, a valid one for the configured head is taken, and any
other counts as invalid; a due line is shown once, and counts as missed unless it is its own frame's; with nothing valid for
T_LOSS it blanks; and a status begins with its signature, head, current unit and flags. COMPLETES (exec answers next t, by
hypotheses on state and operands alone): receiverAlignAcquire, receiverAlignLoss, receiverPacket, receiverLinePresent,
receiverLossTimeout, receiverStatusSend. -/
def Obligations.ReferenceReceiver : Prop :=
  ∀ (h : Fin 64) (input : Fin 2) (lane : Fin 4) (s : State),
    let i := h.val
    let x := s.rcv i
    let k := input.val * 4 + lane.val
    (∀ rate, lane.val < x.lanesOf input.val → x.cfg.rates.getD input.val 0 = rate → completes (.receiverAlignAcquire h input ⟨lane, rate⟩) s fun t =>
      (t.rcv i).aligned.contains k = true ∧ t = { s with rcvs := t.rcvs }) ∧
    (∀ rate, x.lanesOf input.val ≤ lane.val ∨ x.cfg.rates.getD input.val 0 ≠ rate →
      exec (.receiverAlignAcquire h input ⟨lane, rate⟩) s = .next s) ∧
    (completes (.receiverAlignLoss h input lane) s fun t =>
      (t.rcv i).aligned.contains k = false ∧ t = { s with rcvs := t.rcvs }) ∧
    (∀ clean d,
      (x.aligned.contains k = false → exec (.receiverPacket h input lane clean d) s = .next s) ∧
      (x.aligned.contains k = true → (clean && x.valid x.cfg.head d) = true → completes (.receiverPacket h input lane clean d) s fun t =>
        t.rcv i = (x.timed s.time.run).packet i input.val s.time.run d) ∧
      (x.aligned.contains k = true → (clean && x.valid x.cfg.head d) = false → completes (.receiverPacket h input lane clean d) s fun t =>
        t.rcv i = { x with invalid := (x.invalid + 1) % 2 ^ 32 })) ∧
    (duePair (Config.rcvDelay i) x.frames = none → exec (.receiverLinePresent h) s = .next s) ∧
    (∀ f p, duePair (Config.rcvDelay i) x.frames = some (f, p) → completes (.receiverLinePresent h) s fun t =>
      (∃ n b, t.out = s.out ++ [.shown i f.next n b] ∧ ((x.timed t.time.run).blanked = true → n = 2 ∧ b = []) ∧
        (∀ d, (x.timed t.time.run).blanked = false → Store.find f.next f.lines = some d → n = 0 ∧ b = d) ∧
        (t.rcv i).missed = if n = 0 then x.missed else (x.missed + 1) % 2 ^ 32) ∧
      f.at_ (Config.rcvDelay i) f.next ≤ t.time.run) ∧
    (x.blanked = true → exec (.receiverLossTimeout h) s = .next s) ∧
    (x.blanked = false → completes (.receiverLossTimeout h) s fun t =>
      t.rcv i = { x with blanked := true } ∧ x.lossAt ≤ t.time.run) ∧
    (completes (.receiverStatusSend h) s fun t =>
      ∃ b, t = { s with out := s.out ++ [.rcvStatus i b] } ∧ b.length = 28 ∧
        b.take 7 = [0x42, 0x4C, 0x4A, 0x53, 1, x.cfg.head, x.cur])

/-- R310, R311, R314, R316: serial links. A PLL that runs locks, once its reference clock is present, and the test patterns of its
lanes begin; it loses lock with a count and a retry 1 ms later; retries follow 1 ms apart. Loss of signal and clock recovery
read as the lane's input gives them, on lanes that receive. An unlocked pattern checker locks on 64 bits that its pattern gives,
and on no others; a locked one counts a bit that its pattern does not give, and unlocks with more than 16 such among the latest
64. An injected error waits while no pattern is sent. COMPLETES (exec answers next t, by hypotheses on state and operands
alone): pllLocked, pllLost, pllRetry, cdrLockChange, losChange, patternCheckLock, injectOne. -/
def Obligations.LinkLanes : Prop :=
  ∀ (w : Writer) (s : State),
    (∀ (q : Fin 16) (k : Fin 2),
      let p := pg .ln (4 * q.val)
      let f := pllFlds k.val
      let key := 2 * q.val + k.val
      let ref := s.on (pg .clk 0) (s.pllRef q.val k.val)
      (s.on p f.1 = false ∨ s.on p f.2.1 = true ∨ ref = false → exec (.pllLocked q k) s = .next s) ∧
      (s.on p f.1 = true → s.on p f.2.1 = false → ref = true → completes (.pllLocked q k) s fun t =>
        t.on p f.2.1 = true ∧ Store.find key t.pllRetry = none ∧
        onlyRegsEv (fkey p f.2.1 :: (upTo 4).map fun i => fkey (lnP (4 * q.val + i)) LN_PAT_CTRL_INJ_ONE) p
          { s with pllRetry := t.pllRetry, pats := t.pats, freeCtr := t.freeCtr } t) ∧
      (s.on p f.1 = true → s.on p f.2.1 = true → completes (.pllLost q k) s fun t =>
        t.on p f.2.1 = false ∧ t.rd p LN_QLOSS_COUNT = satAdd LN_QLOSS_COUNT.w (s.rd p LN_QLOSS_COUNT) 1 ∧
        Store.find key t.pllRetry = some (s.time.run + ns 1000000)) ∧
      (Store.find key s.pllRetry = none → exec (.pllRetry q k) s = .next s) ∧
      (∀ a, Store.find key s.pllRetry = some a → completes (.pllRetry q k) s fun t =>
        Store.find key t.pllRetry = some (a + ns 1000000) ∧ a ≤ t.time.run)) ∧
    (∀ l : Fin 64,
      let p := lnP l.val
      (∀ b, s.lnRx l.val = false → exec (.losChange l b) s = .next s ∧ exec (.cdrLockChange l b) s = .next s) ∧
      (∀ b, s.lnRx l.val = true → completes (.cdrLockChange l b) s fun t =>
        t.on p LN_ST_CDR = b ∧ onlyRegs [fkey p LN_ST_CDR] s t) ∧
      (∀ b, s.lnRx l.val = true → s.on p LN_ST_LOS ≠ b → completes (.losChange l b) s fun t =>
        t.on p LN_ST_LOS = b ∧
        t.rd p LN_LOS_COUNT_COUNT = (if b then satAdd LN_LOS_COUNT_COUNT.w (s.rd p LN_LOS_COUNT_COUNT) 1
          else s.rd p LN_LOS_COUNT_COUNT) ∧
        onlyRegsEv [fkey p LN_ST_LOS, fkey p LN_LOS_COUNT_COUNT] p s t) ∧
      (s.lnTest l.val = false ∨ patOn (s.rd p LN_PAT_CTRL_CHK) = false → ∀ rx good more,
        exec (.patternCheckLock l rx good more) s = .next s) ∧
      (∀ rx good more, s.lnTest l.val = true → patOn (s.rd p LN_PAT_CTRL_CHK) = true →
        completes (.patternCheckLock l rx good more) s fun t =>
          onlyRegsEv [fkey p LN_PAT_CTRL_LOCKED, fkey p LN_PAT_ERR_COUNT, fkey p LN_PAT_BITS_COUNT] p { s with pats := t.pats } t) ∧
      (∀ rx : List Bool, s.lnTest l.val = true → patOn (s.rd p LN_PAT_CTRL_CHK) = true → s.on p LN_PAT_CTRL_LOCKED = false →
        (s.pat l.val).rx = [] → rx.length = 64 → completes (.patternCheckLock l rx 0 []) s fun t =>
          t.on p LN_PAT_CTRL_LOCKED =
            patFits (s.rd p LN_PAT_CTRL_CHK) (s.rd p LN_PAT_WORD_WORD) (rx.map (· != s.on p LN_CFG_RX_POL)).reverse) ∧
      (∀ b : Bool, s.lnTest l.val = true → patOn (s.rd p LN_PAT_CTRL_CHK) = true → s.on p LN_PAT_CTRL_LOCKED = true →
        completes (.patternCheckLock l [b] 0 []) s fun t =>
          let bad := (b != s.on p LN_CFG_RX_POL) != patNext (s.rd p LN_PAT_CTRL_CHK) (s.pat l.val).rx
          t.rd p LN_PAT_ERR_COUNT = satAdd LN_PAT_ERR_COUNT.w (s.rd p LN_PAT_ERR_COUNT) (b2n bad) ∧
          t.on p LN_PAT_CTRL_LOCKED = decide (((bad :: (s.pat l.val).errs).take 64).count true ≤ 16)) ∧
      (completes (.injectOne w l) s fun t =>
        t.on p LN_PAT_CTRL_INJ_ONE = !(s.lnTest l.val && patOn (s.rd p LN_PAT_CTRL_GEN)) ∧
        t.out = s.out ++ (if s.lnTest l.val && patOn (s.rd p LN_PAT_CTRL_GEN) then [.injected l.val] else []) ∧
        onlyRegs [fkey p LN_PAT_CTRL_INJ_ONE] { s with out := t.out, pats := t.pats } t))

/-- R320 to R324: check-value units. Bytes written by the unit's owner enter the register tap's block, END closes it into a result
with the value of the block and its tag, while the queue has room, and reading a result's high half pops it. Anyone else's
writes change nothing. A write snoop forms a block of each request that it has taken, in their order, or with ACCUM one block of
all their bytes. COMPLETES (exec answers next t, by hypotheses on state and operands alone): cvuDataWrite, cvuDataBWrite,
cvuEnd, cvuResultPop, cvuSnoopBlock. -/
def Obligations.CheckValueUnits : Prop :=
  ∀ (w : Writer) (u : Fin 24) (s : State), s.pageFenced .cvu u.val = false →
    let p := cvuP u.val
    let x := s.cvu u.val
    (s.cvuMine w u.val = true → s.rd p CVU_CFG_TAP = 0 →
      (∀ v, completes (.cvuDataWrite w u v) s fun t => t.cvu u.val = { x with data := x.data ++ le v.toNat 4 } ∧
        t = { s with cvus := t.cvus }) ∧
      (∀ v, completes (.cvuDataBWrite w u v) s fun t => t.cvu u.val = { x with data := x.data ++ [v.toNat] } ∧
        t = { s with cvus := t.cvus }) ∧
      (s.rd p CVU_CFG_MODE = 0 → x.queue.length < 16 → completes (.cvuEnd w u) s fun t =>
        let a := x.first.getD 0
        (t.cvu u.val).queue = x.queue ++ [(s.cvuValue u.val (s.cvuFold u.val a ++ x.data), s.cvuTag u.val a)] ∧
        (t.cvu u.val).data = [] ∧ t.rd p CVU_BLOCKS_COUNT = satAdd CVU_BLOCKS_COUNT.w (s.rd p CVU_BLOCKS_COUNT) 1) ∧
      (s.rd p CVU_CFG_MODE = 0 → 16 ≤ x.queue.length → completes (.cvuEnd w u) s fun t =>
        (t.cvu u.val).queue = x.queue ∧ (t.cvu u.val).data = [] ∧ t.on p CVU_RES_STAT_OVF = true ∧
        t.rd p CVU_LOST_COUNT = satAdd CVU_LOST_COUNT.w (s.rd p CVU_LOST_COUNT) 1)) ∧
    (s.cvuMine w u.val = false →
      (∀ v, exec (.cvuDataWrite w u v) s = .next s) ∧ (∀ v, exec (.cvuDataBWrite w u v) s = .next s) ∧
      exec (.cvuEnd w u) s = .next s) ∧
    (x.queue = [] → exec (.cvuResultPop w u) s = .next { s with rdata := 0 }) ∧
    (∀ v tag l, x.queue = (v, tag) :: l → s.ownedBy w.fid (cvuIdx u.val) = true → completes (.cvuResultPop w u) s fun t =>
      t.rdata = v / 2 ^ 32 ∧ (t.cvu u.val).queue = l ∧
      onlyRegs [fkey p CVU_RES_STAT_USED] { s with rdata := t.rdata, cvus := t.cvus } t) ∧
    (∀ v tag l, x.queue = (v, tag) :: l → s.ownedBy w.fid (cvuIdx u.val) = false → s.rd p CVU_CFG_TAP < 2 →
      exec (.cvuResultPop w u) s = .next { s with rdata := v / 2 ^ 32 }) ∧
    (∀ k, s.enabled p = false → exec (.cvuSnoopBlock u k) s = .next s) ∧
    (∀ k, s.enabled p = true → s.rd p CVU_CFG_TAP = 1 → s.on p CVU_CFG_ACCUM = true → completes (.cvuSnoopBlock u k) s fun t =>
      t.cvu u.val = { x with
        first := (match x.first with | some a => some a | none => (x.seen.head?).map (·.1))
        data := x.data ++ x.seen.flatMap (·.2), seen := [] } ∧ t = { s with cvus := t.cvus }) ∧
    (∀ k, s.enabled p = true → s.rd p CVU_CFG_TAP = 1 → s.on p CVU_CFG_ACCUM = false → x.seen = [] →
      exec (.cvuSnoopBlock u k) s = .next s) ∧
    (∀ k a d l, s.enabled p = true → s.rd p CVU_CFG_TAP = 1 → s.on p CVU_CFG_ACCUM = false → x.seen = (a, d) :: l →
      s.rd p CVU_CFG_MODE = 0 → x.queue.length < 16 → completes (.cvuSnoopBlock u k) s fun t =>
        (t.cvu u.val).queue = x.queue ++ [(s.cvuValue u.val (s.cvuFold u.val a ++ d), s.cvuTag u.val a)] ∧ (t.cvu u.val).seen = l)

/-- R327, R328, R330, R332, R336, R337, R339: recording channels. A write of ENC_CH_CTRL to a fenced pipeline goes to the default
target, and one with EN 0 sets its fields, one that R327 refuses only shows the cause, and one it does not starts the channel
empty; clearing EN ends it. A completed record joins the channel's queue while that has room; a picture takes the oldest record
and ends with no picture in the pipeline, its VCL bits being those of the forms kept; the stream, while drover code runs,
consumes the oldest access unit. That a picture ends with what Config.encCode gives is the model's form (log entry 180). R333,
R334: what rate control makes of a coded picture. Under a cap that its floor does not exceed, the VCL bytes times 8 do not
exceed the cap, whatever the coder gives; there is a mode for every unit of every row; and the modes never go back. COMPLETES
(exec answers next t, by hypotheses on state and operands alone): encChannelEnable, tapRecordComplete, encStreamSend,
encPictureStart, encPictureDone. -/
def Obligations.RecordingChannels : Prop :=
  (∀ (w : Writer) (p : Fin 2) (k : Fin 32) (s : State),
     let q := encP p.val
     let i := p.val * 32 + k.val
     (∀ v : Word, s.pageFenced .enc p.val = true →
       exec (.encChannelEnable w p k v) s = .next (s.fencedWrite w (q + 0x400 + 64 * k.val) v.toNat)) ∧
     (∀ v : Word, s.pageFenced .enc p.val = false → s.on q (ENC_CH_CTRL_EN k.val) = true → bit v.toNat 0 = true →
       exec (.encChannelEnable w p k v) s = .next s) ∧
     (∀ (v : Word) x, s.pageFenced .enc p.val = false → s.on q (ENC_CH_CTRL_EN k.val) = true → bit v.toNat 0 = false → Store.find i s.enc = some x →
       completes (.encChannelEnable w p k v) s fun t => t.on q (ENC_CH_CTRL_EN k.val) = false ∧ Store.find i t.enc = none) ∧
     (∀ v : Word, s.pageFenced .enc p.val = false → s.on q (ENC_CH_CTRL_EN k.val) = false → bit v.toNat 0 = false → completes (.encChannelEnable w p k v) s fun t =>
       (∀ f ∈ chCtrlFields k.val, t.rd q f = fieldOf v.toNat f) ∧ onlyRegs ((chCtrlFields k.val).map (fkey q)) s t) ∧
     (∀ v : Word, s.on q (ENC_CH_CTRL_EN k.val) = false → bit v.toNat 0 = true → s.pageFenced .enc p.val = false →
       let u := s.setFields q (chCtrlFields k.val) v.toNat
       (∀ c, u.chRefusal p.val k.val = some c → completes (.encChannelEnable w p k v) s fun t =>
         t.rd q (ENC_CH_STAT_REFUSE k.val) = c ∧ t.on q (ENC_CH_CTRL_EN k.val) = false ∧ t.enc = s.enc) ∧
       (u.chRefusal p.val k.val = none → completes (.encChannelEnable w p k v) s fun t =>
         t.on q (ENC_CH_CTRL_EN k.val) = true ∧ t.on q (ENC_CH_STAT_IDR_NEXT k.val) = true ∧
         t.encRecs = s.encRecs ∧ ∃ y, Store.find i t.enc = some y ∧ y.queue = [] ∧ y.tap = none ∧ y.refs = [])) ∧
     (∀ x, Store.find i s.enc = some x →
       (x.ended = none → exec (.tapRecordComplete p k) s = .next s) ∧
       (∀ r, x.ended = some r → completes (.tapRecordComplete p k) s fun t =>
         ∃ y, Store.find i t.enc = some y ∧ y.ended = none ∧
           (r.bay < 4096 → x.queue.length ≤ s.rd q (ENC_CH_CTRL_QDEPTH k.val) →
             y.queue = x.queue ++ [r]))) ∧
     (s.drvRuns = false ∨ Store.getD [] i s.encRecs = [] → ∀ port sr, exec (.encStreamSend p k port sr) s = .next s) ∧
     (∀ r l port sr, s.drvRuns = true → Store.getD [] i s.encRecs = r :: l → completes (.encStreamSend p k port sr) s fun t =>
       Store.getD [] i t.encRecs = l ∧ t.rd q (ENC_CH_RD_OFFSET k.val) = (r.off + r.len) % 2 ^ (ENC_CH_RD_OFFSET k.val).w) ∧
     (s.enabled q = false ∨ s.pll 2 = false ∨ (Store.find p.val s.encJobs).isSome = true →
       exec (.encPictureStart p) s = .next s) ∧
     (s.enabled q = true → s.pll 2 = true → Store.find p.val s.encJobs = none → ∀ r x,
       s.encNext p.val = some (k.val, r) → Store.find i s.enc = some x →
       (s.encRing p.val k.val = true → completes (.encPictureStart p) s fun t =>
         ∃ y, Store.find i t.enc = some y ∧ y.queue = x.queue.drop 1) ∧
       (s.encRing p.val k.val = false → completes (.encPictureStart p) s fun t => Store.find i t.enc = none)) ∧
     (∀ c, Store.find p.val s.encJobs = none → exec (.encPictureDone p c) s = .next s) ∧
     (∀ c j x, Store.find p.val s.encJobs = some j → Store.find (p.val * 32 + j.ch) s.enc = some x →
       (s.encRing p.val j.ch = false → completes (.encPictureDone p c) s fun t => Store.find p.val t.encJobs = none) ∧
       (s.encRing p.val j.ch = true → c ≠ Config.encCode (s.encRead p.val j x).1 → exec (.encPictureDone p c) s = .next s) ∧
       (s.encRing p.val j.ch = true → c = Config.encCode (s.encRead p.val j x).1 → completes (.encPictureDone p c) s fun t =>
         Store.find p.val t.encJobs = none ∧ ∃ y, Store.find (p.val * 32 + j.ch) t.enc = some y ∧
           y.win = 8 * (codePicture j.cap (ctuDims j.rec_.w j.rec_.h).1 (ctuDims j.rec_.w j.rec_.h).2 j.idr c).2.length :: x.win.take 253 ∧
           y.sinceIdr = if j.idr then 0 else x.sinceIdr + 1))) ∧
  (∀ (cap w n : Nat) (idr : Bool) (c : EncCoded),
     let r := codePicture cap w n idr c
     (n * (256 + w * if idr then 48 else 16) ≤ cap → 8 * r.2.length ≤ cap) ∧
     r.1.length = n ∧ (∀ row ∈ r.1, row.length = w) ∧ r.1.flatten.Pairwise (· ≤ ·))

/-- R341, R342, R344, R345, R354, R357, R383: touch. A scan frame begins on an enabled page that is not mirrored, with its zones as
they stand, and ends once; a key frame advances the capture of the baselines, or the drift period; a mirrored page without
samples for 3 scan periods drops its contacts and captures afresh. In the stabled state no matrix is scanned (R357). A frame
takes the farrier's gains as they stand when it begins (R341). COMPLETES (exec answers next t, by hypotheses on state and
operands alone): scanFrameStart, scanFrameEnd, samplesLost, keyFrame. -/
def Obligations.TouchFrames : Prop :=
  ∀ (s : State),
    (∀ p : Fin 2, (s.enabled (tchP p.val) = false ∨ s.mirrorIn p.val = true ∨ (s.tchSt p.val).scanning = true ∨ 2 ≤ s.pwrState →
      exec (.scanFrameStart p) s = .next s) ∧
      (s.enabled (tchP p.val) = true → s.mirrorIn p.val = false → (s.tchSt p.val).scanning = false → s.pwrState < 2 →
        completes (.scanFrameStart p) s fun t =>
          (t.tchSt p.val).scanning = true ∧ (t.tchSt p.val).gains = (upTo 80).map (fun i => s.rd (pg .far 0) (FAR_VAL_VALUE (32 + 80 * p.val + i))) ∧ (t.tchSt p.val).zones = s.zonesOf p.val ∧
          (s.far.run = none → (t.tchSt p.val).calib = false) ∧ t = { s with tch := t.tch, far := t.far }) ∧
      (∀ m a b, (s.tchSt p.val).scanning = false → exec (.scanFrameEnd p m a b) s = .next s) ∧
      (∀ m a b, (s.tchSt p.val).scanning = true → completes (.scanFrameEnd p m a b) s fun t =>
        (t.tchSt p.val).scanning = false ∧ ((s.tchSt p.val).calib = true → t = { s with tch := t.tch })) ∧
      (s.enabled (tchP p.val) = false ∨ s.mirrorIn p.val = false ∨ (s.tchSt p.val).lost = true ∨ 2 ≤ s.pwrState →
        exec (.samplesLost p) s = .next s) ∧
      (s.enabled (tchP p.val) = true → s.mirrorIn p.val = true → (s.tchSt p.val).lost = false → s.pwrState < 2 →
        completes (.samplesLost p) s fun t =>
          (t.tchSt p.val).lost = true ∧ (t.tchSt p.val).owed = 0 ∧ (t.tchSt p.val).contacts = [] ∧ (t.tchSt p.val).init = some 0)) ∧
    (∀ l, s.enabled keyP = false → exec (.keyFrame l) s = .next s) ∧
    (∀ l i, s.enabled keyP = true → s.keys.init = some i → completes (.keyFrame l) s fun t =>
      t.keys.init = if keyInit ≤ i + 1 then none else some (i + 1)) ∧
    (∀ l, s.enabled keyP = true → s.keys.init = none → completes (.keyFrame l) s fun t =>
      t.keys.drift = if max 1 (s.rd keyP TCH_KEY_ANTI_DRIFT) ≤ s.keys.drift + 1 then 0 else s.keys.drift + 1)

/-- R363, R364, R384, R385, R387, R388, R394: claims. YK_LOWER only lowers the claim, on the odd device to 0 where the partner holds
that value; YK_SET by the MSS sets a value that passes its test and is refused otherwise, or by anyone else; a SET_CLAIM that is
one is held while fewer than 4 are, and the oldest one held takes effect where its signature and every other check pass. A
heartbeat goes, while the MSS is in service and whatever state the yoke is in, to the yardmaster's ports that are up, and counts
there. COMPLETES (exec answers next t, by hypotheses on state and operands alone): ykLower, ykSet, setClaim, heartbeat. -/
def Obligations.Claims : Prop :=
  ∀ (w : Writer) (v : BitVec 8) (s : State),
    (s.claim ≤ v.toNat → exec (.ykLower w v) s = .next s) ∧
    (v.toNat < s.claim → completes (.ykLower w v) s fun t =>
      (s.contact = false ∨ v.toNat = 0 ∨ v.toNat ≠ s.partnerClaim ∨ s.node % 2 = 0 → t.claim = v.toNat) ∧
      (s.contact = true → v.toNat = s.partnerClaim → s.node % 2 = 1 → s.yoke.link = false → t.claim = 0)) ∧
    (w ≠ .mss → exec (.ykSet w v) s = .next (s.emit ykP 0x3001 (le w.fid 2 ++ [v.toNat, 0]))) ∧
    (∀ k, w = .mss → s.setTest v.toNat = some k → exec (.ykSet w v) s = .next (s.emit ykP 0x3001 (le w.fid 2 ++ [v.toNat, k]))) ∧
    (w = .mss → s.setTest v.toNat = none → completes (.ykSet w v) s fun t => t.claim = v.toNat) ∧
    (∀ m, s.claimHeard m = false → exec (.setClaim (some m)) s = .next s) ∧
    (∀ m, s.claimHeard m = true → s.wrongSite = true → exec (.setClaim (some m)) s = .next (s.claimResult (recNum m.bytes 0xC 4) 2)) ∧
    (∀ m, s.claimHeard m = true → s.wrongSite = false → s.yoke.cmds.length < 4 → completes (.setClaim (some m)) s fun t =>
      t = { s with yoke := { s.yoke with cmds := s.yoke.cmds ++ [m.bytes] } }) ∧
    (∀ m, s.claimHeard m = true → s.wrongSite = false → 4 ≤ s.yoke.cmds.length →
      exec (.setClaim (some m)) s = .next (s.claimResult (recNum m.bytes 0xC 4) 6)) ∧
    (s.yoke.cmds = [] → exec (.setClaim none) s = .next s) ∧
    (∀ c l, s.yoke.cmds = c :: l → s.wrongSite = false → recNum c 0x20 1 < 256 →
      (Config.ecdsaOk ((s.mss.site.drop 0x40).take 96) (Config.sha384 (c.take 0x30)) ((c.drop 0x30).take 96) = true ∧
        bits (recNum c 8 2) 0 14 = s.node ∧ recNum c 0x18 8 = s.yoke.nonce ∧ s.now ≤ recNum c 0x28 8 ∧ s.setTest (recNum c 0x20 1) = none →
        completes (.setClaim none) s fun t => t.claim = recNum c 0x20 1 ∧ t.yoke.cmds = l) ∧
      (Config.ecdsaOk ((s.mss.site.drop 0x40).take 96) (Config.sha384 (c.take 0x30)) ((c.drop 0x30).take 96) = false ∨
        bits (recNum c 8 2) 0 14 ≠ s.node ∨ recNum c 0x18 8 ≠ s.yoke.nonce ∨ recNum c 0x28 8 < s.now ∨ (s.setTest (recNum c 0x20 1)).isSome = true →
        completes (.setClaim none) s fun t => t.claim = s.claim ∧ t.yoke.cmds = l ∧
          ∀ k, k ∉ s.txKeys → Store.find k t.regs = Store.find k s.regs)) ∧
    (s.mss.hold ≠ 0 ∨ s.bootStage < 6 → exec .heartbeat s = .next s) ∧
    (s.mss.hold = 0 → 6 ≤ s.bootStage → completes .heartbeat s fun t =>
      t.yoke.beat = t.time.run ∧ s.yoke.beat + ns (max 10 (min 1000 (s.rd ykP YK_HB_INT)) * 1000000) ≤ t.time.run ∧
      (s.on 0 SYS_NODE_VALID = false ∨ s.siteNum 0x30 4 = 0 ∨ s.wrongSite = true → t.out = s.out) ∧
      (s.on 0 SYS_NODE_VALID = true → s.siteNum 0x30 4 ≠ 0 → s.wrongSite = false →
        let up := s.netsUp (s.siteNum 0x30 4)
        (up ≠ 0 → ∃ b, t.out = s.out ++ [.datagram up s.ymDest b]) ∧ (up = 0 → t.out = s.out) ∧
        t.yoke.msgSeq = (s.yoke.msgSeq + 1) % 2 ^ 32 ∧
        (∀ n, n < 18 → t.rd (pg .net n) NET_TX_FRAMES_COUNT =
          satAdd NET_TX_FRAMES_COUNT.w (s.rd (pg .net n) NET_TX_FRAMES_COUNT) (b2n (bit up n)))) ∧
      ((∀ e, e < 8 → s.on tb (TB_RXL_RUN e) = false) → ∀ k, k ∉ s.txKeys → Store.find k t.regs = Store.find k s.regs))

/-- R370, R371, R373: the yoke link. It comes up at the largest width of aligned lanes while the unit is SEEKING with a valid node
number and not within the retry time; a frame that is not whole is discarded; a LINK frame without ACK or credit only renews the
silence timer; what is owed goes out; a channel without progress is resent, and a frame resent 8 times takes the link down; so
does silence. COMPLETES (exec answers next t, by hypotheses on state and operands alone): yokeTrain, yokeFrameReceive,
yokeAckTimer, yokeSilenceTimeout, yokeReplayTimeout, yokeRetry. -/
def Obligations.YokeLink : Prop :=
  ∀ (s : State),
    (∀ a : BitVec 4, s.yoke.state ≠ 2 ∨ s.on 0 SYS_NODE_VALID = false ∨ s.yoke.link = true ∨ a.toNat % 2 = 0 ∨ s.time.run < s.yoke.retryAt →
      exec (.yokeTrain a) s = .next s) ∧
    (∀ a : BitVec 4, s.yoke.state = 2 → s.on 0 SYS_NODE_VALID = true → s.yoke.link = false → a.toNat % 2 = 1 → s.yoke.retryAt ≤ s.time.run →
      creditSum (s.vc 2).unacked + creditsOf s.helloBytes.length ≤ s.rd ykP (YK_VC_BUF_UNITS 2) →
      completes (.yokeTrain a) s fun t => t.yoke.link = true ∧
        t.yoke.width = (if a.toNat = 15 then 4 else if a.toNat % 4 = 3 then 2 else 1)) ∧
    (∀ b fr, s.yoke.link = false ∨ b.length ≠ 20 + num b 2 2 → exec (.yokeFrameReceive b fr) s = .next s) ∧
    (∀ b fr, s.yoke.link = true → s.unlocked = false → b.getD 0 0 % 8 = 7 → b.getD 0 0 / 16 % 16 = 1 →
      b.length = 20 + num b 2 2 → num b (16 + num b 2 2) 4 = crc32c (le s.teamMate 2 ++ le s.node 2 ++ le 0 4 ++ b.take (16 + num b 2 2)) →
      bit (b.getD 12 0) 3 = false → bit (b.getD 13 0) 7 = false → completes (.yokeFrameReceive b fr) s fun t =>
        t = { s with yoke := { s.yoke with lastRx := s.time.run } }) ∧
    (s.yoke.link = false → exec .yokeAckTimer s = .next s ∧ exec .yokeSilenceTimeout s = .next s) ∧
    (s.yoke.link = true → completes .yokeAckTimer s fun t => (∀ v, v < 5 → (t.vc v).ackDue = false ∧ (t.vc v).owed = 0) ∧
      ∃ l, l.length = 5 ∧ t.out = s.out ++ l) ∧
    (s.yoke.link = true → completes .yokeSilenceTimeout s fun t =>
      t.yoke.link = false ∧ t.contact = false ∧ t.yoke.vcs = [] ∧ s.yoke.lastRx + ns 100000 ≤ t.time.run) ∧
    (∀ v : Fin 5, s.yoke.link = false ∨ (s.vc v.val).unacked = [] → exec (.yokeReplayTimeout v) s = .next s) ∧
    (∀ v : Fin 5, s.yoke.link = true → (s.vc v.val).unacked ≠ [] →
      ((∀ f ∈ (s.vc v.val).unacked, f.resent < 7) → completes (.yokeReplayTimeout v) s fun t =>
        (t.vc v.val).unacked = (s.vc v.val).unacked.map (fun f => { f with resent := f.resent + 1 }) ∧ t.yoke.link = true ∧
        (t.vc v.val).progress = t.time.run ∧ (s.vc v.val).progress + ns 50000 ≤ t.time.run) ∧
      ((∃ f ∈ (s.vc v.val).unacked, 7 ≤ f.resent) → completes (.yokeReplayTimeout v) s fun t => t.yoke.link = false)) ∧
    (s.yoke.link = true ∨ (s.yoke.state ≠ 2 ∧ s.yoke.state ≠ 6) → exec .yokeRetry s = .next s) ∧
    (s.yoke.link = false → (s.yoke.state = 2 ∨ s.yoke.state = 6) → completes .yokeRetry s fun t =>
      t.yoke.state = 2 ∧ s.yoke.retryAt ≤ t.time.run)

/-- R374 to R378, R381: the team. Out of a team no time, merge or mark is sent; joining takes J from the latest MARK; an FWD that
has waited is dropped and counted; the first pending merge entry is emitted no earlier than M + WIN and counted in K; marks
never go back; a new lead that waits for HANDOVER does neither; and a check value that outlasts its hold is kept no longer.
COMPLETES (exec answers next t, by hypotheses on state and operands alone): yokeTimeSend, yokeJoinStart, fwdDrop, mergeEmit,
mergeMarkSend, checkHoldExpire. -/
def Obligations.TeamWork : Prop :=
  ∀ (s : State),
    (s.yoke.link = false ∨ s.inTeam = false → exec .yokeTimeSend s = .next s) ∧
    (s.yoke.link = true → s.inTeam = true → (s.vc 2).wait = [] → 1 ≤ s.rd ykP (YK_VC_CRED_HELD 2) →
      creditSum (s.vc 2).unacked + 1 ≤ s.rd ykP (YK_VC_BUF_UNITS 2) → completes .yokeTimeSend s fun t =>
        (∃ a b, t.out = s.out ++ [.yokeFrame a b]) ∧ (t.vc 2).next = ((s.vc 2).next + 1) % 2 ^ 32 ∧
        (t.vc 2).unacked.length = (s.vc 2).unacked.length + 1) ∧
    (s.yoke.offOk = none ∨ s.yoke.state ≠ 3 ∨ s.time.pend.isSome = true → exec .yokeJoinStart s = .next s) ∧
    (∀ a, s.yoke.offOk = some a → s.yoke.state = 3 → s.time.pend = none → completes .yokeJoinStart s fun t =>
      t.yoke.join = some s.yoke.mark ∧ (t.yoke.state = 4 ∨ t.yoke.state = 5) ∧ a + ns 1000000000 ≤ t.time.run) ∧
    (takeFirst (fun (e : Nat × List Nat × Nat) => decide (e.1 = 1)) (s.vc 0).wait = none → exec .fwdDrop s = .next s) ∧
    (∀ e l, takeFirst (fun (e : Nat × List Nat × Nat) => decide (e.1 = 1)) (s.vc 0).wait = some (e, l) →
      completes .fwdDrop s fun t => (t.vc 0).wait = l ∧ e.2.2 + ns 1000000 ≤ t.time.run ∧
        t.rd ykP YK_FWD_DROP_COUNT = satAdd YK_FWD_DROP_COUNT.w (s.rd ykP YK_FWD_DROP_COUNT) 1) ∧
    (s.yoke.merge = [] ∨ s.yoke.hand = 1 → exec .mergeEmit s = .next s) ∧
    (∀ e l, s.yoke.merge = e :: l → s.yoke.hand ≠ 1 → completes .mergeEmit s fun t =>
      t.yoke.k = (s.yoke.k + 1) % 2 ^ 32 ∧ e.m + 1000 * s.rd ykP YK_MERGE_WIN ≤ t.now ∧
      (s.inTeam = false → t.yoke.merge = l)) ∧
    (s.inTeam = false ∨ s.isSeq = false ∨ s.yoke.hand = 1 → exec .mergeMarkSend s = .next s) ∧
    (s.inTeam = true → s.isSeq = true → s.yoke.hand ≠ 1 → completes .mergeMarkSend s fun t =>
      t.yoke.mark = max (s.now - 1000 * s.rd ykP YK_MERGE_WIN) s.yoke.mark) ∧
    (∀ v l, takeFirst s.chkOld s.yoke.own = some (v, l) → completes .checkHoldExpire s fun t =>
      t.yoke.own = l ∧ t.yoke.partner = s.yoke.partner) ∧
    (takeFirst s.chkOld s.yoke.own = none → takeFirst s.chkOld s.yoke.partner = none → exec .checkHoldExpire s = .next s) ∧
    (∀ v l, takeFirst s.chkOld s.yoke.own = none → takeFirst s.chkOld s.yoke.partner = some (v, l) →
      completes .checkHoldExpire s fun t => t.yoke.partner = l ∧ t.yoke.own = s.yoke.own)

/-- R32, R393, R394, R449, R451: the MSS. While it is held or in recovery no stage runs; a self-check that fails holds it silent,
with the PCI Express link down and every TOUT ball released, else stage 1 follows, which picks the slot to boot or recovery. A
lockstep mismatch restarts it with the claim at 0, a second one within 60 s holds it; the watchdog restarts it unless the MSS
writes in time. COMPLETES (exec answers next t, by hypotheses on state and operands alone): mssBootStage, lockstep,
mssWatchdogExpire, watchdogKick. -/
def Obligations.MssRuns : Prop :=
  ∀ (w : Writer) (s : State),
    (∀ ok, s.mss.hold ≠ 0 ∨ s.recovery = true → exec (.mssBootStage ok) s = .next s) ∧
    (s.mss.hold = 0 → s.recovery = false → s.bootStage = 0 →
      completes (.mssBootStage false) s (fun t =>
        t.mss = { s.mss with hold := 3 } ∧ t.on pciP PCI_LINK_UP = false ∧ (∀ j, j < 8 → t.on tb (TB_TO_CTRL_EN j) = false) ∧
        t.bootStage = 0 ∧ t.hit = s.hit ∧ t.time.run = s.time.run) ∧
      (s.mss.recover = false → completes (.mssBootStage true) s fun t =>
        t.bootStage = 1 ∧ onlyRegs [fkey mssP MSS_BOOT_STAGE] s t) ∧
      (s.mss.recover = true → completes (.mssBootStage true) s fun t => t.recovery = true ∧ t.mss.recover = false)) ∧
    (∀ ok, s.mss.hold = 0 → s.recovery = false → s.bootStage = 1 →
      ((s.slotBoots true = true ∨ s.slotBoots false = true) → completes (.mssBootStage ok) s fun t =>
        t.bootStage = 2 ∧ t.on mssP MSS_BOOT_SLOT = (s.slotBoots true && (s.markerOk || !s.slotBoots false))) ∧
      (s.slotBoots true = false → s.slotBoots false = false → completes (.mssBootStage ok) s fun t => t.recovery = true)) ∧
    (∀ a b, s.mss.hold ≠ 0 → exec (.lockstep a b) s = .next s) ∧
    (∀ a b, s.mss.hold = 0 → completes (.lockstep a b) s fun t =>
      (s.hit.held = [] → t.claim = 0) ∧ t.mss.lastMiss = some s.time.run ∧
      ((s.mss.lastMiss = none → t.mss.hold = 0) ∧
        ∀ m, s.mss.lastMiss = some m → t.mss.hold = if s.time.run ≤ m + ns 60000000000 then 2 else 0)) ∧
    (s.mss.hold ≠ 0 ∨ s.on 0 SYS_WDOG_EN = false → exec .mssWatchdogExpire s = .next s) ∧
    (s.mss.hold = 0 → s.on 0 SYS_WDOG_EN = true → completes .mssWatchdogExpire s fun t =>
      t.mss.hold = 0 ∧ t.mss.wdog = t.time.run ∧
      s.mss.wdog + ns (max 10 (s.rd 0 SYS_WDOG_TIMEOUT) * 1000000) ≤ t.time.run) ∧
    (completes (.watchdogKick .mss) s fun t => t = { s with mss := { s.mss with wdog := s.time.run } }) ∧
    (w ≠ .mss → exec (.watchdogKick w) s = .next s)

/-- R397, R398, R402: sensors, the log and the daybook. At RESET_N or without power nothing is sampled; after TAIL the temperatures
alone show, so that a thermal trip can end; else time in service counts on and, with no sensor about to trip, each sensor shows
its sample. The MSS writes log records, and empties the daybook but for one CLEARED record; anyone else's writes change nothing.
COMPLETES (exec answers next t, by hypotheses on state and operands alone): sensorSample, logEmit, dbkClear. -/
def Obligations.SensorsAndLog : Prop :=
  ∀ (w : Writer) (s : State),
    (∀ a b, s.mss.hold = 1 ∨ s.mss.hold = 5 → exec (.sensorSample a b) s = .next s) ∧
    (∀ a b, s.mss.hold = 4 → completes (.sensorSample a b) s fun t => t.mss = s.mss ∧
      ∀ i, i < 12 → t.rd mssP (MSS_TS_VAL_T i) = a.getD i 0 % 2 ^ 16 ∧ t.on mssP (MSS_TS_VAL_VALID i) = true) ∧
    (∀ a b, s.mss.hold ≠ 1 → s.mss.hold ≠ 4 → s.mss.hold ≠ 5 → completes (.sensorSample a b) s fun t =>
      t.mss.lifeMs = s.mss.lifeMs + max 1 (s.rd mssP MSS_SENSE_PERIOD) ∧
      ((∀ i, Store.getD 0 i s.mss.crit ≠ 9) →
        (∀ i, i < 12 → t.rd mssP (MSS_TS_VAL_T i) = a.getD i 0 % 2 ^ 16 ∧ t.on mssP (MSS_TS_VAL_VALID i) = true) ∧
        (∀ i, i < 16 → t.rd mssP (MSS_VS_VAL_MV i) = b.getD i 0 % 2 ^ 16 ∧ t.on mssP (MSS_VS_VAL_VALID i) = true))) ∧
    (∀ c, completes (.logEmit .mss c) s fun t => onlyRegsEv [] mssP s t) ∧
    (∀ c, w ≠ .mss → exec (.logEmit w c) s = .next s) ∧
    (completes (.dbkClear .mss) s fun t =>
      t.dbk.length = 1 ∧ t.rd (pg .dbk 0) DBK_WR_COUNT = 1 ∧ t.rd (pg .dbk 0) DBK_LOST_COUNT = 0 ∧ t.sag.mirrored = 0) ∧
    (w ≠ .mss → exec (.dbkClear w) s = .next s)

/-- R397, R403 to R409: the sag. It is detected once, where its input is watched, and stops the charging of VHOLD; TAIL later
everything but the always-on domain is cleared; the save ends with what it came to and its time, and NVM_VCC goes off; the
restart boots from stage 0 and charges again, after a thermal trip only once every temperature is below WARN; a collapse of
VHOLD keeps only what lies outside; CHARGED follows the voltage with its hysteresis; in normal service a batch to the mirror
says whether the NVM answered, and its records count as saved once its header reads back; a sag in the middle leaves them
unsaved. COMPLETES (exec answers next t, by hypotheses on state and operands alone): sagDetect, sagTail, saveDone, sagRestart,
vholdCollapse, vholdChargeChange, mirrorBatch. -/
def Obligations.SagDetectToRestart : Prop :=
  ∀ (s : State),
    (∀ r, s.mss.hold = 1 ∨ s.mss.hold = 5 → exec (.sagDetect r) s = .next s) ∧
    (∀ r, s.mss.hold ≠ 1 → s.mss.hold ≠ 5 → s.sagState ≠ 0 → exec (.sagDetect r) s = .next s) ∧
    (∀ r, s.mss.hold ≠ 1 → s.mss.hold ≠ 5 → s.sagState = 0 →
      (match r with | none => s.on sagP SAG_CFG_PFAIL_EN | some v => s.on mssP (MSS_VS_SAG_WATCH v.val)) = true →
      completes (.sagDetect r) s fun t =>
        t.sagState = 1 ∧ t.sag.at_ = s.time.run ∧ t.sag.tailed = false ∧ t.sag.charging = false ∧ t.sag.nvmVcc = true ∧ (s.blQuads = [] → t.claim = 0)) ∧
    (s.sagState = 0 ∨ s.sag.tailed = true → exec .sagTail s = .next s) ∧
    (s.sagState ≠ 0 → s.sag.tailed = false → completes .sagTail s fun t =>
      t.sag.tailed = true ∧ t.mss.hold = 4 ∧ t.dram = [] ∧ t.heads = [] ∧ t.dbk = s.dbk ∧ t.nvm = s.nvm) ∧
    (∀ us r, s.sagState ≠ 1 → exec (.saveDone us r) s = .next s) ∧
    (∀ us r, s.sagState = 1 → completes (.saveDone us r) s fun t =>
      t.sagState = 2 ∧ t.rd sagP SAG_SAVE_US = min us 0xFFFF ∧ t.on sagP SAG_STAT_NVM_OK = r ∧ t.sag.nvmVcc = false ∧
      ((r = false ∨ 5000 < us) → t.rd sagP SAG_STAT_LAST = 3 ∧ t.nvm = s.nvm)) ∧
    (s.sagState ≠ 2 ∨ (s.sag.cause = 2 ∧ s.cooled = false) → exec .sagRestart s = .next s) ∧
    (s.sagState = 2 → (s.sag.cause ≠ 2 ∨ s.cooled = true) → completes .sagRestart s fun t => t.sagState = 0 ∧ t.sag.charging = true ∧ t.mss.hold = 0 ∧ t.dbk.length ≤ s.dbk.length + 1) ∧
    (completes .vholdCollapse s fun t =>
      t.mss.hold = 5 ∧ t.regs = State.reset.regs ∧ t.dbk = [] ∧ t.time = State.reset.time ∧ t.nvm = s.nvm ∧ (s.upd.path = 0 → t.nor = s.nor)) ∧
    (∀ mv, s.mss.hold = 5 ∨ (4500 ≤ mv ∧ mv < 4750) → exec (.vholdChargeChange mv) s = .next s) ∧
    (∀ mv, s.mss.hold ≠ 5 → (4750 ≤ mv ∨ mv < 4500) → completes (.vholdChargeChange mv) s fun t =>
      t.on sagP SAG_STAT_CHARGED = decide (4750 ≤ mv) ∧ onlyRegs [fkey sagP SAG_STAT_CHARGED] s t) ∧
    (∀ a b, s.mirrors = false → exec (.mirrorBatch a b) s = .next s) ∧
    (∀ a b, s.mirrors = true → s.unsavedFrom (s.rd (pg .dbk 0) DBK_WR_COUNT) < s.rd (pg .dbk 0) DBK_WR_COUNT →
      completes (.mirrorBatch a b) s fun t =>
        t.on sagP SAG_STAT_NVM_OK = a ∧ (a = false → t.nvm = s.nvm) ∧
        t.sag.mirrored = (if a && decide (b = .whole true) then s.rd (pg .dbk 0) DBK_WR_COUNT else s.sag.mirrored) ∧
        t.sag.nvmVcc = match b with
          | .whole _ => false
          | .cut _ => a)

/-- R413 to R416: the farrier. A run starts on request, or by itself in AUTO when a sensor has moved more than DELTA from its base;
a request during a run waits; a run ends once every port measured has had its frames; a value is written only between runs, and
the reserved ones never. COMPLETES (exec answers next t, by hypotheses on state and operands alone): farrierTriggerCheck,
farrierRunRequest, farrierRunEnd, farrierValueWrite. -/
def Obligations.Farrier : Prop :=
  ∀ (w : Writer) (s : State),
    (s.on farP FAR_CTRL_AUTO = false ∨ s.farFree = false ∨ s.far.run.isSome = true → exec .farrierTriggerCheck s = .next s) ∧
    (∀ i, i < 12 → s.on farP FAR_CTRL_AUTO = true → s.farFree = true → s.far.run = none → s.far.lastEnd = none →
      16 * max 1 (s.rd farP FAR_TRIG_DELTA) <
        (sint 16 (s.rd mssP (MSS_TS_VAL_T i)) - sint 16 (s.rd farP (FAR_BASE_T_T i))).natAbs →
      completes .farrierTriggerCheck s fun t => t.far.run = some 0 ∧ t.on farP FAR_STATUS_BUSY = true) ∧
    (s.farFree = false → exec (.farrierRunRequest w) s = .next s) ∧
    (s.farFree = true → s.far.run = none → completes (.farrierRunRequest w) s fun t =>
      t.far.run = some 1 ∧ t.on farP FAR_STATUS_BUSY = true ∧ t.on farP FAR_CTRL_RUN = false) ∧
    (s.farFree = true → s.far.run.isSome = true → completes (.farrierRunRequest w) s fun t =>
      t.on farP FAR_CTRL_RUN = true ∧ onlyRegs [fkey farP FAR_CTRL_RUN] s t) ∧
    (∀ a b c d, s.far.run = none → exec (.farrierRunEnd a b c d) s = .next s) ∧
    (∀ a b c d p, p ∈ s.far.ports → Store.getD 0 p s.far.frames < 58 → s.enabled (tchP p) = true →
      exec (.farrierRunEnd a b c d) s = .next s) ∧
    (∀ a b c d k, s.far.run = some k → (∀ p ∈ s.far.ports, 58 ≤ Store.getD 0 p s.far.frames) →
      completes (.farrierRunEnd a b c d) s fun t =>
        t.far.lastEnd = some s.time.run ∧ (t.far.run = none ∨ t.far.run = some 1) ∧ t.far.frames = []) ∧
    (∀ (i : Fin 192) v, i.val = 30 ∨ i.val = 31 → exec (.farrierValueWrite w i v) s = .next s) ∧
    (∀ (i : Fin 192) (v : Word), i.val ≠ 30 → i.val ≠ 31 →
      (s.far.run.isSome = true → completes (.farrierValueWrite w i v) s fun t => onlyRegsEv [] farP s t) ∧
      (s.far.run = none → completes (.farrierValueWrite w i v) s fun t =>
        t.rd farP (FAR_VAL_VALUE i.val) = (if i.val = 28 ∨ i.val = 29 then v.toNat % 2 ^ 16 else v.toNat) ∧
        t.rd farP FAR_STATUS_SOURCE = 2 ∧
        onlyRegs [fkey farP (FAR_VAL_VALUE i.val), fkey farP FAR_STATUS_SOURCE] s t))

/-- R423, R424, R427 to R429: a session. A request that is not heard changes nothing; a repeated block message gets its first reply
again; an OPEN erases slot B and the marker and nothing else of the NOR; an accepted block waits to be written, and is written
to its place alone; CLOSE leads to verification, which ends the session with the package staged or not; ABORT ends it. COMPLETES
(exec answers next t, by hypotheses on state and operands alone): updateOpen, updateBlock, updateClose, updateAbort,
updateStatus, slotEraseDone, blockWriteDone, verifyDone. -/
def Obligations.UpdateSession : Prop :=
  ∀ (r : UpdReq) (s : State),
    (s.updHeard 1 r = false → exec (.updateOpen r) s = .next s) ∧ (s.updHeard 2 r = false → exec (.updateBlock r) s = .next s) ∧
    (s.updHeard 3 r = false → exec (.updateClose r) s = .next s) ∧ (s.updHeard 5 r = false → exec (.updateAbort r) s = .next s) ∧
    (s.updHeard 6 r = false → exec (.updateStatus r) s = .next s) ∧
    (s.updHeard 1 r = true →
      (∀ c, s.openCode r = some c → exec (.updateOpen r) s = .next (s.updRefuse r 1 c)) ∧
      (s.openCode r = none → completes (.updateOpen r) s fun t =>
        t.updState = 1 ∧ t.upd.path = r.path.val ∧ t.upd.length = s.openLength r ∧ t.upd.got = [] ∧
        t.on updP UPD_STAGED_VALID = false ∧
        ∀ a, Mem.readD 0xFF t.nor a =
          if 0x2000000 ≤ a ∧ a < 0x4000000 then 0xFF else Mem.readD 0xFF s.nor a)) ∧
    (s.updHeard 2 r = true →
      (∀ c, s.firstReply r = some c → exec (.updateBlock r) s = .next (s.updReply r 2 c [])) ∧
      (∀ c, s.firstReply r = none → s.blockCode r = some c →
        exec (.updateBlock r) s = .next ((s.updRefuse r 2 c).keepReply r c)) ∧
      (s.firstReply r = none → s.blockCode r = none → s.granule (s.blockOf r).1 (s.blockOf r).2.length = none → completes (.updateBlock r) s fun t =>
        t.upd.writing = s.upd.writing ++ [s.blockOf r] ∧ t.on updP UPD_BLOCK_BUSY = true ∧ t.nor = s.nor)) ∧
    (s.updHeard 3 r = true →
      (s.closeCode r = none → completes (.updateClose r) s fun t =>
        t.updState = 3 ∧ onlyRegs (fkey updP UPD_STATE_STATE :: s.txKeys) { s with out := t.out } t) ∧
      (∀ c, s.closeCode r = some c → exec (.updateClose r) s = .next (s.updRefuse r 3 c))) ∧
    (s.updHeard 5 r = true →
      ((s.upd.path = 0 ∨ s.upd.path = r.path.val) → completes (.updateAbort r) s fun t => t.upd.path = 0) ∧
      (s.upd.path ≠ 0 → s.upd.path ≠ r.path.val → exec (.updateAbort r) s = .next (s.updRefuse r 5 1))) ∧
    (s.updHeard 6 r = true →
      (completes (.updateStatus r) s fun t => onlyRegs s.txKeys { s with out := t.out } t ∧ (r.path.val = 1 → t = s))) ∧
    (s.updState = 1 → completes .slotEraseDone s fun t => t.updState = 2 ∧ onlyRegs [fkey updP UPD_STATE_STATE] s t) ∧
    (s.updState ≠ 1 → exec .slotEraseDone s = .next s) ∧
    (s.upd.writing = [] → exec .blockWriteDone s = .next s) ∧
    (∀ x l, s.upd.writing = x :: l → completes .blockWriteDone s fun t =>
      t.upd.writing = l ∧ t.upd.got = s.upd.got ++ [x.1 / 1024] ∧ t.on updP UPD_BLOCK_BUSY = !l.isEmpty ∧
      (∀ i, i < x.2.length → Mem.readD 0xFF t.nor (0x2000000 + x.1 + i) = BitVec.ofNat 8 (x.2.getD i 0)) ∧
      ∀ a, (a < 0x2000000 + x.1 ∨ 0x2000000 + x.1 + x.2.length ≤ a) → Mem.readD 0xFF t.nor a = Mem.readD 0xFF s.nor a) ∧
    (∀ ok, s.updState ≠ 3 → exec (.verifyDone ok) s = .next s) ∧
    (∀ ok, s.updState = 3 → completes (.verifyDone ok) s fun t =>
      t.upd.path = 0 ∧ (t.updState = 0 ∨ t.updState = 4 ∧ t.on updP UPD_STAGED_VALID = true) ∧ t.nor = s.nor)

/-- R426, R431, R432, R435: putting an update into force. An activation not refused lowers the claim to 0 and waits GRACE, then the
device resets; recovery is asked for by the host or the MSS; a copied slot A reads as slot B, a failed copy leaves it without a
header, and a package still staged stays so; a handover is refused, or loads the other half, interrupts every drover at a cut,
waits for them, and is over when they are ready in time or when LIMIT passes. COMPLETES (exec answers next t, by hypotheses on
state and operands alone): updateActivate, activateGraceExpire, updateRecover, slotCopyDone, updateHandover, handoverInterrupt,
handoverReady, handoverTimeout. -/
def Obligations.UpdateActivation : Prop :=
  ∀ (r : UpdReq) (w : Writer) (s : State),
    (∀ ok, s.updHeard 4 r = false → exec (.updateActivate r ok) s = .next s) ∧
    (∀ ok c, s.updHeard 4 r = true → s.activateCode = some c → exec (.updateActivate r ok) s = .next (s.updRefuse r 4 c)) ∧
    (s.updHeard 4 r = true → s.activateCode = none → exec (.updateActivate r false) s = .next (s.updRefuse r 4 23)) ∧
    (s.updHeard 4 r = true → s.activateCode = none → completes (.updateActivate r true) s fun t =>
      t.claim = 0 ∧ t.updState = 5 ∧ t.upd.grace = some s.time.run) ∧
    (s.upd.grace = none → exec .activateGraceExpire s = .next s) ∧
    (∀ a, s.upd.grace = some a → completes .activateGraceExpire s fun t =>
      t.mss.hold = 0 ∧ t.bootStage = 0 ∧ t.upd.grace = none ∧ t.rd mssP MSS_RESET_CAUSE_CAUSE = 2 ^ 6 ∧
      a + ns (max 1 (s.rd updP UPD_ACT_GRACE) * 1000000) ≤ t.time.run) ∧
    ((w = .host ∨ w = .mss) → completes (.updateRecover w) s fun t => t.mss.recover = true ∧ t.mss.hold = 0 ∧ t.bootStage = 0) ∧
    (w ≠ .host → w ≠ .mss → exec (.updateRecover w) s = .next s ∧ exec (.updateHandover w) s = .next s) ∧
    (∀ f, s.updState ≠ 6 → exec (.slotCopyDone f) s = .next s) ∧
    (∀ k, s.updState = 6 → completes (.slotCopyDone (some k)) s fun t =>
      t.updState = (if s.on updP UPD_STAGED_VALID then 4 else 0) ∧ ∀ a, Mem.readD 0xFF t.nor a = if a < 0x1000 then 0xFF else Mem.readD 0xFF s.nor a) ∧
    (s.updState = 6 → completes (.slotCopyDone none) s fun t =>
      t.updState = (if s.on updP UPD_STAGED_VALID then 4 else 0) ∧ ∀ a, a < s.norLE 0x2000008 4 → a < 0x2000000 → Mem.readD 0xFF t.nor a = Mem.readD 0xFF s.nor (0x2000000 + a)) ∧
    (∀ c, (w = .host ∨ w = .mss) → s.handoverCode = some c → completes (.updateHandover w) s fun t =>
      t.rd updP UPD_STATE_CODE = c % 2 ^ UPD_STATE_CODE.w ∧ onlyRegsEv [fkey updP UPD_STATE_CODE] updP s t) ∧
    (∀ e, (w = .host ∨ w = .mss) → s.handoverCode = none → s.pkgComp (slotBase true) 2 = some e → s.digestOk (slotBase true) e = true →
      completes (.updateHandover w) s fun t => t.updState = 7 ∧ t.upd.ho = 1 ∧ t.upd.hoFrom = s.drvVersion ∧ t.upd.hoTo = (e.len, e.digest, e.ver)) ∧
    (s.upd.ho ≠ 1 → exec .handoverInterrupt s = .next s) ∧
    (∀ e, s.upd.ho = 1 → s.cvEngine (s.rd updP UPD_HO_CFG_CANVAS) = some e → completes .handoverInterrupt s fun t =>
      t.upd.ho = 2 ∧ t.upd.hoCut = (s.cvAct e (s.rd updP UPD_HO_CFG_CANVAS)).cut t.upd.hoEpoch ∧ t.upd.hoCut ≤ t.now ∧
      t.out = s.out ++ (upTo 8).map fun d => .drvIrq d (Config.free s.freeCtr)) ∧
    (∀ d, s.hoEnd < s.now → exec (.handoverReady (.drover d)) s = .next s) ∧
    (∀ d, s.upd.ho = 2 → s.now ≤ s.hoEnd → completes (.handoverReady (.drover d)) s fun t =>
      t.upd.ho = 3 ∧ t.rd 0 SYS_DRV_HALF_HALF = (1 - s.rd 0 SYS_DRV_HALF_HALF) % 2) ∧
    (∀ d, s.upd.ho = 3 → s.now ≤ s.hoEnd → s.hoAccepted = true → completes (.handoverReady (.drover d)) s fun t => t.upd.ho = 0 ∧ t.updState = 4 ∧ t.mss.drv = some s.upd.hoTo) ∧
    ((w = .host ∨ w = .mss) → exec (.handoverReady w) s = .next s) ∧
    (s.upd.ho < 2 → exec .handoverTimeout s = .next s) ∧
    (2 ≤ s.upd.ho → completes .handoverTimeout s fun t =>
      t.upd.ho = 0 ∧ t.updState = 4 ∧ s.upd.hoCut + max 1 (s.rd updP UPD_HO_CFG_LIMIT) * 1000000 ≤ t.now)

/-- R344, R357, R443, R445 to R447: the stabled state. A request not refused begins the entry; STABLED stops every device PLL and
runs the coarse time base alone, with the matrix ports off (R357); a cause of wake during the entry is kept and starts the exit,
one in STABLED starts it at once, one in ACTIVE does nothing; the exit ends in ACTIVE with a capture of the matrix ports'
baselines (R344), and the drovers run again where their code is right. R443, R444: clocks. A PLL that runs and has not locked
locks, or fails with one record for its start; one that does not run, or has locked, does neither; the codec PLL stops 1 ms
after its last user, but not while one is enabled; a reference clock reads as found or lost. COMPLETES (exec answers next t, by
hypotheses on state and operands alone): stableRequest, stabled, wakeRequest, wakeAlarm, wakeComplete, droverRelease,
devicePllLock, pllFail, codecPllIdleStop, refClockChange. -/
def Obligations.Power : Prop :=
  (∀ (w : Writer) (s : State),
     (∀ f r, s.stableRefusal = some (f, r) → exec (.stableRequest w) s = .next (s.emit pwrP 0x1001 (le f 2 ++ [r]))) ∧
     (s.stableRefusal = none → completes (.stableRequest w) s fun t =>
       t.pwr.from_ = s.now ∧ t.mss.drovers = false ∧ (s.hit.held = [] → t.pwrState = 1)) ∧
     (s.pwrState ≠ 1 → exec .stabled s = .next s) ∧
     (s.pwrState = 1 → completes .stabled s fun t =>
       t.pwrState = (if s.pwr.wakes = [] then 2 else 3) ∧ t.time.coarse = true ∧ t.on tb TB_STATUS_COARSE = true ∧
       t.rd clkP CLK_STAT_LOCK = 0 ∧ t.rd clkP CLK_STAT_DMC_LOCK = 0 ∧ t.pwr.wakes = [] ∧
       ∀ p, p < 2 → (t.tchSt p).scanning = false ∧ (t.tchSt p).contacts = [] ∧ (t.tchSt p).init = none) ∧
     (s.pwrState = 0 → exec (.wakeRequest w) s = .next s ∧ exec .wakeAlarm s = .next s) ∧
     (s.pwrState = 1 → completes (.wakeRequest w) s fun t => t.pwrState = 1 ∧ t.pwr.wakes = s.pwr.wakes ++ [0]) ∧
     (s.pwrState = 2 → completes (.wakeRequest w) s fun t => t.pwrState = 3 ∧ bit (t.rd pwrP PWR_WAKE_CAUSE_CAUSE) 0 = true) ∧
     (s.pwrState = 2 → s.on pwrP PWR_WAKE_EN_ALARM = true → s.pwr.from_ < s.rd64 pwrP PWR_WAKE_AT_LO_T PWR_WAKE_AT_HI_T →
       completes .wakeAlarm s fun t => t.pwrState = 3 ∧ s.rd64 pwrP PWR_WAKE_AT_LO_T PWR_WAKE_AT_HI_T ≤ t.now) ∧
     (s.pwrState ≠ 3 → exec .wakeComplete s = .next s) ∧
     (s.pwrState = 3 → completes .wakeComplete s fun t => t.pwrState = 0 ∧ t.time.coarse = false ∧ t.pll 0 = true ∧ t.pll 1 = true ∧
       ∀ p, p < 2 → s.enabled (tchP p) = true → (t.tchSt p).init = some 0) ∧
     (s.pwrState ≠ 0 ∨ s.mss.hold ≠ 0 ∨ s.mss.drovers = true ∨ s.recovery = true → exec .droverRelease s = .next s) ∧
     (s.pwrState = 0 → s.mss.hold = 0 → s.mss.drovers = false → s.recovery = false →
       (s.drvCodeOk.1 = true → completes .droverRelease s fun t =>
         t = { s.drvCodeOk.2 with mss := { s.drvCodeOk.2.mss with drovers := true } }) ∧
       (s.drvCodeOk.1 = false → completes .droverRelease s fun t => t.recovery = true ∧ t.mss.drovers = false))) ∧
  (∀ (k : Fin 16) (s : State),
     (s.pllRuns k.val = false ∨ s.pllIsLocked k.val = true → exec (.devicePllLock k) s = .next s ∧ exec (.pllFail k) s = .next s) ∧
     (s.pllRuns k.val = true → s.pllIsLocked k.val = false →
       (completes (.devicePllLock k) s fun t => t.pllIsLocked k.val = true) ∧
       (s.pwr.failed.contains k.val = true → exec (.pllFail k) s = .next s) ∧
       (s.pwr.failed.contains k.val = false → completes (.pllFail k) s fun t =>
         t.pwr.failed = k.val :: s.pwr.failed ∧ onlyRegsEv [] clkP { s with pwr := t.pwr } t)) ∧
     (s.pwr.codecIdle = none → exec .codecPllIdleStop s = .next s) ∧
     (∀ a, s.pwr.codecIdle = some a →
       (s.codecUsed = true → completes .codecPllIdleStop s fun t => t = { s with pwr := { s.pwr with codecIdle := none } }) ∧
       (s.codecUsed = false → completes .codecPllIdleStop s fun t =>
         t.pll 2 = false ∧ t.pwr.codecIdle = none ∧ a + ns 1000000 ≤ t.time.run)) ∧
     (∀ (i : Fin 4) b, s.on clkP (refFld i.val) = b → exec (.refClockChange i b) s = .next s) ∧
     (∀ (i : Fin 4) b, s.on clkP (refFld i.val) ≠ b → completes (.refClockChange i b) s fun t =>
       t.on clkP (refFld i.val) = b ∧ onlyRegsEv [fkey clkP (refFld i.val)] clkP s t))

/-- R449 to R451, R453: resets. Power-on clears everything but what lies outside the device and draws a new challenge, with every
ball high-impedance (R453); RESET_N holds the MSS and keeps yard time, the daybook and the NVM; its release starts boot unless
the supply is not good; a soft reset is the host's or the MSS's to ask for; a PCI reset returns the PCI page to its reset values
and notes its cause. COMPLETES (exec answers next t, by hypotheses on state and operands alone): powerOnReset, resetNAssert,
resetRelease, sysResetGo, pciReset. -/
def Obligations.Resets : Prop :=
  ∀ (w : Writer) (s : State),
    (completes .powerOnReset s fun t =>
      t.mss.hold = State.reset.mss.hold ∧ t.dbk = [] ∧ t.time = State.reset.time ∧ t.nvm = s.nvm ∧ (s.upd.path = 0 → t.nor = s.nor) ∧
      t.host = s.host ∧ t.rd tstP TST_CHAL_VALUE = Config.free s.freeCtr % 2 ^ TST_CHAL_VALUE.w ∧
      (∀ b, t.ballDriven b = false) ∧ onlyRegs [fkey tstP TST_CHAL_VALUE] { t with regs := State.reset.regs } t) ∧
    (s.mss.hold = 5 → exec .resetNAssert s = .next s) ∧
    (s.mss.hold ≠ 5 → completes .resetNAssert s fun t =>
      t.mss.hold = 1 ∧ t.time.yt = (if s.time.coarse then (s.time.clock s.clockInc).yt else s.time.yt) ∧ t.dbk = s.dbk ∧ t.nvm = s.nvm ∧ t.dram = [] ∧ t.heads = [] ∧
      t.rd mssP MSS_RESET_CAUSE_CAUSE = 1) ∧
    (∀ a b, s.mss.hold ≠ 1 → exec (.resetRelease a b) s = .next s) ∧
    (∀ a b, s.mss.hold = 1 → completes (.resetRelease a b) s fun t =>
      t.mss.hold = (if a then 1 else 0) ∧ t.mss.recover = (s.mss.recover || b)) ∧
    ((w = .host ∨ w = .mss) → completes (.sysResetGo w) s fun t =>
      t.mss.hold = 0 ∧ t.bootStage = 0 ∧ t.time.yt = (if s.time.coarse then (s.time.clock s.clockInc).yt else s.time.yt) ∧ t.rd mssP MSS_RESET_CAUSE_CAUSE = 2 ^ 6) ∧
    (w ≠ .host → w ≠ .mss → exec (.sysResetGo w) s = .next s) ∧
    (∀ k : Fin 4, completes (.pciReset k) s fun t =>
      bit (t.rd mssP MSS_RESET_CAUSE_CAUSE) 5 = true ∧ Store.find pciP t.evSeq = none ∧
      ((k.val = 0 ∨ k.val = 2) → ∀ f : Fld, f.off < 0x1000 → f.lo < 32 → t.rd pciP f = f.rst))

/-- R460, R462, R463: PCI Express and the DMA engine. The link's register follows the link, unless the self-test has found the
always-on domain or the MSS failed; a tail write sets BUSY where the ring runs and holds work, and a stopped engine resumes at
the next descriptor; an idle engine performs none; a descriptor it cannot read stops it; a completion that does not come ends
its part, and none other. COMPLETES (exec answers next t, by hypotheses on state and operands alone): pcieLinkChange,
dmaTailWrite, dmaResume, dmaDescriptorDone, pcieCompletionTimeout. -/
def Obligations.PcieAndDma : Prop :=
  ∀ (w : Writer) (s : State),
    (∀ up (a : Fin 5) (b : Fin 9), s.mss.hold = 3 → exec (.pcieLinkChange up a b) s = .next s) ∧
    (∀ up (a : Fin 5) (b : Fin 9), s.mss.hold ≠ 3 → completes (.pcieLinkChange up a b) s fun t =>
      t.on pciP PCI_LINK_UP = up ∧ t.rd pciP PCI_LINK_SPEED = a.val ∧ t.rd pciP PCI_LINK_WIDTH = b.val ∧
      onlyRegsEv [fkey pciP PCI_LINK_UP, fkey pciP PCI_LINK_SPEED, fkey pciP PCI_LINK_WIDTH] pciP s t) ∧
    (∀ i : BitVec 16, completes (.dmaTailWrite w i) s fun t =>
      t.rd pciP PCI_DMA_TAIL_IDX = i.toNat ∧
      t.on pciP PCI_DMA_STAT_BUSY = (s.on pciP PCI_DMA_RING_EN && !s.on pciP PCI_DMA_STAT_STOPPED &&
        decide (s.rd pciP PCI_DMA_HEAD_IDX ≠ i.toNat)) ∧
      onlyRegs [fkey pciP PCI_DMA_TAIL_IDX, fkey pciP PCI_DMA_STAT_BUSY] s t) ∧
    (s.on pciP PCI_DMA_STAT_STOPPED = false → exec (.dmaResume w) s = .next s) ∧
    (s.on pciP PCI_DMA_STAT_STOPPED = true → completes (.dmaResume w) s fun t =>
      t.on pciP PCI_DMA_STAT_STOPPED = false ∧ t.rd pciP PCI_DMA_HEAD_IDX = (s.rd pciP PCI_DMA_HEAD_IDX + 1) % 2 ^ 16 ∧
      onlyRegs [fkey pciP PCI_DMA_STAT_STOPPED, fkey pciP PCI_DMA_HEAD_IDX, fkey pciP PCI_DMA_STAT_BUSY] s t) ∧
    (s.on pciP PCI_DMA_STAT_BUSY = false → exec .dmaDescriptorDone s = .next s) ∧
    (s.on pciP PCI_DMA_STAT_BUSY = true →
      let i := s.rd pciP PCI_DMA_HEAD_IDX
      let a := loftBase + 4096 * s.rd pciP PCI_DMA_RING_BASE + 32 * (i % ringSlots (s.rd pciP PCI_DMA_RING_SIZE))
      let r := s.dmaFabric .read a 32 []
      (r.1 ≠ 0 → completes .dmaDescriptorDone s fun t =>
        t.on pciP PCI_DMA_STAT_STOPPED = true ∧ t.on pciP PCI_DMA_STAT_BUSY = false ∧
        t.rd pciP PCI_DMA_HEAD_IDX = r.2.2.rd pciP PCI_DMA_HEAD_IDX) ∧
      (r.1 = 0 → ofLE ((r.2.1.drop 0x10).take 4) = 0 → bit (ofLE ((r.2.1.drop 0x14).take 2)) 2 = false →
        completes .dmaDescriptorDone s fun t =>
          let u := (r.2.2.dmaFabric .write (a + 0x1C) 4 (le 1 4)).2.2
          t.rd pciP PCI_DMA_HEAD_IDX = (u.rd pciP PCI_DMA_HEAD_IDX + 1) % 2 ^ 16 ∧
          onlyRegs [fkey pciP PCI_DMA_HEAD_IDX, fkey pciP PCI_DMA_STAT_BUSY] u t)) ∧
    (∀ tag : Fin 1024, (∀ x ∈ s.fab.queued, x.tag = tag.val → x.target = 13 → x.kind = .write) →
      exec (.pcieCompletionTimeout tag) s = .next s) ∧
    (∀ (tag : Fin 1024) x,
      (s.fab.queued.filter fun x => decide (x.tag = tag.val) && decide (x.target = 13) && decide (x.kind ≠ .write)) = [x] →
      exec (.pcieCompletionTimeout tag) s =
        .next (({ s with fab := { s.fab with queued := s.fab.queued.erase x } } : State).answer x 1 0 []))

/-- R456, R478 to R482: balls and the test page. A GPIO write changes only the bits of balls that the writer owns; the right key by
the right writer unlocks, with the LFSRs loaded again; relocking returns every ball; a test signal takes its ball, and EN 0
gives it back. COMPLETES (exec answers next t, by hypotheses on state and operands alone): gpioWrite, testUnlock, testRelock,
testSeedWrite, muxTake, muxReturn. -/
def Obligations.GpioAndTest : Prop :=
  ∀ (w : Writer) (s : State),
    (∀ oe (k : Fin 8) (v : Word), completes (.gpioWrite w oe k v) s fun t =>
      let f := if oe then SYS_GPIO_OE_OE k.val else SYS_GPIO_OUT_OUT k.val
      (∀ j, j < 32 → bit (t.rd 0 f) j = if s.owner (32 * k.val + j) = w.fid then bit v.toNat j else bit (s.rd 0 f) j) ∧
      onlyRegs [fkey 0 f] s t) ∧
    (∀ (key : BitVec 16) r, s.unlockRefusal w key.toNat = some r →
      exec (.testUnlock w key) s = .next (s.emit tstP 0x0801 (le w.fid 2 ++ [r]))) ∧
    (∀ key : BitVec 16, key.toNat = s.rd tstP TST_CHAL_VALUE → (w = .host ∨ w = .mss) → s.mss.testAllow = true →
      completes (.testUnlock w key) s fun t =>
        t.unlocked = true ∧ t.lfsr = [] ∧ onlyRegsEv [fkey tstP TST_UNLOCK_UNLOCKED] tstP { s with lfsr := [] } t) ∧
    (s.unlocked = false → exec (.testRelock w) s = .next s) ∧
    (s.unlocked = true → completes (.testRelock w) s fun t =>
      t.unlocked = false ∧ t.freeCtr = s.freeCtr + 1 ∧ ∀ k, k < 4 → t.on tstP (TST_MUX_EN k) = false) ∧
    (∀ v : Word, completes (.testSeedWrite w v) s fun t =>
      t.lfsr = [] ∧ t.rd tstP TST_SEED_SEED = v.toNat ∧ onlyRegs [fkey tstP TST_SEED_SEED] { s with lfsr := [] } t) ∧
    (∀ (k : Fin 4) (b : BitVec 8) (g : BitVec 16),
      (∀ r, s.muxRefusal k.val b.toNat g.toNat = some r → completes (.muxTake w k b g) s fun t =>
        t.on tstP (TST_MUX_EN k.val) = false) ∧
      (s.muxRefusal k.val b.toNat g.toNat = none → completes (.muxTake w k b g) s fun t =>
        t.on tstP (TST_MUX_EN k.val) = true ∧ t.rd tstP (TST_MUX_BALL k.val) = b.toNat ∧
        t.rd tstP (TST_MUX_SIGNAL k.val) = g.toNat % 2 ^ (TST_MUX_SIGNAL k.val).w) ∧
      (completes (.muxReturn w k b g) s fun t =>
        t.on tstP (TST_MUX_EN k.val) = false ∧ t.rd tstP (TST_MUX_BALL k.val) = b.toNat))
end

