-- ==== Sys2Proof/Laws/Store.lean ====
section
/-! SUPPORT. Laws of sparse maps and byte memories: a read after a write to the same key gives the value written, a write
leaves every other key alone, and every operation keeps the canonical form. -/

namespace Sys2Proof.Machine

variable {α : Type}

/-! ### Lookup -/

@[simp] theorem Store.find_nil (k : Nat) : Store.find k ([] : Store α) = none := rfl

@[simp] theorem Store.find_put_self (k : Nat) (v : α) (m : Store α) : Store.find k (Store.put k v m) = some v := by
  induction m with
  | nil => simp [Store.put, Store.find]
  | cons e t ih =>
    simp only [Store.put]
    split
    · rename_i h
      simp [Store.find, ih, Nat.ne_of_lt h]
    · split <;> simp [Store.find]

theorem Store.find_put_ne {k k' : Nat} (h : k' ≠ k) (v : α) (m : Store α) :
    Store.find k' (Store.put k v m) = Store.find k' m := by
  induction m with
  | nil => simp [Store.put, Store.find, Ne.symm h]
  | cons e t ih =>
    simp only [Store.put]
    split
    · simp [Store.find, ih]
    · split
      · rename_i h2
        simp [Store.find, Ne.symm h, h2]
      · simp [Store.find, Ne.symm h]

@[simp] theorem Store.find_del_self (k : Nat) (m : Store α) : Store.find k (Store.del k m) = none := by
  induction m with
  | nil => rfl
  | cons e t ih =>
    simp only [Store.del, List.filter_cons] at ih ⊢
    split
    · rename_i h
      simp only [ne_eq, decide_eq_true_eq] at h
      simpa [Store.find, h] using ih
    · exact ih

theorem Store.find_del_ne {k k' : Nat} (h : k' ≠ k) (m : Store α) : Store.find k' (Store.del k m) = Store.find k' m := by
  induction m with
  | nil => rfl
  | cons e t ih =>
    simp only [Store.del, List.filter_cons] at ih ⊢
    split
    · simp only [Store.find]
      split
      · rfl
      · exact ih
    · rename_i h2
      have h3 : e.1 = k := by simpa using h2
      have : e.1 ≠ k' := by omega
      simp only [Store.find, this, if_false]
      exact ih

@[simp] theorem Store.getD_put_self (d : α) (k : Nat) (v : α) (m : Store α) : Store.getD d k (Store.put k v m) = v := by
  simp [Store.getD]

theorem Store.getD_put_ne {k k' : Nat} (h : k' ≠ k) (d v : α) (m : Store α) :
    Store.getD d k' (Store.put k v m) = Store.getD d k' m := by
  simp [Store.getD, Store.find_put_ne h]

variable [DecidableEq α]

@[simp] theorem Store.getD_setD_self (d : α) (k : Nat) (v : α) (m : Store α) : Store.getD d k (Store.setD d k v m) = v := by
  unfold Store.setD
  split <;> simp [Store.getD, *]

theorem Store.find_setD_ne {k k' : Nat} (h : k' ≠ k) (d v : α) (m : Store α) :
    Store.find k' (Store.setD d k v m) = Store.find k' m := by
  unfold Store.setD
  split
  · exact Store.find_del_ne h m
  · exact Store.find_put_ne h v m

theorem Store.getD_setD_ne {k k' : Nat} (h : k' ≠ k) (d d' v : α) (m : Store α) :
    Store.getD d' k' (Store.setD d k v m) = Store.getD d' k' m := by
  simp [Store.getD, Store.find_setD_ne h]

omit [DecidableEq α] in
theorem Store.find_keep {p : Nat → Bool} {k : Nat} (h : p k = true) (m : Store α) :
    Store.find k (Store.keep p m) = Store.find k m := by
  induction m with
  | nil => rfl
  | cons e t ih =>
    simp only [Store.keep, List.filter_cons] at ih ⊢
    split
    · simp only [Store.find]
      split
      · rfl
      · exact ih
    · rename_i h2
      have : e.1 ≠ k := by intro he; subst he; exact h2 h
      simp only [Store.find, this, if_false]
      exact ih

/-! ### The canonical form -/

omit [DecidableEq α] in
/-- The keys rise strictly exactly when they are pairwise in order. -/
theorem Store.sorted_iff (m : Store α) : Store.sorted m = true ↔ m.Pairwise (fun a b => a.1 < b.1) := by
  induction m with
  | nil => simp [Store.sorted]
  | cons e t ih =>
    cases t with
    | nil => simp [Store.sorted]
    | cons e' t' =>
      simp only [Store.sorted, Bool.and_eq_true, decide_eq_true_eq, ih, List.pairwise_cons]
      constructor
      · rintro ⟨h, h2, h3⟩
        refine ⟨?_, h2, h3⟩
        intro x hx
        rcases List.mem_cons.1 hx with rfl | hx
        · exact h
        · exact lt_trans h (h2 x hx)
      · rintro ⟨h, h2, h3⟩
        exact ⟨h e' List.mem_cons_self, h2, h3⟩

omit [DecidableEq α] in
theorem Store.mem_put {k : Nat} {v : α} {m : Store α} {e : Nat × α} (h : e ∈ Store.put k v m) : e = (k, v) ∨ e ∈ m := by
  induction m with
  | nil => simpa [Store.put] using h
  | cons x t ih =>
    simp only [Store.put] at h
    split at h
    · rcases List.mem_cons.1 h with rfl | h
      · exact .inr List.mem_cons_self
      · exact (ih h).imp_right (List.mem_cons_of_mem _)
    · split at h
      · rcases List.mem_cons.1 h with rfl | h
        · exact .inl rfl
        · exact .inr (List.mem_cons_of_mem _ h)
      · rcases List.mem_cons.1 h with rfl | h
        · exact .inl rfl
        · exact .inr h

omit [DecidableEq α] in
theorem Store.sorted_put {k : Nat} {v : α} {m : Store α} (h : Store.sorted m = true) : Store.sorted (Store.put k v m) = true := by
  rw [Store.sorted_iff] at h ⊢
  induction m with
  | nil => simp [Store.put]
  | cons x t ih =>
    have ⟨hx, ht⟩ := List.pairwise_cons.1 h
    simp only [Store.put]
    split
    · rename_i hk
      refine List.pairwise_cons.2 ⟨?_, ih ht⟩
      intro e he
      rcases Store.mem_put he with rfl | he
      · exact hk
      · exact hx e he
    · split
      · rename_i hk
        exact List.pairwise_cons.2 ⟨fun e he => by rw [← hk]; exact hx e he, ht⟩
      · refine List.pairwise_cons.2 ⟨?_, h⟩
        intro e he
        rcases List.mem_cons.1 he with rfl | he
        · simp only; omega
        · have := hx e he
          simp only; omega

omit [DecidableEq α] in
theorem Store.sorted_filter {p : Nat × α → Bool} {m : Store α} (h : Store.sorted m = true) : Store.sorted (m.filter p) = true := by
  rw [Store.sorted_iff] at h ⊢
  exact h.filter p

theorem Store.noDefault_put {d : α} {k : Nat} {v : α} {m : Store α} (hv : v ≠ d) (h : Store.noDefault d m = true) :
    Store.noDefault d (Store.put k v m) = true := by
  simp only [Store.noDefault, List.all_eq_true, decide_eq_true_eq] at h ⊢
  intro e he
  rcases Store.mem_put he with rfl | he
  · exact hv
  · exact h e he

theorem Store.noDefault_filter {d : α} {p : Nat × α → Bool} {m : Store α} (h : Store.noDefault d m = true) :
    Store.noDefault d (m.filter p) = true := by
  simp only [Store.noDefault, List.all_eq_true] at h ⊢
  exact fun e he => h e (List.mem_filter.1 he).1

/-- A map in the canonical form of default `d`. -/
theorem Store.sorted_setD {d : α} {k : Nat} {v : α} {m : Store α} (h : Store.sorted m = true) :
    Store.sorted (Store.setD d k v m) = true := by
  unfold Store.setD
  split
  · exact Store.sorted_filter h
  · exact Store.sorted_put h

theorem Store.noDefault_setD {d : α} {k : Nat} {v : α} {m : Store α} (h : Store.noDefault d m = true) :
    Store.noDefault d (Store.setD d k v m) = true := by
  unfold Store.setD
  split
  · exact Store.noDefault_filter h
  · rename_i hv
    exact Store.noDefault_put hv h

/-! ### Memories -/

/-- Writing a byte keeps a memory canonical. -/
theorem Mem.wfD_writeD {d : Byte} {m : Mem} (h : Memory.wfD d m = true) (a : Nat) (v : Byte) :
    Memory.wfD d (Mem.writeD d m a v) = true := by
  simp only [Memory.wfD, Bool.and_eq_true] at h ⊢
  exact ⟨Store.sorted_setD h.1, Store.noDefault_setD h.2⟩

theorem Mem.wf_write {m : Mem} (h : Memory.wf m = true) (a : Nat) (v : Byte) : Memory.wf (Mem.write m a v) = true :=
  Mem.wfD_writeD h a v

/-- Writing a list of bytes keeps a memory canonical. -/
theorem Mem.wf_putBytes {m : Mem} (h : Memory.wf m = true) (a : Nat) (l : List Nat) : Memory.wf (Mem.putBytes m a l) = true := by
  induction l generalizing m a with
  | nil => exact h
  | cons b t ih => exact ih (Mem.wf_write h a _) (a + 1)

theorem Mem.wf_writeLE {m : Mem} (h : Memory.wf m = true) (a v n : Nat) : Memory.wf (Mem.writeLE m a v n) = true := by
  induction n generalizing m a v with
  | zero => exact h
  | succ n ih => exact ih (Mem.wf_write h a _) (a + 1) (v / 256)

/-- Dropping cells keeps a memory canonical. -/
theorem Mem.wfD_filter {d : Byte} {m : Mem} (p : Host.Cell → Bool) (h : Memory.wfD d m = true) :
    Memory.wfD d (m.filter p) = true := by
  simp only [Memory.wfD, Bool.and_eq_true] at h ⊢
  exact ⟨Store.sorted_filter h.1, Store.noDefault_filter h.2⟩

@[simp] theorem Mem.read_write_self (m : Mem) (a : Nat) (v : Byte) : Mem.read (Mem.write m a v) a = v :=
  Store.getD_setD_self 0 a v m

theorem Mem.read_write_ne {a a' : Nat} (h : a' ≠ a) (m : Mem) (v : Byte) : Mem.read (Mem.write m a v) a' = Mem.read m a' :=
  Store.getD_setD_ne h 0 0 v m

/-- A list of bytes written changes no byte outside it. -/
theorem Mem.read_putBytes_out {a b : Nat} {l : List Nat} (m : Mem) (h : b < a ∨ a + l.length ≤ b) :
    Mem.read (Mem.putBytes m a l) b = Mem.read m b := by
  induction l generalizing m a with
  | nil => rfl
  | cons x t ih =>
    simp only [List.length_cons] at h
    rw [Mem.putBytes, ih _ (by omega), Mem.read_write_ne (by omega)]

/-- A list of bytes written is read back. -/
theorem Mem.read_putBytes_in {a i : Nat} {l : List Nat} (m : Mem) (h : i < l.length) :
    Mem.read (Mem.putBytes m a l) (a + i) = BitVec.ofNat 8 l[i] := by
  induction l generalizing m a i with
  | nil => simp at h
  | cons x t ih =>
    rw [Mem.putBytes]
    cases i with
    | zero => rw [Mem.read_putBytes_out _ (by omega)]; simp
    | succ i =>
      have := ih (a := a + 1) (i := i) (Mem.write m a (BitVec.ofNat 8 x)) (by simpa using h)
      rw [show a + (i + 1) = a + 1 + i by omega, this]
      simp

end Sys2Proof.Machine
end

