-- ==== Sys2Proof/Laws/State.lean ====
section
/-! SUPPORT. Laws of the state: what a field reads after a field has been written, and what each named update of the state leaves
alone. -/

namespace Sys2Proof.Machine

variable (s : State) (p q v : Nat) (f g : Fld)

/-! ### Fields -/

@[simp] theorem State.rd_wr_self : (s.wr p f v).rd p f = v % 2 ^ f.w := by simp [State.rd, State.wr]

theorem State.rd_wr_key {s : State} {p q v : Nat} {f g : Fld} (h : fkey p f ≠ fkey q g) : (s.wr q g v).rd p f = s.rd p f := by
  simp only [State.rd, State.wr]
  exact Store.getD_setD_ne h _ _ _ _

theorem State.find_wr {s : State} {q v : Nat} {g : Fld} {k : Nat} (h : k ≠ fkey q g) :
    Store.find k (s.wr q g v).regs = Store.find k s.regs := by
  simp only [State.wr]
  exact Store.find_setD_ne h _ _ _

/-- Equal entries read equal. -/
theorem State.rd_congr {s t : State} {p : Nat} {f : Fld} (h : Store.find (fkey p f) t.regs = Store.find (fkey p f) s.regs) :
    t.rd p f = s.rd p f := by simp only [State.rd, Store.getD, h]

/-- A field of the page at `q` after a write of a field of the same page. -/
theorem State.rd_wr_same {s : State} {q v : Nat} {f g : Fld} (h : ¬ (f.off * 32 + f.lo = g.off * 32 + g.lo)) :
    (s.wr q g v).rd q f = s.rd q f := by
  apply State.rd_wr_key
  simp only [fkey]
  omega

theorem State.wb_eq (b : Bool) : s.wb p f b = s.wr p f (b2n b) := rfl
theorem State.cnt_eq (n : Nat) : s.cnt p f n = s.wr p f (satAdd f.w (s.rd p f) n) := rfl
theorem State.inc_eq (n : Nat) : s.inc p f n = s.wr p f (s.rd p f + n) := rfl
theorem State.on_eq : s.on p f = decide (s.rd p f = 1) := rfl

/-! ### Pages: where each block's pages lie (R38) -/

theorem pg_sys (i : Nat) : pg .sys i = 0x0 + 0x1000 * i := rfl
theorem pg_own (i : Nat) : pg .own i = 0x1000 + 0x1000 * (i - 1) := rfl
theorem pg_pwr (i : Nat) : pg .pwr i = 0x3000 + 0x1000 * i := rfl
theorem pg_clk (i : Nat) : pg .clk i = 0x4000 + 0x1000 * i := rfl
theorem pg_mss (i : Nat) : pg .mss i = 0x5000 + 0x1000 * i := rfl
theorem pg_dbk (i : Nat) : pg .dbk i = 0x6000 + 0x1000 * i := rfl
theorem pg_far (i : Nat) : pg .far i = 0x7000 + 0x1000 * i := rfl
theorem pg_upd (i : Nat) : pg .upd i = 0x8000 + 0x1000 * i := rfl
theorem pg_sag (i : Nat) : pg .sag i = 0x9000 + 0x1000 * i := rfl
theorem pg_tb (i : Nat) : pg .tb i = 0xA000 + 0x1000 * i := rfl
theorem pg_pci (i : Nat) : pg .pci i = 0xB000 + 0x1000 * i := rfl
theorem pg_tst (i : Nat) : pg .tst i = 0xC000 + 0x1000 * i := rfl
theorem pg_xb (i : Nat) : pg .xb i = 0x10000 + 0x1000 * i := rfl
theorem pg_grd (i : Nat) : pg .grd i = 0x11000 + 0x1000 * i := rfl
theorem pg_hit (i : Nat) : pg .hit i = 0x1D000 + 0x1000 * i := rfl
theorem pg_loft (i : Nat) : pg .loft i = 0x1E000 + 0x1000 * i := rfl
theorem pg_dmc (i : Nat) : pg .dmc i = 0x20000 + 0x1000 * i := rfl
theorem pg_dec (i : Nat) : pg .dec i = 0x30000 + 0x1000 * i := rfl
theorem pg_enc (i : Nat) : pg .enc i = 0x38000 + 0x1000 * i := rfl
theorem pg_cmp (i : Nat) : pg .cmp i = 0x3A000 + 0x1000 * i := rfl
theorem pg_bay (i : Nat) : pg .bay i = 0x3C000 + 0x1000 * i := rfl
theorem pg_feed (i : Nat) : pg .feed i = 0x3D000 + 0x1000 * i := rfl
theorem pg_yk (i : Nat) : pg .yk i = 0x3E000 + 0x1000 * i := rfl
theorem pg_gate (i : Nat) : pg .gate i = 0x40000 + 0x1000 * i := rfl
theorem pg_bl (i : Nat) : pg .bl i = 0x44000 + 0x1000 * i := rfl
theorem pg_tch (i : Nat) : pg .tch i = 0x48000 + 0x1000 * i := rfl
theorem pg_net (i : Nat) : pg .net i = 0x50000 + 0x1000 * i := rfl
theorem pg_cvu (i : Nat) : pg .cvu i = 0x70000 + 0x1000 * i := rfl
theorem pg_drv (i : Nat) : pg .drv i = 0x90000 + 0x1000 * i := rfl
theorem pg_ln (i : Nat) : pg .ln i = 0x100000 + 0x1000 * i := rfl
theorem pg_hd (i : Nat) : pg .hd i = 0x1000000 + 0x1000 * i := rfl

end Sys2Proof.Machine
end

