-- ==== Sys2Proof/Laws/Frame.lean ====
section
/-! SUPPORT. The calculus of frames: what writes of fields and events of a page leave unchanged. -/

namespace Sys2Proof.Machine

variable {s t u : State} {l : List Nat} {q p : Nat}

/-! ### Register writes alone -/

theorem onlyRegs_refl : onlyRegs l s s := ⟨rfl, fun _ _ => rfl⟩

theorem onlyRegs_wr {f : Fld} {v : Nat} (hf : fkey p f ∈ l) (h : onlyRegs l s t) : onlyRegs l s (t.wr p f v) := by
  obtain ⟨h1, h2⟩ := h
  refine ⟨?_, fun k hk => ?_⟩
  · rw [h1]; rfl
  · rw [State.find_wr (by rintro rfl; exact hk hf), h2 k hk]

theorem onlyRegs_wb {f : Fld} {b : Bool} (hf : fkey p f ∈ l) (h : onlyRegs l s t) : onlyRegs l s (t.wb p f b) := onlyRegs_wr hf h

theorem onlyRegs_cnt {f : Fld} {n : Nat} (hf : fkey p f ∈ l) (h : onlyRegs l s t) : onlyRegs l s (t.cnt p f n) := onlyRegs_wr hf h

theorem onlyRegs_inc {f : Fld} {n : Nat} (hf : fkey p f ∈ l) (h : onlyRegs l s t) : onlyRegs l s (t.inc p f n) := onlyRegs_wr hf h

theorem onlyRegs.rd (h : onlyRegs l s t) {f : Fld} (hk : fkey p f ∉ l) : t.rd p f = s.rd p f := State.rd_congr (h.2 _ hk)

/-! ### Events -/

/-- The keys of a page's ring descriptor are none that its events change. -/
def ringKeysFree (q : Nat) (l : List Nat) : Prop :=
  (fkey q EVT_RING_BASE ∉ l ∧ ¬ evKey q (fkey q EVT_RING_BASE)) ∧ (fkey q EVT_RING_SIZE ∉ l ∧ ¬ evKey q (fkey q EVT_RING_SIZE))

theorem onlyRegsEv_refl : onlyRegsEv l q s s := ⟨rfl, fun _ _ _ => rfl, fun _ _ => rfl, fun _ _ => rfl⟩

theorem onlyRegs.toEv (h : onlyRegs l s t) : onlyRegsEv l q s t := by
  obtain ⟨h1, h2⟩ := h
  refine ⟨?_, fun k hk _ => h2 k hk, fun a _ => ?_, fun p _ => ?_⟩ <;> rw [h1]

theorem onlyRegsEv_wr {f : Fld} {v : Nat} (hf : fkey p f ∈ l) (h : onlyRegsEv l q s t) : onlyRegsEv l q s (t.wr p f v) := by
  obtain ⟨h1, h2, h3, h4⟩ := h
  refine ⟨?_, fun k hk hq => ?_, h3, h4⟩
  · conv_lhs => rw [h1]
    rfl
  · rw [State.find_wr (by rintro rfl; exact hk hf), h2 k hk hq]

theorem onlyRegsEv_wrEv {f : Fld} {v : Nat} (hf : evKey q (fkey p f)) (h : onlyRegsEv l q s t) :
    onlyRegsEv l q s (t.wr p f v) := by
  obtain ⟨h1, h2, h3, h4⟩ := h
  refine ⟨?_, fun k hk hq => ?_, h3, h4⟩
  · conv_lhs => rw [h1]
    rfl
  · rw [State.find_wr (by rintro rfl; exact hq hf), h2 k hk hq]

theorem onlyRegsEv_wb {f : Fld} {b : Bool} (hf : fkey p f ∈ l) (h : onlyRegsEv l q s t) : onlyRegsEv l q s (t.wb p f b) :=
  onlyRegsEv_wr hf h

theorem onlyRegsEv_cnt {f : Fld} {n : Nat} (hf : fkey p f ∈ l) (h : onlyRegsEv l q s t) : onlyRegsEv l q s (t.cnt p f n) :=
  onlyRegsEv_wr hf h

theorem onlyRegsEv_inc {f : Fld} {n : Nat} (hf : fkey p f ∈ l) (h : onlyRegsEv l q s t) : onlyRegsEv l q s (t.inc p f n) :=
  onlyRegsEv_wr hf h

theorem onlyRegsEv.rd (h : onlyRegsEv l q s t) {f : Fld} (hk : fkey p f ∉ l) (hq : ¬ evKey q (fkey p f)) :
    t.rd p f = s.rd p f := State.rd_congr (h.2.1 _ hk hq)

theorem onlyRegsEv_emitOut {o : Out} (h : onlyRegsEv l q s t) : onlyRegsEv l q s (t.emitOut o) := by
  obtain ⟨h1, h2, h3, h4⟩ := h
  refine ⟨?_, h2, h3, h4⟩
  conv_lhs => rw [h1]
  rfl

theorem Mem.read_writeLE_out {a b v n : Nat} (m : Mem) (h : b < a ∨ a + n ≤ b) : (Mem.writeLE m a v n).read b = m.read b := by
  induction n generalizing m a v with
  | zero => rfl
  | succ n ih => rw [Mem.writeLE, ih _ (by omega), Mem.read_write_ne (by omega)]

/-- A write of the loft changes loft bytes of the words it touches, and their check bytes, and nothing else. -/
theorem State.loftMerged_spec {wd : Nat} (h : s.loftMerged wd = some t) :
    t = { s with loft := t.loft, loftSyn := t.loftSyn } ∧ ∀ a, a / 8 ≠ wd → t.loft.read a = s.loft.read a := by
  unfold State.loftMerged at h
  split at h
  · cases h; exact ⟨rfl, fun _ _ => rfl⟩
  · split at h
    · cases h
      exact ⟨rfl, fun a ha => Mem.read_writeLE_out _ (by omega)⟩
    · cases h

theorem State.loftPut_spec (s : State) (off : Nat) (b : List Nat) :
    s.loftPut off b = { s with loft := (s.loftPut off b).loft, loftSyn := (s.loftPut off b).loftSyn } ∧
    ∀ a, a < off / 8 * 8 ∨ (off + b.length + 7) / 8 * 8 ≤ a → (s.loftPut off b).loft.read a = s.loft.read a := by
  have hm : ∀ (u : State) (c : Prop) [Decidable c] (w : Nat),
      let x := (if c then some u else u.loftMerged w).getD u
      x = { u with loft := x.loft, loftSyn := x.loftSyn } ∧ ∀ a, a / 8 ≠ w ∨ c → x.loft.read a = u.loft.read a := by
    intro u c _ w
    dsimp only
    split
    · exact ⟨rfl, fun _ _ => rfl⟩
    · rename_i hc
      cases hx : u.loftMerged w with
      | none => exact ⟨rfl, fun _ _ => rfl⟩
      | some x => exact ⟨(State.loftMerged_spec hx).1, fun a ha => (State.loftMerged_spec hx).2 a (by tauto)⟩
  unfold State.loftPut
  dsimp only
  generalize ha : (if off % 8 = 0 ∨ b = [] then some s else s.loftMerged (off / 8)) = A
  have h1 := hm s (off % 8 = 0 ∨ b = []) (off / 8)
  rw [ha] at h1
  dsimp only at h1
  generalize A.getD s = u at h1 ⊢
  generalize hlo : (if A.isSome = true then off else min (off + b.length) (off / 8 * 8 + 8)) = lo
  generalize hB : (if (off + b.length) % 8 = 0 ∨ off + b.length ≤ lo then some u else u.loftMerged ((off + b.length) / 8)) = B
  have h2 := hm u ((off + b.length) % 8 = 0 ∨ off + b.length ≤ lo) ((off + b.length) / 8)
  rw [hB] at h2
  dsimp only at h2
  generalize B.getD u = v at h2 ⊢
  generalize hhi : (if B.isSome = true then off + b.length else max lo ((off + b.length) / 8 * 8)) = hi
  have hge : off ≤ lo := by
    rw [← hlo]; split <;> omega
  have hle : hi ≤ max lo (off + b.length) := by
    rw [← hhi]; split <;> omega
  have hlo2 : lo ≤ off + b.length := by
    rw [← hlo]; split <;> omega
  refine ⟨?_, fun a ha => ?_⟩
  · rw [State.loftStore, h2.1, h1.1]
  · show (Mem.putBytes v.loft lo _).read a = _
    rw [Mem.read_putBytes_out _ (by simp only [List.length_take, List.length_drop]; omega), h2.2 a ?_, h1.2 a ?_]
    · by_cases hb : b = []
      · right; right; exact hb
      · have : 0 < b.length := List.length_pos_iff.mpr hb
        by_cases h8 : off % 8 = 0
        · exact .inr (.inl h8)
        · left; omega
    · by_cases h8 : (off + b.length) % 8 = 0
      · exact .inr (.inl h8)
      · left; omega

/-- Bytes written to the loft inside the page's ring. -/
theorem onlyRegsEv_loftPut {off : Nat} {b : List Nat}
    (hr : ∀ a, off / 8 * 8 ≤ a → a < (off + b.length + 7) / 8 * 8 → inRing s q a) (h : onlyRegsEv l q s t) :
    onlyRegsEv l q s (t.loftPut off b) := by
  obtain ⟨h1, h2, h3, h4⟩ := h
  obtain ⟨e, hp⟩ := State.loftPut_spec t off b
  generalize t.loftPut off b = u at e hp ⊢
  obtain ⟨m, y, rfl⟩ : ∃ m y, u = { t with loft := m, loftSyn := y } := ⟨_, _, e⟩
  refine ⟨?_, h2, fun a ha => ?_, h4⟩
  · dsimp only
    conv_lhs => rw [h1]
  · rw [← h3 a ha]
    refine hp a ?_
    by_contra hc
    exact ha (hr a (by omega) (by omega))

theorem leBytes_length (v n : Nat) : (leBytes v n).length = n := by
  induction n generalizing v with
  | zero => rfl
  | succ n ih => simp [leBytes, ih]

theorem padTo_length (n : Nat) (b : List Nat) : (padTo n b).length = n := by
  simp only [padTo, List.length_take, List.length_append, List.length_replicate]
  omega

theorem onlyRegsEv_dbkAppend {r : Rec} (h : onlyRegsEv l q s t) : onlyRegsEv l q s (t.dbkAppend r) := by
  have hw : evKey q (fkey (pg .dbk 0) DBK_WR_COUNT) := .inr (.inl rfl)
  have hl : evKey q (fkey (pg .dbk 0) DBK_LOST_COUNT) := .inr (.inr (.inl rfl))
  have hd : ∀ d : Store Rec, onlyRegsEv l q s { t with dbk := d } := fun d => by
    obtain ⟨h1, h2, h3, h4⟩ := h
    refine ⟨?_, h2, h3, h4⟩
    conv_lhs => rw [h1]
  unfold State.dbkAppend
  dsimp only
  split
  · exact onlyRegsEv_wrEv hw (hd _)
  · split
    · exact onlyRegsEv_wrEv hl h
    · exact onlyRegsEv_wrEv hl (onlyRegsEv_wrEv hw (hd _))

theorem onlyRegsEv_raisePage {n : Nat} (h : onlyRegsEv l q s t) : onlyRegsEv l q s (t.raisePage n) := by
  unfold State.raisePage State.raiseTarget
  split
  · unfold State.raiseMsix
    dsimp only
    split
    · refine onlyRegsEv_wrEv (.inr (.inr (.inr ?_))) h
      simp only [fkey, MSIP_PEND]
      omega
    · exact onlyRegsEv_emitOut h
  · split
    · split
      · exact onlyRegsEv_emitOut h
      · exact h
    · split
      · exact onlyRegsEv_emitOut h
      · exact h

theorem onlyRegsEv_ringAppend {r : Rec} (hq : ringKeysFree q l) (h : onlyRegsEv l q s t) :
    onlyRegsEv l q s (t.ringAppend q r) := by
  have hb := h.rd hq.1.1 hq.1.2
  have hz := h.rd hq.2.1 hq.2.2
  have hin : ∀ a, 4096 * s.rd q EVT_RING_BASE ≤ a → a < 4096 * s.rd q EVT_RING_BASE + ringArea (s.rd q EVT_RING_SIZE) →
      inRing s q a := fun a h1 h2 => ⟨h1, h2⟩
  have hp : 1 ≤ ringSlots (s.rd q EVT_RING_SIZE) := Nat.one_le_two_pow
  unfold State.ringAppend
  dsimp only
  split
  · exact h
  · split
    · refine onlyRegsEv_wrEv (.inl rfl) (onlyRegsEv_loftPut ?_ h)
      intro a ha1 ha2
      simp only [leBytes_length] at ha2
      rw [hb] at ha1 ha2
      exact hin _ (by omega) (by unfold ringArea; omega)
    · unfold State.ringPut
      dsimp only
      refine onlyRegsEv_loftPut ?_ (onlyRegsEv_loftPut ?_ h)
      · intro a ha1 ha2
        simp only [leBytes_length] at ha2
        rw [hb] at ha1 ha2
        exact hin _ (by omega) (by unfold ringArea; omega)
      · intro a ha1 ha2
        simp only [padTo_length] at ha2
        rw [hb, hz] at ha1 ha2
        have := Nat.mod_lt (t.loftLE (4096 * s.rd q EVT_RING_BASE) 4) (show ringSlots (s.rd q EVT_RING_SIZE) > 0 from hp)
        exact hin _ (by omega) (by unfold ringArea; omega)

/-- An event of a page changes what `onlyRegsEv` names and nothing else. -/
theorem onlyRegsEv_emitAt {n code : Nat} {d : List Nat} (hq : ringKeysFree q l) (h : onlyRegsEv l q s t) :
    onlyRegsEv l q s (t.emitAt q n code d) := by
  have hs : ∀ v, onlyRegsEv l q s { t with evSeq := Store.setD 0 q v t.evSeq } := fun v => by
    obtain ⟨h1, h2, h3, h4⟩ := h
    refine ⟨?_, h2, h3, fun p hp => ?_⟩
    · conv_lhs => rw [h1]
    · rw [← h4 p hp]
      exact Store.find_setD_ne hp _ _ _
  have hr : ∀ v w, onlyRegsEv l q s (State.wr { t with evSeq := Store.setD 0 q w t.evSeq } q HDR_EVT_RAW_RAW v) :=
    fun v w => onlyRegsEv_wrEv (.inl rfl) (hs w)
  unfold State.emitAt
  dsimp only
  split <;> split
  · exact onlyRegsEv_raisePage (onlyRegsEv_ringAppend hq (onlyRegsEv_dbkAppend (hr _ _)))
  · exact onlyRegsEv_ringAppend hq (onlyRegsEv_dbkAppend (hr _ _))
  · exact onlyRegsEv_raisePage (onlyRegsEv_ringAppend hq (hr _ _))
  · exact onlyRegsEv_ringAppend hq (hr _ _)

theorem onlyRegsEv_emit {code : Nat} {d : List Nat} (hq : ringKeysFree q l) (h : onlyRegsEv l q s t) :
    onlyRegsEv l q s (t.emit q code d) := onlyRegsEv_emitAt hq h

/-- A field that no event of the page changes reads as before after one. -/
theorem State.rd_emit {code : Nat} {d : List Nat} {f : Fld} (hq : ringKeysFree q []) (hk : ¬ evKey q (fkey p f)) :
    (s.emit q code d).rd p f = s.rd p f :=
  (onlyRegsEv_emit (l := []) hq onlyRegsEv_refl).rd (by simp) hk

end Sys2Proof.Machine
end

