-- ==== Sys2Proof/Laws/Keeps.lean ====
section
/-! SUPPORT. What every operation and every meaning keeps: the queue of commands, and the canonical form of the memories. The
lemmas `<name>_keeps` of the files Keeps* say it of one function each, in the order of the modules; a function that answers more than
a state is met by its last component, a meaning by `KeepsOut`. -/

set_option autoImplicit false

namespace Sys2Proof.Machine

/-- Nothing that a command may not touch has changed from `s` to `t`: the queue is as it was, and memories that were canonical
still are. -/
def Keeps (s t : State) : Prop := t.pending = s.pending ∧ (s.memWf = true → t.memWf = true)

/-- The same of a next state that an outcome answers. -/
def KeepsOut (s : State) (o : Host.Outcome State Fault Refusal) : Prop := ∀ t, o = .next t → Keeps s t

theorem keeps_refl (s : State) : Keeps s s := ⟨rfl, id⟩

variable {r : State}

/-- A state that differs in neither the queue nor a memory. -/
theorem keeps_of {s t : State} (h : Keeps r s) (h0 : t.pending = s.pending) (h1 : t.loft = s.loft) (h2 : t.dram = s.dram)
    (h3 : t.sram = s.sram) (h4 : t.host = s.host) (h5 : t.nvm = s.nvm) (h6 : t.nor = s.nor) : Keeps r t := by
  refine ⟨h0.trans h.1, fun w => ?_⟩
  have := h.2 w
  simp only [State.memWf] at this ⊢
  rw [h1, h2, h3, h4, h5, h6]; exact this

theorem keeps_ite {c : Prop} [Decidable c] {a b : State} (ha : Keeps r a) (hb : Keeps r b) : Keeps r (if c then a else b) := by
  split <;> assumption

/-- The state in a tuple that a function answers. -/
theorem keeps_snd {α : Type} {p : α × State} {a : α} {t : State} (e : p = (a, t)) (h : Keeps r p.2) : Keeps r t := by
  rw [e] at h; exact h

theorem keeps_snd2 {α β : Type} {p : α × β × State} {a : α} {b : β} {t : State} (e : p = (a, b, t))
    (h : Keeps r p.2.2) : Keeps r t := by
  rw [e] at h; exact h

theorem keeps_snd3 {α β γ : Type} {p : α × β × γ × State} {a : α} {b : β} {c : γ} {t : State} (e : p = (a, b, c, t))
    (h : Keeps r p.2.2.2) :
    Keeps r t := by
  rw [e] at h; exact h

theorem keeps_snd4 {α β γ δ : Type} {p : α × β × γ × δ × State} {a : α} {b : β} {c : γ} {d : δ} {t : State} (e : p =
    (a, b, c, d, t))
    (h : Keeps r p.2.2.2.2) : Keeps r t := by
  rw [e] at h; exact h

/-- A meaning that always goes on. -/
theorem keeps_done {u : State} (h : Keeps r u) : KeepsOut r (done u) := by
  intro t e
  injection e with e
  exact e ▸ h

/-- A meaning run inside another (`nextOf`). -/
theorem keeps_nextOf {m : State → Host.Outcome State Fault Refusal} {s : State} (hm : KeepsOut r (m s)) (h : Keeps r s) :
    Keeps r (nextOf s m) := by
  unfold nextOf
  split
  · exact hm _ ‹_›
  · exact h

/-- A state whose queue is as it was and whose memories are canonical where they were. -/
theorem keeps_mem {s t : State} (h : Keeps r s) (h0 : t.pending = s.pending)
    (h1 : Memory.wf s.loft = true → Memory.wf t.loft = true) (h2 : Memory.wf s.dram = true → Memory.wf t.dram = true)
    (h3 : Memory.wf s.sram = true → Memory.wf t.sram = true) (h4 : Memory.wf s.host = true → Memory.wf t.host = true)
    (h5 : Memory.wf s.nvm = true → Memory.wf t.nvm = true)
    (h6 : Memory.wfD 0xFF s.nor = true → Memory.wfD 0xFF t.nor = true) : Keeps r t := by
  refine ⟨h0.trans h.1, fun w => ?_⟩
  have := h.2 w
  unfold State.memWf at this ⊢
  rw [Bool.and_eq_true, Bool.and_eq_true, Bool.and_eq_true, Bool.and_eq_true, Bool.and_eq_true] at this ⊢
  exact ⟨⟨⟨⟨⟨h1 this.1.1.1.1.1, h2 this.1.1.1.1.2⟩, h3 this.1.1.1.2⟩, h4 this.1.1.2⟩, h5 this.1.2⟩, h6 this.2⟩

theorem wf_keep {p : Nat → Bool} {d : Byte} {m : Mem} (h : Memory.wfD d m = true) : Memory.wfD d (Store.keep p m) = true :=
  Mem.wfD_filter _ h

/-- Slot B's header erased, or not. -/
theorem wf_aborted {s : State} (w : Memory.wfD 0xFF s.nor = true) : Memory.wfD 0xFF s.updAbort.nor = true := by
  unfold State.updAbort
  split
  · exact w
  · exact wf_keep (p := fun k => decide (k < 0x2000000) || decide (0x2001000 ≤ k)) w

theorem memPerform_wf {m : Mem} (a : Nat) (x : Part) (h : Memory.wf m = true) : Memory.wf (memPerform m a x).2 = true := by
  unfold memPerform
  split
  · exact Mem.wf_putBytes h _ _
  · exact Mem.wf_putBytes h _ _
  · exact h

/-- Slot B copied over an erased slot A (R432). -/
theorem copied_wf {m : Mem} {n : Nat} (h : Memory.wfD 0xFF m = true) :
    Memory.wfD 0xFF ((m.filter fun e => decide (0x2000000 ≤ e.1) && decide (e.1 < 0x2000000 + min n 0x2000000)).map (fun e =>
      (e.1 - 0x2000000, e.2)) ++ Store.keep (fun k => decide (k < 0) || decide (0x2000000 ≤ k)) m) = true := by
  simp only [Memory.wfD, Bool.and_eq_true, Store.sorted_iff, Store.noDefault, List.all_eq_true] at h ⊢
  refine ⟨List.pairwise_append.2 ⟨List.pairwise_map.2 ?_, ?_, ?_⟩, ?_⟩
  · refine List.Pairwise.imp_of_mem ?_ (h.1.filter _)
    intro a b ha hb hab
    have := (List.mem_filter.1 ha).2
    have := (List.mem_filter.1 hb).2
    simp at *
    omega
  · exact h.1.filter _
  · intro a ha b hb
    obtain ⟨c, hc, rfl⟩ := List.mem_map.1 ha
    have := (List.mem_filter.1 hc).2
    have := (List.mem_filter.1 hb).2
    simp at *
    omega
  · intro x hx
    rcases List.mem_append.1 hx with hx | hx
    · obtain ⟨c, hc, rfl⟩ := List.mem_map.1 hx
      exact h.2 c (List.mem_filter.1 hc).1
    · exact h.2 x (List.mem_filter.1 hx).1

theorem keeps_foldl {α : Type} {f : State → α → State} {l : List α} {s : State} (hf : ∀ s x, Keeps r s → Keeps r (f s x))
    (h : Keeps r s) : Keeps r (l.foldl f s) := by
  induction l generalizing s with
  | nil => exact h
  | cons a l ih => exact ih (hf _ _ h)

theorem keeps_foldl2 {α β : Type} {f : β × State → α → β × State} {l : List α} {p : β × State}
    (hf : ∀ p x, Keeps r p.2 → Keeps r (f p x).2) (h : Keeps r p.2) : Keeps r (l.foldl f p).2 := by
  induction l generalizing p with
  | nil => exact h
  | cons a l ih => exact ih (hf _ _ h)

/-- A record update that touches neither the queue nor a memory. -/
theorem keeps_mk {x : State} {a1 a2 a3 a4 a5 a6 a7 a8 a9 a10 a12 a14 a15 a16 a19 a20 a21 a22 a23 a24 a25 a26 a27 a28 a29 a30
    a31 a32 a33 a34 a35 a36 a37 a38 a39 a40 a41 a42 a43 a44 a45 a46 a47 a48 a49 a50 a51 a52 a53 a54} (h : Keeps r x) :
    Keeps r (State.mk a1 a2 a3 a4 a5 a6 a7 a8 a9 a10 x.loft a12 x.dram a14 a15 a16 x.sram x.host a19 a20 a21 a22 a23 a24 a25
      a26 a27 a28 a29 a30 a31 a32 a33 a34 a35 a36 a37 a38 a39 a40 a41 a42 a43 a44 a45 a46 a47 a48 a49 a50 a51 a52 a53 a54
      x.nvm x.nor x.pending) :=
  keeps_of h rfl rfl rfl rfl rfl rfl rfl

end Sys2Proof.Machine
end

