-- ==== Sys2Proof/Laws/KeepsOps.lean ====
section
/-! SUPPORT. Every operation keeps the queue and canonical memories, by module: the shared operations, guards, bays, the DRAM controller, the loft and the fabric. -/

set_option autoImplicit false

namespace Sys2Proof.Machine

variable {r : State}

/-! ### Ops -/

theorem State.wr_keeps {s : State} (p : Nat) (f : Fld) (v : Nat) (h : Keeps r s) : Keeps r (State.wr s p f v) := by
  unfold State.wr
  repeat' with_reducible first | assumption | fail_if_no_progress apply keeps_mk

theorem State.wb_keeps {s : State} (p : Nat) (f : Fld) (b : Bool) (h : Keeps r s) : Keeps r (State.wb s p f b) := by
  unfold State.wb
  repeat' with_reducible first | assumption | apply State.wr_keeps

theorem State.cnt_keeps {s : State} (p : Nat) (f : Fld) (n : Nat) (h : Keeps r s) : Keeps r (State.cnt s p f n) := by
  unfold State.cnt
  repeat' with_reducible first | assumption | apply State.wr_keeps

theorem State.inc_keeps {s : State} (p : Nat) (f : Fld) (n : Nat) (h : Keeps r s) : Keeps r (State.inc s p f n) := by
  unfold State.inc
  repeat' with_reducible first | assumption | apply State.wr_keeps

theorem State.wr64_keeps {s : State} (p : Nat) (lo : Fld) (hi : Fld) (v : Nat) (h : Keeps r s) : Keeps r
    (State.wr64 s p lo hi v) := by
  unfold State.wr64
  repeat' with_reducible first | assumption | apply State.wr_keeps

theorem State.capture_keeps {s : State} (p : Nat) (l : List Fld) (h : Keeps r s) : Keeps r (State.capture s p l) := by
  unfold State.capture
  repeat' with_reducible first | assumption | fail_if_no_progress apply keeps_mk

theorem State.activate_keeps {s : State} (p : Nat) (l : List Fld) (h : Keeps r s) : Keeps r (State.activate s p l) := by
  unfold State.activate
  repeat' with_reducible first | assumption | fail_if_no_progress apply keeps_mk

theorem State.commitNow_keeps {s : State} (p : Nat) (l : List Fld) (h : Keeps r s) : Keeps r (State.commitNow s p l) := by
  unfold State.commitNow
  repeat' with_reducible first | assumption | fail_if_no_progress apply keeps_mk

theorem State.clearRange_keeps {s : State} (a : Nat) (b : Nat) (keep : Nat → Bool) (h : Keeps r s) : Keeps r
    (State.clearRange s a b keep) := by
  unfold State.clearRange
  repeat' with_reducible first | assumption | fail_if_no_progress apply keeps_mk

theorem State.emitOut_keeps {s : State} (o : Out) (h : Keeps r s) : Keeps r (State.emitOut s o) := by
  unfold State.emitOut
  repeat' with_reducible first | assumption | fail_if_no_progress apply keeps_mk

theorem State.draw_keeps {s : State} (h : Keeps r s) : Keeps r (State.draw s).2 := by
  unfold State.draw
  repeat' with_reducible first | assumption | fail_if_no_progress apply keeps_mk

theorem State.draws_keeps {s : State} (k : Nat) (h : Keeps r s) : Keeps r (State.draws s k).2 := by
  unfold State.draws
  repeat' with_reducible first | assumption | fail_if_no_progress apply keeps_mk

theorem State.ret_keeps {s : State} (v : Nat) (h : Keeps r s) : Keeps r (State.ret s v) := by
  unfold State.ret
  repeat' with_reducible first | assumption | fail_if_no_progress apply keeps_mk

theorem State.rxlRun_keeps (n : Nat) {s : State} (e : Nat) (h : Keeps r s) : Keeps r (State.rxlRun n s e) := by
  unfold State.rxlRun
  repeat' with_reducible first | assumption | apply State.wr_keeps | apply State.wb_keeps | split | extract_lets

theorem State.setTime_keeps {s : State} (t : TimeSt) (h : Keeps r s) : Keeps r (State.setTime s t) := by
  unfold State.setTime
  repeat' with_reducible first | assumption | apply State.rxlRun_keeps | fail_if_no_progress apply keeps_mk | apply keeps_foldl

theorem State.clockEdge_keeps {s : State} (h : Keeps r s) : Keeps r (State.clockEdge s) := by
  unfold State.clockEdge
  repeat' with_reducible first | assumption | apply State.setTime_keeps

theorem State.advanceTo_keeps {s : State} (x : Nat) (h : Keeps r s) : Keeps r (State.advanceTo s x) := by
  unfold State.advanceTo
  repeat' with_reducible first | assumption | apply State.setTime_keeps | split

theorem State.advanceRun_keeps {s : State} (x : Nat) (h : Keeps r s) : Keeps r (State.advanceRun s x) := by
  unfold State.advanceRun
  repeat' with_reducible first | assumption | apply State.setTime_keeps | split

theorem State.loftStore_keeps {s : State} (off : Nat) (l : List Nat) (h : Keeps r s) : Keeps r (State.loftStore s off l) := by
  unfold State.loftStore
  exact keeps_mem h rfl (fun w => Mem.wf_putBytes w _ _) id id id id id

theorem State.loftMerged_keeps {s t : State} {wd : Nat} (e : s.loftMerged wd = some t) (h : Keeps r s) : Keeps r t := by
  unfold State.loftMerged at e
  split at e
  · injection e with e
    exact e ▸ h
  · split at e
    · injection e with e
      exact e ▸ keeps_mem h rfl (fun w => Mem.wf_writeLE w _ _ _) id id id id id
    · exact nomatch e

theorem State.loftPut_keeps {s : State} (off : Nat) (l : List Nat) (h : Keeps r s) : Keeps r (State.loftPut s off l) := by
  unfold State.loftPut
  extract_lets hi a lo u b hi2
  have ha : Keeps r u := by
    show Keeps r (a.getD s)
    cases e : a with
    | none => exact h
    | some v =>
      simp only [a] at e
      split at e
      · injection e with e
        exact e ▸ h
      · exact State.loftMerged_keeps e h
  refine State.loftStore_keeps _ _ ?_
  cases e : b with
  | none => exact ha
  | some v =>
    simp only [b] at e
    split at e
    · injection e with e
      exact e ▸ ha
    · exact State.loftMerged_keeps e ha

theorem State.loftPutLE_keeps {s : State} (off : Nat) (v : Nat) (n : Nat) (h : Keeps r s) : Keeps r
    (State.loftPutLE s off v n) := by
  unfold State.loftPutLE
  repeat' with_reducible first | assumption | apply State.loftPut_keeps

theorem State.raiseMsix_keeps {s : State} (n : Nat) (h : Keeps r s) : Keeps r (State.raiseMsix s n) := by
  unfold State.raiseMsix
  repeat' with_reducible first | assumption | apply State.wr_keeps | apply State.emitOut_keeps | split | extract_lets

theorem State.raiseTarget_keeps {s : State} (target : Nat) (vector : Nat) (h : Keeps r s) : Keeps r
    (State.raiseTarget s target vector) := by
  unfold State.raiseTarget
  repeat' with_reducible first | assumption | apply State.raiseMsix_keeps | apply State.emitOut_keeps | split

theorem State.raisePage_keeps {s : State} (p : Nat) (h : Keeps r s) : Keeps r (State.raisePage s p) := by
  unfold State.raisePage
  repeat' with_reducible first | assumption | apply State.raiseTarget_keeps

theorem State.ringPut_keeps {s : State} (base : Nat) (z : Nat) (item : List Nat) (h : Keeps r s) : Keeps r
    (State.ringPut s base z item) := by
  unfold State.ringPut
  repeat' with_reducible first | assumption | apply State.loftPut_keeps | apply State.loftPutLE_keeps

theorem State.ringAppend_keeps {s : State} (p : Nat) (r0 : Rec) (h : Keeps r s) : Keeps r (State.ringAppend s p r0) := by
  unfold State.ringAppend
  repeat' with_reducible first
      | assumption | apply State.wr_keeps | apply State.loftPutLE_keeps | apply State.ringPut_keeps | split | extract_lets

theorem State.dbkAppend_keeps {s : State} (r0 : Rec) (h : Keeps r s) : Keeps r (State.dbkAppend s r0) := by
  unfold State.dbkAppend
  repeat' with_reducible first
      | assumption | apply State.inc_keeps | apply State.cnt_keeps | fail_if_no_progress apply keeps_mk | split | extract_lets

theorem State.emitAt_keeps {s : State} (p : Nat) (t : Nat) (code : Nat) (data : List Nat) (h : Keeps r s) : Keeps r
    (State.emitAt s p t code data) := by
  unfold State.emitAt
  repeat' with_reducible first
      | assumption | apply State.wr_keeps | apply State.dbkAppend_keeps | apply State.ringAppend_keeps
      | apply State.raisePage_keeps | apply keeps_ite | fail_if_no_progress apply keeps_mk

theorem State.emit_keeps {s : State} (p : Nat) (code : Nat) (data : List Nat) (h : Keeps r s) : Keeps r
    (State.emit s p code data) := by
  unfold State.emit
  repeat' with_reducible first | assumption | apply State.emitAt_keeps

theorem State.emitLimited_keeps {s : State} (p : Nat) (key : Nat) (ms : Nat) (code : Nat) (data : List Nat) (h : Keeps r s)
    : Keeps r (State.emitLimited s p key ms code data) := by
  unfold State.emitLimited
  repeat' with_reducible first | assumption | apply State.emit_keeps | fail_if_no_progress apply keeps_mk | split

theorem State.accessFailed_keeps {s : State} (m : Nat) (k : AccKind) (code : Nat) (h : Keeps r s) : Keeps r
    (State.accessFailed s m k code) := by
  unfold State.accessFailed
  repeat' with_reducible first | assumption | apply State.emitOut_keeps | split

theorem State.errorResponse_keeps {s : State} (m : Nat) (k : AccKind) (code : Nat) (h : Keeps r s) : Keeps r
    (State.errorResponse s m k code) := by
  unfold State.errorResponse
  repeat' with_reducible first | assumption | apply State.accessFailed_keeps | apply State.emitOut_keeps

theorem State.missRecord_keeps {s : State} (w : Writer) (k : AccKind) (a : Nat) (h : Keeps r s) : Keeps r
    (State.missRecord s w k a) := by
  unfold State.missRecord
  repeat' with_reducible first | assumption | apply State.errorResponse_keeps | apply State.emit_keeps

theorem State.ownConflict_keeps {s : State} (req : Nat) (owner : Nat) (idx : Nat) (n : Nat) (h : Keeps r s) : Keeps r
    (State.ownConflict s req owner idx n) := by
  unfold State.ownConflict
  repeat' with_reducible first | assumption | apply State.emit_keeps

theorem State.enableFenced_keeps {s : State} (req : Nat) (unit : Nat) (idx : Nat) (writer : Nat) (h : Keeps r s) : Keeps r
    (State.enableFenced s req unit idx writer) := by
  unfold State.enableFenced
  repeat' with_reducible first | assumption | apply State.emit_keeps

theorem State.fencedTry_keeps {s : State} (w : Writer) (a : Nat) (v : Nat) (h : Keeps r s) : Keeps r
    (State.fencedTry s w a v) := by
  unfold State.fencedTry
  repeat' with_reducible first | assumption | apply State.enableFenced_keeps | split

theorem State.fencedWrite_keeps {s : State} (w : Writer) (a : Nat) (v : Nat) (h : Keeps r s) : Keeps r
    (State.fencedWrite s w a v) := by
  unfold State.fencedWrite
  repeat' with_reducible first | assumption | apply State.fencedTry_keeps | apply State.missRecord_keeps

theorem State.lockedWrite_keeps {s : State} (p : Nat) (off : Nat) (entry : Nat) (v : Nat) (w : Writer) (h : Keeps r s) : Keeps r
    (State.lockedWrite s p off entry v w) := by
  unfold State.lockedWrite
  repeat' with_reducible first | assumption | apply State.emit_keeps

theorem State.setTbState_keeps {s : State} (new : Nat) (h : Keeps r s) : Keeps r (State.setTbState s new) := by
  unfold State.setTbState
  repeat' with_reducible first
      | assumption | apply State.wr_keeps | apply State.emit_keeps | fail_if_no_progress apply keeps_mk | split | extract_lets

theorem State.holdoverCheck_keeps {s : State} (h : Keeps r s) : Keeps r (State.holdoverCheck s) := by
  unfold State.holdoverCheck
  repeat' with_reducible first | assumption | apply State.setTbState_keeps | split

theorem State.wake_keeps {s : State} (cause : Nat) (h : Keeps r s) : Keeps r (State.wake s cause) := by
  unfold State.wake
  repeat' with_reducible first
      | assumption | apply State.wr_keeps | apply State.emitOut_keeps | apply keeps_ite | fail_if_no_progress apply keeps_mk

theorem State.perturb_keeps {s : State} (p : Nat) (kind : Nat) (sel : Option Nat) (h : Keeps r s) : Keeps r
    (State.perturb s p kind sel).2 := by
  unfold State.perturb
  repeat' with_reducible first | assumption | apply State.wb_keeps | fail_if_no_progress apply keeps_mk | split | extract_lets

theorem State.pllAnew_keeps {s : State} (k : Nat) (h : Keeps r s) : Keeps r (State.pllAnew s k) := by
  unfold State.pllAnew
  repeat' with_reducible first | assumption | fail_if_no_progress apply keeps_mk

/-! ### Tick -/

theorem State.tick_keeps {s : State} (h : Keeps r s) : Keeps r (State.tick s) := by
  unfold State.tick
  repeat' with_reducible first | assumption | apply State.clockEdge_keeps

/-! ### Guard -/

theorem State.guardViolate_keeps {s : State} (g : Nat) (m : Nat) (fid : Nat) (k : AccKind) (addr : Nat) (region : Nat)
    (fault : Nat) (parts : Nat) (gen : Nat) (h : Keeps r s) : Keeps r
    (State.guardViolate s g m fid k addr region fault parts gen) := by
  unfold State.guardViolate
  repeat' with_reducible first
      | assumption | apply State.cnt_keeps | apply State.wr_keeps | apply State.wb_keeps | apply State.emit_keeps | split

theorem State.drained_keeps {s : State} (g : Nat) (h : Keeps r s) : Keeps r (State.drained s g) := by
  unfold State.drained
  repeat' with_reducible first | assumption | apply State.emit_keeps | apply State.wb_keeps

theorem State.guardBump_keeps {s : State} (g : Nat) (h : Keeps r s) : Keeps r (State.guardBump s g) := by
  unfold State.guardBump
  repeat' with_reducible first | assumption | apply State.drained_keeps | apply State.inc_keeps | apply State.wb_keeps | split

theorem State.setFields_keeps {s : State} (p : Nat) (l : List Fld) (v : Nat) (h : Keeps r s) : Keeps r
    (State.setFields s p l v) := by
  unfold State.setFields
  repeat' with_reducible first | assumption | intro _ | apply State.wr_keeps | apply keeps_foldl

theorem State.guardRuleWrite_keeps {s : State} (w : Writer) (g : Nat) (off : Nat) (v : Nat) (h : Keeps r s) : Keeps r
    (State.guardRuleWrite s w g off v) := by
  unfold State.guardRuleWrite
  repeat' with_reducible first
      | assumption | apply State.lockedWrite_keeps | apply State.guardBump_keeps | apply State.setFields_keeps | split
      | extract_lets

theorem execGuardRuleWrite_keeps (w : Writer) (g : Fin 12) (off : BitVec 12) (v : Word) {s : State} (h : Keeps r s) : KeepsOut r
    (execGuardRuleWrite w g off v s) := by
  unfold execGuardRuleWrite
  repeat' with_reducible first | assumption | apply State.guardRuleWrite_keeps | apply keeps_done

theorem execGuardDrained_keeps (g : Fin 12) {s : State} (h : Keeps r s) : KeepsOut r (execGuardDrained g s) := by
  unfold execGuardDrained
  repeat' with_reducible first | assumption | apply State.drained_keeps | apply keeps_done | split

theorem execGuardRegionLock_keeps (_w : Writer) (g : Fin 12) (k : Fin 64) {s : State} (h : Keeps r s) : KeepsOut r
    (execGuardRegionLock _w g k s) := by
  unfold execGuardRegionLock
  repeat' with_reducible first | assumption | apply State.guardBump_keeps | apply State.wb_keeps | apply keeps_done | split

/-! ### Yard -/

theorem State.bayToFree_keeps {s : State} (n : Nat) (h : Keeps r s) : Keeps r (State.bayToFree s n) := by
  unfold State.bayToFree
  repeat' with_reducible first | assumption | apply State.wr_keeps

theorem State.holdDrop_keeps {s : State} (n : Nat) (g : Nat) (h : Keeps r s) : Keeps r (State.holdDrop s n g) := by
  unfold State.holdDrop
  repeat' with_reducible first | assumption | apply State.wr_keeps | split

theorem State.ledgerDrop_keeps {s : State} (n : Nat) (h : Keeps r s) : Keeps r (State.ledgerDrop s n) := by
  unfold State.ledgerDrop
  repeat' with_reducible first
      | assumption | apply State.holdDrop_keeps | apply State.bayToFree_keeps | fail_if_no_progress apply keeps_mk | split
      | extract_lets

theorem State.bayReturn_keeps {s : State} (n : Nat) (h : Keeps r s) : Keeps r (State.bayReturn s n) := by
  unfold State.bayReturn
  repeat' with_reducible first | assumption | apply State.ledgerDrop_keeps | apply State.bayToFree_keeps | split

theorem State.holdTake_keeps {s : State} (n : Nat) (g : Nat) (h : Keeps r s) : Keeps r (State.holdTake s n g).2 := by
  unfold State.holdTake
  repeat' with_reducible first | assumption | apply State.inc_keeps | split

theorem State.holdRelease_keeps {s : State} (n : Nat) (g : Nat) (h : Keeps r s) : Keeps r (State.holdRelease s n g) := by
  unfold State.holdRelease
  repeat' with_reducible first | assumption | apply State.bayReturn_keeps | apply State.holdDrop_keeps

theorem State.ownerRelease_keeps {s : State} (n : Nat) (g : Nat) (h : Keeps r s) : Keeps r (State.ownerRelease s n g) := by
  unfold State.ownerRelease
  repeat' with_reducible first
      | assumption | apply State.bayReturn_keeps | apply State.wb_keeps | apply State.holdDrop_keeps | split

theorem State.marksClear_keeps {s : State} (n : Nat) (g : Nat) (m : Nat) (h : Keeps r s) : Keeps r
    (State.marksClear s n g m) := by
  unfold State.marksClear
  repeat' with_reducible first | assumption | apply State.bayReturn_keeps | apply State.wr_keeps | split

theorem State.marksSet_keeps {s : State} (n : Nat) (g : Nat) (m : Nat) (h : Keeps r s) : Keeps r (State.marksSet s n g m) := by
  unfold State.marksSet
  repeat' with_reducible first | assumption | apply State.wr_keeps | split

theorem State.resetFields_keeps {s : State} (p : Nat) (l : List Fld) (h : Keeps r s) : Keeps r (State.resetFields s p l) := by
  unfold State.resetFields
  repeat' with_reducible first | assumption | intro _ | apply State.wr_keeps | apply keeps_foldl

theorem State.bayHold_keeps {s : State} (n : Nat) (fid : Nat) (h : Keeps r s) : Keeps r (State.bayHold s n fid) := by
  unfold State.bayHold
  repeat' with_reducible first
      | assumption | apply State.wr_keeps | apply State.resetFields_keeps | apply State.inc_keeps | apply State.wb_keeps

theorem State.alloc_keeps {s : State} (cls : Nat) (fid : Nat) (h : Keeps r s) : Keeps r (State.alloc s cls fid).2 := by
  unfold State.alloc
  repeat' with_reducible first
      | assumption | apply State.bayHold_keeps | apply State.emitLimited_keeps | apply State.cnt_keeps | split | extract_lets

theorem State.bayForce_keeps {s : State} (n : Nat) (h : Keeps r s) : Keeps r (State.bayForce s n) := by
  unfold State.bayForce
  repeat' with_reducible first | assumption | apply State.bayReturn_keeps | apply State.wb_keeps | apply State.wr_keeps

theorem State.freeRefused_keeps {s : State} (w : Writer) (n : Nat) (gen : Nat) (reason : Nat) (h : Keeps r s) : Keeps r
    (State.freeRefused s w n gen reason) := by
  unfold State.freeRefused
  repeat' with_reducible first | assumption | apply State.emit_keeps

theorem State.descRefused_keeps {s : State} (w : Writer) (n : Nat) (off : Nat) (reason : Nat) (h : Keeps r s) : Keeps r
    (State.descRefused s w n off reason) := by
  unfold State.descRefused
  repeat' with_reducible first | assumption | apply State.emit_keeps

theorem State.bayDescWrite_keeps {s : State} (w : Writer) (n : Nat) (off : Nat) (v : Nat) (h : Keeps r s) : Keeps r
    (State.bayDescWrite s w n off v) := by
  unfold State.bayDescWrite
  repeat' with_reducible first
      | assumption | apply State.lockedWrite_keeps | apply State.descRefused_keeps | apply State.setFields_keeps | split
      | extract_lets

theorem State.encUpd_keeps {s : State} (p : Nat) (k : Nat) (f : EncCh → EncCh) (h : Keeps r s) : Keeps r
    (State.encUpd s p k f) := by
  unfold State.encUpd
  repeat' with_reducible first | assumption | fail_if_no_progress apply keeps_mk | split

theorem State.dropRecs_keeps {s : State} (l : List TapRec) (h : Keeps r s) : Keeps r (State.dropRecs s l) := by
  unfold State.dropRecs
  repeat' with_reducible first | assumption | intro _ | apply State.ownerRelease_keeps | apply keeps_foldl

theorem State.chEnd_keeps {s : State} (p : Nat) (k : Nat) (h : Keeps r s) : Keeps r (State.chEnd s p k) := by
  unfold State.chEnd
  repeat' with_reducible first
      | assumption | intro _ | apply State.dropRecs_keeps | apply State.ownerRelease_keeps | apply State.wr_keeps
      | apply State.wb_keeps | fail_if_no_progress apply keeps_mk | apply keeps_foldl | split

theorem State.chStop_keeps {s : State} (p : Nat) (k : Nat) (cause : Nat) (h : Keeps r s) : Keeps r
    (State.chStop s p k cause) := by
  unfold State.chStop
  repeat' with_reducible first | assumption | apply State.emit_keeps | apply State.chEnd_keeps

theorem State.ringsLost_keeps {s : State} (h : Keeps r s) : Keeps r (State.ringsLost s) := by
  unfold State.ringsLost
  repeat' with_reducible first | assumption | intro _ | apply State.chStop_keeps | apply keeps_foldl | split

theorem execBayDescWrite_keeps (w : Writer) (b : Fin 8192) (word : Fin 16) (v : Word) {s : State} (h : Keeps r s) : KeepsOut r
    (execBayDescWrite w b word v s) := by
  unfold execBayDescWrite
  repeat' with_reducible first | assumption | apply State.bayDescWrite_keeps | apply keeps_done

theorem execBayEnlist_keeps (w : Writer) (b : Fin 8192) (enlist : Bool) {s : State} (h : Keeps r s) : KeepsOut r
    (execBayEnlist w b enlist s) := by
  unfold execBayEnlist
  repeat' with_reducible first | assumption | apply State.wr_keeps | apply State.descRefused_keeps | apply keeps_done | split

theorem execBayAlloc_keeps (w : Writer) (cls : Fin 16) {s : State} (h : Keeps r s) : KeepsOut r (execBayAlloc w cls s) := by
  unfold execBayAlloc
  repeat' with_reducible first
      | assumption | apply State.alloc_keeps | apply State.ret_keeps | apply keeps_done | (apply keeps_snd; assumption) | split

theorem execBayFree_keeps (w : Writer) (b : Fin 8192) (gen : BitVec 16) {s : State} (h : Keeps r s) : KeepsOut r
    (execBayFree w b gen s) := by
  unfold execBayFree
  repeat' with_reducible first
      | assumption | apply State.freeRefused_keeps | apply State.ringsLost_keeps | apply State.ownerRelease_keeps
      | apply keeps_done | split

theorem execBayForceFree_keeps (w : Writer) (b : Fin 8192) (gen : BitVec 16) {s : State} (h : Keeps r s) : KeepsOut r
    (execBayForceFree w b gen s) := by
  unfold execBayForceFree
  repeat' with_reducible first
      | assumption | apply State.freeRefused_keeps | apply State.ringsLost_keeps | apply State.emit_keeps
      | apply State.bayForce_keeps | apply keeps_done | split

theorem State.apertureClose_keeps {s : State} (a : Nat) (h : Keeps r s) : Keeps r (State.apertureClose s a) := by
  unfold State.apertureClose
  repeat' with_reducible first | assumption | apply State.holdRelease_keeps | apply State.wb_keeps | split | extract_lets

theorem execApertureOpen_keeps (w : Writer) (a : Fin 16) (b : Fin 8192) (gen : BitVec 16) {s : State} (h : Keeps r s)
    : KeepsOut r (execApertureOpen w a b gen s) := by
  unfold execApertureOpen
  repeat' with_reducible first
      | assumption | apply State.emit_keeps | apply State.holdTake_keeps | apply State.wb_keeps | apply State.wr_keeps
      | apply keeps_done | split

theorem execApertureClose_keeps (_w : Writer) (a : Fin 16) {s : State} (h : Keeps r s) : KeepsOut r
    (execApertureClose _w a s) := by
  unfold execApertureClose
  repeat' with_reducible first | assumption | apply State.ringsLost_keeps | apply State.apertureClose_keeps | apply keeps_done

theorem State.baySoftReset_keeps {s : State} (w : Writer) (h : Keeps r s) : Keeps r (State.baySoftReset s w) := by
  unfold State.baySoftReset
  repeat' with_reducible first
      | assumption | intro _ | apply State.bayForce_keeps | apply State.emit_keeps | apply State.wr_keeps | apply State.wb_keeps
      | apply State.ringsLost_keeps | fail_if_no_progress apply keeps_mk | apply keeps_foldl

/-! ### MemOps -/

theorem State.dmcCapture_keeps {s : State} (n : Nat) (kind : Nat) (a : Nat) (master : Nat) (syn : Nat) (scrub : Bool)
    (h : Keeps r s) : Keeps r (State.dmcCapture s n kind a master syn scrub) := by
  unfold State.dmcCapture
  repeat' with_reducible first | assumption | apply State.wr_keeps | apply State.wb_keeps | split | extract_lets

theorem State.dmcCe_keeps {s : State} (n : Nat) (a : Nat) (master : Nat) (syn : Nat) (isMeta : Nat) (word : Nat) (scrub : Bool)
    (h : Keeps r s) : Keeps r (State.dmcCe s n a master syn isMeta word scrub) := by
  unfold State.dmcCe
  repeat' with_reducible first | assumption | apply State.emitLimited_keeps | apply State.cnt_keeps

theorem State.dmcUe_keeps {s : State} (n : Nat) (kind : Nat) (a : Nat) (master : Nat) (syn : Nat) (word : Nat) (scrub : Bool)
    (h : Keeps r s) : Keeps r (State.dmcUe s n kind a master syn word scrub) := by
  unfold State.dmcUe
  repeat' with_reducible first | assumption | apply State.emit_keeps | apply State.dmcCapture_keeps | apply State.cnt_keeps

theorem State.dmcMetaUe_keeps {s : State} (n : Nat) (a : Nat) (master : Nat) (syn : Nat) (scrub : Bool) (h : Keeps r s)
    : Keeps r (State.dmcMetaUe s n a master syn scrub) := by
  unfold State.dmcMetaUe
  repeat' with_reducible first | assumption | apply State.emit_keeps | apply State.dmcCapture_keeps | apply State.cnt_keeps

theorem State.dramFixWord_keeps {s : State} (wd : Nat) (v : Nat) (h : Keeps r s) : Keeps r (State.dramFixWord s wd v) := by
  exact keeps_mem h rfl id (fun w => Mem.wf_writeLE w _ _ _) id id id id

theorem State.readWord_keeps {s : State} (n : Nat) (master : Nat) (newer : Nat → Bool) (wd : Nat) (h : Keeps r s) : Keeps r
    (State.readWord s n master newer wd).2 := by
  unfold State.readWord
  repeat' with_reducible first
      | assumption | apply State.dmcCe_keeps | apply State.dramFixWord_keeps | apply State.dmcUe_keeps | split | extract_lets

theorem State.readWords_keeps {s : State} (n : Nat) (master : Nat) (newer : Nat → Bool) (a : List Nat) (h : Keeps r s) : Keeps r
    (State.readWords s n master newer a).2 := by
  induction a generalizing s
  all_goals unfold State.readWords
  all_goals
    repeat' with_reducible first | apply_assumption | apply State.readWord_keeps

theorem State.readMeta_keeps {s : State} (n : Nat) (master : Nat) (tagged : Bool) (newer : Bool) (line : Nat) (h : Keeps r s)
    : Keeps r (State.readMeta s n master tagged newer line) := by
  unfold State.readMeta
  repeat' with_reducible first
      | assumption | apply State.dmcCe_keeps | apply State.cnt_keeps | apply State.dmcMetaUe_keeps
      | fail_if_no_progress apply keeps_mk | split | extract_lets

theorem State.dramRead_keeps {s : State} (master : Nat) (a : Nat) (len : Nat) (tag : Option Tag) (newer : Nat → Bool)
    (h : Keeps r s) : Keeps r (State.dramRead s master a len tag newer).2.2 := by
  unfold State.dramRead
  repeat' with_reducible first
      | assumption | intro _ | apply State.emit_keeps | apply State.dmcCapture_keeps | apply State.cnt_keeps
      | apply State.readMeta_keeps | apply State.readWords_keeps | apply keeps_foldl | split

theorem State.setMeta_keeps {s : State} (m : Nat) (line : Nat) (h : Keeps r s) : Keeps r (State.setMeta s m line) := by
  unfold State.setMeta
  repeat' with_reducible first | assumption | fail_if_no_progress apply keeps_mk

theorem State.writeWord_keeps {s : State} (n : Nat) (master : Nat) (a : Nat) (data : List Nat) (atomic : Bool) (wd : Nat)
    (h : Keeps r s) : Keeps r (State.writeWord s n master a data atomic wd).2 := by
  unfold State.writeWord
  extract_lets lo hi piece syn
  split
  · exact keeps_mem h rfl id (fun w => Mem.wf_putBytes w _ _) id id id id
  · split
    · refine keeps_mem (s := if syn = 0 then s else (s.dmcCe n (wd * 8) master syn 0 (wd % 8) false).dramFixWord wd _) ?_ rfl id
        (fun w => Mem.wf_putBytes w _ _) id id id id
      exact keeps_ite h (State.dramFixWord_keeps _ _ (State.dmcCe_keeps _ _ _ _ _ _ _ h))
    · exact State.dmcUe_keeps _ _ _ _ _ _ _ h

theorem State.writeWords_keeps {s : State} (n : Nat) (master : Nat) (a : Nat) (data : List Nat) (atomic : Bool) (a6 : List Nat)
    (h : Keeps r s) : Keeps r (State.writeWords s n master a data atomic a6).2 := by
  induction a6 generalizing s
  all_goals unfold State.writeWords
  all_goals
    repeat' with_reducible first | apply_assumption | apply State.writeWord_keeps

theorem State.carryWord_keeps {s : State} (n : Nat) (master : Nat) (wd : Nat) (h : Keeps r s) : Keeps r
    (State.carryWord s n master wd) := by
  unfold State.carryWord
  repeat' with_reducible first
      | assumption | apply State.dramFixWord_keeps | apply State.dmcCe_keeps | apply State.dmcUe_keeps | split | extract_lets

theorem State.dramWrite_keeps {s : State} (master : Nat) (a : Nat) (data : List Nat) (tag : Option Tag) (atomic : Bool)
    (h : Keeps r s) : Keeps r (State.dramWrite s master a data tag atomic).2 := by
  unfold State.dramWrite
  repeat' with_reducible first
      | assumption | intro _ | apply State.writeWords_keeps | apply State.readMeta_keeps | apply State.carryWord_keeps
      | apply State.setMeta_keeps | apply keeps_foldl | split

/-! ### FabricOps -/

theorem State.perRuns_keeps {s : State} {f : State → Part → Nat × Nat × List Nat × State} (x : Part)
    (hf : ∀ u y, Keeps r u → Keeps r (f u y).2.2.2) (h : Keeps r s) : Keeps r (s.perRuns f x).2.2.2 := by
  unfold State.perRuns
  split
  · exact hf _ _ h
  · rename_i l _
    suffices hl : ∀ (l : List Part) (q : Nat × Nat × List Nat × State), Keeps r q.2.2.2 →
        Keeps r (l.foldl (fun (q : Nat × Nat × List Nat × State) y =>
          (max q.1 (f q.2.2.2 y).1, q.2.1 ||| (f q.2.2.2 y).2.1, [], (f q.2.2.2 y).2.2.2)) q).2.2.2 from hl _ _ h
    intro l
    induction l with
    | nil => exact fun q hq => hq
    | cons y t ih => exact fun q hq => ih _ (hf _ _ hq)

theorem State.setCvu_keeps {s : State} (u : Nat) (x : CvuSt) (h : Keeps r s) : Keeps r (State.setCvu s u x) := by
  unfold State.setCvu
  repeat' with_reducible first | assumption | fail_if_no_progress apply keeps_mk

theorem State.cvuSnoop_keeps {s : State} (m : Nat) (a : Nat) (data : List Nat) (h : Keeps r s) : Keeps r
    (State.cvuSnoop s m a data) := by
  unfold State.cvuSnoop
  repeat' with_reducible first | assumption | intro _ | apply State.setCvu_keeps | apply keeps_foldl

theorem State.answer_keeps {s : State} (x : Part) (code : Nat) (detail : Nat) (data : List Nat) (h : Keeps r s) : Keeps r
    (State.answer s x code detail data) := by
  unfold State.answer
  repeat' with_reducible first | assumption | fail_if_no_progress apply keeps_mk

/-! ### Dmc -/

theorem State.setDm_keeps {s : State} (n : Nat) (d : DmcSt) (h : Keeps r s) : Keeps r (State.setDm s n d) := by
  unfold State.setDm
  repeat' with_reducible first | assumption | fail_if_no_progress apply keeps_mk

theorem State.tokenTake_keeps {s : State} (n : Nat) (h : Keeps r s) : Keeps r (State.tokenTake s n) := by
  unfold State.tokenTake
  repeat' with_reducible first
      | assumption | apply State.perturb_keeps | apply State.wr_keeps | apply State.inc_keeps
      | fail_if_no_progress apply keeps_mk | split | extract_lets

theorem execDmcTokenTake_keeps (n : Fin 8) {s : State} (h : Keeps r s) : KeepsOut r (execDmcTokenTake n s) := by
  unfold execDmcTokenTake
  repeat' with_reducible first | assumption | apply State.tokenTake_keeps | apply keeps_done

theorem State.openRows_keeps {s : State} (n : Nat) (c : Nat) (len : Nat) (h : Keeps r s) : Keeps r
    (State.openRows s n c len) := by
  unfold State.openRows
  repeat' with_reducible first | assumption | apply State.setDm_keeps

theorem State.dramPerform_keeps {s : State} (n : Nat) (x : Part) (h : Keeps r s) : Keeps r (State.dramPerform s n x).2.2.2 := by
  unfold State.dramPerform
  repeat' with_reducible first | assumption | apply State.dramWrite_keeps | apply State.dramRead_keeps | split

theorem State.dmcServe_keeps {s : State} (n : Nat) (x : Part) (h : Keeps r s) : Keeps r (State.dmcServe s n x) := by
  have h1 := State.perRuns_keeps (f := fun s y => s.dramPerform n y) x (fun u y hu => State.dramPerform_keeps _ _ hu) h
  unfold State.dmcServe
  repeat' with_reducible first
      | assumption | apply State.perRuns_keeps | apply State.dramPerform_keeps | apply State.openRows_keeps
      | apply State.wr_keeps | apply State.cnt_keeps | apply State.answer_keeps | fail_if_no_progress apply keeps_mk | split

theorem State.zeroLines_keeps {s : State} (n : Nat) (c : Nat) (d : Nat) (h : Keeps r s) : Keeps r
    (State.zeroLines s n c d) := by
  unfold State.zeroLines
  extract_lets other
  exact keeps_mem h rfl id (fun w => wf_keep w) id id id id

theorem State.initPass_keeps {s : State} (n : Nat) (c : Nat) (h : Keeps r s) : Keeps r (State.initPass s n c) := by
  unfold State.initPass
  repeat' with_reducible first
      | assumption | apply State.zeroLines_keeps | apply State.wr_keeps | apply State.setDm_keeps | split | extract_lets

theorem State.initWait_keeps {s : State} (n : Nat) (h : Keeps r s) : Keeps r (State.initWait s n) := by
  unfold State.initWait
  repeat' with_reducible first | assumption | apply State.draw_keeps | apply State.initPass_keeps | split | extract_lets

theorem execDramInitDone_keeps (n : Fin 8) {s : State} (h : Keeps r s) : KeepsOut r (execDramInitDone n s) := by
  unfold execDramInitDone
  repeat' with_reducible first | assumption | apply State.wb_keeps | apply State.initPass_keeps | apply keeps_done | split

theorem State.commandIssue_keeps {s : State} (n : Nat) (h : Keeps r s) : Keeps r (State.commandIssue s n) := by
  unfold State.commandIssue
  repeat' with_reducible first | assumption | apply State.initWait_keeps | apply State.dmcServe_keeps | split

theorem execDmcCommandIssue_keeps (n : Fin 8) {s : State} (h : Keeps r s) : KeepsOut r (execDmcCommandIssue n s) := by
  unfold execDmcCommandIssue
  repeat' with_reducible first | assumption | apply State.commandIssue_keeps | apply keeps_done

theorem State.initServing_keeps {s : State} (n : Nat) (h : Keeps r s) : Keeps r (State.initServing s n) := by
  unfold State.initServing
  repeat' with_reducible first | assumption | intro _ | apply State.initPass_keeps | apply keeps_foldl | split

theorem State.servingRun_keeps {s : State} (n : Nat) (a : Nat) (h : Keeps r s) : Keeps r (State.servingRun s n a) := by
  induction a generalizing s
  all_goals unfold State.servingRun
  all_goals
    repeat' with_reducible first | apply_assumption | apply State.initServing_keeps | apply State.dmcServe_keeps | split

theorem State.tokensDone_keeps {s : State} (n : Nat) (h : Keeps r s) : Keeps r (State.tokensDone s n) := by
  unfold State.tokensDone
  repeat' with_reducible first | assumption | apply State.servingRun_keeps

theorem execDmcTokWrite_keeps (_w : Writer) (n : Fin 8) (m : Fin 32) (v : Word) {s : State} (h : Keeps r s) : KeepsOut r
    (execDmcTokWrite _w n m v s) := by
  unfold execDmcTokWrite
  repeat' with_reducible first | assumption | apply State.wr_keeps | apply keeps_done | split

theorem State.setOwed_keeps {s : State} (n : Nat) (rank : Nat) (sub : Nat) (v : Nat) (h : Keeps r s) : Keeps r
    (State.setOwed s n rank sub v) := by
  unfold State.setOwed
  repeat' with_reducible first | assumption | apply State.wr_keeps | apply State.setDm_keeps

theorem State.closeRank_keeps {s : State} (n : Nat) (rank : Nat) (sub : Nat) (h : Keeps r s) : Keeps r
    (State.closeRank s n rank sub) := by
  unfold State.closeRank
  repeat' with_reducible first | assumption | apply State.setDm_keeps

theorem State.owe_keeps {s : State} (n : Nat) (rank : Nat) (sub : Nat) (h : Keeps r s) : Keeps r (State.owe s n rank sub) := by
  unfold State.owe
  repeat' with_reducible first
      | assumption | apply State.setOwed_keeps | apply State.closeRank_keeps | apply State.setDm_keeps | apply State.emit_keeps
      | apply State.cnt_keeps | split | extract_lets

theorem execRefreshInterval_keeps (n : Fin 8) {s : State} (h : Keeps r s) : KeepsOut r (execRefreshInterval n s) := by
  unfold execRefreshInterval
  repeat' with_reducible first
      | assumption | intro _ | apply State.perturb_keeps | apply State.setDm_keeps | apply State.owe_keeps | apply keeps_done
      | apply keeps_foldl | split

theorem execRefreshIssue_keeps (n : Fin 8) (rank : Fin 2) (sub : Fin 2) {s : State} (h : Keeps r s) : KeepsOut r
    (execRefreshIssue n rank sub s) := by
  unfold execRefreshIssue
  repeat' with_reducible first | assumption | apply State.closeRank_keeps | apply State.setOwed_keeps | apply keeps_done | split

theorem execMr4Poll_keeps (n : Fin 8) (hot : Bool) {s : State} (h : Keeps r s) : KeepsOut r (execMr4Poll n hot s) := by
  unfold execMr4Poll
  repeat' with_reducible first | assumption | apply State.setDm_keeps | apply keeps_done

theorem execSrEntryRequest_keeps (_w : Writer) (n : Fin 8) {s : State} (h : Keeps r s) : KeepsOut r
    (execSrEntryRequest _w n s) := by
  unfold execSrEntryRequest
  repeat' with_reducible first | assumption | apply State.wb_keeps | apply State.wr_keeps | apply keeps_done | split

theorem State.dmcLock_keeps {s : State} (n : Nat) (on : Bool) (h : Keeps r s) : Keeps r (State.dmcLock s n on) := by
  unfold State.dmcLock
  repeat' with_reducible first | assumption | apply State.pllAnew_keeps | apply State.wr_keeps

theorem State.srEnter_keeps {s : State} (n : Nat) (h : Keeps r s) : Keeps r (State.srEnter s n) := by
  unfold State.srEnter
  repeat' with_reducible first
      | assumption | apply State.setDm_keeps | apply State.dmcLock_keeps | apply State.emit_keeps | apply State.wr_keeps

theorem State.dmcDeg_keeps {s : State} (n : Nat) (h : Keeps r s) : Keeps r (State.dmcDeg s n).2 := by
  unfold State.dmcDeg
  repeat' with_reducible first | assumption | apply State.draw_keeps | split

theorem State.trainStart_keeps {s : State} (n : Nat) (h : Keeps r s) : Keeps r (State.trainStart s n) := by
  unfold State.trainStart
  repeat' with_reducible first | assumption | apply State.wb_keeps | apply State.setDm_keeps

theorem execRetrainCheck_keeps (n : Fin 8) {s : State} (h : Keeps r s) : KeepsOut r (execRetrainCheck n s) := by
  unfold execRetrainCheck
  repeat' with_reducible first | assumption | apply State.trainStart_keeps | apply keeps_done | split

theorem execRetrainNow_keeps (_w : Writer) (n : Fin 8) {s : State} (h : Keeps r s) : KeepsOut r (execRetrainNow _w n s) := by
  unfold execRetrainNow
  repeat' with_reducible first | assumption | apply State.wb_keeps | apply keeps_done

theorem State.trainStep_keeps {s : State} (n : Nat) (ok : Bool) (h : Keeps r s) : Keeps r (State.trainStep s n ok) := by
  unfold State.trainStep
  repeat' with_reducible first
      | assumption | apply State.setDm_keeps | apply State.dmcDeg_keeps | apply State.emit_keeps | apply State.wb_keeps
      | apply State.inc_keeps | apply State.wr_keeps | (apply keeps_snd; assumption) | split | extract_lets

theorem execRetrainStep_keeps (n : Fin 8) (ok : Bool) {s : State} (h : Keeps r s) : KeepsOut r (execRetrainStep n ok s) := by
  unfold execRetrainStep
  repeat' with_reducible first
      | assumption | apply State.trainStart_keeps | apply State.trainStep_keeps | apply keeps_done | split

theorem execSrEntry_keeps (n : Fin 8) {s : State} (h : Keeps r s) : KeepsOut r (execSrEntry n s) := by
  unfold execSrEntry
  repeat' with_reducible first | assumption | apply State.srEnter_keeps | apply keeps_done | split

theorem execSrExitRequest_keeps (n : Fin 8) (cause : Option Writer) {s : State} (h : Keeps r s) : KeepsOut r
    (execSrExitRequest n cause s) := by
  unfold execSrExitRequest
  repeat' with_reducible first | assumption | apply State.wb_keeps | apply State.wr_keeps | apply keeps_done | split

theorem State.srLeave_keeps {s : State} (n : Nat) (h : Keeps r s) : Keeps r (State.srLeave s n) := by
  unfold State.srLeave
  repeat' with_reducible first
      | assumption | apply State.dmcLock_keeps | apply State.trainStep_keeps | apply State.emit_keeps | apply State.wr_keeps
      | split

theorem execSrExit_keeps (n : Fin 8) {s : State} (h : Keeps r s) : KeepsOut r (execSrExit n s) := by
  unfold execSrExit
  repeat' with_reducible first | assumption | apply State.srLeave_keeps | apply keeps_done | split

theorem State.scrubWord_keeps {s : State} (n : Nat) (wd : Nat) (h : Keeps r s) : Keeps r (State.scrubWord s n wd) := by
  unfold State.scrubWord
  repeat' with_reducible first
      | assumption | apply State.dramFixWord_keeps | apply State.dmcCe_keeps | apply State.dmcUe_keeps | split | extract_lets

theorem State.scrubMeta_keeps {s : State} (n : Nat) (line : Nat) (h : Keeps r s) : Keeps r (State.scrubMeta s n line) := by
  unfold State.scrubMeta
  repeat' with_reducible first
      | assumption | apply State.setMeta_keeps | apply State.dmcCe_keeps | apply State.dmcMetaUe_keeps | split | extract_lets

theorem State.scrubAdvance_keeps {s : State} (n : Nat) (h : Keeps r s) : Keeps r (State.scrubAdvance s n) := by
  unfold State.scrubAdvance
  repeat' with_reducible first
      | assumption | apply State.wb_keeps | apply State.wr_keeps | apply State.setDm_keeps | split | extract_lets

theorem execScrubRead_keeps (n : Fin 8) {s : State} (h : Keeps r s) : KeepsOut r (execScrubRead n s) := by
  unfold execScrubRead
  repeat' with_reducible first
      | assumption | intro _ | apply State.scrubWord_keeps | apply State.scrubAdvance_keeps | apply State.openRows_keeps
      | apply State.scrubMeta_keeps | apply keeps_done | apply keeps_foldl | split

theorem State.setSlot_keeps {s : State} (n : Nat) (copyB : Bool) (i : Nat) (v : Nat) (h : Keeps r s) : Keeps r
    (State.setSlot s n copyB i v) := by
  unfold State.setSlot
  repeat' with_reducible first | assumption | apply State.setFields_keeps | split

theorem execQosSlotWrite_keeps (_w : Writer) (n : Fin 8) (copyB : Bool) (slot : Fin 64) (v : Word) {s : State} (h : Keeps r s)
    : KeepsOut r (execQosSlotWrite _w n copyB slot v s) := by
  unfold execQosSlotWrite
  repeat' with_reducible first | assumption | apply State.setDm_keeps | apply State.setSlot_keeps | apply keeps_done | split

theorem execQosSlotSwapRequest_keeps (_w : Writer) (n : Fin 8) {s : State} (h : Keeps r s) : KeepsOut r
    (execQosSlotSwapRequest _w n s) := by
  unfold execQosSlotSwapRequest
  repeat' with_reducible first | assumption | apply State.wb_keeps | apply keeps_done

theorem execQosSlotBoundary_keeps (n : Fin 8) {s : State} (h : Keeps r s) : KeepsOut r (execQosSlotBoundary n s) := by
  unfold execQosSlotBoundary
  repeat' with_reducible first
      | assumption | intro _ | apply State.setSlot_keeps | apply State.setDm_keeps | apply State.wr_keeps
      | apply State.emit_keeps | apply State.wb_keeps | apply keeps_done | apply keeps_foldl | split

/-! ### Loft -/

theorem State.loftCapture_keeps {s : State} (kind : Nat) (wd : Nat) (master : Nat) (syn : Nat) (h : Keeps r s) : Keeps r
    (State.loftCapture s kind wd master syn) := by
  unfold State.loftCapture
  repeat' with_reducible first | assumption | apply State.wr_keeps | apply State.wb_keeps | split | extract_lets

theorem State.loftWord_keeps {s : State} (master : Nat) (wd : Nat) (h : Keeps r s) : Keeps r
    (State.loftWord s master wd).2 := by
  unfold State.loftWord
  extract_lets p syn data
  split
  · exact h
  · split
    · refine keeps_mem (s := ((s.cnt p LOFT_CE_COUNT_COUNT 1).loftCapture 0 wd master syn).emitLimited p p 1 0x0001 data) ?_ rfl
        (fun w => Mem.wf_writeLE w _ _ _) id id id id id
      exact State.emitLimited_keeps _ _ _ _ _ (State.loftCapture_keeps _ _ _ _ (State.cnt_keeps _ _ _ h))
    · exact State.emit_keeps _ _ _ (State.loftCapture_keeps _ _ _ _ (State.cnt_keeps _ _ _ h))

theorem State.loftWords_keeps {s : State} (master : Nat) (a : List Nat) (h : Keeps r s) : Keeps r
    (State.loftWords s master a).2 := by
  induction a generalizing s
  all_goals unfold State.loftWords
  all_goals
    repeat' with_reducible first | apply_assumption | apply State.loftWord_keeps

theorem State.loftExamine_keeps {s : State} (m : Nat) (off : Nat) (len : Nat) (h : Keeps r s) : Keeps r
    (State.loftExamine s m off len) := by
  unfold State.loftExamine
  repeat' with_reducible first | assumption | apply State.loftWords_keeps | split

theorem State.loftPerform_keeps {s : State} (x : Part) (h : Keeps r s) : Keeps r (State.loftPerform s x).2.2 := by
  unfold State.loftPerform
  repeat' with_reducible first | assumption | apply State.loftWords_keeps | apply State.loftPut_keeps | split | extract_lets

theorem State.loftServe_keeps {s : State} (x : Part) (h : Keeps r s) : Keeps r (State.loftServe s x) := by
  unfold State.loftServe
  extract_lets f1 s1 r1
  have h1 : Keeps r s1 := keeps_mk h
  exact State.answer_keeps _ _ _ _ (State.perRuns_keeps _ (fun u y hu => State.loftPerform_keeps _ hu) h1)

theorem execLoftServe_keeps (port : Fin 4) {s : State} (h : Keeps r s) : KeepsOut r (execLoftServe port s) := by
  unfold execLoftServe
  repeat' with_reducible first | assumption | apply State.loftServe_keeps | apply keeps_done | split

theorem execLoftScrub_keeps (word : Fin 6291456) {s : State} (h : Keeps r s) : KeepsOut r (execLoftScrub word s) := by
  unfold execLoftScrub
  repeat' with_reducible first | assumption | apply State.loftWord_keeps | apply keeps_done | split

theorem State.partWrite_keeps {s : State} (w : Writer) (p : Nat) (v : Nat) (h : Keeps r s) : Keeps r
    (State.partWrite s w p v) := by
  unfold State.partWrite
  repeat' with_reducible first
      | assumption | apply State.wb_keeps | apply State.setFields_keeps | apply State.enableFenced_keeps | split | extract_lets

theorem execLoftPartWrite_keeps (w : Writer) (p : Fin 16) (v : Word) {s : State} (h : Keeps r s) : KeepsOut r
    (execLoftPartWrite w p v s) := by
  unfold execLoftPartWrite
  repeat' with_reducible first
      | assumption | apply State.lockedWrite_keeps | apply State.partWrite_keeps | apply State.wb_keeps | apply keeps_done
      | split

/-! ### Fabric -/

theorem State.placePart_keeps {s : State} (deny : Bool) (x : Part) (h : Keeps r s) : Keeps r (State.placePart s deny x) := by
  unfold State.placePart
  repeat' with_reducible first | assumption | apply State.perturb_keeps | fail_if_no_progress apply keeps_mk

theorem State.placeParts_keeps {s : State} (deny : Bool) (base : Part) (addr : Nat) (data : List Nat) (a : List (Nat × Nat))
    (h : Keeps r s) : Keeps r (State.placeParts s deny base addr data a) := by
  induction a generalizing s
  all_goals unfold State.placeParts
  all_goals
    repeat' with_reducible first | apply_assumption | apply State.placePart_keeps

theorem State.noteDenial_keeps {s : State} (x : Part) (g : Nat) (region : Nat) (fault : Nat) (h : Keeps r s) : Keeps r
    (State.noteDenial s x g region fault) := by
  unfold State.noteDenial
  repeat' with_reducible first | assumption | fail_if_no_progress apply keeps_mk

theorem State.closeDenial_keeps {s : State} (x : Part) (g : Nat) (h : Keeps r s) : Keeps r (State.closeDenial s x g) := by
  unfold State.closeDenial
  repeat' with_reducible first | assumption | apply State.guardViolate_keeps | fail_if_no_progress apply keeps_mk | split

theorem State.grantPart_keeps {s : State} (x : Part) (h : Keeps r s) : Keeps r (State.grantPart s x) := by
  unfold State.grantPart
  repeat' with_reducible first
      | assumption | apply State.closeDenial_keeps | apply State.answer_keeps | apply State.noteDenial_keeps
      | fail_if_no_progress apply keeps_mk | split | extract_lets

theorem State.parkGrant_keeps {s : State} (tag : Nat) (idle : List Nat) (h : Keeps r s) : Keeps r
    (State.parkGrant s tag idle) := by
  unfold State.parkGrant
  repeat' with_reducible first | assumption | intro _ | apply State.grantPart_keeps | apply keeps_foldl | split

theorem State.fabricIssueAt_keeps {s : State} (deny : Bool) (m : Nat) (fid : Nat) (k : AccKind) (addr : Nat) (len : Nat)
    (data : List Nat) (tag : Option Tag) (emerg : Bool) (h : Keeps r s) : Keeps r
    (State.fabricIssueAt s deny m fid k addr len data tag emerg) := by
  unfold State.fabricIssueAt
  repeat' with_reducible first
      | assumption | apply State.cvuSnoop_keeps | apply State.parkGrant_keeps | apply State.placeParts_keeps
      | fail_if_no_progress apply keeps_mk | split

theorem State.fabricIssue_keeps {s : State} (m : Nat) (fid : Nat) (k : AccKind) (addr : Nat) (len : Nat) (data : List Nat)
    (tag : Option Tag) (emerg : Bool) (h : Keeps r s) : Keeps r (State.fabricIssue s m fid k addr len data tag emerg) := by
  unfold State.fabricIssue
  repeat' with_reducible first | assumption | apply State.fabricIssueAt_keeps

theorem execFabricRequest_keeps (m : Fin 32) (fid : BitVec 16) (k : AccKind) (addr : BitVec 40) (len : Nat) (data : List Nat)
    (tag : Option Tag) {s : State} (h : Keeps r s) : KeepsOut r (execFabricRequest m fid k addr len data tag s) := by
  unfold execFabricRequest
  repeat' with_reducible first | assumption | apply State.fabricIssue_keeps | apply keeps_done

theorem State.decisionDone_keeps {s : State} (t : Nat) (c : List Part) (x : Part) (h : Keeps r s) : Keeps r
    (State.decisionDone s t c x) := by
  unfold State.decisionDone
  repeat' with_reducible first | assumption | fail_if_no_progress apply keeps_mk

theorem State.slotGrant_keeps {s : State} (t : Nat) (stall : Bool) (h : Keeps r s) : Keeps r (State.slotGrant s t stall) := by
  unfold State.slotGrant
  repeat' with_reducible first
      | assumption | apply State.grantPart_keeps | apply State.perturb_keeps | apply State.decisionDone_keeps
      | fail_if_no_progress apply keeps_mk | (apply keeps_snd; assumption) | split | extract_lets

theorem execSlotGrant_keeps (t : Fin 16) {s : State} (h : Keeps r s) : KeepsOut r (execSlotGrant t s) := by
  unfold execSlotGrant
  repeat' with_reducible first | assumption | apply State.slotGrant_keeps | apply keeps_done

theorem State.serveOther_keeps {s : State} (x : Part) (h : Keeps r s) : Keeps r (State.serveOther s x) := by
  unfold State.serveOther
  extract_lets f1 s1 r1
  have h1 : Keeps r s1 := keeps_mk h
  refine State.answer_keeps _ _ _ _ (State.perRuns_keeps _ (fun u y hu => ?_) h1)
  split
  · exact keeps_mem hu rfl id id (memPerform_wf _ _) id id id
  · exact keeps_mem hu rfl id id id (memPerform_wf _ _) id id

theorem State.serveDefault_keeps {s : State} (x : Part) (h : Keeps r s) : Keeps r (State.serveDefault s x) := by
  unfold State.serveDefault
  repeat' with_reducible first
      | assumption | apply State.emit_keeps | apply State.answer_keeps | apply State.fencedTry_keeps | split

theorem State.serveOuter_keeps {s : State} (x : Part) (h : Keeps r s) : Keeps r (State.serveOuter s x) := by
  unfold State.serveOuter
  repeat' with_reducible first
      | assumption | apply State.answer_keeps | apply State.serveDefault_keeps | apply State.serveOther_keeps
      | fail_if_no_progress apply keeps_mk | split

theorem State.respond_keeps {s : State} (tag : Nat) (h : Keeps r s) : Keeps r (State.respond s tag) := by
  unfold State.respond
  repeat' with_reducible first
      | assumption | apply State.emitOut_keeps | apply State.accessFailed_keeps | fail_if_no_progress apply keeps_mk | split

/-! ### Hw -/

theorem State.guardPieces_keeps {s : State} (m : Nat) (fid : Nat) (k : AccKind) (l : List (Nat × Nat)) (h : Keeps r s) : Keeps r
    (State.guardPieces s m fid k l) := by
  unfold State.guardPieces
  extract_lets bad
  refine keeps_foldl (fun s x hs => ?_) h
  extract_lets mine
  clear_value mine
  split
  · exact hs
  · exact State.guardViolate_keeps _ _ _ _ _ _ _ _ _ hs

theorem State.holdsOver_keeps {s : State} (t : Nat) (h : Keeps r s) : Keeps r (State.holdsOver s t) := by
  unfold State.holdsOver
  repeat' with_reducible first | assumption | fail_if_no_progress apply keeps_mk

theorem State.portTurn_keeps {s : State} (t : Nat) (h : Keeps r s) : Keeps r (State.portTurn s t) := by
  unfold State.portTurn
  repeat' with_reducible first
      | assumption | apply State.slotGrant_keeps | apply State.commandIssue_keeps | apply State.initServing_keeps
      | apply State.tokenTake_keeps | apply State.loftServe_keeps | apply State.serveOuter_keeps | split | extract_lets

theorem State.portTurns_keeps {s : State} (t : Nat) (a : Nat) (h : Keeps r s) : Keeps r (State.portTurns s t a) := by
  induction a generalizing s
  all_goals unfold State.portTurns
  all_goals
    repeat' with_reducible first | apply_assumption | apply State.portTurn_keeps | apply keeps_ite

theorem State.chanWake_keeps {s : State} (n : Nat) (h : Keeps r s) : Keeps r (State.chanWake s n) := by
  unfold State.chanWake
  repeat' with_reducible first
      | assumption | apply State.srLeave_keeps | apply State.srEnter_keeps | apply State.tokensDone_keeps | split

theorem State.portRun_keeps {s : State} (t : Nat) (h : Keeps r s) : Keeps r (State.portRun s t) := by
  unfold State.portRun
  repeat' with_reducible first
      | assumption | apply State.holdsOver_keeps | apply State.portTurns_keeps | apply State.chanWake_keeps | apply keeps_ite

theorem State.respondAll_keeps {s : State} (m : Nat) (h : Keeps r s) : Keeps r (State.respondAll s m) := by
  unfold State.respondAll
  repeat' with_reducible first | assumption | intro _ | apply State.respond_keeps | apply keeps_foldl

theorem State.tagReady_keeps {s : State} (m : Nat) (h : Keeps r s) : Keeps r (State.tagReady s m) := by
  unfold State.tagReady
  repeat' with_reducible first
      | assumption | apply State.respondAll_keeps | apply State.portRun_keeps | apply keeps_foldl | split

theorem State.hwEnter_keeps {s : State} (m : Nat) (a : Nat) (len : Nat) (h : Keeps r s) : Keeps r
    (State.hwEnter s m a len) := by
  unfold State.hwEnter
  repeat' with_reducible first
      | assumption | apply State.portRun_keeps | apply State.chanWake_keeps | apply State.perturb_keeps
      | apply State.initPass_keeps | apply State.openRows_keeps | split

theorem State.hwMiss_keeps {s : State} (m : Nat) (fid : Nat) (k : AccKind) (a : Nat) (h : Keeps r s) : Keeps r
    (State.hwMiss s m fid k a) := by
  unfold State.hwMiss
  repeat' with_reducible first | assumption | apply State.emit_keeps

theorem State.hwPiece_keeps {s : State} (m : Nat) (fid : Nat) (k : AccKind) (tag : Option Tag) (a : Nat) (len : Nat)
    (data : List Nat) (h : Keeps r s) : Keeps r (State.hwPiece s m fid k tag a len data).2.2.2 := by
  unfold State.hwPiece
  repeat' with_reducible first
      | assumption | apply State.hwMiss_keeps | apply State.hwEnter_keeps | apply State.dramWrite_keeps
      | apply State.dramRead_keeps | split

theorem State.hwPieces_keeps {s : State} (m : Nat) (fid : Nat) (k : AccKind) (tag : Option Tag) (base : Nat) (data : List Nat)
    (a : List (Nat × Nat)) (h : Keeps r s) : Keeps r (State.hwPieces s m fid k tag base data a).2 := by
  induction a generalizing s
  all_goals unfold State.hwPieces
  all_goals
    repeat' with_reducible first | apply_assumption | apply State.hwPiece_keeps

theorem State.hwRequests_keeps {s : State} (m : Nat) (fid : Nat) (k : AccKind) (tag : Option Tag) (base : Nat) (data : List Nat)
    (a : List (Nat × Nat)) (h : Keeps r s) : Keeps r (State.hwRequests s m fid k tag base data a).2 := by
  induction a generalizing s
  all_goals unfold State.hwRequests
  all_goals
    repeat' with_reducible first
        | apply_assumption | apply State.cvuSnoop_keeps | apply State.guardPieces_keeps | apply State.tagReady_keeps
        | apply State.hwPieces_keeps | split

theorem State.hwAccess_keeps {s : State} (m : Nat) (fid : Nat) (k : AccKind) (tag : Option Tag) (a : Nat) (len : Nat)
    (data : List Nat) (h : Keeps r s) : Keeps r (State.hwAccess s m fid k tag a len data).2 := by
  unfold State.hwAccess
  repeat' with_reducible first | assumption | apply State.hwRequests_keeps

theorem State.hwRead_keeps {s : State} (m : Nat) (fid : Nat) (a : Nat) (len : Nat) (tag : Option Tag) (h : Keeps r s) : Keeps r
    (State.hwRead s m fid a len tag).2 := by
  unfold State.hwRead
  repeat' with_reducible first | assumption | apply State.hwAccess_keeps

theorem State.hwWrite_keeps {s : State} (m : Nat) (fid : Nat) (a : Nat) (data : List Nat) (tag : Option Tag) (h : Keeps r s)
    : Keeps r (State.hwWrite s m fid a data tag).2 := by
  unfold State.hwWrite
  repeat' with_reducible first | assumption | apply State.hwAccess_keeps

theorem State.bayRead_keeps {s : State} (m : Nat) (fid : Nat) (n : Nat) (g : Nat) (fseq : Nat) (off : Nat) (len : Nat)
    (chk : Bool) (h : Keeps r s) : Keeps r (State.bayRead s m fid n g fseq off len chk).2 := by
  unfold State.bayRead
  repeat' with_reducible first | assumption | apply State.hwRead_keeps

theorem State.bayWrite_keeps {s : State} (m : Nat) (fid : Nat) (n : Nat) (g : Nat) (fseq : Nat) (off : Nat) (data : List Nat)
    (h : Keeps r s) : Keeps r (State.bayWrite s m fid n g fseq off data).2 := by
  unfold State.bayWrite
  repeat' with_reducible first | assumption | apply State.hwWrite_keeps

end Sys2Proof.Machine
end

