-- ==== Sys2Proof/Laws/KeepsIngress.lean ====
section
/-! SUPPORT. Every operation keeps the queue and canonical memories, by module: time, the network, the registry, feeds and decode. -/

set_option autoImplicit false

namespace Sys2Proof.Machine

variable {r : State}

/-! ### Time -/

theorem State.wrongWriter_keeps {s : State} (w : Writer) (off : Nat) (h : Keeps r s) : Keeps r (State.wrongWriter s w off) := by
  unfold State.wrongWriter
  repeat' with_reducible first | assumption | apply State.emit_keeps

theorem State.wrongKey_keeps {s : State} (w : Writer) (h : Keeps r s) : Keeps r (State.wrongKey s w) := by
  unfold State.wrongKey
  repeat' with_reducible first | assumption | apply State.emit_keeps

theorem execTbRateWrite_keeps (w : Writer) (v : Word) {s : State} (h : Keeps r s) : KeepsOut r (execTbRateWrite w v s) := by
  unfold execTbRateWrite
  repeat' with_reducible first | assumption | apply State.wr_keeps | apply State.wrongWriter_keeps | apply keeps_done | split

theorem execServoStateWrite_keeps (w : Writer) (v : BitVec 3) {s : State} (h : Keeps r s) : KeepsOut r
    (execServoStateWrite w v s) := by
  unfold execServoStateWrite
  repeat' with_reducible first
      | assumption | apply State.holdoverCheck_keeps | apply State.setTbState_keeps | apply State.wr_keeps | apply keeps_done
      | split

theorem execHoldoverExpire_keeps {s : State} (h : Keeps r s) : KeepsOut r (execHoldoverExpire s) := by
  unfold execHoldoverExpire
  repeat' with_reducible first
      | assumption | apply State.setTbState_keeps | apply State.advanceRun_keeps | apply keeps_done | split

theorem State.sfdDetect_keeps {s : State} (port : Nat) (align : Nat) (h : Keeps r s) : Keeps r
    (State.sfdDetect s port align) := by
  unfold State.sfdDetect
  repeat' with_reducible first
      | assumption | apply State.emit_keeps | apply State.perturb_keeps | apply State.wb_keeps | apply State.wr_keeps
      | fail_if_no_progress apply keeps_mk | (apply keeps_snd; assumption) | split | extract_lets

theorem execSfdDetect_keeps (port : Fin 18) (align : Nat) {s : State} (h : Keeps r s) : KeepsOut r
    (execSfdDetect port align s) := by
  unfold execSfdDetect
  repeat' with_reducible first | assumption | apply State.sfdDetect_keeps | apply keeps_done

theorem State.rxlFrameEnd_keeps {s : State} (port : Nat) (ev : Option (Nat × Nat)) (h : Keeps r s) : Keeps r
    (State.rxlFrameEnd s port ev) := by
  unfold State.rxlFrameEnd
  repeat' with_reducible first
      | assumption | apply State.emitOut_keeps | apply State.wr_keeps | apply State.wb_keeps
      | fail_if_no_progress apply keeps_mk | split

theorem execEntryLatch_keeps {s : State} (h : Keeps r s) : KeepsOut r (execEntryLatch s) := by
  unfold execEntryLatch
  repeat' with_reducible first
      | assumption | intro _ | apply State.wr64_keeps | apply State.wb_keeps | apply keeps_done | apply keeps_foldl

theorem execLatencyCountSaturate_keeps (e : Fin 8) {s : State} (h : Keeps r s) : KeepsOut r (execLatencyCountSaturate e s) := by
  unfold execLatencyCountSaturate
  repeat' with_reducible first | assumption | apply State.rxlRun_keeps | apply State.advanceRun_keeps | apply keeps_done | split

theorem State.txqPush_keeps {s : State} (x : TxStamp) (h : Keeps r s) : Keeps r (State.txqPush s x) := by
  unfold State.txqPush
  repeat' with_reducible first
      | assumption | apply State.emit_keeps | apply State.cnt_keeps | apply State.wb_keeps | fail_if_no_progress apply keeps_mk
      | split

theorem execTxqPop_keeps (_w : Writer) {s : State} (h : Keeps r s) : KeepsOut r (execTxqPop _w s) := by
  unfold execTxqPop
  repeat' with_reducible first
      | assumption | apply State.ret_keeps | apply keeps_done | fail_if_no_progress apply keeps_mk | split

theorem State.tiCapture_keeps {s : State} (i : Nat) (x : TiEdge) (h : Keeps r s) : Keeps r (State.tiCapture s i x) := by
  unfold State.tiCapture
  repeat' with_reducible first
      | assumption | apply State.wb_keeps | apply State.inc_keeps | apply State.wr64_keeps | apply State.emitAt_keeps | split
      | extract_lets

theorem State.setTout_keeps {s : State} (j : Nat) (x : TimeOut) (h : Keeps r s) : Keeps r (State.setTout s j x) := by
  unfold State.setTout
  repeat' with_reducible first | assumption | fail_if_no_progress apply keeps_mk

theorem State.toDrive_keeps {s : State} (j : Nat) (active : Bool) (h : Keeps r s) : Keeps r (State.toDrive s j active) := by
  unfold State.toDrive
  repeat' with_reducible first | assumption | apply State.emitOut_keeps

theorem State.toRelease_keeps {s : State} (j : Nat) (h : Keeps r s) : Keeps r (State.toRelease s j) := by
  unfold State.toRelease
  repeat' with_reducible first | assumption | apply State.emitOut_keeps

theorem State.toDisarm_keeps {s : State} (j : Nat) (h : Keeps r s) : Keeps r (State.toDisarm s j) := by
  unfold State.toDisarm
  repeat' with_reducible first | assumption | apply State.setTout_keeps | apply State.wb_keeps

theorem execTimeOutputArm_keeps (_w : Writer) (j : Fin 8) {s : State} (h : Keeps r s) : KeepsOut r
    (execTimeOutputArm _w j s) := by
  unfold execTimeOutputArm
  repeat' with_reducible first
      | assumption | apply State.toDisarm_keeps | apply State.setTout_keeps | apply State.wb_keeps | apply State.emit_keeps
      | apply keeps_done | split

theorem State.toEdge_keeps {s : State} (j : Nat) (t : Nat) (h : Keeps r s) : Keeps r (State.toEdge s j t) := by
  unfold State.toEdge
  repeat' with_reducible first | assumption | apply State.setTout_keeps | apply State.toDrive_keeps | apply State.inc_keeps

theorem execTimeOutputEdge_keeps (j : Fin 8) {s : State} (h : Keeps r s) : KeepsOut r (execTimeOutputEdge j s) := by
  unfold execTimeOutputEdge
  repeat' with_reducible first | assumption | apply State.toEdge_keeps | apply State.advanceTo_keeps | apply keeps_done | split

theorem execTimeOutputPulseEnd_keeps (j : Fin 8) {s : State} (h : Keeps r s) : KeepsOut r (execTimeOutputPulseEnd j s) := by
  unfold execTimeOutputPulseEnd
  repeat' with_reducible first
      | assumption | apply State.advanceTo_keeps | apply State.toDrive_keeps | apply State.setTout_keeps | apply State.wb_keeps
      | apply keeps_done | split | extract_lets

theorem State.stepOutputs_keeps {s : State} (old : Nat) (h : Keeps r s) : Keeps r (State.stepOutputs s old) := by
  unfold State.stepOutputs
  repeat' with_reducible first
      | assumption | intro _ | apply State.emit_keeps | apply State.wb_keeps | apply State.toEdge_keeps | apply keeps_foldl
      | split

theorem execSlewAbsorbed_keeps {s : State} (h : Keeps r s) : KeepsOut r (execSlewAbsorbed s) := by
  unfold execSlewAbsorbed
  repeat' with_reducible first | assumption | apply State.setTime_keeps | apply keeps_done

/-! ### Net -/

theorem State.yk_keeps {s : State} (f : YokeSt → YokeSt) (h : Keeps r s) : Keeps r (State.yk s f) := by
  unfold State.yk
  repeat' with_reducible first | assumption | fail_if_no_progress apply keeps_mk

theorem State.setVc_keeps {s : State} (v : Nat) (x : YkVc) (h : Keeps r s) : Keeps r (State.setVc s v x) := by
  unfold State.setVc
  repeat' with_reducible first | assumption | apply State.yk_keeps

theorem State.creditBack_keeps {s : State} (v : Nat) (n : Nat) (h : Keeps r s) : Keeps r (State.creditBack s v n) := by
  unfold State.creditBack
  repeat' with_reducible first | assumption | apply State.setVc_keeps

theorem State.pktFree_keeps {s : State} (x : PktSlot) (h : Keeps r s) : Keeps r (State.pktFree s x) := by
  unfold State.pktFree
  repeat' with_reducible first | assumption | apply State.creditBack_keeps | fail_if_no_progress apply keeps_mk | split

theorem State.netDrop_keeps {s : State} (n : Nat) (h : Keeps r s) : Keeps r (State.netDrop s n) := by
  unfold State.netDrop
  repeat' with_reducible first | assumption | apply State.cnt_keeps | split

theorem State.netSend_keeps {s : State} (n : Nat) (what : String) (vals : List Nat) (h : Keeps r s) : Keeps r
    (State.netSend s n what vals) := by
  unfold State.netSend
  repeat' with_reducible first
      | assumption | apply State.cnt_keeps | apply State.emitOut_keeps | apply State.netDrop_keeps | split

theorem State.netDatagram_keeps {s : State} (nets : Nat) (dest : Dest) (bytes : List Nat) (h : Keeps r s) : Keeps r
    (State.netDatagram s nets dest bytes) := by
  unfold State.netDatagram
  repeat' with_reducible first
      | assumption | intro _ | apply State.cnt_keeps | apply State.netDrop_keeps | apply State.emitOut_keeps | apply keeps_foldl
      | split

theorem execNetFrameTransmit_keeps (port : Fin 18) (bytes : List Nat) (stamp : Option (Nat × Nat × Nat)) {s : State}
    (h : Keeps r s) : KeepsOut r (execNetFrameTransmit port bytes stamp s) := by
  unfold execNetFrameTransmit
  repeat' with_reducible first
      | assumption | apply State.netDrop_keeps | apply State.cnt_keeps | apply State.emitOut_keeps | apply State.txqPush_keeps
      | apply keeps_done | split

theorem State.netLink_keeps {s : State} (n : Nat) (up : Bool) (fec : Bool) (h : Keeps r s) : Keeps r
    (State.netLink s n up fec) := by
  unfold State.netLink
  repeat' with_reducible first | assumption | apply State.wb_keeps | apply State.emit_keeps | split | extract_lets

theorem execNetLinkChange_keeps (port : Fin 18) (up : Bool) (fec : Bool) {s : State} (h : Keeps r s) : KeepsOut r
    (execNetLinkChange port up fec s) := by
  unfold execNetLinkChange
  repeat' with_reducible first | assumption | apply State.netLink_keeps | apply keeps_done

theorem State.oldQuerier_keeps {s : State} (port : Nat) (version : Nat) (group : Nat) (v6 : Bool) (h : Keeps r s) : Keeps r
    (State.oldQuerier s port version group v6) := by
  unfold State.oldQuerier
  repeat' with_reducible first | assumption | apply State.emitLimited_keeps

theorem State.answerQuery_keeps {s : State} (x : PktSlot) (version : Nat) (group : Nat) (asked : List Nat) (h : Keeps r s)
    : Keeps r (State.answerQuery s x version group asked) := by
  unfold State.answerQuery
  repeat' with_reducible first
      | assumption | apply State.pktFree_keeps | apply State.oldQuerier_keeps | apply State.netSend_keeps | split | extract_lets

theorem execUnmatchedReply_keeps {s : State} (h : Keeps r s) : KeepsOut r (execUnmatchedReply s) := by
  unfold execUnmatchedReply
  repeat' with_reducible first
      | assumption | apply State.pktFree_keeps | apply State.netSend_keeps | apply State.answerQuery_keeps | apply keeps_done
      | apply keeps_ite | split

theorem execMembershipQuery_keeps {s : State} (h : Keeps r s) : KeepsOut r (execMembershipQuery s) := by
  unfold execMembershipQuery
  repeat' with_reducible first | assumption | apply State.answerQuery_keeps | apply keeps_done | split

/-! ### Registry -/

theorem State.ownCheck_keeps {s t : State} {req fid writer : Nat} {l : List Nat}
    (e : State.ownCheck s req fid writer l = some t) (h : Keeps r s) :
    Keeps r t := by
  unfold State.ownCheck at e
  extract_lets l' at e
  split at e
  · injection e with e
    exact e ▸ State.enableFenced_keeps _ _ _ _ h
  · split at e
    · injection e with e
      exact e ▸ State.ownConflict_keeps _ _ _ _ h
    · exact nomatch e

theorem State.useSet_keeps {s : State} (l : List Nat) (b : Bool) (h : Keeps r s) : Keeps r (State.useSet s l b) := by
  unfold State.useSet
  repeat' with_reducible first | assumption | intro _ | apply State.wb_keeps | apply keeps_foldl

theorem State.idleOut_keeps {s : State} (l : Nat) (h : Keeps r s) : Keeps r (State.idleOut s l) := by
  unfold State.idleOut
  repeat' with_reducible first | assumption | apply State.emitOut_keeps | split

theorem State.lnQuiet_keeps {s : State} (l : Nat) (h : Keeps r s) : Keeps r (State.lnQuiet s l) := by
  unfold State.lnQuiet
  repeat' with_reducible first | assumption | apply State.wb_keeps | fail_if_no_progress apply keeps_mk | split

theorem State.lnRefresh_keeps {s : State} (q : Nat) (h : Keeps r s) : Keeps r (State.lnRefresh s q) := by
  unfold State.lnRefresh
  repeat' with_reducible first
      | assumption | intro _ | apply State.wr_keeps | apply State.wb_keeps | apply State.lnQuiet_keeps
      | fail_if_no_progress apply keeps_mk | apply keeps_foldl | split | extract_lets

theorem State.netsDown_keeps {s : State} (q : Nat) (k : Nat) (h : Keeps r s) : Keeps r (State.netsDown s q k) := by
  unfold State.netsDown
  repeat' with_reducible first | assumption | intro _ | apply State.netLink_keeps | apply keeps_foldl | split | extract_lets

theorem State.setPat_keeps {s : State} (l : Nat) (x : PatSt) (h : Keeps r s) : Keeps r (State.setPat s l x) := by
  unfold State.setPat
  repeat' with_reducible first | assumption | fail_if_no_progress apply keeps_mk

theorem State.patTake_keeps {s : State} (l : Nat) (b : Bool) (h : Keeps r s) : Keeps r (State.patTake s l b) := by
  unfold State.patTake
  repeat' with_reducible first
      | assumption | apply State.emit_keeps | apply State.cnt_keeps | apply State.wb_keeps | apply State.setPat_keeps | split
      | extract_lets

theorem State.patClean_keeps {s : State} (l : Nat) (n : Nat) (h : Keeps r s) : Keeps r (State.patClean s l n) := by
  unfold State.patClean
  repeat' with_reducible first | assumption | apply State.setPat_keeps | apply State.cnt_keeps | split | extract_lets

theorem execPatternCheckLock_keeps (l : Fin 64) (rx : List Bool) (good : Nat) (more : List Bool) {s : State} (h : Keeps r s)
    : KeepsOut r (execPatternCheckLock l rx good more s) := by
  unfold execPatternCheckLock
  repeat' with_reducible first
      | assumption | intro _ | apply State.patTake_keeps | apply State.patClean_keeps | apply keeps_done | apply keeps_foldl
      | split

theorem State.injectNext_keeps {s : State} (l : Nat) (h : Keeps r s) : Keeps r (State.injectNext s l) := by
  unfold State.injectNext
  repeat' with_reducible first
      | assumption | apply State.emitOut_keeps | apply State.wb_keeps | apply State.setPat_keeps | split | extract_lets

theorem State.patStart_keeps {s : State} (l : Nat) (h : Keeps r s) : Keeps r (State.patStart s l) := by
  unfold State.patStart
  repeat' with_reducible first
      | assumption | apply State.draw_keeps | apply State.injectNext_keeps | apply State.setPat_keeps | split

theorem execInjectOne_keeps (_w : Writer) (l : Fin 64) {s : State} (h : Keeps r s) : KeepsOut r (execInjectOne _w l s) := by
  unfold execInjectOne
  repeat' with_reducible first | assumption | apply State.injectNext_keeps | apply State.wb_keeps | apply keeps_done

theorem execPllLocked_keeps (q : Fin 16) (k : Fin 2) {s : State} (h : Keeps r s) : KeepsOut r (execPllLocked q k s) := by
  unfold execPllLocked
  repeat' with_reducible first
      | assumption | intro _ | apply State.patStart_keeps | apply State.idleOut_keeps | apply State.wb_keeps
      | apply State.emit_keeps | apply keeps_done | fail_if_no_progress apply keeps_mk | apply keeps_foldl | split
      | extract_lets

theorem execPllLost_keeps (q : Fin 16) (k : Fin 2) {s : State} (h : Keeps r s) : KeepsOut r (execPllLost q k s) := by
  unfold execPllLost
  repeat' with_reducible first
      | assumption | intro _ | apply State.cnt_keeps | apply State.wb_keeps | apply State.netsDown_keeps
      | apply State.emit_keeps | apply State.lnQuiet_keeps | apply keeps_done | fail_if_no_progress apply keeps_mk
      | apply keeps_foldl | split

theorem execPllRetry_keeps (q : Fin 16) (k : Fin 2) {s : State} (h : Keeps r s) : KeepsOut r (execPllRetry q k s) := by
  unfold execPllRetry
  repeat' with_reducible first
      | assumption | apply State.advanceRun_keeps | apply keeps_done | fail_if_no_progress apply keeps_mk | split

theorem execLosChange_keeps (l : Fin 64) (los : Bool) {s : State} (h : Keeps r s) : KeepsOut r (execLosChange l los s) := by
  unfold execLosChange
  repeat' with_reducible first
      | assumption | apply State.wb_keeps | apply State.emit_keeps | apply State.cnt_keeps | apply keeps_done | split

theorem execCdrLockChange_keeps (l : Fin 64) (locked : Bool) {s : State} (h : Keeps r s) : KeepsOut r
    (execCdrLockChange l locked s) := by
  unfold execCdrLockChange
  repeat' with_reducible first | assumption | apply State.wb_keeps | apply keeps_done | split

theorem State.lnEnable_keeps {s : State} (w : Writer) (l : Nat) (h : Keeps r s) : Keeps r (State.lnEnable s w l) := by
  unfold State.lnEnable
  repeat' with_reducible first
      | assumption | apply State.enableFenced_keeps | apply State.ownConflict_keeps | apply State.emit_keeps
      | apply State.patStart_keeps | apply State.lnRefresh_keeps | apply State.useSet_keeps | apply State.wb_keeps | split
      | extract_lets

theorem State.lnDisable_keeps {s : State} (l : Nat) (h : Keeps r s) : Keeps r (State.lnDisable s l) := by
  unfold State.lnDisable
  repeat' with_reducible first
      | assumption | apply State.wb_keeps | apply State.useSet_keeps | apply State.lnRefresh_keeps | split

/-! ### Feed -/

theorem State.ctxExamine_keeps {s : State} (m : Nat) (f : Nat) (h : Keeps r s) : Keeps r (State.ctxExamine s m f) := by
  unfold State.ctxExamine
  repeat' with_reducible first | assumption | apply State.loftExamine_keeps | split

theorem State.ctxPut_keeps {s : State} (f : Nat) (off : Nat) (v : Nat) (n : Nat) (h : Keeps r s) : Keeps r
    (State.ctxPut s f off v n) := by
  unfold State.ctxPut
  repeat' with_reducible first | assumption | apply State.loftPutLE_keeps | split

theorem State.setFeed_keeps {s : State} (f : Nat) (x : FeedSt) (h : Keeps r s) : Keeps r (State.setFeed s f x) := by
  unfold State.setFeed
  repeat' with_reducible first | assumption | fail_if_no_progress apply keeps_mk

theorem State.feedInc_keeps {s : State} (f : Nat) (g : Fld) (n : Nat) (h : Keeps r s) : Keeps r (State.feedInc s f g n) := by
  unfold State.feedInc
  repeat' with_reducible first | assumption | apply State.inc_keeps

theorem State.feedDescWrite_keeps {s : State} (w : Writer) (f : Nat) (off : Nat) (v : Nat) (h : Keeps r s) : Keeps r
    (State.feedDescWrite s w f off v) := by
  unfold State.feedDescWrite
  repeat' with_reducible first
      | assumption | apply State.lockedWrite_keeps | apply State.setFields_keeps | apply State.wb_keeps | apply keeps_ite

theorem execFeedDescWrite_keeps (w : Writer) (f : Fin 512) (word : Fin 32) (v : Word) {s : State} (h : Keeps r s) : KeepsOut r
    (execFeedDescWrite w f word v s) := by
  unfold execFeedDescWrite
  repeat' with_reducible first | assumption | apply State.feedDescWrite_keeps | apply keeps_done

theorem State.feedCount_keeps {s : State} (h : Keeps r s) : Keeps r (State.feedCount s) := by
  unfold State.feedCount
  repeat' with_reducible first | assumption | apply State.wr_keeps

theorem State.feedJoin_keeps {s : State} (f : Nat) (h : Keeps r s) : Keeps r (State.feedJoin s f) := by
  unfold State.feedJoin
  repeat' with_reducible first
      | assumption | intro _ | fail_if_no_progress apply keeps_mk | apply keeps_foldl | split | extract_lets

theorem State.feedLeave_keeps {s : State} (h : Keeps r s) : Keeps r (State.feedLeave s) := by
  unfold State.feedLeave
  repeat' with_reducible first
      | assumption | intro _ | apply State.netSend_keeps | fail_if_no_progress apply keeps_mk | apply keeps_foldl

theorem execMembershipReport_keeps (port : Fin 18) (f : Fin 512) {s : State} (h : Keeps r s) : KeepsOut r
    (execMembershipReport port f s) := by
  unfold execMembershipReport
  repeat' with_reducible first
      | assumption | intro _ | apply State.netSend_keeps | apply State.wb_keeps | apply keeps_done
      | fail_if_no_progress apply keeps_mk | apply keeps_foldl | split

theorem State.feedResumed_keeps {s : State} (f : Nat) (h : Keeps r s) : Keeps r (State.feedResumed s f) := by
  unfold State.feedResumed
  repeat' with_reducible first | assumption | apply State.emit_keeps

theorem State.feedAccepted_keeps {s : State} (f : Nat) (st : FeedSt) (h : Keeps r s) : Keeps r (State.feedAccepted s f st) := by
  unfold State.feedAccepted
  repeat' with_reducible first | assumption | apply State.wr_keeps | apply State.feedResumed_keeps | split | extract_lets

theorem State.rtpAccept_keeps {s : State} (f : Nat) (st : FeedSt) (x : PktSlot) (r0 : Rtp) (ext : Nat) (h : Keeps r s) : Keeps r
    (State.rtpAccept s f st x r0 ext) := by
  unfold State.rtpAccept
  repeat' with_reducible first
      | assumption | apply State.wr_keeps | apply State.feedInc_keeps | apply State.feedAccepted_keeps
      | apply State.setFeed_keeps | split

theorem State.rtpLock_keeps {s : State} (f : Nat) (st : FeedSt) (x : PktSlot) (r0 : Rtp) (h : Keeps r s) : Keeps r
    (State.rtpLock s f st x r0).2 := by
  unfold State.rtpLock
  repeat' with_reducible first | assumption | apply State.wb_keeps

theorem State.rtpCount_keeps {s : State} (f : Nat) (st : FeedSt) (x : PktSlot) (r0 : Rtp) (h : Keeps r s) : Keeps r
    (State.rtpCount s f st x r0).2 := by
  unfold State.rtpCount
  repeat' with_reducible first
      | assumption | apply State.feedInc_keeps | apply State.wr64_keeps | apply State.setFeed_keeps | apply State.wr_keeps

theorem State.rtpPacket_keeps {s : State} (f : Nat) (st : FeedSt) (x : PktSlot) (r0 : Rtp) (h : Keeps r s) : Keeps r
    (State.rtpPacket s f st x r0) := by
  unfold State.rtpPacket
  repeat' with_reducible first
      | assumption | apply State.rtpCount_keeps | apply State.feedInc_keeps | apply State.setFeed_keeps
      | apply State.rtpLock_keeps | apply State.rtpAccept_keeps | apply State.emit_keeps | (apply keeps_snd; assumption) | split
      | extract_lets

theorem execRtpPacket_keeps (f : Fin 512) {s : State} (h : Keeps r s) : KeepsOut r (execRtpPacket f s) := by
  unfold execRtpPacket
  repeat' with_reducible first
      | assumption | apply State.pktFree_keeps | apply State.rtpPacket_keeps | apply keeps_done | split | extract_lets

theorem State.ingressTo_keeps {s : State} (t : Nat) (h : Keeps r s) : Keeps r (State.ingressTo s t) := by
  unfold State.ingressTo
  repeat' with_reducible first | assumption | apply State.advanceTo_keeps | split

theorem execAuTimeout_keeps (f : Fin 512) {s : State} (h : Keeps r s) : KeepsOut r (execAuTimeout f s) := by
  unfold execAuTimeout
  repeat' with_reducible first
      | assumption | apply State.setFeed_keeps | apply State.ingressTo_keeps | apply keeps_done | split | extract_lets

theorem State.senderReport_keeps {s : State} (f : Nat) (st : FeedSt) (x : PktSlot) (l : List Nat) (h : Keeps r s) : Keeps r
    (State.senderReport s f st x l) := by
  unfold State.senderReport
  repeat' with_reducible first
      | assumption | apply State.emit_keeps | apply State.setFeed_keeps | apply State.wr64_keeps | apply State.feedInc_keeps
      | apply keeps_ite | split

theorem execSenderReport_keeps (f : Fin 512) {s : State} (h : Keeps r s) : KeepsOut r (execSenderReport f s) := by
  unfold execSenderReport
  repeat' with_reducible first
      | assumption | apply State.pktFree_keeps | apply State.senderReport_keeps | apply keeps_done | split | extract_lets

theorem State.receiverReport_keeps {s : State} (f : Nat) (st : FeedSt) (h : Keeps r s) : Keeps r
    (State.receiverReport s f st) := by
  unfold State.receiverReport
  repeat' with_reducible first | assumption | apply State.netSend_keeps | apply State.setFeed_keeps | split

theorem execFeedSilent_keeps (f : Fin 512) {s : State} (h : Keeps r s) : KeepsOut r (execFeedSilent f s) := by
  unfold execFeedSilent
  repeat' with_reducible first
      | assumption | apply State.advanceTo_keeps | apply State.emit_keeps | apply State.wr_keeps | apply keeps_done | split

theorem execFeedDegradedLapse_keeps (f : Fin 512) {s : State} (h : Keeps r s) : KeepsOut r (execFeedDegradedLapse f s) := by
  unfold execFeedDegradedLapse
  repeat' with_reducible first | assumption | apply State.wr_keeps | apply State.advanceTo_keeps | apply keeps_done | split

/-! ### Dec -/

theorem State.setDecFeed_keeps {s : State} (f : Nat) (x : DecFeed) (h : Keeps r s) : Keeps r (State.setDecFeed s f x) := by
  unfold State.setDecFeed
  repeat' with_reducible first | assumption | fail_if_no_progress apply keeps_mk

theorem State.setPipe_keeps {s : State} (n : Nat) (x : DecSt) (h : Keeps r s) : Keeps r (State.setPipe s n x) := by
  unfold State.setPipe
  repeat' with_reducible first | assumption | fail_if_no_progress apply keeps_mk

theorem State.decSwap_keeps {s : State} (n : Nat) (h : Keeps r s) : Keeps r (State.decSwap s n) := by
  unfold State.decSwap
  repeat' with_reducible first | assumption | apply State.emit_keeps | apply State.wb_keeps

theorem State.decWrap_keeps {s : State} (n : Nat) (h : Keeps r s) : Keeps r (State.decWrap s n) := by
  unfold State.decWrap
  repeat' with_reducible first | assumption | apply State.decSwap_keeps | split

theorem State.decChoose_keeps {s : State} (n : Nat) (h : Keeps r s) : Keeps r (State.decChoose s n).2 := by
  unfold State.decChoose
  repeat' with_reducible first
      | assumption | apply State.wb_keeps | apply State.wr_keeps | apply State.decWrap_keeps | split | extract_lets

theorem State.decRest_keeps {s : State} (n : Nat) (h : Keeps r s) : Keeps r (State.decRest s n) := by
  unfold State.decRest
  repeat' with_reducible first | assumption | apply State.wb_keeps | apply State.decWrap_keeps | split

theorem State.decRestAll_keeps {s : State} (h : Keeps r s) : Keeps r (State.decRestAll s) := by
  unfold State.decRestAll
  repeat' with_reducible first | assumption | apply State.decRest_keeps | apply keeps_foldl

theorem State.decSlotWrite_keeps {s : State} (n : Nat) (copyB : Bool) (i : Nat) (v : Nat) (h : Keeps r s) : Keeps r
    (State.decSlotWrite s n copyB i v) := by
  unfold State.decSlotWrite
  repeat' with_reducible first
      | assumption | apply State.emit_keeps | apply State.setPipe_keeps | apply State.wb_keeps | apply State.wr_keeps
      | apply State.decRest_keeps | apply keeps_ite | split | extract_lets

theorem execDecSlotWrite_keeps (w : Writer) (n : Fin 8) (copyB : Bool) (slot : Fin 64) (v : Word) {s : State} (h : Keeps r s)
    : KeepsOut r (execDecSlotWrite w n copyB slot v s) := by
  unfold execDecSlotWrite
  repeat' with_reducible first
      | assumption | apply State.fencedWrite_keeps | apply State.decSlotWrite_keeps | apply keeps_done | split

theorem execDecSlotSwapRequest_keeps (w : Writer) (n : Fin 8) {s : State} (h : Keeps r s) : KeepsOut r
    (execDecSlotSwapRequest w n s) := by
  unfold execDecSlotSwapRequest
  repeat' with_reducible first
      | assumption | apply State.missRecord_keeps | apply State.wb_keeps | apply State.decSwap_keeps | apply keeps_done | split

theorem State.decPutState_keeps {s : State} (f : Nat) (st : Nat) (chain : Bool) (h : Keeps r s) : Keeps r
    (State.decPutState s f st chain) := by
  unfold State.decPutState
  repeat' with_reducible first | assumption | apply State.ctxPut_keeps

theorem State.decView_keeps {s : State} (f : Nat) (h : Keeps r s) : Keeps r (State.decView s f) := by
  unfold State.decView
  repeat' with_reducible first | assumption | apply State.loftPut_keeps | split

theorem State.decPrivPut_keeps {s : State} (f : Nat) (l : List Nat) (h : Keeps r s) : Keeps r (State.decPrivPut s f l) := by
  unfold State.decPrivPut
  repeat' with_reducible first | assumption | apply State.loftPut_keeps | split

theorem State.decRestart_keeps {s : State} (f : Nat) (flush : Bool) (h : Keeps r s) : Keeps r (State.decRestart s f flush) := by
  unfold State.decRestart
  repeat' with_reducible first
      | assumption | intro _ | apply State.ownerRelease_keeps | apply State.marksClear_keeps | apply State.setDecFeed_keeps
      | apply State.decPutState_keeps | apply State.ctxPut_keeps | apply State.decPrivPut_keeps | apply State.decView_keeps
      | apply keeps_foldl | split

theorem execDecFlush_keeps (w : Writer) (n : Fin 8) (f : Fin 512) {s : State} (h : Keeps r s) : KeepsOut r
    (execDecFlush w n f s) := by
  unfold execDecFlush
  repeat' with_reducible first
      | assumption | apply State.missRecord_keeps | apply State.emit_keeps | apply State.setPipe_keeps
      | apply State.decRestart_keeps | apply keeps_done | split | extract_lets

theorem State.chainOpen_keeps {s : State} (n : Nat) (f : Nat) (auseq : Nat) (cause : Nat) (h : Keeps r s) : Keeps r
    (State.chainOpen s n f auseq cause) := by
  unfold State.chainOpen
  repeat' with_reducible first
      | assumption | apply State.setDecFeed_keeps | apply State.decPutState_keeps | apply State.emit_keeps | split

theorem State.decComplete_keeps {s : State} (f : Nat) (auseq : Nat) (flags : Nat) (out : Nat) (h : Keeps r s) : Keeps r
    (State.decComplete s f auseq flags out) := by
  unfold State.decComplete
  repeat' with_reducible first
      | assumption | apply State.decView_keeps | apply State.ctxPut_keeps | apply State.loftPut_keeps | split | extract_lets

theorem State.decConsume_keeps {s : State} (f : Nat) (h : Keeps r s) : Keeps r (State.decConsume s f) := by
  unfold State.decConsume
  repeat' with_reducible first | assumption | apply State.ctxPut_keeps

theorem State.decDrop_keeps {s : State} (n : Nat) (f : Nat) (auseq : Nat) (reason : Nat) (ref : Nat) (silent : Bool)
    (h : Keeps r s) : Keeps r (State.decDrop s n f auseq reason ref silent) := by
  unfold State.decDrop
  repeat' with_reducible first
      | assumption | apply State.emit_keeps | apply State.chainOpen_keeps | apply State.cnt_keeps | apply State.ctxPut_keeps
      | apply State.decComplete_keeps | apply State.setDecFeed_keeps | split

theorem State.decActivate_keeps {s : State} (n : Nat) (f : Nat) (auseq : Nat) (hh : AuHead) (h : Keeps r s) : Keeps r
    (State.decActivate s n f auseq hh) := by
  unfold State.decActivate
  repeat' with_reducible first
      | assumption | apply State.decPrivPut_keeps | apply State.decPutState_keeps | apply State.emit_keeps
      | apply State.setDecFeed_keeps | apply State.ctxPut_keeps | split | extract_lets

theorem State.decDropAu_keeps {s : State} (n : Nat) (f : Nat) (auseq : Nat) (reason : Nat) (hh : AuHead) (h : Keeps r s)
    : Keeps r (State.decDropAu s n f auseq reason hh) := by
  unfold State.decDropAu
  repeat' with_reducible first
      | assumption | apply State.decDrop_keeps | apply State.decConsume_keeps | apply State.setDecFeed_keeps | split

theorem State.decBegin_keeps {s : State} (n : Nat) (f : Nat) (switch : Nat) (auseq : Nat) (flags : Nat) (tc : Nat) (adm : Nat)
    (coded : List Nat) (hh : AuHead) (h : Keeps r s) : Keeps r (State.decBegin s n f switch auseq flags tc adm coded hh) := by
  unfold State.decBegin
  repeat' with_reducible first
      | assumption | apply State.decActivate_keeps | apply State.setDecFeed_keeps | apply State.decDropAu_keeps
      | apply State.decDrop_keeps | apply State.decConsume_keeps | apply State.decComplete_keeps | apply State.alloc_keeps
      | apply State.ownerRelease_keeps | apply State.wb_keeps | apply State.wr64_keeps | apply State.wr_keeps
      | apply State.setPipe_keeps | (apply keeps_snd; assumption) | split | extract_lets

theorem State.decNote_keeps {s : State} (n : Nat) (lum : Nat) (coded : Nat) (h : Keeps r s) : Keeps r
    (State.decNote s n lum coded) := by
  unfold State.decNote
  repeat' with_reducible first | assumption | apply State.setPipe_keeps

theorem State.decTake_keeps {s : State} (n : Nat) (f : Nat) (switch : Nat) (h : Keeps r s) : Keeps r
    (State.decTake s n f switch) := by
  unfold State.decTake
  repeat' with_reducible first
      | assumption | apply State.ctxExamine_keeps | apply State.decRestart_keeps | apply State.setDecFeed_keeps
      | apply State.chainOpen_keeps | apply State.decDrop_keeps | apply State.decConsume_keeps | apply State.bayRead_keeps
      | apply State.decBegin_keeps | apply State.decNote_keeps | apply keeps_ite | (apply keeps_snd; assumption) | split
      | extract_lets

theorem execAuRecordConsume_keeps (n : Fin 8) {s : State} (h : Keeps r s) : KeepsOut r (execAuRecordConsume n s) := by
  unfold execAuRecordConsume
  repeat' with_reducible first
      | assumption | apply State.setPipe_keeps | apply State.decConsume_keeps | apply keeps_done | split

theorem State.refReads_keeps {s : State} (n : Nat) (d : DecFeed) (depth : Nat) (a : List RefRead) (h : Keeps r s) : Keeps r
    (State.refReads s n d depth a).2.2 := by
  induction a generalizing s
  all_goals unfold State.refReads
  all_goals
    repeat' with_reducible first | apply_assumption | apply State.bayRead_keeps | split | extract_lets

theorem State.putRows_keeps {s : State} (n : Nat) (j : DecJob) (l : List (Nat × List Nat)) (h : Keeps r s) : Keeps r
    (State.putRows s n j l).2 := by
  unfold State.putRows
  repeat' with_reducible first | assumption | intro _ | apply State.bayWrite_keeps | apply keeps_foldl2

theorem State.decWrite_keeps {s : State} (n : Nat) (j : DecJob) (h265 : Bool) (ctus : List Ctu) (px : List Nat × List Nat)
    (stats : List Nat) (h : Keeps r s) : Keeps r (State.decWrite s n j h265 ctus px stats).2 := by
  unfold State.decWrite
  repeat' with_reducible first | assumption | apply State.putRows_keeps

theorem State.decOutput_keeps {s : State} (f : Nat) (j : DecJob) (x : DecPic) (h : Keeps r s) : Keeps r
    (State.decOutput s f j x) := by
  unfold State.decOutput
  repeat' with_reducible first
      | assumption | apply State.wr64_keeps | apply State.marksClear_keeps | apply State.marksSet_keeps
      | apply State.setDecFeed_keeps | apply State.ctxPut_keeps | split

theorem State.decOutputs_keeps {s : State} (f : Nat) (j : DecJob) (l : List DecPic) (h : Keeps r s) : Keeps r
    (State.decOutputs s f j l) := by
  unfold State.decOutputs
  repeat' with_reducible first | assumption | intro _ | apply State.decOutput_keeps | apply keeps_foldl

theorem State.decRemark_keeps {s : State} (old : DecPic) (new : DecPic) (h : Keeps r s) : Keeps r
    (State.decRemark s old new) := by
  unfold State.decRemark
  repeat' with_reducible first | assumption | apply State.marksSet_keeps | apply State.marksClear_keeps | split

theorem State.decMark_keeps {s : State} (f : Nat) (j : DecJob) (b : AuBody) (gap : Bool) (h : Keeps r s) : Keeps r
    (State.decMark s f j b gap).2 := by
  unfold State.decMark
  repeat' with_reducible first
      | assumption | intro _ | apply State.decOutputs_keeps | apply State.marksClear_keeps | apply State.decRemark_keeps
      | apply State.marksSet_keeps | apply State.setDecFeed_keeps | apply keeps_foldl | split

theorem State.decChainStep_keeps {s : State} (n : Nat) (f : Nat) (j : DecJob) (causes : List Nat) (raslConc : Bool)
    (h : Keeps r s) : Keeps r (State.decChainStep s n f j causes raslConc).2 := by
  unfold State.decChainStep
  repeat' with_reducible first
      | assumption | apply State.emit_keeps | apply State.decPutState_keeps | apply State.chainOpen_keeps
      | apply State.setDecFeed_keeps | apply keeps_ite | split

theorem State.decBoundary_keeps {s : State} (n : Nat) (h : Keeps r s) : Keeps r (State.decBoundary s n) := by
  unfold State.decBoundary
  repeat' with_reducible first
      | assumption | intro _ | apply State.wb_keeps | apply State.wr_keeps | apply State.setPipe_keeps
      | apply State.decRest_keeps | apply State.decRestart_keeps | apply keeps_foldl

theorem State.decReady_keeps {s : State} (j : DecJob) (conc : Bool) (ok : Bool) (h : Keeps r s) : Keeps r
    (State.decReady s j conc ok) := by
  unfold State.decReady
  repeat' with_reducible first | assumption | apply State.wb_keeps | split

theorem State.decDone_keeps {s : State} (n : Nat) (j : DecJob) (b : AuBody) (h : Keeps r s) : Keeps r
    (State.decDone s n j b) := by
  unfold State.decDone
  repeat' with_reducible first
      | assumption | apply State.decConsume_keeps | apply State.refReads_keeps | apply State.emit_keeps
      | apply State.decChainStep_keeps | apply State.decWrite_keeps | apply State.decReady_keeps | apply State.setDecFeed_keeps
      | apply State.decPrivPut_keeps | apply State.decMark_keeps | apply State.ownerRelease_keeps | apply State.ctxPut_keeps
      | apply State.cnt_keeps | apply State.decNote_keeps | apply State.decBoundary_keeps | apply State.decComplete_keeps
      | split

theorem State.decHold_keeps {s : State} (n : Nat) (j : DecJob) (h : Keeps r s) : Keeps r (State.decHold s n j).2 := by
  unfold State.decHold
  split
  · exact h
  · split
    rename_i e
    have h1 := keeps_snd e (State.perturb_keeps _ _ _ h)
    split
    · exact State.setPipe_keeps _ _ h1
    · exact h1

theorem decHold_keeps_some {s t u : State} {n : Nat} {j : DecJob} (e : State.decHold s n j = (some t, u)) (h : Keeps r s) :
    Keeps r t := by
  unfold State.decHold at e
  split at e
  · injection e with e
    injection e with e
    exact e ▸ State.advanceTo_keeps _ h
  · split at e
    rename_i e1
    have h1 := keeps_snd e1 (State.perturb_keeps _ _ _ h)
    split at e
    · injection e with e
      exact nomatch e
    · injection e with e
      injection e with e
      exact e ▸ h1

theorem State.decAbandon_keeps {s : State} (n : Nat) (h : Keeps r s) : Keeps r (State.decAbandon s n) := by
  unfold State.decAbandon
  repeat' with_reducible first
      | assumption | apply State.decConsume_keeps | apply State.ownerRelease_keeps | apply State.marksClear_keeps
      | apply State.decDrop_keeps | apply State.decBoundary_keeps | apply State.setDecFeed_keeps | split

theorem execCandidateExpire_keeps (f : Fin 512) {s : State} (h : Keeps r s) : KeepsOut r (execCandidateExpire f s) := by
  unfold execCandidateExpire
  repeat' with_reducible first
      | assumption | apply State.advanceTo_keeps | apply State.marksClear_keeps | apply State.setDecFeed_keeps
      | apply keeps_done | split

end Sys2Proof.Machine
end

