-- ==== Sys2Proof/Laws/KeepsComp.lean ====
section
/-! SUPPORT. Every operation keeps the queue and canonical memories, by module: canvases, the yoke, admission, the display link, epochs, the gate and touch. -/

set_option autoImplicit false

namespace Sys2Proof.Machine

variable {r : State}

/-! ### Comp -/

theorem State.stallWrite_keeps {s : State} (n : Nat) (off : Nat) (v : Nat) (h : Keeps r s) : Keeps r
    (State.stallWrite s n off v) := by
  unfold State.stallWrite
  repeat' with_reducible first | assumption | apply State.setFields_keeps | split | extract_lets

theorem execStallDescWrite_keeps (_w : Writer) (n : Fin 4096) (word : Fin 16) (v : Word) {s : State} (h : Keeps r s)
    : KeepsOut r (execStallDescWrite _w n word v s) := by
  unfold execStallDescWrite
  repeat' with_reducible first | assumption | apply State.stallWrite_keeps | apply keeps_done

theorem State.setCv_keeps {s : State} (e : Nat) (c : Nat) (x : CanvasSt) (h : Keeps r s) : Keeps r (State.setCv s e c x) := by
  unfold State.setCv
  repeat' with_reducible first | assumption | fail_if_no_progress apply keeps_mk

theorem State.setTrack_keeps {s : State} (e : Nat) (f : Nat) (t : Track) (h : Keeps r s) : Keeps r
    (State.setTrack s e f t) := by
  unfold State.setTrack
  repeat' with_reducible first | assumption | fail_if_no_progress apply keeps_mk

theorem State.trackAdmit_keeps {s : State} (f : Nat) (auseq : Nat) (adm : Nat) (tc : Nat) (est : Bool) (h : Keeps r s) : Keeps r
    (State.trackAdmit s f auseq adm tc est) := by
  unfold State.trackAdmit
  repeat' with_reducible first | assumption | intro _ | apply State.setTrack_keeps | apply keeps_foldl | split

theorem State.trackDone_keeps {s : State} (f : Nat) (auseq : Nat) (done : Nat) (flags : Nat) (outs : List (Nat × Nat))
    (h : Keeps r s) : Keeps r (State.trackDone s f auseq done flags outs) := by
  unfold State.trackDone
  repeat' with_reducible first | assumption | intro _ | apply State.setTrack_keeps | apply keeps_foldl | split

theorem State.trackRestart_keeps {s : State} (f : Nat) (h : Keeps r s) : Keeps r (State.trackRestart s f) := by
  unfold State.trackRestart
  repeat' with_reducible first | assumption | intro _ | apply State.setTrack_keeps | apply keeps_foldl | split

theorem State.trackCreate_keeps {s : State} (e : Nat) (l : List StallCfg) (h : Keeps r s) : Keeps r
    (State.trackCreate s e l) := by
  unfold State.trackCreate
  repeat' with_reducible first | assumption | intro _ | apply State.setTrack_keeps | apply keeps_foldl | split

theorem State.trackPrune_keeps {s : State} (e : Nat) (h : Keeps r s) : Keeps r (State.trackPrune s e) := by
  unfold State.trackPrune
  repeat' with_reducible first | assumption | fail_if_no_progress apply keeps_mk

theorem State.setStallSt_keeps {s : State} (n : Nat) (x : StallSt) (h : Keeps r s) : Keeps r (State.setStallSt s n x) := by
  unfold State.setStallSt
  repeat' with_reducible first | assumption | fail_if_no_progress apply keeps_mk

theorem State.stallApply_keeps {s : State} (n : Nat) (h : Keeps r s) : Keeps r (State.stallApply s n) := by
  unfold State.stallApply
  repeat' with_reducible first
      | assumption | apply State.wb_keeps | apply State.activate_keeps | apply State.setStallSt_keeps | apply keeps_ite

theorem State.cmpDensity_keeps {s : State} (e : Nat) (h : Keeps r s) : Keeps r (State.cmpDensity s e) := by
  unfold State.cmpDensity
  repeat' with_reducible first | assumption | apply State.wr_keeps

theorem State.dropHolds_keeps {s : State} (l : List StallHold) (h : Keeps r s) : Keeps r (State.dropHolds s l) := by
  unfold State.dropHolds
  repeat' with_reducible first | assumption | intro _ | apply State.holdRelease_keeps | apply keeps_foldl

theorem State.canvasApply_keeps {s : State} (e : Nat) (c : Nat) (h : Keeps r s) : Keeps r (State.canvasApply s e c) := by
  unfold State.canvasApply
  repeat' with_reducible first
      | assumption | apply State.activate_keeps | apply State.stallApply_keeps | apply State.dropHolds_keeps
      | apply State.setCv_keeps | apply State.wb_keeps | apply State.holdRelease_keeps | apply State.cmpDensity_keeps
      | apply State.trackPrune_keeps | apply keeps_foldl | split

theorem State.commitRefused_keeps {s : State} (e : Nat) (c : Nat) (r0 : CommitRefusal) (h : Keeps r s) : Keeps r
    (State.commitRefused s e c r0) := by
  unfold State.commitRefused
  repeat' with_reducible first | assumption | apply State.wr_keeps | apply State.wb_keeps | apply State.emit_keeps

theorem State.commitAccept_keeps {s : State} (e : Nat) (c : Nat) (h : Keeps r s) : Keeps r (State.commitAccept s e c) := by
  unfold State.commitAccept
  repeat' with_reducible first
      | assumption | intro _ | apply State.holdTake_keeps | apply State.dropHolds_keeps | apply State.capture_keeps
      | apply State.wb_keeps | apply State.setCv_keeps | apply State.trackCreate_keeps | apply State.trackPrune_keeps
      | apply keeps_foldl

theorem State.canvasCommit_keeps {s : State} (e : Nat) (c : Nat) (h : Keeps r s) : Keeps r (State.canvasCommit s e c) := by
  unfold State.canvasCommit
  repeat' with_reducible first
      | assumption | apply State.commitRefused_keeps | apply State.commitAccept_keeps | apply State.canvasApply_keeps | split
      | extract_lets

/-! ### Yoke -/

theorem State.ymSend_keeps {s : State} (typ : Nat) (body : List Nat) (h : Keeps r s) : Keeps r (State.ymSend s typ body) := by
  unfold State.ymSend
  repeat' with_reducible first | assumption | apply State.yk_keeps | apply State.netDatagram_keeps | split

theorem State.report_keeps {s : State} (kind : Nat) (obj : Nat) (id : Nat) (frame : Nat) (own : Nat) (partner : Nat)
    (withheld : Nat) (h : Keeps r s) : Keeps r (State.report s kind obj id frame own partner withheld) := by
  unfold State.report
  repeat' with_reducible first | assumption | apply State.ymSend_keeps

theorem State.reportDiv_keeps {s : State} (kind : Nat) (obj : Nat) (id : Nat) (frame : Nat) (own : Nat) (partner : Nat)
    (h : Keeps r s) : Keeps r (State.reportDiv s kind obj id frame own partner) := by
  unfold State.reportDiv
  repeat' with_reducible first | assumption | apply State.report_keeps | apply State.yk_keeps | split | extract_lets

theorem State.ykState_keeps {s : State} (new : Nat) (h : Keeps r s) : Keeps r (State.ykState s new) := by
  unfold State.ykState
  repeat' with_reducible first | assumption | apply State.emit_keeps | apply State.yk_keeps | split | extract_lets

theorem State.ykClear_keeps {s : State} (h : Keeps r s) : Keeps r (State.ykClear s) := by
  unfold State.ykClear
  repeat' with_reducible first
      | assumption | intro _ | apply State.yk_keeps | apply State.wr_keeps | fail_if_no_progress apply keeps_mk
      | apply keeps_foldl

theorem State.wheelSplit_keeps {s : State} (h : Keeps r s) : Keeps r (State.wheelSplit s) := by
  unfold State.wheelSplit
  repeat' with_reducible first | assumption | apply State.wr_keeps | apply State.setTbState_keeps | split | extract_lets

theorem State.toIngress_keeps {s : State} (m : Nat) (x : PktSlot) (h : Keeps r s) : Keeps r (State.toIngress s m x) := by
  unfold State.toIngress
  repeat' with_reducible first | assumption | fail_if_no_progress apply keeps_mk | split

theorem State.laterGo_keeps {s : State} (h : Keeps r s) : Keeps r (State.laterGo s) := by
  unfold State.laterGo
  repeat' with_reducible first | assumption | intro _ | apply State.toIngress_keeps | apply State.yk_keeps | apply keeps_foldl

theorem State.mergeSplit_keeps {s : State} (wasSeq : Bool) (h : Keeps r s) : Keeps r (State.mergeSplit s wasSeq) := by
  unfold State.mergeSplit
  repeat' with_reducible first | assumption | apply State.yk_keeps

theorem State.ykDown_keeps {s : State} (cause : Nat) (h : Keeps r s) : Keeps r (State.ykDown s cause) := by
  unfold State.ykDown
  repeat' with_reducible first
      | assumption | apply State.emit_keeps | apply State.cnt_keeps | apply State.ykClear_keeps | apply State.wr_keeps
      | apply State.wb_keeps | apply State.yk_keeps | apply State.mergeSplit_keeps | apply State.laterGo_keeps
      | apply State.wheelSplit_keeps | apply State.ykState_keeps | apply State.report_keeps | apply keeps_ite

theorem State.ykEmitFor_keeps {s : State} (x : YkFrame) (replay : Bool) (av : Option Nat) (cv : Nat) (h : Keeps r s) : Keeps r
    (State.ykEmitFor s x replay av cv) := by
  unfold State.ykEmitFor
  repeat' with_reducible first
      | assumption | apply State.setVc_keeps | apply State.cnt_keeps | apply State.emitOut_keeps | apply State.yk_keeps | split

theorem State.ykEmit_keeps {s : State} (x : YkFrame) (replay : Bool) (h : Keeps r s) : Keeps r (State.ykEmit s x replay) := by
  unfold State.ykEmit
  repeat' with_reducible first | assumption | apply State.ykEmitFor_keeps

theorem State.ykPush_keeps {s : State} (v : Nat) (typ : Nat) (data : List Nat) (h : Keeps r s) : Keeps r
    (State.ykPush s v typ data) := by
  unfold State.ykPush
  repeat' with_reducible first
      | assumption | apply State.ykDown_keeps | apply State.wr_keeps | apply State.ykEmit_keeps | apply State.setVc_keeps
      | split | extract_lets

theorem State.ykSend_keeps {s : State} (v : Nat) (typ : Nat) (data : List Nat) (h : Keeps r s) : Keeps r
    (State.ykSend s v typ data) := by
  unfold State.ykSend
  repeat' with_reducible first | assumption | apply State.ykPush_keeps | apply State.setVc_keeps | split | extract_lets

theorem State.ykDrain_keeps {s : State} (v : Nat) (a : List (Nat × List Nat × Nat)) (h : Keeps r s) : Keeps r
    (State.ykDrain s v a) := by
  induction a generalizing s
  all_goals unfold State.ykDrain
  all_goals
    repeat' with_reducible first | apply_assumption | apply State.setVc_keeps | apply State.ykPush_keeps | split

theorem State.forward_keeps {s : State} (x : PktSlot) (h : Keeps r s) : Keeps r (State.forward s x) := by
  unfold State.forward
  repeat' with_reducible first | assumption | apply State.ykSend_keeps | apply State.yk_keeps

theorem State.timeRole_keeps {s : State} (h : Keeps r s) : Keeps r (State.timeRole s) := by
  unfold State.timeRole
  repeat' with_reducible first | assumption | apply State.wr_keeps | split | extract_lets

theorem State.roleChange_keeps {s : State} (was : Bool) (h : Keeps r s) : Keeps r (State.roleChange s was) := by
  unfold State.roleChange
  repeat' with_reducible first
      | assumption | intro _ | apply State.ykSend_keeps | apply State.yk_keeps | apply State.timeRole_keeps
      | apply State.forward_keeps | apply keeps_foldl | split

theorem State.claimShown_keeps {s : State} (new : Nat) (old : Nat) (h : Keeps r s) : Keeps r (State.claimShown s new old) := by
  unfold State.claimShown
  repeat' with_reducible first | assumption | intro _ | apply State.emit_keeps | apply keeps_foldl | split

theorem State.claimSet_keeps {s : State} (new : Nat) (cause : Nat) (h : Keeps r s) : Keeps r (State.claimSet s new cause) := by
  unfold State.claimSet
  repeat' with_reducible first
      | assumption | apply State.wr_keeps | apply State.emit_keeps | apply State.ykSend_keeps | apply State.claimShown_keeps
      | apply State.roleChange_keeps | apply State.report_keeps | split | extract_lets

theorem State.tieCheck_keeps {s : State} (h : Keeps r s) : Keeps r (State.tieCheck s) := by
  unfold State.tieCheck
  repeat' with_reducible first | assumption | apply State.report_keeps | apply State.claimSet_keeps | split

theorem execYkLower_keeps (_w : Writer) (v : BitVec 8) {s : State} (h : Keeps r s) : KeepsOut r (execYkLower _w v s) := by
  unfold execYkLower
  repeat' with_reducible first | assumption | apply State.tieCheck_keeps | apply State.claimSet_keeps | apply keeps_done | split

theorem execYkSet_keeps (w : Writer) (v : BitVec 8) {s : State} (h : Keeps r s) : KeepsOut r (execYkSet w v s) := by
  unfold execYkSet
  repeat' with_reducible first | assumption | apply State.emit_keeps | apply State.claimSet_keeps | apply keeps_done | split

theorem State.divergeOn_keeps {s : State} (c : Option Nat) (kind : Nat) (obj : Nat) (id : Nat) (n : Nat) (own : Nat)
    (partner : Nat) (h : Keeps r s) : Keeps r (State.divergeOn s c kind obj id n own partner) := by
  unfold State.divergeOn
  repeat' with_reducible first
      | assumption | apply State.yk_keeps | apply State.cnt_keeps | apply State.emit_keeps | apply State.reportDiv_keeps
      | apply keeps_ite | split

theorem State.diverge_keeps {s : State} (kind : Nat) (obj : Nat) (id : Nat) (n : Nat) (own : Nat) (partner : Nat)
    (h : Keeps r s) : Keeps r (State.diverge s kind obj id n own partner) := by
  unfold State.diverge
  repeat' with_reducible first | assumption | apply State.divergeOn_keeps

theorem State.missing_keeps {s : State} (v : ChkVal) (mine : Bool) (h : Keeps r s) : Keeps r (State.missing s v mine) := by
  unfold State.missing
  repeat' with_reducible first | assumption | apply State.divergeOn_keeps

theorem State.chkCompare_keeps {s : State} (a : ChkVal) (b : ChkVal) (h : Keeps r s) : Keeps r (State.chkCompare s a b) := by
  unfold State.chkCompare
  repeat' with_reducible first | assumption | apply State.diverge_keeps | apply State.yk_keeps | apply keeps_ite | split

theorem State.fNote_keeps {s : State} (own : ChkVal) (partner : ChkVal) (h : Keeps r s) : Keeps r
    (State.fNote s own partner) := by
  unfold State.fNote
  repeat' with_reducible first | assumption | apply State.yk_keeps | split

theorem State.inStepCheck_keeps {s : State} (h : Keeps r s) : Keeps r (State.inStepCheck s) := by
  unfold State.inStepCheck
  repeat' with_reducible first
      | assumption | apply State.yk_keeps | apply State.report_keeps | apply State.emit_keeps | apply State.ykState_keeps
      | split

theorem State.chkOwn_keeps {s : State} (v : ChkVal) (h : Keeps r s) : Keeps r (State.chkOwn s v) := by
  unfold State.chkOwn
  repeat' with_reducible first
      | assumption | apply State.fNote_keeps | apply State.inStepCheck_keeps | apply State.chkCompare_keeps
      | apply State.yk_keeps | split

theorem State.chkPartner_keeps {s : State} (v : ChkVal) (h : Keeps r s) : Keeps r (State.chkPartner s v) := by
  unfold State.chkPartner
  repeat' with_reducible first
      | assumption | apply State.fNote_keeps | apply State.inStepCheck_keeps | apply State.chkCompare_keeps
      | apply State.yk_keeps | split

theorem execCheckHoldExpire_keeps {s : State} (h : Keeps r s) : KeepsOut r (execCheckHoldExpire s) := by
  unfold execCheckHoldExpire
  repeat' with_reducible first | assumption | apply State.missing_keeps | apply State.yk_keeps | apply keeps_done | split

theorem State.lineFlush_keeps {s : State} (hh : Nat) (h : Keeps r s) : Keeps r (State.lineFlush s hh) := by
  unfold State.lineFlush
  repeat' with_reducible first | assumption | apply State.ykSend_keeps | apply State.yk_keeps | split

theorem State.lineValue_keeps {s : State} (hh : Nat) (g : Nat) (f : Nat) (crc : Nat) (h : Keeps r s) : Keeps r
    (State.lineValue s hh g f crc) := by
  unfold State.lineValue
  repeat' with_reducible first
      | assumption | apply State.chkOwn_keeps | apply State.yk_keeps | apply State.lineFlush_keeps | split
      | dsimp +zetaDelta only

theorem State.frameSum_keeps {s : State} (hh : Nat) (flags : Nat) (lines : Nat) (f : Nat) (ts : Nat) (vdig : Nat) (tdig : Nat)
    (h : Keeps r s) : Keeps r (State.frameSum s hh flags lines f ts vdig tdig) := by
  unfold State.frameSum
  repeat' with_reducible first
      | assumption | apply State.lineFlush_keeps | apply State.yk_keeps | apply State.ykSend_keeps | apply State.chkOwn_keeps
      | split

theorem State.epochSum_keeps {s : State} (c : Nat) (flags : Nat) (entries : Nat) (n : Nat) (ldig : Nat) (wcrc : Nat)
    (h : Keeps r s) : Keeps r (State.epochSum s c flags entries n ldig wcrc) := by
  unfold State.epochSum
  repeat' with_reducible first | assumption | apply State.yk_keeps | apply State.ykSend_keeps | apply State.chkOwn_keeps | split

theorem State.epochsMissedSum_keeps {s : State} (c : Nat) (n : Nat) (held : Nat) (k : Nat) (h : Keeps r s) : Keeps r
    (State.epochsMissedSum s c n held k) := by
  unfold State.epochsMissedSum
  repeat' with_reducible first | assumption | intro _ | apply State.epochSum_keeps | apply keeps_foldl

/-! ### Admit -/

theorem State.feedEnable_keeps {s : State} (w : Writer) (f : Nat) (h : Keeps r s) : Keeps r (State.feedEnable s w f) := by
  unfold State.feedEnable
  repeat' with_reducible first
      | assumption | apply State.emit_keeps | apply State.enableFenced_keeps | apply State.wb_keeps
      | apply State.resetFields_keeps | apply State.setFeed_keeps | apply State.wr_keeps | apply State.ctxPut_keeps
      | apply State.feedJoin_keeps | apply State.feedCount_keeps | apply State.trackRestart_keeps | split

theorem State.feedDisable_keeps {s : State} (f : Nat) (h : Keeps r s) : Keeps r (State.feedDisable s f) := by
  unfold State.feedDisable
  repeat' with_reducible first
      | assumption | apply State.feedResumed_keeps | apply State.resetFields_keeps | apply State.decRestAll_keeps
      | apply State.feedLeave_keeps | apply State.feedCount_keeps | fail_if_no_progress apply keeps_mk | split

theorem execFeedEnable_keeps (w : Writer) (f : Fin 512) (v : Word) {s : State} (h : Keeps r s) : KeepsOut r
    (execFeedEnable w f v s) := by
  unfold execFeedEnable
  repeat' with_reducible first | assumption | apply State.feedEnable_keeps | apply State.feedDescWrite_keeps | apply keeps_done

theorem execFeedDisable_keeps (w : Writer) (f : Fin 512) (v : Word) {s : State} (h : Keeps r s) : KeepsOut r
    (execFeedDisable w f v s) := by
  unfold execFeedDisable
  repeat' with_reducible first | assumption | apply State.feedDisable_keeps | apply State.feedDescWrite_keeps | apply keeps_done

theorem State.psetPrefix_keeps {s : State} (f : Nat) (st : FeedSt) (h : Keeps r s) : Keeps r (State.psetPrefix s f st).2.2 := by
  unfold State.psetPrefix
  repeat' with_reducible first
      | assumption | apply State.emit_keeps | apply State.hwRead_keeps | (apply keeps_snd; assumption) | split | extract_lets

theorem State.measuredSet_keeps {s : State} (f : Nat) (m : Bool) (h : Keeps r s) : Keeps r (State.measuredSet s f m) := by
  unfold State.measuredSet
  repeat' with_reducible first | assumption | apply State.emit_keeps | apply State.wb_keeps | split | extract_lets

theorem State.auRecordPut_keeps {s : State} (f : Nat) (k : Nat) (r0 : List Nat) (h : Keeps r s) : Keeps r
    (State.auRecordPut s f k r0) := by
  unfold State.auRecordPut
  repeat' with_reducible first | assumption | apply State.ctxPut_keeps | apply State.loftPut_keeps | split

theorem State.auCount_keeps {s : State} (f : Nat) (st : FeedSt) (lost : Nat) (flagged : Bool) (h : Keeps r s) : Keeps r
    (State.auCount s f st lost flagged) := by
  unfold State.auCount
  repeat' with_reducible first | assumption | apply State.feedInc_keeps | apply State.wr_keeps | split | extract_lets

theorem State.auWrite_keeps {s : State} (f : Nat) (st : FeedSt) (x : OpenAu) (a : Nat) (data : List Nat) (pset : Bool)
    (h : Keeps r s) : Keeps r (State.auWrite s f st x a data pset) := by
  unfold State.auWrite
  repeat' with_reducible first
      | assumption | apply State.bayWrite_keeps | apply State.ctxExamine_keeps | apply State.auRecordPut_keeps
      | apply State.trackAdmit_keeps | apply State.auCount_keeps | apply State.measuredSet_keeps | apply State.setFeed_keeps

theorem State.auDropIngress_keeps {s : State} (f : Nat) (st : FeedSt) (x : OpenAu) (h : Keeps r s) : Keeps r
    (State.auDropIngress s f st x) := by
  unfold State.auDropIngress
  repeat' with_reducible first | assumption | apply State.feedInc_keeps | apply State.setFeed_keeps

theorem State.auAdmit_keeps {s : State} (f : Nat) (st : FeedSt) (x : OpenAu) (a : Nat) (h : Keeps r s) : Keeps r
    (State.auAdmit s f st x a) := by
  unfold State.auAdmit
  repeat' with_reducible first
      | assumption | apply State.emit_keeps | apply State.feedDisable_keeps | apply State.psetPrefix_keeps
      | apply State.auDropIngress_keeps | apply State.auWrite_keeps | (apply keeps_snd2; assumption) | split | extract_lets

theorem execAuAdmit_keeps (f : Fin 512) {s : State} (h : Keeps r s) : KeepsOut r (execAuAdmit f s) := by
  unfold execAuAdmit
  repeat' with_reducible first
      | assumption | apply State.auAdmit_keeps | apply State.ingressTo_keeps | apply keeps_done | split | extract_lets

theorem execReceiverReportSend_keeps (f : Fin 512) {s : State} (h : Keeps r s) : KeepsOut r (execReceiverReportSend f s) := by
  unfold execReceiverReportSend
  repeat' with_reducible first | assumption | apply State.receiverReport_keeps | apply keeps_done | split

theorem State.snoopDone_keeps {s : State} (f : Nat) (h : Keeps r s) : Keeps r (State.snoopDone s f) := by
  unfold State.snoopDone
  repeat' with_reducible first | assumption | apply State.trackDone_keeps

theorem execDecPictureStart_keeps (n : Fin 8) (switch : Nat) {s : State} (h : Keeps r s) : KeepsOut r
    (execDecPictureStart n switch s) := by
  unfold execDecPictureStart
  repeat' with_reducible first
      | assumption | apply State.decChoose_keeps | apply State.decTake_keeps | apply State.decRest_keeps
      | apply State.snoopDone_keeps | apply keeps_done | (apply keeps_snd; assumption) | split | extract_lets

theorem State.cleanIrap_keeps {s : State} (j : DecJob) (h : Keeps r s) : Keeps r (State.cleanIrap s j) := by
  unfold State.cleanIrap
  repeat' with_reducible first | assumption | apply State.inStepCheck_keeps | apply State.yk_keeps | split | extract_lets

theorem execDecPictureDone_keeps (n : Fin 8) (feed : Fin 512) {s : State} (h : Keeps r s) : KeepsOut r
    (execDecPictureDone n feed s) := by
  unfold execDecPictureDone
  refine keeps_done (keeps_ite h ?_)
  split
  · exact h
  · refine keeps_ite h ?_
    split
    · rename_i e
      exact keeps_snd e (State.decHold_keeps _ _ h)
    · rename_i e
      exact State.cleanIrap_keeps _ (State.snoopDone_keeps _ (State.decDone_keeps _ _ _ (decHold_keeps_some e h)))

theorem State.decAbandonSnoop_keeps {s : State} (n : Nat) (h : Keeps r s) : Keeps r (State.decAbandonSnoop s n) := by
  unfold State.decAbandonSnoop
  repeat' with_reducible first | assumption | apply State.snoopDone_keeps | apply State.decAbandon_keeps | split

/-! ### Belja -/

theorem State.setBl_keeps {s : State} (e : Nat) (l : Nat) (x : BlLane) (h : Keeps r s) : Keeps r (State.setBl s e l x) := by
  unfold State.setBl
  repeat' with_reducible first | assumption | fail_if_no_progress apply keeps_mk

theorem State.blQueue_keeps {s : State} (e : Nat) (l : Nat) (x : BlPkt) (h : Keeps r s) : Keeps r (State.blQueue s e l x) := by
  unfold State.blQueue
  repeat' with_reducible first | assumption | apply State.setBl_keeps | apply State.cnt_keeps | split

theorem State.handOver_keeps {s : State} (hh : Nat) (g : Geo) (typ : Nat) (group : Nat) (frame : Nat) (rep : Bool)
    (payload : List Nat) (due : Nat) (h : Keeps r s) : Keeps r (State.handOver s hh g typ group frame rep payload due) := by
  unfold State.handOver
  repeat' with_reducible first | assumption | intro _ | apply State.blQueue_keeps | apply keeps_foldl

theorem State.blEnd_keeps {s : State} (e : Nat) (l : Nat) (h : Keeps r s) : Keeps r (State.blEnd s e l) := by
  unfold State.blEnd
  repeat' with_reducible first
      | assumption | apply State.wb_keeps | apply State.wr_keeps | apply State.setBl_keeps | split | extract_lets

theorem State.blSettle_keeps {s : State} (e : Nat) (l : Nat) (h : Keeps r s) : Keeps r (State.blSettle s e l) := by
  unfold State.blSettle
  repeat' with_reducible first | assumption | apply State.blEnd_keeps | split

theorem State.swapDone_keeps {s : State} (e : Nat) (h : Keeps r s) : Keeps r (State.swapDone s e) := by
  unfold State.swapDone
  repeat' with_reducible first | assumption | apply State.emit_keeps | apply State.wb_keeps | split | extract_lets

theorem State.laneWrap_keeps {s : State} (e : Nat) (l : Nat) (h : Keeps r s) : Keeps r (State.laneWrap s e l) := by
  unfold State.laneWrap
  repeat' with_reducible first | assumption | apply State.swapDone_keeps | apply State.setBl_keeps | split | extract_lets

theorem State.blPick_keeps {s : State} (e : Nat) (l : Nat) (h : Keeps r s) : Keeps r (State.blPick s e l).2 := by
  unfold State.blPick
  repeat' with_reducible first
      | assumption | apply State.setBl_keeps | apply State.laneWrap_keeps | split | dsimp +zetaDelta only

theorem State.blSend_keeps {s : State} (e : Nat) (l : Nat) (q : BlPkt) (slot : Option Nat) (h : Keeps r s) : Keeps r
    (State.blSend s e l q slot) := by
  unfold State.blSend
  repeat' with_reducible first
      | assumption | apply State.cnt_keeps | apply State.emitOut_keeps | apply State.emit_keeps | apply State.setBl_keeps
      | split

theorem State.laneFree_keeps {s : State} (l : Nat) (h : Keeps r s) : Keeps r (State.laneFree s l) := by
  unfold State.laneFree
  repeat' with_reducible first
      | assumption | intro _ | apply State.blSettle_keeps | apply State.advanceRun_keeps | apply keeps_foldl

theorem execBeljaPacketSend_keeps (l : Fin 64) {s : State} (h : Keeps r s) : KeepsOut r (execBeljaPacketSend l s) := by
  unfold execBeljaPacketSend
  repeat' with_reducible first
      | assumption | apply State.blPick_keeps | apply State.laneFree_keeps | apply State.blSend_keeps | apply State.cnt_keeps
      | apply keeps_done | (apply keeps_snd; assumption) | split

theorem execBeljaIdleTimer_keeps (l : Fin 64) (hh : Fin 64) {s : State} (h : Keeps r s) : KeepsOut r
    (execBeljaIdleTimer l hh s) := by
  unfold execBeljaIdleTimer
  repeat' with_reducible first
      | assumption | apply State.advanceRun_keeps | apply State.blQueue_keeps | apply keeps_done | split

theorem execBlLaneWrap_keeps (l : Fin 64) {s : State} (h : Keeps r s) : KeepsOut r (execBlLaneWrap l s) := by
  unfold execBlLaneWrap
  repeat' with_reducible first
      | assumption | intro _ | apply State.laneWrap_keeps | apply State.laneFree_keeps | apply keeps_done | apply keeps_foldl
      | split

theorem execBlSchedSwapRequest_keeps (w : Writer) (e : Fin 4) {s : State} (h : Keeps r s) : KeepsOut r
    (execBlSchedSwapRequest w e s) := by
  unfold execBlSchedSwapRequest
  repeat' with_reducible first
      | assumption | intro _ | apply State.missRecord_keeps | apply State.emit_keeps | apply State.wb_keeps
      | apply State.setBl_keeps | apply State.swapDone_keeps | apply State.blSettle_keeps | apply State.laneWrap_keeps
      | apply keeps_done | apply keeps_foldl | split | extract_lets

theorem State.slotPut_keeps {s : State} (e : Nat) (copy : Bool) (l : Nat) (k : Nat) (v : Nat) (h : Keeps r s) : Keeps r
    (State.slotPut s e copy l k v) := by
  unfold State.slotPut
  repeat' with_reducible first | assumption | apply State.wb_keeps | apply State.wr_keeps

theorem State.schedWrite_keeps {s : State} (e : Nat) (copy : Bool) (l : Nat) (hi : Bool) (v : Nat) (h : Keeps r s) : Keeps r
    (State.schedWrite s e copy l hi v) := by
  unfold State.schedWrite
  repeat' with_reducible first
      | assumption | intro _ | apply State.blSettle_keeps | apply State.slotPut_keeps | apply State.setBl_keeps
      | apply State.emit_keeps | apply keeps_foldl | split | extract_lets

theorem execBlSchedWrite_keeps (w : Writer) (e : Fin 4) (copy : Bool) (l : Fin 64) (hi : Bool) (v : Word) {s : State}
    (h : Keeps r s) : KeepsOut r (execBlSchedWrite w e copy l hi v s) := by
  unfold execBlSchedWrite
  repeat' with_reducible first
      | assumption | apply State.missRecord_keeps | apply State.schedWrite_keeps | apply keeps_done | split

theorem State.laneStart_keeps {s : State} (e : Nat) (l : Nat) (h : Keeps r s) : Keeps r (State.laneStart s e l) := by
  unfold State.laneStart
  repeat' with_reducible first | assumption | apply State.idleOut_keeps | apply State.setBl_keeps

theorem State.laneConfigured_keeps {s : State} (l : Nat) (h : Keeps r s) : Keeps r (State.laneConfigured s l) := by
  unfold State.laneConfigured
  repeat' with_reducible first
      | assumption | intro _ | apply State.lnRefresh_keeps | apply State.laneStart_keeps | apply keeps_foldl | split
      | extract_lets

theorem State.idleStart_keeps {s : State} (e : Nat) (hh : Nat) (h : Keeps r s) : Keeps r (State.idleStart s e hh) := by
  unfold State.idleStart
  repeat' with_reducible first | assumption | intro _ | apply State.setBl_keeps | apply keeps_foldl

theorem State.blEnable_keeps {s : State} (writer : Nat) (e : Nat) (h : Keeps r s) : Keeps r (State.blEnable s writer e) := by
  unfold State.blEnable
  repeat' with_reducible first
      | assumption | intro _ | apply State.enableFenced_keeps | apply State.wb_keeps | apply State.useSet_keeps
      | apply State.lnRefresh_keeps | apply State.laneStart_keeps | fail_if_no_progress apply keeps_mk | apply keeps_foldl
      | split | extract_lets

theorem State.blDisable_keeps {s : State} (e : Nat) (h : Keeps r s) : Keeps r (State.blDisable s e) := by
  unfold State.blDisable
  repeat' with_reducible first
      | assumption | intro _ | apply State.cnt_keeps | apply State.blEnd_keeps | apply State.wb_keeps | apply State.useSet_keeps
      | apply State.swapDone_keeps | apply State.lnRefresh_keeps | fail_if_no_progress apply keeps_mk | apply keeps_foldl

/-! ### Epoch -/

theorem State.cmpRead_keeps {s : State} (e : Nat) (b : Nat) (g : Nat) (off : Nat) (len : Nat) (h : Keeps r s) : Keeps r
    (State.cmpRead s e b g off len).2 := by
  unfold State.cmpRead
  repeat' with_reducible first | assumption | apply State.bayRead_keeps

theorem State.readStatHdr_keeps {s : State} (e : Nat) (b : Nat) (g : Nat) (h : Keeps r s) : Keeps r
    (State.readStatHdr s e b g).2 := by
  unfold State.readStatHdr
  repeat' with_reducible first | assumption | apply State.cmpRead_keeps | (apply keeps_snd; assumption) | split

theorem State.measure_keeps {s : State} (e : Nat) (b : Nat) (g : Nat) (t : StallCfg) (h : Keeps r s) : Keeps r
    (State.measure s e b g t).2 := by
  unfold State.measure
  repeat' with_reducible first
      | assumption | apply State.readStatHdr_keeps | apply State.cmpRead_keeps | (apply keeps_snd; assumption) | split

theorem State.judgePic_keeps {s : State} (e : Nat) (n : Nat) (t : StallCfg) (q : TrackPic) (h : Keeps r s) : Keeps r
    (State.judgePic s e n t q).2 := by
  unfold State.judgePic
  repeat' with_reducible first
      | assumption | apply State.measure_keeps | apply State.wb_keeps | apply State.wr64_keeps | (apply keeps_snd; assumption)
      | split | extract_lets

theorem State.freezeJudge_keeps {s : State} (e : Nat) (n : Nat) (t : StallCfg) (k : Track) (c : Option Nat) (p : Nat × Nat)
    (tc : Nat) (h : Keeps r s) : Keeps r (State.freezeJudge s e n t k c p tc).2.2 := by
  unfold State.freezeJudge
  repeat' with_reducible first
      | assumption | intro _ | apply State.judgePic_keeps | apply State.setStallSt_keeps | apply keeps_foldl2 | split
      | extract_lets

theorem State.readAll_keeps {s : State} (e : Nat) (b : Nat) (g : Nat) (a : List (Nat × Nat)) (h : Keeps r s) : Keeps r
    (State.readAll s e b g a).2 := by
  induction a generalizing s
  all_goals unfold State.readAll
  all_goals
    repeat' with_reducible first | apply_assumption | apply State.cmpRead_keeps

theorem State.admitPick_keeps {s : State} (e : Nat) (n : Nat) (t : StallCfg) (v : CanvasCfg) (cut : Nat) (h : Keeps r s)
    : Keeps r (State.admitPick s e n t v cut).2.2.2 := by
  unfold State.admitPick
  repeat' with_reducible first | assumption | apply State.emit_keeps | apply keeps_ite | split | extract_lets

theorem State.admitRead_keeps {s : State} (e : Nat) (t : StallCfg) (x : Nat × Nat) (h : Keeps r s) : Keeps r
    (State.admitRead s e t x).2.2.2 := by
  unfold State.admitRead
  repeat' with_reducible first
      | assumption | apply State.holdTake_keeps | apply State.readStatHdr_keeps | apply State.readAll_keeps |
      (apply keeps_snd; assumption) | (apply keeps_snd2; assumption) | split | extract_lets

theorem State.sourceFail_keeps {s : State} (e : Nat) (n : Nat) (x : Nat × Nat) (fail : Option Nat) (h : Keeps r s) : Keeps r
    (State.sourceFail s e n x fail) := by
  unfold State.sourceFail
  repeat' with_reducible first | assumption | apply State.emit_keeps | apply State.setStallSt_keeps | split

theorem State.stallStatus_keeps {s : State} (n : Nat) (a : Admit) (h : Keeps r s) : Keeps r (State.stallStatus s n a) := by
  unfold State.stallStatus
  repeat' with_reducible first | assumption | apply State.wr64_keeps | apply State.wr_keeps | apply State.setStallSt_keeps

theorem State.admitStall_keeps {s : State} (e : Nat) (n : Nat) (v : CanvasCfg) (cut : Nat) (h : Keeps r s) : Keeps r
    (State.admitStall s e n v cut).2 := by
  unfold State.admitStall
  repeat' with_reducible first
      | assumption | apply State.admitPick_keeps | apply State.draw_keeps | apply State.stallStatus_keeps
      | apply State.admitRead_keeps | apply State.wb_keeps | apply State.freezeJudge_keeps | apply State.sourceFail_keeps |
      (apply keeps_snd3; assumption) | split | extract_lets

theorem State.admitAll_keeps {s : State} (e : Nat) (v : CanvasCfg) (cut : Nat) (a : List Nat) (h : Keeps r s) : Keeps r
    (State.admitAll s e v cut a).2 := by
  induction a generalizing s
  all_goals unfold State.admitAll
  all_goals
    repeat' with_reducible first | apply_assumption | apply State.admitStall_keeps

theorem State.composeWrite_keeps {s : State} (e : Nat) (out : Nat × Nat) (frame : Nat) (w : Nat) (hh : Nat)
    (rows : List (List Nat)) (h : Keeps r s) : Keeps r (State.composeWrite s e out frame w hh rows) := by
  unfold State.composeWrite
  repeat' with_reducible first | assumption | intro _ | apply State.bayWrite_keeps | apply keeps_foldl

theorem State.epochBegin_keeps {s : State} (e : Nat) (c : Nat) (n : Nat) (h : Keeps r s) : Keeps r
    (State.epochBegin s e c n) := by
  unfold State.epochBegin
  repeat' with_reducible first
      | assumption | apply State.admitAll_keeps | apply State.alloc_keeps | apply State.wr_keeps
      | apply State.composeWrite_keeps | apply State.bayWrite_keeps | apply State.setCv_keeps
      | fail_if_no_progress apply keeps_mk | split

theorem State.epochCut_keeps {s : State} (e : Nat) (c : Nat) (h : Keeps r s) : Keeps r (State.epochCut s e c) := by
  unfold State.epochCut
  repeat' with_reducible first
      | assumption | apply State.advanceTo_keeps | apply State.canvasApply_keeps | apply State.setCv_keeps
      | apply State.epochBegin_keeps | split | extract_lets

theorem State.admitRelease_keeps {s : State} (x : EpochSt) (h : Keeps r s) : Keeps r (State.admitRelease s x) := by
  unfold State.admitRelease
  repeat' with_reducible first | assumption | intro _ | apply State.holdRelease_keeps | apply keeps_foldl

theorem State.epochOwners_keeps {s : State} (x : EpochSt) (h : Keeps r s) : Keeps r (State.epochOwners s x) := by
  unfold State.epochOwners
  repeat' with_reducible first | assumption | apply State.ownerRelease_keeps | split | dsimp +zetaDelta only

theorem State.epochRelease_keeps {s : State} (x : EpochSt) (h : Keeps r s) : Keeps r (State.epochRelease s x) := by
  unfold State.epochRelease
  repeat' with_reducible first | assumption | apply State.admitRelease_keeps | apply State.epochOwners_keeps

theorem State.epochMissed_keeps {s : State} (e : Nat) (c : Nat) (n : Nat) (reason : Nat) (k : Nat) (h : Keeps r s) : Keeps r
    (State.epochMissed s e c n reason k) := by
  unfold State.epochMissed
  repeat' with_reducible first | assumption | apply State.wb_keeps | apply State.cnt_keeps | apply State.emit_keeps

theorem State.epochDo_keeps {s : State} (e : Nat) (c : Nat) (x : EpochSt) (o : Nat × Nat) (d : Nat × Nat) (slack : Nat)
    (h : Keeps r s) : Keeps r (State.epochDo s e c x o d slack) := by
  unfold State.epochDo
  repeat' with_reducible first
      | assumption | apply State.wb_keeps | apply State.wr64_keeps | apply State.wr_keeps | apply State.holdTake_keeps
      | apply State.holdRelease_keeps | apply State.epochOwners_keeps | apply State.cnt_keeps | apply State.setCv_keeps
      | fail_if_no_progress apply keeps_mk | split

theorem State.epochHold_keeps {s : State} (e : Nat) (c : Nat) (h : Keeps r s) : Keeps r (State.epochHold s e c).2 := by
  unfold State.epochHold
  repeat' with_reducible first | assumption | apply State.perturb_keeps

theorem State.epochAcked_keeps {s : State} (x : EpochSt) (a : Nat) (h : Keeps r s) : Keeps r (State.epochAcked s x a) := by
  unfold State.epochAcked
  repeat' with_reducible first | assumption | apply State.admitRelease_keeps | apply State.advanceTo_keeps

theorem State.epochReady_keeps {s : State} (e : Nat) (c : Nat) (ack : Option Nat) (h : Keeps r s) : Keeps r
    (State.epochReady s e c ack).2 := by
  unfold State.epochReady
  repeat' with_reducible first
      | assumption | apply State.setCv_keeps | apply State.epochMissed_keeps | apply State.advanceTo_keeps
      | apply State.epochRelease_keeps | apply State.epochHold_keeps | apply State.epochAcked_keeps | apply State.epochDo_keeps
      | (apply keeps_snd; assumption) | split

theorem State.epochsPassed_keeps {s : State} (e : Nat) (c : Nat) (h : Keeps r s) : Keeps r (State.epochsPassed s e c) := by
  unfold State.epochsPassed
  repeat' with_reducible first
      | assumption | apply State.canvasApply_keeps | apply State.setCv_keeps | apply State.epochMissed_keeps | split
      | extract_lets

/-! ### Gate -/

theorem State.verdictRec_keeps {s : State} (e : Nat) (hh : Nat) (stall : Nat) (reasons : Nat) (age : Nat) (ts : Nat) (t : Nat)
    (h : Keeps r s) : Keeps r (State.verdictRec s e hh stall reasons age ts t) := by
  unfold State.verdictRec
  repeat' with_reducible first | assumption | apply State.emitAt_keeps

theorem State.setHd_keeps {s : State} (hh : Nat) (x : HeadSt) (h : Keeps r s) : Keeps r (State.setHd s hh x) := by
  unfold State.setHd
  repeat' with_reducible first | assumption | fail_if_no_progress apply keeps_mk

theorem State.scanRead_keeps {s : State} (e : Nat) (b : Nat) (g : Nat) (off : Nat) (len : Nat) (h : Keeps r s) : Keeps r
    (State.scanRead s e b g off len).2 := by
  unfold State.scanRead
  repeat' with_reducible first | assumption | apply State.hwAccess_keeps

theorem State.scanBytes_keeps {s : State} (e : Nat) (b : Nat) (g : Nat) (off : Nat) (len : Nat) (h : Keeps r s) : Keeps r
    (State.scanBytes s e b g off len).2 := by
  unfold State.scanBytes
  repeat' with_reducible first | assumption | apply State.scanRead_keeps

theorem State.readLedger_keeps {s : State} (e : Nat) (c : Nat) (out : Nat × Nat) (led : Nat × Nat) (h : Keeps r s) : Keeps r
    (State.readLedger s e c out led).2 := by
  unfold State.readLedger
  repeat' with_reducible first | assumption | apply State.scanBytes_keeps | (apply keeps_snd; assumption) | split | extract_lets

theorem State.judged_keeps {s : State} (e : Nat) (hh : Nat) (f : GateFrame) (g : Geo) (h : Keeps r s) : Keeps r
    (State.judged s e hh f g) := by
  unfold State.judged
  repeat' with_reducible first
      | assumption | intro _ | apply State.verdictRec_keeps | apply State.cnt_keeps | apply State.setHd_keeps
      | apply keeps_foldl | split

theorem State.midFail_keeps {s : State} (e : Nat) (hh : Nat) (line : Nat) (a : Nat) (b : Nat) (h : Keeps r s) : Keeps r
    (State.midFail s e hh line a b) := by
  unfold State.midFail
  repeat' with_reducible first
      | assumption | intro _ | apply State.setHd_keeps | apply State.cnt_keeps | apply State.verdictRec_keeps
      | apply keeps_foldl | split

theorem State.setCrcHold_keeps {s : State} (c : Nat) (b : Bool) (h : Keeps r s) : Keeps r (State.setCrcHold s c b) := by
  unfold State.setCrcHold
  repeat' with_reducible first | assumption | apply State.wr_keeps

theorem State.crcNotRun_keeps {s : State} (c : Nat) (h : Keeps r s) : Keeps r (State.crcNotRun s c) := by
  unfold State.crcNotRun
  repeat' with_reducible first | assumption | apply State.cnt_keeps | split

theorem State.setCrc_keeps {s : State} (c : Nat) (l : List CrcSt) (h : Keeps r s) : Keeps r (State.setCrc s c l) := by
  unfold State.setCrc
  repeat' with_reducible first | assumption | fail_if_no_progress apply keeps_mk

theorem State.crcNeed_keeps {s : State} (c : Nat) (x : CrcSt) (h : Keeps r s) : Keeps r (State.crcNeed s c x).2 := by
  unfold State.crcNeed
  repeat' with_reducible first | assumption | apply State.crcNotRun_keeps | split

theorem State.crcReady_keeps {s : State} (c : Nat) (n : Nat) (wcrc : Nat) (size : Nat × Nat) (h : Keeps r s) : Keeps r
    (State.crcReady s c n wcrc size) := by
  unfold State.crcReady
  repeat' with_reducible first
      | assumption | intro _ | apply State.setCrc_keeps | apply State.crcNotRun_keeps | apply keeps_foldl

theorem State.crcMap_keeps {s : State} (c : Nat) (n : Nat) (f : CrcSt → CrcSt) (h : Keeps r s) : Keeps r
    (State.crcMap s c n f) := by
  unfold State.crcMap
  repeat' with_reducible first | assumption | apply State.setCrc_keeps

theorem State.crcBegin_keeps {s : State} (c : Nat) (n : Nat) (hh : Nat) (g : Geo) (h : Keeps r s) : Keeps r
    (State.crcBegin s c n hh g) := by
  unfold State.crcBegin
  repeat' with_reducible first | assumption | apply State.crcNeed_keeps | apply State.setCrc_keeps | split

theorem State.crcLine_keeps {s : State} (c : Nat) (n : Nat) (hh : Nat) (y : Nat) (x : Nat) (words : List Nat) (h : Keeps r s)
    : Keeps r (State.crcLine s c n hh y x words) := by
  unfold State.crcLine
  repeat' with_reducible first | assumption | apply State.crcMap_keeps

theorem State.crcResult_keeps {s : State} (c : Nat) (x : CrcSt) (h : Keeps r s) : Keeps r (State.crcResult s c x) := by
  unfold State.crcResult
  repeat' with_reducible first
      | assumption | apply State.setCrcHold_keeps | apply State.cnt_keeps | apply State.emit_keeps | split | extract_lets

theorem State.crcEnd_keeps {s : State} (c : Nat) (n : Nat) (hh : Nat) (ok : Bool) (h : Keeps r s) : Keeps r
    (State.crcEnd s c n hh ok) := by
  unfold State.crcEnd
  repeat' with_reducible first
      | assumption | apply State.setCrc_keeps | apply State.crcResult_keeps | apply State.crcNotRun_keeps | split | extract_lets

theorem execCrcHoldClear_keeps (w : Writer) (e : Fin 4) (hi : Bool) (v : Word) {s : State} (h : Keeps r s) : KeepsOut r
    (execCrcHoldClear w e hi v s) := by
  unfold execCrcHoldClear
  repeat' with_reducible first | assumption | apply State.missRecord_keeps | apply State.wr_keeps | apply keeps_done | split

/-! ### Touch -/

theorem State.setTch_keeps {s : State} (p : Nat) (x : TchSt) (h : Keeps r s) : Keeps r (State.setTch s p x) := by
  unfold State.setTch
  repeat' with_reducible first | assumption | fail_if_no_progress apply keeps_mk

theorem State.judgePos_keeps {s : State} (p : Nat) (zones : List Zone) (t : Nat) (sx : Nat) (sy : Nat) (h : Keeps r s) : Keeps r
    (State.judgePos s p zones t sx sy).2 := by
  unfold State.judgePos
  repeat' with_reducible first | assumption | apply State.draw_keeps | split

theorem State.rptPut_keeps {s : State} (q : Nat) (item : List Nat) (h : Keeps r s) : Keeps r (State.rptPut s q item).2 := by
  unfold State.rptPut
  repeat' with_reducible first | assumption | apply State.raiseTarget_keeps | apply State.ringPut_keeps | split

theorem State.contactReport_keeps {s : State} (p : Nat) (kind : Nat) (time : Nat) (mir : Bool) (c : Contact) (j : Judged)
    (sx : Nat) (sy : Nat) (strength : Nat) (coal : Bool) (h : Keeps r s) : Keeps r
    (State.contactReport s p kind time mir c j sx sy strength coal) := by
  unfold State.contactReport
  repeat' with_reducible first
      | assumption | apply State.rptPut_keeps | apply State.setTch_keeps | (apply keeps_snd; assumption) | split | extract_lets

theorem State.takeSamples_keeps {s : State} (p : Nat) (nodes : List Nat) (m : Array Nat) (h : Keeps r s) : Keeps r
    (State.takeSamples s p nodes m) := by
  unfold State.takeSamples
  repeat' with_reducible first
      | assumption | intro _ | apply State.wb_keeps | apply State.wr_keeps | apply State.emitLimited_keeps | apply keeps_foldl
      | split | extract_lets

theorem State.captureFrame_keeps {s : State} (p : Nat) (k : Nat) (nodes : List Nat) (m : Array Nat) (h : Keeps r s) : Keeps r
    (State.captureFrame s p k nodes m) := by
  unfold State.captureFrame
  repeat' with_reducible first
      | assumption | intro _ | apply State.wr_keeps | apply State.setTch_keeps | apply State.emit_keeps | apply keeps_foldl
      | split | extract_lets

theorem State.nodesQuiet_keeps {s : State} (p : Nat) (h : Keeps r s) : Keeps r (State.nodesQuiet s p) := by
  unfold State.nodesQuiet
  repeat' with_reducible first | assumption | intro _ | apply State.wr_keeps | apply State.wb_keeps | apply keeps_foldl

theorem State.captureStart_keeps {s : State} (p : Nat) (h : Keeps r s) : Keeps r (State.captureStart s p) := by
  unfold State.captureStart
  repeat' with_reducible first | assumption | apply State.setTch_keeps | apply State.nodesQuiet_keeps

theorem State.matrixOff_keeps {s : State} (p : Nat) (h : Keeps r s) : Keeps r (State.matrixOff s p) := by
  unfold State.matrixOff
  repeat' with_reducible first
      | assumption | intro _ | apply State.wr_keeps | apply State.nodesQuiet_keeps | apply State.setTch_keeps
      | apply keeps_foldl

theorem State.matrixWake_keeps {s : State} (p : Nat) (h : Keeps r s) : Keeps r (State.matrixWake s p) := by
  unfold State.matrixWake
  repeat' with_reducible first | assumption | apply State.captureStart_keeps | apply State.setTch_keeps | split

theorem State.newContacts_keeps {s : State} (p : Nat) (t : Nat) (zones : List Zone) (a : List Peak) (a5 : List Contact)
    (h : Keeps r s) : Keeps r (State.newContacts s p t zones a a5).2 := by
  induction a generalizing s a5
  all_goals unfold State.newContacts
  all_goals
    repeat' with_reducible first | apply_assumption | apply State.judgePos_keeps | split

theorem State.contactUpd_keeps {s : State} (p : Nat) (id : Nat) (f : Contact → Contact) (h : Keeps r s) : Keeps r
    (State.contactUpd s p id f) := by
  unfold State.contactUpd
  repeat' with_reducible first | assumption | apply State.setTch_keeps

theorem State.contactFrame_keeps {s : State} (p : Nat) (t : Nat) (zones : List Zone) (mir : Bool) (c0 : Contact) (h : Keeps r s)
    : Keeps r (State.contactFrame s p t zones mir c0) := by
  unfold State.contactFrame
  repeat' with_reducible first
      | assumption | apply State.judgePos_keeps | apply State.contactUpd_keeps | apply State.contactReport_keeps
      | apply State.emit_keeps | apply State.cnt_keeps | apply keeps_ite

theorem State.contactLift_keeps {s : State} (p : Nat) (t : Nat) (zones : List Zone) (mir : Bool) (m : Array Nat) (c : Contact)
    (h : Keeps r s) : Keeps r (State.contactLift s p t zones mir m c) := by
  unfold State.contactLift
  repeat' with_reducible first
      | assumption | intro _ | apply State.setTch_keeps | apply State.wb_keeps | apply State.wr_keeps | apply State.emit_keeps
      | apply State.judgePos_keeps | apply State.draw_keeps | apply State.contactReport_keeps | apply keeps_foldl | split

theorem State.contactsFrame_keeps {s : State} (p : Nat) (t : Nat) (mir : Bool) (nodes : List Nat) (m : Array Nat)
    (live : Nat → Bool) (d : Nat → Int) (h : Keeps r s) : Keeps r (State.contactsFrame s p t mir nodes m live d) := by
  unfold State.contactsFrame
  repeat' with_reducible first
      | assumption | intro _ | apply State.cnt_keeps | apply State.newContacts_keeps | apply State.setTch_keeps
      | apply State.contactLift_keeps | apply State.contactFrame_keeps | apply keeps_foldl | split | dsimp +zetaDelta only

theorem State.nodeUpdate_keeps {s : State} (p : Nat) (t : Nat) (n : Nat) (touched : Bool) (stuck : Bool) (driftNow : Bool)
    (m : Nat) (d : Int) (h : Keeps r s) : Keeps r (State.nodeUpdate s p t n touched stuck driftNow m d) := by
  unfold State.nodeUpdate
  repeat' with_reducible first
      | assumption | apply State.setTch_keeps | apply State.wb_keeps | apply State.wr_keeps | apply State.emit_keeps | split
      | extract_lets

theorem State.baselines_keeps {s : State} (p : Nat) (t : Nat) (nodes : List Nat) (m : Array Nat) (d : Nat → Int) (h : Keeps r s)
    : Keeps r (State.baselines s p t nodes m d) := by
  unfold State.baselines
  repeat' with_reducible first
      | assumption | intro _ | apply State.setTch_keeps | apply State.nodeUpdate_keeps | apply keeps_foldl

theorem State.noiseStep_keeps {s : State} (p : Nat) (ci : Option Nat) (lcur : Nat) (lcand : Nat) (h : Keeps r s) : Keeps r
    (State.noiseStep s p ci lcur lcand) := by
  unfold State.noiseStep
  repeat' with_reducible first
      | assumption | apply State.wr_keeps | apply State.setTch_keeps | apply State.emit_keeps | apply keeps_ite | split
      | extract_lets

theorem State.scanFrame_keeps {s : State} (p : Nat) (t : Nat) (mir : Bool) (m : List Nat) (ci : Option Nat) (lcur : Nat)
    (lcand : Nat) (h : Keeps r s) : Keeps r (State.scanFrame s p t mir m ci lcur lcand) := by
  unfold State.scanFrame
  repeat' with_reducible first
      | assumption | intro _ | apply State.cnt_keeps | apply State.wr_keeps | apply State.takeSamples_keeps
      | apply State.noiseStep_keeps | apply State.captureFrame_keeps | apply State.contactsFrame_keeps
      | apply State.baselines_keeps | apply keeps_foldl | split | extract_lets

theorem State.latchFrame_keeps {s : State} (p : Nat) (h : Keeps r s) : Keeps r (State.latchFrame s p) := by
  unfold State.latchFrame
  repeat' with_reducible first | assumption | apply State.setTch_keeps

theorem execScanFrameStart_keeps (p : Fin 2) {s : State} (h : Keeps r s) : KeepsOut r (execScanFrameStart p s) := by
  unfold execScanFrameStart
  repeat' with_reducible first
      | assumption | apply State.latchFrame_keeps | apply State.setTch_keeps | apply keeps_done
      | fail_if_no_progress apply keeps_mk | split

theorem State.mirrorEnd_keeps {s : State} (p : Nat) (t : Nat) (h : Keeps r s) : Keeps r (State.mirrorEnd s p t) := by
  unfold State.mirrorEnd
  repeat' with_reducible first
      | assumption | intro _ | apply State.judgePos_keeps | apply State.draw_keeps | apply State.contactReport_keeps
      | apply State.setTch_keeps | apply keeps_foldl | split

theorem State.keyReport_keeps {s : State} (kind : Nat) (id : Nat) (q : Bool) (strength : Nat) (h : Keeps r s) : Keeps r
    (State.keyReport s kind id q strength) := by
  unfold State.keyReport
  repeat' with_reducible first
      | assumption | apply State.rptPut_keeps | fail_if_no_progress apply keeps_mk | (apply keeps_snd; assumption) | split
      | extract_lets

theorem State.keyFirst_keeps {s : State} (kind : Nat) (id : Nat) (key : Nat) (strength : Nat) (h : Keeps r s) : Keeps r
    (State.keyFirst s kind id key strength) := by
  unfold State.keyFirst
  repeat' with_reducible first
      | assumption | apply State.keyReport_keeps | apply State.emit_keeps | fail_if_no_progress apply keeps_mk | split

theorem State.keyOff_keeps {s : State} (k : Nat) (count : Nat) (d : Int) (h : Keeps r s) : Keeps r
    (State.keyOff s k count d) := by
  unfold State.keyOff
  repeat' with_reducible first
      | assumption | apply State.wb_keeps | apply State.emit_keeps | apply State.wr_keeps | apply State.keyReport_keeps
      | fail_if_no_progress apply keeps_mk | split | extract_lets

theorem State.keyChannel_keeps {s : State} (k : Nat) (count : Nat) (driftNow : Bool) (h : Keeps r s) : Keeps r
    (State.keyChannel s k count driftNow) := by
  unfold State.keyChannel
  repeat' with_reducible first
      | assumption | apply State.wb_keeps | apply State.wr_keeps | apply State.keyOff_keeps | apply State.keyReport_keeps
      | apply State.emit_keeps | apply State.keyFirst_keeps | apply keeps_ite | fail_if_no_progress apply keeps_mk | split
      | extract_lets

theorem State.keyGroup_keeps {s : State} (ds : Nat → Int) (g : Nat) (first : Nat) (n : Nat) (kind : Nat) (h : Keeps r s)
    : Keeps r (State.keyGroup s ds g first n kind) := by
  unfold State.keyGroup
  repeat' with_reducible first
      | assumption | apply State.keyReport_keeps | apply State.wb_keeps | apply State.wr_keeps | apply State.keyFirst_keeps
      | apply keeps_ite | fail_if_no_progress apply keeps_mk

theorem State.keyFrame_keeps {s : State} (counts : List Nat) (h : Keeps r s) : Keeps r (State.keyFrame s counts) := by
  unfold State.keyFrame
  repeat' with_reducible first
      | assumption | intro _ | apply State.wb_keeps | apply State.wr_keeps | apply State.emit_keeps
      | apply State.keyChannel_keeps | apply State.keyGroup_keeps | fail_if_no_progress apply keeps_mk | apply keeps_foldl
      | split

theorem State.tchEnable_keeps {s : State} (p : Nat) (h : Keeps r s) : Keeps r (State.tchEnable s p) := by
  unfold State.tchEnable
  repeat' with_reducible first
      | assumption | apply State.emit_keeps | apply State.wb_keeps | apply State.setTch_keeps | apply State.wr_keeps
      | apply State.captureStart_keeps | fail_if_no_progress apply keeps_mk | split

theorem State.tchDisable_keeps {s : State} (p : Nat) (h : Keeps r s) : Keeps r (State.tchDisable s p) := by
  unfold State.tchDisable
  repeat' with_reducible first
      | assumption | intro _ | apply State.wb_keeps | apply State.setTch_keeps | apply State.nodesQuiet_keeps
      | fail_if_no_progress apply keeps_mk | apply keeps_foldl | split

end Sys2Proof.Machine
end

