-- ==== Sys2Proof/Laws/KeepsHeads.lean ====
section
/-! SUPPORT. Every operation keeps the queue and canonical memories, by module: recording, heads, encode, snapshots, time steps, the team, reception, check-value units and ownership. -/

set_option autoImplicit false

namespace Sys2Proof.Machine

variable {r : State}

/-! ### Tap -/

theorem State.notRec_keeps {s : State} (p : Nat) (k : Nat) (f : Nat) (hh : Nat) (cause : Nat) (h : Keeps r s) : Keeps r
    (State.notRec s p k f hh cause) := by
  unfold State.notRec
  repeat' with_reducible first
      | assumption | apply State.inc_keeps | apply State.cnt_keeps | apply State.wb_keeps | apply State.emitLimited_keeps
      | apply State.encUpd_keeps

theorem State.tapStart_keeps {s : State} (hh : Nat) (g : Geo) (fr : GateFrame) (h : Keeps r s) : Keeps r
    (State.tapStart s hh g fr) := by
  unfold State.tapStart
  repeat' with_reducible first
      | assumption | apply State.chStop_keeps | apply State.encUpd_keeps | apply State.alloc_keeps | apply State.notRec_keeps
      | apply State.ownerRelease_keeps | (apply keeps_snd; assumption) | split | extract_lets

theorem State.tapLine_keeps {s : State} (hh : Nat) (y : Nat) (px : List Nat) (h : Keeps r s) : Keeps r
    (State.tapLine s hh y px) := by
  unfold State.tapLine
  repeat' with_reducible first | assumption | apply State.bayWrite_keeps | split

theorem State.tapDone_keeps {s : State} (p : Nat) (k : Nat) (h : Keeps r s) : Keeps r (State.tapDone s p k) := by
  unfold State.tapDone
  repeat' with_reducible first
      | assumption | apply State.encUpd_keeps | apply State.wb_keeps | apply State.wr_keeps | apply State.wr64_keeps
      | apply State.notRec_keeps | apply State.ownerRelease_keeps | apply keeps_ite | split

theorem State.tapEnd_keeps {s : State} (hh : Nat) (g : Geo) (fr : GateFrame) (h : Keeps r s) : Keeps r
    (State.tapEnd s hh g fr) := by
  unfold State.tapEnd
  repeat' with_reducible first
      | assumption | apply State.encUpd_keeps | apply State.tapDone_keeps | apply State.bayWrite_keeps | split

theorem State.tapAbort_keeps {s : State} (hh : Nat) (h : Keeps r s) : Keeps r (State.tapAbort s hh) := by
  unfold State.tapAbort
  repeat' with_reducible first
      | assumption | apply State.notRec_keeps | apply State.ownerRelease_keeps | apply State.encUpd_keeps | split

theorem execTapRecordComplete_keeps (p : Fin 2) (k : Fin 32) {s : State} (h : Keeps r s) : KeepsOut r
    (execTapRecordComplete p k s) := by
  unfold execTapRecordComplete
  repeat' with_reducible first | assumption | apply State.tapDone_keeps | apply keeps_done

/-! ### Heads -/

theorem State.headRefused_keeps {s : State} (hh : Nat) (e : Nat) (reason : Nat) (kind : Nat) (ts : Nat) (h : Keeps r s)
    : Keeps r (State.headRefused s hh e reason kind ts) := by
  unfold State.headRefused
  repeat' with_reducible first | assumption | apply State.emit_keeps

theorem State.outsideCheck_keeps {s : State} (hh : Nat) (h : Keeps r s) : Keeps r (State.outsideCheck s hh) := by
  unfold State.outsideCheck
  repeat' with_reducible first | assumption | apply State.wb_keeps | apply State.emit_keeps | split | extract_lets

theorem State.closeCheck_keeps {s : State} (c : Nat) (h : Keeps r s) : Keeps r (State.closeCheck s c) := by
  unfold State.closeCheck
  repeat' with_reducible first
      | assumption | intro _ | apply State.setCv_keeps | apply State.holdRelease_keeps | apply keeps_foldl | split
      | extract_lets

theorem State.canvasChanged_keeps {s : State} (e : Nat) (c : Nat) (was : Bool) (h : Keeps r s) : Keeps r
    (State.canvasChanged s e c was) := by
  unfold State.canvasChanged
  repeat' with_reducible first
      | assumption | apply State.setCrcHold_keeps | apply State.setCrc_keeps | apply State.closeCheck_keeps
      | apply State.outsideCheck_keeps | fail_if_no_progress apply keeps_mk | apply keeps_foldl | split

theorem State.reachHeads_keeps {s : State} (e : Nat) (c : Nat) (size : Nat × Nat) (h : Keeps r s) : Keeps r
    (State.reachHeads s e c size) := by
  unfold State.reachHeads
  repeat' with_reducible first
      | assumption | apply State.outsideCheck_keeps | apply State.setCv_keeps | apply keeps_foldl | split

theorem State.ledgerFor_keeps {s : State} (e : Nat) (c : Nat) (bay : Nat × Nat) (led : Nat × Nat) (h : Keeps r s) : Keeps r
    (State.ledgerFor s e c bay led).2 := by
  unfold State.ledgerFor
  repeat' with_reducible first | assumption | apply State.readLedger_keeps | fail_if_no_progress apply keeps_mk | split

theorem State.takeS_keeps {s : State} (hh : Nat) (n : Nat) (more : Nat) (h : Keeps r s) : Keeps r
    (State.takeS s hh n more) := by
  unfold State.takeS
  repeat' with_reducible first | assumption | apply State.yk_keeps | apply State.setHd_keeps | apply State.emit_keeps | split

theorem State.frameGo_keeps {s : State} (hh : Nat) (bay : Nat × Nat) (ep : Option (Nat × Nat)) (led : Nat × Nat) (rep : Bool)
    (direct : Bool) (h : Keeps r s) : Keeps r (State.frameGo s hh bay ep led rep direct) := by
  unfold State.frameGo
  repeat' with_reducible first
      | assumption | apply State.takeS_keeps | apply State.emit_keeps | apply State.holdTake_keeps | apply State.ledgerFor_keeps
      | apply State.wb_keeps | apply State.wr_keeps | apply State.wr64_keeps | apply State.cnt_keeps | apply State.setHd_keeps
      | apply State.judged_keeps | apply State.crcBegin_keeps | apply State.handOver_keeps | apply State.tapStart_keeps
      | apply keeps_ite | split

theorem State.frameRepeat_keeps {s : State} (hh : Nat) (h : Keeps r s) : Keeps r (State.frameRepeat s hh) := by
  unfold State.frameRepeat
  repeat' with_reducible first | assumption | apply State.frameGo_keeps | apply keeps_ite | split

theorem State.frameNew_keeps {s : State} (hh : Nat) (h : Keeps r s) : Keeps r (State.frameNew s hh) := by
  unfold State.frameNew
  repeat' with_reducible first | assumption | apply State.frameGo_keeps | apply keeps_ite | split

theorem State.frameFixed_keeps {s : State} (hh : Nat) (n : Nat) (h : Keeps r s) : Keeps r (State.frameFixed s hh n) := by
  unfold State.frameFixed
  repeat' with_reducible first
      | assumption | apply State.frameGo_keeps | apply State.setHd_keeps | apply keeps_ite | split | dsimp +zetaDelta only

theorem execFrameStart_keeps (hh : Fin 64) {s : State} (h : Keeps r s) : KeepsOut r (execFrameStart hh s) := by
  unfold execFrameStart
  repeat' with_reducible first
      | assumption | apply State.frameFixed_keeps | apply State.advanceRun_keeps | apply State.frameNew_keeps
      | apply State.frameRepeat_keeps | apply keeps_done | split | extract_lets

theorem execVminReached_keeps (hh : Fin 64) {s : State} (h : Keeps r s) : KeepsOut r (execVminReached hh s) := by
  unfold execVminReached
  repeat' with_reducible first
      | assumption | apply State.advanceRun_keeps | apply State.wr_keeps | apply keeps_done | split | extract_lets

theorem execHeadCommit_keeps (_w : Writer) (hh : Fin 64) {s : State} (h : Keeps r s) : KeepsOut r (execHeadCommit _w hh s) := by
  unfold execHeadCommit
  repeat' with_reducible first
      | assumption | apply State.wb_keeps | apply State.cnt_keeps | apply State.emit_keeps | apply keeps_done | split
      | extract_lets

theorem State.windowClose_keeps {s : State} (hh : Nat) (h : Keeps r s) : Keeps r (State.windowClose s hh) := by
  unfold State.windowClose
  repeat' with_reducible first
      | assumption | apply State.advanceRun_keeps | apply State.setHd_keeps | apply State.capture_keeps | apply State.wb_keeps
      | apply State.wr_keeps | apply State.headRefused_keeps | apply keeps_ite | split

theorem execCommitWindowClose_keeps (hh : Fin 64) {s : State} (h : Keeps r s) : KeepsOut r (execCommitWindowClose hh s) := by
  unfold execCommitWindowClose
  repeat' with_reducible first | assumption | apply State.windowClose_keeps | apply keeps_done

theorem State.headApply_keeps {s : State} (hh : Nat) (h : Keeps r s) : Keeps r (State.headApply s hh) := by
  unfold State.headApply
  repeat' with_reducible first
      | assumption | apply State.wb_keeps | apply State.activate_keeps | apply State.outsideCheck_keeps
      | apply State.setHd_keeps | split | extract_lets

theorem State.frameOver_keeps {s : State} (hh : Nat) (fr : GateFrame) (aborted : Bool) (h : Keeps r s) : Keeps r
    (State.frameOver s hh fr aborted) := by
  unfold State.frameOver
  repeat' with_reducible first
      | assumption | apply State.setHd_keeps | apply State.frameSum_keeps | apply State.crcEnd_keeps
      | apply State.holdRelease_keeps | apply keeps_ite

theorem execEndOfActive_keeps (hh : Fin 64) {s : State} (h : Keeps r s) : KeepsOut r (execEndOfActive hh s) := by
  unfold execEndOfActive
  repeat' with_reducible first
      | assumption | apply State.windowClose_keeps | apply State.advanceRun_keeps | apply State.handOver_keeps
      | apply State.setHd_keeps | apply State.frameOver_keeps | apply State.tapEnd_keeps | apply State.headApply_keeps
      | apply State.wr_keeps | apply State.closeCheck_keeps | apply keeps_done | split | extract_lets

theorem State.frameAbort_keeps {s : State} (hh : Nat) (line : Nat) (cause : Nat) (h : Keeps r s) : Keeps r
    (State.frameAbort s hh line cause) := by
  unfold State.frameAbort
  repeat' with_reducible first
      | assumption | apply State.handOver_keeps | apply State.cnt_keeps | apply State.tapAbort_keeps
      | apply State.frameOver_keeps | apply State.setHd_keeps | apply State.headApply_keeps | apply State.wr_keeps
      | apply State.closeCheck_keeps | split | extract_lets

theorem State.lineParts_keeps {s : State} (x : HeadSt) (bay : Nat × Nat) (h : Keeps r s) : Keeps r
    (State.lineParts s x bay).2 := by
  unfold State.lineParts
  repeat' with_reducible first
      | assumption | apply State.scanRead_keeps | apply State.draws_keeps | (apply keeps_snd; assumption) | split | extract_lets

theorem execScanoutReadComplete_keeps (hh : Fin 64) {s : State} (h : Keeps r s) : KeepsOut r
    (execScanoutReadComplete hh s) := by
  unfold execScanoutReadComplete
  repeat' with_reducible first
      | assumption | intro _ | apply State.setHd_keeps | apply State.lineParts_keeps | apply State.emit_keeps
      | apply State.midFail_keeps | apply keeps_done | apply keeps_foldl | split

theorem State.underrun_keeps {s : State} (hh : Nat) (line : Nat) (h : Keeps r s) : Keeps r (State.underrun s hh line) := by
  unfold State.underrun
  repeat' with_reducible first
      | assumption | apply State.emit_keeps | apply State.frameAbort_keeps | fail_if_no_progress apply keeps_mk | split
      | extract_lets

theorem execLineDue_keeps (hh : Fin 64) {s : State} (h : Keeps r s) : KeepsOut r (execLineDue hh s) := by
  unfold execLineDue
  repeat' with_reducible first
      | assumption | apply State.advanceRun_keeps | apply State.underrun_keeps | apply State.setHd_keeps | apply State.wr_keeps
      | apply State.handOver_keeps | apply State.crcLine_keeps | apply State.lineValue_keeps | apply State.tapLine_keeps
      | apply keeps_done | split

theorem State.headEnable_keeps {s : State} (w : Writer) (hh : Nat) (h : Keeps r s) : Keeps r (State.headEnable s w hh) := by
  unfold State.headEnable
  repeat' with_reducible first
      | assumption | (apply State.ownCheck_keeps; assumption) | apply State.enableFenced_keeps | apply State.headRefused_keeps
      | apply State.useSet_keeps | apply State.wb_keeps | apply State.commitNow_keeps | apply State.setHd_keeps
      | apply State.outsideCheck_keeps | apply State.idleStart_keeps | apply State.wr_keeps | split | extract_lets

theorem State.headDisable_keeps {s : State} (hh : Nat) (h : Keeps r s) : Keeps r (State.headDisable s hh) := by
  unfold State.headDisable
  repeat' with_reducible first
      | assumption | apply State.frameAbort_keeps | apply State.useSet_keeps | apply State.wb_keeps | apply State.wr_keeps
      | apply State.chStop_keeps | apply State.closeCheck_keeps | apply keeps_ite | fail_if_no_progress apply keeps_mk | split

theorem execHeadDisable_keeps (_w : Writer) (hh : Fin 64) {s : State} (h : Keeps r s) : KeepsOut r
    (execHeadDisable _w hh s) := by
  unfold execHeadDisable
  repeat' with_reducible first | assumption | apply State.headDisable_keeps | apply keeps_done

theorem execCanvasCommit_keeps (w : Writer) (e : Fin 2) (c : Fin 64) {s : State} (h : Keeps r s) : KeepsOut r
    (execCanvasCommit w e c s) := by
  unfold execCanvasCommit
  repeat' with_reducible first
      | assumption | apply State.fencedWrite_keeps | apply State.canvasChanged_keeps | apply State.canvasCommit_keeps
      | apply keeps_done | split

theorem State.epochToHeads_keeps {s : State} (c : Nat) (n : Nat) (ok : Bool) (fixed : Bool) (h : Keeps r s) : Keeps r
    (State.epochToHeads s c n ok fixed) := by
  unfold State.epochToHeads
  repeat' with_reducible first | assumption | intro _ | apply State.setHd_keeps | apply keeps_foldl

theorem State.directReady_keeps {s : State} (e : Nat) (c : Nat) (x : EpochSt) (ack : Option Nat) (led : Bool) (h : Keeps r s)
    : Keeps r (State.directReady s e c x ack led) := by
  unfold State.directReady
  repeat' with_reducible first
      | assumption | apply State.advanceTo_keeps | apply State.setCv_keeps | apply State.epochToHeads_keeps
      | apply State.epochMissed_keeps | apply State.composeWrite_keeps | apply State.crcReady_keeps
      | apply State.epochHold_keeps | apply State.epochDo_keeps | apply State.admitRelease_keeps
      | apply State.epochRelease_keeps | apply keeps_ite | fail_if_no_progress apply keeps_mk | split

theorem execEpochCommit_keeps (e : Fin 2) (c : Fin 64) (ack : Option Nat) (led : Bool) {s : State} (h : Keeps r s) : KeepsOut r
    (execEpochCommit e c ack led s) := by
  unfold execEpochCommit
  repeat' with_reducible first
      | assumption | apply State.closeCheck_keeps | apply State.reachHeads_keeps | apply State.setCv_keeps
      | apply State.advanceTo_keeps | apply State.epochSum_keeps | apply State.directReady_keeps | apply State.epochReady_keeps
      | apply State.epochToHeads_keeps | apply State.crcReady_keeps | apply keeps_done | split

theorem execEpochWritesDrain_keeps (e : Fin 2) (c : Fin 64) {s : State} (h : Keeps r s) : KeepsOut r
    (execEpochWritesDrain e c s) := by
  unfold execEpochWritesDrain
  repeat' with_reducible first
      | assumption | apply State.setCv_keeps | apply State.epochDo_keeps | apply State.admitRelease_keeps
      | apply State.epochRelease_keeps | apply keeps_done | split | extract_lets

/-! ### Encode -/

theorem State.chStart_keeps {s : State} (p : Nat) (k : Nat) (h : Keeps r s) : Keeps r (State.chStart s p k) := by
  unfold State.chStart
  repeat' with_reducible first | assumption | apply State.wb_keeps | fail_if_no_progress apply keeps_mk

theorem execEncChannelEnable_keeps (w : Writer) (p : Fin 2) (k : Fin 32) (v : Word) {s : State} (h : Keeps r s) : KeepsOut r
    (execEncChannelEnable w p k v s) := by
  unfold execEncChannelEnable
  repeat' with_reducible first
      | assumption | apply State.fencedWrite_keeps | apply State.chEnd_keeps | apply State.setFields_keeps
      | apply State.emit_keeps | apply State.wr_keeps | apply State.chStart_keeps | apply keeps_done | split | extract_lets

theorem State.recRead_keeps {s : State} (p : Nat) (r0 : TapRec) (off : Nat) (len : Nat) (h : Keeps r s) : Keeps r
    (State.recRead s p r0 off len).2 := by
  unfold State.recRead
  repeat' with_reducible first | assumption | apply State.bayRead_keeps

theorem State.recTable_keeps {s : State} (p : Nat) (r0 : TapRec) (h : Keeps r s) : Keeps r (State.recTable s p r0).2 := by
  unfold State.recTable
  repeat' with_reducible first | assumption | apply State.recRead_keeps

theorem State.refBay_keeps {s : State} (p : Nat) (k : Nat) (w : Nat) (hh : Nat) (h : Keeps r s) : Keeps r
    (State.refBay s p k w hh).2 := by
  unfold State.refBay
  repeat' with_reducible first
      | assumption | apply State.alloc_keeps | apply State.ownerRelease_keeps | (apply keeps_snd; assumption) | split

theorem State.snapPicture_keeps {s : State} (i : Nat) (h : Keeps r s) : Keeps r (State.snapPicture s i) := by
  unfold State.snapPicture
  repeat' with_reducible first | assumption | apply State.yk_keeps | fail_if_no_progress apply keeps_mk | split

theorem State.encBegin_keeps {s : State} (p : Nat) (k : Nat) (x : EncCh) (r0 : TapRec) (h : Keeps r s) : Keeps r
    (State.encBegin s p k x r0) := by
  unfold State.encBegin
  repeat' with_reducible first
      | assumption | apply State.encUpd_keeps | apply State.wr_keeps | apply State.recTable_keeps | apply State.emit_keeps
      | apply State.ownerRelease_keeps | apply State.wb_keeps | apply State.inc_keeps | apply State.cnt_keeps
      | apply State.refBay_keeps | apply keeps_ite | fail_if_no_progress apply keeps_mk

theorem execEncPictureStart_keeps (p : Fin 2) {s : State} (h : Keeps r s) : KeepsOut r (execEncPictureStart p s) := by
  unfold execEncPictureStart
  repeat' with_reducible first
      | assumption | apply State.chStop_keeps | apply State.snapPicture_keeps | apply State.encBegin_keeps | apply keeps_done
      | split | extract_lets

theorem State.recLines_keeps {s : State} (p : Nat) (r0 : TapRec) (h : Keeps r s) : Keeps r (State.recLines s p r0).2 := by
  unfold State.recLines
  repeat' with_reducible first | assumption | intro _ | apply State.recRead_keeps | apply keeps_foldl2

theorem State.refRead_keeps {s : State} (p : Nat) (b : Nat × Nat) (size : Nat × Nat) (h : Keeps r s) : Keeps r
    (State.refRead s p b size).2 := by
  unfold State.refRead
  repeat' with_reducible first | assumption | intro _ | apply State.hwRead_keeps | apply keeps_foldl2

theorem State.encRead_keeps {s : State} (p : Nat) (j : EncJob) (x : EncCh) (h : Keeps r s) : Keeps r
    (State.encRead s p j x).2 := by
  unfold State.encRead
  repeat' with_reducible first
      | assumption | apply State.recLines_keeps | apply State.ownerRelease_keeps | apply State.refRead_keeps | split

theorem State.refWrite_keeps {s : State} (p : Nat) (b : Nat × Nat) (r0 : TapRec) (c : EncCoded) (h : Keeps r s) : Keeps r
    (State.refWrite s p b r0 c) := by
  unfold State.refWrite
  repeat' with_reducible first
      | assumption | intro _ | apply State.wr_keeps | apply State.hwWrite_keeps | apply keeps_foldl | split

theorem State.encFinish_keeps {s : State} (p : Nat) (j : EncJob) (x : EncCh) (c : EncCoded) (h : Keeps r s) : Keeps r
    (State.encFinish s p j x c) := by
  unfold State.encFinish
  repeat' with_reducible first
      | assumption | intro _ | apply State.refWrite_keeps | apply State.ownerRelease_keeps | apply State.bayWrite_keeps
      | apply State.wr_keeps | apply State.inc_keeps | apply State.cnt_keeps | apply State.emit_keeps | apply State.wb_keeps
      | apply keeps_ite | fail_if_no_progress apply keeps_mk | apply keeps_foldl | split

theorem execEncPictureDone_keeps (p : Fin 2) (c : EncCoded) {s : State} (h : Keeps r s) : KeepsOut r
    (execEncPictureDone p c s) := by
  unfold execEncPictureDone
  repeat' with_reducible first
      | assumption | apply State.chStop_keeps | apply State.encRead_keeps | apply State.encFinish_keeps | apply keeps_done
      | apply keeps_ite | fail_if_no_progress apply keeps_mk | split

theorem State.rtpSend_keeps {s : State} (u : Nat) (port : Nat) (stamp : Nat) (au : List Nat) (h : Keeps r s) : Keeps r
    (State.rtpSend s u port stamp au) := by
  unfold State.rtpSend
  repeat' with_reducible first
      | assumption | intro _ | apply State.netDatagram_keeps | fail_if_no_progress apply keeps_mk | apply keeps_foldl

theorem State.rtcpReport_keeps {s : State} (u : Nat) (port : Nat) (ts : Nat) (h : Keeps r s) : Keeps r
    (State.rtcpReport s u port ts) := by
  unfold State.rtcpReport
  repeat' with_reducible first | assumption | apply State.netDatagram_keeps

theorem execEncStreamSend_keeps (p : Fin 2) (k : Fin 32) (port : Fin 18) (sr : Bool) {s : State} (h : Keeps r s) : KeepsOut r
    (execEncStreamSend p k port sr s) := by
  unfold execEncStreamSend
  repeat' with_reducible first
      | assumption | apply State.hwRead_keeps | apply State.rtpSend_keeps | apply State.rtcpReport_keeps | apply State.wr_keeps
      | apply keeps_done | fail_if_no_progress apply keeps_mk | (apply keeps_snd; assumption) | split | extract_lets

/-! ### Snap -/

theorem State.snapSection_keeps {s : State} (k : Nat) (h : Keeps r s) : Keeps r (State.snapSection s k) := by
  unfold State.snapSection
  repeat' with_reducible first | assumption | intro _ | apply State.ykSend_keeps | apply keeps_foldl

theorem State.snapSend_keeps {s : State} (e : Nat) (c : Nat) (h : Keeps r s) : Keeps r (State.snapSend s e c) := by
  unfold State.snapSend
  repeat' with_reducible first
      | assumption | apply State.yk_keeps | apply State.snapSection_keeps | apply keeps_foldl | split | extract_lets

theorem State.snapCut_keeps {s : State} (c : Nat) (h : Keeps r s) : Keeps r (State.snapCut s c) := by
  unfold State.snapCut
  repeat' with_reducible first
      | assumption | intro _ | apply State.wb_keeps | apply State.wr64_keeps | apply State.setStallSt_keeps
      | apply State.wr_keeps | apply State.yk_keeps | apply keeps_foldl | split

theorem State.snapFeed_keeps {s : State} (x : List Nat) (h : Keeps r s) : Keeps r (State.snapFeed s x) := by
  unfold State.snapFeed
  repeat' with_reducible first | assumption | apply State.setFeed_keeps | split | extract_lets

theorem State.snapContact_keeps {s : State} (p : Nat) (zones : List Zone) (x : List Nat) (h : Keeps r s) : Keeps r
    (State.snapContact s p zones x).2 := by
  unfold State.snapContact
  repeat' with_reducible first | assumption | apply State.judgePos_keeps

theorem State.snapPort_keeps {s : State} (p : Nat) (nodes : List Nat) (contacts : List Nat) (h : Keeps r s) : Keeps r
    (State.snapPort s p nodes contacts) := by
  unfold State.snapPort
  repeat' with_reducible first
      | assumption | intro _ | apply State.wb_keeps | apply State.wr_keeps | apply State.snapContact_keeps
      | apply State.setTch_keeps | apply keeps_foldl | apply keeps_foldl2 | split

theorem State.snapPorts_keeps {s : State} (a : Nat) (a2 : List Nat) (h : Keeps r s) : Keeps r (State.snapPorts s a a2) := by
  induction a generalizing s a2
  all_goals unfold State.snapPorts
  all_goals
    repeat' with_reducible first | apply_assumption | apply State.yk_keeps | split

theorem State.snapTouch_keeps {s : State} (p : Nat) (h : Keeps r s) : Keeps r (State.snapTouch s p) := by
  unfold State.snapTouch
  repeat' with_reducible first | assumption | apply State.yk_keeps | apply State.snapPort_keeps | split

theorem State.snapChannels_keeps {s : State} (a : Nat) (a2 : List Nat) (h : Keeps r s) : Keeps r
    (State.snapChannels s a a2) := by
  induction a generalizing s a2
  all_goals unfold State.snapChannels
  all_goals
    repeat' with_reducible first | apply_assumption | apply State.yk_keeps | split

theorem State.snapApply_keeps {s : State} (k : Nat) (d : List Nat) (h : Keeps r s) : Keeps r (State.snapApply s k d) := by
  unfold State.snapApply
  repeat' with_reducible first
      | assumption | apply State.yk_keeps | apply State.laterGo_keeps | apply State.snapFeed_keeps | apply State.snapPorts_keeps
      | apply State.snapChannels_keeps | apply keeps_foldl | split

theorem State.snapFrame_keeps {s : State} (d : List Nat) (h : Keeps r s) : Keeps r (State.snapFrame s d) := by
  unfold State.snapFrame
  repeat' with_reducible first
      | assumption | apply State.ykDown_keeps | apply State.snapApply_keeps | apply State.yk_keeps | split | extract_lets

/-! ### TimeStep -/

theorem State.passedReach_keeps {s : State} (e : Nat) (c : Nat) (n : Nat) (h : Keeps r s) : Keeps r
    (State.passedReach s e c n) := by
  unfold State.passedReach
  repeat' with_reducible first | assumption | apply State.reachHeads_keeps | apply State.setCv_keeps | split | extract_lets

theorem State.timeMoved_keeps {s : State} (old : Nat) (h : Keeps r s) : Keeps r (State.timeMoved s old) := by
  unfold State.timeMoved
  repeat' with_reducible first
      | assumption | intro _ | apply State.stepOutputs_keeps | apply State.passedReach_keeps | apply State.canvasChanged_keeps
      | apply State.epochsPassed_keeps | apply State.epochsMissedSum_keeps | apply keeps_foldl | split | extract_lets

theorem State.alarmPassed_keeps {s : State} (old : Nat) (h : Keeps r s) : Keeps r (State.alarmPassed s old) := by
  unfold State.alarmPassed
  repeat' with_reducible first | assumption | apply State.wake_keeps | split | extract_lets

theorem State.timeJump_keeps {s : State} (d : Nat) (h : Keeps r s) : Keeps r (State.timeJump s d) := by
  unfold State.timeJump
  repeat' with_reducible first
      | assumption | apply State.alarmPassed_keeps | apply State.timeMoved_keeps | fail_if_no_progress apply keeps_mk

theorem State.stepApply_keeps {s : State} (x : Int) (h : Keeps r s) : Keeps r (State.stepApply s x) := by
  unfold State.stepApply
  repeat' with_reducible first
      | assumption | apply State.timeJump_keeps | fail_if_no_progress apply keeps_mk | split | extract_lets

theorem State.stepFirst_keeps {s : State} (x : Int) (h : Keeps r s) : Keeps r (State.stepFirst s x) := by
  unfold State.stepFirst
  repeat' with_reducible first
      | assumption | apply State.alarmPassed_keeps | apply State.timeMoved_keeps | apply State.emit_keeps
      | apply State.setTbState_keeps | fail_if_no_progress apply keeps_mk | split

theorem State.setPend_keeps {s : State} (p : Option Int) (h : Keeps r s) : Keeps r (State.setPend s p) := by
  unfold State.setPend
  repeat' with_reducible first | assumption | apply State.wb_keeps | apply State.wr64_keeps | fail_if_no_progress apply keeps_mk

theorem State.stepJudge_keeps {s : State} (x : Int) (h : Keeps r s) : Keeps r (State.stepJudge s x) := by
  unfold State.stepJudge
  repeat' with_reducible first
      | assumption | apply State.stepFirst_keeps | apply State.emit_keeps | apply State.stepApply_keeps
      | apply State.setPend_keeps | split

theorem execTimeStepRequest_keeps (w : Writer) (hi : Word) {s : State} (h : Keeps r s) : KeepsOut r
    (execTimeStepRequest w hi s) := by
  unfold execTimeStepRequest
  repeat' with_reducible first
      | assumption | apply State.stepJudge_keeps | apply State.wrongWriter_keeps | apply keeps_done | split

theorem State.acceptTest_keeps {s : State} (w : Writer) (key : Nat) (h : Keeps r s) : Keeps r (State.acceptTest s w key).2 := by
  unfold State.acceptTest
  repeat' with_reducible first | assumption | apply State.wrongWriter_keeps | apply State.wrongKey_keeps | split

theorem execStepAccept_keeps (w : Writer) (key : BitVec 16) {s : State} (h : Keeps r s) : KeepsOut r
    (execStepAccept w key s) := by
  unfold execStepAccept
  repeat' with_reducible first
      | assumption | apply State.acceptTest_keeps | apply State.emit_keeps | apply State.stepApply_keeps
      | apply State.setPend_keeps | apply keeps_done | (apply keeps_snd; assumption) | split

theorem execStepDiscard_keeps (w : Writer) (key : BitVec 16) {s : State} (h : Keeps r s) : KeepsOut r
    (execStepDiscard w key s) := by
  unfold execStepDiscard
  repeat' with_reducible first
      | assumption | apply State.acceptTest_keeps | apply State.setPend_keeps | apply keeps_done | (apply keeps_snd; assumption)
      | split

/-! ### Team -/

theorem execYokeTrain_keeps (aligned : BitVec 4) {s : State} (h : Keeps r s) : KeepsOut r (execYokeTrain aligned s) := by
  unfold execYokeTrain
  repeat' with_reducible first
      | assumption | apply State.yk_keeps | apply State.ykPush_keeps | apply State.emit_keeps | apply keeps_done | split

theorem State.pair_keeps {s : State} (d : List Nat) (h : Keeps r s) : Keeps r (State.pair s d) := by
  unfold State.pair
  repeat' with_reducible first
      | assumption | intro _ | apply State.wr_keeps | apply State.wb_keeps | apply State.yk_keeps | apply State.report_keeps
      | apply State.ykState_keeps | apply State.emit_keeps | apply State.timeRole_keeps | apply State.tieCheck_keeps
      | apply keeps_foldl | split

theorem State.helloFrame_keeps {s : State} (d : List Nat) (h : Keeps r s) : Keeps r (State.helloFrame s d) := by
  unfold State.helloFrame
  repeat' with_reducible first | assumption | apply State.ykDown_keeps | apply State.pair_keeps | split

theorem State.lineCrcs_keeps {s : State} (d : List Nat) (h : Keeps r s) : Keeps r (State.lineCrcs s d) := by
  unfold State.lineCrcs
  repeat' with_reducible first | assumption | intro _ | apply State.chkPartner_keeps | apply keeps_foldl

theorem State.claimFrame_keeps {s : State} (v : Nat) (h : Keeps r s) : Keeps r (State.claimFrame s v) := by
  unfold State.claimFrame
  repeat' with_reducible first | assumption | apply State.wr_keeps | apply State.tieCheck_keeps | apply State.roleChange_keeps

theorem State.offsetJudge_keeps {s : State} (off : Int) (h : Keeps r s) : Keeps r (State.offsetJudge s off) := by
  unfold State.offsetJudge
  repeat' with_reducible first | assumption | apply State.yk_keeps | apply State.diverge_keeps | split | extract_lets

theorem State.yokeTrim_keeps {s : State} (h : Keeps r s) : Keeps r (State.yokeTrim s) := by
  unfold State.yokeTrim
  repeat' with_reducible first | assumption | apply State.draw_keeps | apply State.wr_keeps

theorem State.timeFrame_keeps {s : State} (d : List Nat) (h : Keeps r s) : Keeps r (State.timeFrame s d) := by
  unfold State.timeFrame
  repeat' with_reducible first
      | assumption | apply State.yk_keeps | apply State.offsetJudge_keeps | apply State.wr_keeps | apply State.yokeTrim_keeps
      | apply State.stepJudge_keeps | apply State.report_keeps | apply keeps_ite

theorem State.mergeArrive_keeps {s : State} (origin : Nat) (fnum : Nat) (x : PktSlot) (h : Keeps r s) : Keeps r
    (State.mergeArrive s origin fnum x) := by
  unfold State.mergeArrive
  repeat' with_reducible first | assumption | apply State.cnt_keeps | apply State.yk_keeps | split

theorem State.keptDrop_keeps {s : State} (x : PktSlot) (h : Keeps r s) : Keeps r (State.keptDrop s x) := by
  unfold State.keptDrop
  repeat' with_reducible first | assumption | fail_if_no_progress apply keeps_mk

theorem State.fwdFrame_keeps {s : State} (d : List Nat) (fr : Option NetFrame) (h : Keeps r s) : Keeps r
    (State.fwdFrame s d fr) := by
  unfold State.fwdFrame
  repeat' with_reducible first | assumption | apply State.creditBack_keeps | apply State.mergeArrive_keeps | split

theorem State.mergedIn_keeps {s : State} (m : Nat) (x : PktSlot) (h : Keeps r s) : Keeps r (State.mergedIn s m x) := by
  unfold State.mergedIn
  repeat' with_reducible first | assumption | apply State.yk_keeps | apply State.toIngress_keeps | split

theorem State.mergeFrame_keeps {s : State} (d : List Nat) (fr : Option NetFrame) (h : Keeps r s) : Keeps r
    (State.mergeFrame s d fr) := by
  unfold State.mergeFrame
  repeat' with_reducible first
      | assumption | apply State.yk_keeps | apply State.creditBack_keeps | apply State.mergedIn_keeps | split | extract_lets

theorem State.markFrame_keeps {s : State} (d : List Nat) (h : Keeps r s) : Keeps r (State.markFrame s d) := by
  unfold State.markFrame
  repeat' with_reducible first | assumption | intro _ | apply State.keptDrop_keeps | apply State.yk_keeps | apply keeps_foldl

theorem State.handoverFrame_keeps {s : State} (d : List Nat) (h : Keeps r s) : Keeps r (State.handoverFrame s d) := by
  unfold State.handoverFrame
  repeat' with_reducible first | assumption | apply State.yk_keeps | apply State.cnt_keeps

theorem State.samplesRun_keeps {s : State} (p : Nat) (x : SampleSet) (h : Keeps r s) : Keeps r (State.samplesRun s p x) := by
  unfold State.samplesRun
  repeat' with_reducible first
      | assumption | apply State.latchFrame_keeps | apply State.snapTouch_keeps | apply State.setTch_keeps
      | apply State.wr_keeps | apply State.scanFrame_keeps | split

theorem State.samplesFrame_keeps {s : State} (d : List Nat) (h : Keeps r s) : Keeps r (State.samplesFrame s d) := by
  unfold State.samplesFrame
  repeat' with_reducible first
      | assumption | apply State.creditBack_keeps | apply State.samplesRun_keeps | apply State.setTch_keeps |
      (apply keeps_snd; assumption) | split | extract_lets

theorem execScanFrameEnd_keeps (p : Fin 2) (m : List Nat) (lcur : Nat) (lcand : Nat) {s : State} (h : Keeps r s) : KeepsOut r
    (execScanFrameEnd p m lcur lcand s) := by
  unfold execScanFrameEnd
  repeat' with_reducible first
      | assumption | intro _ | apply State.setTch_keeps | apply State.scanFrame_keeps | apply State.ykSend_keeps
      | apply keeps_done | apply keeps_foldl | split | extract_lets

theorem execSamplesLost_keeps (p : Fin 2) {s : State} (h : Keeps r s) : KeepsOut r (execSamplesLost p s) := by
  unfold execSamplesLost
  repeat' with_reducible first
      | assumption | apply State.advanceRun_keeps | apply State.emit_keeps | apply State.mirrorEnd_keeps
      | apply State.captureStart_keeps | apply State.setTch_keeps | apply keeps_done | split

theorem State.ykDeliver_keeps {s : State} (v : Nat) (typ : Nat) (d : List Nat) (fr : Option NetFrame) (h : Keeps r s) : Keeps r
    (State.ykDeliver s v typ d fr) := by
  unfold State.ykDeliver
  repeat' with_reducible first
      | assumption | apply State.creditBack_keeps | apply State.fwdFrame_keeps | apply State.mergeFrame_keeps
      | apply State.markFrame_keeps | apply State.handoverFrame_keeps | apply State.lineCrcs_keeps
      | apply State.chkPartner_keeps | apply State.helloFrame_keeps | apply State.claimFrame_keeps | apply State.timeFrame_keeps
      | apply State.samplesFrame_keeps | apply State.snapFrame_keeps | split

theorem State.ykInOrder_keeps {s : State} (v : Nat) (a : Nat) (h : Keeps r s) : Keeps r (State.ykInOrder s v a) := by
  induction a generalizing s
  all_goals unfold State.ykInOrder
  all_goals
    repeat' with_reducible first
        | apply_assumption | apply State.setVc_keeps | apply State.ykDeliver_keeps | split | extract_lets

theorem State.ykResend_keeps {s : State} (v : Nat) (h : Keeps r s) : Keeps r (State.ykResend s v) := by
  unfold State.ykResend
  repeat' with_reducible first
      | assumption | intro _ | apply State.ykEmit_keeps | apply State.setVc_keeps | apply State.ykDown_keeps | apply keeps_foldl
      | split | extract_lets

theorem State.ykAck_keeps {s : State} (v : Nat) (q : Nat) (nak : Bool) (h : Keeps r s) : Keeps r (State.ykAck s v q nak) := by
  unfold State.ykAck
  repeat' with_reducible first | assumption | apply State.setVc_keeps | apply State.ykResend_keeps | apply keeps_ite

theorem State.ykCredit_keeps {s : State} (v : Nat) (c : Nat) (h : Keeps r s) : Keeps r (State.ykCredit s v c) := by
  unfold State.ykCredit
  repeat' with_reducible first | assumption | apply State.wr_keeps | apply State.setVc_keeps | apply State.ykDrain_keeps

theorem State.ykData_keeps {s : State} (v : Nat) (typ : Nat) (seq : Nat) (d : List Nat) (fr : Option NetFrame) (h : Keeps r s)
    : Keeps r (State.ykData s v typ seq d fr) := by
  unfold State.ykData
  repeat' with_reducible first
      | assumption | apply State.setVc_keeps | apply State.ykInOrder_keeps | apply State.ykDeliver_keeps | split | extract_lets

theorem execYokeFrameReceive_keeps (bytes : List Nat) (fr : Option NetFrame) {s : State} (h : Keeps r s) : KeepsOut r
    (execYokeFrameReceive bytes fr s) := by
  unfold execYokeFrameReceive
  repeat' with_reducible first
      | assumption | apply State.perturb_keeps | apply State.advanceRun_keeps | apply State.yk_keeps | apply State.ykAck_keeps
      | apply State.ykCredit_keeps | apply State.ykData_keeps | apply keeps_done | apply keeps_ite

theorem execYokeAckTimer_keeps {s : State} (h : Keeps r s) : KeepsOut r (execYokeAckTimer s) := by
  unfold execYokeAckTimer
  repeat' with_reducible first
      | assumption | intro _ | apply State.ykEmitFor_keeps | apply keeps_done | apply keeps_foldl | split

theorem execYokeReplayTimeout_keeps (v : Fin 5) {s : State} (h : Keeps r s) : KeepsOut r (execYokeReplayTimeout v s) := by
  unfold execYokeReplayTimeout
  repeat' with_reducible first
      | assumption | apply State.ykResend_keeps | apply State.advanceRun_keeps | apply keeps_done | split

theorem execYokeSilenceTimeout_keeps {s : State} (h : Keeps r s) : KeepsOut r (execYokeSilenceTimeout s) := by
  unfold execYokeSilenceTimeout
  repeat' with_reducible first | assumption | apply State.ykDown_keeps | apply State.advanceRun_keeps | apply keeps_done | split

theorem execYokeRetry_keeps {s : State} (h : Keeps r s) : KeepsOut r (execYokeRetry s) := by
  unfold execYokeRetry
  repeat' with_reducible first
      | assumption | apply State.advanceRun_keeps | apply State.ykState_keeps | apply keeps_done | split | extract_lets

theorem execYokeTimeSend_keeps {s : State} (h : Keeps r s) : KeepsOut r (execYokeTimeSend s) := by
  unfold execYokeTimeSend
  repeat' with_reducible first | assumption | apply State.ykSend_keeps | apply keeps_done | split

theorem execYokeJoinStart_keeps {s : State} (h : Keeps r s) : KeepsOut r (execYokeJoinStart s) := by
  unfold execYokeJoinStart
  repeat' with_reducible first
      | assumption | intro _ | apply State.advanceRun_keeps | apply State.ykState_keeps | apply State.yk_keeps
      | apply State.decRestart_keeps | apply State.inStepCheck_keeps | apply keeps_done | apply keeps_foldl | split

theorem execFwdDrop_keeps {s : State} (h : Keeps r s) : KeepsOut r (execFwdDrop s) := by
  unfold execFwdDrop
  repeat' with_reducible first
      | assumption | apply State.cnt_keeps | apply State.setVc_keeps | apply State.advanceRun_keeps | apply keeps_done | split

theorem execMergeEmit_keeps {s : State} (h : Keeps r s) : KeepsOut r (execMergeEmit s) := by
  unfold execMergeEmit
  repeat' with_reducible first
      | assumption | apply State.advanceTo_keeps | apply State.yk_keeps | apply State.ykSend_keeps | apply State.toIngress_keeps
      | apply keeps_done | split

theorem execMergeMarkSend_keeps {s : State} (h : Keeps r s) : KeepsOut r (execMergeMarkSend s) := by
  unfold execMergeMarkSend
  repeat' with_reducible first | assumption | apply State.yk_keeps | apply State.ykSend_keeps | apply keeps_done | split

theorem execEpochCut_keeps (e : Fin 2) (c : Fin 64) {s : State} (h : Keeps r s) : KeepsOut r (execEpochCut e c s) := by
  unfold execEpochCut
  repeat' with_reducible first
      | assumption | apply State.epochCut_keeps | apply State.snapCut_keeps | apply State.canvasChanged_keeps
      | apply State.epochsMissedSum_keeps | apply State.snapSend_keeps | apply keeps_done | split

theorem execHeartbeat_keeps {s : State} (h : Keeps r s) : KeepsOut r (execHeartbeat s) := by
  unfold execHeartbeat
  repeat' with_reducible first
      | assumption | apply State.advanceRun_keeps | apply State.ymSend_keeps | apply State.yk_keeps | apply keeps_done | split

theorem State.newNonce_keeps {s : State} (h : Keeps r s) : Keeps r (State.newNonce s) := by
  unfold State.newNonce
  repeat' with_reducible first | assumption | apply State.draw_keeps | apply State.yk_keeps

theorem State.claimResult_keeps {s : State} (seq : Nat) (st : Nat) (h : Keeps r s) : Keeps r (State.claimResult s seq st) := by
  unfold State.claimResult
  repeat' with_reducible first | assumption | apply State.ymSend_keeps

theorem execSetClaim_keeps (m : Option SetClaimMsg) {s : State} (h : Keeps r s) : KeepsOut r (execSetClaim m s) := by
  unfold execSetClaim
  repeat' with_reducible first
      | assumption | apply State.claimResult_keeps | apply State.yk_keeps | apply State.newNonce_keeps
      | apply State.claimSet_keeps | apply keeps_done | split

/-! ### Receive -/

theorem execTiCapture_keeps (pin : Fin 8) (edge : TiEdge) {s : State} (h : Keeps r s) : KeepsOut r
    (execTiCapture pin edge s) := by
  unfold execTiCapture
  repeat' with_reducible first | assumption | apply State.tiCapture_keeps | apply State.wake_keeps | apply keeps_done | split

theorem execKeyFrame_keeps (counts : List Nat) {s : State} (h : Keeps r s) : KeepsOut r (execKeyFrame counts s) := by
  unfold execKeyFrame
  repeat' with_reducible first | assumption | apply State.keyFrame_keeps | apply State.wake_keeps | apply keeps_done | split

theorem State.feedArrive_keeps {s : State} (x : PktSlot) (h : Keeps r s) : Keeps r (State.feedArrive s x) := by
  unfold State.feedArrive
  repeat' with_reducible first
      | assumption | apply State.cnt_keeps | apply State.mergeArrive_keeps | apply State.forward_keeps
      | fail_if_no_progress apply keeps_mk | split | extract_lets

theorem State.rxClassify_keeps {s : State} (port : Nat) (fr : NetFrame) (stamp : Nat) (h : Keeps r s) : Keeps r
    (State.rxClassify s port fr stamp) := by
  unfold State.rxClassify
  repeat' with_reducible first
      | assumption | apply State.cnt_keeps | apply State.feedArrive_keeps | fail_if_no_progress apply keeps_mk | split
      | extract_lets

theorem State.rxPass_keeps {s : State} (port : Nat) (fr : NetFrame) (stamp : Nat) (h : Keeps r s) : Keeps r
    (State.rxPass s port fr stamp) := by
  unfold State.rxPass
  repeat' with_reducible first
      | assumption | apply State.rxClassify_keeps | fail_if_no_progress apply keeps_mk | split | extract_lets

theorem State.rxRelease_keeps {s : State} (port : Nat) (h : Keeps r s) : Keeps r (State.rxRelease s port) := by
  unfold State.rxRelease
  repeat' with_reducible first
      | assumption | intro _ | apply State.rxClassify_keeps | fail_if_no_progress apply keeps_mk | apply keeps_foldl

theorem State.stabledFrame_keeps {s : State} (port : Nat) (fr : NetFrame) (h : Keeps r s) : Keeps r
    (State.stabledFrame s port fr) := by
  unfold State.stabledFrame
  split
  · exact h
  · split
    rename_i e
    extract_lets base
    refine keeps_mem (keeps_snd e (State.draw_keeps h)) rfl id id (fun w => ?_) id id id
    have hk : ∀ (v : Nat) (l : List (Nat × Nat)) (m : Mem), Memory.wf m = true →
        Memory.wf (l.foldl (fun m x => m.write (base + (v + x.2) % 0x10000) (BitVec.ofNat 8 x.1)) m) = true := by
      intro v l
      induction l with
      | nil => exact fun m hm => hm
      | cons x t ih => exact fun m hm => ih _ (Mem.wf_write hm _ _)
    exact hk _ _ _ w

theorem State.rxFrame_keeps {s : State} (port : Nat) (fr : NetFrame) (stamp : Nat) (h : Keeps r s) : Keeps r
    (State.rxFrame s port fr stamp) := by
  unfold State.rxFrame
  repeat' with_reducible first
      | assumption | apply State.cnt_keeps | apply State.wake_keeps | apply State.stabledFrame_keeps | apply State.rxPass_keeps
      | apply keeps_ite

theorem execNetFrameReceive_keeps (port : Fin 18) (fr : NetFrame) (ago : Nat) {s : State} (h : Keeps r s) : KeepsOut r
    (execNetFrameReceive port fr ago s) := by
  unfold execNetFrameReceive
  repeat' with_reducible first
      | assumption | apply State.cnt_keeps | apply State.rxlFrameEnd_keeps | apply State.rxFrame_keeps | apply keeps_done
      | split

/-! ### Cvu -/

theorem State.cvuPush_keeps {s : State} (u : Nat) (v : Nat) (tag : Nat) (h : Keeps r s) : Keeps r
    (State.cvuPush s u v tag) := by
  unfold State.cvuPush
  repeat' with_reducible first
      | assumption | apply State.wr_keeps | apply State.setCvu_keeps | apply State.cnt_keeps | apply State.wb_keeps | split
      | extract_lets

theorem State.cvuCount_keeps {s : State} (u : Nat) (h : Keeps r s) : Keeps r (State.cvuCount s u) := by
  unfold State.cvuCount
  repeat' with_reducible first
      | assumption | apply State.cnt_keeps | apply State.setCvu_keeps | apply State.inc_keeps | split | extract_lets

theorem State.cvuFailed_keeps {s : State} (u : Nat) (got : Nat) (had : Nat) (h : Keeps r s) : Keeps r
    (State.cvuFailed s u got had) := by
  unfold State.cvuFailed
  repeat' with_reducible first | assumption | apply State.emit_keeps | apply State.cnt_keeps

theorem State.cvuCheck_keeps {s : State} (u : Nat) (d : List Nat) (h : Keeps r s) : Keeps r (State.cvuCheck s u d).2 := by
  unfold State.cvuCheck
  repeat' with_reducible first
      | assumption | apply State.draw_keeps | apply State.cvuCount_keeps | apply State.cvuFailed_keeps |
      (apply keeps_snd; assumption) | split | extract_lets

theorem State.cvuClose_keeps {s : State} (u : Nat) (a : Nat) (d : List Nat) (h : Keeps r s) : Keeps r
    (State.cvuClose s u a d) := by
  unfold State.cvuClose
  repeat' with_reducible first
      | assumption | apply State.cvuCount_keeps | apply State.cvuPush_keeps | apply State.cvuCheck_keeps | split

theorem State.cvuFeed_keeps {s : State} (w : Writer) (u : Nat) (d : List Nat) (h : Keeps r s) : Keeps r
    (State.cvuFeed s w u d) := by
  unfold State.cvuFeed
  repeat' with_reducible first | assumption | apply State.setCvu_keeps | split

theorem execCvuDataWrite_keeps (w : Writer) (u : Fin 24) (v : Word) {s : State} (h : Keeps r s) : KeepsOut r
    (execCvuDataWrite w u v s) := by
  unfold execCvuDataWrite
  repeat' with_reducible first
      | assumption | apply State.missRecord_keeps | apply State.cvuFeed_keeps | apply keeps_done | split

theorem execCvuDataBWrite_keeps (w : Writer) (u : Fin 24) (v : BitVec 8) {s : State} (h : Keeps r s) : KeepsOut r
    (execCvuDataBWrite w u v s) := by
  unfold execCvuDataBWrite
  repeat' with_reducible first
      | assumption | apply State.missRecord_keeps | apply State.cvuFeed_keeps | apply keeps_done | split

theorem State.cvuGather_keeps {s : State} (u : Nat) (h : Keeps r s) : Keeps r (State.cvuGather s u) := by
  unfold State.cvuGather
  repeat' with_reducible first | assumption | apply State.setCvu_keeps

theorem execCvuEnd_keeps (w : Writer) (u : Fin 24) {s : State} (h : Keeps r s) : KeepsOut r (execCvuEnd w u s) := by
  unfold execCvuEnd
  repeat' with_reducible first
      | assumption | apply State.missRecord_keeps | apply State.cvuGather_keeps | apply State.cvuClose_keeps | apply keeps_done
      | split

theorem execCvuResultPop_keeps (w : Writer) (u : Fin 24) {s : State} (h : Keeps r s) : KeepsOut r (execCvuResultPop w u s) := by
  unfold execCvuResultPop
  repeat' with_reducible first
      | assumption | apply State.ret_keeps | apply State.missRecord_keeps | apply State.wr_keeps | apply State.setCvu_keeps
      | apply keeps_done | split

theorem State.cvuTx_keeps {s : State} (u : Nat) (k : Nat) (h : Keeps r s) : Keeps r (State.cvuTx s u k) := by
  unfold State.cvuTx
  repeat' with_reducible first
      | assumption | apply State.cvuCount_keeps | apply State.cvuClose_keeps | fail_if_no_progress apply keeps_mk | split
      | extract_lets

theorem State.cvuRx_keeps {s : State} (u : Nat) (h : Keeps r s) : Keeps r (State.cvuRx s u) := by
  unfold State.cvuRx
  repeat' with_reducible first
      | assumption | apply State.rxRelease_keeps | apply State.cvuClose_keeps | apply State.cvuCheck_keeps
      | fail_if_no_progress apply keeps_mk | (apply keeps_snd; assumption) | split | extract_lets

theorem State.cvuWrite_keeps {s : State} (u : Nat) (h : Keeps r s) : Keeps r (State.cvuWrite s u) := by
  unfold State.cvuWrite
  repeat' with_reducible first
      | assumption | apply State.cvuGather_keeps | apply State.cvuClose_keeps | apply State.setCvu_keeps | split

theorem execCvuSnoopBlock_keeps (u : Fin 24) (k : Nat) {s : State} (h : Keeps r s) : KeepsOut r (execCvuSnoopBlock u k s) := by
  unfold execCvuSnoopBlock
  repeat' with_reducible first
      | assumption | apply State.cvuWrite_keeps | apply State.cvuTx_keeps | apply State.cvuRx_keeps | apply keeps_done | split

theorem State.cvuEnable_keeps {s : State} (w : Writer) (u : Nat) (h : Keeps r s) : Keeps r (State.cvuEnable s w u) := by
  unfold State.cvuEnable
  repeat' with_reducible first
      | assumption | (apply State.ownCheck_keeps; assumption) | apply State.enableFenced_keeps | apply State.emit_keeps
      | apply State.wb_keeps | apply State.useSet_keeps | apply State.setCvu_keeps | split | extract_lets

theorem State.cvuDisable_keeps {s : State} (u : Nat) (h : Keeps r s) : Keeps r (State.cvuDisable s u) := by
  unfold State.cvuDisable
  repeat' with_reducible first
      | assumption | apply State.wb_keeps | apply State.useSet_keeps | apply State.setCvu_keeps | apply State.rxRelease_keeps
      | fail_if_no_progress apply keeps_mk | apply keeps_foldl

/-! ### Own -/

theorem State.ownWrite_keeps {s : State} (w : Nat) (i : Nat) (v : Nat) (word : Nat) (h : Keeps r s) : Keeps r
    (State.ownWrite s w i v word) := by
  unfold State.ownWrite
  repeat' with_reducible first
      | assumption | apply State.enableFenced_keeps | apply State.emit_keeps | apply State.wr_keeps
      | apply State.ownConflict_keeps | split

theorem execOwnerWrite_keeps (w : Writer) (idx : Fin 2048) (v : BitVec 16) {s : State} (h : Keeps r s) : KeepsOut r
    (execOwnerWrite w idx v s) := by
  unfold execOwnerWrite
  repeat' with_reducible first | assumption | apply State.ownWrite_keeps | apply keeps_done | split

theorem execOwnEntryLock_keeps (w : Writer) (idx : Fin 2048) {s : State} (h : Keeps r s) : KeepsOut r
    (execOwnEntryLock w idx s) := by
  unfold execOwnEntryLock
  repeat' with_reducible first | assumption | apply State.wb_keeps | apply keeps_done | split

theorem execGpioWrite_keeps (w : Writer) (oe : Bool) (k : Fin 8) (v : Word) {s : State} (h : Keeps r s) : KeepsOut r
    (execGpioWrite w oe k v s) := by
  unfold execGpioWrite
  repeat' with_reducible first | assumption | apply State.wr_keeps | apply keeps_done

theorem State.ballRecord_keeps {s : State} (k : Nat) (code : Nat) (h : Keeps r s) : Keeps r (State.ballRecord s k code) := by
  unfold State.ballRecord
  repeat' with_reducible first | assumption | apply State.emit_keeps | split

theorem State.ballTake_keeps {s : State} (k : Nat) (h : Keeps r s) : Keeps r (State.ballTake s k) := by
  unfold State.ballTake
  repeat' with_reducible first | assumption | apply State.wb_keeps | apply State.ballRecord_keeps | split

theorem State.ballReturn_keeps {s : State} (k : Nat) (h : Keeps r s) : Keeps r (State.ballReturn s k) := by
  unfold State.ballReturn
  repeat' with_reducible first | assumption | apply State.ballRecord_keeps | apply State.wb_keeps

end Sys2Proof.Machine
end

