-- ==== Sys2Proof/Laws/KeepsUnits.lean ====
section
/-! SUPPORT. Every operation keeps the queue and canonical memories, by module: hitches, resets, updates, management, power, PCI Express and the registers. -/

set_option autoImplicit false

namespace Sys2Proof.Machine

variable {r : State}

/-! ### Hitch -/

theorem State.setAband_keeps {s : State} (n : Nat) (b : Bool) (h : Keeps r s) : Keeps r (State.setAband s n b) := by
  unfold State.setAband
  repeat' with_reducible first | assumption | apply State.wr_keeps

theorem State.hitOrder_keeps {s : State} (o : Nat) (n : Nat) (h : Keeps r s) : Keeps r (State.hitOrder s o n) := by
  unfold State.hitOrder
  repeat' with_reducible first | assumption | apply State.emit_keeps | split

theorem State.hitchGive_keeps {s : State} (o : Nat) (n : Nat) (h : Keeps r s) : Keeps r (State.hitchGive s o n) := by
  unfold State.hitchGive
  repeat' with_reducible first | assumption | apply State.hitOrder_keeps | fail_if_no_progress apply keeps_mk

theorem State.setWait_keeps {s : State} (o : Nat) (st : Nat) (ab : Bool) (h : Keeps r s) : Keeps r
    (State.setWait s o st ab) := by
  unfold State.setWait
  repeat' with_reducible first | assumption | apply State.wb_keeps | apply State.wr_keeps

theorem State.hitchGrant_keeps {s : State} (o : Nat) (n : Nat) (ab : Bool) (h : Keeps r s) : Keeps r
    (State.hitchGrant s o n ab) := by
  unfold State.hitchGrant
  repeat' with_reducible first | assumption | apply State.setWait_keeps | apply State.hitchGive_keeps | apply State.emit_keeps

theorem State.hitchFree_keeps {s : State} (n : Nat) (ab : Bool) (h : Keeps r s) : Keeps r (State.hitchFree s n ab) := by
  unfold State.hitchFree
  repeat' with_reducible first
      | assumption | apply State.hitchGrant_keeps | apply State.setAband_keeps | fail_if_no_progress apply keeps_mk | split
      | extract_lets

theorem State.hitTake_keeps {s : State} (w : Writer) (n : Nat) (h : Keeps r s) : Keeps r (State.hitTake s w n) := by
  unfold State.hitTake
  repeat' with_reducible first
      | assumption | apply State.ret_keeps | apply State.hitchGive_keeps | apply State.setAband_keeps | split

theorem execHitTake_keeps (w : Writer) (n : Fin 256) {s : State} (h : Keeps r s) : KeepsOut r (execHitTake w n s) := by
  unfold execHitTake
  repeat' with_reducible first | assumption | apply State.hitTake_keeps | apply keeps_done

theorem State.hitRelease_keeps {s : State} (w : Writer) (n : Nat) (rel : Bool) (h : Keeps r s) : Keeps r
    (State.hitRelease s w n rel) := by
  unfold State.hitRelease
  repeat' with_reducible first | assumption | apply State.hitchFree_keeps | apply State.emit_keeps | split

theorem execHitRelease_keeps (w : Writer) (n : Fin 256) (rel : Bool) {s : State} (h : Keeps r s) : KeepsOut r
    (execHitRelease w n rel s) := by
  unfold execHitRelease
  repeat' with_reducible first | assumption | apply State.hitRelease_keeps | apply keeps_done

theorem State.dropWait_keeps {s : State} (o : Nat) (h : Keeps r s) : Keeps r (State.dropWait s o) := by
  unfold State.dropWait
  repeat' with_reducible first | assumption | fail_if_no_progress apply keeps_mk

theorem State.hitWait_keeps {s : State} (w : Writer) (slot : Nat) (n : Nat) (tmo : Nat) (h : Keeps r s) : Keeps r
    (State.hitWait s w slot n tmo) := by
  unfold State.hitWait
  repeat' with_reducible first
      | assumption | apply State.wr_keeps | apply State.emit_keeps | apply State.setWait_keeps | apply State.hitOrder_keeps
      | apply State.hitchGrant_keeps | apply State.setAband_keeps | fail_if_no_progress apply keeps_mk | split | extract_lets

theorem execHitWait_keeps (w : Writer) (slot : Fin 10) (n : Fin 256) (tmo : BitVec 20) {s : State} (h : Keeps r s) : KeepsOut r
    (execHitWait w slot n tmo s) := by
  unfold execHitWait
  repeat' with_reducible first | assumption | apply State.hitWait_keeps | apply keeps_done

theorem execHitWaitCancel_keeps (w : Writer) (slot : Fin 10) {s : State} (h : Keeps r s) : KeepsOut r
    (execHitWaitCancel w slot s) := by
  unfold execHitWaitCancel
  repeat' with_reducible first | assumption | apply State.setWait_keeps | apply State.dropWait_keeps | apply keeps_done | split

theorem execHitWaitTimeout_keeps (slot : Fin 10) {s : State} (h : Keeps r s) : KeepsOut r (execHitWaitTimeout slot s) := by
  unfold execHitWaitTimeout
  repeat' with_reducible first
      | assumption | apply State.setWait_keeps | apply State.dropWait_keeps | apply State.advanceRun_keeps
      | apply State.emit_keeps | apply keeps_done | split

theorem State.hitWaitZero_keeps {s : State} (w : Writer) (slot : Nat) (n : Nat) (h : Keeps r s) : Keeps r
    (State.hitWaitZero s w slot n) := by
  unfold State.hitWaitZero
  repeat' with_reducible first
      | assumption | apply State.wr_keeps | apply State.setWait_keeps | apply State.dropWait_keeps | split | extract_lets

theorem execHitWaitRead_keeps (w : Writer) (slot : Fin 10) {s : State} (h : Keeps r s) : KeepsOut r
    (execHitWaitRead w slot s) := by
  unfold execHitWaitRead
  repeat' with_reducible first | assumption | apply State.ret_keeps | apply State.setWait_keeps | apply keeps_done | split

theorem State.epochUp_keeps {s : State} (o : Nat) (h : Keeps r s) : Keeps r (State.epochUp s o) := by
  unfold State.epochUp
  repeat' with_reducible first
      | assumption | intro _ | apply State.inc_keeps | apply State.setWait_keeps | apply State.dropWait_keeps
      | apply State.hitchFree_keeps | apply State.emit_keeps | apply keeps_foldl | split

theorem execOwnerEpochIncrement_keeps (slot : Fin 10) {s : State} (h : Keeps r s) : KeepsOut r
    (execOwnerEpochIncrement slot s) := by
  unfold execOwnerEpochIncrement
  repeat' with_reducible first | assumption | apply State.epochUp_keeps | apply keeps_done

theorem State.hitSoftReset_keeps {s : State} (h : Keeps r s) : Keeps r (State.hitSoftReset s) := by
  unfold State.hitSoftReset
  repeat' with_reducible first
      | assumption | intro _ | apply State.setAband_keeps | apply State.setWait_keeps | fail_if_no_progress apply keeps_mk
      | apply keeps_foldl

/-! ### Reset -/

theorem State.countReset_keeps {s : State} (c : Nat) (h : Keeps r s) : Keeps r (State.countReset s c) := by
  unfold State.countReset
  repeat' with_reducible first | assumption | fail_if_no_progress apply keeps_mk

theorem State.drawChal_keeps {s : State} (h : Keeps r s) : Keeps r (State.drawChal s) := by
  unfold State.drawChal
  repeat' with_reducible first | assumption | apply State.draw_keeps | apply State.wr_keeps

theorem State.norErase_keeps {s : State} (a : Nat) (b : Nat) (h : Keeps r s) : Keeps r (State.norErase s a b) := by
  unfold State.norErase
  exact keeps_mem h rfl id id id id id (fun w => wf_keep (p := fun k => decide (k < a) || decide (b ≤ k)) w)

theorem State.updAbort_keeps {s : State} (h : Keeps r s) : Keeps r (State.updAbort s) := by
  unfold State.updAbort
  repeat' with_reducible first
      | assumption | apply State.wr_keeps | apply State.norErase_keeps | apply State.wb_keeps
      | fail_if_no_progress apply keeps_mk | split

theorem State.clearSys_keeps {s : State} (hold : Nat) (h : Keeps r s) : Keeps r (State.clearSys s hold) := by
  unfold State.clearSys
  extract_lets r1 m t t2 pins s0 s1
  have h1 : Keeps r s1 := keeps_mem h rfl (fun _ => rfl) (fun _ => rfl) (fun _ => rfl) id id wf_aborted
  refine State.wb_keeps _ _ _ ?_
  show Keeps r (if hold = 4 then s1 else _)
  split
  · exact h1
  · refine keeps_foldl (fun s x hs => ?_) h1
    exact State.wb_keeps _ _ _ (State.wb_keeps _ _ _ (State.wb_keeps _ _ _ hs))

theorem State.resetSys_keeps {s : State} (c : Nat) (hold : Nat) (h : Keeps r s) : Keeps r (State.resetSys s c hold) := by
  unfold State.resetSys
  repeat' with_reducible first
      | assumption | apply State.drawChal_keeps | apply State.countReset_keeps | apply State.wr_keeps
      | apply State.clearSys_keeps

theorem State.bootStart_keeps {s : State} (h : Keeps r s) : Keeps r (State.bootStart s) := by
  unfold State.bootStart
  repeat' with_reducible first
      | assumption | apply State.newNonce_keeps | apply State.emit_keeps | apply State.wr_keeps
      | fail_if_no_progress apply keeps_mk

theorem State.restart_keeps {s : State} (c : Nat) (h : Keeps r s) : Keeps r (State.restart s c) := by
  unfold State.restart
  repeat' with_reducible first | assumption | apply State.bootStart_keeps | apply State.resetSys_keeps

theorem State.updHalt_keeps {s : State} (h : Keeps r s) : Keeps r (State.updHalt s) := by
  unfold State.updHalt
  repeat' with_reducible first | assumption | apply State.wr_keeps | fail_if_no_progress apply keeps_mk | split

theorem State.mssReset_keeps {s : State} (c : Nat) (hold : Nat) (h : Keeps r s) : Keeps r (State.mssReset s c hold) := by
  unfold State.mssReset
  repeat' with_reducible first
      | assumption | apply State.epochUp_keeps | apply State.updAbort_keeps | apply State.updHalt_keeps
      | apply State.clearRange_keeps | apply State.countReset_keeps | apply State.wr_keeps | apply State.bootStart_keeps
      | fail_if_no_progress apply keeps_mk | split

theorem execPowerOnReset_keeps {s : State} (h : Keeps r s) : KeepsOut r (execPowerOnReset s) := by
  unfold execPowerOnReset
  exact keeps_done
      (State.drawChal_keeps (State.countReset_keeps _ (keeps_mem h rfl (fun _ => rfl) (fun _ => rfl) (fun _ => rfl) id id wf_aborted)))

theorem execResetNAssert_keeps {s : State} (h : Keeps r s) : KeepsOut r (execResetNAssert s) := by
  unfold execResetNAssert
  repeat' with_reducible first | assumption | apply State.resetSys_keeps | apply keeps_done | split

theorem execResetRelease_keeps (pfailLow : Bool) (recoveryLow : Bool) {s : State} (h : Keeps r s) : KeepsOut r
    (execResetRelease pfailLow recoveryLow s) := by
  unfold execResetRelease
  repeat' with_reducible first
      | assumption | apply State.bootStart_keeps | apply keeps_done | fail_if_no_progress apply keeps_mk | split

theorem execSysResetGo_keeps (w : Writer) {s : State} (h : Keeps r s) : KeepsOut r (execSysResetGo w s) := by
  unfold execSysResetGo
  repeat' with_reducible first | assumption | apply State.restart_keeps | apply keeps_done | split

theorem execPciReset_keeps (kind : Fin 4) {s : State} (h : Keeps r s) : KeepsOut r (execPciReset kind s) := by
  unfold execPciReset
  repeat' with_reducible first
      | assumption | apply State.epochUp_keeps | apply State.emit_keeps | apply State.clearRange_keeps | apply State.wr_keeps
      | apply State.countReset_keeps | apply keeps_done | fail_if_no_progress apply keeps_mk

theorem State.selfTestRecords_keeps {s : State} (l : List Nat) (h : Keeps r s) : Keeps r (State.selfTestRecords s l) := by
  unfold State.selfTestRecords
  repeat' with_reducible first | assumption | intro _ | apply State.draw_keeps | apply State.emit_keeps | apply keeps_foldl

theorem State.fenceSet_keeps {s : State} (t : SelfTest) (dmcFenced : Nat) (h : Keeps r s) : Keeps r
    (State.fenceSet s t dmcFenced) := by
  unfold State.fenceSet
  repeat' with_reducible first | assumption | apply State.wr_keeps

theorem State.capsSet_keeps {s : State} (t : SelfTest) (dmcFenced : Nat) (degraded : Bool) (h : Keeps r s) : Keeps r
    (State.capsSet s t dmcFenced degraded) := by
  unfold State.capsSet
  repeat' with_reducible first | assumption | apply State.wr_keeps | apply State.wb_keeps

theorem State.entriesFence_keeps {s : State} (t : SelfTest) (h : Keeps r s) : Keeps r (State.entriesFence s t) := by
  unfold State.entriesFence
  repeat' with_reducible first | assumption | intro _ | apply State.wb_keeps | apply keeps_foldl

theorem State.dmcInService_keeps {s : State} (n : Nat) (pos : Nat) (h : Keeps r s) : Keeps r (State.dmcInService s n pos) := by
  unfold State.dmcInService
  repeat' with_reducible first
      | assumption | apply State.dmcDeg_keeps | apply State.setDm_keeps | apply State.dmcLock_keeps | apply State.wr_keeps
      | apply State.wb_keeps | apply State.cnt_keeps

theorem execNodeWrite_keeps (w : Writer) (v : Word) {s : State} (h : Keeps r s) : KeepsOut r (execNodeWrite w v s) := by
  unfold execNodeWrite
  repeat' with_reducible first
      | assumption | apply State.lockedWrite_keeps | apply State.wb_keeps | apply State.claimSet_keeps
      | apply State.ykDown_keeps | apply State.setFields_keeps | apply keeps_done | split | extract_lets

/-! ### Update -/

theorem State.norPut_keeps {s : State} (a : Nat) (l : List Nat) (h : Keeps r s) : Keeps r (State.norPut s a l) := by
  refine keeps_mem h rfl id id id id id fun w => ?_
  have hk : ∀ (l : List (Nat × Nat)) (m : Mem), Memory.wfD 0xFF m = true →
      Memory.wfD 0xFF (l.foldl (fun m x => Mem.writeD 0xFF m (a + x.2) (BitVec.ofNat 8 x.1)) m) = true := by
    intro l
    induction l with
    | nil => exact fun m hm => hm
    | cons x t ih => exact fun m hm => ih _ (Mem.wfD_writeD hm _ _)
  exact hk _ _ w

theorem State.updReply_keeps {s : State} (r0 : UpdReq) (typ : Nat) (code : Nat) (data : List Nat) (h : Keeps r s) : Keeps r
    (State.updReply s r0 typ code data) := by
  unfold State.updReply
  repeat' with_reducible first | assumption | apply State.netDatagram_keeps | apply State.emitOut_keeps | split

theorem State.updRefuse_keeps {s : State} (r0 : UpdReq) (typ : Nat) (code : Nat) (h : Keeps r s) : Keeps r
    (State.updRefuse s r0 typ code) := by
  unfold State.updRefuse
  repeat' with_reducible first | assumption | apply State.updReply_keeps | apply State.emit_keeps | apply State.wr_keeps

theorem execUpdateOpen_keeps (r0 : UpdReq) {s : State} (h : Keeps r s) : KeepsOut r (execUpdateOpen r0 s) := by
  unfold execUpdateOpen
  repeat' with_reducible first
      | assumption | apply State.updRefuse_keeps | apply State.wb_keeps | apply State.norErase_keeps | apply State.wr_keeps
      | apply State.updReply_keeps | apply keeps_done | fail_if_no_progress apply keeps_mk | split

theorem execSlotEraseDone_keeps {s : State} (h : Keeps r s) : KeepsOut r (execSlotEraseDone s) := by
  unfold execSlotEraseDone
  repeat' with_reducible first | assumption | apply State.wr_keeps | apply keeps_done | split

theorem State.keepReply_keeps {s : State} (r0 : UpdReq) (c : Nat) (h : Keeps r s) : Keeps r (State.keepReply s r0 c) := by
  unfold State.keepReply
  repeat' with_reducible first | assumption | fail_if_no_progress apply keeps_mk | split

theorem State.blockTake_keeps {s : State} (r0 : UpdReq) (h : Keeps r s) : Keeps r (State.blockTake s r0) := by
  unfold State.blockTake
  repeat' with_reducible first
      | assumption | apply State.keepReply_keeps | apply State.updRefuse_keeps | apply State.wb_keeps
      | apply State.updReply_keeps | fail_if_no_progress apply keeps_mk | split

theorem execUpdateBlock_keeps (r0 : UpdReq) {s : State} (h : Keeps r s) : KeepsOut r (execUpdateBlock r0 s) := by
  unfold execUpdateBlock
  repeat' with_reducible first
      | assumption | apply State.updReply_keeps | apply State.blockTake_keeps | apply keeps_done | split

theorem execBlockWriteDone_keeps {s : State} (h : Keeps r s) : KeepsOut r (execBlockWriteDone s) := by
  unfold execBlockWriteDone
  repeat' with_reducible first
      | assumption | apply State.norPut_keeps | apply State.wb_keeps | apply State.wr_keeps | apply keeps_done
      | fail_if_no_progress apply keeps_mk | split

theorem execUpdateClose_keeps (r0 : UpdReq) {s : State} (h : Keeps r s) : KeepsOut r (execUpdateClose r0 s) := by
  unfold execUpdateClose
  repeat' with_reducible first
      | assumption | apply State.updRefuse_keeps | apply State.updReply_keeps | apply State.wr_keeps | apply keeps_done | split

theorem State.updOver_keeps {s : State} (st : Nat) (h : Keeps r s) : Keeps r (State.updOver s st) := by
  unfold State.updOver
  repeat' with_reducible first | assumption | apply State.wr_keeps | fail_if_no_progress apply keeps_mk

theorem execVerifyDone_keeps (norOk : Bool) {s : State} (h : Keeps r s) : KeepsOut r (execVerifyDone norOk s) := by
  unfold execVerifyDone
  repeat' with_reducible first
      | assumption | apply State.emit_keeps | apply State.wr_keeps | apply State.updOver_keeps | apply State.wb_keeps
      | apply keeps_done | split

theorem execUpdateAbort_keeps (r0 : UpdReq) {s : State} (h : Keeps r s) : KeepsOut r (execUpdateAbort r0 s) := by
  unfold execUpdateAbort
  repeat' with_reducible first
      | assumption | apply State.updRefuse_keeps | apply State.updReply_keeps | apply State.updAbort_keeps | apply keeps_done
      | split

theorem execUpdateStatus_keeps (r0 : UpdReq) {s : State} (h : Keeps r s) : KeepsOut r (execUpdateStatus r0 s) := by
  unfold execUpdateStatus
  repeat' with_reducible first | assumption | apply State.updReply_keeps | apply keeps_done | split

theorem execUpdateActivate_keeps (r0 : UpdReq) (norOk : Bool) {s : State} (h : Keeps r s) : KeepsOut r
    (execUpdateActivate r0 norOk s) := by
  unfold execUpdateActivate
  repeat' with_reducible first
      | assumption | apply State.updRefuse_keeps | apply State.wr_keeps | apply State.norPut_keeps | apply State.norErase_keeps
      | apply State.emit_keeps | apply State.claimSet_keeps | apply State.updReply_keeps | apply keeps_done
      | fail_if_no_progress apply keeps_mk | split

theorem execActivateGraceExpire_keeps {s : State} (h : Keeps r s) : KeepsOut r (execActivateGraceExpire s) := by
  unfold execActivateGraceExpire
  repeat' with_reducible first
      | assumption | apply State.restart_keeps | apply State.advanceRun_keeps | apply keeps_done | split

theorem execUpdateRecover_keeps (w : Writer) {s : State} (h : Keeps r s) : KeepsOut r (execUpdateRecover w s) := by
  unfold execUpdateRecover
  repeat' with_reducible first
      | assumption | apply State.resetSys_keeps | apply State.bootStart_keeps | apply keeps_done
      | fail_if_no_progress apply keeps_mk | split

theorem execSlotCopyDone_keeps (fail : Option (Fin 3)) {s : State} (h : Keeps r s) : KeepsOut r (execSlotCopyDone fail s) := by
  unfold execSlotCopyDone
  extract_lets v len s1 body s2
  refine keeps_done (keeps_ite h ?_)
  have h1 : Keeps r s1 := State.wr_keeps _ _ _ h
  split
  · exact State.emit_keeps _ _ _ (State.norErase_keeps _ _ h1)
  · exact State.emit_keeps _ _ _ (State.wr_keeps _ _ _ (State.norErase_keeps _ _ (keeps_mem h1 rfl id id id id id copied_wf)))

theorem State.copySeen_keeps {s : State} (h : Keeps r s) : Keeps r (State.copySeen s) := by
  unfold State.copySeen
  repeat' with_reducible first | assumption | apply State.draw_keeps | apply State.wr_keeps | split

theorem State.drvEpochs_keeps {s : State} (h : Keeps r s) : Keeps r (State.drvEpochs s) := by
  unfold State.drvEpochs
  repeat' with_reducible first | assumption | intro _ | apply State.epochUp_keeps | apply keeps_foldl

theorem State.drvLoad_keeps {s : State} (b : Nat) (e : PkgEntry) (hh : Nat) (h : Keeps r s) : Keeps r
    (State.drvLoad s b e hh) := by
  unfold State.drvLoad
  repeat' with_reducible first | assumption | apply State.hwWrite_keeps

theorem execUpdateHandover_keeps (w : Writer) {s : State} (h : Keeps r s) : KeepsOut r (execUpdateHandover w s) := by
  unfold execUpdateHandover
  repeat' with_reducible first
      | assumption | apply State.updRefuse_keeps | apply State.emit_keeps | apply State.wr_keeps | apply State.drvLoad_keeps
      | apply keeps_done | fail_if_no_progress apply keeps_mk | split

theorem State.drvInterrupts_keeps {s : State} (h : Keeps r s) : Keeps r (State.drvInterrupts s) := by
  unfold State.drvInterrupts
  repeat' with_reducible first | assumption | intro _ | apply State.draw_keeps | apply State.emitOut_keeps | apply keeps_foldl

theorem execHandoverInterrupt_keeps {s : State} (h : Keeps r s) : KeepsOut r (execHandoverInterrupt s) := by
  unfold execHandoverInterrupt
  repeat' with_reducible first
      | assumption | apply State.drvInterrupts_keeps | apply State.advanceTo_keeps | apply keeps_done
      | fail_if_no_progress apply keeps_mk | split

theorem State.hoOver_keeps {s : State} (h : Keeps r s) : Keeps r (State.hoOver s) := by
  unfold State.hoOver
  repeat' with_reducible first | assumption | apply State.wr_keeps | fail_if_no_progress apply keeps_mk

theorem execHandoverReady_keeps (w : Writer) {s : State} (h : Keeps r s) : KeepsOut r (execHandoverReady w s) := by
  unfold execHandoverReady
  repeat' with_reducible first
      | assumption | apply State.wr_keeps | apply State.drvEpochs_keeps | apply State.hoOver_keeps | apply State.emit_keeps
      | apply keeps_done | fail_if_no_progress apply keeps_mk | split

theorem execHandoverTimeout_keeps {s : State} (h : Keeps r s) : KeepsOut r (execHandoverTimeout s) := by
  unfold execHandoverTimeout
  repeat' with_reducible first
      | assumption | apply State.advanceTo_keeps | apply State.wr_keeps | apply State.hoOver_keeps | apply State.emit_keeps
      | apply State.drvEpochs_keeps | apply keeps_done | split

/-! ### Farrier -/

theorem State.farLoad_keeps {s : State} (l : List Nat) (h : Keeps r s) : Keeps r (State.farLoad s l) := by
  unfold State.farLoad
  repeat' with_reducible first | assumption | intro _ | apply State.wr_keeps | apply keeps_foldl

theorem State.farStart_keeps {s : State} (t : Nat) (h : Keeps r s) : Keeps r (State.farStart s t) := by
  unfold State.farStart
  repeat' with_reducible first | assumption | apply State.wb_keeps | apply State.draw_keeps | fail_if_no_progress apply keeps_mk

theorem State.farOver_keeps {s : State} (h : Keeps r s) : Keeps r (State.farOver s) := by
  unfold State.farOver
  repeat' with_reducible first
      | assumption | apply State.wb_keeps | apply State.farStart_keeps | fail_if_no_progress apply keeps_mk | split
      | extract_lets

theorem State.farReject_keeps {s : State} (t : Nat) (cause : Nat) (idx : Nat) (dif : Nat) (h : Keeps r s) : Keeps r
    (State.farReject s t cause idx dif) := by
  unfold State.farReject
  repeat' with_reducible first | assumption | apply State.emit_keeps | apply State.cnt_keeps

theorem State.farFallback_keeps {s : State} (t : Nat) (h : Keeps r s) : Keeps r (State.farFallback s t) := by
  unfold State.farFallback
  repeat' with_reducible first | assumption | apply State.wr_keeps | apply State.farLoad_keeps | split

theorem State.farAbandon_keeps {s : State} (h : Keeps r s) : Keeps r (State.farAbandon s) := by
  unfold State.farAbandon
  repeat' with_reducible first
      | assumption | apply State.farOver_keeps | apply State.wb_keeps | apply State.farFallback_keeps
      | apply State.farReject_keeps | split

theorem execFarrierTriggerCheck_keeps {s : State} (h : Keeps r s) : KeepsOut r (execFarrierTriggerCheck s) := by
  unfold execFarrierTriggerCheck
  repeat' with_reducible first | assumption | apply State.farStart_keeps | apply keeps_done | split

theorem execFarrierRunRequest_keeps (_w : Writer) {s : State} (h : Keeps r s) : KeepsOut r (execFarrierRunRequest _w s) := by
  unfold execFarrierRunRequest
  repeat' with_reducible first | assumption | apply State.wb_keeps | apply State.farStart_keeps | apply keeps_done | split

theorem State.farAccept_keeps {s : State} (t : Nat) (l : List (Nat × Nat)) (h : Keeps r s) : Keeps r
    (State.farAccept s t l) := by
  unfold State.farAccept
  repeat' with_reducible first
      | assumption | intro _ | apply State.wr_keeps | apply State.wr64_keeps | apply State.cnt_keeps | apply State.emit_keeps
      | apply keeps_foldl

theorem State.farJudge_keeps {s : State} (t : Nat) (a : List Nat) (b : List Nat) (vrefBad : Bool) (crefBad : Bool)
    (h : Keeps r s) : Keeps r (State.farJudge s t a b vrefBad crefBad) := by
  unfold State.farJudge
  repeat' with_reducible first
      | assumption | apply State.wr_keeps | apply State.farFallback_keeps | apply State.farReject_keeps
      | apply State.farAccept_keeps | split | dsimp +zetaDelta only

theorem execFarrierRunEnd_keeps (a : List Nat) (b : List Nat) (vrefBad : Bool) (crefBad : Bool) {s : State} (h : Keeps r s)
    : KeepsOut r (execFarrierRunEnd a b vrefBad crefBad s) := by
  unfold execFarrierRunEnd
  repeat' with_reducible first | assumption | apply State.farOver_keeps | apply State.farJudge_keeps | apply keeps_done | split

theorem execFarrierValueWrite_keeps (w : Writer) (i : Fin 192) (v : Word) {s : State} (h : Keeps r s) : KeepsOut r
    (execFarrierValueWrite w i v s) := by
  unfold execFarrierValueWrite
  repeat' with_reducible first | assumption | apply State.emit_keeps | apply State.wr_keeps | apply keeps_done | split

/-! ### Sag -/

theorem State.nvmPut_keeps {s : State} (a : Nat) (l : List Nat) (h : Keeps r s) : Keeps r (State.nvmPut s a l) := by
  exact keeps_mem h rfl id id id id (fun w => Mem.wf_putBytes w _ _) id

theorem State.mirrorWrite_keeps {s : State} (a : Nat) (a2 : Nat) (h : Keeps r s) : Keeps r (State.mirrorWrite s a a2) := by
  induction a2 generalizing s a
  all_goals unfold State.mirrorWrite
  all_goals
    repeat' with_reducible first | apply_assumption | apply State.nvmPut_keeps | split

theorem State.mirrorMark_keeps {s : State} (a : Nat) (n : Nat) (h : Keeps r s) : Keeps r (State.mirrorMark s a n) := by
  unfold State.mirrorMark
  repeat' with_reducible first | assumption | fail_if_no_progress apply keeps_mk

theorem State.nvmPower_keeps {s : State} (on : Bool) (h : Keeps r s) : Keeps r (State.nvmPower s on) := by
  unfold State.nvmPower
  repeat' with_reducible first | assumption | fail_if_no_progress apply keeps_mk

theorem State.sagSave_keeps {s : State} (h : Keeps r s) : Keeps r (State.sagSave s).2.2 := by
  unfold State.sagSave
  repeat' with_reducible first
      | assumption | apply State.nvmPut_keeps | apply State.mirrorMark_keeps | apply State.mirrorWrite_keeps

theorem State.sagIdle_keeps {s : State} (e : Nat) (l : Nat) (h : Keeps r s) : Keeps r (State.sagIdle s e l) := by
  unfold State.sagIdle
  repeat' with_reducible first | assumption | apply State.blQueue_keeps | split

theorem State.sagDetect_keeps {s : State} (cause : Nat) (sensor : Nat) (h : Keeps r s) : Keeps r
    (State.sagDetect s cause sensor) := by
  unfold State.sagDetect
  repeat' with_reducible first
      | assumption | intro _ | apply State.claimSet_keeps | apply State.sagIdle_keeps | apply State.nvmPower_keeps
      | apply State.updAbort_keeps | apply State.farAbandon_keeps | apply State.emit_keeps | apply State.wr64_keeps
      | apply State.cnt_keeps | apply State.wr_keeps | fail_if_no_progress apply keeps_mk | apply keeps_foldl | split

theorem execSagDetect_keeps (rail : Option (Fin 15)) {s : State} (h : Keeps r s) : KeepsOut r (execSagDetect rail s) := by
  unfold execSagDetect
  repeat' with_reducible first | assumption | apply State.sagDetect_keeps | apply keeps_done | split

theorem execSagTail_keeps {s : State} (h : Keeps r s) : KeepsOut r (execSagTail s) := by
  unfold execSagTail
  repeat' with_reducible first
      | assumption | apply State.clearSys_keeps | apply State.advanceRun_keeps | apply keeps_done
      | fail_if_no_progress apply keeps_mk | split

theorem execSaveDone_keeps (us : Nat) (resp : Bool) {s : State} (h : Keeps r s) : KeepsOut r (execSaveDone us resp s) := by
  unfold execSaveDone
  repeat' with_reducible first
      | assumption | apply State.wr_keeps | apply State.wb_keeps | apply State.nvmPower_keeps | apply State.advanceRun_keeps
      | apply State.emit_keeps | apply State.sagSave_keeps | apply keeps_done | fail_if_no_progress apply keeps_mk | split

theorem execSagRestart_keeps {s : State} (h : Keeps r s) : KeepsOut r (execSagRestart s) := by
  unfold execSagRestart
  repeat' with_reducible first
      | assumption | apply State.restart_keeps | apply State.wr_keeps | apply State.advanceRun_keeps | apply keeps_done
      | fail_if_no_progress apply keeps_mk | split

theorem execVholdCollapse_keeps {s : State} (h : Keeps r s) : KeepsOut r (execVholdCollapse s) := by
  unfold execVholdCollapse
  exact keeps_done (keeps_mem h rfl (fun _ => rfl) (fun _ => rfl) (fun _ => rfl) id id wf_aborted)

theorem execVholdChargeChange_keeps (mv : Nat) {s : State} (h : Keeps r s) : KeepsOut r (execVholdChargeChange mv s) := by
  unfold execVholdChargeChange
  repeat' with_reducible first | assumption | apply State.wb_keeps | apply keeps_done | split

theorem execMirrorBatch_keeps (resp : Bool) (how : BatchEnd) {s : State} (h : Keeps r s) : KeepsOut r
    (execMirrorBatch resp how s) := by
  unfold execMirrorBatch
  repeat' with_reducible first
      | assumption | intro _ | apply State.mirrorMark_keeps | apply State.emit_keeps | apply State.wb_keeps
      | apply State.nvmPower_keeps | apply State.nvmPut_keeps | apply State.mirrorWrite_keeps | apply keeps_done
      | apply keeps_foldl | split

/-! ### Live -/

theorem State.rcRead_keeps {s : State} (a : Nat) (h : Keeps r s) : Keeps r (State.rcRead s a) := by
  unfold State.rcRead
  repeat' with_reducible first | assumption | intro _ | apply State.ret_keeps | apply State.wr_keeps | apply keeps_foldl | split

theorem State.latchRead_keeps {s : State} (a : Nat) (h : Keeps r s) : Keeps r (State.latchRead s a) := by
  unfold State.latchRead
  repeat' with_reducible first | assumption | apply State.ret_keeps | fail_if_no_progress apply keeps_mk | split | extract_lets

/-! ### Power -/

theorem State.setLock_keeps {s : State} (k : Nat) (on : Bool) (h : Keeps r s) : Keeps r (State.setLock s k on) := by
  unfold State.setLock
  repeat' with_reducible first | assumption | apply State.pllAnew_keeps | apply State.wr_keeps

theorem State.wakeClocks_keeps {s : State} (h : Keeps r s) : Keeps r (State.wakeClocks s) := by
  unfold State.wakeClocks
  repeat' with_reducible first
      | assumption | intro _ | apply State.clockEdge_keeps | apply State.wb_keeps | apply State.wr_keeps
      | fail_if_no_progress apply keeps_mk | apply keeps_foldl | split

theorem execDevicePllLock_keeps (k : Fin 16) {s : State} (h : Keeps r s) : KeepsOut r (execDevicePllLock k s) := by
  unfold execDevicePllLock
  repeat' with_reducible first
      | assumption | apply State.setLock_keeps | apply State.wakeClocks_keeps | apply State.dmcLock_keeps | apply keeps_done
      | split | extract_lets

theorem execPllFail_keeps (k : Fin 16) {s : State} (h : Keeps r s) : KeepsOut r (execPllFail k s) := by
  unfold execPllFail
  repeat' with_reducible first
      | assumption | apply State.emit_keeps | apply keeps_done | fail_if_no_progress apply keeps_mk | split

theorem execCodecPllIdleStop_keeps {s : State} (h : Keeps r s) : KeepsOut r (execCodecPllIdleStop s) := by
  unfold execCodecPllIdleStop
  repeat' with_reducible first
      | assumption | apply State.setLock_keeps | apply State.advanceRun_keeps | apply keeps_done
      | fail_if_no_progress apply keeps_mk | split

theorem execRefClockChange_keeps (i : Fin 4) (found : Bool) {s : State} (h : Keeps r s) : KeepsOut r
    (execRefClockChange i found s) := by
  unfold execRefClockChange
  repeat' with_reducible first | assumption | apply State.emit_keeps | apply State.wb_keeps | apply keeps_done | split

theorem State.droversHeld_keeps {s : State} (h : Keeps r s) : Keeps r (State.droversHeld s) := by
  unfold State.droversHeld
  repeat' with_reducible first
      | assumption | intro _ | apply State.epochUp_keeps | apply State.setLock_keeps | fail_if_no_progress apply keeps_mk
      | apply keeps_foldl

theorem execStableRequest_keeps (_w : Writer) {s : State} (h : Keeps r s) : KeepsOut r (execStableRequest _w s) := by
  unfold execStableRequest
  repeat' with_reducible first
      | assumption | apply State.emit_keeps | apply State.droversHeld_keeps | apply State.wr_keeps | apply State.wb_keeps
      | apply keeps_done | fail_if_no_progress apply keeps_mk | split

theorem State.quadStop_keeps {s : State} (q : Nat) (h : Keeps r s) : Keeps r (State.quadStop s q) := by
  unfold State.quadStop
  repeat' with_reducible first
      | assumption | intro _ | apply State.wr_keeps | apply State.wb_keeps | apply State.lnQuiet_keeps
      | fail_if_no_progress apply keeps_mk | apply keeps_foldl

theorem execStabled_keeps {s : State} (h : Keeps r s) : KeepsOut r (execStabled s) := by
  unfold execStabled
  repeat' with_reducible first
      | assumption | intro _ | apply State.srEnter_keeps | apply State.tokensDone_keeps | apply State.quadStop_keeps
      | apply State.matrixOff_keeps | apply State.wr_keeps | apply State.setTbState_keeps | apply State.wb_keeps
      | apply State.emit_keeps | apply keeps_done | apply keeps_ite | fail_if_no_progress apply keeps_mk | apply keeps_foldl

theorem execWakeRequest_keeps (_w : Writer) {s : State} (h : Keeps r s) : KeepsOut r (execWakeRequest _w s) := by
  unfold execWakeRequest
  repeat' with_reducible first | assumption | apply State.wake_keeps | apply keeps_done

theorem execWakeAlarm_keeps {s : State} (h : Keeps r s) : KeepsOut r (execWakeAlarm s) := by
  unfold execWakeAlarm
  repeat' with_reducible first
      | assumption | apply State.wake_keeps | apply State.advanceTo_keeps | apply keeps_done
      | fail_if_no_progress apply keeps_mk | split

theorem execWakeComplete_keeps {s : State} (h : Keeps r s) : KeepsOut r (execWakeComplete s) := by
  unfold execWakeComplete
  repeat' with_reducible first
      | assumption | intro _ | apply State.wakeClocks_keeps | apply State.setLock_keeps | apply State.srLeave_keeps
      | apply State.lnRefresh_keeps | apply State.matrixWake_keeps | apply State.emit_keeps | apply State.wr_keeps
      | apply State.emitOut_keeps | apply keeps_done | apply keeps_foldl | split | extract_lets

/-! ### Pcie -/

theorem execPcieLinkChange_keeps (up : Bool) (speed : Fin 5) (width : Fin 9) {s : State} (h : Keeps r s) : KeepsOut r
    (execPcieLinkChange up speed width s) := by
  unfold execPcieLinkChange
  repeat' with_reducible first
      | assumption | apply State.wr_keeps | apply State.wb_keeps | apply State.emit_keeps | apply keeps_done | split

theorem execPcieCompletionTimeout_keeps (tag : Fin 1024) {s : State} (h : Keeps r s) : KeepsOut r
    (execPcieCompletionTimeout tag s) := by
  unfold execPcieCompletionTimeout
  repeat' with_reducible first
      | assumption | intro _ | apply State.answer_keeps | apply keeps_done | fail_if_no_progress apply keeps_mk
      | apply keeps_foldl

theorem State.dmaFabric_keeps {s : State} (k : AccKind) (a : Nat) (len : Nat) (data : List Nat) (h : Keeps r s) : Keeps r
    (State.dmaFabric s k a len data).2.2 := by
  unfold State.dmaFabric
  extract_lets s1
  have h1 : Keeps r s1 := keeps_ite (State.cvuSnoop_keeps _ _ _ h) h
  clear_value s1
  split
  rename_i tt b tg _
  extract_lets s2 gen x deny r1 r2 r3
  have h2 : Keeps r s2 := keeps_ite (State.portRun_keeps _ (State.tagReady_keeps _ h1)) (State.tagReady_keeps _ h1)
  clear_value deny gen s2
  split
  · exact State.guardViolate_keeps _ _ _ _ _ _ _ _ _ h2
  · split
    · exact State.dramPerform_keeps _ _ (State.hwEnter_keeps _ _ _ h2)
    · split
      · exact State.loftPerform_keeps _ h2
      · split
        · exact keeps_mem h2 rfl id id (memPerform_wf _ _) id id id
        · split
          · exact keeps_mem h2 rfl id id id (memPerform_wf _ _) id id
          · split
            · exact h2
            · exact State.emit_keeps _ _ _ h2

theorem State.dmaPiece_keeps {s : State} (host : Bool) (k : AccKind) (a : Nat) (len : Nat) (data : List Nat) (h : Keeps r s)
    : Keeps r (State.dmaPiece s host k a len data).2.2 := by
  unfold State.dmaPiece
  split
  · exact State.dmaFabric_keeps _ _ _ _ h
  · split
    · exact h
    · split
      · exact keeps_mem h rfl id id id (fun w => Mem.wf_putBytes w _ _) id id
      · exact h

theorem State.dmaWrite_keeps {s : State} (host : Bool) (a : Nat) (data : List Nat) (a4 : List (Nat × Nat)) (h : Keeps r s)
    : Keeps r (State.dmaWrite s host a data a4).2 := by
  induction a4 generalizing s
  · exact h
  · rename_i x t ih
    unfold State.dmaWrite
    extract_lets r1
    have hr : Keeps r r1.2.2 := State.dmaPiece_keeps _ _ _ _ _ h
    clear_value r1
    split
    · exact ih hr
    · exact hr

theorem State.dmaCopy_keeps {s : State} (srcHost : Bool) (dstHost : Bool) (src : Nat) (dst : Nat) (a : List (Nat × Nat))
    (h : Keeps r s) : Keeps r (State.dmaCopy s srcHost dstHost src dst a).2 := by
  induction a generalizing s
  · exact h
  · rename_i x t ih
    unfold State.dmaCopy
    extract_lets r1 d w
    have hr : Keeps r r1.2.2 := State.dmaPiece_keeps _ _ _ _ _ h
    have hw : Keeps r w.2 := State.dmaWrite_keeps _ _ _ _ hr
    clear_value w
    clear_value r1
    split
    · exact hr
    · split
      · exact hw
      · exact ih hw

theorem State.dmaBusy_keeps {s : State} (h : Keeps r s) : Keeps r (State.dmaBusy s) := by
  unfold State.dmaBusy
  repeat' with_reducible first | assumption | apply State.wb_keeps

theorem execDmaTailWrite_keeps (_w : Writer) (idx : BitVec 16) {s : State} (h : Keeps r s) : KeepsOut r
    (execDmaTailWrite _w idx s) := by
  unfold execDmaTailWrite
  repeat' with_reducible first | assumption | apply State.dmaBusy_keeps | apply State.wr_keeps | apply keeps_done

theorem State.dmaStop_keeps {s : State} (i : Nat) (code : Nat) (a : Nat) (h : Keeps r s) : Keeps r
    (State.dmaStop s i code a) := by
  unfold State.dmaStop
  repeat' with_reducible first | assumption | apply State.emit_keeps | apply State.dmaBusy_keeps | apply State.wb_keeps

theorem execDmaDescriptorDone_keeps {s : State} (h : Keeps r s) : KeepsOut r (execDmaDescriptorDone s) := by
  unfold execDmaDescriptorDone
  repeat' with_reducible first
      | assumption | apply State.dmaFabric_keeps | apply State.dmaStop_keeps | apply State.dmaCopy_keeps
      | apply State.dmaBusy_keeps | apply State.inc_keeps | apply State.emit_keeps | apply keeps_done | split | extract_lets

theorem execDmaResume_keeps (_w : Writer) {s : State} (h : Keeps r s) : KeepsOut r (execDmaResume _w s) := by
  unfold execDmaResume
  repeat' with_reducible first
      | assumption | apply State.dmaBusy_keeps | apply State.inc_keeps | apply State.wb_keeps | apply keeps_done | split

/-! ### Enable -/

theorem State.netEnable_keeps {s : State} (w : Writer) (n : Nat) (h : Keeps r s) : Keeps r (State.netEnable s w n) := by
  unfold State.netEnable
  repeat' with_reducible first
      | assumption | (apply State.ownCheck_keeps; assumption) | apply State.emit_keeps | apply State.commitNow_keeps
      | apply State.wb_keeps | apply State.useSet_keeps | apply State.lnRefresh_keeps | split | extract_lets

theorem State.netDisable_keeps {s : State} (n : Nat) (h : Keeps r s) : Keeps r (State.netDisable s n) := by
  unfold State.netDisable
  repeat' with_reducible first
      | assumption | apply State.wb_keeps | apply State.netLink_keeps | apply State.useSet_keeps | apply State.lnRefresh_keeps
      | apply keeps_ite

theorem State.ykEnable_keeps {s : State} (w : Writer) (h : Keeps r s) : Keeps r (State.ykEnable s w) := by
  unfold State.ykEnable
  repeat' with_reducible first
      | assumption | (apply State.ownCheck_keeps; assumption) | apply State.wb_keeps | apply State.useSet_keeps
      | apply State.wr_keeps | apply State.claimShown_keeps | apply State.yk_keeps | apply State.lnRefresh_keeps
      | apply State.ykState_keeps | apply keeps_ite | split

theorem State.ykDisable_keeps {s : State} (h : Keeps r s) : Keeps r (State.ykDisable s) := by
  unfold State.ykDisable
  repeat' with_reducible first
      | assumption | apply State.ykDown_keeps | apply State.wb_keeps | apply State.useSet_keeps | apply State.lnRefresh_keeps
      | apply State.ykState_keeps | split

theorem State.codecNote_keeps {s : State} (h : Keeps r s) : Keeps r (State.codecNote s) := by
  unfold State.codecNote
  repeat' with_reducible first | assumption | fail_if_no_progress apply keeps_mk

theorem State.slicesRelease_keeps {s : State} (e : Nat) (h : Keeps r s) : Keeps r (State.slicesRelease s e) := by
  unfold State.slicesRelease
  repeat' with_reducible first | assumption | apply State.useSet_keeps

theorem State.blkStart_keeps {s : State} (w : Writer) (b : Blk) (i : Nat) (h : Keeps r s) : Keeps r
    (State.blkStart s w b i) := by
  unfold State.blkStart
  repeat' with_reducible first
      | assumption | apply State.wb_keeps | apply State.headEnable_keeps | apply State.blEnable_keeps
      | apply State.lnEnable_keeps | apply State.cvuEnable_keeps | apply State.tchEnable_keeps | apply State.netEnable_keeps
      | apply State.ykEnable_keeps | apply State.codecNote_keeps | apply State.useSet_keeps | split

theorem State.blkStop_keeps {s : State} (b : Blk) (i : Nat) (h : Keeps r s) : Keeps r (State.blkStop s b i) := by
  unfold State.blkStop
  repeat' with_reducible first
      | assumption | intro _ | apply State.wb_keeps | apply State.headDisable_keeps | apply State.blDisable_keeps
      | apply State.lnDisable_keeps | apply State.cvuDisable_keeps | apply State.tchDisable_keeps | apply State.netDisable_keeps
      | apply State.ykDisable_keeps | apply State.feedDisable_keeps | apply State.codecNote_keeps
      | apply State.slicesRelease_keeps | apply State.setWait_keeps | fail_if_no_progress apply keeps_mk | apply keeps_foldl
      | split

theorem State.enableWrite_keeps {s : State} (w : Writer) (b : Blk) (i : Nat) (v : Bool) (h : Keeps r s) : Keeps r
    (State.enableWrite s w b i v) := by
  unfold State.enableWrite
  repeat' with_reducible first
      | assumption | apply State.blkStop_keeps | apply State.enableFenced_keeps | apply State.blkStart_keeps
      | apply State.guardBump_keeps | apply keeps_ite

theorem State.missed_keeps {s : State} (w : Writer) (k : AccKind) (a : Nat) (h : Keeps r s) : Keeps r
    (State.missed s w k a) := by
  unfold State.missed
  repeat' with_reducible first | assumption | apply State.missRecord_keeps | split

theorem State.missedWrite_keeps {s : State} (w : Writer) (a : Nat) (v : Nat) (h : Keeps r s) : Keeps r
    (State.missedWrite s w a v) := by
  unfold State.missedWrite
  repeat' with_reducible first | assumption | apply State.missed_keeps | apply State.fencedTry_keeps | split

theorem execEnableWrite_keeps (w : Writer) (page : BitVec 26) (v : Bool) {s : State} (h : Keeps r s) : KeepsOut r
    (execEnableWrite w page v s) := by
  unfold execEnableWrite
  repeat' with_reducible first
      | assumption | apply State.enableWrite_keeps | apply State.missedWrite_keeps | apply keeps_done | split

theorem State.cmpAbandon_keeps {s : State} (e : Nat) (h : Keeps r s) : Keeps r (State.cmpAbandon s e) := by
  unfold State.cmpAbandon
  repeat' with_reducible first
      | assumption | intro _ | apply State.epochRelease_keeps | apply State.setCv_keeps | apply keeps_foldl

theorem State.partsFail_keeps {s : State} (l : List Part) (h : Keeps r s) : Keeps r (State.partsFail s l) := by
  unfold State.partsFail
  repeat' with_reducible first | assumption | intro _ | apply State.answer_keeps | apply keeps_foldl

theorem State.xbSoftReset_keeps {s : State} (h : Keeps r s) : Keeps r (State.xbSoftReset s) := by
  unfold State.xbSoftReset
  repeat' with_reducible first
      | assumption | intro _ | apply State.partsFail_keeps | apply State.closeDenial_keeps | fail_if_no_progress apply keeps_mk
      | apply keeps_foldl | split

theorem State.dmcSoftReset_keeps {s : State} (n : Nat) (h : Keeps r s) : Keeps r (State.dmcSoftReset s n) := by
  unfold State.dmcSoftReset
  repeat' with_reducible first
      | assumption | intro _ | apply State.partsFail_keeps | apply State.wr_keeps | apply State.wb_keeps
      | apply State.setDm_keeps | fail_if_no_progress apply keeps_mk | apply keeps_foldl

theorem State.gateSoftReset_keeps {s : State} (e : Nat) (h : Keeps r s) : Keeps r (State.gateSoftReset s e) := by
  unfold State.gateSoftReset
  repeat' with_reducible first | assumption | fail_if_no_progress apply keeps_mk

theorem State.tbSoftReset_keeps {s : State} (h : Keeps r s) : Keeps r (State.tbSoftReset s) := by
  unfold State.tbSoftReset
  repeat' with_reducible first
      | assumption | intro _ | apply State.toDrive_keeps | apply State.setTout_keeps | apply State.wb_keeps
      | fail_if_no_progress apply keeps_mk | apply keeps_foldl | split

theorem State.softOwn_keeps {s : State} (w : Writer) (b : Blk) (i : Nat) (h : Keeps r s) : Keeps r (State.softOwn s w b i) := by
  unfold State.softOwn
  repeat' with_reducible first
      | assumption | intro _ | apply State.hitSoftReset_keeps | apply State.baySoftReset_keeps
      | apply State.decAbandonSnoop_keeps | apply State.cmpAbandon_keeps | apply State.chEnd_keeps
      | apply State.farAbandon_keeps | apply State.updAbort_keeps | apply State.setCvu_keeps | apply State.claimSet_keeps
      | apply State.dmaBusy_keeps | apply State.wb_keeps | apply State.xbSoftReset_keeps | apply State.dmcSoftReset_keeps
      | apply State.gateSoftReset_keeps | apply State.tbSoftReset_keeps | apply keeps_foldl | split

theorem State.softReset_keeps {s : State} (w : Writer) (b : Blk) (i : Nat) (h : Keeps r s) : Keeps r
    (State.softReset s w b i) := by
  unfold State.softReset
  repeat' with_reducible first
      | assumption | apply State.softOwn_keeps | apply State.blkStop_keeps | apply State.wr_keeps | apply State.guardBump_keeps
      | split

theorem execSoftReset_keeps (w : Writer) (page : BitVec 26) (_en : Bool) {s : State} (h : Keeps r s) : KeepsOut r
    (execSoftReset w page _en s) := by
  unfold execSoftReset
  repeat' with_reducible first | assumption | apply State.softReset_keeps | apply State.missed_keeps | apply keeps_done | split

theorem execPageLock_keeps (w : Writer) (page : BitVec 26) {s : State} (h : Keeps r s) : KeepsOut r
    (execPageLock w page s) := by
  unfold execPageLock
  repeat' with_reducible first | assumption | apply State.wb_keeps | apply State.missed_keeps | apply keeps_done | split

/-! ### Mss -/

theorem State.functionsOff_keeps {s : State} (h : Keeps r s) : Keeps r (State.functionsOff s) := by
  unfold State.functionsOff
  repeat' with_reducible first
      | assumption | intro _ | apply State.blkStop_keeps | apply State.guardBump_keeps | apply State.dmaBusy_keeps
      | apply State.wb_keeps | apply State.droversHeld_keeps | apply keeps_ite | apply keeps_foldl

theorem State.recoveryNet_keeps {s : State} (h : Keeps r s) : Keeps r (State.recoveryNet s) := by
  unfold State.recoveryNet
  repeat' with_reducible first | assumption | apply State.wr_keeps | apply State.netEnable_keeps | split | extract_lets

theorem State.enterRecovery_keeps {s : State} (h : Keeps r s) : Keeps r (State.enterRecovery s) := by
  unfold State.enterRecovery
  repeat' with_reducible first
      | assumption | intro _ | apply State.functionsOff_keeps | apply State.claimSet_keeps | apply State.wb_keeps
      | apply State.ownWrite_keeps | apply State.recoveryNet_keeps | fail_if_no_progress apply keeps_mk | apply keeps_foldl

theorem State.verifyFail_keeps {s : State} (code : Nat) (typ : Nat) (h : Keeps r s) : Keeps r
    (State.verifyFail s code typ) := by
  unfold State.verifyFail
  repeat' with_reducible first | assumption | apply State.enterRecovery_keeps | apply State.emit_keeps

theorem State.silence_keeps {s : State} (h : Keeps r s) : Keeps r (State.silence s) := by
  unfold State.silence
  repeat' with_reducible first
      | assumption | intro _ | apply State.resetFields_keeps | apply State.toRelease_keeps | apply State.setTout_keeps
      | apply State.wb_keeps | fail_if_no_progress apply keeps_mk | apply keeps_foldl

theorem State.selfTest_keeps {s : State} (t : SelfTest) (h : Keeps r s) : Keeps r (State.selfTest s t) := by
  unfold State.selfTest
  repeat' with_reducible first
      | assumption | intro _ | apply State.silence_keeps | apply State.enterRecovery_keeps | apply State.selfTestRecords_keeps
      | apply State.fenceSet_keeps | apply State.entriesFence_keeps | apply State.capsSet_keeps | apply State.dmcInService_keeps
      | apply keeps_foldl | split | extract_lets

theorem execSelfTestDone_keeps (t : SelfTest) {s : State} (h : Keeps r s) : KeepsOut r (execSelfTestDone t s) := by
  unfold execSelfTestDone
  repeat' with_reducible first | assumption | apply State.selfTest_keeps | apply keeps_done | split

theorem State.mssWrite_keeps {s : State} (p : Nat) (l : List Fld) (off : Nat) (v : Nat) (h : Keeps r s) : Keeps r
    (State.mssWrite s p l off v) := by
  unfold State.mssWrite
  repeat' with_reducible first | assumption | apply State.lockedWrite_keeps | apply State.setFields_keeps | split

theorem State.boardApply_keeps {s : State} (l : List Nat) (h : Keeps r s) : Keeps r (State.boardApply s l) := by
  unfold State.boardApply
  repeat' with_reducible first
      | assumption | intro _ | apply State.wb_keeps | apply State.mssWrite_keeps | apply State.ownWrite_keeps
      | fail_if_no_progress apply keeps_mk | apply keeps_foldl | split

theorem State.restoreRecs_keeps {s : State} (a : Nat) (a2 : Nat) (h : Keeps r s) : Keeps r (State.restoreRecs s a a2) := by
  induction a2 generalizing s a
  all_goals unfold State.restoreRecs
  all_goals
    repeat' with_reducible first | apply_assumption

theorem State.restoreCounters_keeps {s : State} (h : Keeps r s) : Keeps r (State.restoreCounters s) := by
  unfold State.restoreCounters
  repeat' with_reducible first | assumption | apply State.cnt_keeps | apply State.wr_keeps | fail_if_no_progress apply keeps_mk

theorem State.restoreImage_keeps {s : State} (h : Keeps r s) : Keeps r (State.restoreImage s) := by
  unfold State.restoreImage
  repeat' with_reducible first
      | assumption | apply State.wr_keeps | apply State.restoreRecs_keeps | apply State.dbkAppend_keeps
      | apply State.restoreCounters_keeps | apply State.emit_keeps | fail_if_no_progress apply keeps_mk | apply keeps_foldl
      | split

theorem State.stageTo_keeps {s : State} (n : Nat) (h : Keeps r s) : Keeps r (State.stageTo s n) := by
  unfold State.stageTo
  repeat' with_reducible first | assumption | apply State.wr_keeps

theorem State.stage1_keeps {s : State} (h : Keeps r s) : Keeps r (State.stage1 s) := by
  unfold State.stage1
  repeat' with_reducible first
      | assumption | apply State.stageTo_keeps | apply State.wr_keeps | apply State.wb_keeps | apply State.enterRecovery_keeps
      | split

theorem State.stage2_keeps {s : State} (h : Keeps r s) : Keeps r (State.stage2 s) := by
  unfold State.stage2
  repeat' with_reducible first
      | assumption | apply State.verifyFail_keeps | apply State.boardApply_keeps | apply State.stageTo_keeps
      | fail_if_no_progress apply keeps_mk | split

theorem State.codeProtect_keeps {s : State} (h : Keeps r s) : Keeps r (State.codeProtect s) := by
  unfold State.codeProtect
  repeat' with_reducible first
      | assumption | intro _ | apply State.guardRuleWrite_keeps | apply State.wb_keeps | apply keeps_foldl

theorem State.stage3_keeps {s : State} (h : Keeps r s) : Keeps r (State.stage3 s) := by
  unfold State.stage3
  repeat' with_reducible first
      | assumption | apply State.verifyFail_keeps | apply State.stageTo_keeps | apply State.codeProtect_keeps
      | apply State.wr_keeps | apply State.drvLoad_keeps | fail_if_no_progress apply keeps_mk | split

theorem State.stage4_keeps {s : State} (ok : Bool) (h : Keeps r s) : Keeps r (State.stage4 s ok) := by
  unfold State.stage4
  repeat' with_reducible first
      | assumption | apply State.wb_keeps | apply State.nvmPower_keeps | apply State.restoreImage_keeps
      | apply State.stageTo_keeps | apply State.farStart_keeps | fail_if_no_progress apply keeps_mk | split | extract_lets

theorem State.stage5_keeps {s : State} (h : Keeps r s) : Keeps r (State.stage5 s) := by
  unfold State.stage5
  repeat' with_reducible first
      | assumption | apply State.yk_keeps | apply State.stageTo_keeps | apply State.wr_keeps | split | extract_lets

theorem execMssBootStage_keeps (ok : Bool) {s : State} (h : Keeps r s) : KeepsOut r (execMssBootStage ok s) := by
  unfold execMssBootStage
  repeat' with_reducible first
      | assumption | apply State.silence_keeps | apply State.enterRecovery_keeps | apply State.stageTo_keeps
      | apply State.stage1_keeps | apply State.stage2_keeps | apply State.stage3_keeps | apply State.stage4_keeps
      | apply State.stage5_keeps | apply keeps_done | split

theorem State.drvCodeOk_keeps {s : State} (h : Keeps r s) : Keeps r (State.drvCodeOk s).2 := by
  unfold State.drvCodeOk
  split
  · extract_lets r1
    suffices hl : ∀ (l : List (Nat × Nat)) (q : Bool × List Nat × State), Keeps r q.2.2 → Keeps r
        (l.foldl (fun (a : Bool × List Nat × State) x =>
        let q := (a.2.2.hwEnter 1 x.1 x.2).dramRead 1 x.1 x.2 none fun _ => false
        (a.1 && decide (q.1 = 0), a.2.1 ++ q.2.1, q.2.2)) q).2.2 from hl _ _ h
    intro l
    induction l with
    | nil => exact fun q hq => hq
    | cons y t ih => exact fun q hq => ih _ (State.dramRead_keeps _ _ _ _ _ (State.hwEnter_keeps _ _ _ hq))
  · exact h

theorem execDroverRelease_keeps {s : State} (h : Keeps r s) : KeepsOut r (execDroverRelease s) := by
  unfold execDroverRelease
  repeat' with_reducible first
      | assumption | apply State.drvCodeOk_keeps | apply State.verifyFail_keeps | apply keeps_done
      | fail_if_no_progress apply keeps_mk | split

theorem execLockstep_keeps (a : Word) (b : Word) {s : State} (h : Keeps r s) : KeepsOut r (execLockstep a b s) := by
  unfold execLockstep
  repeat' with_reducible first
      | assumption | apply State.cnt_keeps | apply State.claimSet_keeps | apply State.emit_keeps | apply State.farAbandon_keeps
      | apply State.mssReset_keeps | apply keeps_done | fail_if_no_progress apply keeps_mk | split | extract_lets

theorem execMssWatchdogExpire_keeps {s : State} (h : Keeps r s) : KeepsOut r (execMssWatchdogExpire s) := by
  unfold execMssWatchdogExpire
  repeat' with_reducible first
      | assumption | apply State.advanceRun_keeps | apply State.mssReset_keeps | apply State.emit_keeps | apply keeps_done
      | split

theorem execWatchdogKick_keeps (w : Writer) {s : State} (h : Keeps r s) : KeepsOut r (execWatchdogKick w s) := by
  unfold execWatchdogKick
  repeat' with_reducible first | assumption | apply keeps_done | fail_if_no_progress apply keeps_mk | split

theorem State.tempShow_keeps {s : State} (i : Nat) (t : Nat) (h : Keeps r s) : Keeps r (State.tempShow s i t) := by
  unfold State.tempShow
  repeat' with_reducible first | assumption | apply State.wb_keeps | apply State.wr_keeps

theorem State.tempSample_keeps {s : State} (i : Nat) (t : Nat) (h : Keeps r s) : Keeps r (State.tempSample s i t) := by
  unfold State.tempSample
  repeat' with_reducible first
      | assumption | apply State.tempShow_keeps | apply State.wr_keeps | apply State.emit_keeps | apply State.sagDetect_keeps
      | apply keeps_ite | fail_if_no_progress apply keeps_mk

theorem State.voltSample_keeps {s : State} (i : Nat) (mv : Nat) (h : Keeps r s) : Keeps r (State.voltSample s i mv) := by
  unfold State.voltSample
  repeat' with_reducible first
      | assumption | apply State.wb_keeps | apply State.wr_keeps | apply State.emit_keeps | apply keeps_ite
      | fail_if_no_progress apply keeps_mk

theorem State.lifeSample_keeps {s : State} (hot : Int) (h : Keeps r s) : Keeps r (State.lifeSample s hot) := by
  unfold State.lifeSample
  repeat' with_reducible first | assumption | apply State.wr_keeps | fail_if_no_progress apply keeps_mk

theorem execSensorSample_keeps (temps : List Nat) (volts : List Nat) {s : State} (h : Keeps r s) : KeepsOut r
    (execSensorSample temps volts s) := by
  unfold execSensorSample
  repeat' with_reducible first
      | assumption | intro _ | apply State.tempShow_keeps | apply State.lifeSample_keeps | apply State.voltSample_keeps
      | apply State.tempSample_keeps | apply keeps_done | apply keeps_foldl | split

theorem execLogEmit_keeps (w : Writer) (code : BitVec 16) {s : State} (h : Keeps r s) : KeepsOut r (execLogEmit w code s) := by
  unfold execLogEmit
  repeat' with_reducible first | assumption | apply State.emit_keeps | apply keeps_done | split

theorem execDbkClear_keeps (w : Writer) {s : State} (h : Keeps r s) : KeepsOut r (execDbkClear w s) := by
  unfold execDbkClear
  repeat' with_reducible first
      | assumption | apply State.wr_keeps | apply State.emit_keeps | apply State.dbkAppend_keeps | apply keeps_done
      | fail_if_no_progress apply keeps_mk | split | extract_lets

/-! ### Receiver -/

theorem State.setRcv_keeps {s : State} (r0 : Nat) (x : RcvSt) (h : Keeps r s) : Keeps r (State.setRcv s r0 x) := by
  unfold State.setRcv
  repeat' with_reducible first | assumption | fail_if_no_progress apply keeps_mk

theorem execReceiverAlignAcquire_keeps (r0 : Fin 64) (input : Fin 2) (lane : LaneRate) {s : State} (h : Keeps r s) : KeepsOut r
    (execReceiverAlignAcquire r0 input lane s) := by
  unfold execReceiverAlignAcquire
  repeat' with_reducible first | assumption | apply State.setRcv_keeps | apply keeps_done | split

theorem execReceiverAlignLoss_keeps (hh : Fin 64) (input : Fin 2) (lane : Fin 4) {s : State} (h : Keeps r s) : KeepsOut r
    (execReceiverAlignLoss hh input lane s) := by
  unfold execReceiverAlignLoss
  repeat' with_reducible first | assumption | apply State.setRcv_keeps | apply keeps_done

theorem execReceiverPacket_keeps (hh : Fin 64) (input : Fin 2) (lane : Fin 4) (clean : Bool) (d : List Nat) {s : State}
    (h : Keeps r s) : KeepsOut r (execReceiverPacket hh input lane clean d s) := by
  unfold execReceiverPacket
  repeat' with_reducible first | assumption | apply State.setRcv_keeps | apply keeps_done | split

theorem execReceiverLinePresent_keeps (hh : Fin 64) {s : State} (h : Keeps r s) : KeepsOut r
    (execReceiverLinePresent hh s) := by
  unfold execReceiverLinePresent
  repeat' with_reducible first
      | assumption | apply State.advanceRun_keeps | apply State.emitOut_keeps | apply State.setRcv_keeps | apply keeps_done
      | split | extract_lets

theorem execReceiverLossTimeout_keeps (hh : Fin 64) {s : State} (h : Keeps r s) : KeepsOut r
    (execReceiverLossTimeout hh s) := by
  unfold execReceiverLossTimeout
  repeat' with_reducible first | assumption | apply State.setRcv_keeps | apply State.advanceRun_keeps | apply keeps_done | split

theorem execReceiverStatusSend_keeps (hh : Fin 64) {s : State} (h : Keeps r s) : KeepsOut r (execReceiverStatusSend hh s) := by
  unfold execReceiverStatusSend
  repeat' with_reducible first | assumption | apply State.emitOut_keeps | apply keeps_done

/-! ### Test -/

theorem execTestUnlock_keeps (w : Writer) (key : BitVec 16) {s : State} (h : Keeps r s) : KeepsOut r
    (execTestUnlock w key s) := by
  unfold execTestUnlock
  repeat' with_reducible first
      | assumption | apply State.emit_keeps | apply State.wb_keeps | apply keeps_done | fail_if_no_progress apply keeps_mk
      | split

theorem State.muxDrop_keeps {s : State} (k : Nat) (h : Keeps r s) : Keeps r (State.muxDrop s k) := by
  unfold State.muxDrop
  repeat' with_reducible first | assumption | apply State.wb_keeps | apply State.ballReturn_keeps | split

theorem execTestRelock_keeps (w : Writer) {s : State} (h : Keeps r s) : KeepsOut r (execTestRelock w s) := by
  unfold execTestRelock
  repeat' with_reducible first
      | assumption | apply State.wb_keeps | apply State.muxDrop_keeps | apply State.emit_keeps | apply State.drawChal_keeps
      | apply keeps_done | apply keeps_foldl | split

theorem execTestSeedWrite_keeps (_w : Writer) (v : Word) {s : State} (h : Keeps r s) : KeepsOut r
    (execTestSeedWrite _w v s) := by
  unfold execTestSeedWrite
  repeat' with_reducible first | assumption | apply State.wr_keeps | apply keeps_done | fail_if_no_progress apply keeps_mk

theorem execMuxTake_keeps (_w : Writer) (k : Fin 4) (ball : BitVec 8) (signal : BitVec 16) {s : State} (h : Keeps r s)
    : KeepsOut r (execMuxTake _w k ball signal s) := by
  unfold execMuxTake
  repeat' with_reducible first
      | assumption | apply State.emit_keeps | apply State.muxDrop_keeps | apply State.wr_keeps | apply State.ballTake_keeps
      | apply State.wb_keeps | apply keeps_done | split

theorem execMuxReturn_keeps (_w : Writer) (k : Fin 4) (ball : BitVec 8) (signal : BitVec 16) {s : State} (h : Keeps r s)
    : KeepsOut r (execMuxReturn _w k ball signal s) := by
  unfold execMuxReturn
  repeat' with_reducible first | assumption | apply State.muxDrop_keeps | apply State.wr_keeps | apply keeps_done

theorem execDebugRequest_keeps (k : AccKind) (addr : BitVec 40) (len : Nat) (data : List Nat) {s : State} (h : Keeps r s)
    : KeepsOut r (execDebugRequest k addr len data s) := by
  unfold execDebugRequest
  repeat' with_reducible first
      | assumption | apply State.fabricIssue_keeps | apply State.fabricIssueAt_keeps | apply keeps_done | split

/-! ### Registers -/

theorem State.ringStart_keeps {s : State} (p : Nat) (rpt : Bool) (h : Keeps r s) : Keeps r (State.ringStart s p rpt) := by
  unfold State.ringStart
  repeat' with_reducible first | assumption | apply State.wb_keeps | apply State.loftPutLE_keeps | apply State.loftPut_keeps

theorem State.ringEnable_keeps {s : State} (w : Writer) (p : Nat) (rpt : Bool) (v : Nat) (h : Keeps r s) : Keeps r
    (State.ringEnable s w p rpt v) := by
  unfold State.ringEnable
  repeat' with_reducible first
      | assumption | apply State.setFields_keeps | apply State.enableFenced_keeps | apply State.emit_keeps
      | apply State.ringStart_keeps | split | extract_lets

theorem State.ringWrite_keeps {s : State} (w : Writer) (p : Nat) (rpt : Bool) (v : Nat) (h : Keeps r s) : Keeps r
    (State.ringWrite s w p rpt v) := by
  unfold State.ringWrite
  repeat' with_reducible first
      | assumption | apply State.ringEnable_keeps | apply State.wb_keeps | apply State.setFields_keeps | split | extract_lets

theorem execRingEnable_keeps (w : Writer) (page : BitVec 26) (rpt : Bool) (v : Word) {s : State} (h : Keeps r s) : KeepsOut r
    (execRingEnable w page rpt v s) := by
  unfold execRingEnable
  repeat' with_reducible first | assumption | apply State.ringEnable_keeps | apply State.missed_keeps | apply keeps_done | split

theorem State.evtPendWrite_keeps {s : State} (p : Nat) (v : Nat) (h : Keeps r s) : Keeps r (State.evtPendWrite s p v) := by
  unfold State.evtPendWrite
  repeat' with_reducible first | assumption | apply State.wr_keeps | apply State.raisePage_keeps | split | extract_lets

theorem execEvtPendClear_keeps (w : Writer) (page : BitVec 26) (v : Word) {s : State} (h : Keeps r s) : KeepsOut r
    (execEvtPendClear w page v s) := by
  unfold execEvtPendClear
  repeat' with_reducible first
      | assumption | apply State.evtPendWrite_keeps | apply State.missed_keeps | apply keeps_done | split

theorem State.msixUnmask_keeps {s : State} (n : Nat) (h : Keeps r s) : Keeps r (State.msixUnmask s n) := by
  unfold State.msixUnmask
  repeat' with_reducible first
      | assumption | apply State.wb_keeps | apply State.raiseMsix_keeps | apply State.wr_keeps | split | extract_lets

theorem execMsixUnmask_keeps (_w : Writer) (vec : Fin 256) {s : State} (h : Keeps r s) : KeepsOut r
    (execMsixUnmask _w vec s) := by
  unfold execMsixUnmask
  repeat' with_reducible first | assumption | apply State.msixUnmask_keeps | apply keeps_done

theorem State.fieldWrite_keeps {s : State} (p : Nat) (v : Nat) (f : Fld) (h : Keeps r s) : Keeps r
    (State.fieldWrite s p v f) := by
  unfold State.fieldWrite
  repeat' with_reducible first | assumption | apply State.wr_keeps | split

theorem State.plainWrite_keeps {s : State} (w : Writer) (p : Nat) (off : Nat) (v : Nat) (l : List Fld) (frozen : Bool)
    (h : Keeps r s) : Keeps r (State.plainWrite s w p off v l frozen) := by
  unfold State.plainWrite
  repeat' with_reducible first
      | assumption | intro _ | apply State.fieldWrite_keeps | apply State.lockedWrite_keeps | apply keeps_foldl | split
      | extract_lets

theorem State.pinEn_keeps {s : State} (p : Nat) (f : Fld) (idx : Nat) (was : Bool) (h : Keeps r s) : Keeps r
    (State.pinEn s p f idx was) := by
  unfold State.pinEn
  repeat' with_reducible first
      | assumption | (apply State.ownCheck_keeps; assumption) | apply State.wb_keeps | split | extract_lets

theorem State.toutEn_keeps {s : State} (j : Nat) {t : State} (h : Keeps r s) (h1 : Keeps r t) : Keeps r
    (State.toutEn s j t) := by
  unfold State.toutEn
  repeat' with_reducible first
      | assumption | apply State.pinEn_keeps | apply State.toRelease_keeps | apply State.setTout_keeps | apply State.wb_keeps
      | apply State.toDrive_keeps | split | extract_lets

theorem State.tbAfter_keeps {s : State} {t : State} (off : Nat) (h : Keeps r s) (h1 : Keeps r t) : Keeps r
    (State.tbAfter s t off) := by
  unfold State.tbAfter
  repeat' with_reducible first
      | assumption | apply State.holdoverCheck_keeps | apply State.wb_keeps | apply State.pinEn_keeps | apply State.toutEn_keeps
      | fail_if_no_progress apply keeps_mk | split | extract_lets

theorem State.afterWrite_keeps {s : State} {t : State} (b : Blk) (i : Nat) (off : Nat) (h : Keeps r s) (h1 : Keeps r t)
    : Keeps r (State.afterWrite s t b i off) := by
  unfold State.afterWrite
  repeat' with_reducible first
      | assumption | apply State.raisePage_keeps | apply State.tbAfter_keeps | apply State.laneConfigured_keeps
      | apply State.wr_keeps | fail_if_no_progress apply keeps_mk | split | extract_lets

theorem State.regWrite_keeps {s : State} (w : Writer) (a : Nat) (v : Nat) (h : Keeps r s) : Keeps r
    (State.regWrite s w a v) := by
  unfold State.regWrite
  repeat' with_reducible first | assumption | apply State.plainWrite_keeps | apply State.afterWrite_keeps | split

theorem State.dmaRing_keeps {s : State} (w : Writer) (v : Nat) (h : Keeps r s) : Keeps r (State.dmaRing s w v) := by
  unfold State.dmaRing
  repeat' with_reducible first
      | assumption | apply State.setFields_keeps | apply State.dmaBusy_keeps | apply State.wb_keeps
      | apply State.enableFenced_keeps | apply keeps_ite

theorem State.ctrlWrite_keeps {s : State} (w : Writer) (b : Blk) (i : Nat) (v : Nat) (h : Keeps r s) : Keeps r
    (State.ctrlWrite s w b i v) := by
  unfold State.ctrlWrite
  repeat' with_reducible first
      | assumption | apply State.softReset_keeps | apply State.enableWrite_keeps | apply State.wb_keeps | split

theorem State.hdrRow_keeps {s : State} (w : Writer) (b : Blk) (i : Nat) (off : Nat) (v : Nat) (h : Keeps r s) : Keeps r
    (State.hdrRow s w b i off v) := by
  unfold State.hdrRow
  repeat' with_reducible first
      | assumption | apply State.ctrlWrite_keeps | apply State.evtPendWrite_keeps | apply State.ringWrite_keeps | split

theorem State.sysRow_keeps {s : State} (w : Writer) (off : Nat) (v : Nat) (h : Keeps r s) : Keeps r
    (State.sysRow s w off v) := by
  unfold State.sysRow
  repeat' with_reducible first
      | assumption | apply execNodeWrite_keeps | apply execSysResetGo_keeps | apply execWatchdogKick_keeps
      | apply execGpioWrite_keeps | apply keeps_nextOf | split

theorem State.ownRow_keeps {s : State} (w : Writer) (i : Nat) (off : Nat) (v : Nat) (h : Keeps r s) : Keeps r
    (State.ownRow s w i off v) := by
  unfold State.ownRow
  repeat' with_reducible first
      | assumption | apply State.ownWrite_keeps | apply execOwnEntryLock_keeps | apply keeps_nextOf | split | extract_lets

theorem State.mgmtRow_keeps {s : State} (w : Writer) (b : Blk) (off : Nat) (v : Nat) (h : Keeps r s) : Keeps r
    (State.mgmtRow s w b off v) := by
  unfold State.mgmtRow
  repeat' with_reducible first
      | assumption | apply execStableRequest_keeps | apply execWakeRequest_keeps | apply execLogEmit_keeps
      | apply execDbkClear_keeps | apply execFarrierRunRequest_keeps | apply execFarrierValueWrite_keeps | apply keeps_nextOf
      | split

theorem State.updRow_keeps {s : State} (w : Writer) (off : Nat) (v : Nat) (h : Keeps r s) : Keeps r
    (State.updRow s w off v) := by
  unfold State.updRow
  repeat' with_reducible first
      | assumption | apply execUpdateOpen_keeps | apply execUpdateClose_keeps | apply State.draw_keeps
      | apply execUpdateActivate_keeps | apply execUpdateAbort_keeps | apply execUpdateRecover_keeps
      | apply execUpdateHandover_keeps | apply execUpdateBlock_keeps | apply execHandoverReady_keeps | apply keeps_ite
      | apply keeps_nextOf

theorem State.stepLoWrite_keeps {s : State} (w : Writer) (v : Nat) (h : Keeps r s) : Keeps r (State.stepLoWrite s w v) := by
  unfold State.stepLoWrite
  repeat' with_reducible first | assumption | apply State.wrongWriter_keeps | fail_if_no_progress apply keeps_mk | split

theorem State.tbRow_keeps {s : State} (w : Writer) (off : Nat) (v : Nat) (h : Keeps r s) : Keeps r (State.tbRow s w off v) := by
  unfold State.tbRow
  repeat' with_reducible first
      | assumption | apply execTbRateWrite_keeps | apply State.stepLoWrite_keeps | apply execTimeStepRequest_keeps
      | apply execStepAccept_keeps | apply execStepDiscard_keeps | apply State.wrongWriter_keeps
      | apply execServoStateWrite_keeps | apply execTimeOutputArm_keeps | apply keeps_nextOf | split

theorem State.testRow_keeps {s : State} (w : Writer) (b : Blk) (off : Nat) (v : Nat) (h : Keeps r s) : Keeps r
    (State.testRow s w b off v) := by
  unfold State.testRow
  repeat' with_reducible first
      | assumption | apply State.dmaRing_keeps | apply execDmaTailWrite_keeps | apply execDmaResume_keeps
      | apply execTestRelock_keeps | apply execTestUnlock_keeps | apply execTestSeedWrite_keeps | apply execMuxTake_keeps
      | apply execMuxReturn_keeps | apply keeps_nextOf | split

theorem State.lockRow_keeps {s : State} (w : Writer) (b : Blk) (i : Nat) (off : Nat) (v : Nat) (h : Keeps r s) : Keeps r
    (State.lockRow s w b i off v) := by
  unfold State.lockRow
  repeat' with_reducible first
      | assumption | apply State.guardRuleWrite_keeps | apply execGuardRegionLock_keeps | apply State.wb_keeps
      | apply State.hitRelease_keeps | apply State.hitWaitZero_keeps | apply State.hitWait_keeps | apply keeps_nextOf | split
      | extract_lets

theorem State.dmcRow_keeps {s : State} (w : Writer) (i : Nat) (off : Nat) (v : Nat) (h : Keeps r s) : Keeps r
    (State.dmcRow s w i off v) := by
  unfold State.dmcRow
  repeat' with_reducible first
      | assumption | apply execSrEntryRequest_keeps | apply execSrExitRequest_keeps | apply execRetrainNow_keeps
      | apply execQosSlotSwapRequest_keeps | apply execDmcTokWrite_keeps | apply execQosSlotWrite_keeps | apply keeps_nextOf
      | split

theorem State.yardRow_keeps {s : State} (w : Writer) (b : Blk) (off : Nat) (v : Nat) (h : Keeps r s) : Keeps r
    (State.yardRow s w b off v) := by
  unfold State.yardRow
  repeat' with_reducible first
      | assumption | apply execLoftPartWrite_keeps | apply execBayForceFree_keeps | apply execBayFree_keeps
      | apply execBayEnlist_keeps | apply execApertureOpen_keeps | apply State.wr_keeps | apply execApertureClose_keeps
      | apply keeps_nextOf | split

theorem State.codecRow_keeps {s : State} (w : Writer) (b : Blk) (i : Nat) (off : Nat) (v : Nat) (h : Keeps r s) : Keeps r
    (State.codecRow s w b i off v) := by
  unfold State.codecRow
  repeat' with_reducible first
      | assumption | apply execDecSlotSwapRequest_keeps | apply execDecFlush_keeps | apply execDecSlotWrite_keeps
      | apply execEncChannelEnable_keeps | apply execCanvasCommit_keeps | apply keeps_nextOf | split

theorem State.linkRow_keeps {s : State} (w : Writer) (b : Blk) (i : Nat) (off : Nat) (v : Nat) (h : Keeps r s) : Keeps r
    (State.linkRow s w b i off v) := by
  unfold State.linkRow
  repeat' with_reducible first
      | assumption | apply execHeadCommit_keeps | apply execCrcHoldClear_keeps | apply execBlSchedSwapRequest_keeps
      | apply execBlSchedWrite_keeps | apply execInjectOne_keeps | apply execCvuDataWrite_keeps | apply execCvuDataBWrite_keeps
      | apply execCvuEnd_keeps | apply State.ringWrite_keeps | apply execYkLower_keeps | apply execYkSet_keeps
      | apply keeps_nextOf | split

theorem State.pageRow_keeps {s : State} (w : Writer) (b : Blk) (i : Nat) (off : Nat) (v : Nat) (h : Keeps r s) : Keeps r
    (State.pageRow s w b i off v) := by
  unfold State.pageRow
  repeat' with_reducible first
      | assumption | apply State.hdrRow_keeps | apply State.sysRow_keeps | apply State.ownRow_keeps | apply State.mgmtRow_keeps
      | apply State.updRow_keeps | apply State.tbRow_keeps | apply State.testRow_keeps | apply State.lockRow_keeps
      | apply State.dmcRow_keeps | apply State.yardRow_keeps | apply State.codecRow_keeps | apply State.linkRow_keeps
      | apply keeps_ite | split

theorem State.winRow_keeps {s : State} (w : Writer) (a : Nat) (v : Nat) (h : Keeps r s) : Keeps r (State.winRow s w a v) := by
  unfold State.winRow
  repeat' with_reducible first
      | assumption | apply State.wb_keeps | apply State.msixUnmask_keeps | apply State.feedDescWrite_keeps
      | apply State.feedEnable_keeps | apply State.feedDisable_keeps | apply State.bayDescWrite_keeps
      | apply State.stallWrite_keeps | split

theorem State.busWrite_keeps {s : State} (w : Writer) (a : Nat) (v : Nat) (h : Keeps r s) : Keeps r
    (State.busWrite s w a v) := by
  unfold State.busWrite
  repeat' with_reducible first
      | assumption | apply State.regWrite_keeps | apply State.pageRow_keeps | apply State.winRow_keeps | split

theorem execRegisterWrite_keeps (w : Writer) (addr : BitVec 26) (v : Word) {s : State} (h : Keeps r s) : KeepsOut r
    (execRegisterWrite w addr v s) := by
  unfold execRegisterWrite
  repeat' with_reducible first
      | assumption | apply State.missedWrite_keeps | apply State.errorResponse_keeps | apply State.busWrite_keeps
      | apply keeps_done | split

theorem State.readAt_keeps {s : State} (w : Writer) (a : Nat) (f : State → State) (hf : ∀ u, Keeps r u → Keeps r (f u))
    (h : Keeps r s) : Keeps r (State.readAt s w a f) := by
  unfold State.readAt
  split
  · exact State.ret_keeps _ (State.missed_keeps _ _ _ h)
  · split
    · exact State.ret_keeps _ (State.errorResponse_keeps _ _ _ h)
    · split
      · exact State.ret_keeps _ h
      · exact hf _ h

theorem execRcCounterRead_keeps (w : Writer) (addr : BitVec 26) {s : State} (h : Keeps r s) : KeepsOut r
    (execRcCounterRead w addr s) := by
  unfold execRcCounterRead
  exact keeps_done (State.readAt_keeps _ _ _ (fun _ h => State.rcRead_keeps _ h) h)

theorem execLatchingRead_keeps (w : Writer) (addr : BitVec 26) {s : State} (h : Keeps r s) : KeepsOut r
    (execLatchingRead w addr s) := by
  unfold execLatchingRead
  exact keeps_done (State.readAt_keeps _ _ _ (fun _ h => State.latchRead_keeps _ h) h)

theorem State.busRead_keeps {s : State} (w : Writer) (a : Nat) (h : Keeps r s) : Keeps r (State.busRead s w a) := by
  unfold State.busRead
  repeat' with_reducible first
      | assumption | apply State.ret_keeps | apply State.hitTake_keeps | apply execHitWaitRead_keeps | apply execBayAlloc_keeps
      | apply State.rcRead_keeps | apply State.copySeen_keeps | apply execTxqPop_keeps | apply execCvuResultPop_keeps
      | apply State.draw_keeps | apply State.latchRead_keeps | apply keeps_ite | apply keeps_nextOf | split

theorem State.busReads_keeps {s : State} (w : Writer) (a : Nat) (a3 : Nat) (h : Keeps r s) : Keeps r
    (State.busReads s w a a3).2 := by
  induction a3 generalizing s a
  all_goals unfold State.busReads
  all_goals
    repeat' with_reducible first | apply_assumption | apply State.busRead_keeps | apply keeps_ite

theorem State.busWrites_keeps {s : State} (w : Writer) (a : Nat) (d : List Nat) (a4 : Nat) (h : Keeps r s) : Keeps r
    (State.busWrites s w a d a4) := by
  induction a4 generalizing s a d
  all_goals unfold State.busWrites
  all_goals
    repeat' with_reducible first | apply_assumption | apply State.busWrite_keeps

theorem State.regPerform_keeps {s : State} (x : Part) (h : Keeps r s) : Keeps r (State.regPerform s x).2.2 := by
  unfold State.regPerform
  repeat' with_reducible first | assumption | apply State.busWrites_keeps | apply State.busReads_keeps | split

theorem State.servePart_keeps {s : State} (x : Part) (h : Keeps r s) : Keeps r (State.servePart s x) := by
  unfold State.servePart
  split
  · extract_lets f1 s1 r1
    have h1 : Keeps r s1 := keeps_mk h
    exact State.answer_keeps _ _ _ _ (State.perRuns_keeps _ (fun u y hu => State.regPerform_keeps _ hu) h1)
  · exact State.serveOuter_keeps _ h

theorem execFabricResponse_keeps (tag : Fin 1024) {s : State} (h : Keeps r s) : KeepsOut r (execFabricResponse tag s) := by
  unfold execFabricResponse
  repeat' with_reducible first
      | assumption | apply State.respond_keeps | apply State.servePart_keeps | apply keeps_done | apply keeps_foldl

end Sys2Proof.Machine
end

