-- ==== Sys2Proof/WellFormed.lean ====
section
/-! DEFINITION. Which commands are well formed: the operands that a command carries as numbers or lists fit the fields the spec
gives them. Operands that are registers, indices or addresses fit by their type. -/

namespace Sys2Proof

/-- Byte values only. -/
def isBytes (l : List Nat) : Bool := l.all fun x => decide (x < 256)

/-- A tag's fields fit the 56-bit metadata (R103). -/
def Tag.wf (t : Tag) : Bool :=
  decide (t.bay < 2 ^ 13) && decide (t.gen < 2 ^ 16) && decide (t.kind < 8) && decide (t.fseq < 2 ^ 16)

/-- An IP address fits its version. -/
def addrWf (v6 : Bool) (a : Nat) : Bool := decide (a < if v6 then 2 ^ 128 else 2 ^ 32)

/-- A datagram's ports fit 16 bits and its payload is bytes. -/
def Udp.wf (u : Udp) : Bool := decide (u.sport < 2 ^ 16) && decide (u.dport < 2 ^ 16) && isBytes u.payload

/-- A PTP message's fields fit their widths. -/
def PtpMsg.wf (m : PtpMsg) : Bool := decide (m.msgType < 16) && decide (m.domain < 256) && decide (m.seqId < 2 ^ 16)

/-- A membership query's version is one of the four (R199), and its addresses fit. -/
def Ask.wf : Ask → Bool
  | .query v g l => decide (v < 4) && decide (g < 2 ^ 128) && l.all fun a => decide (a < 2 ^ 128)
  | .nothing => true
  | .arp => true
  | .nd => true
  | .echo => true

/-- A frame's header fields fit their widths, and an untagged frame has VLAN 0 (R178). -/
def NetFrame.wf (f : NetFrame) : Bool :=
  decide (f.vlan < 4096) && (decide (f.tags ≠ 0) || decide (f.vlan = 0)) && decide (f.dmac < 2 ^ 48) &&
    addrWf f.v6 f.src && addrWf f.v6 f.dst && f.udp.all Udp.wf && f.ptp.all PtpMsg.wf && f.ask.wf && isBytes f.raw

/-- A coded picture is bytes, no slice segment has more than 31 of them before its units (R333), and the reconstruction's samples fit
8 bits. -/
def EncCoded.wf (c : EncCoded) : Bool :=
  (c.rows.all fun r => isBytes r.head && decide (r.head.length ≤ 31)) && isBytes c.psets && isBytes c.luma && isBytes c.chroma

/-- A SET_CLAIM message's port fits its width, and its bytes are bytes (R387). -/
def SetClaimMsg.wf (m : SetClaimMsg) : Bool := decide (m.dport < 2 ^ 16) && isBytes m.bytes

/-- An update request comes by one of the three paths, and its fields fit their widths (R427). -/
def UpdReq.wf (r : UpdReq) : Bool :=
  decide (r.path ≠ 0) && addrWf r.v6 r.src && decide (r.sport < 2 ^ 16) && decide (r.dport < 2 ^ 16) && isBytes r.bytes

/-- Whether a command is well formed. -/
def Instr.wf : Instr → Bool
  | .registerWrite _ _ _ => true
  | .rcCounterRead _ _ => true
  | .latchingRead _ _ => true
  | .enableWrite _ _ _ => true
  | .softReset _ _ _ => true
  | .pageLock _ _ => true
  | .evtPendClear _ _ _ => true
  | .ringEnable _ _ _ _ => true
  | .msixUnmask _ _ => true
  | .ownerWrite _ _ _ => true
  | .ownEntryLock _ _ => true
  | .selfTestDone _ => true
  | .nodeWrite _ _ => true
  | .fabricRequest _ _ k a len data tag => (data.all fun b => decide (b < 256) || (decide (k = .write) && decide (b = 256))) && tag.all Tag.wf && decide (data.length ≤ len) && reqShape k a.toNat len
  | .slotGrant _ => true
  | .fabricResponse _ => true
  | .guardRuleWrite _ _ _ _ => true
  | .guardDrained _ => true
  | .guardRegionLock _ _ _ => true
  | .hitTake _ _ => true
  | .hitRelease _ _ _ => true
  | .hitWait _ _ _ _ => true
  | .hitWaitCancel _ _ => true
  | .hitWaitTimeout _ => true
  | .hitWaitRead _ _ => true
  | .ownerEpochIncrement _ => true
  | .dmcTokenTake _ => true
  | .dmcCommandIssue _ => true
  | .dmcTokWrite _ _ _ _ => true
  | .refreshInterval _ => true
  | .refreshIssue _ _ _ => true
  | .mr4Poll _ _ => true
  | .dramInitDone _ => true
  | .srEntryRequest _ _ => true
  | .srEntry _ => true
  | .srExitRequest _ _ => true
  | .srExit _ => true
  | .retrainCheck _ => true
  | .retrainNow _ _ => true
  | .retrainStep _ _ => true
  | .scrubRead _ => true
  | .qosSlotWrite _ _ _ _ _ => true
  | .qosSlotSwapRequest _ _ => true
  | .qosSlotBoundary _ => true
  | .loftServe _ => true
  | .loftScrub _ => true
  | .loftPartWrite _ _ _ => true
  | .bayDescWrite _ _ _ _ => true
  | .bayEnlist _ _ _ => true
  | .bayAlloc _ _ => true
  | .bayFree _ _ _ => true
  | .bayForceFree _ _ _ => true
  | .apertureOpen _ _ _ _ => true
  | .apertureClose _ _ => true
  | .timeStepRequest _ _ => true
  | .stepAccept _ _ => true
  | .stepDiscard _ _ => true
  | .tbRateWrite _ _ => true
  | .servoStateWrite _ _ => true
  | .holdoverExpire => true
  | .sfdDetect _ _ => true
  | .entryLatch => true
  | .latencyCountSaturate _ => true
  | .txqPop _ => true
  | .tiCapture _ _ => true
  | .timeOutputArm _ _ => true
  | .timeOutputEdge _ => true
  | .timeOutputPulseEnd _ => true
  | .netFrameReceive _ fr _ => fr.wf
  | .netFrameTransmit _ bytes _ => isBytes bytes && decide (bytes.length ≤ 16383)
  | .unmatchedReply => true
  | .netLinkChange _ _ _ => true
  | .feedDescWrite _ _ _ _ => true
  | .feedEnable _ _ _ => true
  | .feedDisable _ _ _ => true
  | .rtpPacket _ => true
  | .auTimeout _ => true
  | .auAdmit _ => true
  | .senderReport _ => true
  | .receiverReportSend _ => true
  | .membershipReport _ _ => true
  | .membershipQuery => true
  | .feedSilent _ => true
  | .decPictureStart _ _ => true
  | .auRecordConsume _ => true
  | .decPictureDone _ _ => true
  | .candidateExpire _ => true
  | .decSlotWrite _ _ _ _ _ => true
  | .decSlotSwapRequest _ _ => true
  | .decFlush _ _ _ => true
  | .stallDescWrite _ _ _ _ => true
  | .canvasCommit _ _ _ => true
  | .epochCut _ _ => true
  | .epochCommit _ _ _ _ => true
  | .epochWritesDrain _ _ => true
  | .headCommit _ _ => true
  | .commitWindowClose _ => true
  | .frameStart _ => true
  | .endOfActive _ => true
  | .lineDue _ => true
  | .scanoutReadComplete _ => true
  | .headDisable _ _ => true
  | .crcHoldClear _ _ _ _ => true
  | .beljaPacketSend _ => true
  | .beljaIdleTimer _ _ => true
  | .blSchedWrite _ _ _ _ _ _ => true
  | .blSchedSwapRequest _ _ => true
  | .blLaneWrap _ => true
  | .receiverAlignAcquire _ _ lane => decide (2 ≤ lane.rate) && decide (lane.rate ≤ 5)
  | .receiverAlignLoss _ _ _ => true
  | .receiverPacket _ _ _ _ d => isBytes d
  | .receiverLinePresent _ => true
  | .receiverLossTimeout _ => true
  | .receiverStatusSend _ => true
  | .pllLocked _ _ => true
  | .pllLost _ _ => true
  | .pllRetry _ _ => true
  | .losChange _ _ => true
  | .patternCheckLock _ _ _ _ => true
  | .injectOne _ _ => true
  | .cvuDataWrite _ _ _ => true
  | .cvuDataBWrite _ _ _ => true
  | .cvuEnd _ _ => true
  | .cvuSnoopBlock _ _ => true
  | .cvuResultPop _ _ => true
  | .encChannelEnable _ _ _ _ => true
  | .tapRecordComplete _ _ => true
  | .encPictureStart _ => true
  | .encPictureDone _ c => c.wf
  | .encStreamSend _ _ _ _ => true
  | .scanFrameStart _ => true
  | .scanFrameEnd _ m _ _ => m.all fun x => decide (x < 2 ^ 16)
  | .keyFrame counts => counts.all fun x => decide (x < 2 ^ 16)
  | .ykLower _ _ => true
  | .ykSet _ _ => true
  | .yokeTrain _ => true
  | .yokeFrameReceive bytes fr => isBytes bytes && fr.all NetFrame.wf
  | .yokeAckTimer => true
  | .yokeReplayTimeout _ => true
  | .yokeSilenceTimeout => true
  | .yokeRetry => true
  | .yokeTimeSend => true
  | .yokeJoinStart => true
  | .fwdDrop => true
  | .mergeEmit => true
  | .mergeMarkSend => true
  | .checkHoldExpire => true
  | .samplesLost _ => true
  | .heartbeat => true
  | .setClaim m => m.all SetClaimMsg.wf
  | .mssBootStage _ => true
  | .lockstep _ _ => true
  | .mssWatchdogExpire => true
  | .watchdogKick _ => true
  | .sensorSample _ _ => true
  | .logEmit _ _ => true
  | .dbkClear _ => true
  | .sagDetect _ => true
  | .sagTail => true
  | .saveDone _ _ => true
  | .sagRestart => true
  | .vholdCollapse => true
  | .vholdChargeChange _ => true
  | .mirrorBatch _ _ => true
  | .farrierTriggerCheck => true
  | .farrierRunRequest _ => true
  | .farrierRunEnd a b _ _ => a.all (fun x => decide (x < 2 ^ 32)) && b.all fun x => decide (x < 2 ^ 32)
  | .farrierValueWrite _ _ _ => true
  | .updateOpen r => r.wf
  | .slotEraseDone => true
  | .updateBlock r => r.wf
  | .blockWriteDone => true
  | .updateClose r => r.wf
  | .verifyDone _ => true
  | .updateAbort r => r.wf
  | .updateActivate r _ => r.wf
  | .activateGraceExpire => true
  | .updateStatus r => r.wf
  | .updateRecover _ => true
  | .slotCopyDone _ => true
  | .updateHandover _ => true
  | .handoverInterrupt => true
  | .handoverReady _ => true
  | .handoverTimeout => true
  | .stableRequest _ => true
  | .stabled => true
  | .wakeRequest _ => true
  | .wakeAlarm => true
  | .wakeComplete => true
  | .droverRelease => true
  | .powerOnReset => true
  | .resetNAssert => true
  | .resetRelease _ _ => true
  | .sysResetGo _ => true
  | .pciReset _ => true
  | .pllFail _ => true
  | .refClockChange _ _ => true
  | .pcieLinkChange _ _ _ => true
  | .pcieCompletionTimeout _ => true
  | .dmaTailWrite _ _ => true
  | .dmaDescriptorDone => true
  | .dmaResume _ => true
  | .gpioWrite _ _ _ _ => true
  | .testUnlock _ _ => true
  | .testRelock _ => true
  | .testSeedWrite _ _ => true
  | .muxTake _ _ _ _ => true
  | .muxReturn _ _ _ _ => true
  | .debugRequest k a len data => isBytes data && decide (data.length ≤ len) && reqShape k a.toNat len
  | .slewAbsorbed => true
  | .feedDegradedLapse _ => true
  | .vminReached _ => true
  | .devicePllLock _ => true
  | .codecPllIdleStop => true
  | .cdrLockChange _ _ => true

end Sys2Proof
end

