-- ==== Sys2Proof/Tests/Slice0.lean ====
section
/-! SUPPORT. Tests: ill-formed commands are refused, states and operands that meet the hypotheses of the statements, and a few
single steps whose results stand in the spec's worked examples. -/

set_option autoImplicit false

namespace Sys2Proof.Tests

open Sys2Proof Sys2Proof.Machine

/-- The state after reset with some register fields set. -/
def st (l : List (Nat × Fld × Nat)) : State := l.foldl (fun s x => s.wr x.1 x.2.1 x.2.2) State.reset

/-! ### WellFormed: one ill-formed term per check -/

/-- A plain frame. -/
def frame0 : NetFrame :=
  { fcsOk := true, len := 64, tags := 0, vlan := 0, pause := false, frag := false, v6 := false, v6ext := false, dmac := 0, src := 0
    dst := 0, udp := none, ptp := none, ask := .nothing, raw := [] }

/-- An encoded picture with nothing in it. -/
def coded0 : EncCoded := { rows := [], psets := [], qpAvg := 0, luma := [], chroma := [] }

/-- A SET_CLAIM message. -/
def msg0 : SetClaimMsg := { net := 0, dport := 7960, bytes := [] }

/-- An update request over the UART. -/
def upd0 : UpdReq :=
  { path := 3, w := .mss, len := 0, port := 0, v6 := false, src := 0, sport := 0, dport := 0, bytes := [] }

theorem test_wf_accepts :
    (Instr.netFrameReceive 0 frame0 0).wf = true ∧ (Instr.encPictureDone 0 coded0).wf = true ∧
    (Instr.setClaim (some msg0)).wf = true ∧ (Instr.updateOpen upd0).wf = true := by decide

theorem test_wf_request_bytes : (Instr.fabricRequest 0 0 .write 0 4 [257] none).wf = false := by decide
theorem test_wf_request_enables : (Instr.fabricRequest 0 0 .write 0 4 [256] none).wf = true ∧
    (Instr.fabricRequest 0 0 .read 0 4 [256] none).wf = false := by decide
theorem test_wf_request_tag : (Instr.fabricRequest 0 0 .write 0 4 [1] (some ⟨8192, 0, 0, 0, false⟩)).wf = false := by decide
theorem test_wf_request_tag_gen : (Instr.fabricRequest 0 0 .write 0 4 [1] (some ⟨0, 65536, 0, 0, false⟩)).wf = false := by decide
theorem test_wf_request_tag_kind : (Instr.fabricRequest 0 0 .write 0 4 [1] (some ⟨0, 0, 8, 0, false⟩)).wf = false := by decide
theorem test_wf_request_tag_fseq : (Instr.fabricRequest 0 0 .write 0 4 [1] (some ⟨0, 0, 0, 65536, false⟩)).wf = false := by decide
theorem test_wf_request_length : (Instr.fabricRequest 0 0 .write 0 1 [1, 2] none).wf = false := by decide
theorem test_wf_request_beats : (Instr.fabricRequest 0 0 .read 0 1025 [] none).wf = false := by decide
theorem test_wf_request_boundary : (Instr.fabricRequest 0 0 .read 0xFC1 64 [] none).wf = false := by decide
theorem test_wf_request_atomic : (Instr.fabricRequest 0 0 .atomic 1 4 [1] none).wf = false := by decide
theorem test_wf_debug_boundary : (Instr.debugRequest .read 0xFFF 2 []).wf = false := by decide
theorem test_wf_debug : (Instr.debugRequest .write 0 1 [1, 2]).wf = false := by decide
theorem test_wf_debug_bytes : (Instr.debugRequest .write 0 1 [256]).wf = false := by decide
theorem test_wf_frame_vlan : (Instr.netFrameReceive 0 { frame0 with vlan := 4096, tags := 1 } 0).wf = false := by decide
theorem test_wf_frame_untagged : (Instr.netFrameReceive 0 { frame0 with vlan := 5 } 0).wf = false := by decide
theorem test_wf_frame_dmac : (Instr.netFrameReceive 0 { frame0 with dmac := 2 ^ 48 } 0).wf = false := by decide
theorem test_wf_frame_src : (Instr.netFrameReceive 0 { frame0 with src := 2 ^ 32 } 0).wf = false := by decide
theorem test_wf_frame_dst : (Instr.netFrameReceive 0 { frame0 with v6 := true, dst := 2 ^ 128 } 0).wf = false := by decide
theorem test_wf_frame_udp : (Instr.netFrameReceive 0 { frame0 with udp := some ⟨65536, 0, false, []⟩ } 0).wf = false := by decide
theorem test_wf_frame_dport : (Instr.netFrameReceive 0 { frame0 with udp := some ⟨0, 65536, false, []⟩ } 0).wf = false := by decide
theorem test_wf_frame_payload : (Instr.netFrameReceive 0 { frame0 with udp := some ⟨0, 0, false, [300]⟩ } 0).wf = false := by decide
theorem test_wf_frame_ptp : (Instr.netFrameReceive 0 { frame0 with ptp := some ⟨16, 0, 0⟩ } 0).wf = false := by decide
theorem test_wf_frame_domain : (Instr.netFrameReceive 0 { frame0 with ptp := some ⟨0, 256, 0⟩ } 0).wf = false := by decide
theorem test_wf_frame_seq : (Instr.netFrameReceive 0 { frame0 with ptp := some ⟨0, 0, 65536⟩ } 0).wf = false := by decide
theorem test_wf_frame_query : (Instr.netFrameReceive 0 { frame0 with ask := .query 4 0 [] } 0).wf = false := by decide
theorem test_wf_frame_group : (Instr.netFrameReceive 0 { frame0 with ask := .query 3 (2 ^ 128) [] } 0).wf = false := by decide
theorem test_wf_frame_source : (Instr.netFrameReceive 0 { frame0 with ask := .query 3 0 [2 ^ 128] } 0).wf = false := by decide
theorem test_wf_frame_raw : (Instr.netFrameReceive 0 { frame0 with raw := [256] } 0).wf = false := by decide
theorem test_wf_transmit_bytes : (Instr.netFrameTransmit 0 [256] none).wf = false := by decide
theorem test_wf_transmit_length : (Instr.netFrameTransmit 0 (List.replicate 16384 0) none).wf = false := by
  simp only [Instr.wf, List.length_replicate, Bool.and_eq_false_iff]
  exact .inr (by decide)
theorem test_wf_coded_psets : (Instr.encPictureDone 0 { coded0 with psets := [256] }).wf = false := by decide
theorem test_wf_coded_head : (Instr.encPictureDone 0 { coded0 with rows := [⟨[256], []⟩] }).wf = false := by decide
theorem test_wf_coded_head_length : (Instr.encPictureDone 0 { coded0 with rows := [⟨List.replicate 32 0, []⟩] }).wf = false := by decide
theorem test_wf_coded_luma : (Instr.encPictureDone 0 { coded0 with luma := [256] }).wf = false := by decide
theorem test_wf_coded_chroma : (Instr.encPictureDone 0 { coded0 with chroma := [256] }).wf = false := by decide
theorem test_wf_receiver_rate : (Instr.receiverAlignAcquire 0 0 ⟨0, 6⟩).wf = false := by decide
theorem test_wf_receiver : (Instr.receiverPacket 0 0 0 true [256]).wf = false := by decide
theorem test_wf_scan : (Instr.scanFrameEnd 0 [65536] 0 0).wf = false := by decide
theorem test_wf_key : (Instr.keyFrame [65536]).wf = false := by decide
theorem test_wf_yoke_bytes : (Instr.yokeFrameReceive [256] none).wf = false := by decide
theorem test_wf_yoke_frame : (Instr.yokeFrameReceive [] (some { frame0 with dmac := 2 ^ 48 })).wf = false := by decide
theorem test_wf_claim_port : (Instr.setClaim (some { msg0 with dport := 65536 })).wf = false := by decide
theorem test_wf_claim_bytes : (Instr.setClaim (some { msg0 with bytes := [256] })).wf = false := by decide
theorem test_wf_farrier_a : (Instr.farrierRunEnd [2 ^ 32] [] true true).wf = false := by decide
theorem test_wf_farrier_b : (Instr.farrierRunEnd [] [2 ^ 32] true true).wf = false := by decide
theorem test_wf_update_path : (Instr.updateOpen { upd0 with path := 0 }).wf = false := by decide
theorem test_wf_update_src : (Instr.updateBlock { upd0 with src := 2 ^ 32 }).wf = false := by decide
theorem test_wf_update_sport : (Instr.updateClose { upd0 with sport := 65536 }).wf = false := by decide
theorem test_wf_update_dport : (Instr.updateAbort { upd0 with dport := 65536 }).wf = false := by decide
theorem test_wf_update_bytes : (Instr.updateStatus { upd0 with bytes := [256] }).wf = false := by decide

/-! ### Witnesses: states and operands that meet the hypotheses of the statements, clause by clause -/

theorem witness_StepRunsTheFrontCommand :
    ({ State.reset with pending := [.entryLatch, .heartbeat] }).pending = .entryLatch :: [.heartbeat] ∧
    State.reset.pending = [] := by decide

theorem witness_CommandsKeepTheQueue : ∃ t, exec .heartbeat State.reset = .next t := ⟨_, rfl⟩

theorem witness_StepKeepsMemoriesCanonical : State.reset.memWf = true ∧ ∃ t, step State.reset = .next t := ⟨by decide, _, rfl⟩

theorem witness_RegisterAccess_write :
    (State.reset.regDecoded Writer.host.master 0x3FFFFFC = false ∧ pageOf 0x3FFFFFC = none) ∧
    (State.reset.regDecoded Writer.host.master 0x10141 = true ∧ 0x10141 % 4 ≠ 0) ∧
    (State.reset.regDecoded Writer.host.master 0x10140 = true ∧ pageOf 0x10140 = some (.xb, 0) ∧
      State.reset.plainFields .host 0x10140 = some (pg .xb 0, 0x140, [XB_PARK_MASTER 0, XB_PARK_EN 0], false) ∧
      (∀ f ∈ [XB_PARK_MASTER 0, XB_PARK_EN 0], f.off = 0x140 ∧ f.lo + f.w ≤ 32) ∧
      ([XB_PARK_MASTER 0, XB_PARK_EN 0].map Fld.lo).Nodup) := by decide

theorem witness_RegisterAccess_read :
    State.reset.regDecoded Writer.host.master 0x1110C = true ∧
    wordAt 0x1110C = some (pg .grd 0, 0x10C, [GRD_VCOUNT_COUNT]) ∧ GRD_VCOUNT_COUNT.acc = .rc ∧
    GRD_VCOUNT_COUNT.rst < 2 ^ GRD_VCOUNT_COUNT.w ∧
    (State.reset.regDecoded Writer.mss.master 0xA100 = true ∧ State.reset.latchOf 0xA100 = some (pg .tb 0, TB_NOW_HI_NOW, 0)) ∧
    (State.reset.latchOf 0xA104 = none ∧ hitHidden .mss 0xA104 = false) ∧
    (State.reset.regDecoded (Writer.master .debug) 0x1D200 = true ∧ hitHidden .debug 0x1D200 = true) := ⟨by decide, rfl, rfl, by decide, by decide, by decide, by decide⟩

theorem witness_PageControl :
    let on := (st [(pg .xb 0, HDR_CTRL_ENABLE, 1)])
    let caps := (st [(0, SYS_CAPS_DEC_N, 8)])
    let fenced := (st [(0, SYS_CAPS_DEC_N, 7), (0, SYS_FENCE_A_DMC, 1)])
    (on.pageFor .host 0x10000 = some (.xb, 0) ∧ on.enabled (pg .xb 0) = true) ∧
    (State.reset.pageFor .host 0x10000 = some (.xb, 0) ∧ State.reset.enabled (pg .xb 0) = false ∧ State.reset.capsWord = 0) ∧
    (caps.pageFor .mss 0x10000 = some (.xb, 0) ∧ caps.capsWord ≠ 0 ∧ caps.blkFenced .xb 0 = false) ∧
    (fenced.pageFor .mss 0x20000 = some (.dmc, 0) ∧ fenced.enabled (pg .dmc 0) = false ∧ fenced.capsWord ≠ 0 ∧
      fenced.blkFenced .dmc 0 = true) := by decide

theorem witness_EventsAndRings_acknowledge :
    let s := st [(pg .tb 0, HDR_EVT_RAW_RAW, 3), (pg .tb 0, HDR_EVT_MASK_MASK, 1)]
    s.pageFor .host 0xA000 = some (.tb, 0) ∧ Blk.tb.noEvents = false ∧
    s.rd (pg .tb 0) HDR_EVT_MASK_MASK &&& (andNot (s.rd (pg .tb 0) HDR_EVT_RAW_RAW) 1 % 2 ^ 32) = 0 := by decide

theorem witness_EventsAndRings_msix :
    bit (State.reset.rd 0xE000 (MSIP_PEND 0)) 5 = false ∧
    bit ((st [(0xE000, MSIP_PEND 7, 2 ^ 31)]).rd 0xE000 (MSIP_PEND (255 / 32))) (255 % 32) = true := by decide

/-- A ring's place in `s` once 4 KiB from page `b` of the loft has been written for it. -/
def ringSet (s : State) (v : Nat) : State :=
  s.setFields (pg .tb 0) [(ringFlds false).base, (ringFlds false).size, (ringFlds false).vector, (ringFlds false).target] v

theorem witness_EventsAndRings_ring :
    let caps := st [(0, SYS_CAPS_DEC_N, 8)]
    let other := st [(0, SYS_CAPS_DEC_N, 8), (pg .net 0, (ringFlds false).en, 1)]
    let fenced := st [(0, SYS_CAPS_DEC_N, 8), (0, SYS_FENCE_E_LOFT_LO, 1)]
    let p := pg .tb 0
    State.reset.ringPage .host 0xA000 false = some p ∧ (st [(p, (ringFlds false).en, 1)]).on p (ringFlds false).en = true ∧
    (State.reset.on p (ringFlds false).en = false ∧ State.reset.capsWord = 0) ∧
    (caps.on p (ringFlds false).en = false ∧ caps.capsWord ≠ 0 ∧ 9 ≤ (ringSet caps (15 * 2 ^ 14)).rd p (ringFlds false).size) ∧
    (fenced.on p (ringFlds false).en = false ∧ fenced.capsWord ≠ 0 ∧ (ringSet fenced 0).rd p (ringFlds false).size < 9 ∧
      ((ringSet fenced 0).ringAt p false).1 + ((ringSet fenced 0).ringAt p false).2 ≤ 48 * 2 ^ 20 ∧
      (ringSet fenced 0).areaFenced ((ringSet fenced 0).ringAt p false).1 ((ringSet fenced 0).ringAt p false).2 = true) ∧
    (other.on p (ringFlds false).en = false ∧ other.capsWord ≠ 0 ∧
      (ringSet other 0).areaFenced ((ringSet other 0).ringAt p false).1 ((ringSet other 0).ringAt p false).2 = false ∧
      (ringSet other 0).ringOverlap p false = some (pg .net 0)) ∧
    (let u := ringSet caps (8 * 2 ^ 14)
    u.rd p (ringFlds false).size < 9 ∧ (u.ringAt p false).1 + (u.ringAt p false).2 ≤ 48 * 2 ^ 20 ∧
      u.areaFenced (u.ringAt p false).1 (u.ringAt p false).2 = false ∧ u.ringOverlap p false = none) := by decide

theorem witness_OwnerRegistry :
    let owned := st [(0, SYS_CAPS_DEC_N, 8), (ownPg 3, OWN_ENT_OWNER 3, 0x1800), (ownPg 3, OWN_ENT_IN_USE 3, 1)]
    let free := st [(0, SYS_CAPS_DEC_N, 8), (ownPg 3, OWN_ENT_OWNER 3, 0x1800)]
    let fenced := st [(ownPg 0, OWN_ENT_FENCED 0, 1)]
    let locked := st [(0, SYS_CAPS_DEC_N, 8), (ownPg 3, OWN_ENT_LOCK 3, 1)]
    (State.reset.capsWord = 0 ∧ Writer.host ≠ .mss) ∧ (entExists 0 = true ∧ fenced.entFenced 0 = true ∧ Writer.mss = .mss) ∧
    (locked.capsWord ≠ 0 ∧ locked.entFenced 3 = false ∧ locked.entLocked 3 = true) ∧
    (entExists 3 = true ∧ owned.capsWord ≠ 0 ∧ owned.entFenced 3 = false ∧ owned.entLocked 3 = false ∧ owned.owner 3 ≠ 0 ∧
      0x1801 ≠ owned.owner 3 ∧ owned.entInUse 3 = true) ∧
    State.reset.owner 3 = 0 ∧ free.entInUse 3 = false := by decide

theorem witness_NodeIdentity :
    let locked := st [(0, HDR_CTRL_LOCK, 1)]
    let valid := st [(0, SYS_NODE_VALID, 1), (0, SYS_NODE_NODE_ID, 0x0602)]
    let paired := { valid with yoke := { valid.yoke with link := true, state := 5 } }
    (locked.on 0 HDR_CTRL_LOCK = true ∧ locked.differs 0 [SYS_NODE_NODE_ID, SYS_NODE_VALID] 0 = false ∧
      locked.differs 0 [SYS_NODE_NODE_ID, SYS_NODE_VALID] 1 = true) ∧
    (valid.on 0 HDR_CTRL_LOCK = false ∧ valid.on 0 SYS_NODE_VALID = true ∧ fieldOf 0x80000001 SYS_NODE_VALID = 1 ∧
      fieldOf 0x1 SYS_NODE_VALID = 0) ∧ (paired.yoke.link = true ∧ paired.inTeam = true) ∧
    (State.reset.on 0 HDR_CTRL_LOCK = false ∧ State.reset.on 0 SYS_NODE_VALID = false) := by decide

/-- A self-test that finds DEC 7 bad and every other unit good. -/
def selfTest0 : SelfTest :=
  { dec := 0x80, enc := 0, cmp := 0, so := 0, dmc := 0, drv := 0, quad := 0, scaler := 0, cvu := 0, loft := 0, bank := 0
    aonFail := false, baseFail := false }

theorem witness_SelfTestSetsCapsAndFences :
    let s := { st [(mssP, MSS_BOOT_STAGE, 3), (pg .dmc 7, DMC_CFG_POPULATED, 1), (clkP, CLK_STAT_TCXO_OK, 1),
      (clkP, CLK_STAT_LREF1_OK, 1)] with mss := { State.reset.mss with hold := 0 } }
    s.rd mssP MSS_BOOT_STAGE = 3 ∧ s.mss.hold = 0 ∧ s.capsWord = 0 ∧ s.on mssP MSS_BOOT_RECOVERY = false ∧
    s.on clkP CLK_STAT_TCXO_OK = true ∧ s.on clkP CLK_STAT_LREF1_OK = true ∧ State.reset.on clkP CLK_STAT_TCXO_OK = false ∧
    (State.reset.on clkP CLK_STAT_LREF0_OK = false ∧ State.reset.on clkP CLK_STAT_LREF1_OK = false) ∧
    selfTest0.aonFail = false ∧ minimumSet selfTest0 (s.dmcBad selfTest0).1 = true ∧
    minimumSet { selfTest0 with cmp := 3 } (s.dmcBad { selfTest0 with cmp := 3 }).1 = false ∧
    ({ selfTest0 with aonFail := true }).aonFail = true ∧ State.reset.rd mssP MSS_BOOT_STAGE ≠ 3 := by decide

/-- A 64-byte write of master 2 waiting at target `t`, as routed. -/
def part0 (t addr : Nat) : Part :=
  { tag := 0, master := 2, fid := 0x1800, kind := .write, addr := addr, len := 8, off := 0, data := [1, 2, 3, 4, 5, 6, 7, 8], mtag := none
    target := t, lost := 0, holdTo := 0, gen := 0, stamp := 0, lat := none, emerg := false }

/-- Its request. -/
def req0 : Req :=
  { tag := 0, master := 2, fid := 0x1800, kind := .write, addr := loftBase, len := 8, left := 0, code := 0, detail := 0, data := []
    denied := [] }

/-- The state after reset with other fabric contents. -/
def withFab (s : State) (f : FabSt → FabSt) : State := { s with fab := f s.fab }

set_option maxRecDepth 20000 in
theorem witness_FabricRequests :
    (withFab (st [(pg .xb 0, XB_TAGS_LIMIT 2, 0)]) fun f =>
      { f with reqs := [req0, { req0 with tag := 1 }, { req0 with tag := 2 }, { req0 with tag := 3 }] }).mayIssue 2 = false ∧
    reqShape .read 0xFC1 64 = false ∧
    ((st [(pg .xb 0, XB_PARK_EN 8, 1), (pg .xb 0, XB_PARK_MASTER 8, 10)]).parkedOn 8 10 = true ∧
      ∃ y ∈ (withFab State.reset fun f => { f with waiting := [part0 8 loftBase] }).fab.waiting, y.target = 8) ∧
    (State.reset.mayIssue 10 = true ∧ reqShape .write loftBase 8 = true ∧ State.reset.freeTag = some 0 ∧
      State.reset.parkedOn 8 10 = false ∧ fabricPieces loftBase 8 = [(loftBase, 8)] ∧ State.reset.unlocked = false ∧
      State.reset.route 10 loftBase = (8, loftBase, none)) ∧
    (State.reset.route 10 0x3FFFFFC).1 = 15 := by decide

theorem witness_FabricRequests_debug :
    let open_ := st [(tstP, TST_UNLOCK_UNLOCKED, 1)]
    (State.reset.mayIssue 31 = true ∧ reqShape .read 0xC104 4 = true ∧ State.reset.freeTag = some 0) ∧
    (open_.unlocked = true ∧ open_.on tstP TST_DBG_EMERG = false) ∧ State.reset.unlocked = false ∧
    (AccKind.read = .read ∧ (4 : Nat) = 4 ∧ (0xC104 : BitVec 40).toNat = 0xC104) ∧
    ¬ (AccKind.write = .read ∧ (4 : Nat) = 4 ∧
      ((0xC104 : BitVec 40).toNat = 0 ∨ (0xC104 : BitVec 40).toNat = 0xC100 ∨ (0xC104 : BitVec 40).toNat = 0xC104)) := by decide

theorem witness_SlotsAndResponses :
    let x := part0 8 loftBase
    let e := { x with emerg := true }
    let s := withFab (st [(pg .grd 8, HDR_CTRL_ENABLE, 1)]) fun f => { f with waiting := [x] }
    let ok := withFab (st [(pg .grd 8, HDR_CTRL_ENABLE, 1), (pg .grd 8, GRD_DFLT_WR_MASK, 4)]) fun f => { f with waiting := [x] }
    let dflt := withFab State.reset fun f => { f with waiting := [{ x with target := 15 }] }
    (withFab State.reset fun f => { f with waiting := [x, e] }).emergPart 8 = some e ∧
    (withFab State.reset fun f => { f with blocked := [(8, 1)] }).portBlocked 8 = true ∧
    (s.unlocked = false ∧ s.emergPart 8 = none ∧ s.portBlocked 8 = false ∧
      s.arbWinner 8 ((s.readyParts 8).filter fun y => !y.emerg) = some x ∧ s.slotsUsed 8 < slotsOf 8 ∧ guardOf x.target = some 8) ∧
    (dflt.emergPart 15 = none ∧ dflt.portBlocked 15 = false ∧
      dflt.arbWinner 15 ((dflt.readyParts 15).filter fun y => !y.emerg) = some { x with target := 15 } ∧
      dflt.slotsUsed 15 < slotsOf 15 ∧ guardOf 15 = none) ∧
    s.guardJudge 8 x.kind x.master x.addr = some (0, 2) ∧ ok.guardJudge 8 x.kind x.master x.addr = none := by decide

theorem witness_SlotsAndResponses_full :
    slotsOf 14 ≤ (withFab State.reset fun f => { f with queued := List.replicate 8 (part0 14 0x4000000) }).slotsUsed 14 := by decide

theorem witness_SlotsAndResponses_response :
    let s := withFab State.reset fun f => { f with reqs := [req0] }
    (∀ x ∈ s.fab.queued, x.tag = 0 → x.target < 12) ∧
    s.fab.reqs.find? (fun q => decide (q.tag = 0)) = some req0 ∧ req0.left = 0 ∧ req0.code = 0 ∧
    ({ req0 with code := 3 }).code ≠ 0 ∧ ({ req0 with left := 1 }).left ≠ 0 ∧
    s.fab.reqs.find? (fun q => decide (q.tag = 1023)) = none := by decide

theorem witness_GuardRules :
    let locked := st [(pg .grd 11, HDR_CTRL_LOCK, 1)]
    let busy := st [(pg .grd 0, GRD_FENCE_DRAINED, 0)]
    State.reset.on (pg .grd 0) HDR_CTRL_LOCK = false ∧ locked.on (pg .grd 11) HDR_CTRL_LOCK = true ∧
    (busy.on (pg .grd 0) GRD_FENCE_DRAINED = false ∧ busy.guardBusy 0 = false) ∧
    State.reset.on (pg .grd 0) GRD_FENCE_DRAINED = true ∧
    ((State.reset.guardWord (pg .grd 11) (GRD_RG_WR_MASK 63).off).2 = false ∧
      (State.reset.guardWord (pg .grd 11) (GRD_RG_WR_MASK 63).off).1 ≠ []) ∧
    ((st [(pg .grd 11, GRD_RG_CTRL_LOCK 63, 1)]).on (pg .grd 11) (GRD_RG_CTRL_LOCK 63) = true ∧
      State.reset.on (pg .grd 11) (GRD_RG_CTRL_LOCK 63) = false) := by decide

/-- The hitch unit enabled, the MSS holding hitch 255 and, where `w`, the host waiting for it. -/
def hitchHeld (w : Bool) : State :=
  { st [(pg .hit 0, HDR_CTRL_ENABLE, 1)] with
    hit := ⟨[(255, (1, 3))], if w then [⟨0, 255, 1000⟩] else []⟩ }

theorem witness_HitchTake :
    Writer.hitSlot .mss = some 1 ∧ State.reset.enabled (pg .hit 0) = false ∧
    ((hitchHeld false).enabled (pg .hit 0) = true ∧ Store.find 255 (hitchHeld false).hit.held = some (1, 3) ∧
      Store.find 0 (hitchHeld false).hit.held = none) := by decide

theorem witness_HitchReleases :
    Writer.hitSlot .debug = none ∧ Writer.hitSlot .mss = some 1 ∧ Writer.hitSlot (.drover 7) = some 9 ∧
    (hitchHeld true).enabled (pg .hit 0) = true ∧ Store.find 255 (hitchHeld true).hit.held = some (1, 3) ∧
    (∀ x ∈ (hitchHeld false).hit.waits, x.hitch ≠ 255) ∧
    (hitchHeld true).hit.waits.find? (fun y => decide (y.hitch = 255)) = some ⟨0, 255, 1000⟩ := by decide

theorem witness_HitchReleases_other : ∀ e, Store.find 255 (hitchHeld true).hit.held ≠ some (9, e) := by
  intro e h
  cases h

theorem witness_HitchWaits :
    let s := hitchHeld false
    (Writer.hitSlot .host = some 0 ∧ s.enabled (pg .hit 0) = true ∧ (1 : BitVec 20) ≠ 0 ∧ s.waiting 0 = false ∧
      Store.find 255 s.hit.held = some (1, 3) ∧ (1 : Nat) ≠ 0) ∧
    (Writer.hitSlot .mss = some 1 ∧ s.waiting 1 = false) ∧ Store.find 7 s.hit.held = none ∧
    (hitchHeld true).waiting 0 = true ∧
    (hitchHeld true).hit.waits.find? (fun y => decide (y.slot = 0)) = some ⟨0, 255, 1000⟩ ∧
    2 ≤ (st [(pg .hit 0, HIT_WAIT_STATE 0, 3)]).rd (pg .hit 0) (HIT_WAIT_STATE 0) := by decide

theorem witness_HitchUnitOff :
    State.reset.enabled (pg .hit 0) = false ∧ State.reset.pageFor .host 0x1D000 = some (.hit, 0) ∧
    ((hitchHeld true).pageFor .host 0x1D000 = some (.hit, 0) ∧ (hitchHeld true).enabled (pg .hit 0) = true) := by decide

/-- A part in the queue of DRAM channel 0. -/
def queued0 : State := withFab State.reset fun f => { f with queued := [part0 0 dramBase] }

/-- Every token of channel 0 in use. -/
def noTokens : State :=
  withFab (st ((List.range 32).map fun m => (pg .dmc 0, DMC_TOK_HELD m, 8))) fun f => { f with queued := [part0 0 dramBase] }

theorem witness_DmcTokens :
    (st [(pg .dmc 0, DMC_PM_STATE, 2)]).rd (pg .dmc 0) DMC_PM_STATE ≠ 0 ∧
    (queued0.rd (pg .dmc 0) DMC_PM_STATE = 0 ∧ queued0.unlocked = false ∧ queued0.tokenNext 0 = some (part0 0 dramBase)) ∧
    ((∀ x ∈ atTarget noTokens.fab.queued 0,
        noTokens.rd (pg .dmc 0) (DMC_TOK_RESERVE x.master) ≤ noTokens.rd (pg .dmc 0) (DMC_TOK_HELD x.master)) ∧
      noTokens.poolFree 0 = 0) := by decide

theorem witness_DmcTokens_write :
    let sum := (upTo 32).foldl (fun t i => t + State.reset.rd (pg .dmc 0) (DMC_TOK_RESERVE i)) 0
    let old := State.reset.rd (pg .dmc 0) (DMC_TOK_RESERVE 2)
    (sum - old + 112 % 2 ^ 7 > 112 ∧ old < 112 % 2 ^ 7) ∧ 0 % 2 ^ 7 ≤ old := by decide

theorem witness_DmcService :
    let s := withFab (st [(pg .dmc 0, DMC_CFG_POPULATED, 1), (pg .dmc 0, DMC_INIT_DONE, 1), (clkP, CLK_STAT_DMC_LOCK, 1)])
      fun f => { f with serving := [part0 0 dramBase] }
    (State.reset.dmcChoose 0 = none ∧ State.reset.dmcServing 0 = []) ∧
    2 ≤ (st [(pg .dmc 0, DMC_PM_STATE, 2)]).rd (pg .dmc 0) DMC_PM_STATE ∧ State.reset.dmcPll 7 = false ∧
    (s.rd (pg .dmc 0) DMC_PM_STATE < 2 ∧ s.dmcPll 0 = true) ∧ (s.dmcChoose 0 = some (part0 0 dramBase) ∧ (part0 0 dramBase).master < 32) := by decide

theorem witness_DmcService_training :
    let warm := st [(pg .dmc 7, DMC_TRN_DELTA, 1), (pg .mss 0, MSS_TS_VAL_VALID 7, 1), (pg .dmc 7, DMC_TRN_TEMP_LAST, 100)]
    let busy := { st [(pg .dmc 7, DMC_TRN_BUSY, 1)] with dmc := [(7, { dmc0 with trnStep := 15 })] }
    let scrub := st [(pg .dmc 0, DMC_SCRUB_EN, 1), (pg .dmc 0, DMC_CFG_POPULATED, 1), (clkP, CLK_STAT_DMC_LOCK, 1)]
    (warm.rd (pg .dmc 7) DMC_TRN_DELTA ≠ 0 ∧ warm.on (pg .mss 0) (MSS_TS_VAL_VALID 7) = true ∧
      warm.rd (pg .dmc 7) DMC_PM_STATE = 0 ∧ warm.on (pg .dmc 7) DMC_TRN_BUSY = false ∧
      16 * warm.rd (pg .dmc 7) DMC_TRN_DELTA < (warm.dmcTemp 7 - 16 * sint 8 (warm.rd (pg .dmc 7) DMC_TRN_TEMP_LAST)).natAbs) ∧
    (st [(pg .dmc 0, DMC_TRN_DELTA, 0)]).rd (pg .dmc 0) DMC_TRN_DELTA = 0 ∧
    (busy.on (pg .dmc 7) DMC_TRN_BUSY = true ∧ busy.rd (pg .dmc 7) DMC_PM_STATE = 0 ∧ (busy.dm 7).trnStep = 15) ∧
    State.reset.dmcPll 0 = false ∧ (scrub.dmcPll 0 = true ∧ scrub.on (pg .dmc 0) DMC_SCRUB_EN = true ∧ scrub.rd (pg .dmc 0) DMC_PM_STATE = 0 ∧ scrub.dmcCandidates 0 = [] ∧
      0 ∈ scrub.channels) := by decide

theorem witness_DmcPower :
    let sr := st [(pg .dmc 0, DMC_PM_STATE, 2)]
    let owed := { st [(clkP, CLK_STAT_DMC_LOCK, 1)] with dmc := [(0, { dmc0 with owed := [(3, 4)] })] }
    sr.rd (pg .dmc 0) DMC_PM_STATE = 2 ∧
    (State.reset.rd (pg .dmc 0) DMC_PM_STATE ≠ 2 ∧ State.reset.unlocked = false ∧
      ∀ x ∈ State.reset.rankSubs 0, Store.getD 0 (x.1 * 2 + x.2) (State.reset.dm 0).owed < 4) ∧
    State.reset.dmcPll 0 = false ∧ (owed.dmcPll 0 = true ∧ Store.getD 0 3 (owed.dm 0).owed = 3 + 1 ∧ owed.rankUrgent 0 1 1 = false ∧ (owed.dm 0).refHold = false) ∧
    ((st [(pg .dmc 0, DMC_CFG_POPULATED, 1)]).on (pg .dmc 0) DMC_INIT_DONE = false ∧
      0 ∈ (st [(pg .dmc 0, DMC_CFG_POPULATED, 1)]).channels) ∧
    ((st [(pg .dmc 0, DMC_PM_STATE, 1)]).rd (pg .dmc 0) DMC_PM_STATE = 1 ∧ ∀ x ∈ State.reset.fab.serving, x.target ≠ 0) ∧
    (∃ x ∈ queued0.fab.queued, x.target = 0) ∧ (st [(pg .dmc 0, DMC_PM_STATE, 3)]).rd (pg .dmc 0) DMC_PM_STATE = 3 := by decide

theorem witness_QosSlotTable :
    let wrap := st [(pg .dmc 0, DMC_SLOT_CTRL_CUR, 63), (pg .dmc 0, DMC_SLOT_CTRL_SWAP, 1)]
    (wrap.on (pg .dmc 0) DMC_SLOT_CTRL_ACTIVE = false ∧ wrap.rd (pg .dmc 0) DMC_SLOT_CTRL_CUR = 63) ∧
    wrap.on (pg .dmc 0) DMC_SLOT_CTRL_ACTIVE ≠ true ∧
    ((wrap.rd (pg .dmc 0) DMC_SLOT_CTRL_CUR + 1) % 64 = 0 ∧ wrap.on (pg .dmc 0) DMC_SLOT_CTRL_SWAP = true) := by decide

theorem witness_LoftPorts :
    let x := part0 8 loftBase
    let s := withFab State.reset fun f => { f with queued := [x] }
    let scrub := st [(pg .loft 0, LOFT_SCRUB_EN, 1)]
    let bad := { scrub with loftSyn := [(6291455, 1)] }
    let locked := st [(pg .loft 0, LOFT_PART_LOCK 15, 1)]
    (atTarget s.fab.queued 8 = x :: [] ∧ x.kind = AccKind.write ∧ 0 < x.len ∧ (x.addr - loftBase) % 8 = 0 ∧ x.len % 8 = 0 ∧
      x.data.length = x.len ∧ ∀ b ∈ x.data, b < 256) ∧
    (scrub.on (pg .loft 0) LOFT_SCRUB_EN = true ∧ scrub.time.coarse = false ∧ Store.getD 0 0 scrub.loftSyn = 0) ∧
    (Store.getD 0 6291455 bad.loftSyn ≠ 0 ∧
      (correctWord (bad.loft.readLE (6291455 * 8) 8) (Store.getD 0 6291455 bad.loftSyn)).isSome = true) ∧
    locked.on (pg .loft 0) (LOFT_PART_LOCK 15) = true ∧
    (fieldOf 0 (LOFT_PART_EN 0) = 0 ∧ (st [(0, SYS_CAPS_DEC_N, 8)]).capsWord ≠ 0) ∧
    (State.reset.on (pg .loft 0) HDR_CTRL_LOCK = false ∧ State.reset.on (pg .loft 0) (LOFT_PART_LOCK 0) = false ∧
      State.reset.partOn 0 = false) := by decide

/-- A bay in a state: 1 FREE, 2 HELD by the host with one hold, the owner's. -/
def bay (n state : Nat) : State :=
  st [(bayE n, BAYD_STAT_STATE, state), (bayE n, BAYD_OWNER_OWNER, 0x1D00), (bayE n, BAYD_OWNER_REFCNT, 1), (bayE n, BAYD_STAT_OWNED, 1)]

theorem witness_BayWords :
    (layoutWord 0).isEmpty = false ∧ (layoutWord 0x20).isEmpty = true ∧
    (contentWord 0x20).isEmpty = false ∧
    State.reset.differs (bayE 0) (layoutWord 0) 0xFFFFFFFF = true ∧ State.reset.differs (bayE 0) (layoutWord 0) 0 = false ∧
    (st [(pg .bay 0, HDR_CTRL_LOCK, 1)]).on (pg .bay 0) HDR_CTRL_LOCK = true ∧
    (st [(bayE 0, BAYD_STAT_READY, 1)]).on (bayE 0) BAYD_STAT_READY = true ∧
    State.reset.on (pg .bay 0) HDR_CTRL_LOCK = false ∧ (bay 0 2).bayState 0 = 2 ∧ State.reset.bayState 0 ≠ 2 ∧
    ((bay 8191 2).rd (bayE 8191) BAYD_OWNER_OWNER = Writer.host.fid ∧ (bay 8191 2).on (bayE 8191) BAYD_STAT_READY = false) ∧
    (bay 8191 2).rd (bayE 8191) BAYD_OWNER_OWNER ≠ Writer.mss.fid ∧ State.reset.bayState 0 = 0 ∧ (bay 5 1).bayState 5 = 1 := by
  decide

theorem witness_BayWords_enlist :
    let s := st [(0, SYS_CAPS_DMC_N, 1), (bayE 0, BAYD_SIZE_SIZE, 1)]
    (s.bayState 0 = 0 ∧ s.bayLayoutOk 0 = true) ∧ (State.reset.bayState 0 = 0 ∧ State.reset.bayLayoutOk 0 = false) := by decide

theorem witness_BayWords_alloc :
    let s := { bay 8191 1 with regs := ((bay 8191 1).wb (pg .bay 0) HDR_CTRL_ENABLE true).regs }
    (s.enabled (pg .bay 0) = true ∧ s.lowestFree 0 = some 8191) ∧
    State.reset.enabled (pg .bay 0) = false ∧ State.reset.lowestFree 0 = none := by decide

theorem witness_BayFrees :
    let s := bay 0 2
    (s.bayState 0 = 2 ∧ s.bayGen 0 = (0 : BitVec 16).toNat ∧ s.rd (bayE 0) BAYD_OWNER_REFCNT = 0 + 1 ∧
      (0 : Nat) < 2 ^ BAYD_OWNER_REFCNT.w ∧ s.enc = []) ∧
    (s.rd (bayE 0) BAYD_OWNER_OWNER = Writer.host.fid ∧ s.on (bayE 0) BAYD_STAT_OWNED = true ∧ s.rd (bayE 0) BAYD_STAT_MARKS = 0) ∧
    s.rd (bayE 0) BAYD_OWNER_OWNER ≠ Writer.mss.fid ∧ s.bayGen 0 ≠ BitVec.toNat (0xFFFF : BitVec 16) ∧
    (st [(bayE 0, BAYD_OWNER_REFCNT, 2)]).rd (bayE 0) BAYD_OWNER_REFCNT = 1 + 1 := by decide

theorem witness_Apertures :
    let s := bay 8191 2
    let opened := st [(pg .bay 0, BAY_APT_EN 15, 1)]
    (s.on (pg .bay 0) (BAY_APT_EN 0) = false ∧ s.bayHeld 8191 (0 : BitVec 16).toNat = true ∧
      s.rd (bayE 8191) BAYD_OWNER_OWNER = Writer.host.fid) ∧
    s.rd (bayE 8191) BAYD_OWNER_OWNER ≠ Writer.mss.fid ∧ s.bayHeld 8191 (1 : BitVec 16).toNat = false ∧
    opened.on (pg .bay 0) (BAY_APT_EN 15) = true := by decide

/-- Yard time in TRACKING. -/
def tracking : State := st [(tb, TB_STATUS_STATE, 2)]

theorem witness_TimeSteps :
    let back := { tracking with time := { tracking.time with stepLo := 2 ^ 32 - 1 } }
    let slewing := { tracking with time := { tracking.time with slew := ns 5, stepLo := 5 } }
    let far_ := { tracking with time := { tracking.time with stepLo := 0 } }
    tracking.tbWriterOk (.drover 0) = false ∧ (State.reset.tbWriterOk .host = true ∧ State.reset.rd tb TB_STATUS_STATE = 0) ∧
    (tracking.tbWriterOk .host = true ∧ tracking.rd tb TB_STATUS_STATE ≠ 0) ∧
    (sint 64 (back.time.stepLo + 2 ^ 32 * 0xFFFFFFFF) = -1 ∧ (-1 : Int).natAbs ≤ back.rd tb TB_JUMP_THRESH) ∧
    (sint 64 (slewing.time.stepLo + 2 ^ 32 * 0) = 5 ∧ ns 5 ≤ slewing.time.slew ∧ tracking.time.slew < ns 5) ∧
    far_.rd tb TB_JUMP_THRESH < (sint 64 (far_.time.stepLo + 2 ^ 32 * 0x7FFFFFFF)).natAbs := by decide

theorem witness_TimeSteps_pending :
    let s := { tracking with time := { tracking.time with pend := some (-2) } }
    s.time.pend = some (-2) ∧ uint 16 (-2) = (0xFFFE : BitVec 16).toNat ∧ uint 16 (-2) ≠ (0 : BitVec 16).toNat ∧
    (Writer.yoke ≠ .host ∧ Writer.yoke ≠ .mss) := by decide

theorem witness_TimeBaseState :
    State.reset.tbWriterOk .mss = true ∧ State.reset.tbWriterOk .yoke = false ∧ Writer.host ≠ .mss ∧
    (1 ≤ (3 : BitVec 3).toNat ∧ (3 : BitVec 3).toNat ≤ 3 ∧ tracking.rd tb TB_STATUS_STATE ≠ 0 ∧
      tracking.rd tb TB_STATUS_STATE ≠ 4 ∧ tracking.rd tb TB_STATUS_STATE ≠ 3) ∧
    (st [(tb, TB_STATUS_STATE, 3)]).rd tb TB_STATUS_STATE = 3 := by decide

theorem witness_LatencyAndStamps :
    let s := st [(tb, TB_PTP_PORTS_PORTS, 2 ^ 17), (pg .net 17, HDR_CTRL_ENABLE, 1)]
    let run := st [(tb, TB_RXL_VALID 7, 1), (tb, TB_RXL_RUN 7, 1)]
    let full := (upTo 8).foldl (fun s e => s.wb tb (TB_RXL_VALID e) true) s
    (bit (s.rd tb TB_PTP_PORTS_PORTS) 17 = true ∧ s.enabled (pg .net 17) = true ∧ s.unlocked = false ∧ s.freeRxl = some 0) ∧
    (run.on tb (TB_RXL_VALID 7) = true ∧ run.on tb (TB_RXL_RUN 7) = true ∧ run.time.coarse = false) ∧
    ({ run with time := { time0 with coarse := true } }).time.coarse = true ∧
    (full.freeRxl = none ∧ full.enabled (pg .net 17) = true ∧ bit (full.rd tb TB_PTP_PORTS_PORTS) 17 = true) ∧ State.reset.time.txq = [] ∧
    ({ State.reset with time := { time0 with txq := [⟨1, 2, 0, 17⟩] } }).time.txq = ⟨1, 2, 0, 17⟩ :: [] := by decide

theorem witness_TimePins :
    let i := st [(tb, TB_TI_CTRL_EN 7, 1), (tb, TB_TI_CTRL_EDGE 7, 3)]
    let o := st [(tb, TB_TO_CTRL_EN 7, 1), (tb, TB_TO_CTRL_PERIODIC 7, 1), (tb, TB_TO_PERIOD_NS 7, 5), (tb, TB_TO_WIDTH_NS 7, 5)]
    let once := st [(tb, TB_TO_CTRL_EN 0, 1)]
    let again := st [(tb, TB_TO_CTRL_EN 0, 1), (tb, TB_TO_CTRL_PERIODIC 0, 1)]
    let later := fun (s : State) => { s with time := { time0 with yt := ns 7 } }
    let due := { State.reset with time := { time0 with outs := [(7, ⟨some 0, some 3⟩)] } }
    (i.on tb (TB_TI_CTRL_EN 7) = true ∧ edgeSelected (i.rd tb (TB_TI_CTRL_EDGE 7)) true = true ∧ 4 ≤ 4 ∧ 3 < 4) ∧
    State.reset.on tb (TB_TI_CTRL_EN 7) = false ∧ State.reset.on tb (TB_TO_CTRL_EN 7) = false ∧
    (o.on tb (TB_TO_CTRL_EN 7) = true ∧ o.on tb (TB_TO_CTRL_PERIODIC 7) = true ∧
      o.rd tb (TB_TO_PERIOD_NS 7) ≤ o.rd tb (TB_TO_WIDTH_NS 7)) ∧
    (again.on tb (TB_TO_CTRL_EN 0) = true ∧ again.on tb (TB_TO_CTRL_PERIODIC 0) = true ∧
      (later again).rd64 tb (TB_TO_START_LO_T 0) (TB_TO_START_HI_T 0) < (later again).now) ∧
    (later once).rd64 tb (TB_TO_START_LO_T 0) (TB_TO_START_HI_T 0) < (later once).now ∧
    (once.on tb (TB_TO_CTRL_EN 0) = true ∧ once.on tb (TB_TO_CTRL_PERIODIC 0) = false ∧
      once.rd tb (TB_TO_WIDTH_NS 0) < once.rd tb (TB_TO_PERIOD_NS 0) ∧ once.now ≤ once.rd64 tb (TB_TO_START_LO_T 0) (TB_TO_START_HI_T 0)) ∧
    (due.tout 7).next = some 0 ∧ (due.tout 7).pulseEnd = some 3 := by decide

/-- NET 17 up. -/
def netOn : State :=
  st [(pg .net 17, HDR_CTRL_ENABLE, 1), (pg .net 17, NET_LINK_UP, 1), (feedP, HDR_CTRL_ENABLE, 1), (feedP, FEED_UNM_CTRL_EN, 1)]

/-- A frame with a datagram to port 5004. -/
def frameUdp : NetFrame := { frame0 with udp := some ⟨1, 5004, false, []⟩ }

/-- Feed 511 takes datagrams to port 5004 from NET 17. -/
def feedOn511 : State :=
  { ((((netOn.wb (feedE 511) FEEDD_W00_EN true).wr (feedE 511) FEEDD_W04_PORTS (2 ^ 17)).wr (feedE 511) FEEDD_W08_UDP_PORT 5004).wb
    (feedE 511) FEEDD_W00_SRC_ANY true) with feeds := [(511, feed0 false)] }

theorem witness_NetFrameReceived :
    State.reset.netUp 17 = false ∧ (netOn.netUp 17 = true ∧ ({ frame0 with fcsOk := false }).fcsOk = false) ∧
    (frame0.fcsOk = true ∧ ({ frame0 with pause := true }).pause = true) ∧
    netOn.rxDrops 17 { frame0 with tags := 2 } = true ∧
    (netOn.rxDrops 17 frameUdp = false ∧ netOn.wakeFrame 17 frameUdp = false ∧ netOn.pwrState < 2 ∧ netOn.forMss 17 frameUdp = false ∧
      frameUdp.fcsOk = true ∧ frameUdp.pause = false ∧ netOn.rxUnits 17 frameUdp = [] ∧
      netOn.rxHeld.all (fun x => decide (x.port ≠ 17)) = true) ∧
    (let s := (((netOn.wb (cvuP 23) HDR_CTRL_ENABLE true).wr (cvuP 23) CVU_CFG_TAP 3).wr (cvuP 23) CVU_CFG_SRC 17).wr (cvuP 23)
      CVU_MATCH_PORT 5004
     s.netUp 17 = true ∧ s.rxDrops 17 frameUdp = false ∧ s.wakeFrame 17 frameUdp = false ∧ s.pwrState < 2 ∧
      s.rxUnits 17 frameUdp ≠ []) ∧
    (let s := netOn.wr pwrP PWR_STATE_STATE 2
     s.netUp 17 = true ∧ frameUdp.fcsOk = true ∧ 2 ≤ s.pwrState) := by decide

/-- An IPv4 PTP Sync message to the event port. -/
def framePtp : NetFrame := { frame0 with udp := some ⟨319, 319, false, []⟩, ptp := some ⟨0, 0, 65535⟩ }

theorem witness_NetFrameReceived_ptp :
    let n := netOn.wr tb TB_PTP_PORTS_PORTS (2 ^ 17)
    let s : State := { n.wb tb (TB_RXL_VALID 7) true with time := { time0 with rxOpen := [(7, 17)] } }
    s.netUp 17 = true ∧ framePtp.fcsOk = true ∧ s.rxDrops 17 framePtp = false ∧ bit (s.rd tb TB_PTP_PORTS_PORTS) 17 = true ∧
    s.ptpEvent framePtp = some (0, 65535) ∧
    (upTo 8).find? (fun e => s.on tb (TB_RXL_VALID e) && decide (Store.find e s.time.rxOpen = some (17 : Nat))) = some 7 := by decide

theorem witness_NetFrameReceived_slot : netOn.freePkt = none ∧ netOn.pktSlots = 0 := by decide

theorem witness_NetFrameReceived_match :
    feedOn511.feedMatch 17 frameUdp = some (511, false) ∧ feedOn511.inTeam = false ∧ netOn.feedMatch 17 frameUdp = none := by decide

theorem witness_NetFrameReceived_room :
    let s := ((netOn.wb (pg .loft 0) (LOFT_PART_EN 0) true).wr (pg .loft 0) (LOFT_PART_SIZE 0) 1).wr (pg .loft 0) (LOFT_PART_USE 0) 2
    0 < s.pktSlots := by decide

theorem witness_NetSending :
    State.reset.netUp 0 = false ∧ netOn.netUp 17 = true ∧ netOn.time.txq.length < 64 := by decide

/-- The same state with the drovers out of reset and the device PLLs locked. -/
def running (s : State) : State := { s.wr clkP CLK_STAT_LOCK 15 with mss := { s.mss with drovers := true } }

/-- A membership query in the unmatched queue, and a group with a report left. -/
def queried : State :=
  { State.reset with
    pkts := [⟨0, 0, 4, 0, false, true, 0, { frame0 with ask := .query 3 0 [] }⟩]
    joins := [⟨17, false, 0, 1⟩]
    regs := netOn.regs }

theorem witness_NetSending_replies :
    State.reset.drvRuns = false ∧ (running queried).drvRuns = true ∧ ((running queried).unmatched (fun _ => true)).isSome = true ∧
    State.reset.unmatched (fun _ => true) = none ∧ (queried.unmatched (fun _ => true)).isSome = true ∧
    (queried.unmatched (fun a => match a with | .query _ _ _ => true | _ => false)).isSome = true ∧
    State.reset.unmatched (fun a => match a with | .query _ _ _ => true | _ => false) = none ∧
    ((⟨17, false, 0, 1⟩ : Join) ∈ queried.joins ∧ (false, 0) = queried.feedGroup 511 ∧ 0 < 1 ∧ (running queried).netUp 17 = true ∧
      (running queried).joins = queried.joins ∧ (running queried).feedGroup 511 = queried.feedGroup 511) := by decide

/-- Feed 511 with a receiver state. -/
def feedSt (st : FeedSt) : State := { feedOn511 with feeds := [(511, st)] }

theorem witness_NetSending_report :
    let st := { feed0 false with maxSeq := some 65536, ssrc := some 7, src := some 1 }
    let s := running (((feedSt st).wr feedP FEED_RR_INT_INTERVAL 5).wb (feedE 511) FEEDD_W00_SSRC_ANY true)
    (s.drvRuns = true ∧ Store.find 511 s.feeds = some st ∧ s.rd feedP FEED_RR_INT_INTERVAL ≠ 0 ∧ s.highClaim = true ∧ s.feedSource 511 st = some 1 ∧
      s.feedSsrc 511 st = some 7 ∧ st.maxSeq = some 65536) := by decide

theorem witness_FeedDescriptor :
    feedOn511.feedOn 511 = true ∧
    (State.reset.feedOn 0 = false ∧ State.reset.on (feedE 0) FEEDD_W00_LOCK = false ∧ State.reset.on feedP HDR_CTRL_LOCK = false) ∧
    ((st [(feedE 0, FEEDD_W00_LOCK, 1)]).on (feedE 0) FEEDD_W00_LOCK || State.reset.on feedP HDR_CTRL_LOCK) = true := by decide

/-- Feed 0 may be enabled: its ring is bay 0, the loft's first mebibyte is for feed contexts. -/
def feedFit : State :=
  st [(feedP, HDR_CTRL_ENABLE, 1), (bayE 0, BAYD_STAT_STATE, 2), (bayE 0, BAYD_SIZE_FORMAT, 5), (bayE 0, BAYD_SIZE_SIZE, 256),
    (feedE 0, FEEDD_W04_PT, 96), (feedE 0, FEEDD_W08_UDP_PORT, 5004), (pg .loft 0, LOFT_PART_EN 0, 1),
    (pg .loft 0, LOFT_PART_SIZE 0, 256), (pg .loft 0, LOFT_PART_USE 0, 1)]

theorem witness_FeedDescriptor_enable :
    (feedFit.feedDescWrite .host 0 0 (feedFit.rd (feedE 0) FEEDD_W00_EN)).feedOn 0 = false ∧
    (feedFit.feedDescWrite .host 0 0 (feedFit.rd (feedE 0) FEEDD_W00_EN)).feedRefusal 0 = none := by decide

/-- An RTP packet of payload type `pt` and sequence number `seq`, from a feed's frame. -/
def rtp (pt seq : Nat) : NetFrame :=
  { frame0 with udp := some ⟨1, 5004, false, [0x80, pt, seq / 256, seq % 256, 0, 0, 0, 0, 0, 0, 0, 0, 0x61]⟩ }

/-- Feed 511 with its state `st` and one frame waiting for its firmware. -/
def feedGot (st : FeedSt) (rtcp : Bool) (fr : NetFrame) : State := { running (feedSt st) with pkts := [⟨0, 17, 3, 511, rtcp, true, 9, fr⟩] }

theorem witness_FeedPackets :
    let good := feedGot (feed0 false) false (rtp 0 5)
    let pkt := rtpParse [0x80, 0, 0, 5, 0, 0, 0, 0, 0, 0, 0, 0, 0x61]
    feedOn511.drvRuns = false ∧ good.drvRuns = true ∧ (feedGot (feed0 false) true (rtp 0 5)).drvRuns = true ∧
    feedOn511.feedFrame 511 false = none ∧ feedOn511.feedFrame 511 true = none ∧
    (good.feedFrame 511 false).isSome = true ∧ ((feedGot (feed0 false) true (rtp 0 5)).feedFrame 511 true).isSome = true ∧
    Store.find 511 good.feeds = some (feed0 false) ∧ (rtp 0 5).udp.isSome = true ∧
    ((rtpParse [0, 0]).v ≠ 2) ∧ (rtpParse [0x80, 1]).pt ≠ good.rd (feedE 511) FEEDD_W04_PT ∧
    (pkt.v = 2 ∧ pkt.pt = good.rd (feedE 511) FEEDD_W04_PT ∧
      (if good.on (feedE 511) FEEDD_W00_SSRC_ANY then (feed0 false).ssrc else some (good.rd (feedE 511) FEEDD_W0C_SSRC)).getD pkt.ssrc =
        pkt.ssrc ∧ nalUnsupported (decide (good.rd (feedE 511) FEEDD_W00_CODEC = 1)) pkt.data = false) := by decide

theorem witness_FeedPackets_seq :
    seqJudge { feed0 false with maxSeq := some 65536, seen := [(65536, 0)] } 0 = .dup ∧
    seqJudge (feed0 false) 65535 = .good 131071 := ⟨rfl, rfl⟩

/-- An open and a closed access unit. -/
def au (closing : Option Nat) : OpenAu := { ts := 1, pkts := [], newest := 5, closing := closing, marked := true, base := 0 }

theorem witness_AccessUnits :
    let o := { feed0 false with aus := [au none] }
    let c := { feed0 false with aus := [au (some 5)] }
    let s := running (((feedSt c).wr (bayE 0) BAYD_STAT_STATE 2).wr (bayE 0) BAYD_SIZE_SIZE 256)
    ((feedSt c).drvRuns = false ∧ s.drvRuns = true ∧ (running (feedSt o)).drvRuns = true) ∧
    (o.aus.find? (fun a => a.closing.isNone) = some (au none) ∧ (running (feedSt o)).ingressAt (5 + (running (feedSt o)).auTimeoutNs 511) = true) ∧
    (∀ a ∈ c.aus, a.closing.isSome = true) ∧ (∀ a ∈ o.aus, a.closing = none) ∧
    (nextAu c.aus = some (au (some 5)) ∧ s.ingressAt (s.auStamp 511 c (au (some 5))) = true ∧
      s.bayHeld (s.rd (feedE 511) FEEDD_RING_RING_BAY) (s.rd (feedE 511) FEEDD_RING_RING_GEN) = true ∧ c.pset = false) ∧
    s.auDrops 511 { c with aus := [] } 5 0 = true ∧
    (running (st [(feedE 0, FEEDD_W44_HEALTH, 3)])).rd (feedE 0) FEEDD_W44_HEALTH = 3 ∧
    (State.reset.rd (feedE 0) FEEDD_W44_HEALTH ≠ 2 ∧ State.reset.rd (feedE 0) FEEDD_W44_HEALTH ≠ 3) ∧
    ({ feed0 false with flaggedAt := some 7 }).flaggedAt = some 7 := by decide

/-- A feed with a context: its ring bay 0 held, the loft's first mebibyte for contexts. -/
def feedCtxd : State := { feedFit with feeds := [(0, feed0 false)], regs := (feedFit.wb (feedE 0) FEEDD_W00_EN true).regs }

theorem witness_AccessUnits_kept :
    feedCtxd.auDrops 0 (feed0 false) 5 0 = false := by decide

/-- A picture in progress of feed 5 on pipeline 0. -/
def job0 : DecJob :=
  { feed := 5, auseq := 0, flags := 0, tc := 0, adm := 0, bay := 0, gen := 0, head := default, noRasl := false, coded := [], consumed := false, held := none }

/-- Pipeline 0 with that picture in progress. -/
def decoding (j : DecJob) : State :=
  { st [(pg .clk 0, CLK_STAT_LOCK, 4), (pg .dec 0, HDR_CTRL_ENABLE, 1)] with dec := [(0, { dec0 with job := some j })] }

set_option maxRecDepth 4000 in
theorem witness_DecoderSchedule :
    let fenced := st [(0, SYS_FENCE_A_DEC, 0x80)]
    let bound := st [(pg .dec 1, DEC_SLOTA_VALID 63, 1), (pg .dec 1, DEC_SLOTA_FEED 63, 511)]
    fenced.pageFenced .dec 7 = true ∧ State.reset.pageFenced .dec 0 = false ∧
    (bit 0x81FF 15 = true ∧ bound.decHolder 0 (0x81FF % 512) = some 1) ∧ bit 0x1FF 15 = false ∧
    State.reset.decHolder 0 511 = none ∧ State.reset.decIdle 0 = true ∧ (decoding job0).decIdle 0 = false ∧
    (State.reset.pipe 0).job = none ∧ ((decoding job0).pipe 0).job = some job0 ∧ (decoding job0).decHolder 0 5 = none := by decide

set_option maxRecDepth 4000 in
theorem witness_DecoderPictures :
    let idle := st [(pg .clk 0, CLK_STAT_LOCK, 4), (pg .dec 0, HDR_CTRL_ENABLE, 1)]
    (State.reset.enabled (pg .dec 0) = false ∧ State.reset.pll 2 = false) ∧ ((decoding job0).pipe 0).job.isSome = true ∧
    (idle.enabled (pg .dec 0) = true ∧ idle.pll 2 = true ∧ (idle.pipe 0).job = none ∧ (idle.decChoose 0).1 = none) ∧
    (((decoding { job0 with consumed := true, held := some 3 }).pipe 0).job = some { job0 with consumed := true, held := some 3 }) ∧
    ((decoding job0).pll 2 = true ∧ job0.feed = (5 : Fin 512).val ∧ job0.feed ≠ (511 : Fin 512).val ∧ job0.held = none ∧
      (decoding job0).unlocked = false) ∧
    (State.reset.decFeed 511).outs.length < 2 ∧
    ({ decFeed0 with outs := [⟨0, 0, 1⟩, ⟨1, 0, 2⟩] }).outs = ⟨0, 0, 1⟩ :: ⟨1, 0, 2⟩ :: [] := by decide

/-- Canvas 63 of engine 0 active. -/
def canvasOn : State := { State.reset with act := [(fkey (cmpP 0) (CMP_CV_CTRL_EN 63), 1)] }

theorem witness_StallAndCommit :
    (st [(0, SYS_FENCE_A_CMP, 2)]).pageFenced .cmp 1 = true ∧ State.reset.pageFenced .cmp 0 = false ∧
    canvasOn.cvOn 0 63 = true ∧ State.reset.cvOn 0 63 = false ∧ STL_W00_CANVAS ∈ stallFields.filter (fun f => decide (f.off = 0)) ∧
    STL_W00_EN ≠ STL_W00_CANVAS ∧
    ((st [(stallE 4095, STL_W00_EN, 1)]).on (stallE 4095) STL_W00_EN = true ∧
      fieldOf 0xFFFFFFFF STL_W00_CANVAS ≠ (st [(stallE 4095, STL_W00_EN, 1)]).rd (stallE 4095) STL_W00_CANVAS) := by decide

/-- Engine 0 enabled and a canvas size written. -/
def canvasFit : State :=
  st [(cmpP 0, HDR_CTRL_ENABLE, 1), (cmpP 0, CMP_CV_SIZE_W 63, 32), (cmpP 0, CMP_CV_SIZE_H 63, 16384)]

set_option maxRecDepth 20000 in
theorem witness_StallAndCommit_judged :
    (State.reset.judgeCommit 0 63).isSome = true ∧ canvasFit.judgeCommit 0 63 = none := by decide

set_option maxRecDepth 20000 in
theorem witness_StallAndCommit_active :
    ({ canvasFit with act := canvasOn.act }).judgeCommit 0 63 = none := by decide

/-- An epoch. -/
def epoch0 : EpochSt :=
  { n := 0, cut := 0, ready := 0, out := none, led := none, admits := [], miss := none, wcrc := 0, direct := false, size := (0, 0) }

theorem witness_Epochs :
    canvasOn.cvOn 0 63 = true ∧ State.reset.cvOn 1 0 = false ∧ (State.reset.cv 0 63).begun = [] ∧ (State.reset.cv 0 63).drains = [] ∧
    ({ cv0 with begun := [epoch0] }).begun = epoch0 :: [] ∧
    (({ State.reset with cvs := [(127, { cv0 with begun := [epoch0], drains := [epoch0] })] }).cv 1 63).drains = epoch0 :: [] := by
  decide

/-- Head 63 enabled, with a run-time state. -/
def headOn (x : HeadSt) : State := { st [(hdP 63, HDR_CTRL_ENABLE, 1), (clkP, CLK_STAT_LOCK, 1)] with heads := [(63, x)] }

/-- Head 63 in fixed timing on an active canvas 63. -/
def headFixed : State :=
  { headOn Machine.head0 with
    act := canvasOn.act
    regs := (((headOn Machine.head0).wb (hdP 63) HD_CFG_MEMBER true).wb (hdP 63) HD_CFG_FIXED true |>.wr (hdP 63) HD_CFG_CANVAS 63).regs }

theorem witness_HeadFrameStart :
    let ready := headOn { Machine.head0 with hostReady := true }
    let again := headOn { Machine.head0 with shown := some (0, 0, 0), blank := some 0 }
    let waits := { headOn Machine.head0 with regs := ((headOn Machine.head0).wr (hdP 63) HD_STATE_PHASE 3).regs }
    State.reset.pll 0 = false ∧ (headOn Machine.head0).pll 0 = true ∧ headFixed.pll 0 = true ∧ waits.pll 0 = true ∧
    State.reset.enabled (hdP 63) = false ∧ ((headOn { Machine.head0 with inFrame := true }).hd 63).inFrame = true ∧
    (st [(hdP 63, HD_STATE_OUTSIDE, 1)]).mayStart 63 = false ∧
    (ready.enabled (hdP 63) = true ∧ (ready.hd 63).inFrame = false ∧ ready.mayStart 63 = true ∧
      ((ready.geoAct 63).fixed && (ready.geoAct 63).member) = false ∧
      (ready.advanceRun (ready.blankAt (ready.hd 63) (ready.geoAct 63).vmin)).bayReady 63 = true) ∧
    (again.mayStart 63 = true ∧ (again.advanceRun (again.blankAt (again.hd 63) (again.geoAct 63).vmin)).bayReady 63 = false ∧
      (again.hd 63).shown = some (0, 0, 0) ∧ (again.hd 63).blank = some 0 ∧ (again.geoAct 63).fixed = false) ∧
    ((headOn Machine.head0).hd 63).shown = none ∧
    (headFixed.mayStart 63 = true ∧ ((headFixed.geoAct 63).fixed && (headFixed.geoAct 63).member) = true ∧
      (headFixed.hd 63).fixedDue = none) ∧
    (waits.enabled (hdP 63) = true ∧ (waits.hd 63).inFrame = false ∧ waits.rd (hdP 63) HD_STATE_PHASE = 3 ∧
      (waits.advanceRun (waits.blankAt (waits.hd 63) (waits.geoAct 63).vmin)).bayReady 63 = false) := by decide

theorem witness_HeadFrameStart_commit :
    let late := headOn { Machine.head0 with closed := true }
    let open_ := headOn { Machine.head0 with inFrame := true }
    (st [(hdP 0, HD_COMMIT_COMMIT, 1)]).on (hdP 0) HD_COMMIT_COMMIT = true ∧
    (State.reset.on (hdP 0) HD_COMMIT_COMMIT = false ∧ State.reset.enabled (hdP 0) = false) ∧
    (late.on (hdP 63) HD_COMMIT_COMMIT = false ∧ late.enabled (hdP 63) = true ∧ (late.hd 63).closed = true) ∧
    ((open_.hd 63).inFrame = true ∧ (open_.hd 63).closed = false) := by decide

/-- A frame as judged, without gated stalls. -/
def gate0 : GateFrame :=
  { f := 0, ts := 0, epoch := 0, bay := 0, gen := 0, rep := false, bad := false, whole := false, host := false, stalls := [] }

/-- Head 63 in a frame of two lines, the first in its banks. -/
def headIn : HeadSt :=
  { Machine.head0 with
    geo := ⟨1, 2, 4, 2, 0, 0, 1, 1, 0, 0, false, false, false, 0, 0⟩, inFrame := true, frames := [gate0], bank := [⟨0, [1, 2]⟩]
    last := some (0, 0) }

theorem witness_HeadLines :
    let s := headOn headIn
    State.reset.pll 0 = false ∧ s.pll 0 = true ∧
    (headOn Machine.head0 |>.hd 63).frames = [] ∧ ((headOn Machine.head0).hd 63).inFrame = false ∧
    ((s.hd 63).frames ≠ [] ∧ (s.hd 63).inFrame = true ∧ (s.hd 63).sent < (s.hd 63).geo.vAct) ∧
    ((s.hd 63).bank.find? fun b => decide (b.line = (s.hd 63).sent)).isSome = true ∧
    (headIn.bank.find? fun b => decide (b.line = 1)) = none ∧
    ((s.hd 63).fetched < (s.hd 63).geo.vAct ∧ (s.hd 63).fetched < (s.hd 63).sent + 4 ∧ (s.hd 63).last = some (0, 0)) ∧
    ({ headIn with sent := 2 }).geo.vAct ≤ ({ headIn with sent := 2 }).sent ∧
    (State.reset.enabled (hdP 0) = false ∧ s.enabled (hdP 63) = true ∧ s.enc = []) ∧
    State.reset.pageFenced .gate 3 = false := by decide

theorem witness_HeadLines_disable : ∀ e, ((headOn Machine.head0).cv e 0).closing = false := fun _ => rfl

/-- A Belja packet of head 63. -/
def pkt0 (typ : Nat) (b : Option Nat) : BlPkt := ⟨63, typ, 0, 0, false, false, 0, 0, [], b, false, false⟩

/-- An idle lane of link engine 0 with a queue. -/
def lane (q : List BlPkt) : BlLane := ⟨q, 0, none, 0, false, false, none, []⟩

/-- Quad 15 bound to link engine 0, lane 63 at the lowest rate, head 63 of engine 0 on that lane. -/
def beljaOn (locked : Nat) (q : List BlPkt) : State :=
  { st [(lnP 63, LN_CFG_PROTO, 1), (lnP 63, LN_CFG_RATE, 2), (quadP 63, LN_QSTAT_A_LOCK, locked), (hdP 63, HDR_CTRL_ENABLE, 1),
      (blP 0, BL_HEAD_LANES_LANE0 63, 63)] with
    blQuads := [(0, [15])], blLanes := [(63, lane q)] }

theorem witness_BeljaLanes :
    let e := ((beljaOn 1 []).geoAct 63).engine
    ((State.reset.lnRun 0).1 ≠ 2 ∧ ∀ a, a < 4 → (State.reset.bl a 0).queue = []) ∧ (beljaOn 1 []).laneTurn 63 = none ∧
    (((beljaOn 0 []).lnRun 63).1 = 2 ∧ (beljaOn 1 []).lnLocked 63 = true) ∧
    ((beljaOn 1 []).enabled (hdP 63) = true ∧ ((beljaOn 1 []).quadBls (63 / 4)).contains e = true ∧
      ((beljaOn 1 []).laneHeads e 63).contains 63 = true ∧ ((beljaOn 1 []).bl e 63).queue = []) ∧
    ((beljaOn 1 []).quadBls (63 / 4) = [0] ∧ ((beljaOn 1 []).laneFree 63).nextSlot 0 63 = none) ∧
    (State.reset.pageFenced .bl 3 = false ∧ true ≠ (State.reset.bl 3 63).copy) ∧
    (State.reset.on (blP 3) BL_SCHED_CTRL_SWAP = false ∧
      State.reset.slotless 3 (fun _ => !State.reset.on (blP 3) BL_SCHED_CTRL_ACTIVE) (fun _ => true) = none ∧
      (beljaOn 1 []).slotless 0 (fun _ => !(beljaOn 1 []).on (blP 0) BL_SCHED_CTRL_ACTIVE) (fun _ => true) = some (63, 63)) ∧
    ((st [(blP 0, BL_SCHED_CTRL_SWAP, 1)]).pageFenced .bl 0 = false ∧
      (st [(blP 0, BL_SCHED_CTRL_SWAP, 1)]).on (blP 0) BL_SCHED_CTRL_SWAP = true) := by decide

theorem witness_BeljaLanes_pick :
    let nothing := beljaOn 1 [pkt0 2 (some 5)]
    let ahead := beljaOn 1 [pkt0 1 none]
    let lost := beljaOn 0 [pkt0 1 none]
    (nothing.laneTurn 63 = some 0 ∧ ((nothing.laneFree 63).blPick 0 63).1 = none) ∧
    (ahead.laneTurn 63 = some 0 ∧ ((ahead.laneFree 63).blPick 0 63).1 = some (pkt0 1 none, none)) ∧
    ((ahead.laneFree 63).blPick 0 63).2.lnLocked 63 = true ∧ ((lost.laneFree 63).blPick 0 63).2.lnLocked 63 = false := by decide

/-- A receiver's frame of one line, line 0 held or not. -/
def rcvFrame0 (l : Store (List Nat)) : RcvFrame := ⟨0, 0, 1, 1, 2, 1, 0, false, l, 0⟩

/-- An FRAME_END packet for head 63 with its CRC-32C. -/
def framePacket : List Nat := [19, 0, 5, 63, 7, 0, 0, 0, 253, 255, 0, 0, 0, 0, 0, 0, 194, 203, 68, 138]

set_option maxRecDepth 20000 in
theorem witness_ReferenceReceiver :
    let got := { rcv0 63 with aligned := [4], frames := [rcvFrame0 [(0, [1])]], blanked := false }
    let s := { State.reset with rcvs := [(63, got)] }
    ((0 : Fin 4).val < (State.reset.rcv 63).lanesOf 1 ∧ (State.reset.rcv 63).cfg.rates.getD 1 0 = 3) ∧
    ((State.reset.rcv 63).lanesOf 1 ≤ (3 : Fin 4).val ∧ (State.reset.rcv 63).cfg.rates.getD 0 0 ≠ 2) ∧
    (State.reset.rcv 63).aligned.contains 4 = false ∧ (s.rcv 63).aligned.contains 4 = true ∧
    (true && got.valid got.cfg.head framePacket) = true ∧ (false && got.valid got.cfg.head framePacket) = false ∧
    duePair (Config.rcvDelay 0) (State.reset.rcv 0).frames = none ∧
    duePair (Config.rcvDelay 63) (s.rcv 63).frames = some (rcvFrame0 [(0, [1])], none) ∧
    Store.find (rcvFrame0 [(0, [1])]).next (rcvFrame0 [(0, [1])]).lines = some [1] ∧
    (State.reset.rcv 0).blanked = true ∧ (s.rcv 63).blanked = false := by decide

theorem witness_LinkLanes :
    let on := st [(pg .ln 60, LN_QSTAT_B_ON, 1)]
    let lk := st [(pg .ln 60, LN_QSTAT_B_ON, 1), (pg .ln 60, LN_QSTAT_B_LOCK, 1)]
    let tst := st [(lnP 63, HDR_CTRL_ENABLE, 1), (lnP 63, LN_CFG_RATE, 2), (quadP 63, LN_QSTAT_A_LOCK, 1), (lnP 63, LN_PAT_CTRL_CHK, 1)]
    let up := st [(pg .ln 60, LN_QSTAT_B_ON, 1), (clkP, CLK_STAT_LREF0_OK, 1), (clkP, CLK_STAT_LREF1_OK, 1)]
    let sent := List.replicate 64 true
    State.reset.on (pg .ln 0) (pllFlds 0).1 = false ∧ on.on clkP (on.pllRef 15 1) = false ∧
    (up.on (pg .ln 60) (pllFlds 1).1 = true ∧ up.on (pg .ln 60) (pllFlds 1).2.1 = false ∧ up.on clkP (up.pllRef 15 1) = true) ∧
    (on.on (pg .ln 60) (pllFlds 1).1 = true ∧ on.on (pg .ln 60) (pllFlds 1).2.1 = false) ∧
    (lk.on (pg .ln 60) (pllFlds 1).1 = true ∧ lk.on (pg .ln 60) (pllFlds 1).2.1 = true) ∧
    Store.find 0 State.reset.pllRetry = none ∧ Store.find 31 ({ State.reset with pllRetry := [(31, 5)] }).pllRetry = some 5 ∧
    State.reset.lnRx 0 = false ∧ (tst.lnRx 63 = true ∧ tst.on (lnP 63) LN_ST_LOS ≠ true) ∧
    (tst.lnTest 63 = true ∧ patOn (tst.rd (lnP 63) LN_PAT_CTRL_CHK) = true ∧ tst.on (lnP 63) LN_PAT_CTRL_LOCKED = false ∧
      (tst.pat 63).rx = [] ∧ sent.length = 64) ∧
    (tst.wb (lnP 63) LN_PAT_CTRL_LOCKED true).on (lnP 63) LN_PAT_CTRL_LOCKED = true := by decide

/-- Unit 23 enabled and owned by the host, with a tap. -/
def cvuOn (tap : Nat) (x : CvuSt) : State :=
  { st [(cvuP 23, HDR_CTRL_ENABLE, 1), (cvuP 23, CVU_CFG_TAP, tap), (cvuP 23, CVU_CFG_ACCUM, 1), (cvuP 23, CVU_CFG_SRC, 2),
      (cvuP 23, CVU_WIN_BASE_BASE, loftBase / 256), (cvuP 23, CVU_WIN_LIMIT_LIMIT, loftBase / 256)] with
    cvus := [(23, x)], fab := { State.reset.fab with reqs := [req0] } }

theorem witness_CheckValueUnits :
    let mine := (cvuOn 0 Machine.cvu0).wr (ownPg (cvuIdx 23)) (OWN_ENT_OWNER (cvuIdx 23 % 1024)) Writer.host.fid
    State.reset.pageFenced .cvu 23 = false ∧ (cvuOn 0 Machine.cvu0).pageFenced .cvu 23 = false ∧ State.reset.cvuMine .host 0 = false ∧
    (mine.cvuMine .host 23 = true ∧ mine.rd (cvuP 23) CVU_CFG_TAP = 0 ∧ mine.rd (cvuP 23) CVU_CFG_MODE = 0 ∧
      (mine.cvu 23).queue.length < 16 ∧ mine.ownedBy Writer.host.fid (cvuIdx 23) = true) ∧
    16 ≤ ({ Machine.cvu0 with queue := List.replicate 16 (0, 0) }).queue.length ∧
    (State.reset.cvu 0).queue = [] ∧
    (((cvuOn 0 { Machine.cvu0 with queue := [(9, 1)] }).cvu 23).queue = (9, 1) :: [] ∧
      (cvuOn 0 Machine.cvu0).ownedBy Writer.mss.fid (cvuIdx 23) = false ∧ (cvuOn 0 Machine.cvu0).rd (cvuP 23) CVU_CFG_TAP < 2) ∧
    State.reset.enabled (cvuP 23) = false ∧
    (let s := cvuOn 1 Machine.cvu0
     s.enabled (cvuP 23) = true ∧ s.rd (cvuP 23) CVU_CFG_TAP = 1 ∧ s.on (cvuP 23) CVU_CFG_ACCUM = true) ∧
    (let s := (cvuOn 1 { Machine.cvu0 with seen := [(loftBase, [1, 2])] }).wb (cvuP 23) CVU_CFG_ACCUM false
     s.enabled (cvuP 23) = true ∧ s.rd (cvuP 23) CVU_CFG_TAP = 1 ∧ s.on (cvuP 23) CVU_CFG_ACCUM = false ∧
     (s.cvu 23).seen = (loftBase, [1, 2]) :: [] ∧ s.rd (cvuP 23) CVU_CFG_MODE = 0 ∧ (s.cvu 23).queue.length < 16) ∧
    (State.reset.cvu 23).seen = [] := by decide

/-- A record of bay 0. -/
def tapRec0 : TapRec := ⟨0, 0, 0, 0, 16, 16, false⟩

/-- A recording channel's state. -/
def ch0 : EncCh := ⟨⟨1, 2, 4, 2, 0, 0, 1, 1, 0, 0, false, false, false, 0, 0⟩, none, none, none, none, [], false, true, 0, [], [], (16, 16)⟩

/-- Pipeline 1 enabled with its PLL, channel 31 enabled with records waiting. -/
def encOn (x : EncCh) (ring : Nat) : State :=
  { running (st [(encP 1, HDR_CTRL_ENABLE, 1), (encP 1, ENC_CH_CTRL_EN 31, 1), (bayE 0, BAYD_STAT_STATE, 2),
      (encP 1, ENC_CH_RING_BAY 31, ring)]) with enc := [(63, x)], encRecs := [(63, [⟨0, 0, 0, 64⟩])] }

/-- The picture of that record in progress on pipeline 1. -/
def encJob0 : EncJob := ⟨31, tapRec0, true, false, 1000000, false, [], none⟩

/-- The same pipeline while it codes the picture. -/
def encBusy (ring : Nat) : State := { encOn ch0 ring with encJobs := [(1, encJob0)] }

/-- Channel 0 of pipeline 0 as R327 accepts it: head 1 enabled, bay 0 a ring of 1 MiB. -/
def encFit : State :=
  st [(encP 0, HDR_CTRL_ENABLE, 1), (pg .hd 1, HDR_CTRL_ENABLE, 1), (bayE 0, BAYD_STAT_STATE, 2), (bayE 0, BAYD_SIZE_FORMAT, 5),
    (bayE 0, BAYD_SIZE_SIZE, 256), (encP 0, ENC_CH_CAP_BITS 0, 1000000), (encP 0, ENC_CH_ICAP_BITS 0, 1000000)]

theorem witness_RecordingChannels :
    let x := { ch0 with queue := [tapRec0], ended := some tapRec0 }
    let s := encOn x 0
    s.on (encP 1) (ENC_CH_CTRL_EN 31) = true ∧ State.reset.on (encP 0) (ENC_CH_CTRL_EN 0) = false ∧
    Store.find 63 s.enc = some x ∧ ch0.ended = none ∧ x.ended = some tapRec0 ∧ s.pageFenced .enc 1 = false ∧
    (st [(0, SYS_FENCE_A_ENC, 2)]).pageFenced .enc 1 = true ∧ State.reset.pll 2 = false ∧
    (State.reset.drvRuns = false ∧ s.drvRuns = true) ∧
    Store.getD [] 0 State.reset.encRecs = [] ∧ Store.getD [] 63 s.encRecs = ⟨0, 0, 0, 64⟩ :: [] ∧
    State.reset.enabled (encP 0) = false ∧
    (s.enabled (encP 1) = true ∧ s.pll 2 = true ∧ Store.find 1 s.encJobs = none ∧ s.encNext 1 = some (31, tapRec0) ∧
      s.encRing 1 31 = true ∧ (encOn x 1).encRing 1 31 = false) ∧
    bit 1 0 = true ∧ bit 0 0 = false := by decide

theorem witness_RecordingChannels_busy :
    (Store.find 1 (encBusy 0).encJobs = some encJob0 ∧ Store.find (1 * 32 + encJob0.ch) (encBusy 0).enc = some ch0) ∧
    (encBusy 0).encRing 1 encJob0.ch = true ∧ (encBusy 1).encRing 1 encJob0.ch = false := by decide

theorem witness_RecordingChannels_done :
    let x := Config.encCode ((encBusy 0).encRead 1 encJob0 ch0).1
    (∃ c, c = x) ∧ ∃ c, c ≠ x :=
  ⟨⟨_, rfl⟩, ⟨{ coded0 with qpAvg := (Config.encCode ((encBusy 0).encRead 1 encJob0 ch0).1).qpAvg + 1 }, fun h => by
    have := congrArg EncCoded.qpAvg h
    simp at this⟩⟩

theorem witness_PicturesStayWithinTheirCap :
    (1 * (256 + 1 * if false = true then 48 else 16) ≤ 272) ∧ (2 * (256 + 3 * if true = true then 48 else 16) ≤ 1000) := by decide

theorem witness_RecordingChannels_enable :
    (State.reset.setFields (encP 0) (chCtrlFields 0) 1).chRefusal 0 0 = some 0 ∧
    (encFit.setFields (encP 0) (chCtrlFields 0) 0x103).chRefusal 0 0 = none := by decide

/-- Both touch pages enabled, page 1 mirrored. -/
def touchOn (t : TchSt) : State :=
  { st [(tchP 0, HDR_CTRL_ENABLE, 1), (tchP 1, HDR_CTRL_ENABLE, 1), (keyP, HDR_CTRL_ENABLE, 1), (pg .yk 0, YK_CFG_MIRROR_IN, 2)] with
    tch := [(0, t), (1, t)], keys := { State.reset.keys with init := some 7 } }

theorem witness_TouchFrames :
    let s := touchOn tch0
    State.reset.enabled (tchP 1) = false ∧
    (s.enabled (tchP 0) = true ∧ s.mirrorIn 0 = false ∧ (s.tchSt 0).scanning = false ∧ s.pwrState < 2 ∧ s.far.run = none) ∧
    2 ≤ (s.wr pwrP PWR_STATE_STATE 2).pwrState ∧
    ((touchOn { tch0 with scanning := true, calib := true }).tchSt 1).scanning = true ∧
    (s.enabled (tchP 1) = true ∧ s.mirrorIn 1 = true ∧ (s.tchSt 1).lost = false) ∧
    State.reset.enabled keyP = false ∧ (s.enabled keyP = true ∧ s.keys.init = some 7) ∧
    ({ s with keys := State.reset.keys }).keys.init = none := by decide

/-- A SET_CLAIM message for node 0 that asks for a claim, with NONCE 0 and NOT_AFTER 0. -/
def claimBytes (claim : Nat) : List Nat :=
  [0x51, 0x59, 0x4D, 0x31, 16, 1, 144, 0] ++ List.replicate 24 0 ++ [claim] ++ List.replicate 111 0

/-- The same message at NET 0, at the port that the site record of `yokeIn` gives the device. -/
def claimMsg : SetClaimMsg := ⟨0, 257, claimBytes 1⟩

/-- The yoke in a state, with a site record and a valid node number. -/
def yokeIn (y : YokeSt) : State := { st [(0, SYS_NODE_VALID, 1)] with yoke := y, mss := { State.reset.mss with site := (List.replicate 64 1).set 8 0 } }

set_option maxRecDepth 20000 in
theorem witness_Claims :
    let s := yokeIn { yoke0 with cmds := [claimBytes 1], state := 2 }
    let full := yokeIn { yoke0 with cmds := List.replicate 4 (claimBytes 1) }
    let away := s.wr 0 SYS_NODE_NODE_ID 512
    State.reset.claim ≤ (0 : BitVec 8).toNat ∧ (0 : BitVec 8).toNat < (st [(ykP, YK_CLAIM_CLAIM, 1)]).claim ∧ Writer.host ≠ .mss ∧
    (State.reset.contact = false ∧ State.reset.node % 2 = 0) ∧
    State.reset.setTest 0 = some 1 ∧ State.reset.setTest 255 = some 1 ∧ State.reset.setTest 254 = none ∧
    State.reset.claimHeard claimMsg = false ∧ (away.claimHeard claimMsg = true ∧ away.wrongSite = true) ∧
    (s.claimHeard claimMsg = true ∧ s.wrongSite = false ∧ s.yoke.cmds.length < 4 ∧ s.yoke.cmds = claimBytes 1 :: []) ∧
    (full.claimHeard claimMsg = true ∧ full.wrongSite = false ∧ 4 ≤ full.yoke.cmds.length) ∧ State.reset.yoke.cmds = [] ∧
    (recNum (claimBytes 1) 0x20 1 < 256 ∧ bits (recNum (claimBytes 1) 8 2) 0 14 = s.node ∧
      recNum (claimBytes 1) 0x18 8 = s.yoke.nonce ∧ s.now ≤ recNum (claimBytes 1) 0x28 8 ∧
      s.setTest (recNum (claimBytes 1) 0x20 1) = none) ∧
    (s.setTest (recNum (claimBytes 0) 0x20 1)).isSome = true := by decide

/-- An odd device in contact with a partner that holds 1, at claim 2. -/
theorem witness_Claims_tie :
    let s := st [(ykP, YK_CLAIM_CLAIM, 2), (ykP, YK_PARTNER_VALID, 1), (ykP, YK_CLAIM_PARTNER, 1), (0, SYS_NODE_NODE_ID, 1)]
    (1 : BitVec 8).toNat < s.claim ∧ s.contact = true ∧ (1 : BitVec 8).toNat = s.partnerClaim ∧ s.node % 2 = 1 ∧
      s.yoke.link = false := by decide

/-- A signature is a parameter of the model: the held message takes effect wherever the parameter passes it. -/
theorem witness_Claims_signed (h : Config.ecdsaOk (((yokeIn yoke0).mss.site.drop 0x40).take 96) (Config.sha384 ((claimBytes 1).take 0x30))
      (((claimBytes 1).drop 0x30).take 96) = true) :
    let s := yokeIn { yoke0 with cmds := [claimBytes 1], state := 2 }
    s.yoke.cmds = claimBytes 1 :: [] ∧
      Config.ecdsaOk ((s.mss.site.drop 0x40).take 96) (Config.sha384 ((claimBytes 1).take 0x30)) (((claimBytes 1).drop 0x30).take 96) = true :=
  ⟨rfl, h⟩

theorem witness_Claims_heartbeat :
    let off := st [(mssP, MSS_BOOT_STAGE, 6)]
    let s := { yokeIn { yoke0 with state := 2 } with regs := ((yokeIn yoke0).wr mssP MSS_BOOT_STAGE 6).regs }
    let run := fun (s : State) => { s with mss := { s.mss with hold := 0 } }
    State.reset.mss.hold ≠ 0 ∧ State.reset.bootStage < 6 ∧
    ((run off).mss.hold = 0 ∧ 6 ≤ (run off).bootStage ∧ (run off).on 0 SYS_NODE_VALID = false) ∧
    ((run s).mss.hold = 0 ∧ 6 ≤ (run s).bootStage ∧ (run s).on 0 SYS_NODE_VALID = true ∧ (run s).siteNum 0x30 4 ≠ 0 ∧
      (run s).wrongSite = false ∧ (run s).netsUp ((run s).siteNum 0x30 4) = 0 ∧ ∀ e, e < 8 → (run s).on tb (TB_RXL_RUN e) = false) ∧
    (((run s).wb (pg .net 0) HDR_CTRL_ENABLE true).wb (pg .net 0) NET_LINK_UP true).netsUp ((run s).siteNum 0x30 4) = 1 := by decide

/-- The link up in a team, with one frame of channel 4 unacknowledged. -/
def linkUp (resends : Nat) : State :=
  yokeIn { yoke0 with
    state := 3, link := true, vcs := [(4, { vc0 with unacked := [⟨4, 0, 0, [], none, resends⟩] })] }

set_option maxRecDepth 20000 in
theorem witness_YokeLink :
    let seek := yokeIn { yoke0 with state := 2 }
    let lk := linkUp 6
    let b := [0x17, 0, 0, 0, 0, 0, 0, 0, 0, 0, 0, 0, 0, 0, 0, 0, 199, 202, 110, 253]
    State.reset.yoke.state ≠ 2 ∧
    (seek.yoke.state = 2 ∧ seek.on 0 SYS_NODE_VALID = true ∧ seek.yoke.link = false ∧ (15 : BitVec 4).toNat % 2 = 1 ∧ seek.yoke.retryAt ≤ seek.time.run ∧
      creditSum (seek.vc 2).unacked + creditsOf seek.helloBytes.length ≤ seek.rd ykP (YK_VC_BUF_UNITS 2)) ∧
    (lk.yoke.link = true ∧ lk.unlocked = false ∧ b.getD 0 0 % 8 = 7 ∧ b.getD 0 0 / 16 % 16 = 1 ∧ b.length = 20 + num b 2 2 ∧
      num b (16 + num b 2 2) 4 = crc32c (le lk.teamMate 2 ++ le lk.node 2 ++ le 0 4 ++ b.take (16 + num b 2 2)) ∧
      bit (b.getD 12 0) 3 = false ∧ bit (b.getD 13 0) 7 = false) ∧
    (State.reset.yoke.link = false ∧ (State.reset.vc 4).unacked = []) ∧
    ((lk.vc 4).unacked ≠ [] ∧ (∀ f ∈ (lk.vc 4).unacked, f.resent < 7) ∧ ∃ f ∈ ((linkUp 7).vc 4).unacked, 7 ≤ f.resent) ∧
    (yokeIn { yoke0 with state := 6 }).yoke.state = 6 := by decide

/-- A check value kept at its object's count 0. -/
def chk0 : ChkVal := ⟨0, 0, 0, 0, [], 0⟩

theorem witness_TeamWork :
    let team := (linkUp 0).wr ykP (YK_VC_CRED_HELD 2) 1
    let join := yokeIn { yoke0 with state := 3, offOk := some 5 }
    let fwd := yokeIn { yoke0 with vcs := [(0, { vc0 with wait := [(1, [], 7)] })] }
    let e : MergeEnt := ⟨1, 1, 0, 0, ⟨0, 17, 3, 511, false, true, 9, frame0⟩⟩
    let old := fun (l m : List ChkVal) => yokeIn { yoke0 with own := l, partner := m, counts := [(chk0.key, 5)] }
    State.reset.yoke.link = false ∧
    (team.yoke.link = true ∧ team.inTeam = true ∧ (team.vc 2).wait = [] ∧ 1 ≤ team.rd ykP (YK_VC_CRED_HELD 2) ∧
      creditSum (team.vc 2).unacked + 1 ≤ team.rd ykP (YK_VC_BUF_UNITS 2)) ∧
    State.reset.yoke.offOk = none ∧ (join.yoke.offOk = some 5 ∧ join.yoke.state = 3 ∧ join.time.pend = none) ∧
    takeFirst (fun (e : Nat × List Nat × Nat) => decide (e.1 = 1)) (State.reset.vc 0).wait = none ∧
    takeFirst (fun (e : Nat × List Nat × Nat) => decide (e.1 = 1)) (fwd.vc 0).wait = some ((1, [], 7), []) ∧
    State.reset.yoke.merge = [] ∧ ((yokeIn { yoke0 with merge := [e] }).yoke.merge = e :: [] ∧ yoke0.hand ≠ 1) ∧
    ({ yoke0 with hand := 1 }).hand = 1 ∧
    State.reset.inTeam = false ∧ team.isSeq = true ∧
    takeFirst (old [chk0] []).chkOld (old [chk0] []).yoke.own = some (chk0, []) ∧
    (takeFirst (old [] [chk0]).chkOld (old [] [chk0]).yoke.own = none ∧
      takeFirst (old [] [chk0]).chkOld (old [] [chk0]).yoke.partner = some (chk0, [])) ∧
    takeFirst State.reset.chkOld State.reset.yoke.partner = none := by decide

/-- The state after reset with the MSS held as given: 0 is not held. -/
def mssIn (hold : Nat) (s : State) : State := { s with mss := { s.mss with hold := hold } }

/-- The hypotheses of the two slots: with an erased NOR neither boots. That one boots rests on a signature and digests, which are
parameters of the model, and no state decides it. -/
theorem witness_MssRuns :
    let run := mssIn 0 State.reset
    let one := mssIn 0 (st [(mssP, MSS_BOOT_STAGE, 1), (0, SYS_WDOG_EN, 1)])
    State.reset.mss.hold ≠ 0 ∧ (run.mss.hold = 0 ∧ run.recovery = false ∧ run.bootStage = 0 ∧ run.mss.recover = false) ∧
    ({ run with mss := { run.mss with recover := true } }).mss.recover = true ∧
    (one.mss.hold = 0 ∧ one.recovery = false ∧ one.bootStage = 1 ∧ one.slotBoots true = false ∧ one.slotBoots false = false) ∧
    one.on 0 SYS_WDOG_EN = true ∧ (run.mss.hold = 0 ∧ run.mss.lastMiss = none ∧ run.hit.held = []) ∧
    ({ run with mss := { run.mss with lastMiss := some 5 } }).mss.lastMiss = some 5 ∧ (st [(0, SYS_WDOG_EN, 0)]).on 0 SYS_WDOG_EN = false ∧
    Writer.host ≠ .mss := by decide

theorem witness_SensorsAndLog :
    State.reset.mss.hold = 1 ∧ (mssIn 5 State.reset).mss.hold = 5 ∧ (mssIn 4 State.reset).mss.hold = 4 ∧
    ((mssIn 3 State.reset).mss.hold ≠ 1 ∧ (mssIn 3 State.reset).mss.hold ≠ 4 ∧ (mssIn 3 State.reset).mss.hold ≠ 5) ∧ Writer.host ≠ .mss := by decide

theorem witness_SensorsAndLog_crit : ∀ i, Store.getD 0 i (mssIn 0 State.reset).mss.crit ≠ 9 := fun _ h => Nat.noConfusion h

/-- The sag in a state, its inputs watched and one daybook record not yet mirrored. -/
def sagIn (state : Nat) : State :=
  mssIn 0 (st [(sagP, SAG_STAT_STATE, state), (sagP, SAG_CFG_PFAIL_EN, 1), (mssP, MSS_VS_SAG_WATCH 15, 1), (sagP, SAG_CFG_MIRROR, 1),
    (pg .dbk 0, DBK_WR_COUNT, 1)])

theorem witness_SagDetectToRestart_cooled :
    ((upTo 12).foldl (fun s i => (s.wb mssP (MSS_TS_VAL_VALID i) true).wr mssP (MSS_TS_LIM_WARN i) 100) (sagIn 2)).cooled = true := by decide

theorem witness_SagDetectToRestart :
    let s := sagIn 0
    State.reset.mss.hold = 1 ∧ (sagIn 2).sagState ≠ 0 ∧
    (s.mss.hold ≠ 1 ∧ s.mss.hold ≠ 5 ∧ s.sagState = 0 ∧ s.on sagP SAG_CFG_PFAIL_EN = true ∧ s.on mssP (MSS_VS_SAG_WATCH 15) = true ∧
      s.blQuads = []) ∧
    ((sagIn 1).sagState ≠ 0 ∧ (sagIn 1).sag.tailed = false ∧ (sagIn 1).sagState = 1 ∧ s.sagState ≠ 1 ∧ s.sagState ≠ 2 ∧
      (sagIn 2).sagState = 2) ∧
    (mssIn 5 s).mss.hold = 5 ∧
    ({ sagIn 2 with sag := { (sagIn 2).sag with cause := 2 } }).cooled = false ∧ (sagIn 2).sag.cause ≠ 2 ∧ State.reset.mirrors = false ∧
    (({ s with mss := { s.mss with restore := false } }).mirrors = true ∧ s.on sagP SAG_CFG_MIRROR = true ∧ s.unsavedFrom (s.rd (pg .dbk 0) DBK_WR_COUNT) < s.rd (pg .dbk 0) DBK_WR_COUNT) ∧
    (st [(sagP, SAG_CFG_MIRROR, 0)]).on sagP SAG_CFG_MIRROR = false := by decide

/-- The farrier with a run in progress on port 1. -/
def farIn (frames : Nat) (auto : Nat) : State :=
  { mssIn 0 (st [(farP, FAR_CTRL_AUTO, auto), (tchP 1, HDR_CTRL_ENABLE, 1), (mssP, MSS_TS_VAL_T 11, 0x7FFF)]) with
    far := ⟨some 1, [1], [(1, frames)], none, [], 0⟩ }

theorem witness_Farrier :
    let idle := { farIn 0 1 with far := State.reset.far }
    (farIn 0 0).on farP FAR_CTRL_AUTO = false ∧ (mssIn 2 State.reset).farFree = false ∧
    (11 < 12 ∧ idle.on farP FAR_CTRL_AUTO = true ∧ idle.farFree = true ∧ idle.far.run = none ∧ idle.far.lastEnd = none ∧
      16 * max 1 (idle.rd farP FAR_TRIG_DELTA) <
        (sint 16 (idle.rd mssP (MSS_TS_VAL_T 11)) - sint 16 (idle.rd farP (FAR_BASE_T_T 11))).natAbs) ∧
    ((farIn 0 0).farFree = true ∧ (farIn 0 0).far.run.isSome = true) ∧
    (1 ∈ (farIn 57 0).far.ports ∧ Store.getD 0 1 (farIn 57 0).far.frames < 58 ∧ (farIn 57 0).enabled (tchP 1) = true) ∧
    ((farIn 58 0).far.run = some 1 ∧ ∀ p ∈ (farIn 58 0).far.ports, 58 ≤ Store.getD 0 p (farIn 58 0).far.frames) := by decide

/-- A charged supply, the update unit in a state, slot B with one component of type 2, canvas 63 active. -/
def updIn (state : Nat) (u : UpdSt) : State :=
  { mssIn 0 (st [(sagP, SAG_STAT_CHARGED, 1), (updP, UPD_STATE_STATE, state), (updP, UPD_HO_CFG_CANVAS, 63)]) with
    upd := u, act := canvasOn.act
    nor := [(0x2000006, 1), (0x2000007, 0), (0x2000040, 2), (0x2000048, 0), (0x2000049, 0), (0x200004A, 0), (0x200004B, 0)] }

/-- No session. -/
def updNone : UpdSt := State.reset.upd

/-- An open session over the UART for a package of four bytes. -/
def updSess (got : List Nat) : UpdSt := { updNone with path := 3, length := 4, got := got }

/-- A message of R429 over the UART. -/
def uart (typ off : Nat) (data : List Nat) : UpdReq :=
  let h := [0x51, 0x55, 0x50, 0x31] ++ le typ 2 ++ le data.length 2 ++ le off 4 ++ le 0 4 ++ data
  let m := h ++ le (crc32c h) 4
  { upd0 with bytes := [0x7E] ++ le m.length 2 ++ m }

set_option maxRecDepth 20000 in
theorem witness_UpdateSession_heard :
    let s := updIn 0 updNone
    let other : UpdReq := uart 7 0 []
    (s.updHeard 1 (uart 1 0x1000 []) = true ∧ s.updHeard 2 (uart 2 0 [1]) = true ∧ s.updHeard 3 (uart 3 0 []) = true) ∧
    (s.updHeard 4 (uart 4 0 []) = true ∧ s.updHeard 5 (uart 5 0 []) = true ∧ s.updHeard 6 (uart 6 0 []) = true) ∧
    (∀ k, k < 7 → s.updHeard k other = false) := by decide

set_option maxRecDepth 20000 in
theorem witness_UpdateSession :
    let r := uart 1 0x1000 []
    let b := uart 2 0 [1, 2, 3, 4]
    let again := updIn 2 { updSess [] with replies := [(3, b.bytes, 0)] }
    State.reset.openCode r = some 4 ∧ (updIn 0 updNone).openCode r = none ∧ (updIn 0 updNone).blockCode b = some 9 ∧
    (again.firstReply b = some 0 ∧ (updIn 2 (updSess [])).firstReply b = none) ∧
    ((updIn 2 (updSess [])).blockCode b = none ∧
      (updIn 2 (updSess [])).granule ((updIn 2 (updSess [])).blockOf b).1 ((updIn 2 (updSess [])).blockOf b).2.length = none) ∧
    ((updIn 2 (updSess [0])).closeCode b = none ∧ (updIn 2 (updSess [])).closeCode b = some 11) ∧
    ((updSess []).path ≠ 0 ∧ (updSess []).path = (3 : Fin 4).val ∧ (updSess []).path ≠ (1 : Fin 4).val) ∧
    ((updIn 1 updNone).updState = 1 ∧ (updIn 0 updNone).updState ≠ 1 ∧ (updIn 3 updNone).updState = 3 ∧ updNone.writing = []) ∧
    ({ updNone with writing := [(0, [1])] }).writing = (0, [1]) :: [] := by decide

theorem witness_UpdateActivation :
    let s := updIn 4 updNone
    s.updHeard 4 upd0 = false ∧ State.reset.activateCode = some 4 ∧ s.activateCode = none ∧ updNone.grace = none ∧ ({ updNone with grace := some 7 }).grace = some 7 ∧
    (Writer.drover 0 ≠ .host ∧ Writer.drover 0 ≠ .mss) ∧ (s.updState ≠ 6 ∧ (updIn 6 updNone).updState = 6) ∧
    (State.reset.handoverCode = some 4 ∧ s.handoverCode = none ∧ (s.pkgComp (slotBase true) 2).isSome = true) ∧
    (updNone.ho ≠ 1 ∧ updNone.ho < 2) ∧
    (let h := updIn 7 { updNone with ho := 2 }
     h.upd.ho = 2 ∧ h.now ≤ h.hoEnd ∧ ({ h with time := { h.time with yt := ns 6000000 } }).hoEnd <
       ({ h with time := { h.time with yt := ns 6000000 } }).now) ∧
    (({ updNone with ho := 1 }).ho = 1 ∧ s.cvEngine (s.rd updP UPD_HO_CFG_CANVAS) = some 0) ∧ 2 ≤ ({ updNone with ho := 3 }).ho := by
  decide

/-- A digest is a parameter of the model: a component's digest is right wherever the parameter gives it. -/
theorem witness_UpdateActivation_digest (e : PkgEntry) (h : (updIn 4 updNone).pkgComp (slotBase true) 2 = some e)
    (d : Config.sha384 ((updIn 4 updNone).norBytes (slotBase true + e.off) e.len) = e.digest) :
    (updIn 4 updNone).handoverCode = none ∧ (updIn 4 updNone).pkgComp (slotBase true) 2 = some e ∧
      (updIn 4 updNone).digestOk (slotBase true) e = true :=
  ⟨by decide, h, decide_eq_true d⟩

/-- A handover record of version 0 at the loft's base. -/
def handed : State :=
  { updIn 7 { updNone with ho := 3 } with
    loft := [(0, 0x51), (1, 0x48), (2, 0x4E), (3, 0x44), (8, 32), (24, 158), (25, 44), (26, 142), (27, 232)] }

set_option maxRecDepth 20000 in
/-- Which versions the drovers accept is a parameter of the model. -/
theorem witness_UpdateActivation_accepted (h : Config.hoAccepts 0 = true) : handed.upd.ho = 3 ∧ handed.hoAccepted = true := by
  refine ⟨rfl, ?_⟩
  have e : handed.hoAccepted = (true && Config.hoAccepts 0) := rfl
  rw [e, h]; rfl

/-- The power unit in a state. -/
def pwrIn (state : Nat) : State :=
  mssIn 0 (st [(pwrP, PWR_STATE_STATE, state), (pwrP, PWR_WAKE_EN_ALARM, 1), (pwrP, PWR_WAKE_AT_LO_T, 1)])

theorem witness_StableAndWake :
    let s := pwrIn 0
    (pwrIn 1).stableRefusal = some (0, 3) ∧ (s.stableRefusal = none ∧ s.hit.held = []) ∧ s.pwrState ≠ 1 ∧ (pwrIn 1).pwrState = 1 ∧
    ((pwrIn 2).pwrState = 2 ∧ (pwrIn 2).on pwrP PWR_WAKE_EN_ALARM = true ∧
      (pwrIn 2).pwr.from_ < (pwrIn 2).rd64 pwrP PWR_WAKE_AT_LO_T PWR_WAKE_AT_HI_T) ∧
    ((pwrIn 1).pwr.wakes = [] ∧ ({ (pwrIn 1).pwr with wakes := [0] }).wakes ≠ []) ∧
    ((pwrIn 3).pwrState = 3 ∧ ((pwrIn 3).wb (tchP 0) HDR_CTRL_ENABLE true).enabled (tchP 0) = true) ∧ (s.pwrState = 0 ∧ s.mss.hold = 0 ∧ s.mss.drovers = false ∧ s.recovery = false ∧ s.drvCodeOk.1 = false) ∧
    State.reset.mss.hold ≠ 0 := by decide

/-- The drovers' code, here of no bytes, is right wherever its digest is that of the component loaded. -/
theorem witness_StableAndWake_code :
    ({ pwrIn 0 with mss := { (pwrIn 0).mss with drv := some (0, Config.sha384 [], 0) } }).drvCodeOk.1 = true := decide_eq_true rfl

theorem witness_DeviceClocks :
    let idle := { State.reset with pwr := { State.reset.pwr with codecIdle := some 7 } }
    State.reset.pllRuns 15 = false ∧ (State.reset.pllRuns 0 = true ∧ State.reset.pllIsLocked 0 = false) ∧
    (State.reset.pwr.failed.contains 0 = false ∧ ({ State.reset.pwr with failed := [0] }).failed.contains 0 = true) ∧
    (st [(clkP, CLK_STAT_LOCK, 1)]).pllIsLocked 0 = true ∧ State.reset.pwr.codecIdle = none ∧
    (idle.pwr.codecIdle = some 7 ∧ idle.codecUsed = false) ∧ (st [(pg .enc 1, HDR_CTRL_ENABLE, 1)]).codecUsed = true ∧
    State.reset.on clkP (refFld 3) = false ∧ State.reset.on clkP (refFld 3) ≠ true := by decide

theorem witness_Resets :
    (mssIn 5 State.reset).mss.hold = 5 ∧ (mssIn 4 State.reset).mss.hold ≠ 5 ∧ (mssIn 0 State.reset).mss.hold ≠ 1 ∧
    State.reset.mss.hold = 1 ∧ (Writer.drover 0 ≠ .host ∧ Writer.drover 0 ≠ .mss) ∧ HDR_CTRL_ENABLE.off < 0x1000 := by decide

/-- The DMA ring with work, its loft bank read or not. -/
def dmaOn (base : Nat) : State := st [(pciP, PCI_DMA_STAT_BUSY, 1), (pciP, PCI_DMA_RING_EN, 1), (pciP, PCI_DMA_RING_BASE, base)]

set_option maxRecDepth 20000 in
theorem witness_PcieAndDma :
    let r := (dmaOn 0).dmaFabric .read loftBase 32 []
    let away := (dmaOn 0x3000).dmaFabric .read (loftBase + 0x3000000) 32 []
    let x := { part0 13 0x100000000 with tag := 1023, kind := .read }
    let s := withFab State.reset fun f => { f with queued := [x] }
    ((mssIn 3 State.reset).mss.hold = 3 ∧ State.reset.mss.hold ≠ 3) ∧
    State.reset.on pciP PCI_DMA_STAT_STOPPED = false ∧ (st [(pciP, PCI_DMA_STAT_STOPPED, 1)]).on pciP PCI_DMA_STAT_STOPPED = true ∧
    State.reset.on pciP PCI_DMA_STAT_BUSY = false ∧ (dmaOn 0).on pciP PCI_DMA_STAT_BUSY = true ∧
    (r.1 = 0 ∧ ofLE ((r.2.1.drop 0x10).take 4) = 0 ∧ bit (ofLE ((r.2.1.drop 0x14).take 2)) 2 = false) ∧ away.1 ≠ 0 ∧
    (∀ x ∈ State.reset.fab.queued, x.tag = 1023 → x.target = 13 → x.kind = .write) ∧
    (s.fab.queued.filter fun x => decide (x.tag = 1023) && decide (x.target = 13) && decide (x.kind ≠ .write)) = [x] := by decide

theorem witness_GpioAndTest :
    let open_ := st [(tstP, TST_UNLOCK_UNLOCKED, 1)]
    let may := { State.reset with mss := { State.reset.mss with testAllow := true } }
    State.reset.unlockRefusal .host 1 = some 0 ∧
    ((0 : BitVec 16).toNat = may.rd tstP TST_CHAL_VALUE ∧ may.mss.testAllow = true) ∧
    State.reset.unlocked = false ∧ open_.unlocked = true ∧ State.reset.muxRefusal 3 255 0 = some 0 ∧ open_.muxRefusal 3 255 0x800 = none ∧
    State.reset.owner (32 * 7 + 31) ≠ Writer.host.fid := by decide

/-! ### Worked examples of the spec -/

set_option maxRecDepth 20000 in
/-- R304: the check value of CRC-32C over the nine digits (chapter 13's example). -/
theorem test_crc32c_check : crc32c [0x31, 0x32, 0x33, 0x34, 0x35, 0x36, 0x37, 0x38, 0x39] = 0xE3069283 := by decide

/-- The outcome of a command, as a state; `dflt` where it does not go on. -/
def after (i : Instr) (s : State) : State :=
  match exec i s with
  | .next t => t
  | _ => State.reset

/-- Chapter 13, a CRC in software: unit 0 as configured, with the three data writes made. -/
def cvuExample : State :=
  { st [(cvuP 0, CVU_CFG_WIDTH, 0x20), (cvuP 0, CVU_CFG_REFIN, 1), (cvuP 0, CVU_CFG_REFOUT, 1), (cvuP 0, CVU_POLY_POLY 0, 0x1EDC6F41),
      (cvuP 0, CVU_INIT_INIT 0, 0xFFFFFFFF), (cvuP 0, CVU_XOR_XOROUT 0, 0xFFFFFFFF), (cvuP 0, HDR_CTRL_ENABLE, 1),
      (ownPg (cvuIdx 0), OWN_ENT_OWNER (cvuIdx 0 % 1024), Writer.host.fid)] with
    cvus := [(0, { Machine.cvu0 with data := [0x31, 0x32, 0x33, 0x34, 0x35, 0x36, 0x37, 0x38, 0x39] })] }

set_option maxRecDepth 20000 in
theorem test_cvu_end : ((after (.cvuEnd .host 0) cvuExample).cvu 0).queue = [(0xE3069283, 0)] := by decide

/-- Chapter 2: DEC 5 and DRAM channel 6 fail their tests. -/
theorem test_self_test :
    let r := { selfTest0 with dec := 0x20, dmc := 0x40 }
    (State.reset.capsSet r 0x40 true).capsWord = 0xB0883CA7 ∧ 
    (State.reset.fenceSet r 0x40).rd 0 SYS_FENCE_A_DEC = 0x20 ∧ (State.reset.fenceSet r 0x40).rd 0 SYS_FENCE_A_DMC = 0x40 := by decide

/-- Chapter 3, a quad wanted twice: freeing an entry in use leaves it and writes OWN_CONFLICT. -/
theorem test_owner_in_use :
    let s := st [(0, SYS_CAPS_DEC_N, 8), (ownPg 1024, OWN_ENT_OWNER 0, 0x1200), (ownPg 1024, OWN_ENT_IN_USE 0, 1)]
    (after (.ownerWrite .host 1024 0) s).rd (ownPg 1024) (OWN_ENT_OWNER 0) = 0x1200 ∧
    (after (.ownerWrite .host 1025 0x0AFF) s).rd (ownPg 1024) (OWN_ENT_OWNER 1) = 0x0AFF := by decide

/-- Chapter 4, a guard rule changed: the address of GRD_RG_WR of region 5 of GRD8. -/
theorem test_guard_address : pg .grd 8 + (GRD_RG_WR_MASK 5).off = 0x192B0 := by decide

set_option maxRecDepth 40000 in
/-- Chapter 4, a drover lost: HIT_VIEW 12 after drover 1 with epoch 2 takes hitch 12. -/
theorem test_hitch_take :
    let s := st [(pg .hit 0, HDR_CTRL_ENABLE, 1), (pg .hit 0, HIT_EPOCH_EPOCH 3, 2)]
    (after (.hitTake (.drover 1) 12) s).hitView 12 = 0x18010002 := by decide

/-- Chapter 8, one access unit: the yard time of the sender report. -/
theorem test_sender_report :
    (st [(tb, TB_UTC_OFFSET, 37)]).ntpToYard 17 0xEC000000 0x80000000 = 1750434213500000000 := by decide

/-- Chapter 15, two fingers: the position of finger 1 on the head. -/
theorem test_zone_map :
    ({ u0 := 0, u1 := 5119, v0 := 0, v1 := 3071, hx := 0, hy := 0, hw := 1920, hh := 1080, head := 0, swap := false, flipX := false
       flipY := false, en := true } : Zone).map 2048 2304 = (768, 810) := by decide

/-- R285: the two ordered sets of /I/, by the code tables of IEEE 802.3 Clause 36: K28.5 D16.2 and K28.5 D5.6. -/
theorem test_idle_groups :
    encodeSyms false (idleSyms false) = ([0b0011111010, 0b1001000101], false) ∧
    encodeSyms true (idleSyms true) = ([0b1100000101, 0b1010010110], false) := by decide

end Sys2Proof.Tests
end

section
/-! PROOFS. The reset state (R3), and refresh, initialisation and self-refresh of the DRAM controllers (R112, R120 to R122). -/

namespace Sys2Proof.Machine

/-! ### The reset state -/

/-- No field is listed after reset, so each reads what its descriptor gives. -/
theorem State.rd_reset (p : Nat) (f : Fld) : State.reset.rd p f = f.rst := rfl

/-- Settles O4: nothing is listed in the reset state, so every read falls back to its default. -/
theorem resetState : Obligations.ResetState :=
  ⟨fun b i f => State.rd_reset (pg b i) f, rfl, rfl, rfl, rfl, rfl, rfl, rfl, rfl, rfl, rfl⟩

/-! ### Run-time state of a controller, and the register fields beside it -/

section
variable (s : State) (n p v : Nat) (f : Fld) (d : DmcSt)

@[simp] theorem State.dm_setDm : (s.setDm n d).dm n = d := Store.getD_setD_self _ _ _ _
@[simp] theorem State.dm_wr : (s.wr p f v).dm n = s.dm n := rfl
@[simp] theorem State.rd_setDm : (s.setDm n d).rd p f = s.rd p f := rfl

theorem State.on_wb_true (hw : f.w = 1) : (s.wb p f true).on p f = true := by
  simp [State.on_eq, State.wb_eq, hw]

theorem State.on_wb_false : (s.wb p f false).on p f = false := by
  simp [State.on_eq, State.wb_eq]

theorem State.perturb_locked {kind : Nat} {sel : Option Nat} (h : s.unlocked = false) : s.perturb p kind sel = (false, s) := by
  have h' : s.on (pg .tst 0) TST_UNLOCK_UNLOCKED = false := h
  simp [State.perturb, h']

end

/-! ### Events of a controller's page -/

/-- A controller's page lies above the daybook's and the MSI-X pages, so of its own keys an event changes only EVT_RAW. -/
theorem not_evKey_dmc {n : Nat} {f : Fld} (h : f.off * 32 + f.lo ≠ 0x10 * 32) :
    ¬ evKey (pg .dmc n) (fkey (pg .dmc n) f) := by
  simp only [evKey, fkey, pg_dmc, pg_dbk, HDR_EVT_RAW_RAW, DBK_WR_COUNT, DBK_LOST_COUNT]
  omega

theorem ringKeysFree_dmc (n : Nat) : ringKeysFree (pg .dmc n) [] :=
  ⟨⟨List.not_mem_nil, not_evKey_dmc (by decide)⟩, ⟨List.not_mem_nil, not_evKey_dmc (by decide)⟩⟩

theorem State.rd_emit_dmc {s : State} {n code : Nat} {data : List Nat} {f : Fld} (h : f.off * 32 + f.lo ≠ 0x10 * 32) :
    (s.emit (pg .dmc n) code data).rd (pg .dmc n) f = s.rd (pg .dmc n) f :=
  State.rd_emit (ringKeysFree_dmc n) (not_evKey_dmc h)

theorem onlyRegsEv.dram_eq {s t : State} {l : List Nat} {q : Nat} (h : onlyRegsEv l q s t) : t.dram = s.dram := by
  rw [h.1]

theorem State.dram_emit_dmc (s : State) (n code : Nat) (data : List Nat) : (s.emit (pg .dmc n) code data).dram = s.dram :=
  (onlyRegsEv_emit (l := []) (ringKeysFree_dmc n) onlyRegsEv_refl).dram_eq

/-! ### Refresh (R120) -/

/-- What a rank of a subchannel owes. -/
def State.owedOf (s : State) (n : Nat) (x : Nat × Nat) : Nat := Store.getD 0 (x.1 * 2 + x.2) (s.dm n).owed

theorem State.owedOf_setOwed_self (s : State) (n v : Nat) (x : Nat × Nat) : (s.setOwed n x.1 x.2 v).owedOf n x = v := by
  simp [State.owedOf, State.setOwed]

theorem State.owedOf_setOwed_ne (s : State) (n v : Nat) {x y : Nat × Nat} (hx : x.2 < 2) (hy : y.2 < 2) (h : y ≠ x) :
    (s.setOwed n x.1 x.2 v).owedOf n y = s.owedOf n y := by
  have hk : y.1 * 2 + y.2 ≠ x.1 * 2 + x.2 := fun e => h (Prod.ext (by omega) (by omega))
  simp [State.owedOf, State.setOwed, Store.getD_setD_ne hk]

/-- Below 4, an interval only counts. -/
theorem State.owe_eq_setOwed {s : State} {n : Nat} {x : Nat × Nat} (h : s.owedOf n x < 4) :
    s.owe n x.1 x.2 = s.setOwed n x.1 x.2 (s.owedOf n x + 1) := by
  have h' : s.owedOf n x + 1 < 5 := by omega
  exact if_pos h'

/-- An interval for the ranks of a list adds one to each of them, and to no other. -/
theorem State.owedOf_foldl_owe {n : Nat} {l : List (Nat × Nat)} (hl : l.Nodup) (h2 : ∀ x ∈ l, x.2 < 2) {s : State}
    (h4 : ∀ x ∈ l, s.owedOf n x < 4) {y : Nat × Nat} (hy : y.2 < 2) :
    (l.foldl (fun s x => s.owe n x.1 x.2) s).owedOf n y = s.owedOf n y + if y ∈ l then 1 else 0 := by
  induction l generalizing s with
  | nil => simp
  | cons x l ih =>
    obtain ⟨hx, hl⟩ := List.nodup_cons.1 hl
    obtain ⟨hx2, h2⟩ := List.forall_mem_cons.1 h2
    obtain ⟨hx4, h4⟩ := List.forall_mem_cons.1 h4
    have hother : ∀ z, z.2 < 2 → z ≠ x → (s.owe n x.1 x.2).owedOf n z = s.owedOf n z := fun z hz hzx => by
      rw [State.owe_eq_setOwed hx4, State.owedOf_setOwed_ne s n _ hx2 hz hzx]
    have hrest : ∀ z ∈ l, (s.owe n x.1 x.2).owedOf n z < 4 := fun z hz => by
      rw [hother z (h2 z hz) (by rintro rfl; exact hx hz)]
      exact h4 z hz
    rw [List.foldl_cons, ih hl h2 hrest]
    by_cases hyx : y = x
    · subst hyx
      simp [State.owe_eq_setOwed hx4, State.owedOf_setOwed_self, hx]
    · simp [hother y hy hyx, hyx]

theorem State.rankSubs_eq (s : State) (n : Nat) :
    s.rankSubs n = if s.on (pg .dmc n) DMC_CFG_RANKS then [(0, 0), (0, 1), (1, 0), (1, 1)] else [(0, 0), (0, 1)] := by
  unfold State.rankSubs State.ranks
  split <;> rfl

theorem State.rankSubs_nodup (s : State) (n : Nat) : (s.rankSubs n).Nodup := by
  rw [State.rankSubs_eq]
  split <;> decide

theorem State.rankSubs_sub_lt (s : State) (n : Nat) : ∀ x ∈ s.rankSubs n, x.2 < 2 := by
  rw [State.rankSubs_eq]
  split <;> decide

theorem exec_refreshInterval_selfRefresh {n : Fin 8} {s : State} (h : s.rd (pg .dmc n.val) DMC_PM_STATE = 2) :
    exec (.refreshInterval n) s = .next s :=
  congrArg Host.Outcome.next (if_pos h)

theorem exec_refreshInterval {n : Fin 8} {s : State} (h : s.rd (pg .dmc n.val) DMC_PM_STATE ≠ 2) (hu : s.unlocked = false) :
    exec (.refreshInterval n) s = .next ((s.rankSubs n.val).foldl (fun s x => s.owe n.val x.1 x.2) s) := by
  show execRefreshInterval n s = _
  simp [execRefreshInterval, h, State.perturb_locked s _ hu]

theorem refreshInterval_adds_one {n : Fin 8} {s : State} (h : s.rd (pg .dmc n.val) DMC_PM_STATE ≠ 2) (hu : s.unlocked = false)
    (h4 : ∀ x ∈ s.rankSubs n.val, s.owedOf n.val x < 4) :
    completes (.refreshInterval n) s fun t => ∀ x ∈ s.rankSubs n.val, t.owedOf n.val x = s.owedOf n.val x + 1 := by
  refine ⟨_, exec_refreshInterval h hu, fun x hx => ?_⟩
  rw [State.owedOf_foldl_owe (s.rankSubs_nodup _) (s.rankSubs_sub_lt _) h4 (s.rankSubs_sub_lt _ x hx), if_pos hx]

theorem exec_refreshIssue_unlockedPll {n : Fin 8} {s : State} (h : s.dmcPll n.val = false) (rank sub : Fin 2) :
    exec (.refreshIssue n rank sub) s = .next s := by
  show execRefreshIssue n rank sub s = _
  simp [execRefreshIssue, h]

theorem exec_refreshIssue {n : Fin 8} {rank sub : Fin 2} {v : Nat} {s : State} (hp : s.dmcPll n.val = true)
    (hv : s.owedOf n.val (rank.val, sub.val) = v + 1) (hu : s.rankUrgent n.val rank.val sub.val = false)
    (hh : (s.dm n.val).refHold = false) :
    exec (.refreshIssue n rank sub) s = .next ((s.setOwed n.val rank.val sub.val v).closeRank n.val rank.val sub.val) := by
  have hv' : Store.getD 0 (rank.val * 2 + sub.val) (s.dm n.val).owed = v + 1 := hv
  show execRefreshIssue n rank sub s = _
  simp [execRefreshIssue, hp, hv', hu, hh]

theorem refreshIssue_takes_one {n : Fin 8} {rank sub : Fin 2} {v : Nat} {s : State} (hp : s.dmcPll n.val = true)
    (hv : s.owedOf n.val (rank.val, sub.val) = v + 1) (hu : s.rankUrgent n.val rank.val sub.val = false)
    (hh : (s.dm n.val).refHold = false) :
    completes (.refreshIssue n rank sub) s fun t => t.owedOf n.val (rank.val, sub.val) = v ∧
      (t.dm n.val).rows = closeRows (s.dm n.val).rows rank.val sub.val := by
  refine ⟨_, exec_refreshIssue hp hv hu hh, ?_, ?_⟩
  · simp [State.owedOf, State.closeRank, State.setOwed]
  · simp [State.closeRank, State.setOwed]

theorem mr4Poll_keeps_report (n : Fin 8) (hot : Bool) (s : State) :
    completes (.mr4Poll n hot) s fun t => (t.dm n.val).hot = hot ∧ t = { s with dmc := t.dmc } :=
  ⟨s.setDm n.val { s.dm n.val with hot := hot }, rfl, by simp, rfl⟩

/-! ### Initialisation (R112) -/

theorem Store.find_keep_dropped {α : Type} {p : Nat → Bool} {k : Nat} (h : p k = false) (m : Store α) :
    Store.find k (Store.keep p m) = none := by
  induction m with
  | nil => rfl
  | cons e m ih =>
    simp only [Store.keep, List.filter_cons] at ih ⊢
    split
    · rename_i hp
      have hk : e.1 ≠ k := fun he => by simp [he, h] at hp
      simpa [Store.find, hk] using ih
    · exact ih

theorem Mem.read_keep {p : Nat → Bool} {a : Nat} (h : p a = true) (m : Mem) : Mem.read (Store.keep p m) a = m.read a := by
  simp only [Mem.read, Mem.readD, Store.getD, Store.find_keep h]

theorem Mem.read_keep_dropped {p : Nat → Bool} {a : Nat} (h : p a = false) (m : Mem) : Mem.read (Store.keep p m) a = 0 := by
  simp only [Mem.read, Mem.readD, Store.getD, Store.find_keep_dropped h, Option.getD_none]

/-- DRAM offset `a` is not at an in-channel address in `[c, d)` of channel `n`. -/
def State.outsideLines (s : State) (n c d a : Nat) : Bool :=
  (s.chanOf a).all fun x => decide (x.1 ≠ n) || decide (x.2 < c) || decide (d ≤ x.2)

theorem State.outsideLines_iff {s : State} {n c d a : Nat} :
    s.outsideLines n c d a = true ↔ ∀ x, s.chanOf a = some x → x.1 ≠ n ∨ x.2 < c ∨ d ≤ x.2 := by
  simp [State.outsideLines, Option.all_eq_true, or_assoc]

theorem State.dram_zeroLines (s : State) (n c d : Nat) :
    (s.zeroLines n c d).dram = Store.keep (s.outsideLines n c d) s.dram := by
  dsimp only [State.zeroLines]
  congr 1
  funext a
  unfold State.outsideLines
  cases s.chanOf a <;> rfl

theorem State.read_zeroLines_in {s : State} {n c d a : Nat} {x : Nat × Nat} (ha : s.chanOf a = some x) (hn : x.1 = n)
    (hc : c ≤ x.2) (hd : x.2 < d) : (s.zeroLines n c d).dram.read a = 0 := by
  rw [State.dram_zeroLines]
  refine Mem.read_keep_dropped (Bool.eq_false_iff.2 fun hout => ?_) s.dram
  have := State.outsideLines_iff.1 hout x ha
  omega

theorem State.read_zeroLines_out {s : State} {n c d a : Nat} (h : ∀ x, s.chanOf a = some x → x.1 ≠ n ∨ x.2 < c) :
    (s.zeroLines n c d).dram.read a = s.dram.read a := by
  rw [State.dram_zeroLines]
  exact Mem.read_keep (State.outsideLines_iff.2 fun x hx => (h x hx).imp_right .inl) s.dram

/-- The initialiser's pass to the channel's end, where it has not been yet. -/
theorem State.dram_initPass_end (s : State) (n : Nat) :
    (s.initPass n (2 ^ 30 * s.chanGiB)).dram =
      if 2 ^ 30 * s.chanGiB ≤ (s.dm n).initTo then s.dram
      else (s.zeroLines n (s.dm n).initTo (2 ^ 30 * s.chanGiB)).dram := by
  have hd : min (64 * ((2 ^ 30 * s.chanGiB + 63) / 64)) (2 ^ 30 * s.chanGiB) = 2 ^ 30 * s.chanGiB := by omega
  unfold State.initPass
  simp only [hd]
  split <;> rfl

theorem exec_dramInitDone {n : Fin 8} {s : State} (hi : s.on (pg .dmc n.val) DMC_INIT_DONE = false) (hc : n.val ∈ s.channels) :
    exec (.dramInitDone n) s = .next ((s.initPass n.val (2 ^ 30 * s.chanGiB)).wb (pg .dmc n.val) DMC_INIT_DONE true) := by
  show execDramInitDone n s = _
  simp [execDramInitDone, hi, hc]

theorem dramInitDone_zeroes_rest {n : Fin 8} {s : State} (hi : s.on (pg .dmc n.val) DMC_INIT_DONE = false)
    (hc : n.val ∈ s.channels) :
    completes (.dramInitDone n) s fun t => t.on (pg .dmc n.val) DMC_INIT_DONE = true ∧
      (∀ a x, s.chanOf a = some x → x.1 = n.val → (s.dm n.val).initTo ≤ x.2 → x.2 < 2 ^ 30 * s.chanGiB → t.dram.read a = 0) ∧
      (∀ a, (∀ x, s.chanOf a = some x → x.1 ≠ n.val ∨ x.2 < (s.dm n.val).initTo) → t.dram.read a = s.dram.read a) := by
  refine ⟨_, exec_dramInitDone hi hc, State.on_wb_true _ _ _ rfl, fun a x ha hn hlo hhi => ?_, fun a h => ?_⟩
  · show (s.initPass n.val (2 ^ 30 * s.chanGiB)).dram.read a = 0
    have hlt : ¬ 2 ^ 30 * s.chanGiB ≤ (s.dm n.val).initTo := by omega
    rw [State.dram_initPass_end, if_neg hlt]
    exact State.read_zeroLines_in ha hn hlo hhi
  · show (s.initPass n.val (2 ^ 30 * s.chanGiB)).dram.read a = s.dram.read a
    rw [State.dram_initPass_end]
    split
    · rfl
    · exact State.read_zeroLines_out h

/-! ### Self-refresh (R122) -/

theorem dmcServing_eq_nil_iff {s : State} {n : Nat} : s.dmcServing n = [] ↔ ∀ x ∈ s.fab.serving, x.target ≠ n := by
  simp [State.dmcServing, List.filter_eq_nil_iff]

theorem mem_atTarget {l : List Part} {k : Nat} {x : Part} : x ∈ atTarget l k ↔ x ∈ l ∧ x.target = k := by
  cases he : x.emerg <;> simp [atTarget, he]

/-- A write of SR_REQ leaves STATE, the other field of its word. -/
theorem State.rd_pmState_wb_srReq (s : State) (p : Nat) (b : Bool) : (s.wb p DMC_PM_SR_REQ b).rd p DMC_PM_STATE = s.rd p DMC_PM_STATE :=
  State.rd_wr_same (by decide)

/-- A write of STATE leaves SR_REQ. -/
theorem State.on_srReq_wr_pmState (s : State) (p v : Nat) : (s.wr p DMC_PM_STATE v).on p DMC_PM_SR_REQ = s.on p DMC_PM_SR_REQ := by
  rw [State.on_eq, State.on_eq, State.rd_wr_same (by decide)]

theorem exec_srEntryRequest (w : Writer) (n : Fin 8) (s : State) :
    exec (.srEntryRequest w n) s = .next (if s.rd (pg .dmc n.val) DMC_PM_STATE = 0
      then (s.wb (pg .dmc n.val) DMC_PM_SR_REQ true).wr (pg .dmc n.val) DMC_PM_STATE 1
      else s.wb (pg .dmc n.val) DMC_PM_SR_REQ true) := by
  show execSrEntryRequest w n s = _
  simp only [execSrEntryRequest, State.rd_pmState_wb_srReq]

theorem srEntryRequest_starts_entry (w : Writer) (n : Fin 8) (s : State) :
    completes (.srEntryRequest w n) s fun t => t.on (pg .dmc n.val) DMC_PM_SR_REQ = true ∧
      t.rd (pg .dmc n.val) DMC_PM_STATE = (if s.rd (pg .dmc n.val) DMC_PM_STATE = 0 then 1 else s.rd (pg .dmc n.val) DMC_PM_STATE) ∧
      onlyRegs [fkey (pg .dmc n.val) DMC_PM_SR_REQ, fkey (pg .dmc n.val) DMC_PM_STATE] s t := by
  have hreq : (s.wb (pg .dmc n.val) DMC_PM_SR_REQ true).on (pg .dmc n.val) DMC_PM_SR_REQ = true :=
    State.on_wb_true _ _ _ rfl
  have honly : onlyRegs [fkey (pg .dmc n.val) DMC_PM_SR_REQ, fkey (pg .dmc n.val) DMC_PM_STATE] s
      (s.wb (pg .dmc n.val) DMC_PM_SR_REQ true) := onlyRegs_wb (by simp) onlyRegs_refl
  refine ⟨_, exec_srEntryRequest w n s, ?_⟩
  split
  · exact ⟨by rw [State.on_srReq_wr_pmState, hreq], State.rd_wr_self _ _ _ _, onlyRegs_wr (by simp) honly⟩
  · exact ⟨hreq, State.rd_pmState_wb_srReq _ _ _, honly⟩

theorem exec_srEntry {n : Fin 8} {s : State} (h : s.rd (pg .dmc n.val) DMC_PM_STATE = 1)
    (hs : ∀ x ∈ s.fab.serving, x.target ≠ n.val) : exec (.srEntry n) s = .next (s.srEnter n.val) := by
  show execSrEntry n s = _
  simp [execSrEntry, h, dmcServing_eq_nil_iff.2 hs]

theorem exec_srEntry_serving {n : Fin 8} {s : State} (h : ∃ x ∈ s.fab.serving, x.target = n.val) :
    exec (.srEntry n) s = .next s := by
  have hne : s.dmcServing n.val ≠ [] := fun he => by
    obtain ⟨x, hx, ht⟩ := h
    exact dmcServing_eq_nil_iff.1 he x hx ht
  show execSrEntry n s = _
  simp [execSrEntry, hne]

theorem State.rd_pmState_srEnter (s : State) (n : Nat) : (s.srEnter n).rd (pg .dmc n) DMC_PM_STATE = 2 := by
  unfold State.srEnter
  rw [State.rd_emit_dmc (by decide), State.rd_wr_self]
  rfl

theorem State.rd_refOwed_srEnter (s : State) (n : Nat) : (s.srEnter n).rd (pg .dmc n) DMC_REF_OWED = 0 := by
  unfold State.srEnter
  rw [State.rd_emit_dmc (by decide), State.rd_wr_same (by decide), State.rd_wr_self]
  rfl

theorem State.dram_srEnter (s : State) (n : Nat) : (s.srEnter n).dram = s.dram := by
  unfold State.srEnter
  rw [State.dram_emit_dmc]
  rfl

theorem State.rd_pmState_srLeave (s : State) (n : Nat) : (s.srLeave n).rd (pg .dmc n) DMC_PM_STATE = 0 := by
  unfold State.srLeave
  rw [State.rd_emit_dmc (by decide), State.rd_wr_self]
  rfl

theorem exec_srExitRequest_write {w : Writer} {n : Fin 8} {s : State} (h : s.rd (pg .dmc n.val) DMC_PM_STATE = 2) :
    exec (.srExitRequest n (some w)) s =
      .next ((s.wb (pg .dmc n.val) DMC_PM_SR_REQ false).wr (pg .dmc n.val) DMC_PM_STATE 3) := by
  show execSrExitRequest n (some w) s = _
  simp [execSrExitRequest, State.rd_pmState_wb_srReq, h]

theorem exec_srExitRequest_waiting {n : Fin 8} {s : State} (h : s.rd (pg .dmc n.val) DMC_PM_STATE = 2)
    (hq : ∃ x ∈ s.fab.queued, x.target = n.val) :
    exec (.srExitRequest n none) s = .next (s.wr (pg .dmc n.val) DMC_PM_STATE 3) := by
  obtain ⟨x, hx, ht⟩ := hq
  have hne : atTarget s.fab.queued n.val ≠ [] := List.ne_nil_of_mem (mem_atTarget.2 ⟨hx, ht⟩)
  show execSrExitRequest n none s = _
  simp [execSrExitRequest, h, hne]

theorem srExitRequest_write_starts_exit {w : Writer} {n : Fin 8} {s : State} (h : s.rd (pg .dmc n.val) DMC_PM_STATE = 2) :
    completes (.srExitRequest n (some w)) s fun t =>
      t.rd (pg .dmc n.val) DMC_PM_STATE = 3 ∧ t.on (pg .dmc n.val) DMC_PM_SR_REQ = false :=
  ⟨_, exec_srExitRequest_write h, State.rd_wr_self _ _ _ _, by rw [State.on_srReq_wr_pmState, State.on_wb_false]⟩

theorem exec_srExit {n : Fin 8} {s : State} (h : s.rd (pg .dmc n.val) DMC_PM_STATE = 3) :
    exec (.srExit n) s = .next (s.srLeave n.val) :=
  congrArg Host.Outcome.next (if_pos h)

/-- Settles O20: command by command, from what each one's next state is. -/
theorem dmcPower : Obligations.DmcPower := by
  refine ⟨fun n s => ⟨exec_refreshInterval_selfRefresh, refreshInterval_adds_one, exec_refreshIssue_unlockedPll,
      fun rank sub v => refreshIssue_takes_one, fun hot => mr4Poll_keeps_report n hot s, dramInitDone_zeroes_rest⟩,
    fun w n s => ⟨srEntryRequest_starts_entry w n s, fun h hs => ?_, exec_srEntry_serving, fun h => ⟨?_, fun hq => ?_⟩, fun h => ?_⟩⟩
  · exact ⟨_, exec_srEntry h hs, s.rd_pmState_srEnter _, s.rd_refOwed_srEnter _, s.dram_srEnter _⟩
  · exact srExitRequest_write_starts_exit h
  · exact ⟨_, exec_srExitRequest_waiting h hq, State.rd_wr_self _ _ _ _⟩
  · exact ⟨_, exec_srExit h, s.rd_pmState_srLeave _⟩

end Sys2Proof.Machine
end

section
/-! PROOFS. Events of the pages above the MSI-X pages, and the schedule of the decode pipelines (R204 to R206, R227). -/

namespace Sys2Proof.Machine

/-! ### Events of the pages above the MSI-X pages -/

section
variable {s : State} {q code : Nat} {data : List Nat} {f : Fld}

theorem not_evKey_above (hq : 0xF000 ≤ q) (h : f.off * 32 + f.lo ≠ 0x10 * 32) : ¬ evKey q (fkey q f) := by
  simp only [evKey, fkey, pg_dbk, HDR_EVT_RAW_RAW, DBK_WR_COUNT, DBK_LOST_COUNT]
  omega

theorem ringKeysFree_above (hq : 0xF000 ≤ q) : ringKeysFree q [] :=
  ⟨⟨List.not_mem_nil, not_evKey_above hq (by decide)⟩, ⟨List.not_mem_nil, not_evKey_above hq (by decide)⟩⟩

theorem State.emit_onlyRegsEv (hq : 0xF000 ≤ q) : onlyRegsEv [] q s (s.emit q code data) :=
  onlyRegsEv_emit (ringKeysFree_above hq) onlyRegsEv_refl

theorem State.rd_emit_above (hq : 0xF000 ≤ q) (h : f.off * 32 + f.lo ≠ 0x10 * 32) :
    (s.emit q code data).rd q f = s.rd q f :=
  State.rd_emit (ringKeysFree_above hq) (not_evKey_above hq h)

end

/-! ### The schedule of a decode pipeline (R204 to R206, R227) -/

theorem pg_dec_above (n : Nat) : 0xF000 ≤ pg .dec n := by
  rw [pg_dec]
  omega

/-- A write of the schedule's word leaves the slots. -/
theorem State.rd_slot_wr_sched {s : State} {p v : Nat} {f g : Fld} (hf : 0x200 ≤ f.off) (hg : g.off * 32 + g.lo < 0x200 * 32) :
    (s.wr p g v).rd p f = s.rd p f :=
  State.rd_wr_same (by omega)

theorem State.rd_slot_decSwap {s : State} {n : Nat} {f : Fld} (hf : 0x200 ≤ f.off) :
    (s.decSwap n).rd (pg .dec n) f = s.rd (pg .dec n) f := by
  unfold State.decSwap
  rw [State.rd_emit_above (pg_dec_above n) (by omega), State.wb_eq, State.wb_eq, State.rd_slot_wr_sched hf (by decide),
    State.rd_slot_wr_sched hf (by decide)]

theorem State.rd_slot_decRest {s : State} {n : Nat} {f : Fld} (hf : 0x200 ≤ f.off) :
    (s.decRest n).rd (pg .dec n) f = s.rd (pg .dec n) f := by
  unfold State.decRest State.decWrap
  split
  · rw [State.wb_eq, State.rd_slot_wr_sched hf (by decide)]
    split
    · exact State.rd_slot_decSwap hf
    · rfl
  · rfl

theorem State.on_decSwap_active (s : State) (n : Nat) :
    (s.decSwap n).on (pg .dec n) DEC_SCHED_CTRL_ACTIVE = !s.on (pg .dec n) DEC_SCHED_CTRL_ACTIVE := by
  unfold State.decSwap
  rw [State.on_eq, State.rd_emit_above (pg_dec_above n) (by decide), State.wb_eq _ _ DEC_SCHED_CTRL_SWAP, State.rd_wr_same (by decide), ← State.on_eq]
  cases s.on (pg .dec n) DEC_SCHED_CTRL_ACTIVE
  · exact State.on_wb_true _ _ _ rfl
  · exact State.on_wb_false _ _ _

theorem State.on_decSwap_swap (s : State) (n : Nat) : (s.decSwap n).on (pg .dec n) DEC_SCHED_CTRL_SWAP = false := by
  unfold State.decSwap
  rw [State.on_eq, State.rd_emit_above (pg_dec_above n) (by decide), ← State.on_eq]
  exact State.on_wb_false _ _ _

/-- The two fields of a schedule slot. -/
def decSlotFeed (copyB : Bool) (i : Nat) : Fld := if copyB then DEC_SLOTB_FEED i else DEC_SLOTA_FEED i
def decSlotValid (copyB : Bool) (i : Nat) : Fld := if copyB then DEC_SLOTB_VALID i else DEC_SLOTA_VALID i

theorem decSlotFeed_off (copyB : Bool) (i : Nat) : 0x200 ≤ (decSlotFeed copyB i).off := by
  cases copyB <;> simp [decSlotFeed, DEC_SLOTA_FEED, DEC_SLOTB_FEED]
  omega

theorem decSlotValid_off (copyB : Bool) (i : Nat) : 0x200 ≤ (decSlotValid copyB i).off := by
  cases copyB <;> simp [decSlotValid, DEC_SLOTA_VALID, DEC_SLOTB_VALID]
  omega

/-- A slot's fields after both have been written. -/
theorem State.rd_decSlotFeed (s : State) (p i f : Nat) (copyB b : Bool) :
    ((s.wr p (decSlotFeed copyB i) f).wb p (decSlotValid copyB i) b).rd p (decSlotFeed copyB i) = f % 512 := by
  rw [State.wb_eq, State.rd_wr_same, State.rd_wr_self]
  · cases copyB <;> rfl
  · cases copyB <;> simp [decSlotFeed, decSlotValid, DEC_SLOTA_FEED, DEC_SLOTB_FEED, DEC_SLOTA_VALID, DEC_SLOTB_VALID]

theorem State.on_decSlotValid (s : State) (p i : Nat) (copyB b : Bool) :
    (s.wb p (decSlotValid copyB i) b).on p (decSlotValid copyB i) = b := by
  cases b
  · exact State.on_wb_false _ _ _
  · exact State.on_wb_true _ _ _ (by cases copyB <;> rfl)

theorem State.ite_setPipe (s : State) (n : Nat) (x : DecSt) (c : Prop) [Decidable c] :
    (if c then s.setPipe n x else s) = { s with dec := if c then (s.setPipe n x).dec else s.dec } := by
  split <;> rfl

/-- A slot write that is not refused sets the slot's two fields, keeps the old ones aside where the slot is in use, and lets a
pipeline without work stand at the wrap. -/
theorem State.decSlotWrite_taken {s : State} {n v i : Nat} {copyB : Bool}
    (h : bit v 15 = false ∨ s.decHolder n (v % 512) = none) :
    ∃ d, s.decSlotWrite n copyB i v =
      ((({ s with dec := d } : State).wr (pg .dec n) (decSlotFeed copyB i) (v % 512)).wb (pg .dec n) (decSlotValid copyB i)
        (bit v 15)).decRest n := by
  have hn : (if bit v 15 then s.decHolder n (v % 512) else none) = none := by
    split
    · exact h.resolve_left (by simp [*])
    · rfl
  unfold State.decSlotWrite
  simp only [hn, State.ite_setPipe]
  cases copyB
  · exact ⟨_, rfl⟩
  · exact ⟨_, rfl⟩

theorem State.decSlotWrite_refused {s : State} {n v i m : Nat} {copyB : Bool} (hv : bit v 15 = true)
    (h : s.decHolder n (v % 512) = some m) :
    s.decSlotWrite n copyB i v = s.emit (pg .dec n) 0x1801 (le (v % 512) 2 ++ [i, b2n copyB, m]) := by
  unfold State.decSlotWrite
  simp only [hv, h, if_true]

/-! Restarting a feed's decode: what follows the write of its state goes to the loft, and leaves that state. -/

section
variable (s : State) (f : Nat)

@[simp] theorem State.decFeeds_loftPut (off : Nat) (b : List Nat) : (s.loftPut off b).decFeeds = s.decFeeds := by
  rw [(State.loftPut_spec s off b).1]

@[simp] theorem State.decFeeds_ctxPut (off v n : Nat) : (s.ctxPut f off v n).decFeeds = s.decFeeds := by
  unfold State.ctxPut State.loftPutLE
  split <;> simp

@[simp] theorem State.decFeeds_decPrivPut (l : List Nat) : (s.decPrivPut f l).decFeeds = s.decFeeds := by
  unfold State.decPrivPut
  split <;> simp

@[simp] theorem State.decFeeds_decPutState (st : Nat) (chain : Bool) : (s.decPutState f st chain).decFeeds = s.decFeeds := by
  simp [State.decPutState]

@[simp] theorem State.decFeeds_decView : (s.decView f).decFeeds = s.decFeeds := by
  unfold State.decView
  dsimp only
  split <;> simp

@[simp] theorem State.decFeed_setDecFeed (x : DecFeed) : (s.setDecFeed f x).decFeed f = x := Store.getD_setD_self _ _ _ _

theorem State.decFeed_congr {s t : State} (h : t.decFeeds = s.decFeeds) : t.decFeed f = s.decFeed f := by
  simp only [State.decFeed, h]

/-- A flush empties the feed's decoded picture buffer and its candidates, and no picture counts as decoded since. -/
theorem State.decFeed_decRestart_flush :
    ((s.decRestart f true).decFeed f).dpb = [] ∧ ((s.decRestart f true).decFeed f).outs = [] ∧
      ((s.decRestart f true).decFeed f).fresh = true := by
  unfold State.decRestart
  simp only [if_true]
  rw [State.decFeed_congr f ((State.decFeeds_decView _ f).trans ((State.decFeeds_decPutState _ f 1 false).trans
    ((State.decFeeds_ctxPut _ f 0x3F0 0 4).trans (State.decFeeds_decPrivPut _ f [])))), State.decFeed_setDecFeed]
  exact ⟨rfl, rfl, rfl⟩

end

/-- The feed of the picture in progress is bound to the pipeline. -/
theorem State.decBound_job {s : State} {n f : Nat} {j : DecJob} (hj : (s.pipe n).job = some j) (hf : j.feed = f) :
    s.decBound n f = true := by
  simp [State.decBound, hj, hf]

@[simp] theorem State.pipe_setPipe (s : State) (n : Nat) (x : DecSt) : (s.setPipe n x).pipe n = x := Store.getD_setD_self _ _ _ _

section
variable {w : Writer} {n : Fin 8} {s : State}

theorem exec_decSlotWrite (h : s.pageFenced .dec n.val = false) (copyB : Bool) (slot : Fin 64) (v : Word) :
    exec (.decSlotWrite w n copyB slot v) s = .next (s.decSlotWrite n.val copyB slot.val v.toNat) := by
  show execDecSlotWrite w n copyB slot v s = _
  simp [execDecSlotWrite, h]

theorem exec_decSlotSwapRequest (h : s.pageFenced .dec n.val = false) :
    exec (.decSlotSwapRequest w n) s =
      .next (if s.decIdle n.val then (s.decSwap n.val).wb (pg .dec n.val) DEC_SCHED_CTRL_IDLE true
        else s.wb (pg .dec n.val) DEC_SCHED_CTRL_SWAP true) := by
  show execDecSlotSwapRequest w n s = _
  simp [execDecSlotSwapRequest, h]

theorem exec_decFlush_held {f : Fin 512} {m : Nat} (h : s.pageFenced .dec n.val = false)
    (hm : s.decHolder n.val f.val = some m) :
    exec (.decFlush w n f) s = .next (s.emit (pg .dec n.val) 0x3001 (le f.val 2 ++ [0, 0, m])) := by
  show execDecFlush w n f s = _
  simp [execDecFlush, h, hm]

theorem exec_decFlush_free {f : Fin 512} (h : s.pageFenced .dec n.val = false) (hm : s.decHolder n.val f.val = none) :
    exec (.decFlush w n f) s = .next (if (s.pipe n.val).job.isSome && s.decBound n.val f.val
      then s.setPipe n.val { s.pipe n.val with flushes := (s.pipe n.val).flushes ++ [f.val] } else s.decRestart f.val true) := by
  show execDecFlush w n f s = _
  simp [execDecFlush, h, hm]

theorem exec_dec_fenced (h : s.pageFenced .dec n.val = true) (copyB : Bool) (slot : Fin 64) (v : Word) (f : Fin 512) :
    exec (.decSlotWrite w n copyB slot v) s =
      .next (s.fencedWrite w (pg .dec n.val + (if copyB then 0x300 else 0x200) + 4 * slot.val) v.toNat) ∧
    exec (.decSlotSwapRequest w n) s = .next (s.missRecord w .write (pg .dec n.val + 0x100)) ∧
    exec (.decFlush w n f) s = .next (s.missRecord w .write (pg .dec n.val + 0x11C)) :=
  ⟨congrArg Host.Outcome.next (if_pos h), congrArg Host.Outcome.next (if_pos h), congrArg Host.Outcome.next (if_pos h)⟩

theorem decSlotWrite_reads_back (h : s.pageFenced .dec n.val = false) (copyB : Bool) (slot : Fin 64) (v : Word)
    (hv : bit v.toNat 15 = false ∨ s.decHolder n.val (v.toNat % 512) = none) :
    completes (.decSlotWrite w n copyB slot v) s fun t =>
      t.rd (pg .dec n.val) (decSlotFeed copyB slot.val) = v.toNat % 512 ∧
      t.on (pg .dec n.val) (decSlotValid copyB slot.val) = bit v.toNat 15 ∧
      ∃ u, onlyRegs [fkey (pg .dec n.val) (decSlotFeed copyB slot.val), fkey (pg .dec n.val) (decSlotValid copyB slot.val)]
        { s with dec := u.dec } u ∧ t = u.decRest n.val := by
  obtain ⟨d, hd⟩ := State.decSlotWrite_taken (copyB := copyB) (i := slot.val) hv
  refine ⟨_, exec_decSlotWrite h copyB slot v, ?_⟩
  rw [hd]
  refine ⟨?_, ?_, _, ?_, rfl⟩
  · rw [State.rd_slot_decRest (decSlotFeed_off _ _), State.rd_decSlotFeed, Nat.mod_mod]
  · rw [State.on_eq, State.rd_slot_decRest (decSlotValid_off _ _), ← State.on_eq, State.on_decSlotValid]
  · exact onlyRegs_wb (by simp) (onlyRegs_wr (by simp) onlyRegs_refl)

theorem decSlotSwapRequest_idle (h : s.pageFenced .dec n.val = false) (hi : s.decIdle n.val = true) :
    completes (.decSlotSwapRequest w n) s fun t =>
      t.on (pg .dec n.val) DEC_SCHED_CTRL_ACTIVE = !s.on (pg .dec n.val) DEC_SCHED_CTRL_ACTIVE ∧
      t.on (pg .dec n.val) DEC_SCHED_CTRL_SWAP = false ∧ t.on (pg .dec n.val) DEC_SCHED_CTRL_IDLE = true := by
  refine ⟨_, exec_decSlotSwapRequest h, ?_⟩
  rw [if_pos hi]
  refine ⟨?_, ?_, State.on_wb_true _ _ _ rfl⟩
  · rw [State.on_eq, State.wb_eq, State.rd_wr_same (by decide), ← State.on_eq, State.on_decSwap_active]
  · rw [State.on_eq, State.wb_eq, State.rd_wr_same (by decide), ← State.on_eq, State.on_decSwap_swap]

theorem decSlotSwapRequest_busy (h : s.pageFenced .dec n.val = false) (hi : s.decIdle n.val = false) :
    completes (.decSlotSwapRequest w n) s fun t => t.on (pg .dec n.val) DEC_SCHED_CTRL_SWAP = true ∧
      onlyRegs [fkey (pg .dec n.val) DEC_SCHED_CTRL_SWAP] s t := by
  refine ⟨_, exec_decSlotSwapRequest h, ?_⟩
  rw [hi]
  exact ⟨State.on_wb_true _ _ _ rfl, onlyRegs_wb (by simp) onlyRegs_refl⟩

theorem decFlush_free (h : s.pageFenced .dec n.val = false) {f : Fin 512} (hm : s.decHolder n.val f.val = none)
    (hj : (s.pipe n.val).job = none) :
    completes (.decFlush w n f) s fun t =>
      (t.decFeed f.val).dpb = [] ∧ (t.decFeed f.val).outs = [] ∧ (t.decFeed f.val).fresh = true := by
  refine ⟨_, exec_decFlush_free h hm, ?_⟩
  rw [hj]
  exact s.decFeed_decRestart_flush f.val

theorem decFlush_in_progress (h : s.pageFenced .dec n.val = false) {f : Fin 512} {j : DecJob}
    (hm : s.decHolder n.val f.val = none) (hj : (s.pipe n.val).job = some j) (hf : j.feed = f.val) :
    completes (.decFlush w n f) s fun t =>
      (t.pipe n.val).flushes = (s.pipe n.val).flushes ++ [f.val] ∧ t = { s with dec := t.dec } := by
  refine ⟨_, exec_decFlush_free h hm, ?_⟩
  rw [State.decBound_job hj hf, hj]
  exact ⟨by simp, rfl⟩

end

/-- Settles O36: command by command, for a fenced pipeline and for one that is not. -/
theorem decoderSchedule : Obligations.DecoderSchedule := by
  intro w n s
  refine ⟨fun copyB slot v f h => exec_dec_fenced h copyB slot v f, fun h => ⟨fun copyB slot v m hv hm => ?_,
    fun copyB slot v hv => decSlotWrite_reads_back h copyB slot v hv, decSlotSwapRequest_idle h, decSlotSwapRequest_busy h,
    fun f m hm => ?_, fun f => decFlush_free h, fun f j => decFlush_in_progress h⟩⟩
  · refine ⟨_, exec_decSlotWrite h copyB slot v, ?_⟩
    rw [State.decSlotWrite_refused hv hm]
    exact State.emit_onlyRegsEv (pg_dec_above _)
  · exact ⟨_, exec_decFlush_held h hm, State.emit_onlyRegsEv (pg_dec_above _)⟩

end Sys2Proof.Machine
end

section
/-! PROOFS. Register accesses: what a plain write and a read of a word do (R36, R39 to R42, R45, R72, R88, R173). -/

namespace Sys2Proof.Machine

/-! ### Writes of plain fields by access type (R41, R45) -/

/-- What a field holds after a write of `v` to its word that no lock stops, `old` being what it held (R41). -/
def Fld.written (f : Fld) (old v : Nat) : Nat :=
  match f.acc with
  | .rw => fieldOf v f
  | .rws => fieldOf v f
  | .rwl => fieldOf v f
  | .w1c => andNot old (fieldOf v f) % 2 ^ f.w
  | .w1s => (old ||| fieldOf v f) % 2 ^ f.w
  | _ => old

section
variable {s t : State} {p v : Nat} {f g : Fld} {l : List Fld} {K : List Nat}

theorem fieldOf_mod (v : Nat) (f : Fld) : fieldOf v f % 2 ^ f.w = fieldOf v f := Nat.mod_mod _ _

theorem State.rd_fieldWrite_self : (s.fieldWrite p v f).rd p f = f.written (s.rd p f) v := by
  unfold State.fieldWrite Fld.written
  cases f.acc <;> simp [fieldOf_mod]

theorem State.fieldWrite_cases (s : State) (p v : Nat) (f : Fld) :
    s.fieldWrite p v f = s ∨ ∃ x, s.fieldWrite p v f = s.wr p f x := by
  unfold State.fieldWrite
  cases f.acc
  case ro | wo | rc => exact .inl rfl
  all_goals exact .inr ⟨_, rfl⟩

theorem State.rd_fieldWrite_ne (h : fkey p f ≠ fkey p g) : (s.fieldWrite p v g).rd p f = s.rd p f := by
  obtain he | ⟨x, he⟩ := s.fieldWrite_cases p v g
  · rw [he]
  · rw [he, State.rd_wr_key h]

theorem onlyRegs_fieldWrite (hf : fkey p f ∈ K) (h : onlyRegs K s t) : onlyRegs K s (t.fieldWrite p v f) := by
  obtain he | ⟨x, he⟩ := t.fieldWrite_cases p v f
  · rwa [he]
  · rw [he]
    exact onlyRegs_wr hf h

theorem onlyRegs_foldl {α : Type} {step : State → α → State} {l : List α}
    (hstep : ∀ u, ∀ x ∈ l, onlyRegs K s u → onlyRegs K s (step u x)) (h : onlyRegs K s t) : onlyRegs K s (l.foldl step t) := by
  induction l generalizing t with
  | nil => exact h
  | cons x l ih =>
    exact ih (fun u y hy => hstep u y (List.mem_cons_of_mem x hy)) (hstep t x List.mem_cons_self h)

theorem State.rd_foldl_fieldWrite_notMem (h : fkey p f ∉ l.map (fkey p)) :
    (l.foldl (fun s g => s.fieldWrite p v g) s).rd p f = s.rd p f := by
  induction l generalizing s with
  | nil => rfl
  | cons g l ih =>
    simp only [List.map_cons, List.mem_cons, not_or] at h
    rw [List.foldl_cons, ih h.2, State.rd_fieldWrite_ne h.1]

/-- Fields of different keys are written each once. -/
theorem State.rd_foldl_fieldWrite (hl : (l.map (fkey p)).Nodup) (hf : f ∈ l) :
    (l.foldl (fun s g => s.fieldWrite p v g) s).rd p f = f.written (s.rd p f) v := by
  induction l generalizing s with
  | nil => exact absurd hf List.not_mem_nil
  | cons g l ih =>
    rw [List.map_cons, List.nodup_cons] at hl
    obtain ⟨hg, hl⟩ := hl
    rw [List.foldl_cons]
    rcases List.mem_cons.1 hf with rfl | hf
    · rw [State.rd_foldl_fieldWrite_notMem hg, State.rd_fieldWrite_self]
    · rw [ih hl hf, State.rd_fieldWrite_ne fun he => hg (he ▸ List.mem_map_of_mem hf)]

/-- A field that the page's lock keeps (R45). -/
def State.lockKeeps (s : State) (p : Nat) (f : Fld) : Bool := decide (f.acc = .rwl) && s.on p HDR_CTRL_LOCK

/-- A plain write that is not frozen: the fields that no lock keeps are written, and a value that the lock kept from changing is
recorded. -/
theorem State.plainWrite_eq (s : State) (w : Writer) (p off v : Nat) (l : List Fld) :
    s.plainWrite w p off v l false =
      let t := (l.filter fun f => !s.lockKeeps p f).foldl (fun s f => s.fieldWrite p v f) s
      if s.differs p (l.filter (s.lockKeeps p)) v then t.lockedWrite p off 0xFFFF v w else t := rfl

theorem onlyRegsEv_plainWrite {w : Writer} {off : Nat} (hq : ringKeysFree p (l.map (fkey p))) :
    onlyRegsEv (l.map (fkey p)) p s (s.plainWrite w p off v l false) := by
  have hfold : onlyRegsEv (l.map (fkey p)) p s
      ((l.filter fun f => !s.lockKeeps p f).foldl (fun s f => s.fieldWrite p v f) s) :=
    (onlyRegs_foldl (fun u f hf h => onlyRegs_fieldWrite (List.mem_map_of_mem (List.mem_of_mem_filter hf)) h)
      onlyRegs_refl).toEv
  rw [State.plainWrite_eq]
  dsimp only
  split
  · exact onlyRegsEv_emit hq hfold
  · exact hfold

theorem State.rd_plainWrite {w : Writer} {off : Nat} (hl : (l.map (fkey p)).Nodup) (hf : f ∈ l) (hq : ringKeysFree p [])
    (hk : ¬ evKey p (fkey p f)) : (s.plainWrite w p off v l false).rd p f =
      if s.lockKeeps p f then s.rd p f else f.written (s.rd p f) v := by
  have hfold : ((l.filter fun f => !s.lockKeeps p f).foldl (fun s f => s.fieldWrite p v f) s).rd p f =
      if s.lockKeeps p f then s.rd p f else f.written (s.rd p f) v := by
    split
    next hlock =>
      refine State.rd_foldl_fieldWrite_notMem fun hmem => ?_
      obtain ⟨g, hg, hgf⟩ := List.mem_map.1 hmem
      obtain ⟨hgl, hglock⟩ := List.mem_filter.1 hg
      rw [List.inj_on_of_nodup_map hl hgl hf hgf, hlock] at hglock
      exact absurd hglock (by decide)
    next hlock =>
      exact State.rd_foldl_fieldWrite (hl.sublist (List.filter_sublist.map _)) (List.mem_filter.2 ⟨hf, by simpa using hlock⟩)
  rw [State.plainWrite_eq]
  dsimp only
  split
  · rw [← hfold]
    exact State.rd_emit hq hk
  · exact hfold

end

/-! ### A write of a word that no other command writes -/

theorem pageOf_spec {a i : Nat} {b : Blk} (h : pageOf a = some (b, i)) :
    ∃ base lo n, (b, base, lo, n) ∈ blkMap ∧ base ≤ a ∧ a < base + 0x1000 * n ∧ i = lo + (a - base) / 0x1000 := by
  unfold pageOf at h
  split at h
  next e he =>
    obtain ⟨b', base, lo, n⟩ := e
    have hb := List.find?_some he
    simp only [Option.some.injEq, Prod.mk.injEq, Bool.and_eq_true, decide_eq_true_eq] at h hb
    obtain ⟨rfl, rfl⟩ := h
    exact ⟨base, lo, n, List.mem_of_find?_eq_some he, hb.1, hb.2, rfl⟩
  next => exact absurd h (by simp)

/-- The blocks whose words, from 0x28 on, no command but REGISTER_WRITE writes. -/
def plainBlks : List Blk := [.clk, .drv, .net, .xb]

/-- Their pages lie below the daybook's, or above the MSI-X pages. -/
theorem plainBlks_page {a i : Nat} {b : Blk} (hb : b ∈ plainBlks) (h : pageOf a = some (b, i)) :
    (pg b i = 0x4000 ∧ a < 0x5000) ∨ 0xF000 ≤ pg b i := by
  obtain ⟨base, lo, n, hmem, hlo, hhi, hi⟩ := pageOf_spec h
  simp only [plainBlks, List.mem_cons, List.not_mem_nil, or_false] at hb
  rcases hb with rfl | rfl | rfl | rfl
  · simp [blkMap] at hmem
    rw [pg_clk]
    omega
  · rw [pg_drv]; omega
  · rw [pg_net]; omega
  · rw [pg_xb]; omega

theorem plainFields_off {s : State} {w : Writer} {a i p off : Nat} {b : Blk} {l : List Fld} {frozen : Bool}
    (hp : pageOf a = some (b, i)) (h : s.plainFields w a = some (p, off, l, frozen)) : off = a - pg b i := by
  simp only [State.plainFields, wordAt, hp, Option.some.injEq, Prod.mk.injEq] at h
  exact h.2.1.symm

theorem State.afterWrite_plainBlks {s t : State} {b : Blk} {i off : Nat} (hb : b ∈ plainBlks) (hoff : 0x28 ≤ off) :
    s.afterWrite t b i off = s := by
  have h14 : off ≠ 0x14 := by omega
  simp only [plainBlks, List.mem_cons, List.not_mem_nil, or_false] at hb
  rcases hb with rfl | rfl | rfl | rfl <;> simp [State.afterWrite, h14]

theorem State.pageRow_plainBlks {s : State} {w : Writer} {b : Blk} {i off v : Nat} (hb : b ∈ plainBlks) (hoff : 0x28 ≤ off) :
    s.pageRow w b i off v = s := by
  have h28 : ¬ off < 0x28 := by omega
  simp only [plainBlks, List.mem_cons, List.not_mem_nil, or_false] at hb
  rcases hb with rfl | rfl | rfl | rfl <;> simp [State.pageRow, State.linkRow, h28]

theorem State.busWrite_plainBlks {s : State} {w : Writer} {a i off v : Nat} {b : Blk} {l : List Fld} (hb : b ∈ plainBlks)
    (hoff : 0x28 ≤ off) (hp : pageOf a = some (b, i)) (h : s.plainFields w a = some (pg b i, off, l, false)) :
    s.busWrite w a v = s.plainWrite w (pg b i) off v l false := by
  have hrow : s.regWrite w a v = s.plainWrite w (pg b i) off v l false := by
    unfold State.regWrite
    rw [h]
    cases l with
    | nil => rfl
    | cons f l => simp [hp, State.afterWrite_plainBlks hb hoff]
  unfold State.busWrite
  simp only [hrow, hp, ← plainFields_off hp h]
  exact State.pageRow_plainBlks hb hoff

section
variable {w : Writer} {addr : BitVec 26} {s : State}

theorem exec_registerWrite_miss (v : Word) (h : s.regDecoded w.master addr.toNat = false) :
    exec (.registerWrite w addr v) s = .next (s.fencedWrite w addr.toNat v.toNat) := by
  show execRegisterWrite w addr v s = _
  simp [execRegisterWrite, State.missedWrite, State.missed, State.fencedWrite, h]

theorem State.fencedWrite_noPage {a : Nat} (v : Nat) (h : pageOf a = none) : s.fencedWrite w a v = s.missRecord w .write a := by
  simp [State.fencedWrite, State.fencedTry, h]

theorem exec_registerWrite_unaligned (v : Word) (h : s.regDecoded w.master addr.toNat = true) (ha : addr.toNat % 4 ≠ 0) :
    exec (.registerWrite w addr v) s = .next (s.errorResponse w.master .write 1) := by
  show execRegisterWrite w addr v s = _
  simp [execRegisterWrite, h, ha]

theorem exec_registerWrite (v : Word) (h : s.regDecoded w.master addr.toNat = true) (ha : addr.toNat % 4 = 0) :
    exec (.registerWrite w addr v) s = .next (s.busWrite w addr.toNat v.toNat) := by
  show execRegisterWrite w addr v s = _
  simp [execRegisterWrite, h, ha]

end

/-- Fields of one word with different lowest bits have different keys. -/
theorem fkeys_nodup {l : List Fld} {off : Nat} (p : Nat) (hoff : ∀ f ∈ l, f.off = off) (hlo : (l.map Fld.lo).Nodup) :
    (l.map (fkey p)).Nodup := by
  refine List.Nodup.map_on (fun f hf g hg he => List.inj_on_of_nodup_map hlo hf hg ?_) hlo.of_map
  simp only [fkey, hoff f hf, hoff g hg] at he
  omega

/-- The keys of a page's words from 0x28 on are none that its events change. -/
theorem not_evKey_word {q : Nat} {f : Fld} (hq : (q = 0x4000 ∧ f.off < 0x1000) ∨ 0xF000 ≤ q) (hoff : 0x28 ≤ f.off)
    (hlo : f.lo ≤ 32) : ¬ evKey q (fkey q f) := by
  simp only [evKey, fkey, pg_dbk, HDR_EVT_RAW_RAW, DBK_WR_COUNT, DBK_LOST_COUNT]
  omega

theorem ringKeysFree_words {q : Nat} {l : List Fld} (hq : q = 0x4000 ∨ 0xF000 ≤ q) (hoff : ∀ f ∈ l, 0x28 ≤ f.off) :
    ringKeysFree q (l.map (fkey q)) := by
  have hring : ∀ g : Fld, g.off = 0x1C → g.lo < 32 → fkey q g ∉ l.map (fkey q) ∧ ¬ evKey q (fkey q g) := by
    intro g hg hlo
    constructor
    · intro hmem
      obtain ⟨f, hf, he⟩ := List.mem_map.1 hmem
      have := hoff f hf
      simp only [fkey] at he
      omega
    · simp only [evKey, fkey, pg_dbk, HDR_EVT_RAW_RAW, DBK_WR_COUNT, DBK_LOST_COUNT]
      omega
  exact ⟨hring _ rfl (by decide), hring _ rfl (by decide)⟩

theorem registerWrite_by_access {w : Writer} {addr : BitVec 26} {v : Word} {s : State} {b : Blk} {i off : Nat} {l : List Fld}
    (hdec : s.regDecoded w.master addr.toNat = true) (ha : addr.toNat % 4 = 0) (hp : pageOf addr.toNat = some (b, i))
    (hb : b ∈ plainBlks) (hoff : 0x28 ≤ off) (hw : s.plainFields w addr.toNat = some (pg b i, off, l, false))
    (hl : ∀ f ∈ l, f.off = off ∧ f.lo + f.w ≤ 32) (hlo : (l.map Fld.lo).Nodup) :
    completes (.registerWrite w addr v) s fun t =>
      onlyRegsEv (l.map (fkey (pg b i))) (pg b i) s t ∧
      ∀ f ∈ l, t.rd (pg b i) f =
        if s.lockKeeps (pg b i) f then s.rd (pg b i) f else f.written (s.rd (pg b i) f) v.toNat := by
  have hpage := plainBlks_page hb hp
  have hpage' : pg b i = 0x4000 ∨ 0xF000 ≤ pg b i := hpage.imp_left And.left
  refine ⟨_, exec_registerWrite v hdec ha, ?_⟩
  rw [State.busWrite_plainBlks hb hoff hp hw]
  refine ⟨onlyRegsEv_plainWrite (ringKeysFree_words hpage' fun f hf => by rw [(hl f hf).1]; exact hoff), fun f hf => ?_⟩
  obtain ⟨hfoff, hflo⟩ := hl f hf
  refine State.rd_plainWrite (fkeys_nodup _ (fun g hg => (hl g hg).1) hlo) hf
    (ringKeysFree_words (l := []) hpage' (by simp)) (not_evKey_word ?_ (by omega) (by omega))
  have := plainFields_off hp hw
  omega

/-! ### Reads (R42, R173) -/

/-- A read-and-clear field has a reset value of its width. -/
def Fld.rcFits (f : Fld) : Bool := decide (f.acc ≠ .rc) || decide (f.rst < 2 ^ f.w)

theorem Fld.rcFits_iff {f : Fld} : f.rcFits = true ↔ (f.acc = .rc → f.rst < 2 ^ f.w) := by
  simp [Fld.rcFits, Classical.or_iff_not_imp_left]

theorem mem_fieldsAt {rows : List Row} {off : Nat} {f : Fld} (h : f ∈ fieldsAt rows off) : ∃ r ∈ rows, ∃ i, f ∈ r.flds i := by
  induction rows with
  | nil => simp [fieldsAt] at h
  | cons r rows ih =>
    unfold fieldsAt at h
    split at h
    · exact ⟨r, List.mem_cons_self, _, h⟩
    · obtain ⟨r', hr', i, hi⟩ := ih h
      exact ⟨r', List.mem_cons_of_mem r hr', i, hi⟩

/-- Of every table of the spec: the read-and-clear fields of word `k` of each of its rows fit. -/
theorem blkRows_rcFits (b : Blk) (i k : Nat) : ((blkRows b i).all fun r => (r.flds k).all Fld.rcFits) = true := by
  cases b
  case far =>
    simp only [blkRows, rowsFAR, List.all_cons]
    split <;> rfl
  case tch => by_cases hi : i = 2 <;> simp only [blkRows, hi, if_true, if_false] <;> rfl
  all_goals rfl

theorem rowsHDR_rcFits (k : Nat) : (rowsHDR.all fun r => (r.flds k).all Fld.rcFits) = true := rfl

theorem winRows_rcFits (x : Win) (k : Nat) : ((winRows x).all fun r => (r.flds k).all Fld.rcFits) = true := by
  cases x <;> rfl

theorem rcFits_of_mem_fieldsAt {rows : List Row} (hrows : ∀ k, (rows.all fun r => (r.flds k).all Fld.rcFits) = true) {off : Nat}
    {f : Fld} (h : f ∈ fieldsAt rows off) : f.rcFits = true := by
  obtain ⟨r, hr, k, hf⟩ := mem_fieldsAt h
  exact List.all_eq_true.1 (List.all_eq_true.1 (hrows k) r hr) f hf

theorem wordAt_rcFits {a p off : Nat} {l : List Fld} (h : wordAt a = some (p, off, l)) : ∀ f ∈ l, f.rcFits = true := by
  unfold wordAt at h
  split at h
  next b i hp =>
    simp only [Option.some.injEq, Prod.mk.injEq] at h
    obtain ⟨-, -, rfl⟩ := h
    intro f hf
    split at hf
    · split at hf
      · exact rcFits_of_mem_fieldsAt rowsHDR_rcFits hf
      · exact absurd hf List.not_mem_nil
    · split at hf
      · exact absurd hf List.not_mem_nil
      · exact rcFits_of_mem_fieldsAt (blkRows_rcFits b i) hf
  next =>
    obtain ⟨x, -, hx⟩ := Option.map_eq_some_iff.1 h
    simp only [Prod.mk.injEq] at hx
    obtain ⟨-, -, rfl⟩ := hx
    exact fun f hf => rcFits_of_mem_fieldsAt (winRows_rcFits x.1) hf

section
variable {s : State} {p : Nat} {f g : Fld} {l : List Fld}

/-- Fields may share a key: a field that reads its reset value still does when another returns to its own. -/
theorem State.rd_wr_rst (hg : g.rst < 2 ^ g.w) (h : s.rd p f = f.rst) : (s.wr p g g.rst).rd p f = f.rst := by
  by_cases hk : fkey p f = fkey p g
  · simp [State.rd, State.wr, Store.setD, Store.getD, Nat.mod_eq_of_lt hg, hk]
  · rw [State.rd_wr_key hk, h]

theorem State.rd_foldl_wr_rst_keep (hl : ∀ g ∈ l, g.rst < 2 ^ g.w) (h : s.rd p f = f.rst) :
    (l.foldl (fun s g => s.wr p g g.rst) s).rd p f = f.rst := by
  induction l generalizing s with
  | nil => exact h
  | cons g l ih =>
    obtain ⟨hg, hl⟩ := List.forall_mem_cons.1 hl
    exact ih hl (State.rd_wr_rst hg h)

/-- Fields returned to their reset values one after the other read them. -/
theorem State.rd_foldl_wr_rst (hl : ∀ g ∈ l, g.rst < 2 ^ g.w) (hf : f ∈ l) :
    (l.foldl (fun s g => s.wr p g g.rst) s).rd p f = f.rst := by
  induction l generalizing s with
  | nil => exact absurd hf List.not_mem_nil
  | cons g l ih =>
    obtain ⟨hg, htail⟩ := List.forall_mem_cons.1 hl
    rw [List.foldl_cons]
    rcases List.mem_cons.1 hf with rfl | hf
    · exact State.rd_foldl_wr_rst_keep htail (by rw [State.rd_wr_self, Nat.mod_eq_of_lt hg])
    · exact ih htail hf

/-- The RC fields of a word. -/
def rcOf (l : List Fld) : List Fld := l.filter fun f => decide (f.acc = .rc)

theorem mem_rcOf : f ∈ rcOf l ↔ f ∈ l ∧ f.acc = .rc := by simp [rcOf, List.mem_filter]

theorem State.rcRead_eq {a off : Nat} (h : wordAt a = some (p, off, l)) :
    s.rcRead a = ((rcOf l).foldl (fun s f => s.wr p f f.rst) s).ret (s.peekWord a) := by
  unfold State.rcRead
  simp only [h]
  rfl

theorem onlyRegs_ret {K : List Nat} {t : State} (v : Nat) (h : onlyRegs K s t) : onlyRegs K { s with rdata := v } (t.ret v) := by
  obtain ⟨h1, h2⟩ := h
  refine ⟨?_, h2⟩
  rw [h1]
  rfl

theorem State.rcRead_spec {a off : Nat} (h : wordAt a = some (p, off, l)) :
    (s.rcRead a).rdata = s.peekWord a ∧ (∀ f ∈ l, f.acc = .rc → (s.rcRead a).rd p f = f.rst) ∧
      onlyRegs ((rcOf l).map (fkey p)) { s with rdata := s.peekWord a } (s.rcRead a) := by
  have hfit : ∀ g ∈ rcOf l, g.rst < 2 ^ g.w := fun g hg =>
    Fld.rcFits_iff.1 (wordAt_rcFits h g (mem_rcOf.1 hg).1) (mem_rcOf.1 hg).2
  rw [State.rcRead_eq h]
  refine ⟨rfl, fun f hf hrc => State.rd_foldl_wr_rst hfit (mem_rcOf.2 ⟨hf, hrc⟩), onlyRegs_ret _ ?_⟩
  exact onlyRegs_foldl (fun u f hf hu => onlyRegs_wr (List.mem_map_of_mem hf) hu) onlyRegs_refl

theorem State.latchOf_ret (v a : Nat) : (s.ret v).latchOf a = s.latchOf a := rfl

theorem State.latchRead_some {a x : Nat} (h : s.latchOf a = some (p, f, x)) :
    s.latchRead a = { s with rdata := s.peekWord a, cap := Store.setD f.rst (fkey p f) (x % 2 ^ f.w) s.cap } := by
  unfold State.latchRead
  simp only [State.latchOf_ret, h]
  rfl

theorem State.latchRead_none {a : Nat} (h : s.latchOf a = none) : s.latchRead a = { s with rdata := s.peekWord a } := by
  unfold State.latchRead
  simp only [State.latchOf_ret, h]
  rfl

end

section
variable {w : Writer} {s : State} {a : Nat} {read : State → State}

theorem State.readAt_miss (h : s.regDecoded w.master a = false) : s.readAt w a read = (s.missRecord w .read a).ret 0 := by
  simp [State.readAt, State.missed, h]

theorem State.readAt_hidden (h : s.regDecoded w.master a = true) (ha : a % 4 = 0) (hh : hitHidden w a = true) :
    s.readAt w a read = s.ret 0 := by
  simp [State.readAt, h, ha, hh]

theorem State.readAt_decoded (h : s.regDecoded w.master a = true) (ha : a % 4 = 0) (hh : hitHidden w a = false) :
    s.readAt w a read = read s := by
  simp [State.readAt, h, ha, hh]

theorem State.missRecord_host_read : .completerAbort ∈ (s.missRecord .host .read a).out := by
  simp [State.missRecord, State.errorResponse, State.accessFailed, Writer.master, State.emitOut]

end

theorem exec_rcCounterRead (w : Writer) (addr : BitVec 26) (s : State) :
    exec (.rcCounterRead w addr) s = .next (s.readAt w addr.toNat fun s => s.rcRead addr.toNat) := rfl

theorem exec_latchingRead (w : Writer) (addr : BitVec 26) (s : State) :
    exec (.latchingRead w addr) s = .next (s.readAt w addr.toNat fun s => s.latchRead addr.toNat) := rfl

theorem reads_miss {w : Writer} {addr : BitVec 26} {s : State} (h : s.regDecoded w.master addr.toNat = false) :
    exec (.rcCounterRead w addr) s = .next ((s.missRecord w .read addr.toNat).ret 0) ∧
    exec (.latchingRead w addr) s = .next ((s.missRecord w .read addr.toNat).ret 0) ∧
    (w = .host → completes (.rcCounterRead w addr) s fun t => t.rdata = 0 ∧ .completerAbort ∈ t.out) := by
  rw [exec_latchingRead, State.readAt_miss h]
  have hrc : exec (.rcCounterRead w addr) s = .next ((s.missRecord w .read addr.toNat).ret 0) := by
    rw [exec_rcCounterRead, State.readAt_miss h]
  refine ⟨hrc, rfl, ?_⟩
  rintro rfl
  exact ⟨_, hrc, rfl, State.missRecord_host_read⟩

section
variable {w : Writer} {addr : BitVec 26} {s : State} (h : s.regDecoded w.master addr.toNat = true) (ha : addr.toNat % 4 = 0)
include h ha

theorem reads_hidden (hh : hitHidden w addr.toNat = true) :
    exec (.rcCounterRead w addr) s = .next (s.ret 0) ∧ exec (.latchingRead w addr) s = .next (s.ret 0) := by
  rw [exec_rcCounterRead, exec_latchingRead, State.readAt_hidden h ha hh, State.readAt_hidden h ha hh]
  exact ⟨rfl, rfl⟩

theorem rcCounterRead_clears (hh : hitHidden w addr.toNat = false) {p off : Nat} {l : List Fld}
    (hl : wordAt addr.toNat = some (p, off, l)) :
    completes (.rcCounterRead w addr) s fun t =>
      t.rdata = s.peekWord addr.toNat ∧ (∀ f ∈ l, f.acc = .rc → f.rst < 2 ^ f.w → t.rd p f = f.rst) ∧
      onlyRegs ((rcOf l).map (fkey p)) { s with rdata := s.peekWord addr.toNat } t := by
  obtain ⟨hdata, hclear, honly⟩ := s.rcRead_spec hl
  refine ⟨s.rcRead addr.toNat, ?_, hdata, fun f hf hrc _ => hclear f hf hrc, honly⟩
  rw [exec_rcCounterRead, State.readAt_decoded h ha hh]

theorem latchingRead_latches (hh : hitHidden w addr.toNat = false) {p x : Nat} {f : Fld}
    (hl : s.latchOf addr.toNat = some (p, f, x)) :
    completes (.latchingRead w addr) s fun t =>
      t = { s with rdata := s.peekWord addr.toNat, cap := t.cap } ∧ t.rdCap p f = x % 2 ^ f.w := by
  refine ⟨s.latchRead addr.toNat, ?_, ?_⟩
  · rw [exec_latchingRead, State.readAt_decoded h ha hh]
  · rw [State.latchRead_some hl]
    exact ⟨rfl, Store.getD_setD_self _ _ _ _⟩

theorem latchingRead_plain (hh : hitHidden w addr.toNat = false) (hl : s.latchOf addr.toNat = none) :
    exec (.latchingRead w addr) s = .next { s with rdata := s.peekWord addr.toNat } := by
  rw [exec_latchingRead, State.readAt_decoded h ha hh, State.latchRead_none hl]

end

/-- The value that R41 and R45 give a field, case by case. -/
theorem written_unless_locked (s : State) (p v : Nat) (f : Fld) :
    (if s.lockKeeps p f then s.rd p f else f.written (s.rd p f) v) =
      match f.acc with
      | .rw => fieldOf v f
      | .rws => fieldOf v f
      | .rwl => if s.on p HDR_CTRL_LOCK = true then s.rd p f else fieldOf v f
      | .w1c => andNot (s.rd p f) (fieldOf v f) % 2 ^ f.w
      | .w1s => (s.rd p f ||| fieldOf v f) % 2 ^ f.w
      | _ => s.rd p f := by
  cases hacc : f.acc <;> simp [State.lockKeeps, Fld.written, hacc]

/-- Settles O6: writes by access type, then reads that clear or latch. -/
theorem registerAccess : Obligations.RegisterAccess := by
  refine ⟨fun w addr v s => ⟨exec_registerWrite_miss v, fun h hp => ?_, exec_registerWrite_unaligned v,
      fun h ha b i off l hp hb hoff hw hl hlo => ?_⟩,
    fun w addr s h => reads_miss h, fun w addr s h ha hh => reads_hidden h ha hh,
    fun w addr s h ha hh => ⟨fun p off l hl => rcCounterRead_clears h ha hh hl,
      fun p f x hl => latchingRead_latches h ha hh hl, latchingRead_plain h ha hh⟩⟩
  · rw [exec_registerWrite_miss v h, State.fencedWrite_noPage _ hp]
  · obtain ⟨t, ht, honly, hrd⟩ := registerWrite_by_access (v := v) h ha hp hb hoff hw hl hlo
    exact ⟨t, ht, honly, fun f hf => (hrd f hf).trans (written_unless_locked s _ _ f)⟩

end Sys2Proof.Machine
end

section
/-! PROOFS. The SYS page's own words, SYS_CAPS and SYS_NODE among them, through claims, teardown and recovery mode (R30 to R34, R363,
R435): none of these writes them. -/

set_option autoImplicit false

namespace Sys2Proof.Machine

/-! ### The registers that an event writes -/

section
variable {k : Nat} (s : State) (q n code : Nat) (data : List Nat)

@[simp] theorem State.regs_loftPut (off : Nat) (b : List Nat) : (s.loftPut off b).regs = s.regs := by
  rw [(State.loftPut_spec s off b).1]

@[simp] theorem State.regs_loftPutLE (off v w : Nat) : (s.loftPutLE off v w).regs = s.regs := s.regs_loftPut off _

theorem State.find_dbkAppend (r : Rec) (hk : ¬ evKey q k) : Store.find k (s.dbkAppend r).regs = Store.find k s.regs := by
  have hw : k ≠ fkey (pg .dbk 0) DBK_WR_COUNT := fun h => hk (.inr (.inl h))
  have hl : k ≠ fkey (pg .dbk 0) DBK_LOST_COUNT := fun h => hk (.inr (.inr (.inl h)))
  unfold State.dbkAppend
  dsimp only
  split
  · rw [State.inc_eq, State.find_wr hw]
  · split
    · rw [State.cnt_eq, State.find_wr hl]
    · rw [State.cnt_eq, State.find_wr hl, State.inc_eq, State.find_wr hw]

theorem State.find_ringAppend (r : Rec) (hk : ¬ evKey q k) : Store.find k (s.ringAppend q r).regs = Store.find k s.regs := by
  unfold State.ringAppend
  dsimp only
  split
  · rfl
  · split
    · rw [State.find_wr fun h => hk (.inl h), State.regs_loftPutLE]
    · simp [State.ringPut]

theorem State.find_raisePage (p : Nat) (hk : ¬ evKey q k) : Store.find k (s.raisePage p).regs = Store.find k s.regs := by
  have hm : ∀ i, i < 8 → k ≠ fkey 0xE000 (MSIP_PEND i) := fun i hi h => hk (.inr (.inr (.inr (by
    simp only [h, fkey, MSIP_PEND]
    omega))))
  unfold State.raisePage State.raiseTarget State.raiseMsix State.emitOut
  dsimp only
  split
  · split
    · exact State.find_wr (hm _ (by omega))
    · rfl
  · split
    · split <;> rfl
    · split <;> rfl

/-- An event of the page at `q` writes no register but those of `evKey`. -/
theorem State.find_emitAt (hk : ¬ evKey q k) : Store.find k (s.emitAt q n code data).regs = Store.find k s.regs := by
  have hite : ∀ (c : Prop) [Decidable c] (t u : State), Store.find k t.regs = Store.find k u.regs →
      Store.find k (if c then t else u).regs = Store.find k u.regs := by
    intro c _ t u h
    split
    · exact h
    · rfl
  unfold State.emitAt
  dsimp only
  rw [hite _ _ _ (State.find_raisePage _ q _ hk), State.find_ringAppend _ q _ hk, hite _ _ _ (State.find_dbkAppend _ q _ hk),
    State.find_wr fun h => hk (.inl h)]

end

/-! ### The words of the SYS page -/

/-- The key of a field of SYS_CAPS, or of a word of the SYS page beyond its header. -/
def sysKey (k : Nat) : Bool := decide (k < 32 * 0x1000) && decide (k / 32 = 4 ∨ 32 * 0x28 ≤ k)

/-- What the registers hold of those words. -/
def sysWords (r : Store Nat) (k : Nat) : Option Nat := if sysKey k then Store.find k r else none

theorem sysWords_congr {r r' : Store Nat} (h : ∀ k, sysKey k = true → Store.find k r' = Store.find k r) :
    sysWords r' = sysWords r := by
  funext k
  unfold sysWords
  split
  · exact h k ‹_›
  · rfl

theorem sysKey_lt {k : Nat} (h : sysKey k = true) : k < 32 * 0x1000 := by
  simp only [sysKey, Bool.and_eq_true, decide_eq_true_eq] at h
  exact h.1

theorem State.rd_sysWords {s t : State} {f : Fld} (h : sysWords t.regs = sysWords s.regs) (hf : sysKey (fkey 0 f) = true) :
    t.rd 0 f = s.rd 0 f := by
  have hk := congrFun h (fkey 0 f)
  simp only [sysWords, hf, if_true] at hk
  exact State.rd_congr hk

section
variable {s : State} {p : Nat} {f : Fld}

@[simp] theorem le_pg_iff {b : Blk} {i : Nat} : 0x1000 ≤ pg b i ↔ ¬ (b = .sys ∧ i = 0) := by
  cases b <;> simp [pg, Blk.base] <;> omega

@[simp] theorem sysWords_wr (hp : 0x1000 ≤ p) (v : Nat) : sysWords (s.wr p f v).regs = sysWords s.regs :=
  sysWords_congr fun k hk => State.find_wr (by
    have := sysKey_lt hk
    simp only [fkey]
    omega)

@[simp] theorem sysWords_wb (hp : 0x1000 ≤ p) (b : Bool) : sysWords (s.wb p f b).regs = sysWords s.regs := sysWords_wr hp _
@[simp] theorem sysWords_cnt (hp : 0x1000 ≤ p) (n : Nat) : sysWords (s.cnt p f n).regs = sysWords s.regs := sysWords_wr hp _
@[simp] theorem sysWords_inc (hp : 0x1000 ≤ p) (n : Nat) : sysWords (s.inc p f n).regs = sysWords s.regs := sysWords_wr hp _

theorem not_evKey_sys {k : Nat} (hp : p = 0 ∨ 0x1000 ≤ p) (hk : sysKey k = true) : ¬ evKey p k := by
  simp only [sysKey, Bool.and_eq_true, decide_eq_true_eq] at hk
  simp only [evKey, fkey, pg_dbk, HDR_EVT_RAW_RAW, DBK_WR_COUNT, DBK_LOST_COUNT]
  omega

@[simp] theorem sysWords_emit (hp : 0x1000 ≤ p) (code : Nat) (data : List Nat) :
    sysWords (s.emit p code data).regs = sysWords s.regs :=
  sysWords_congr fun _ hk => State.find_emitAt _ _ _ _ _ (not_evKey_sys (.inr hp) hk)

@[simp] theorem sysWords_emit_sys (code : Nat) (data : List Nat) : sysWords (s.emit 0 code data).regs = sysWords s.regs :=
  sysWords_congr fun _ hk => State.find_emitAt _ _ _ _ _ (not_evKey_sys (.inl rfl) hk)

end

/-! ### Steps of the machine that leave the SYS page's own words -/

@[simp] theorem le_bayE (n : Nat) : 0x1000 ≤ bayE n := by unfold bayE; omega
@[simp] theorem le_feedE (n : Nat) : 0x1000 ≤ feedE n := by unfold feedE; omega
@[simp] theorem le_touchE (p n : Nat) : 0x1000 ≤ touchE p n := by unfold touchE; omega
@[simp] theorem le_ownPg (i : Nat) : 0x1000 ≤ ownPg i := by simp [ownPg]
@[simp] theorem le_quadP (l : Nat) : 0x1000 ≤ quadP l := by simp [quadP]

@[simp] theorem sysWords_ite (c : Prop) [Decidable c] (a b : State) :
    sysWords (if c then a else b).regs = if c then sysWords a.regs else sysWords b.regs := by
  split <;> rfl

@[simp] theorem sysWords_foldl {α : Type} {step : State → α → State} (l : List α) (s : State)
    (h : ∀ s x, sysWords (step s x).regs = sysWords s.regs) : sysWords (l.foldl step s).regs = sysWords s.regs := by
  induction l generalizing s with
  | nil => rfl
  | cons x l ih => rw [List.foldl_cons, ih, h]

@[simp] theorem sysWords_yk (s : State) (f : YokeSt → YokeSt) : sysWords (s.yk f).regs = sysWords s.regs := rfl

section
variable (s : State)

/-! #### Packets of the lanes, and limited events -/

@[simp] theorem sysWords_setBl (e l : Nat) (x : BlLane) : sysWords (s.setBl e l x).regs = sysWords s.regs := rfl

@[simp] theorem sysWords_blQueue (e l : Nat) (x : BlPkt) : sysWords (s.blQueue e l x).regs = sysWords s.regs := by
  simp [State.blQueue]

@[simp] theorem sysWords_handOver (h : Nat) (g : Geo) (typ group frame : Nat) (rep : Bool) (payload : List Nat) (due : Nat) :
    sysWords (s.handOver h g typ group frame rep payload due).regs = sysWords s.regs := by
  simp [State.handOver]

@[simp] theorem sysWords_emitOut (o : Out) : sysWords (s.emitOut o).regs = sysWords s.regs := rfl

@[simp] theorem sysWords_emitLimited (p key ms code : Nat) (data : List Nat) (hp : 0x1000 ≤ p) :
    sysWords (s.emitLimited p key ms code data).regs = sysWords s.regs := by
  unfold State.emitLimited
  split <;> simp [hp]

/-! #### Encoder channels, bays and their owners -/

@[simp] theorem sysWords_encUpd (p k : Nat) (f : EncCh → EncCh) : sysWords (s.encUpd p k f).regs = sysWords s.regs := by
  unfold State.encUpd
  split <;> simp

@[simp] theorem sysWords_notRec (p k f h cause : Nat) : sysWords (s.notRec p k f h cause).regs = sysWords s.regs := by
  simp [State.notRec]

@[simp] theorem sysWords_holdDrop (n g : Nat) : sysWords (s.holdDrop n g).regs = sysWords s.regs := by
  simp [State.holdDrop]

@[simp] theorem sysWords_bayToFree (n : Nat) : sysWords (s.bayToFree n).regs = sysWords s.regs := by
  simp [State.bayToFree]

@[simp] theorem sysWords_ledgerDrop (n : Nat) : sysWords (s.ledgerDrop n).regs = sysWords s.regs := by
  unfold State.ledgerDrop
  split <;> simp

@[simp] theorem sysWords_bayReturn (n : Nat) : sysWords (s.bayReturn n).regs = sysWords s.regs := by
  simp [State.bayReturn]

@[simp] theorem sysWords_ownerRelease (n g : Nat) : sysWords (s.ownerRelease n g).regs = sysWords s.regs := by
  simp [State.ownerRelease]

@[simp] theorem sysWords_tapAbort (h : Nat) : sysWords (s.tapAbort h).regs = sysWords s.regs := by
  unfold State.tapAbort
  split
  · rfl
  · split
    · rfl
    · simp

/-! #### The yoke: link, state, time and reports (R370 to R378) -/

@[simp] theorem sysWords_setHd (h : Nat) (x : HeadSt) : sysWords (s.setHd h x).regs = sysWords s.regs := rfl

@[simp] theorem sysWords_ykClear : sysWords s.ykClear.regs = sysWords s.regs := by
  simp [State.ykClear]

@[simp] theorem sysWords_mergeSplit (wasSeq : Bool) : sysWords (s.mergeSplit wasSeq).regs = sysWords s.regs := rfl

@[simp] theorem sysWords_toIngress (m : Nat) (x : PktSlot) : sysWords (s.toIngress m x).regs = sysWords s.regs := by
  simp [State.toIngress]

@[simp] theorem sysWords_laterGo : sysWords s.laterGo.regs = sysWords s.regs := by
  simp [State.laterGo]

@[simp] theorem sysWords_setTbState (new : Nat) : sysWords (s.setTbState new).regs = sysWords s.regs := by
  simp [State.setTbState]

@[simp] theorem sysWords_wheelSplit : sysWords s.wheelSplit.regs = sysWords s.regs := by
  simp [State.wheelSplit]

@[simp] theorem sysWords_ykState (new : Nat) : sysWords (s.ykState new).regs = sysWords s.regs := by
  simp [State.ykState]

@[simp] theorem sysWords_netDrop (n : Nat) : sysWords (s.netDrop n).regs = sysWords s.regs := by
  simp [State.netDrop]

@[simp] theorem sysWords_netDatagram (nets : Nat) (dest : Dest) (bytes : List Nat) :
    sysWords (s.netDatagram nets dest bytes).regs = sysWords s.regs := by
  simp [State.netDatagram]

@[simp] theorem sysWords_ymSend (typ : Nat) (body : List Nat) : sysWords (s.ymSend typ body).regs = sysWords s.regs := by
  simp [State.ymSend]

@[simp] theorem sysWords_report (kind obj id frame own partner withheld : Nat) :
    sysWords (s.report kind obj id frame own partner withheld).regs = sysWords s.regs := by
  simp [State.report]

@[simp] theorem sysWords_ykDown (cause : Nat) : sysWords (s.ykDown cause).regs = sysWords s.regs := by
  simp [State.ykDown]

@[simp] theorem sysWords_setVc (v : Nat) (x : YkVc) : sysWords (s.setVc v x).regs = sysWords s.regs := rfl

@[simp] theorem sysWords_ykEmitFor (x : YkFrame) (replay : Bool) (av : Option Nat) (cv : Nat) :
    sysWords (s.ykEmitFor x replay av cv).regs = sysWords s.regs := by
  unfold State.ykEmitFor
  split <;> simp

@[simp] theorem sysWords_ykEmit (x : YkFrame) (replay : Bool) : sysWords (s.ykEmit x replay).regs = sysWords s.regs := by
  simp [State.ykEmit]

@[simp] theorem sysWords_ykPush (v typ : Nat) (data : List Nat) : sysWords (s.ykPush v typ data).regs = sysWords s.regs := by
  simp [State.ykPush]

@[simp] theorem sysWords_ykSend (v typ : Nat) (data : List Nat) : sysWords (s.ykSend v typ data).regs = sysWords s.regs := by
  simp [State.ykSend]

/-! #### Check values and divergence -/

@[simp] theorem sysWords_lineFlush (h : Nat) : sysWords (s.lineFlush h).regs = sysWords s.regs := by
  unfold State.lineFlush
  split <;> simp

@[simp] theorem sysWords_fNote (own partner : ChkVal) : sysWords (s.fNote own partner).regs = sysWords s.regs := by
  simp [State.fNote]

@[simp] theorem sysWords_inStepCheck : sysWords s.inStepCheck.regs = sysWords s.regs := by
  unfold State.inStepCheck
  split
  · rfl
  · split <;> simp

@[simp] theorem sysWords_reportDiv (kind obj id frame own partner : Nat) :
    sysWords (s.reportDiv kind obj id frame own partner).regs = sysWords s.regs := by
  simp [State.reportDiv]

@[simp] theorem sysWords_divergeOn (c : Option Nat) (kind obj id n own partner : Nat) :
    sysWords (s.divergeOn c kind obj id n own partner).regs = sysWords s.regs := by
  unfold State.divergeOn
  split <;> simp

@[simp] theorem sysWords_diverge (kind obj id n own partner : Nat) :
    sysWords (s.diverge kind obj id n own partner).regs = sysWords s.regs := by
  simp [State.diverge]

@[simp] theorem sysWords_chkCompare (a b : ChkVal) : sysWords (s.chkCompare a b).regs = sysWords s.regs := by
  have hd : ∀ (t : State) (c : Bool) (kind x y : Nat),
      sysWords (if c then t.diverge kind a.obj 0xFFFF a.n x y else t).regs = sysWords t.regs := by
    intro t c kind x y
    cases c
    · rfl
    · exact sysWords_diverge _ _ _ _ _ _ _
  unfold State.chkCompare
  dsimp only
  split
  · split <;> simp
  · rw [hd, hd, hd]
  · split
    · rw [hd, hd]
    · rw [sysWords_yk, hd, hd]

@[simp] theorem sysWords_chkOwn (v : ChkVal) : sysWords (s.chkOwn v).regs = sysWords s.regs := by
  have hnote : ∀ o : Option ChkVal, sysWords (match o with | some b => s.fNote v b | none => s).regs = sysWords s.regs := by
    intro o
    cases o
    · rfl
    · exact sysWords_fNote _ _ _
  unfold State.chkOwn
  dsimp only
  rw [sysWords_inStepCheck]
  split
  · rw [sysWords_chkCompare, sysWords_yk]
    exact hnote _
  · rw [sysWords_yk]
    exact hnote _

/-! #### Frame sums and CRC -/

@[simp] theorem sysWords_frameSum (h flags lines f ts vdig tdig : Nat) :
    sysWords (s.frameSum h flags lines f ts vdig tdig).regs = sysWords s.regs := by
  simp [State.frameSum]

@[simp] theorem sysWords_setCrc (c : Nat) (l : List CrcSt) : sysWords (s.setCrc c l).regs = sysWords s.regs := rfl

@[simp] theorem sysWords_setCrcHold (c : Nat) (b : Bool) : sysWords (s.setCrcHold c b).regs = sysWords s.regs := by
  simp [State.setCrcHold]

theorem le_of_crcPage {s : State} {c p : Nat} (h : s.crcPage c = some p) : 0x1000 ≤ p := by
  obtain ⟨x, -, rfl⟩ := Option.map_eq_some_iff.1 h
  simp

@[simp] theorem sysWords_crcResult (c : Nat) (x : CrcSt) : sysWords (s.crcResult c x).regs = sysWords s.regs := by
  unfold State.crcResult
  dsimp only
  split
  · rfl
  next p hp =>
    have := le_of_crcPage hp
    split <;> simp [this]

@[simp] theorem sysWords_crcNotRun (c : Nat) : sysWords (s.crcNotRun c).regs = sysWords s.regs := by
  unfold State.crcNotRun
  split
  next p hp => simp [le_of_crcPage hp]
  next => rfl

@[simp] theorem sysWords_crcEnd (c n h : Nat) (ok : Bool) : sysWords (s.crcEnd c n h ok).regs = sysWords s.regs := by
  unfold State.crcEnd
  split <;> simp

/-! #### Heads and canvases -/

@[simp] theorem sysWords_holdRelease (n g : Nat) : sysWords (s.holdRelease n g).regs = sysWords s.regs := by
  simp [State.holdRelease]

@[simp] theorem sysWords_frameOver (h : Nat) (fr : GateFrame) (aborted : Bool) :
    sysWords (s.frameOver h fr aborted).regs = sysWords s.regs := by
  simp [State.frameOver]

@[simp] theorem sysWords_activate (p : Nat) (l : List Fld) : sysWords (s.activate p l).regs = sysWords s.regs := rfl

@[simp] theorem sysWords_outsideCheck (h : Nat) : sysWords (s.outsideCheck h).regs = sysWords s.regs := by
  simp [State.outsideCheck]

@[simp] theorem sysWords_headApply (h : Nat) : sysWords (s.headApply h).regs = sysWords s.regs := by
  simp [State.headApply]

@[simp] theorem sysWords_setCv (e c : Nat) (x : CanvasSt) : sysWords (s.setCv e c x).regs = sysWords s.regs := rfl

@[simp] theorem sysWords_closeCheck (c : Nat) : sysWords (s.closeCheck c).regs = sysWords s.regs := by
  refine sysWords_foldl _ _ fun t e => ?_
  dsimp only
  split
  · split <;> simp
  · rfl

@[simp] theorem sysWords_frameAbort (h line cause : Nat) : sysWords (s.frameAbort h line cause).regs = sysWords s.regs := by
  unfold State.frameAbort
  dsimp only
  split <;> simp

@[simp] theorem sysWords_useSet (l : List Nat) (b : Bool) : sysWords (s.useSet l b).regs = sysWords s.regs := by
  simp [State.useSet]

@[simp] theorem sysWords_dropRecs (l : List TapRec) : sysWords (s.dropRecs l).regs = sysWords s.regs := by
  simp [State.dropRecs]

@[simp] theorem sysWords_chEnd (p k : Nat) : sysWords (s.chEnd p k).regs = sysWords s.regs := by
  unfold State.chEnd
  split
  · rfl
  · dsimp only
    split
    · split <;> simp
    · simp

@[simp] theorem sysWords_chStop (p k cause : Nat) : sysWords (s.chStop p k cause).regs = sysWords s.regs := by
  simp [State.chStop]

@[simp] theorem sysWords_headDisable (h : Nat) : sysWords (s.headDisable h).regs = sysWords s.regs := by
  unfold State.headDisable
  dsimp only
  split
  · rfl
  · split <;> simp

/-! #### Packetisers and lanes -/

@[simp] theorem sysWords_blEnd (e l : Nat) : sysWords (s.blEnd e l).regs = sysWords s.regs := by
  unfold State.blEnd
  dsimp only
  split <;> simp

@[simp] theorem sysWords_swapDone (e : Nat) : sysWords (s.swapDone e).regs = sysWords s.regs := by
  simp [State.swapDone]

@[simp] theorem sysWords_lnQuiet (l : Nat) : sysWords (s.lnQuiet l).regs = sysWords s.regs := by
  simp [State.lnQuiet]

@[simp] theorem sysWords_lnRefresh (q : Nat) : sysWords (s.lnRefresh q).regs = sysWords s.regs := by
  refine (sysWords_foldl _ _ fun t i => sysWords_lnQuiet t _).trans (sysWords_foldl _ _ fun t k => ?_)
  dsimp only
  split <;> simp

@[simp] theorem sysWords_blDisable (e : Nat) : sysWords (s.blDisable e).regs = sysWords s.regs := by
  simp [State.blDisable]

@[simp] theorem sysWords_lnDisable (l : Nat) : sysWords (s.lnDisable l).regs = sysWords s.regs := by
  simp [State.lnDisable]

/-! #### Receivers, merged packets and touch -/

@[simp] theorem sysWords_setCvu (u : Nat) (x : CvuSt) : sysWords (s.setCvu u x).regs = sysWords s.regs := rfl

@[simp] theorem sysWords_mergeArrive (origin fnum : Nat) (x : PktSlot) :
    sysWords (s.mergeArrive origin fnum x).regs = sysWords s.regs := by
  simp [State.mergeArrive]

@[simp] theorem sysWords_forward (x : PktSlot) : sysWords (s.forward x).regs = sysWords s.regs := by
  simp [State.forward]

@[simp] theorem sysWords_feedArrive (x : PktSlot) : sysWords (s.feedArrive x).regs = sysWords s.regs := by
  simp [State.feedArrive, feedP]

@[simp] theorem sysWords_rxClassify (port : Nat) (fr : NetFrame) (stamp : Nat) :
    sysWords (s.rxClassify port fr stamp).regs = sysWords s.regs := by
  unfold State.rxClassify
  split
  · simp
  · split
    · rfl
    · split <;> simp [feedP]

@[simp] theorem sysWords_rxRelease (port : Nat) : sysWords (s.rxRelease port).regs = sysWords s.regs := by
  simp [State.rxRelease]

@[simp] theorem sysWords_cvuDisable (u : Nat) : sysWords (s.cvuDisable u).regs = sysWords s.regs := by
  simp [State.cvuDisable]

@[simp] theorem sysWords_setTch (p : Nat) (x : TchSt) : sysWords (s.setTch p x).regs = sysWords s.regs := rfl

@[simp] theorem sysWords_nodesQuiet (p : Nat) : sysWords (s.nodesQuiet p).regs = sysWords s.regs := by
  simp [State.nodesQuiet]

@[simp] theorem sysWords_tchDisable (p : Nat) : sysWords (s.tchDisable p).regs = sysWords s.regs := by
  simp [State.tchDisable]

/-! #### Ethernet ports and the yoke's end -/

@[simp] theorem sysWords_netLink (n : Nat) (up fec : Bool) : sysWords (s.netLink n up fec).regs = sysWords s.regs := by
  simp [State.netLink]

@[simp] theorem sysWords_netDisable (n : Nat) : sysWords (s.netDisable n).regs = sysWords s.regs := by
  simp [State.netDisable]

@[simp] theorem sysWords_ykDisable : sysWords s.ykDisable.regs = sysWords s.regs := by
  simp [State.ykDisable]

/-! #### Decoders and feeds -/

@[simp] theorem sysWords_feedResumed (f : Nat) : sysWords (s.feedResumed f).regs = sysWords s.regs := by
  simp [State.feedResumed, feedP]

@[simp] theorem sysWords_resetFields (p : Nat) (l : List Fld) (hp : 0x1000 ≤ p) :
    sysWords (s.resetFields p l).regs = sysWords s.regs := by
  simp [State.resetFields, hp]

@[simp] theorem sysWords_decSwap (n : Nat) : sysWords (s.decSwap n).regs = sysWords s.regs := by
  simp [State.decSwap]

@[simp] theorem sysWords_decWrap (n : Nat) : sysWords (s.decWrap n).regs = sysWords s.regs := by
  simp [State.decWrap]

@[simp] theorem sysWords_decRest (n : Nat) : sysWords (s.decRest n).regs = sysWords s.regs := by
  simp [State.decRest]

@[simp] theorem sysWords_decRestAll : sysWords s.decRestAll.regs = sysWords s.regs := by
  simp [State.decRestAll]

@[simp] theorem sysWords_netSend (n : Nat) (what : String) (vals : List Nat) :
    sysWords (s.netSend n what vals).regs = sysWords s.regs := by
  simp [State.netSend]

@[simp] theorem sysWords_feedLeave : sysWords s.feedLeave.regs = sysWords s.regs := by
  simp [State.feedLeave]

@[simp] theorem sysWords_feedCount : sysWords s.feedCount.regs = sysWords s.regs := by
  simp [State.feedCount, feedP]

@[simp] theorem sysWords_feedDisable (f : Nat) : sysWords (s.feedDisable f).regs = sysWords s.regs := by
  simp [State.feedDisable]

/-! #### Codec, waits and the end of any block -/

@[simp] theorem sysWords_codecNote : sysWords s.codecNote.regs = sysWords s.regs := rfl

@[simp] theorem sysWords_slicesRelease (e : Nat) : sysWords (s.slicesRelease e).regs = sysWords s.regs := by
  simp [State.slicesRelease]

@[simp] theorem sysWords_setWait (o st : Nat) (ab : Bool) : sysWords (s.setWait o st ab).regs = sysWords s.regs := by
  simp [State.setWait]

theorem sysWords_enable (b : Blk) (i : Nat) (on : Bool) :
    sysWords (s.wb (pg b i) HDR_CTRL_ENABLE on).regs = sysWords s.regs := by
  by_cases h : b = .sys ∧ i = 0
  · obtain ⟨rfl, rfl⟩ := h
    exact sysWords_congr fun k hk => State.find_wr fun he => absurd (he ▸ hk) (by decide)
  · exact sysWords_wb (le_pg_iff.2 h) on

@[simp] theorem sysWords_blkStop (b : Blk) (i : Nat) : sysWords (s.blkStop b i).regs = sysWords s.regs := by
  have hoff : sysWords (s.wb (pg b i) HDR_CTRL_ENABLE false).regs = sysWords s.regs := sysWords_enable s b i false
  unfold State.blkStop
  dsimp only
  cases b
  case hd | bl | ln | cvu | tch | net | yk => simp
  case feed | dec | enc | cmp | hit => simp
  all_goals exact hoff

/-! #### Guards and hitches -/

@[simp] theorem sysWords_drained (g : Nat) : sysWords (s.drained g).regs = sysWords s.regs := by
  simp [State.drained]

@[simp] theorem sysWords_guardBump (g : Nat) : sysWords (s.guardBump g).regs = sysWords s.regs := by
  simp [State.guardBump]

@[simp] theorem sysWords_dmaBusy : sysWords s.dmaBusy.regs = sysWords s.regs := by
  simp [State.dmaBusy]

@[simp] theorem sysWords_dropWait (o : Nat) : sysWords (s.dropWait o).regs = sysWords s.regs := rfl

@[simp] theorem sysWords_hitOrder (o n : Nat) : sysWords (s.hitOrder o n).regs = sysWords s.regs := by
  unfold State.hitOrder
  split <;> simp

@[simp] theorem sysWords_hitchGive (o n : Nat) : sysWords (s.hitchGive o n).regs = sysWords s.regs := by
  simp [State.hitchGive]

@[simp] theorem sysWords_hitchGrant (o n : Nat) (ab : Bool) : sysWords (s.hitchGrant o n ab).regs = sysWords s.regs := by
  simp [State.hitchGrant]

@[simp] theorem sysWords_setAband (n : Nat) (b : Bool) : sysWords (s.setAband n b).regs = sysWords s.regs := by
  simp [State.setAband]

@[simp] theorem sysWords_hitchFree (n : Nat) (ab : Bool) : sysWords (s.hitchFree n ab).regs = sysWords s.regs := by
  unfold State.hitchFree
  dsimp only
  split <;> simp

@[simp] theorem sysWords_epochUp (o : Nat) : sysWords (s.epochUp o).regs = sysWords s.regs := by
  simp [State.epochUp]

/-! #### Locks, and what recovery mode holds -/

@[simp] theorem sysWords_pllAnew (k : Nat) : sysWords (s.pllAnew k).regs = sysWords s.regs := rfl

@[simp] theorem sysWords_setLock (k : Nat) (on : Bool) : sysWords (s.setLock k on).regs = sysWords s.regs := by
  simp [State.setLock]

@[simp] theorem sysWords_droversHeld : sysWords s.droversHeld.regs = sysWords s.regs := by
  simp [State.droversHeld]

@[simp] theorem sysWords_functionsOff : sysWords s.functionsOff.regs = sysWords s.regs := by
  simp [State.functionsOff]

/-! #### Claims (R363, R378) -/

@[simp] theorem sysWords_claimShown (new old : Nat) : sysWords (s.claimShown new old).regs = sysWords s.regs := by
  simp [State.claimShown]

@[simp] theorem sysWords_timeRole : sysWords s.timeRole.regs = sysWords s.regs := by
  simp [State.timeRole]

@[simp] theorem sysWords_roleChange (was : Bool) : sysWords (s.roleChange was).regs = sysWords s.regs := by
  simp [State.roleChange]

@[simp] theorem sysWords_claimSet (new cause : Nat) : sysWords (s.claimSet new cause).regs = sysWords s.regs := by
  simp [State.claimSet]

/-! #### Owners, commits and enables -/

@[simp] theorem sysWords_enableFenced (req unit idx writer : Nat) :
    sysWords (s.enableFenced req unit idx writer).regs = sysWords s.regs := sysWords_emit_sys _ _

@[simp] theorem sysWords_ownConflict (req owner idx n : Nat) :
    sysWords (s.ownConflict req owner idx n).regs = sysWords s.regs := sysWords_emit_sys _ _

@[simp] theorem sysWords_ownWrite (w i v word : Nat) : sysWords (s.ownWrite w i v word).regs = sysWords s.regs := by
  simp [State.ownWrite]

@[simp] theorem sysWords_commitNow (p : Nat) (l : List Fld) : sysWords (s.commitNow p l).regs = sysWords s.regs := rfl

theorem sysWords_ownCheck {s t : State} {req fid writer : Nat} {l : List Nat}
    (h : s.ownCheck req fid writer l = some t) : sysWords t.regs = sysWords s.regs := by
  unfold State.ownCheck at h
  dsimp only at h
  split at h
  · rw [← Option.some.inj h, sysWords_enableFenced]
  · split at h
    · rw [← Option.some.inj h, sysWords_ownConflict]
    · exact absurd h (by simp)

@[simp] theorem sysWords_netEnable (w : Writer) (n : Nat) : sysWords (s.netEnable w n).regs = sysWords s.regs := by
  unfold State.netEnable
  dsimp only
  split
  · rfl
  · split
    · simp
    · split
      next t ht => exact sysWords_ownCheck ht
      next => simp

/-! #### Recovery mode and the self-test -/

@[simp] theorem sysWords_recoveryNet : sysWords s.recoveryNet.regs = sysWords s.regs := by
  simp [State.recoveryNet]

@[simp] theorem sysWords_enterRecovery : sysWords s.enterRecovery.regs = sysWords s.regs := by
  simp [State.enterRecovery]

@[simp] theorem sysWords_draw : sysWords s.draw.2.regs = sysWords s.regs := rfl

@[simp] theorem sysWords_selfTestRecords (l : List Nat) : sysWords (s.selfTestRecords l).regs = sysWords s.regs := by
  exact sysWords_foldl _ _ fun t f => by simp

end

end Sys2Proof.Machine
end

section
/-! PROOFS. The end of self-test: silence, ROM recovery mode, and SYS_CAPS with the fences (R31 to R35, R444). -/

set_option autoImplicit false

namespace Sys2Proof.Machine

/-! ### SYS_CAPS -/

/-- SYS_CAPS is one of the SYS page's words. -/
theorem State.capsWord_congr {s t : State} (h : sysWords t.regs = sysWords s.regs) : t.capsWord = s.capsWord := by
  unfold State.capsWord
  rw [State.rd_sysWords h (by decide), State.rd_sysWords h (by decide), State.rd_sysWords h (by decide),
    State.rd_sysWords h (by decide), State.rd_sysWords h (by decide), State.rd_sysWords h (by decide),
    State.rd_sysWords h (by decide), State.rd_sysWords h (by decide), State.rd_sysWords h (by decide)]

/-! ### The device falls silent (R32) -/

/-- Output `j` of TB falls silent: disabled, its schedule gone, tri-stated. -/
def State.toutSilent (s : State) (j : Nat) : State :=
  (((s.wb tb (TB_TO_CTRL_EN j) false).wb tb (TB_TO_CTRL_ARM j) false).setTout j ⟨none, none⟩).toRelease j

section
variable (s : State) (j p : Nat) (f : Fld)

@[simp] theorem State.mss_toutSilent : (s.toutSilent j).mss = s.mss := rfl

@[simp] theorem sysWords_toutSilent : sysWords (s.toutSilent j).regs = sysWords s.regs := by
  simp [State.toutSilent, State.setTout, State.toRelease, tb]

/-- Of a TB output's fields and those of the pages above, falling silent writes EN and ARM. -/
theorem State.rd_toutSilent (hen : fkey p f ≠ fkey tb (TB_TO_CTRL_EN j)) (harm : fkey p f ≠ fkey tb (TB_TO_CTRL_ARM j)) :
    (s.toutSilent j).rd p f = s.rd p f := by
  show ((s.wb tb (TB_TO_CTRL_EN j) false).wb tb (TB_TO_CTRL_ARM j) false).rd p f = _
  rw [State.wb_eq, State.rd_wr_key harm, State.wb_eq, State.rd_wr_key hen]

theorem State.on_toutSilent_self : (s.toutSilent j).on tb (TB_TO_CTRL_EN j) = false := by
  show ((s.wb tb (TB_TO_CTRL_EN j) false).wb tb (TB_TO_CTRL_ARM j) false).on tb (TB_TO_CTRL_EN j) = false
  rw [State.on_eq, State.wb_eq _ _ (TB_TO_CTRL_ARM j), State.rd_wr_same (by simp [TB_TO_CTRL_EN, TB_TO_CTRL_ARM]), ← State.on_eq,
    State.on_wb_false]

/-- An output that is off stays off when one falls silent. -/
theorem State.on_toutSilent_of_off {i : Nat} (h : s.on tb (TB_TO_CTRL_EN i) = false) :
    (s.toutSilent j).on tb (TB_TO_CTRL_EN i) = false := by
  by_cases hij : i = j
  · rw [hij, State.on_toutSilent_self]
  · rw [State.on_eq, State.rd_toutSilent, ← State.on_eq, h]
    all_goals
      simp only [fkey, TB_TO_CTRL_EN, TB_TO_CTRL_ARM]
      omega

theorem State.on_foldl_toutSilent_of_off {i : Nat} (l : List Nat) (h : s.on tb (TB_TO_CTRL_EN i) = false) :
    (l.foldl State.toutSilent s).on tb (TB_TO_CTRL_EN i) = false := by
  induction l generalizing s with
  | nil => exact h
  | cons j l ih => exact ih _ (s.on_toutSilent_of_off j h)

theorem State.on_foldl_toutSilent {i : Nat} {l : List Nat} (h : i ∈ l) :
    (l.foldl State.toutSilent s).on tb (TB_TO_CTRL_EN i) = false := by
  induction l generalizing s with
  | nil => exact absurd h List.not_mem_nil
  | cons j l ih =>
    rcases List.mem_cons.1 h with rfl | h
    · exact State.on_foldl_toutSilent_of_off _ l (s.on_toutSilent_self i)
    · exact ih _ h

theorem State.mss_foldl_toutSilent (l : List Nat) : (l.foldl State.toutSilent s).mss = s.mss := by
  induction l generalizing s with
  | nil => rfl
  | cons j l ih => rw [List.foldl_cons, ih, State.mss_toutSilent]

/-- The PCI Express page lies above TB's outputs 0 to 7. -/
theorem State.rd_pci_foldl_toutSilent {l : List Nat} (hl : ∀ j ∈ l, j < 8) : (l.foldl State.toutSilent s).rd pciP f = s.rd pciP f := by
  induction l generalizing s with
  | nil => rfl
  | cons j l ih =>
    obtain ⟨hj, hl⟩ := List.forall_mem_cons.1 hl
    rw [List.foldl_cons, ih _ hl, State.rd_toutSilent]
    all_goals
      simp only [fkey, pg_pci, tb, TB_TO_CTRL_EN, TB_TO_CTRL_ARM]
      omega

/-- The PCI Express link's fields at reset: the link is down (R32). -/
def State.linkDown (s : State) : State := s.resetFields pciP [PCI_LINK_SPEED, PCI_LINK_UP, PCI_LINK_WIDTH]

/-- The outputs that are enabled. -/
def State.toutsOn (s : State) : List Nat := (upTo 8).filter fun j => s.on tb (TB_TO_CTRL_EN j)

theorem State.silence_eq : s.silence =
    s.toutsOn.foldl State.toutSilent { s.linkDown with mss := { s.linkDown.mss with hold := 3 } } := rfl

theorem State.on_linkDown_up : s.linkDown.on pciP PCI_LINK_UP = false := by
  show (((s.wr pciP PCI_LINK_SPEED _).wr pciP PCI_LINK_UP 0).wr pciP PCI_LINK_WIDTH _).on pciP PCI_LINK_UP = false
  rw [State.on_eq, State.rd_wr_same (by decide), State.rd_wr_self]
  rfl

theorem State.rd_tout_linkDown (i : Nat) (hi : i < 8) : s.linkDown.rd tb (TB_TO_CTRL_EN i) = s.rd tb (TB_TO_CTRL_EN i) := by
  show (((s.wr pciP PCI_LINK_SPEED _).wr pciP PCI_LINK_UP _).wr pciP PCI_LINK_WIDTH _).rd tb (TB_TO_CTRL_EN i) = _
  rw [State.rd_wr_key, State.rd_wr_key, State.rd_wr_key]
  all_goals
    simp only [fkey, pg_pci, tb, TB_TO_CTRL_EN, PCI_LINK_SPEED, PCI_LINK_UP, PCI_LINK_WIDTH]
    omega

theorem State.silence_spec : s.silence.mss = { s.mss with hold := 3 } ∧ s.silence.on pciP PCI_LINK_UP = false ∧
    (∀ j, j < 8 → s.silence.on tb (TB_TO_CTRL_EN j) = false) ∧ s.silence.capsWord = s.capsWord := by
  rw [State.silence_eq]
  refine ⟨?_, ?_, fun j hj => ?_, State.capsWord_congr ?_⟩
  · rw [State.mss_foldl_toutSilent]
    rfl
  · rw [State.on_eq, State.rd_pci_foldl_toutSilent, ← State.on_eq]
    · exact s.on_linkDown_up
    · exact fun j hj => by simpa [upTo] using (List.mem_filter.1 hj).1
  · by_cases hon : s.on tb (TB_TO_CTRL_EN j) = true
    · exact State.on_foldl_toutSilent _ (List.mem_filter.2 ⟨by simpa [upTo] using hj, hon⟩)
    · refine State.on_foldl_toutSilent_of_off _ _ ?_
      show s.linkDown.on tb (TB_TO_CTRL_EN j) = false
      rw [State.on_eq, State.rd_tout_linkDown s j hj, ← State.on_eq]
      simpa using hon
  · rw [sysWords_foldl _ _ fun u i => sysWords_toutSilent u i]
    simp [State.linkDown]

end

/-! ### ROM recovery mode (R32, R435) -/

section
variable (s : State)

theorem not_evKey_recovery : ¬ evKey 0 (fkey mssP MSS_BOOT_RECOVERY) := by
  unfold evKey
  decide

theorem State.rd_recovery_emit (code : Nat) (data : List Nat) :
    (s.emit 0 code data).rd mssP MSS_BOOT_RECOVERY = s.rd mssP MSS_BOOT_RECOVERY :=
  State.rd_congr (State.find_emitAt _ _ _ _ _ not_evKey_recovery)

/-- A registry entry of the first page is none of the MSS page's registers. -/
theorem State.rd_recovery_own {i : Nat} (hi : i < 1024) {f : Fld} (hf : f.off < 0x1100) (hlo : f.lo < 32) (v : Nat) :
    (s.wr (ownPg i) f v).rd mssP MSS_BOOT_RECOVERY = s.rd mssP MSS_BOOT_RECOVERY :=
  State.rd_wr_key (by
    simp only [fkey, ownPg, pg_own, pg_mss, MSS_BOOT_RECOVERY]
    omega)

theorem State.rd_recovery_ownWrite {i : Nat} (hi : i < 1024) (w v word : Nat) :
    (s.ownWrite w i v word).rd mssP MSS_BOOT_RECOVERY = s.rd mssP MSS_BOOT_RECOVERY := by
  unfold State.ownWrite
  dsimp only
  split
  · rfl
  · split
    · exact State.rd_recovery_emit _ _ _
    · split
      · exact State.rd_recovery_emit _ _ _
      · split
        · exact State.rd_recovery_own _ hi (by simp only [OWN_ENT_OWNER]; omega) (by simp [OWN_ENT_OWNER]) _
        · exact State.rd_recovery_emit _ _ _

theorem State.rd_recovery_ownCheck {t : State} {req fid writer : Nat} {l : List Nat} (h : s.ownCheck req fid writer l = some t) :
    t.rd mssP MSS_BOOT_RECOVERY = s.rd mssP MSS_BOOT_RECOVERY := by
  unfold State.ownCheck at h
  dsimp only at h
  split at h
  · rw [← Option.some.inj h]
    exact State.rd_recovery_emit _ _ _
  · split at h
    · rw [← Option.some.inj h]
      exact State.rd_recovery_emit _ _ _
    · exact absurd h (by simp)

theorem State.rd_recovery_foldl {α : Type} {step : State → α → State} {l : List α}
    (h : ∀ u, ∀ x ∈ l, (step u x).rd mssP MSS_BOOT_RECOVERY = u.rd mssP MSS_BOOT_RECOVERY) :
    (l.foldl step s).rd mssP MSS_BOOT_RECOVERY = s.rd mssP MSS_BOOT_RECOVERY := by
  induction l generalizing s with
  | nil => rfl
  | cons x l ih =>
    rw [List.foldl_cons, ih _ fun u y hy => h u y (List.mem_cons_of_mem x hy), h s x List.mem_cons_self]

theorem State.rd_recovery_useSet {l : List Nat} (hl : ∀ i ∈ l, i < 1024) (b : Bool) :
    (s.useSet l b).rd mssP MSS_BOOT_RECOVERY = s.rd mssP MSS_BOOT_RECOVERY :=
  State.rd_recovery_foldl s fun u i hi =>
    State.rd_recovery_own u (hl i hi) (by simp only [OWN_ENT_IN_USE]; omega) (by simp [OWN_ENT_IN_USE]) _

theorem State.rd_recovery_wr_net (n : Nat) (f : Fld) (v : Nat) :
    (s.wr (pg .net n) f v).rd mssP MSS_BOOT_RECOVERY = s.rd mssP MSS_BOOT_RECOVERY :=
  State.rd_wr_key (by
    simp only [fkey, pg_net, pg_mss, MSS_BOOT_RECOVERY]
    omega)

theorem State.rd_commitNow (p q : Nat) (l : List Fld) (f : Fld) : (s.commitNow p l).rd q f = s.rd q f := rfl

/-- NET16 over RGMII needs the balls of the first 14 registry entries. -/
theorem netNeeds_16_lt (lane : Nat) : ∀ i ∈ netNeeds 16 4 lane, i < 1024 := by
  intro i hi
  simp only [netNeeds, if_true, upTo, List.mem_map, List.mem_range] at hi
  omega

theorem State.rd_recovery_netEnable {w : Writer} (h : s.rd (pg .net 16) NET_CFG_MODE = 4) :
    (s.netEnable w 16).rd mssP MSS_BOOT_RECOVERY = s.rd mssP MSS_BOOT_RECOVERY := by
  unfold State.netEnable
  simp only [h, if_true]
  split
  · rfl
  · split
    next t ht => exact State.rd_recovery_ownCheck s ht
    next =>
      rw [State.rd_commitNow, State.wb_eq, State.rd_recovery_wr_net, State.rd_recovery_useSet s (netNeeds_16_lt _)]

theorem State.rd_recovery_recoveryNet : s.recoveryNet.rd mssP MSS_BOOT_RECOVERY = s.rd mssP MSS_BOOT_RECOVERY := by
  unfold State.recoveryNet
  dsimp only
  split
  · simp only [State.rd_recovery_wr_net]
  · rw [State.rd_recovery_netEnable]
    · simp only [State.rd_recovery_wr_net]
    · rw [State.rd_wr_same (by decide), State.rd_wr_same (by decide), State.rd_wr_same (by decide), State.rd_wr_same (by decide),
        State.rd_wr_self]
      rfl

/-- The MSS enters recovery mode: RECOVERY reads 1, and the request for it is spent. -/
def State.recoveryMark (s : State) : State :=
  { s.wb mssP MSS_BOOT_RECOVERY true with mss := { (s.wb mssP MSS_BOOT_RECOVERY true).mss with recover := false } }

theorem State.on_recoveryMark : s.recoveryMark.on mssP MSS_BOOT_RECOVERY = true := State.on_wb_true s _ _ rfl

theorem State.enterRecovery_eq : s.enterRecovery =
    ((((upTo 14).foldl (fun s k => s.ownWrite 0x1700 k 0x0A10 0x0A10) (s.claimSet 0 0).functionsOff.recoveryMark).ownWrite
      0x1700 28 0x1700 0x1700).ownWrite 0x1700 29 0x1700 0x1700).recoveryNet := rfl

theorem State.on_recovery_enterRecovery : s.enterRecovery.on mssP MSS_BOOT_RECOVERY = true := by
  rw [State.enterRecovery_eq, State.on_eq, State.rd_recovery_recoveryNet, State.rd_recovery_ownWrite _ (by decide), State.rd_recovery_ownWrite _ (by decide),
    State.rd_recovery_foldl _ fun u k hk => State.rd_recovery_ownWrite u (by simp only [upTo, List.mem_range] at hk; omega) _ _ _,
    ← State.on_eq, State.on_recoveryMark]

end

/-! ### What is left in service (R33 to R35) -/

section
variable (s : State) (r : SelfTest)

@[simp] theorem sysWords_entriesFence : sysWords (s.entriesFence r).regs = sysWords s.regs := by
  simp [State.entriesFence]

@[simp] theorem sysWords_dmcDeg (n : Nat) : sysWords (s.dmcDeg n).2.regs = sysWords s.regs := by
  unfold State.dmcDeg
  split <;> rfl

@[simp] theorem sysWords_dmcLock (n : Nat) (on : Bool) : sysWords (s.dmcLock n on).regs = sysWords s.regs := by
  simp [State.dmcLock]

@[simp] theorem sysWords_dmcInService (n pos : Nat) : sysWords (s.dmcInService n pos).regs = sysWords s.regs := by
  simp [State.dmcInService, State.setDm]

theorem sub_mod_two_pow {a b w : Nat} (h : a < 2 ^ w) : (a - b) % 2 ^ w = a - b :=
  Nat.mod_eq_of_lt (Nat.lt_of_le_of_lt (Nat.sub_le a b) h)

/-- Fields of the SYS page written one after the other: each reads the value written last. -/
theorem State.fences_read (d : Nat) (degraded : Bool) :
    let t := (s.fenceSet r d).capsSet r d degraded
    t.rd 0 SYS_FENCE_A_DEC = r.dec.toNat ∧ t.rd 0 SYS_FENCE_A_CMP = r.cmp.toNat ∧ t.rd 0 SYS_FENCE_A_SO = r.so.toNat ∧
    t.rd 0 SYS_FENCE_B_QUAD = r.quad.toNat ∧ t.rd 0 SYS_FENCE_D_CVU = r.cvu.toNat := by
  simp (disch := decide) only [State.fenceSet, State.capsSet, State.wb_eq, State.rd_wr_same, State.rd_wr_self]
  exact ⟨Nat.mod_eq_of_lt r.dec.isLt, Nat.mod_eq_of_lt r.cmp.isLt, Nat.mod_eq_of_lt r.so.isLt, Nat.mod_eq_of_lt r.quad.isLt,
    Nat.mod_eq_of_lt r.cvu.isLt⟩

theorem State.caps_read (d : Nat) (degraded : Bool) :
    let t := s.capsSet r d degraded
    t.rd 0 SYS_CAPS_DEC_N = 8 - popCount 8 r.dec.toNat ∧ t.rd 0 SYS_CAPS_CMP_N = 2 - popCount 2 r.cmp.toNat ∧
    t.rd 0 SYS_CAPS_LOFT_MIB = 48 - popCount 48 r.loft.toNat := by
  simp (disch := decide) only [State.capsSet, State.wb_eq, State.rd_wr_same, State.rd_wr_self]
  exact ⟨sub_mod_two_pow (by decide), sub_mod_two_pow (by decide), sub_mod_two_pow (by decide)⟩

end

/-! ### SELF_TEST_DONE -/

section
variable {r : SelfTest} {s : State}

theorem exec_selfTestDone_elsewhere
    (h : s.rd mssP MSS_BOOT_STAGE ≠ 3 ∨ s.mss.hold ≠ 0 ∨ s.capsWord ≠ 0 ∨ s.on mssP MSS_BOOT_RECOVERY = true) :
    exec (.selfTestDone r) s = .next s := by
  refine congrArg Host.Outcome.next (if_neg ?_)
  rintro ⟨hs, hh, hc, hr⟩
  rcases h with h | h | h | h
  · exact h hs
  · exact h hh
  · exact h hc
  · simp [h] at hr

theorem exec_selfTestDone (hs : s.rd mssP MSS_BOOT_STAGE = 3) (hh : s.mss.hold = 0) (hc : s.capsWord = 0)
    (hr : s.on mssP MSS_BOOT_RECOVERY = false) : exec (.selfTestDone r) s = .next (s.selfTest r) :=
  congrArg Host.Outcome.next (if_pos ⟨hs, hh, hc, by simp [hr]⟩)

/-- The units that failed. -/
def State.failedOf (s : State) (r : SelfTest) : List Nat := failedUnits r (s.dmcBad r).2

/-- The fences, SYS_CAPS and the registry's fenced entries, as self-test leaves them (R33 to R35, R62). -/
def State.serviceSet (s : State) (r : SelfTest) : State :=
  ((((s.selfTestRecords (s.failedOf r)).fenceSet r (s.dmcBad r).1).capsSet r (s.dmcBad r).1 (!(s.failedOf r).isEmpty)).entriesFence r)

/-- The channels of `s` in service. -/
def State.channelsInService (s : State) : State := s.channels.zipIdx.foldl (fun s x => s.dmcInService x.1 x.2) s

theorem State.selfTest_eq (s : State) (r : SelfTest) : s.selfTest r =
    if r.aonFail || !s.on clkP CLK_STAT_TCXO_OK then s.silence
    else if !(minimumSet r (s.dmcBad r).1 && (s.on clkP CLK_STAT_LREF0_OK || s.on clkP CLK_STAT_LREF1_OK)) then
      (s.selfTestRecords (s.failedOf r)).enterRecovery
    else (s.serviceSet r).channelsInService := rfl

theorem State.selfTest_silent (h : r.aonFail = true ∨ s.on clkP CLK_STAT_TCXO_OK = false) : s.selfTest r = s.silence := by
  rw [State.selfTest_eq, if_pos (by simpa using h)]

theorem State.selfTest_recovery (ha : r.aonFail = false) (ht : s.on clkP CLK_STAT_TCXO_OK = true)
    (h : minimumSet r (s.dmcBad r).1 = false ∨ (s.on clkP CLK_STAT_LREF0_OK = false ∧ s.on clkP CLK_STAT_LREF1_OK = false)) :
    s.selfTest r = (s.selfTestRecords (s.failedOf r)).enterRecovery := by
  rw [State.selfTest_eq, if_neg (by simp [ha, ht]), if_pos]
  rcases h with h | ⟨h0, h1⟩
  · simp [h]
  · simp [h0, h1]

theorem State.selfTest_service (ha : r.aonFail = false) (ht : s.on clkP CLK_STAT_TCXO_OK = true)
    (hm : minimumSet r (s.dmcBad r).1 = true) (hl : s.on clkP CLK_STAT_LREF0_OK = true ∨ s.on clkP CLK_STAT_LREF1_OK = true) :
    s.selfTest r = (s.serviceSet r).channelsInService := by
  rw [State.selfTest_eq, if_neg (by simp [ha, ht]), if_neg]
  rcases hl with h | h <;> simp [hm, h]

theorem sysWords_channelsInService (s : State) : sysWords s.channelsInService.regs = sysWords s.regs := by
  unfold State.channelsInService
  exact sysWords_foldl _ _ fun t x => sysWords_dmcInService t x.1 x.2

theorem sysWords_serviceSet (s : State) (r : SelfTest) : sysWords (s.serviceSet r).regs =
    sysWords (((s.selfTestRecords (s.failedOf r)).fenceSet r (s.dmcBad r).1).capsSet r (s.dmcBad r).1
      (!(s.failedOf r).isEmpty)).regs := by
  unfold State.serviceSet
  rw [sysWords_entriesFence]

end

/-- Settles O11: what decides between silence, recovery mode and service, and what each of them leaves. -/
theorem selfTestSetsCapsAndFences : Obligations.SelfTestSetsCapsAndFences := by
  refine ⟨fun r s => exec_selfTestDone_elsewhere, fun r s hs hh hc hr => ?_⟩
  have hexec := exec_selfTestDone (r := r) hs hh hc hr
  refine ⟨fun h => ⟨_, hexec, ?_⟩, fun ha ht h => ⟨_, hexec, ?_⟩, fun ha ht hm hl => ⟨_, hexec, ?_⟩⟩
  · rw [State.selfTest_silent h, ← hc]
    exact s.silence_spec
  · rw [State.selfTest_recovery ha ht h]
    refine ⟨State.on_recovery_enterRecovery _, ?_⟩
    rw [State.capsWord_congr ((sysWords_enterRecovery _).trans (sysWords_selfTestRecords _ _)), hc]
  · rw [State.selfTest_service ha ht hm hl]
    obtain ⟨hdec, hcmp, hso, hquad, hcvu⟩ :=
      (s.selfTestRecords (s.failedOf r)).fences_read r (s.dmcBad r).1 (!(s.failedOf r).isEmpty)
    obtain ⟨hdecN, hcmpN, hloft⟩ :=
      ((s.selfTestRecords (s.failedOf r)).fenceSet r (s.dmcBad r).1).caps_read r (s.dmcBad r).1 (!(s.failedOf r).isEmpty)
    have hrd : ∀ f, sysKey (fkey 0 f) = true → (s.serviceSet r).channelsInService.rd 0 f = _ := fun f hf =>
      State.rd_sysWords (f := f) ((sysWords_channelsInService _).trans (sysWords_serviceSet s r)) hf
    exact ⟨(hrd SYS_FENCE_A_DEC (by decide)).trans hdec, (hrd SYS_FENCE_A_CMP (by decide)).trans hcmp,
      (hrd SYS_FENCE_A_SO (by decide)).trans hso, (hrd SYS_FENCE_B_QUAD (by decide)).trans hquad,
      (hrd SYS_FENCE_D_CVU (by decide)).trans hcvu, (hrd SYS_CAPS_DEC_N (by decide)).trans hdecN,
      (hrd SYS_CAPS_CMP_N (by decide)).trans hcmpN, (hrd SYS_CAPS_LOFT_MIB (by decide)).trans hloft⟩

end Sys2Proof.Machine
end

section
/-! PROOFS. The yoke's link through claims, and the node identity (R30, R45, R370 to R378). -/

set_option autoImplicit false

namespace Sys2Proof.Machine

/-! ### What shows of the yoke: its link, its state, and whether a partner is valid -/

/-- Link, state and contact of the yoke. -/
def State.ykLook (s : State) : Bool × Nat × Bool := (s.yoke.link, s.yoke.state, s.contact)

section
variable {s : State} {p q : Nat} {f : Fld}

theorem State.ykLook_wr (h : fkey ykP YK_PARTNER_VALID ≠ fkey p f) (v : Nat) : (s.wr p f v).ykLook = s.ykLook := by
  have hc : (s.wr p f v).contact = s.contact := by
    unfold State.contact
    rw [State.on_eq, State.rd_wr_key h, State.on_eq]
  exact congrArg (fun c => (s.yoke.link, s.yoke.state, c)) hc

theorem fkey_ne_same_page {g : Fld} (h : f.off * 32 + f.lo ≠ g.off * 32 + g.lo) : fkey p g ≠ fkey p f := by
  simp only [fkey]
  omega

/-- Fields of the YK page but PARTNER_VALID. -/
theorem State.ykLook_wr_yk (h : f.off * 32 + f.lo ≠ 0x110 * 32 + 31) (v : Nat) : (s.wr ykP f v).ykLook = s.ykLook :=
  State.ykLook_wr (fkey_ne_same_page h) v

/-- Fields of the pages above the YK page. -/
theorem State.ykLook_wr_above (h : 0x3F000 ≤ p) (v : Nat) : (s.wr p f v).ykLook = s.ykLook :=
  State.ykLook_wr (by
    simp only [fkey, pg_yk, YK_PARTNER_VALID]
    omega) v

theorem State.ykLook_cnt_above (h : 0x3F000 ≤ p) (n : Nat) : (s.cnt p f n).ykLook = s.ykLook := State.ykLook_wr_above h _

/-- Fields of the TB page's first words. -/
theorem State.ykLook_wr_tb (h : f.off * 32 + f.lo < 0x1000 * 32) (v : Nat) : (s.wr (pg .tb 0) f v).ykLook = s.ykLook :=
  State.ykLook_wr (by
    simp only [fkey, pg_yk, pg_tb, YK_PARTNER_VALID]
    omega) v

theorem State.ykLook_yk {g : YokeSt → YokeSt} (hl : (g s.yoke).link = s.yoke.link) (hs : (g s.yoke).state = s.yoke.state) :
    (s.yk g).ykLook = s.ykLook := by
  show ((g s.yoke).link, (g s.yoke).state, s.contact) = _
  rw [hl, hs]
  rfl

theorem State.ykLook_ite {c : Prop} [Decidable c] {t u : State} (ht : t.ykLook = s.ykLook) (hu : u.ykLook = s.ykLook) :
    (if c then t else u).ykLook = s.ykLook := by
  split
  · exact ht
  · exact hu

theorem State.ykLook_foldl {α : Type} {step : State → α → State} (h : ∀ u x, (step u x).ykLook = u.ykLook) (l : List α)
    (s : State) : (l.foldl step s).ykLook = s.ykLook := by
  induction l generalizing s with
  | nil => rfl
  | cons x l ih => rw [List.foldl_cons, ih, h]

end

/-! ### Events leave the yoke -/

section
variable (s : State) (q code : Nat) (data : List Nat)

@[simp] theorem State.yoke_loftPut (off : Nat) (b : List Nat) : (s.loftPut off b).yoke = s.yoke := by
  rw [(State.loftPut_spec s off b).1]

theorem State.yoke_dbkAppend (r : Rec) : (s.dbkAppend r).yoke = s.yoke := by
  unfold State.dbkAppend
  dsimp only
  split
  · rfl
  · split <;> rfl

theorem State.yoke_ringAppend (r : Rec) : (s.ringAppend q r).yoke = s.yoke := by
  unfold State.ringAppend
  dsimp only
  split
  · rfl
  · split
    · exact s.yoke_loftPut _ _
    · exact (State.yoke_loftPut _ _ _).trans (s.yoke_loftPut _ _)

theorem State.yoke_raisePage : (s.raisePage q).yoke = s.yoke := by
  unfold State.raisePage State.raiseTarget State.raiseMsix
  dsimp only
  split
  · split <;> rfl
  · split
    · split <;> rfl
    · split <;> rfl

theorem State.yoke_emit : (s.emit q code data).yoke = s.yoke := by
  have hite : ∀ (c : Prop) [Decidable c] (t u : State), t.yoke = u.yoke → (if c then t else u).yoke = u.yoke := by
    intro c _ t u h
    split
    · exact h
    · rfl
  unfold State.emit State.emitAt
  dsimp only
  rw [hite _ _ _ (State.yoke_raisePage _ _), State.yoke_ringAppend, hite _ _ _ (State.yoke_dbkAppend _ _)]
  rfl

/-- PARTNER_VALID is none of the registers that the events of a page write. -/
theorem State.ykLook_emit (hq : q % 0x1000 = 0) : (s.emit q code data).ykLook = s.ykLook := by
  have hk : ¬ evKey q (fkey ykP YK_PARTNER_VALID) := by
    simp only [evKey, fkey, pg_yk, pg_dbk, HDR_EVT_RAW_RAW, DBK_WR_COUNT, DBK_LOST_COUNT, YK_PARTNER_VALID]
    omega
  have hc : (s.emit q code data).contact = s.contact := by
    have hrd : (s.emit q code data).rd ykP YK_PARTNER_VALID = s.rd ykP YK_PARTNER_VALID :=
      State.rd_congr (State.find_emitAt s q s.stamp code data hk)
    unfold State.contact
    rw [State.on_eq, State.on_eq, hrd]
  unfold State.ykLook
  rw [hc, State.yoke_emit]

end

/-! ### What leaves the link, the state and the partner as they are -/

section
variable (s : State)

theorem State.ykLook_setTbState (new : Nat) : (s.setTbState new).ykLook = s.ykLook := by
  unfold State.setTbState
  refine State.ykLook_ite rfl ?_
  rw [State.ykLook_emit _ _ _ _ rfl]
  exact State.ykLook_wr_tb (s := s) (f := TB_STATUS_STATE) (by decide) new

theorem State.ykLook_wheelSplit : s.wheelSplit.ykLook = s.ykLook := by
  have hmode : (s.wr (pg .tb 0) TB_CTRL_MODE 1).ykLook = s.ykLook := State.ykLook_wr_tb (by decide) _
  unfold State.wheelSplit
  refine State.ykLook_ite (State.ykLook_ite ?_ hmode) rfl
  rw [State.ykLook_setTbState]
  exact (State.ykLook_wr_tb (by decide) _).trans hmode

theorem State.ykLook_toIngress (m : Nat) (x : PktSlot) : (s.toIngress m x).ykLook = s.ykLook := by
  unfold State.toIngress
  exact State.ykLook_ite rfl rfl

theorem State.ykLook_laterGo : s.laterGo.ykLook = s.ykLook := by
  unfold State.laterGo
  exact State.ykLook_foldl (fun (u : State) (e : Nat × PktSlot) => u.ykLook_toIngress e.1 e.2) _ _

theorem State.ykLook_mergeSplit (wasSeq : Bool) : (s.mergeSplit wasSeq).ykLook = s.ykLook := State.ykLook_yk rfl rfl

theorem State.ykLook_netDrop (n : Nat) : (s.netDrop n).ykLook = s.ykLook := by
  unfold State.netDrop
  exact State.ykLook_ite (State.ykLook_cnt_above (by rw [pg_ln]; omega) _) rfl

theorem State.ykLook_netDatagram (nets : Nat) (dest : Dest) (bytes : List Nat) :
    (s.netDatagram nets dest bytes).ykLook = s.ykLook := by
  have hport : ∀ (u : State) (n : Nat), (if bit (s.netsUp nets) n then u.cnt (pg .net n) NET_TX_FRAMES_COUNT 1
      else if bit nets n then u.netDrop n else u).ykLook = u.ykLook := fun u n =>
    State.ykLook_ite (State.ykLook_cnt_above (by rw [pg_net]; omega) _) (State.ykLook_ite (u.ykLook_netDrop n) rfl)
  exact (State.ykLook_foldl hport _ _).trans (State.ykLook_ite rfl rfl)

theorem State.ykLook_ymSend (typ : Nat) (body : List Nat) : (s.ymSend typ body).ykLook = s.ykLook := by
  unfold State.ymSend
  exact State.ykLook_ite rfl ((State.ykLook_yk rfl rfl).trans (s.ykLook_netDatagram _ _ _))

theorem State.ykLook_report (kind obj id frame own partner withheld : Nat) :
    (s.report kind obj id frame own partner withheld).ykLook = s.ykLook := s.ykLook_ymSend _ _

theorem State.ykLook_setVc (v : Nat) (x : YkVc) : (s.setVc v x).ykLook = s.ykLook := State.ykLook_yk rfl rfl

theorem State.ykLook_ykEmit (x : YkFrame) (replay : Bool) : (s.ykEmit x replay).ykLook = s.ykLook := by
  have hack : ∀ av : Option Nat, (match av with
      | some v => s.setVc v { s.vc v with ackDue := false, nak := false }
      | none => s).ykLook = s.ykLook := by
    intro av
    cases av
    · rfl
    · exact s.ykLook_setVc _ _
  have hreplay : ∀ u : State, (if replay then u.cnt ykP YK_REPLAY_COUNT 1 else u).ykLook = u.ykLook := fun u =>
    State.ykLook_ite (State.ykLook_wr_yk (by decide) _) rfl
  unfold State.ykEmit State.ykEmitFor
  exact (hreplay _).trans ((State.ykLook_setVc _ _ _).trans (hack _))

theorem State.ykLook_timeRole : s.timeRole.ykLook = s.ykLook := by
  unfold State.timeRole
  exact State.ykLook_ite rfl (State.ykLook_ite (State.ykLook_ite (State.ykLook_wr_tb (by decide) _) rfl)
    (State.ykLook_wr_tb (by decide) _))

theorem State.ykLook_claimShown (new old : Nat) : (s.claimShown new old).ykLook = s.ykLook :=
  State.ykLook_foldl (fun u e => State.ykLook_ite rfl (u.ykLook_emit _ _ _ (by rw [pg_bl]; omega))) _ _

end

/-! ### The link goes down (R370, R375) -/

/-- From `s` to `t` the link has gone down: no partner is valid, and a team is split. -/
def ykFell (s t : State) : Prop :=
  t.yoke.link = false ∧ t.contact = false ∧ t.yoke.state = if s.inTeam then 6 else s.yoke.state

/-- From `s` to `t` the link, the state and the partner are as they were, or the link has gone down. -/
def ykAfter (s t : State) : Prop := t.ykLook = s.ykLook ∨ ykFell s t

section
variable {s t u : State}

theorem ykLook_eq_iff : t.ykLook = s.ykLook ↔
    t.yoke.link = s.yoke.link ∧ t.yoke.state = s.yoke.state ∧ t.contact = s.contact := by
  simp [State.ykLook]

theorem State.inTeam_congr (h : t.yoke.state = s.yoke.state) : t.inTeam = s.inTeam := by
  unfold State.inTeam
  rw [h]

theorem ykAfter.refl : ykAfter s s := .inl rfl

theorem ykFell.keep (h : ykFell s t) (hu : u.ykLook = t.ykLook) : ykFell s u := by
  obtain ⟨hlink, hcon, hstate⟩ := h
  obtain ⟨hl, hs, hc⟩ := ykLook_eq_iff.1 hu
  exact ⟨hl.trans hlink, hc.trans hcon, hs.trans hstate⟩

theorem ykAfter.keep (h : ykAfter s t) (hu : u.ykLook = t.ykLook) : ykAfter s u :=
  h.imp hu.trans fun h => h.keep hu

theorem ykFell.of_keep (h : t.ykLook = s.ykLook) (hu : ykFell t u) : ykFell s u := by
  obtain ⟨-, hs, -⟩ := ykLook_eq_iff.1 h
  obtain ⟨hlink, hcon, hstate⟩ := hu
  exact ⟨hlink, hcon, by rw [hstate, State.inTeam_congr hs, hs]⟩

/-- A split team is no team: a second fall leaves the state. -/
theorem ykFell.trans (h : ykFell s t) (hu : ykFell t u) : ykFell s u := by
  obtain ⟨-, -, hstate⟩ := h
  obtain ⟨hlink, hcon, hstate'⟩ := hu
  refine ⟨hlink, hcon, ?_⟩
  by_cases hteam : s.inTeam = true
  · rw [if_pos hteam] at hstate ⊢
    have hsplit : t.inTeam = false := by simp [State.inTeam, hstate]
    rw [hstate', hsplit, ← hstate]
    rfl
  · rw [if_neg hteam] at hstate ⊢
    rw [hstate', State.inTeam_congr hstate, if_neg hteam, hstate]

theorem ykAfter.trans (h : ykAfter s t) (hu : ykAfter t u) : ykAfter s u := by
  rcases hu with hu | hu
  · exact h.keep hu
  · exact .inr (h.elim (fun h => .of_keep h hu) fun h => h.trans hu)

theorem ykAfter_foldl {α : Type} {step : State → α → State} (hstep : ∀ u x, ykAfter u (step u x)) (l : List α) (s : State) :
    ykAfter s (l.foldl step s) := by
  induction l generalizing s with
  | nil => exact .refl
  | cons x l ih => exact (hstep s x).trans (ih _)

theorem State.ykLook_ykState (s : State) (new : Nat) : (s.ykState new).ykLook = (s.yoke.link, new, s.contact) := by
  unfold State.ykState
  dsimp only
  split
  next h => simp [State.ykLook, h]
  next => exact State.ykLook_emit _ _ _ _ rfl

/-- Frames and credits discarded: the link is down. -/
theorem State.ykLook_ykClear (s : State) : s.ykClear.ykLook = (false, s.yoke.state, s.contact) := by
  unfold State.ykClear
  refine (State.ykLook_foldl (fun u v => ?_) _ _).trans rfl
  rw [State.ykLook_wr_yk (by simp only [YK_VC_CRED_OUT]; omega), State.ykLook_wr_yk (by simp only [YK_VC_CRED_HELD]; omega)]

/-- A partner declared lost. -/
theorem State.ykLook_partnerLost (s : State) : (s.wb ykP YK_PARTNER_VALID false).ykLook = (s.yoke.link, s.yoke.state, false) :=
  congrArg (fun c => (s.yoke.link, s.yoke.state, c)) (State.on_wb_false _ _ _)

/-- What the loss of the link leaves at once: no link and no partner; a team is split after that. -/
def State.ykLost (s : State) (cause t : Nat) : State :=
  (((((s.ykClear.cnt ykP YK_DOWN_COUNT_COUNT 1).emit ykP 0x1802 [cause]).wb ykP YK_PARTNER_VALID false).wr ykP
      YK_CLAIM_PARTNER 0xFF)).yk fun y => { y with retryAt := t }

theorem State.ykLook_ykLost (s : State) (cause t : Nat) : (s.ykLost cause t).ykLook = (false, s.yoke.state, false) := by
  have h : ((s.ykClear.cnt ykP YK_DOWN_COUNT_COUNT 1).emit ykP 0x1802 [cause]).ykLook = (false, s.yoke.state, s.contact) := by
    rw [State.ykLook_emit _ _ _ _ rfl, State.cnt_eq, State.ykLook_wr_yk (by decide), State.ykLook_ykClear]
  simp only [State.ykLook, Prod.mk.injEq] at h
  obtain ⟨hlink, hstate, -⟩ := h
  unfold State.ykLost
  rw [State.ykLook_yk rfl rfl, State.ykLook_wr_yk (by decide), State.ykLook_partnerLost, hlink, hstate]

/-- After the loss come the split of a team and, where it had a partner, its report. -/
theorem State.ykLook_ykDown (s : State) (cause : Nat) :
    (s.ykDown cause).ykLook = (false, if s.inTeam then 6 else s.yoke.state, false) := by
  refine (State.ykLook_ite (State.ykLook_report _ _ _ _ _ _ _ _) rfl).trans ?_
  split
  · refine (State.ykLook_mergeSplit _ _).trans ((State.ykLook_laterGo _).trans ((State.ykLook_wheelSplit _).trans ?_))
    refine (State.ykLook_ykState _ _).trans ?_
    exact congrArg (fun l => (l.1, 6, l.2.2)) (s.ykLook_ykLost cause _)
  · exact s.ykLook_ykLost cause _

theorem ykFell_ykDown (s : State) (cause : Nat) : ykFell s (s.ykDown cause) := by
  have h := s.ykLook_ykDown cause
  simp only [State.ykLook, Prod.mk.injEq] at h
  obtain ⟨hlink, hstate, hcon⟩ := h
  exact ⟨hlink, hcon, hstate⟩

/-! ### Sending over the yoke, roles and claims keep the link or bring it down (R363, R370, R371, R378) -/

theorem ykAfter_ykPush (s : State) (v typ : Nat) (data : List Nat) : ykAfter s (s.ykPush v typ data) := by
  unfold State.ykPush
  dsimp only
  split
  · exact .inr (ykFell_ykDown s 2)
  · refine .inl ((State.ykLook_ykEmit _ _ _).trans ((State.ykLook_setVc _ _ _).trans ?_))
    rw [State.ykLook_wr_yk (by simp only [YK_VC_CRED_OUT]; omega), State.ykLook_wr_yk (by simp only [YK_VC_CRED_HELD]; omega)]

theorem ykAfter_ykSend (s : State) (v typ : Nat) (data : List Nat) : ykAfter s (s.ykSend v typ data) := by
  unfold State.ykSend
  dsimp only
  split
  · exact .refl
  · split
    · exact ykAfter_ykPush s v typ _
    · exact .inl (State.ykLook_setVc _ _ _)

theorem ykAfter_forward (s : State) (x : PktSlot) : ykAfter s (s.forward x) :=
  ykAfter.trans (.inl (State.ykLook_yk rfl rfl)) (ykAfter_ykSend _ 0 1 _)

theorem ykAfter_roleChange (s : State) (was : Bool) : ykAfter s (s.roleChange was) := by
  unfold State.roleChange
  dsimp only
  split
  · exact .refl
  · split
    · have hhandover := (ykAfter_ykSend s 0 4 (le (s.now - 1000 * s.rd ykP YK_MERGE_WIN) 8 ++ le s.yoke.k 4 ++ [0, 0, 0, 0])).keep
        (State.ykLook_yk (g := fun y => { y with merge := [], hand := 0 }) rfl rfl)
      exact (hhandover.trans (ykAfter_foldl (fun u (e : MergeEnt) => ykAfter_forward u e.pkt) _ _)).keep (State.ykLook_timeRole _)
    · exact .inl ((State.ykLook_timeRole _).trans (State.ykLook_yk rfl rfl))

theorem ykAfter_claimSet (s : State) (new cause : Nat) : ykAfter s (s.claimSet new cause) := by
  unfold State.claimSet
  dsimp only
  split
  · exact .refl
  · have hclaim : (((s.wr ykP YK_CLAIM_CLAIM new).wr ykP YK_CLAIM_CAUSE cause).emit ykP 0x0801 [new, s.claim, cause]).ykLook =
        s.ykLook := by
      rw [State.ykLook_emit _ _ _ _ rfl, State.ykLook_wr_yk (by decide), State.ykLook_wr_yk (by decide)]
    have hsent := ykAfter.trans (.inl hclaim) (ykAfter_ykSend _ 2 2 [new, cause, 0, 0])
    exact ((hsent.keep (State.ykLook_claimShown _ _ _)).keep (State.ykLook_report _ _ _ _ _ _ _ _)).trans
      (ykAfter_roleChange _ _)

end

/-! ### The node identity (R30, R45) -/

/-- What a write of VALID 0 leaves: the claim at 0, and no link. -/
def State.nodeCleared (s : State) : State :=
  let u := (s.wb 0 SYS_NODE_VALID false).claimSet 0 5
  if u.yoke.link then u.ykDown 0 else u

section
variable {w : Writer} {v : Word} {s : State}

theorem exec_nodeWrite_locked (h : s.on 0 HDR_CTRL_LOCK = true) : exec (.nodeWrite w v) s =
    .next (if s.differs 0 [SYS_NODE_NODE_ID, SYS_NODE_VALID] v.toNat then s.lockedWrite 0 0x120 0xFFFF v.toNat w else s) := by
  show execNodeWrite w v s = _
  simp only [execNodeWrite, h, if_true, done]

theorem exec_nodeWrite_valid (hl : s.on 0 HDR_CTRL_LOCK = false) (hv : s.on 0 SYS_NODE_VALID = true) :
    exec (.nodeWrite w v) s = .next (if fieldOf v.toNat SYS_NODE_VALID = 0 then s.nodeCleared else s) := by
  show execNodeWrite w v s = _
  simp only [execNodeWrite, hl, hv, if_true, Bool.false_eq_true, if_false, done, State.nodeCleared]

theorem exec_nodeWrite_free (hl : s.on 0 HDR_CTRL_LOCK = false) (hv : s.on 0 SYS_NODE_VALID = false) :
    exec (.nodeWrite w v) s = .next (s.setFields 0 [SYS_NODE_NODE_ID, SYS_NODE_VALID] v.toNat) := by
  show execNodeWrite w v s = _
  simp only [execNodeWrite, hl, hv, Bool.false_eq_true, if_false, done]

variable (s)

theorem sysWords_nodeCleared : sysWords s.nodeCleared.regs = sysWords (s.wb 0 SYS_NODE_VALID false).regs := by
  unfold State.nodeCleared
  dsimp only
  split <;> simp

theorem State.on_valid_nodeCleared : s.nodeCleared.on 0 SYS_NODE_VALID = false := by
  rw [State.on_eq, State.rd_sysWords (sysWords_nodeCleared s) (by decide)]
  exact State.on_wb_false _ _ _

theorem State.rd_node_id_nodeCleared : s.nodeCleared.rd 0 SYS_NODE_NODE_ID = s.rd 0 SYS_NODE_NODE_ID :=
  (State.rd_sysWords (sysWords_nodeCleared s) (by decide)).trans (State.rd_wr_same (by decide))

theorem State.link_nodeCleared : s.nodeCleared.yoke.link = false := by
  unfold State.nodeCleared
  dsimp only
  split
  · exact (ykFell_ykDown _ 0).1
  next h => exact Bool.eq_false_iff.2 h

/-- A link that was up is lost: by the claim's change already, or at the end. -/
theorem ykFell_nodeCleared (h : s.yoke.link = true) : ykFell s s.nodeCleared := by
  have hvalid : (s.wb 0 SYS_NODE_VALID false).ykLook = s.ykLook := State.ykLook_wr (by decide) _
  have hclaim := ykAfter.trans (.inl hvalid) (ykAfter_claimSet _ 0 5)
  unfold State.nodeCleared
  dsimp only
  split
  next hlink =>
    exact hclaim.elim (fun hk => .of_keep hk (ykFell_ykDown _ 0)) fun hf => hf.trans (ykFell_ykDown _ 0)
  next hlink =>
    refine hclaim.resolve_left fun hk => hlink ?_
    obtain ⟨hl, -, -⟩ := ykLook_eq_iff.1 hk
    exact hl.trans h

theorem State.setFields_node (n : Nat) : s.setFields 0 [SYS_NODE_NODE_ID, SYS_NODE_VALID] n =
    (s.wr 0 SYS_NODE_NODE_ID (fieldOf n SYS_NODE_NODE_ID)).wr 0 SYS_NODE_VALID (fieldOf n SYS_NODE_VALID) := rfl

end

/-- Settles O10: a write of VALID 0 lowers the claim and takes the link down; the claim's own frames may take it down before. -/
theorem nodeIdentity : Obligations.NodeIdentity := by
  unfold Obligations.NodeIdentity
  intro w v s
  refine ⟨fun hl hd => ?_, fun hl hd => ?_, fun hl hv h1 => ?_, fun hl hv h0 => ?_, fun hl hv => ?_⟩
  · rw [exec_nodeWrite_locked hl, hd]
    rfl
  · rw [exec_nodeWrite_locked hl, hd]
    rfl
  · rw [exec_nodeWrite_valid hl hv, if_neg (by omega)]
  · refine ⟨_, exec_nodeWrite_valid hl hv, ?_⟩
    rw [if_pos h0]
    refine ⟨s.on_valid_nodeCleared, s.rd_node_id_nodeCleared, s.link_nodeCleared, fun hlink => ?_⟩
    obtain ⟨-, hcontact, hstate⟩ := ykFell_nodeCleared s hlink
    exact ⟨hcontact, fun hteam => by rw [hstate, if_pos hteam]⟩
  · refine ⟨_, exec_nodeWrite_free hl hv, ?_⟩
    rw [State.setFields_node]
    refine ⟨?_, ?_, onlyRegs_wr (by decide) (onlyRegs_wr (by decide) onlyRegs_refl)⟩
    · rw [State.rd_wr_same (by decide)]
      simp [fieldOf_mod]
    · simp [fieldOf_mod]

end Sys2Proof.Machine
end

section
/-! PROOFS. Writes of the owner registry (R57, R58, R489). -/

set_option autoImplicit false

namespace Sys2Proof.Machine

/-! ### What decides a write of OWNER -/

section
variable {s : State} {w : Writer} {i : Nat} {v : BitVec 16}

theorem State.ownReach_iff : s.ownReach w = true ↔ s.capsWord ≠ 0 ∨ w = .mss := by simp [State.ownReach]

theorem State.ownTakes_iff :
    s.ownTakes i v.toNat = true ↔ s.owner i = 0 ∨ v.toNat = s.owner i ∨ (v = 0 ∧ s.entInUse i = false) := by
  have hv : v.toNat = 0 ↔ v = 0 := BitVec.toNat_inj (y := 0)
  simp [State.ownTakes, hv]

/-- R58's refusal is the negation of its three grounds to take a value. -/
theorem State.ownTakes_eq_false (ho : s.owner i ≠ 0) (hv : v.toNat ≠ s.owner i) (hu : v ≠ 0 ∨ s.entInUse i = true) :
    s.ownTakes i v.toNat = false := by
  rw [Bool.eq_false_iff, Ne, State.ownTakes_iff]
  rintro (h | h | ⟨h0, hfree⟩)
  · exact ho h
  · exact hv h
  · rcases hu with h | h
    · exact h h0
    · simp [hfree] at h

end

/-! ### What a write of OWNER does to an entry that exists -/

section
variable {s : State} {i : Nat} (he : entExists i = true) (w v word : Nat)
include he

theorem State.ownWrite_fenced (hf : s.entFenced i = true) : s.ownWrite w i v word = s.enableFenced v (entUnit i) i w := by
  simp [State.ownWrite, he, hf]

theorem State.ownWrite_locked (hf : s.entFenced i = false) (hl : s.entLocked i = true) :
    s.ownWrite w i v word = s.emit 0 0xF000 (le (entOff i) 2 ++ [0xFF, 0xFF] ++ le word 4 ++ le w 2) := by
  simp [State.ownWrite, he, hf, hl]

theorem State.ownWrite_open (hf : s.entFenced i = false) (hl : s.entLocked i = false) : s.ownWrite w i v word =
    if s.ownTakes i v then s.wr (ownPg i) (OWN_ENT_OWNER (i % 1024)) v else s.ownConflict v (s.owner i) i 1 := by
  simp [State.ownWrite, he, hf, hl]

end

/-! ### The commands of the registry -/

section
variable {s : State} {w : Writer} {idx : Fin 2048}

theorem exec_ownerWrite_unreached (hr : s.ownReach w = false) (v : BitVec 16) : exec (.ownerWrite w idx v) s = .next s := by
  show execOwnerWrite w idx v s = _
  simp [execOwnerWrite, hr, done]

theorem exec_ownerWrite (hr : s.ownReach w = true) (v : BitVec 16) :
    exec (.ownerWrite w idx v) s = .next (s.ownWrite w.fid idx.val v.toNat v.toNat) := by
  show execOwnerWrite w idx v s = _
  simp [execOwnerWrite, hr, done]

theorem exec_ownEntryLock_unreached (hr : s.ownReach w = false) : exec (.ownEntryLock w idx) s = .next s := by
  show execOwnEntryLock w idx s = _
  simp [execOwnEntryLock, hr, done]

theorem exec_ownEntryLock (he : entExists idx.val = true) (hr : s.ownReach w = true) :
    exec (.ownEntryLock w idx) s = .next (s.wb (ownPg idx.val) (OWN_ENT_LOCK (idx.val % 1024)) true) := by
  show execOwnEntryLock w idx s = _
  simp [execOwnEntryLock, he, hr, done]

end

/-- Settles O9: reach decides first, then the entry's fence, its lock, and last whether R58 takes the value. -/
theorem ownerRegistry : Obligations.OwnerRegistry := by
  unfold Obligations.OwnerRegistry
  intro w idx v s he
  refine ⟨fun hc hw => ?_, fun h => ?_⟩
  · have hr : s.ownReach w = false := by
      rw [Bool.eq_false_iff, Ne, State.ownReach_iff]
      tauto
    exact ⟨exec_ownerWrite_unreached hr v, exec_ownEntryLock_unreached hr⟩
  · have hr := State.ownReach_iff.2 h
    rw [exec_ownerWrite hr]
    refine ⟨exec_ownEntryLock he hr, fun hf => ?_, fun hf hl => ?_, fun hf hl => ⟨fun ht => ?_, fun ho hv hu => ?_⟩⟩
    · rw [State.ownWrite_fenced he _ _ _ hf]
    · rw [State.ownWrite_locked he _ _ _ hf hl]
    · rw [State.ownWrite_open he _ _ _ hf hl, if_pos (State.ownTakes_iff.2 ht)]
    · rw [State.ownWrite_open he _ _ _ hf hl, if_neg (by simp [State.ownTakes_eq_false ho hv hu])]

end Sys2Proof.Machine
end

section
/-! PROOFS. The words of the bay descriptors, and the allocation of a bay (R133, R136, R137). -/

set_option autoImplicit false

namespace Sys2Proof.Machine

/-! ### A write of a descriptor word (R133) -/

section
variable {s : State} {w : Writer} {n off v : Nat} {f : Fld} {fs : List Fld}

theorem State.bayDescWrite_layout (hl : layoutWord off = f :: fs) : s.bayDescWrite w n off v =
    if s.differs (bayE n) (f :: fs) v = false then s
    else if s.on (pg .bay 0) HDR_CTRL_LOCK = true then s.lockedWrite (pg .bay 0) off n v w
    else if s.bayState n = 2 then s.descRefused w n off 0
    else s.setFields (bayE n) (f :: fs) v := by
  simp only [State.bayDescWrite, hl, Bool.not_eq_true']

theorem State.bayDescWrite_content (hl : layoutWord off = []) (hc : contentWord off = f :: fs) : s.bayDescWrite w n off v =
    if s.differs (bayE n) (f :: fs) v = false then s
    else if s.bayState n ≠ 2 then s.descRefused w n off 0
    else if s.rd (bayE n) BAYD_OWNER_OWNER ≠ w.fid then s.descRefused w n off 1
    else if s.on (bayE n) BAYD_STAT_READY = true then s.descRefused w n off 2
    else s.setFields (bayE n) (f :: fs) v := by
  simp only [State.bayDescWrite, hl, hc, Bool.not_eq_true']

end

theorem exec_bayDescWrite (w : Writer) (b : Fin 8192) (word : Fin 16) (v : Word) (s : State) :
    exec (.bayDescWrite w b word v) s = .next (s.bayDescWrite w b.val (4 * word.val) v.toNat) := rfl

/-! ### Enlisting (R136) -/

section
variable {s : State} {b : Fin 8192} (w : Writer)

theorem exec_bayEnlist_unset (hs : s.bayState b.val = 0) : exec (.bayEnlist w b true) s =
    .next (if s.bayLayoutOk b.val then s.wr (bayE b.val) BAYD_STAT_STATE 1 else s.descRefused w b.val 0xFFFF 3) := by
  show execBayEnlist w b true s = _
  simp [execBayEnlist, hs, done]

theorem exec_bayEnlist_back (hs : s.bayState b.val = 1) :
    exec (.bayEnlist w b false) s = .next (s.wr (bayE b.val) BAYD_STAT_STATE 0) := by
  show execBayEnlist w b false s = _
  simp [execBayEnlist, hs, done]

theorem exec_bayEnlist_held (hs : s.bayState b.val = 2) (enlist : Bool) : exec (.bayEnlist w b enlist) s = .next s := by
  show execBayEnlist w b enlist s = _
  cases enlist <;> simp [execBayEnlist, hs, done]

end

/-! ### A bay becomes HELD (R137) -/

/-- The fields of its descriptor that an allocation of a bay writes. -/
def holdFields : List Fld :=
  allocFields ++ [BAYD_STAT_STATE, BAYD_STAT_GEN, BAYD_OWNER_OWNER, BAYD_OWNER_REFCNT, BAYD_STAT_OWNED]

section
variable {p : Nat} {f : Fld} {l : List Fld} (s : State) (n fid : Nat)

theorem onlyRegs_resetFields {K : List Nat} (h : ∀ g ∈ l, fkey p g ∈ K) : onlyRegs K s (s.resetFields p l) :=
  onlyRegs_foldl (fun _ g hg hu => onlyRegs_wr (h g hg) hu) onlyRegs_refl

theorem State.rd_resetFields_notMem (h : ∀ g ∈ l, f.off * 32 + f.lo ≠ g.off * 32 + g.lo) :
    (s.resetFields p l).rd p f = s.rd p f :=
  (onlyRegs_resetFields s (K := l.map (fkey p)) fun _ => List.mem_map_of_mem).rd fun hf => by
    obtain ⟨g, hg, hk⟩ := List.mem_map.1 hf
    exact fkey_ne_same_page (h g hg) hk

/-- A bay that becomes HELD: the holder's, with one hold and the next generation, and unmarked. -/
theorem State.bayHold_spec (hfid : fid < 2 ^ 16) :
    (s.bayHold n fid).bayState n = 2 ∧ (s.bayHold n fid).bayGen n = (s.bayGen n + 1) % 2 ^ 16 ∧
    (s.bayHold n fid).rd (bayE n) BAYD_OWNER_OWNER = fid ∧ (s.bayHold n fid).rd (bayE n) BAYD_OWNER_REFCNT = 1 ∧
    (s.bayHold n fid).on (bayE n) BAYD_STAT_OWNED = true ∧ (s.bayHold n fid).rd (bayE n) BAYD_STAT_MARKS = 0 := by
  have howned : (s.bayHold n fid).on (bayE n) BAYD_STAT_OWNED = true := State.on_wb_true _ _ _ rfl
  unfold State.bayState State.bayGen
  refine ⟨?_, ?_, ?_, ?_, howned, ?_⟩ <;> simp only [State.bayHold, State.inc_eq, State.wb_eq]
  · iterate 4 rw [State.rd_wr_same (by decide)]
    exact State.rd_wr_self _ _ _ _
  · iterate 3 rw [State.rd_wr_same (by decide)]
    rw [State.rd_wr_self, State.rd_wr_same (by decide), State.rd_resetFields_notMem _ (by decide)]
    rfl
  · iterate 2 rw [State.rd_wr_same (by decide)]
    rw [State.rd_wr_self]
    exact Nat.mod_eq_of_lt hfid
  · rw [State.rd_wr_same (by decide)]
    exact State.rd_wr_self _ _ _ _
  · iterate 5 rw [State.rd_wr_same (by decide)]
    exact State.rd_foldl_wr_rst (by decide) (by decide)

theorem onlyRegs_bayHold : onlyRegs (holdFields.map (fkey (bayE n))) s (s.bayHold n fid) := by
  have hmem : ∀ g ∈ holdFields, fkey (bayE n) g ∈ holdFields.map (fkey (bayE n)) := fun _ => List.mem_map_of_mem
  have hreset : ∀ g ∈ allocFields, fkey (bayE n) g ∈ holdFields.map (fkey (bayE n)) := fun g hg =>
    hmem g (List.mem_append_left _ hg)
  unfold State.bayHold
  exact onlyRegs_wb (hmem _ (by decide)) <| onlyRegs_wr (hmem _ (by decide)) <| onlyRegs_wr (hmem _ (by decide)) <|
    onlyRegs_inc (hmem _ (by decide)) <| onlyRegs_wr (hmem _ (by decide)) <| onlyRegs_resetFields s hreset

/-- The fields that an allocation writes lie in the 64 bytes of their bay's descriptor. -/
theorem holdFields_keys {k : Nat} (h : k ∈ holdFields.map (fkey (bayE n))) : bayE n * 32 ≤ k ∧ k < bayE (n + 1) * 32 := by
  have hin : ∀ g ∈ holdFields, g.off * 32 + g.lo < 64 * 32 := by decide
  obtain ⟨g, hg, rfl⟩ := List.mem_map.1 h
  have := hin g hg
  simp only [fkey, bayE]
  omega

end

theorem writerFid_lt (w : Writer) : w.fid < 2 ^ 16 := by
  cases w <;> simp only [Writer.fid] <;> omega

/-! ### Records limited in rate (R152), and the bay table -/

section
variable {s : State} {q key ms code k : Nat} {data : List Nat}

/-- A record of limited rate is left out, or it is written and its time noted. -/
theorem State.emitLimited_cases (s : State) (q key ms code : Nat) (data : List Nat) :
    s.emitLimited q key ms code data = s ∨
      ∃ e, s.emitLimited q key ms code data = State.emit { s with evLast := e } q code data := by
  unfold State.emitLimited
  split
  · split
    · exact .inl rfl
    · exact .inr ⟨_, rfl⟩
  · exact .inr ⟨_, rfl⟩

theorem State.find_emitLimited (hk : ¬ evKey q k) :
    Store.find k (s.emitLimited q key ms code data).regs = Store.find k s.regs := by
  obtain he | ⟨e, he⟩ := s.emitLimited_cases q key ms code data
  · rw [he]
  · rw [he]
    exact State.find_emitAt _ _ _ _ _ hk

theorem State.dram_emitLimited (hq : 0xF000 ≤ q) : (s.emitLimited q key ms code data).dram = s.dram := by
  obtain he | ⟨e, he⟩ := s.emitLimited_cases q key ms code data
  · rw [he]
  · rw [he]
    exact (State.emit_onlyRegsEv hq).dram_eq

/-- The bay table lies above every register that an event of the BAY page writes. -/
theorem not_evKey_bayE (n : Nat) (f : Fld) : ¬ evKey (pg .bay 0) (fkey (bayE n) f) := by
  simp only [evKey, fkey, bayE, pg_bay, pg_dbk, HDR_EVT_RAW_RAW, DBK_WR_COUNT, DBK_LOST_COUNT]
  omega

end

/-! ### What a read returned is none of the registers

To be cited by name: `simp` would use them as definitional equalities, and the kernel would then evaluate the value returned. -/

section
variable (s : State) (v n p : Nat) (f : Fld)

theorem State.rdata_ret : (s.ret v).rdata = v := rfl
theorem State.rd_ret : (s.ret v).rd p f = s.rd p f := rfl
theorem State.on_ret : (s.ret v).on p f = s.on p f := rfl
theorem State.bayState_ret : (s.ret v).bayState n = s.bayState n := rfl
theorem State.bayGen_ret : (s.ret v).bayGen n = s.bayGen n := rfl

end

/-! ### Allocation (R137) -/

/-- The word that a read of the allocation port returns for bay `n`: the bay, GOT and the bay's generation. -/
def State.bayReturned (s : State) (n : Nat) : Nat := n + 2 ^ 13 + s.bayGen n * 2 ^ 16

section
variable (s : State)

/-- What an allocation that finds no bay leaves: BAY_EMPTY_COUNT one higher, and ALLOC_EMPTY. -/
def State.allocEmpty (s : State) (cls fid : Nat) : State :=
  (s.cnt (pg .bay 0) BAY_EMPTY_COUNT_COUNT 1).emitLimited (pg .bay 0) (pg .bay 0 + cls) 1 0x0001 ([cls, 0] ++ le fid 2)

theorem exec_bayAlloc_found (w : Writer) {cls : Fin 16} {n : Nat} (he : s.enabled (pg .bay 0) = true)
    (hn : s.lowestFree cls.val = some n) : exec (.bayAlloc w cls) s =
      .next ((s.bayHold n w.fid).ret ((s.bayHold n w.fid).bayReturned n)) := by
  show execBayAlloc w cls s = _
  simp only [execBayAlloc, State.alloc, he, if_true, hn, done, State.bayReturned]

theorem exec_bayAlloc_none (w : Writer) {cls : Fin 16} (h : s.enabled (pg .bay 0) = false ∨ s.lowestFree cls.val = none) :
    exec (.bayAlloc w cls) s = .next ((s.allocEmpty cls.val w.fid).ret 0) := by
  have hnone : (if s.enabled (pg .bay 0) then s.lowestFree cls.val else none) = none := by
    rcases h with h | h <;> simp [h]
  show execBayAlloc w cls s = _
  simp only [execBayAlloc, State.alloc, hnone, done]
  rfl

theorem State.rd_bayE_allocEmpty (cls fid n : Nat) (f : Fld) : (s.allocEmpty cls fid).rd (bayE n) f = s.rd (bayE n) f := by
  have hcount : fkey (bayE n) f ≠ fkey (pg .bay 0) BAY_EMPTY_COUNT_COUNT := by
    simp only [fkey, bayE, pg_bay, BAY_EMPTY_COUNT_COUNT]
    omega
  unfold State.allocEmpty
  rw [State.rd_congr (State.find_emitLimited (not_evKey_bayE n f)), State.cnt_eq, State.rd_wr_key hcount]

theorem State.dram_allocEmpty (cls fid : Nat) : (s.allocEmpty cls fid).dram = s.dram :=
  State.dram_emitLimited (by decide)

end

/-- Settles O24: each write of a word runs down the conditions of R133 to the one that decides; an allocation writes `holdFields`
of the bay that it finds, or no field of any bay. -/
theorem bayWords : Obligations.BayWords := by
  unfold Obligations.BayWords
  refine ⟨fun w b word v s => ⟨fun f fs hl => ?_, fun f fs hl hc => ?_, fun hs hok => ?_, fun hs hbad => ?_,
    exec_bayEnlist_back w, fun hs => ⟨exec_bayEnlist_held w hs false, exec_bayEnlist_held w hs true⟩⟩,
    fun w cls s => ⟨fun n he hn => ?_, fun h => ?_⟩⟩
  · rw [exec_bayDescWrite, State.bayDescWrite_layout hl]
    refine ⟨fun hd => ?_, fun hd hlock => ?_, fun hd hlock => ⟨fun hs => ?_, fun hs => ?_⟩⟩
    · rw [if_pos hd]
    · rw [if_neg (by simp [hd]), if_pos hlock]
    · rw [if_neg (by simp [hd]), if_neg (by simp [hlock]), if_pos hs]
    · rw [if_neg (by simp [hd]), if_neg (by simp [hlock]), if_neg hs]
  · rw [exec_bayDescWrite, State.bayDescWrite_content hl hc]
    refine ⟨fun hd => ?_, fun hd => ?_⟩
    · rw [if_pos hd]
    · rw [if_neg (by simp [hd])]
      refine ⟨fun hs ho hr => ?_, fun hs => ?_, fun hs ho => ?_, fun hs ho hr => ?_⟩
      · rw [if_neg (not_not.2 hs), if_neg (not_not.2 ho), if_neg (by simp [hr])]
      · rw [if_pos hs]
      · rw [if_neg (not_not.2 hs), if_pos ho]
      · rw [if_neg (not_not.2 hs), if_neg (not_not.2 ho), if_pos hr]
  · rw [exec_bayEnlist_unset w hs, if_pos hok]
  · rw [exec_bayEnlist_unset w hs, if_neg (by simp [hbad])]
  · obtain ⟨hstate, hgen, howner, hcount, howned, hmarks⟩ := s.bayHold_spec n w.fid (writerFid_lt w)
    obtain ⟨hrest, hkeys⟩ := onlyRegs_ret ((s.bayHold n w.fid).bayReturned n) (onlyRegs_bayHold s n w.fid)
    refine ⟨_, exec_bayAlloc_found s w he hn, (State.bayState_ret ..).trans hstate, (State.bayGen_ret ..).trans hgen,
      (State.rd_ret ..).trans howner, (State.rd_ret ..).trans hcount, (State.on_ret ..).trans howned,
      (State.rd_ret ..).trans hmarks, ?_, hrest, fun k hk => hkeys k fun hmem => ?_⟩
    · rw [State.rdata_ret, State.bayReturned, hgen]
    · have := holdFields_keys n hmem
      omega
  · refine ⟨_, exec_bayAlloc_none s w h, State.rdata_ret .., fun n => ⟨(State.bayState_ret ..).trans ?_,
      (State.bayGen_ret ..).trans ?_⟩, s.dram_allocEmpty _ _⟩
    · exact s.rd_bayE_allocEmpty _ _ n _
    · exact s.rd_bayE_allocEmpty _ _ n _

end Sys2Proof.Machine
end

section
/-! PROOFS. Taking a hitch (R88, R89, R94 to R96), after what the fields and events of the HIT page, bits and lists need. -/

set_option autoImplicit false

namespace Sys2Proof.Machine

/-! ### Bits set and cleared -/

section
variable {v j : Nat} (i : Nat)

theorem bit_eq_testBit (v i : Nat) : bit v i = v.testBit i := Nat.testBit_eq_decide_div_mod_eq.symm

theorem bit_mod_two_pow {i w : Nat} (h : i < w) : bit (v % 2 ^ w) i = bit v i := by
  simp [bit_eq_testBit, Nat.testBit_mod_two_pow, h]

theorem bit_setBit_self (v i : Nat) : bit (setBit v i) i = true := by
  unfold setBit
  split
  next h => exact h
  next h =>
    rw [bit_eq_testBit] at h ⊢
    rwa [Nat.add_comm, Nat.testBit_two_pow_add_eq, Bool.not_eq_true', ← Bool.not_eq_true]

theorem bit_clrBit_self (v i : Nat) : bit (clrBit v i) i = false := by
  unfold clrBit
  split
  next h =>
    rw [bit_eq_testBit] at h ⊢
    have hge := Nat.ge_two_pow_of_testBit h
    rwa [← Nat.add_sub_cancel' hge, Nat.testBit_two_pow_add_eq, Bool.not_eq_true'] at h
  next h => exact Bool.eq_false_iff.2 h

/-- A bit that is 0 is set without a carry: a set bit stays. -/
theorem bit_setBit_of_bit (h : bit v j = true) : bit (setBit v i) j = true := by
  unfold setBit
  split
  next => exact h
  next hi =>
    rcases Nat.lt_trichotomy j i with hj | rfl | hj
    · rwa [bit_eq_testBit, Nat.add_comm, Nat.testBit_two_pow_add_gt hj, ← bit_eq_testBit]
    · exact absurd h hi
    · obtain ⟨d, rfl⟩ := Nat.exists_eq_add_of_lt hj
      have hhigh : ∀ x, x / 2 ^ (i + d + 1) = x / 2 ^ i / 2 / 2 ^ d := fun x => by
        rw [Nat.div_div_eq_div_mul, Nat.div_div_eq_div_mul, ← pow_succ', ← pow_add, ← Nat.add_assoc]
      have hodd : (v / 2 ^ i + 1) / 2 = v / 2 ^ i / 2 := by
        simp only [bit, decide_eq_true_eq] at hi
        omega
      unfold bit at h ⊢
      rw [hhigh, Nat.add_div_right _ (Nat.two_pow_pos i), hodd, ← hhigh]
      exact h

end

/-! ### The first element that passes -/

section
variable {α : Type} {p : α → Bool} {l r : List α} {a : α}

theorem takeFirst_find? (p : α → Bool) (l : List α) : (takeFirst p l).map (·.1) = l.find? p := by
  induction l with
  | nil => rfl
  | cons x l ih =>
    rw [takeFirst, List.find?_cons]
    cases p x
    · rw [← ih]
      cases takeFirst p l <;> rfl
    · rfl

theorem takeFirst_eq_none (h : ∀ x ∈ l, p x = false) : takeFirst p l = none := by
  have hfind : l.find? p = none := List.find?_eq_none.2 fun x hx => by simp [h x hx]
  exact Option.map_eq_none_iff.1 ((takeFirst_find? p l).trans hfind)

theorem exists_takeFirst (h : l.find? p = some a) : ∃ r, takeFirst p l = some (a, r) := by
  obtain ⟨⟨b, r⟩, hb, rfl⟩ := Option.map_eq_some_iff.1 ((takeFirst_find? p l).trans h)
  exact ⟨r, hb⟩

theorem takeFirst_fst_mem (h : takeFirst p l = some (a, r)) : a ∈ l :=
  List.mem_of_find?_eq_some ((takeFirst_find? p l).symm.trans (congrArg (Option.map (·.1)) h))

theorem takeFirst_rest (h : takeFirst p l = some (a, r)) : ∀ x ∈ r, x ∈ l := by
  induction l generalizing r with
  | nil => cases h
  | cons y l ih =>
    rw [takeFirst] at h
    split at h
    · cases h
      exact fun x => List.mem_cons_of_mem _
    · obtain ⟨⟨b, r'⟩, hr, he⟩ := Option.map_eq_some_iff.1 h
      cases he
      intro x hx
      rcases List.mem_cons.1 hx with rfl | hx
      · exact List.mem_cons_self
      · exact List.mem_cons_of_mem _ (ih hr x hx)

end

/-! ### Fields of the HIT page (R96) -/

/-- The fields that tell the owner of slot `o` how its wait stands. -/
def waitStand (o : Nat) : List Fld := [HIT_WAIT_STATE o, HIT_WAIT_ABANDONED o]

section
variable {s t : State} {l : List Nat} {f : Fld} (o n st : Nat) (ab : Bool)

/-- `setWait` writes STATE and ABANDONED, which lie at bits 29 to 31 of their words. -/
theorem State.rd_setWait_low (hf : f.lo < 29) : (s.setWait o st ab).rd (pg .hit 0) f = s.rd (pg .hit 0) f := by
  have hstate : fkey (pg .hit 0) f ≠ fkey (pg .hit 0) (HIT_WAIT_STATE o) := by
    simp only [fkey, HIT_WAIT_STATE]
    omega
  have haband : fkey (pg .hit 0) f ≠ fkey (pg .hit 0) (HIT_WAIT_ABANDONED o) := by
    simp only [fkey, HIT_WAIT_ABANDONED]
    omega
  unfold State.setWait
  rw [State.wb_eq, State.rd_wr_key haband, State.rd_wr_key hstate]

theorem State.rd_waitState_setWait : (s.setWait o st ab).rd (pg .hit 0) (HIT_WAIT_STATE o) = st % 4 := by
  unfold State.setWait
  rw [State.wb_eq, State.rd_wr_same (by simp only [HIT_WAIT_STATE, HIT_WAIT_ABANDONED]; omega), State.rd_wr_self]
  rfl

theorem onlyRegs_setWait (hs : fkey (pg .hit 0) (HIT_WAIT_STATE o) ∈ l) (ha : fkey (pg .hit 0) (HIT_WAIT_ABANDONED o) ∈ l)
    (h : onlyRegs l s t) : onlyRegs l s (t.setWait o st ab) := onlyRegs_wb ha (onlyRegs_wr hs h)

theorem onlyRegsEv_setWait {q : Nat} (hs : fkey (pg .hit 0) (HIT_WAIT_STATE o) ∈ l)
    (ha : fkey (pg .hit 0) (HIT_WAIT_ABANDONED o) ∈ l) (h : onlyRegsEv l q s t) : onlyRegsEv l q s (t.setWait o st ab) :=
  onlyRegsEv_wb ha (onlyRegsEv_wr hs h)

theorem State.abandoned_setAband_self : (s.setAband n ab).abandoned n = ab := by
  unfold State.abandoned State.setAband
  rw [State.rd_wr_self, show (HIT_ABAND_ABAND (n / 32)).w = 32 from rfl, bit_mod_two_pow (Nat.mod_lt n (by decide))]
  cases ab
  · exact bit_clrBit_self _ _
  · exact bit_setBit_self _ _

theorem State.abandoned_setAband_mark {m : Nat} (h : s.abandoned m = true) : (s.setAband n true).abandoned m = true := by
  unfold State.abandoned State.setAband at *
  by_cases hm : m / 32 = n / 32
  · rw [hm] at h ⊢
    rw [State.rd_wr_self, show (HIT_ABAND_ABAND (n / 32)).w = 32 from rfl, bit_mod_two_pow (Nat.mod_lt m (by decide))]
    exact bit_setBit_of_bit _ h
  · rw [State.rd_wr_key (by simp only [fkey, HIT_ABAND_ABAND]; omega)]
    exact h

/-- The epochs of the ten slots lie below the abandoned marks. -/
theorem State.hitEpoch_setAband {o : Nat} (ho : o < 10) : (s.setAband n ab).hitEpoch o = s.hitEpoch o :=
  State.rd_wr_key (by simp only [fkey, HIT_EPOCH_EPOCH, HIT_ABAND_ABAND]; omega)

theorem State.hitEpoch_setWait (o' : Nat) : (s.setWait o st ab).hitEpoch o' = s.hitEpoch o' :=
  State.rd_setWait_low o st ab (by simp only [HIT_EPOCH_EPOCH]; omega)

theorem hitSlot_lt {w : Writer} (h : w.hitSlot = some o) : o < 10 := by
  cases w <;> simp only [Writer.hitSlot, Option.some.injEq, reduceCtorEq] at h <;> omega

end

/-! ### Events of the HIT page -/

section
variable {s t : State} {l : List Nat} {q : Nat}

theorem onlyRegsEv.hit_eq (h : onlyRegsEv l q s t) : t.hit = s.hit := by rw [h.1]

theorem onlyRegsEv.time_eq (h : onlyRegsEv l q s t) : t.time = s.time := by rw [h.1]

theorem onlyRegsEv_ret (v : Nat) (h : onlyRegsEv l q s t) : onlyRegsEv l q { s with rdata := v } (t.ret v) := by
  obtain ⟨hrest, hregs, hloft, hseq⟩ := h
  refine ⟨?_, hregs, hloft, hseq⟩
  rw [hrest]
  rfl

/-- Events of the HIT page write none of its words from 0x28 on. -/
theorem onlyRegsEv.rd_hit {L : List Fld} (h : onlyRegsEv (L.map (fkey (pg .hit 0))) (pg .hit 0) s t) {f : Fld}
    (hoff : 0x28 ≤ f.off) (hlo : f.lo < 32) (hL : ∀ g ∈ L, f.off * 32 + f.lo ≠ g.off * 32 + g.lo) :
    t.rd (pg .hit 0) f = s.rd (pg .hit 0) f :=
  h.rd (fun hf => by
    obtain ⟨g, hg, he⟩ := List.mem_map.1 hf
    exact fkey_ne_same_page (hL g hg) he) (not_evKey_word (.inr (by decide)) hoff (by omega))

theorem onlyRegsEv.hitEpoch_eq {L : List Fld} (h : onlyRegsEv (L.map (fkey (pg .hit 0))) (pg .hit 0) s t)
    (hL : ∀ g ∈ L, 29 ≤ g.lo ∧ g.lo < 32) (o : Nat) : t.hitEpoch o = s.hitEpoch o :=
  h.rd_hit (by simp only [HIT_EPOCH_EPOCH]; omega) (by simp [HIT_EPOCH_EPOCH]) fun g hg => by
    have := hL g hg
    simp only [HIT_EPOCH_EPOCH]
    omega

theorem onlyRegsEv_hitOrder {L : List Fld} (hL : ∀ f ∈ L, 0x28 ≤ f.off) (o n : Nat)
    (h : onlyRegsEv (L.map (fkey (pg .hit 0))) (pg .hit 0) s t) :
    onlyRegsEv (L.map (fkey (pg .hit 0))) (pg .hit 0) s (t.hitOrder o n) := by
  unfold State.hitOrder
  split
  · split
    · exact onlyRegsEv_emit (ringKeysFree_words (.inr (by decide)) hL) h
    · exact h
  · exact h

end

/-! ### Taking and granting (R89, R93, R94) -/

/-- The abandoned mark of hitch `n` is returned with the hitch, and cleared. -/
def State.abandCleared (s : State) (n : Nat) : State := if s.abandoned n then s.setAband n false else s

section
variable {s : State} (o n : Nat) (ab : Bool)

theorem State.abandoned_abandCleared : (s.abandCleared n).abandoned n = false := by
  unfold State.abandCleared
  split
  next => exact State.abandoned_setAband_self n false
  next h => exact Bool.eq_false_iff.2 h

theorem onlyRegs_abandCleared : onlyRegs [fkey (pg .hit 0) (HIT_ABAND_ABAND (n / 32))] s (s.abandCleared n) := by
  unfold State.abandCleared
  split
  · exact onlyRegs_wr List.mem_cons_self onlyRegs_refl
  · exact onlyRegs_refl

theorem State.hit_abandCleared : (s.abandCleared n).hit = s.hit := by rw [(onlyRegs_abandCleared n).1]

theorem State.hitEpoch_abandCleared {o : Nat} (ho : o < 10) : (s.abandCleared n).hitEpoch o = s.hitEpoch o := by
  unfold State.abandCleared
  split
  · exact State.hitEpoch_setAband n false ho
  · rfl

/-- What is held once slot `o` has become the owner of hitch `n`. -/
def State.heldBy (s : State) (o n : Nat) : Store (Nat × Nat) := Store.put n (o, s.hitEpoch o) s.hit.held

theorem State.hitchGive_eq : s.hitchGive o n = State.hitOrder { s with hit := { s.hit with held := s.heldBy o n } } o n := rfl

/-- Becoming the owner changes who holds the hitch, and what an ORDER event changes. -/
theorem onlyRegsEv_hitchGive :
    onlyRegsEv [] (pg .hit 0) { s with hit := { s.hit with held := s.heldBy o n } } (s.hitchGive o n) :=
  onlyRegsEv_hitOrder (L := []) (by simp) o n onlyRegsEv_refl

theorem State.abandoned_hitchGive (m : Nat) : (s.hitchGive o n).abandoned m = s.abandoned m :=
  congrArg (bit · (m % 32)) (onlyRegsEv.rd_hit (L := []) (onlyRegsEv_hitchGive o n) (by simp only [HIT_ABAND_ABAND]; omega)
    (by simp [HIT_ABAND_ABAND]) (by simp))

theorem State.hitEpoch_hitchGive (o' : Nat) : (s.hitchGive o n).hitEpoch o' = s.hitEpoch o' :=
  onlyRegsEv.hitEpoch_eq (L := []) (onlyRegsEv_hitchGive o n) (by simp) o'

/-- A grant makes the waiter the owner, tells it so, and changes nothing else but what its events change. -/
theorem onlyRegsEv_hitchGrant : onlyRegsEv ((waitStand o).map (fkey (pg .hit 0))) (pg .hit 0)
    { s with hit := { s.hit with held := s.heldBy o n } } (s.hitchGrant o n ab) := by
  have hoff : ∀ f ∈ waitStand o, 0x28 ≤ f.off := by
    simp only [waitStand, List.forall_mem_cons, HIT_WAIT_STATE, HIT_WAIT_ABANDONED]
    exact ⟨by omega, by omega, by simp⟩
  refine onlyRegsEv_emit (ringKeysFree_words (.inr (by decide)) hoff) (onlyRegsEv_setWait _ _ _ ?_ ?_ ?_)
  · exact List.mem_map_of_mem List.mem_cons_self
  · exact List.mem_map_of_mem (List.mem_cons_of_mem _ List.mem_cons_self)
  · exact onlyRegsEv_hitOrder hoff o n onlyRegsEv_refl

theorem State.hit_hitchGrant : (s.hitchGrant o n ab).hit = { s.hit with held := s.heldBy o n } :=
  (onlyRegsEv_hitchGrant o n ab).hit_eq

/-- A GRANT event leaves the waits as they read. -/
theorem State.rd_waitState_granted (u : State) (code : Nat) (data : List Nat) :
    ((u.setWait o 2 ab).emit (pg .hit 0) code data).rd (pg .hit 0) (HIT_WAIT_STATE o) = 2 := by
  rw [State.rd_emit_above (by decide) (by simp only [HIT_WAIT_STATE]; omega), State.rd_waitState_setWait]

theorem State.rd_waitState_hitchGrant : (s.hitchGrant o n ab).rd (pg .hit 0) (HIT_WAIT_STATE o) = 2 :=
  State.rd_waitState_granted _ _ _ _ _

theorem State.hitEpoch_hitchGrant (o' : Nat) : (s.hitchGrant o n ab).hitEpoch o' = s.hitEpoch o' :=
  (onlyRegsEv_hitchGrant o n ab).hitEpoch_eq (by simp [waitStand, HIT_WAIT_STATE, HIT_WAIT_ABANDONED]) o'

end

/-! ### A take attempt (R89, R95) -/

section
variable {s : State} {w : Writer} {n : Fin 256} {o : Nat}

theorem exec_hitTake_noSlot (hw : w.hitSlot = none) : exec (.hitTake w n) s = .next (s.ret 0) := by
  show done (s.hitTake w n.val) = _
  simp only [State.hitTake, hw]

theorem exec_hitTake_disabled (hd : s.enabled (pg .hit 0) = false) : exec (.hitTake w n) s = .next (s.ret 0) := by
  show done (s.hitTake w n.val) = _
  cases hw : w.hitSlot <;> simp only [State.hitTake, hw, hd, Bool.not_false, if_true]

variable (hw : w.hitSlot = some o) (he : s.enabled (pg .hit 0) = true)
include hw he

theorem exec_hitTake_held {o' e : Nat} (hh : Store.find n.val s.hit.held = some (o', e)) :
    exec (.hitTake w n) s = .next (s.ret (takeWord (decide (o' = o)) false e (slotFid o'))) := by
  show done (s.hitTake w n.val) = _
  simp only [State.hitTake, hw, he, hh, Bool.not_true, Bool.false_eq_true, if_false]

/-- The epoch that the read returns is the taker's own, which the take leaves. -/
theorem exec_hitTake_free (hh : Store.find n.val s.hit.held = none) : exec (.hitTake w n) s =
    .next (((s.abandCleared n.val).hitchGive o n.val).ret (takeWord true (s.abandoned n.val) (s.hitEpoch o) (slotFid o))) := by
  have hepoch : ((s.abandCleared n.val).hitchGive o n.val).hitEpoch o = s.hitEpoch o :=
    (State.hitEpoch_hitchGive ..).trans (State.hitEpoch_abandCleared _ (hitSlot_lt o hw))
  rw [← hepoch]
  show done (s.hitTake w n.val) = _
  simp only [State.hitTake, hw, he, hh, Bool.not_true, Bool.false_eq_true, if_false]
  rfl

end

section
variable {s t : State} (o n : Nat)

theorem onlyRegs_withHit {l : List Nat} (x : HitSt) (h : onlyRegs l s t) :
    onlyRegs l { s with hit := x } { t with hit := x } := by
  obtain ⟨hrest, hregs⟩ := h
  refine ⟨?_, hregs⟩
  rw [hrest]

theorem State.heldBy_abandCleared {o : Nat} (ho : o < 10) : (s.abandCleared n).heldBy o n = s.heldBy o n := by
  unfold State.heldBy
  rw [State.hitEpoch_abandCleared n ho, State.hit_abandCleared]

/-- A take of a free hitch clears the mark, and changes nothing else but the owner and what an ORDER event does. -/
theorem onlyRegsEv_taken {o : Nat} (ho : o < 10) : onlyRegsEv [fkey (pg .hit 0) (HIT_ABAND_ABAND (n / 32))] (pg .hit 0)
    { s with hit := { s.hit with held := s.heldBy o n } } ((s.abandCleared n).hitchGive o n) := by
  have hmark := onlyRegs_withHit { s.hit with held := s.heldBy o n } (onlyRegs_abandCleared (s := s) n)
  rw [State.hitchGive_eq, State.heldBy_abandCleared n ho, State.hit_abandCleared]
  refine onlyRegsEv_hitOrder (L := [HIT_ABAND_ABAND (n / 32)]) ?_ o n hmark.toEv
  simp only [List.forall_mem_cons, HIT_ABAND_ABAND]
  exact ⟨by omega, by simp⟩

end

/-- Settles O15: a requester without a slot and a unit switched off answer 0; a held hitch answers its owner; a free one is
taken. -/
theorem hitTake : Obligations.HitchTake := by
  unfold Obligations.HitchTake
  refine ⟨fun w n s hw => exec_hitTake_noSlot hw, fun w n s o hw => ⟨fun hd => ⟨_, exec_hitTake_disabled hd, rfl⟩, fun he =>
    ⟨fun o' e hh => ⟨_, exec_hitTake_held hw he hh, rfl⟩, fun hh => ⟨_, exec_hitTake_free hw he hh, ?_, ?_⟩⟩⟩⟩
  · exact (State.abandoned_hitchGive ..).trans (State.abandoned_abandCleared _)
  · exact onlyRegsEv_ret _ (onlyRegsEv_taken n.val (hitSlot_lt o hw))

end Sys2Proof.Machine
end

section
/-! PROOFS. A hitch leaves its owner: releases and epochs (R90, R92, R95). -/

set_option autoImplicit false

namespace Sys2Proof.Machine

/-! ### A hitch leaves its owner (R90, R92) -/

section
variable {s : State} {n : Nat} {x : HitWait} {r : List HitWait} (ab : Bool)

/-- Hitch `n` with its owner gone, and the waits `r` left. -/
def State.ownerless (s : State) (n : Nat) (r : List HitWait) : State := { s with hit := ⟨Store.del n s.hit.held, r⟩ }

theorem State.hitchFree_noWaiter (h : takeFirst (fun y : HitWait => decide (y.hitch = n)) s.hit.waits = none) :
    s.hitchFree n ab = if ab then (s.ownerless n s.hit.waits).setAband n true else s.ownerless n s.hit.waits := by
  simp only [State.hitchFree, h]
  rfl

theorem State.hitchFree_waiter (h : takeFirst (fun y : HitWait => decide (y.hitch = n)) s.hit.waits = some (x, r)) :
    s.hitchFree n ab = (s.ownerless n r).hitchGrant x.slot n ab := by
  simp only [State.hitchFree, h]
  rfl

/-- Only a waiter becomes the owner of hitch `n`; the other hitches stay with theirs. -/
theorem State.mem_held_hitchFree {e : Nat × (Nat × Nat)} (he : e ∈ (s.hitchFree n ab).hit.held) :
    (e ∈ s.hit.held ∧ e.1 ≠ n) ∨ ∃ x ∈ s.hit.waits, e.2.1 = x.slot := by
  have hdel : e ∈ Store.del n s.hit.held → e ∈ s.hit.held ∧ e.1 ≠ n := fun h => by
    simpa [Store.del, List.mem_filter] using h
  cases hw : takeFirst (fun y : HitWait => decide (y.hitch = n)) s.hit.waits with
  | none =>
    rw [State.hitchFree_noWaiter ab hw] at he
    cases ab <;> exact .inl (hdel he)
  | some p =>
    obtain ⟨x, r⟩ := p
    rw [State.hitchFree_waiter ab hw, State.hit_hitchGrant] at he
    rcases Store.mem_put he with rfl | he
    · exact .inr ⟨x, takeFirst_fst_mem hw, rfl⟩
    · exact .inl (hdel he)

theorem State.mem_waits_hitchFree (hx : x ∈ (s.hitchFree n ab).hit.waits) : x ∈ s.hit.waits := by
  cases hw : takeFirst (fun y : HitWait => decide (y.hitch = n)) s.hit.waits with
  | none =>
    rw [State.hitchFree_noWaiter ab hw] at hx
    cases ab <;> exact hx
  | some p =>
    obtain ⟨y, r⟩ := p
    rw [State.hitchFree_waiter ab hw, State.hit_hitchGrant] at hx
    exact takeFirst_rest hw x hx

theorem State.hitEpoch_hitchFree {o : Nat} (ho : o < 10) : (s.hitchFree n ab).hitEpoch o = s.hitEpoch o := by
  cases hw : takeFirst (fun y : HitWait => decide (y.hitch = n)) s.hit.waits with
  | none =>
    rw [State.hitchFree_noWaiter ab hw]
    cases ab
    · rfl
    · exact State.hitEpoch_setAband n true ho
  | some p =>
    obtain ⟨y, r⟩ := p
    rw [State.hitchFree_waiter ab hw, State.hitEpoch_hitchGrant]
    rfl

end

/-! ### A release (R90, R95) -/

section
variable {s : State} {w : Writer} {n : Fin 256} {rel : Bool}

theorem exec_hitRelease_noEffect (h : rel = false ∨ s.enabled (pg .hit 0) = false) :
    exec (.hitRelease w n rel) s = .next s := by
  show done (s.hitRelease w n.val rel) = _
  rcases h with h | h <;> simp [State.hitRelease, h]

variable (he : s.enabled (pg .hit 0) = true)
include he

theorem exec_hitRelease_free (hh : Store.find n.val s.hit.held = none) : exec (.hitRelease w n true) s =
    .next (s.emit (pg .hit 0) 0x1801 (le n.val 2 ++ le w.fid 2 ++ le 0 2)) := by
  show done (s.hitRelease w n.val true) = _
  simp [State.hitRelease, he, hh]

variable {o e : Nat} (hh : Store.find n.val s.hit.held = some (o, e))
include hh

theorem exec_hitRelease_other (hw : w.hitSlot ≠ some o) : exec (.hitRelease w n true) s =
    .next (s.emit (pg .hit 0) 0x1801 (le n.val 2 ++ le w.fid 2 ++ le (slotFid o) 2)) := by
  show done (s.hitRelease w n.val true) = _
  simp [State.hitRelease, he, hh, hw]

theorem exec_hitRelease_owner (hw : w.hitSlot = some o) :
    exec (.hitRelease w n true) s = .next (s.hitchFree n.val false) := by
  show done (s.hitRelease w n.val true) = _
  simp [State.hitRelease, he, hh, hw]

end

/-! ### An owner's epoch increments (R92) -/

section
variable {s : State} {o : Nat}

theorem State.waiting_eq_false : s.waiting o = false ↔ ∀ x ∈ s.hit.waits, x.slot ≠ o := by
  simp [State.waiting]

theorem State.waiting_dropWait : (s.dropWait o).waiting o = false := by
  simp [State.waiting_eq_false, State.dropWait]

/-- One hitch of owner `o` is abandoned, with its record. -/
def State.hitAbandon (o : Nat) (s : State) (e : Nat × (Nat × Nat)) : State :=
  (s.emit (pg .hit 0) 0x1001 (le e.1 2 ++ le (slotFid o) 2 ++ le e.2.2 2)).hitchFree e.1 true

/-- With none of its own waits left, an owner whose hitches are all abandoned in turn ends up with none: each passes to another or
to nobody. -/
theorem State.foldl_hitAbandon_spec (ho : o < 10) (l : List (Nat × (Nat × Nat))) (hw : s.waiting o = false)
    (hl : ∀ e ∈ s.hit.held, e.2.1 = o → e.1 ∈ l.map (·.1)) :
    (l.foldl (State.hitAbandon o) s).hitEpoch o = s.hitEpoch o ∧
    (∀ e ∈ (l.foldl (State.hitAbandon o) s).hit.held, e.2.1 ≠ o) ∧ (l.foldl (State.hitAbandon o) s).waiting o = false := by
  induction l generalizing s with
  | nil => exact ⟨rfl, fun e he hown => by simpa using hl e he hown, hw⟩
  | cons x l ih =>
    have hev : onlyRegsEv [] (pg .hit 0) s (s.emit (pg .hit 0) 0x1001 (le x.1 2 ++ le (slotFid o) 2 ++ le x.2.2 2)) :=
      State.emit_onlyRegsEv (by decide)
    have hhit := hev.hit_eq
    have hw' := State.waiting_eq_false.1 hw
    obtain ⟨hepoch, hheld, hwaits⟩ := ih (s := State.hitAbandon o s x)
      (State.waiting_eq_false.2 fun y hy => hw' y (hhit ▸ State.mem_waits_hitchFree _ hy)) fun e he hown => by
        rcases State.mem_held_hitchFree _ he with ⟨hmem, hne⟩ | ⟨y, hy, hslot⟩
        · rw [hhit] at hmem
          exact (List.mem_cons.1 (hl e hmem hown)).resolve_left hne
        · rw [hhit] at hy
          exact absurd (hslot.symm.trans hown) (hw' y hy)
    refine ⟨hepoch.trans ((State.hitEpoch_hitchFree _ ho).trans ?_), hheld, hwaits⟩
    exact onlyRegsEv.hitEpoch_eq (L := []) hev (by simp) o

/-- The epoch counts, and the slot's own wait is cancelled. -/
def State.epochCounted (s : State) (o : Nat) : State :=
  let s := s.inc (pg .hit 0) (HIT_EPOCH_EPOCH o) 1
  if s.waiting o then (s.dropWait o).setWait o 0 false else s

theorem State.epochUp_eq : s.epochUp o =
    ((s.epochCounted o).hit.held.filter fun e => decide (e.2.1 = o)).foldl (State.hitAbandon o) (s.epochCounted o) := rfl

theorem State.epochCounted_spec :
    (s.epochCounted o).hitEpoch o = (s.hitEpoch o + 1) % 2 ^ 16 ∧ (s.epochCounted o).waiting o = false := by
  have hinc : (s.inc (pg .hit 0) (HIT_EPOCH_EPOCH o) 1).hitEpoch o = (s.hitEpoch o + 1) % 2 ^ 16 := State.rd_wr_self _ _ _ _
  unfold State.epochCounted
  dsimp only
  split
  next => exact ⟨(State.hitEpoch_setWait ..).trans hinc, State.waiting_dropWait⟩
  next h => exact ⟨hinc, Bool.eq_false_iff.2 h⟩

end

/-- Settles O16: a release by the owner passes the hitch to the first waiter or to nobody; an owner whose epoch increments waits
for nothing any more, so that none of its hitches comes back to it. A release of a hitch that nobody owns records owner 0 by the
model's choice (log entry 130). -/
theorem hitchReleases : Obligations.HitchReleases := by
  unfold Obligations.HitchReleases
  refine ⟨fun w n rel s => ⟨fun h => ⟨_, exec_hitRelease_noEffect h, rfl⟩, ?_⟩, fun slot s => ?_⟩
  · rintro rfl he
    refine ⟨fun hh => ⟨_, exec_hitRelease_free he hh, State.emit_onlyRegsEv (by decide)⟩, fun o e hh hw =>
      exec_hitRelease_other he hh hw, fun o e hh hw => ⟨fun hnone => ?_, fun x hx => ?_⟩⟩
    · refine ⟨_, exec_hitRelease_owner he hh hw, ?_⟩
      rw [State.hitchFree_noWaiter _ (takeFirst_eq_none fun x hx => by simp [hnone x hx])]
      rfl
    · obtain ⟨r, hr⟩ := exists_takeFirst hx
      refine ⟨_, (exec_hitRelease_owner he hh hw).trans (congrArg _ (State.hitchFree_waiter _ hr)), ?_⟩
      dsimp only
      rw [State.hit_hitchGrant]
      exact ⟨Store.find_put_self _ _ _, State.rd_waitState_hitchGrant .., onlyRegsEv_hitchGrant ..⟩
  · obtain ⟨hepoch, hwait⟩ := State.epochCounted_spec (s := s) (o := slot.val)
    obtain ⟨hkept, hheld, hnone⟩ := State.foldl_hitAbandon_spec slot.isLt
      ((s.epochCounted slot.val).hit.held.filter fun e => decide (e.2.1 = slot.val)) hwait fun e he hown =>
        List.mem_map_of_mem (List.mem_filter.2 ⟨he, by simp [hown]⟩)
    exact ⟨_, rfl, (congrArg (State.hitEpoch · slot.val) State.epochUp_eq).trans (hkept.trans hepoch), hheld, hnone⟩

end Sys2Proof.Machine
end

section
/-! PROOFS. Waits for a hitch (R93, R95, R96). -/

set_option autoImplicit false

namespace Sys2Proof.Machine

/-! ### Waits (R93, R96) -/

section
variable {s : State} {w : Writer} {slot : Fin 10} {n : Fin 256} {tmo : BitVec 20}

theorem exec_hitWait_noEffect
    (h : w.hitSlot ≠ some slot.val ∨ s.enabled (pg .hit 0) = false ∨ tmo = 0 ∨ s.waiting slot.val = true) :
    exec (.hitWait w slot n tmo) s = .next s := by
  have h' : w.hitSlot ≠ some slot.val ∨ (!s.enabled (pg .hit 0)) = true ∨ tmo.toNat = 0 ∨ s.waiting slot.val = true := by
    simpa [← BitVec.toNat_inj] using h
  exact congrArg _ (if_pos h')

/-- HITCH of the slot's register takes the hitch waited for. -/
def State.waitFor (s : State) (o n : Nat) : State := s.wr (pg .hit 0) (HIT_WAIT_HITCH o) n

theorem State.hitEpoch_waitFor {m o : Nat} (hm : m < 10) (ho : o < 10) (n : Nat) : (s.waitFor m n).hitEpoch o = s.hitEpoch o :=
  State.rd_wr_key (by simp only [fkey, HIT_EPOCH_EPOCH, HIT_WAIT_HITCH]; omega)

/-- The slot waits, last in line. -/
def State.waitQueued (s : State) (o n tmo : Nat) : State :=
  let x : HitWait := ⟨o, n, s.time.run + tmo * usRun⟩
  ({ s.waitFor o n with hit := { s.hit with waits := s.hit.waits ++ [x] } }).setWait o 1 false

/-- The slot waits for a hitch that it holds already. -/
def State.waitOwned (s : State) (o n : Nat) : State :=
  (((s.waitFor o n).hitOrder o n).setWait o 2 false).emit (pg .hit 0) 0x0001 (le n 2 ++ le (slotFid o) 2 ++ [0])

/-- The slot waits for a free hitch. -/
def State.waitGranted (s : State) (o n : Nat) : State :=
  ((s.waitFor o n).abandCleared n).hitchGrant o n ((s.waitFor o n).abandoned n)

variable (hw : w.hitSlot = some slot.val) (he : s.enabled (pg .hit 0) = true) (ht : tmo ≠ 0) (hn : s.waiting slot.val = false)
include hw he ht hn

/-- A wait request that R93 admits: who holds the hitch decides. -/
theorem exec_hitWait : exec (.hitWait w slot n tmo) s = .next
    (match Store.find n.val s.hit.held with
    | some (o', _) => if o' = slot.val then s.waitOwned slot.val n.val else s.waitQueued slot.val n.val tmo.toNat
    | none => s.waitGranted slot.val n.val) := by
  have hadmit : ¬ (w.hitSlot ≠ some slot.val ∨ (!s.enabled (pg .hit 0)) = true ∨ tmo.toNat = 0 ∨ s.waiting slot.val = true) := by
    simpa [hw, he, hn, ← BitVec.toNat_inj] using ht
  exact congrArg _ (if_neg hadmit)

end

section
variable {s : State} {o n : Nat}

theorem State.waitQueued_spec (hn : n < 256) (tmo : Nat) :
    (s.waitQueued o n tmo).rd (pg .hit 0) (HIT_WAIT_STATE o) = 1 ∧
    (s.waitQueued o n tmo).rd (pg .hit 0) (HIT_WAIT_HITCH o) = n ∧
    onlyRegs ((HIT_WAIT_HITCH o :: waitStand o).map (fkey (pg .hit 0)))
      { s with hit := { s.hit with waits := s.hit.waits ++ [⟨o, n, s.time.run + tmo * usRun⟩] } } (s.waitQueued o n tmo) := by
  refine ⟨State.rd_waitState_setWait .., (State.rd_setWait_low _ _ _ (by simp [HIT_WAIT_HITCH])).trans ?_, ?_⟩
  · exact (State.rd_wr_self _ _ _ _).trans (Nat.mod_eq_of_lt hn)
  · refine onlyRegs_setWait _ _ _ ?_ ?_ (onlyRegs_withHit _ (onlyRegs_wr ?_ onlyRegs_refl)) <;> simp [waitStand]

theorem State.waitOwned_spec : (s.waitOwned o n).rd (pg .hit 0) (HIT_WAIT_STATE o) = 2 ∧ (s.waitOwned o n).hit = s.hit := by
  have horder : onlyRegsEv [] (pg .hit 0) (s.waitFor o n) ((s.waitFor o n).hitOrder o n) :=
    onlyRegsEv_hitOrder (L := []) (by simp) o n onlyRegsEv_refl
  exact ⟨State.rd_waitState_granted _ _ _ _ _, (State.emit_onlyRegsEv (by decide)).hit_eq.trans horder.hit_eq⟩

theorem State.waitGranted_spec (ho : o < 10) : (s.waitGranted o n).rd (pg .hit 0) (HIT_WAIT_STATE o) = 2 ∧
    (s.waitGranted o n).hit = { s.hit with held := s.heldBy o n } := by
  refine ⟨State.rd_waitState_hitchGrant .., ?_⟩
  unfold State.waitGranted
  rw [State.hit_hitchGrant, State.heldBy_abandCleared n ho, State.hit_abandCleared]
  unfold State.heldBy
  rw [State.hitEpoch_waitFor ho ho]
  rfl

end

/-! ### A wait cancelled, timed out, read (R93, R96) -/

section
variable {s : State} {w : Writer} {slot : Fin 10}

theorem exec_hitWaitCancel : exec (.hitWaitCancel w slot) s =
    .next (if w.hitSlot = some slot.val ∧ s.enabled (pg .hit 0) = true ∧ s.waiting slot.val = true then
      (s.dropWait slot.val).setWait slot.val 0 false else s) := rfl

theorem exec_hitWaitTimeout {x : HitWait} (hx : s.hit.waits.find? (fun y => decide (y.slot = slot.val)) = some x) :
    exec (.hitWaitTimeout slot) s = .next ((((s.advanceRun x.due).dropWait slot.val).setWait slot.val 3 false).emit
      (pg .hit 0) 0x0801 (le x.hitch 2 ++ le (slotFid slot.val) 2)) := by
  show execHitWaitTimeout slot s = _
  simp only [execHitWaitTimeout, hx, done]

end

/-! ### The running-rate clock reaches a wait's limit (R159, R172) -/

section
variable (s : State)

theorem State.rxlRun_time_hit (k e : Nat) : (s.rxlRun k e).time = s.time ∧ (s.rxlRun k e).hit = s.hit := by
  unfold State.rxlRun
  dsimp only
  split
  · split <;> exact ⟨rfl, rfl⟩
  · exact ⟨rfl, rfl⟩

theorem State.setTime_time_hit (t : TimeSt) : (s.setTime t).time = t ∧ (s.setTime t).hit = s.hit := by
  have hfold : ∀ (k : Nat) (l : List Nat) (u : State), (l.foldl (State.rxlRun k) u).time = u.time ∧
      (l.foldl (State.rxlRun k) u).hit = u.hit := by
    intro k l
    induction l with
    | nil => exact fun u => ⟨rfl, rfl⟩
    | cons e l ih =>
      intro u
      obtain ⟨htime, hhit⟩ := ih (u.rxlRun k e)
      exact ⟨htime.trans (u.rxlRun_time_hit k e).1, hhit.trans (u.rxlRun_time_hit k e).2⟩
  exact hfold _ _ _

theorem State.cycleInc_pos : 0 < s.cycleInc := by
  unfold State.cycleInc sint
  split <;> omega

/-- Enough edges for a span run at least as long. -/
theorem le_edgesFor_mul {inc : Nat} (h : 0 < inc) (d : Nat) : d ≤ edgesFor inc d * inc := by
  unfold edgesFor
  rw [Nat.max_eq_left h]
  have := Nat.div_add_mod (d + inc - 1) inc
  have := Nat.mod_lt (d + inc - 1) h
  rw [Nat.mul_comm]
  omega

theorem State.hit_advanceRun (x : Nat) : (s.advanceRun x).hit = s.hit := by
  unfold State.advanceRun
  split
  · dsimp only
    split
    · exact (s.setTime_time_hit _).2
    · exact (s.setTime_time_hit _).2
  · rfl

theorem State.le_run_advanceRun (x : Nat) : x ≤ (s.advanceRun x).time.run := by
  unfold State.advanceRun
  split
  next hlt =>
    dsimp only
    split
    next hc =>
      have hinc : 0 < s.clockInc := by
        have := s.cycleInc_pos
        simp only [State.clockInc, hc, if_true]
        omega
      have := le_edgesFor_mul hinc (x - s.time.run)
      rw [(s.setTime_time_hit _).1]
      simp only [TimeSt.edges]
      omega
    next => rw [(s.setTime_time_hit _).1]
  next h => omega

end

section
variable {s : State} {w : Writer} {slot : Fin 10}

theorem exec_hitWaitRead_noSlot (hw : w.hitSlot = none) : exec (.hitWaitRead w slot) s = .next (s.ret 0) := by
  show execHitWaitRead w slot s = _
  simp only [execHitWaitRead, hw, done]

/-- A read that returns granted or timed out returns the register to idle. -/
def State.waitSeen (s : State) (o : Nat) : State :=
  if 2 ≤ s.rd (pg .hit 0) (HIT_WAIT_STATE o) then s.setWait o 0 false else s

theorem exec_hitWaitRead_slot {o : Nat} (hw : w.hitSlot = some o) :
    exec (.hitWaitRead w slot) s = .next ((s.waitSeen slot.val).ret (s.waitWord slot.val)) := by
  show execHitWaitRead w slot s = _
  simp only [execHitWaitRead, hw, done]
  rfl

theorem onlyRegs_waitSeen (o : Nat) : onlyRegs ((waitStand o).map (fkey (pg .hit 0))) s (s.waitSeen o) := by
  unfold State.waitSeen
  split
  · refine onlyRegs_setWait _ _ _ ?_ ?_ onlyRegs_refl <;> simp [waitStand]
  · exact onlyRegs_refl

end

/-- Settles O17: who holds the hitch decides a wait request; a wait ends when its owner cancels it or at its limit. -/
theorem hitchWaits : Obligations.HitchWaits := by
  unfold Obligations.HitchWaits
  refine ⟨fun w slot n tmo s => ⟨fun h => ⟨_, exec_hitWait_noEffect h, rfl⟩, fun hw he ht hn => ?_⟩, fun w slot s =>
    ⟨⟨_, exec_hitWaitCancel, ?_⟩, fun x hx => ⟨_, exec_hitWaitTimeout hx, ?_⟩, ?_⟩⟩
  · have hexec := exec_hitWait (n := n) hw he ht hn
    refine ⟨fun o e hh ho => ?_, fun e hh => ?_, fun hh => ?_⟩ <;> rw [hh] at hexec
    · exact ⟨_, hexec.trans (congrArg _ (if_neg ho)), State.waitQueued_spec n.isLt _⟩
    · exact ⟨_, hexec.trans (congrArg _ (if_pos rfl)), State.waitOwned_spec⟩
    · obtain ⟨hstate, hhit⟩ := State.waitGranted_spec (s := s) (n := n.val) slot.isLt
      refine ⟨_, hexec, hstate, ?_, ?_⟩ <;> rw [hhit]
      exact Store.find_put_self _ _ _
  · split
    · refine ⟨State.rd_waitState_setWait .., State.waiting_dropWait, ?_, rfl⟩
      exact onlyRegs_setWait _ _ _ (by simp) (by simp) (onlyRegs_refl (s := s.dropWait slot.val))
    · rfl
  · have hev := State.emit_onlyRegsEv (s := ((s.advanceRun x.due).dropWait slot.val).setWait slot.val 3 false)
      (q := pg .hit 0) (code := 0x0801) (data := le x.hitch 2 ++ le (slotFid slot.val) 2) (by decide)
    refine ⟨?_, ?_, ?_, ?_⟩
    · rw [State.rd_emit_above (by decide) (by simp only [HIT_WAIT_STATE]; omega), State.rd_waitState_setWait]
    · unfold State.waiting
      rw [hev.hit_eq]
      exact State.waiting_dropWait
    · rw [hev.time_eq]
      exact s.le_run_advanceRun x.due
    · rw [hev.hit_eq]
      show (s.advanceRun x.due).hit.held = _
      rw [State.hit_advanceRun]
  · cases hw : w.hitSlot with
    | none => exact ⟨_, exec_hitWaitRead_noSlot hw, rfl⟩
    | some o =>
      refine ⟨_, exec_hitWaitRead_slot hw, rfl, fun h => ?_, onlyRegs_ret _ (onlyRegs_waitSeen slot.val)⟩
      rw [State.rd_ret, State.waitSeen, if_pos h, State.rd_waitState_setWait]

end Sys2Proof.Machine
end

section
/-! PROOFS. The hitch unit switched off (R95). -/

set_option autoImplicit false

namespace Sys2Proof.Machine

/-! ### The unit switched off (R95) -/

/-- Every wait of a list reads idle. -/
def State.waitsIdle (s : State) (l : List HitWait) : State := l.foldl (fun s x => s.setWait x.slot 0 false) s

section
variable {s : State} {w : Writer} {page : BitVec 26}

theorem State.rd_waitsIdle {f : Fld} (hf : f.lo < 29) (l : List HitWait) :
    (s.waitsIdle l).rd (pg .hit 0) f = s.rd (pg .hit 0) f := by
  unfold State.waitsIdle
  induction l generalizing s with
  | nil => rfl
  | cons x l ih => rw [List.foldl_cons, ih, State.rd_setWait_low _ _ _ hf]

/-- The hitches of a list are marked abandoned. -/
def State.abandonAll (s : State) (l : List (Nat × (Nat × Nat))) : State := l.foldl (fun s e => s.setAband e.1 true) s

theorem State.hit_abandonAll (l : List (Nat × (Nat × Nat))) : (s.abandonAll l).hit = s.hit := by
  unfold State.abandonAll
  induction l generalizing s with
  | nil => rfl
  | cons x l ih => exact ih (s := s.setAband x.1 true)

theorem State.hitEpoch_abandonAll {o : Nat} (ho : o < 10) (l : List (Nat × (Nat × Nat))) :
    (s.abandonAll l).hitEpoch o = s.hitEpoch o := by
  unfold State.abandonAll
  induction l generalizing s with
  | nil => rfl
  | cons x l ih => exact (ih (s := s.setAband x.1 true)).trans (State.hitEpoch_setAband _ _ ho)

/-- Each hitch of the list is marked, and a mark that was there stays. -/
theorem State.abandoned_abandonAll {n : Nat} {l : List (Nat × (Nat × Nat))} (h : (∃ e ∈ l, e.1 = n) ∨ s.abandoned n = true) :
    (s.abandonAll l).abandoned n = true := by
  unfold State.abandonAll
  induction l generalizing s with
  | nil => exact h.resolve_left (by simp)
  | cons x l ih =>
    refine ih (s := s.setAband x.1 true) ?_
    rcases h with ⟨e, he, hn⟩ | h
    · rcases List.mem_cons.1 he with rfl | he
      · exact .inr (hn ▸ State.abandoned_setAband_self _ _)
      · exact .inl ⟨e, he, hn⟩
    · exact .inr (State.abandoned_setAband_mark _ h)

/-- ENABLE 0 of the unit: no hitch is held, and every wait reads idle. -/
theorem State.blkStop_hit : s.blkStop .hit 0 =
    { (s.wb (pg .hit 0) HDR_CTRL_ENABLE false).waitsIdle s.hit.waits with hit := ⟨[], []⟩ } := rfl

theorem State.hitSoftReset_eq :
    s.hitSoftReset = { (s.abandonAll s.hit.held).waitsIdle s.hit.waits with hit := ⟨[], []⟩ } := by
  have hwaits : (s.abandonAll s.hit.held).hit.waits = s.hit.waits := congrArg HitSt.waits (State.hit_abandonAll _)
  rw [← hwaits]
  rfl

theorem exec_enableWrite_hitOff (hp : s.pageFor w page.toNat = some (.hit, 0)) (he : s.enabled (pg .hit 0) = true) :
    exec (.enableWrite w page false) s = .next (s.blkStop .hit 0) := by
  show execEnableWrite w page false s = _
  simp [execEnableWrite, hp, State.enableWrite, he]

/-- What SOFT_RESET of the unit leaves: nothing held, no wait, and the state of the page disabled. -/
def State.hitOff (s : State) : State :=
  (if s.hitSoftReset.enabled (pg .hit 0) then s.hitSoftReset.blkStop .hit 0 else s.hitSoftReset).wr (pg .hit 0) HDR_EVT_RAW_RAW 0

theorem exec_softReset_hit (hp : s.pageFor w page.toNat = some (.hit, 0)) (en : Bool) :
    exec (.softReset w page en) s = .next s.hitOff := by
  show execSoftReset w page en s = _
  simp only [execSoftReset, hp]
  rfl

theorem State.hit_hitOff : s.hitOff.hit = ⟨[], []⟩ := by
  unfold State.hitOff
  split <;> rfl

/-- Of the words beyond the page's header, only the marks and what the waits read change. -/
theorem State.rd_hitOff {f : Fld} (hoff : 0x28 ≤ f.off) (hlo : f.lo < 29) :
    s.hitOff.rd (pg .hit 0) f = (s.abandonAll s.hit.held).rd (pg .hit 0) f := by
  have hreset : s.hitSoftReset.rd (pg .hit 0) f = (s.abandonAll s.hit.held).rd (pg .hit 0) f := by
    rw [State.hitSoftReset_eq]
    exact State.rd_waitsIdle hlo _
  have hstop : ∀ u : State, (u.blkStop .hit 0).rd (pg .hit 0) f = u.rd (pg .hit 0) f := fun u => by
    rw [State.blkStop_hit]
    exact (State.rd_waitsIdle (s := u.wb (pg .hit 0) HDR_CTRL_ENABLE false) hlo _).trans
      (State.rd_wr_same (by simp only [HDR_CTRL_ENABLE]; omega))
  unfold State.hitOff
  rw [State.rd_wr_same (by simp only [HDR_EVT_RAW_RAW]; omega)]
  split
  · rw [hstop, hreset]
  · exact hreset

end

/-- Settles O18: nothing is done while the unit is disabled; disabling it and SOFT_RESET clear what is held and the waits, and
SOFT_RESET sets the marks first. That clearing ENABLE does so is the model's choice (log entry 23). -/
theorem hitchUnitOff : Obligations.HitchUnitOff := by
  unfold Obligations.HitchUnitOff
  refine ⟨fun w n s hd => ⟨exec_hitTake_disabled hd, fun rel => exec_hitRelease_noEffect (.inr hd), fun slot tmo =>
    exec_hitWait_noEffect (.inr (.inl hd)), fun slot => ?_⟩, fun w page s hp => ⟨fun he => ?_, fun en => ?_⟩⟩
  · rw [exec_hitWaitCancel, if_neg (by simp [hd])]
  · refine ⟨_, exec_enableWrite_hitOff hp he, ?_, rfl, rfl⟩
    have hidle := State.rd_waitsIdle (s := s.wb (pg .hit 0) HDR_CTRL_ENABLE false) (f := HDR_CTRL_ENABLE) (by decide) s.hit.waits
    exact (congrArg (fun x => decide (x = 1)) hidle).trans (State.on_wb_false s _ _)
  · refine ⟨_, exec_softReset_hit hp en, by rw [State.hit_hitOff], by rw [State.hit_hitOff], fun n hn => ?_, fun slot => ?_⟩
    · have hrd := State.rd_hitOff (s := s) (f := HIT_ABAND_ABAND (n.val / 32)) (by simp only [HIT_ABAND_ABAND]; omega)
        (by simp [HIT_ABAND_ABAND])
      exact (congrArg (bit · (n.val % 32)) hrd).trans (State.abandoned_abandonAll (.inl hn))
    · exact (State.rd_hitOff (by simp only [HIT_EPOCH_EPOCH]; omega) (by simp [HIT_EPOCH_EPOCH])).trans
        (State.hitEpoch_abandonAll slot.isLt _)

end Sys2Proof.Machine
end

section
/-! PROOFS. Grants and responses of the fabric: what granting and denying a part leave of the waiting parts, the queues and the
requests in flight (R67 to R85). -/

set_option autoImplicit false

namespace Sys2Proof.Machine

/-! ### The requests in flight -/

/-- What of a request never changes while it is in flight. -/
def Req.ident (r : Req) : Nat × Nat × AccKind × Nat × Nat := (r.tag, r.master, r.kind, r.addr, r.len)

/-- The requests in flight, each by what never changes of it. -/
def State.inFlight (s : State) : List (Nat × Nat × AccKind × Nat × Nat) := s.fab.reqs.map Req.ident

/-- From `s` to `t` the parts stay where they are, and the same requests are in flight. -/
def onlyAnswers (s t : State) : Prop := t.fab = { s.fab with reqs := t.fab.reqs } ∧ t.inFlight = s.inFlight

theorem map_mapWhere {α β : Type} {g : α → β} {f : α → α} (h : ∀ a, g (f a) = g a) (p : α → Bool) (l : List α) :
    (mapWhere p f l).map g = l.map g := by
  unfold mapWhere
  rw [List.map_map]
  refine List.map_congr_left fun a _ => ?_
  rw [Function.comp_apply]
  split
  · exact h a
  · rfl

theorem onlyRegsEv.fab_eq {s t : State} {l : List Nat} {q : Nat} (h : onlyRegsEv l q s t) : t.fab = s.fab := by rw [h.1]

section
variable {s t u : State} (x : Part) (g : Nat)

theorem onlyAnswers.refl : onlyAnswers s s := ⟨rfl, rfl⟩

theorem onlyAnswers.of_fab_eq (h : t.fab = s.fab) : onlyAnswers s t := by
  unfold onlyAnswers State.inFlight
  rw [h]
  exact ⟨rfl, rfl⟩

theorem onlyAnswers.trans (h : onlyAnswers s t) (hu : onlyAnswers t u) : onlyAnswers s u := by
  obtain ⟨hfab, hids⟩ := h
  obtain ⟨hfab', hids'⟩ := hu
  refine ⟨?_, hids'.trans hids⟩
  rw [hfab', hfab]

theorem onlyAnswers.waiting_eq (h : onlyAnswers s t) : t.fab.waiting = s.fab.waiting := by rw [h.1]

theorem onlyAnswers.queued_eq (h : onlyAnswers s t) : t.fab.queued = s.fab.queued := by rw [h.1]

/-- Requests rewritten without touching what identifies them. -/
theorem onlyAnswers_mapWhere {f : Req → Req} (h : ∀ r, (f r).ident = r.ident) (p : Req → Bool) :
    onlyAnswers s { s with fab := { s.fab with reqs := mapWhere p f s.fab.reqs } } := ⟨rfl, map_mapWhere h p s.fab.reqs⟩

theorem onlyAnswers_answer (code detail : Nat) (data : List Nat) : onlyAnswers s (s.answer x code detail data) :=
  onlyAnswers_mapWhere (fun _ => by rfl) _

theorem onlyAnswers_noteDenial (region fault : Nat) : onlyAnswers s (s.noteDenial x g region fault) := by
  refine onlyAnswers_mapWhere (fun r => ?_) _
  split <;> rfl

theorem State.fab_guardViolate (m fid : Nat) (k : AccKind) (addr region fault parts gen : Nat) :
    (s.guardViolate g m fid k addr region fault parts gen).fab = s.fab := by
  unfold State.guardViolate
  dsimp only
  rw [(State.emit_onlyRegsEv (by rw [pg_grd]; omega)).fab_eq]
  split <;> rfl

/-- A request's last denial turns into a violation of its guard, which is no matter of the fabric. -/
theorem onlyAnswers_closeDenial : onlyAnswers s (s.closeDenial x g) := by
  unfold State.closeDenial
  split
  · exact .refl
  · split
    · exact .refl
    · split
      · exact .refl
      · refine onlyAnswers.trans ?_ (.of_fab_eq (State.fab_guardViolate ..))
        exact onlyAnswers_mapWhere (fun _ => by rfl) _

end

/-! ### A part granted (R68, R80, R82) -/

section
variable {s : State} {x : Part} {g : Nat}

/-- The part no longer waits, and `l` holds slots. -/
def State.leftWaiting (s : State) (x : Part) (l : List Part) : State :=
  { s with fab := { s.fab with waiting := dropPart s.fab.waiting x, queued := l } }

theorem State.grantPart_unguarded (hg : guardOf x.target = none) : s.grantPart x = s.leftWaiting x (s.fab.queued ++ [x]) := by
  simp only [State.grantPart, hg]
  rfl

theorem State.grantPart_permitted (hg : guardOf x.target = some g) (hj : s.guardJudge g x.kind x.master x.addr = none) :
    onlyAnswers (s.leftWaiting x (s.fab.queued ++ [{ x with gen := s.rd (pg .grd g) GRD_FENCE_GEN, lost := 0 }]))
      (s.grantPart x) := by
  have hj' : (s.leftWaiting x s.fab.queued).guardJudge g x.kind x.master x.addr = none := hj
  unfold State.leftWaiting at hj'
  simp only [State.grantPart, hg, hj']
  exact onlyAnswers_closeDenial _ _

theorem State.grantPart_denied {r f : Nat} (hg : guardOf x.target = some g)
    (hj : s.guardJudge g x.kind x.master x.addr = some (r, f)) : onlyAnswers (s.leftWaiting x s.fab.queued) (s.grantPart x) := by
  have hj' : (s.leftWaiting x s.fab.queued).guardJudge g x.kind x.master x.addr = some (r, f) := hj
  unfold State.leftWaiting at hj'
  simp only [State.grantPart, hg, hj']
  exact (onlyAnswers_noteDenial ..).trans ((onlyAnswers_answer ..).trans (onlyAnswers_closeDenial ..))

theorem State.inFlight_grantPart (s : State) (x : Part) : (s.grantPart x).inFlight = s.inFlight := by
  cases hg : guardOf x.target with
  | none =>
    rw [State.grantPart_unguarded hg]
    rfl
  | some g =>
    cases hj : s.guardJudge g x.kind x.master x.addr with
    | none => exact (State.grantPart_permitted hg hj).2
    | some d => exact (State.grantPart_denied hg hj).2

end

/-! ### The winner of a port (R74) -/

section
variable {s : State} {x : Part} {t : Nat} {c : List Part}

theorem mem_passable {cyc : Nat} {held : List Nat} {l : List Part} (h : x ∈ passable cyc held l) : x ∈ l := by
  induction l generalizing held with
  | nil => exact h
  | cons y l ih =>
    rw [passable] at h
    split at h
    · exact List.mem_cons_of_mem _ (ih h)
    · split at h
      · exact List.mem_cons_of_mem _ (ih h)
      · rcases List.mem_cons.1 h with rfl | h
        · exact List.mem_cons_self
        · exact List.mem_cons_of_mem _ (ih h)

theorem State.mem_readyParts (h : x ∈ s.readyParts t) : x ∈ s.fab.waiting := (List.mem_filter.1 (mem_passable h)).1

theorem State.arbWinner_mem (h : s.arbWinner t c = some x) : x ∈ c := by
  unfold State.arbWinner at h
  dsimp only at h
  split at h
  · exact (List.mem_filter.1 (List.mem_of_find?_eq_some h)).1
  · cases h

/-- The winner itself counts no lost decision, so it still waits as it was. -/
theorem State.mem_waiting_decisionDone (h : x ∈ s.fab.waiting) : x ∈ (s.decisionDone t c x).fab.waiting :=
  List.mem_map.2 ⟨x, h, by simp⟩

theorem State.length_waiting_decisionDone : (s.decisionDone t c x).fab.waiting.length = s.fab.waiting.length :=
  List.length_map _

/-- A part that waits leaves one fewer when it goes. -/
theorem State.length_leftWaiting {l : List Part} (h : x ∈ s.fab.waiting) :
    (s.leftWaiting x l).fab.waiting.length + 1 = s.fab.waiting.length := by
  have hlen : (s.fab.waiting.erase x).length = s.fab.waiting.length - 1 := List.length_erase_of_mem h
  have hpos := List.length_pos_of_mem h
  show (s.fab.waiting.erase x).length + 1 = _
  omega

end

/-! ### A slot granted (R68, R77) -/

section
variable {s : State} {t : Fin 16} {x : Part}

/-- The parts that arbitrate at a port. -/
def State.arbiters (s : State) (t : Nat) : List Part := (s.readyParts t).filter fun y => !y.emerg

theorem exec_slotGrant_emergency (h : s.emergPart t.val = some x) : exec (.slotGrant t) s = .next (s.grantPart x) := by
  show done (s.slotGrant t.val true) = _
  simp only [State.slotGrant, h]

variable (hu : s.unlocked = false) (he : s.emergPart t.val = none)
include hu he

theorem exec_slotGrant_none (h : s.portBlocked t.val = true ∨ slotsOf t.val ≤ s.slotsUsed t.val) :
    exec (.slotGrant t) s = .next s := by
  show done (s.slotGrant t.val true) = _
  simp only [State.slotGrant, he, State.perturb_locked s _ hu]
  split
  next => rfl
  next hw =>
    have hfull : slotsOf t.val ≤ s.slotsUsed t.val := h.resolve_left fun hb => by simp [hb] at hw
    simp [hfull]

theorem exec_slotGrant_winner (hb : s.portBlocked t.val = false) (hx : s.arbWinner t.val (s.arbiters t.val) = some x)
    (hf : s.slotsUsed t.val < slotsOf t.val) :
    exec (.slotGrant t) s = .next ((s.decisionDone t.val (s.arbiters t.val) x).grantPart x) := by
  unfold State.arbiters at hx ⊢
  show done (s.slotGrant t.val true) = _
  simp [State.slotGrant, he, State.perturb_locked s _ hu, hb, hx, Nat.not_le.2 hf]

end

/-! ### A response (R67, R71) -/

section
variable {s : State} {tag : Fin 1024}

theorem upToTag_eq_nil {k : Nat} {l : List Part} (h : ∀ x ∈ l, x.tag ≠ k) : upToTag k l = [] := by
  unfold upToTag
  rw [List.reverse_eq_nil_iff, List.dropWhile_eq_nil_iff]
  intro x hx
  simpa using h x (List.mem_reverse.1 hx)

/-- With no part of the request in the queues of targets 12 to 15, nothing is served before the response. -/
theorem exec_fabricResponse (h : ∀ x ∈ s.fab.queued, x.tag = tag.val → x.target < 12) :
    exec (.fabricResponse tag) s = .next (s.respond tag.val) := by
  have hnone : [12, 13, 14, 15].flatMap (fun t => upToTag tag.val (atTarget s.fab.queued t)) = [] :=
    List.flatMap_eq_nil_iff.2 fun t ht => upToTag_eq_nil fun x hx htag => by
      obtain ⟨hq, rfl⟩ := mem_atTarget.1 hx
      have := h x hq htag
      simp only [List.mem_cons, List.not_mem_nil, or_false] at ht
      omega
  show execFabricResponse tag s = _
  unfold execFabricResponse
  dsimp only
  rw [hnone]
  rfl

end

/-- Settles O13: an emergency part goes first, then the port's winner as its guard judges; a request's last answer lets it
respond. -/
theorem slotsAndResponses : Obligations.SlotsAndResponses := by
  unfold Obligations.SlotsAndResponses
  refine ⟨⟨fun t s x h => exec_slotGrant_emergency h, fun t s hu he h => exec_slotGrant_none hu he h, fun t s x => ?_⟩,
    fun tag s hq => ⟨fun hn => ?_, fun r hr => ⟨fun hl => ?_, fun hl => ⟨fun hc => ?_, fun hc => ?_⟩⟩⟩⟩
  · intro here hu he hb hx hf
    have hexec := exec_slotGrant_winner hu he hb hx hf
    have hwait : x ∈ s.fab.waiting := State.mem_readyParts (List.mem_filter.1 (State.arbWinner_mem hx)).1
    have hlen : ∀ l, ((s.decisionDone t.val (s.arbiters t.val) x).leftWaiting x l).fab.waiting.length + 1 =
        s.fab.waiting.length := fun l =>
      (State.length_leftWaiting (State.mem_waiting_decisionDone hwait)).trans State.length_waiting_decisionDone
    refine ⟨fun hg => ⟨_, hexec.trans (congrArg _ (State.grantPart_unguarded hg)), rfl, hlen _⟩, fun g hg =>
      ⟨fun hj => ⟨_, hexec, ?_⟩, fun r f hj => ⟨_, hexec, ?_⟩⟩⟩
    · have h := State.grantPart_permitted (s := s.decisionDone t.val (s.arbiters t.val) x) hg hj
      exact ⟨h.queued_eq, (congrArg (List.length · + 1) h.waiting_eq).trans (hlen _)⟩
    · have h := State.grantPart_denied (s := s.decisionDone t.val (s.arbiters t.val) x) hg hj
      exact ⟨h.queued_eq, (congrArg (List.length · + 1) h.waiting_eq).trans (hlen _)⟩
  · rw [exec_fabricResponse hq, State.respond, hn]
  · rw [exec_fabricResponse hq, State.respond, hr]
    exact congrArg _ (if_pos hl)
  · rw [exec_fabricResponse hq, State.respond, hr]
    exact congrArg _ ((if_neg (by simp [hl])).trans (if_pos hc))
  · rw [exec_fabricResponse hq, State.respond, hr]
    exact congrArg _ ((if_neg (by simp [hl])).trans (if_neg hc))

end Sys2Proof.Machine
end

section
/-! PROOFS. Requests of the fabric and of the debug port: the tag taken, the parts placed, the grants of parked ports (R63,
R67, R70, R72, R77, R78, R484). -/

set_option autoImplicit false

namespace Sys2Proof.Machine

/-! ### A part arrives at its target port (R70, R72) -/

/-- Where an address goes is a matter of registers: neither what is in flight nor what the check-value units have seen counts. -/
theorem State.route_congr {s t : State} {f : FabSt} {c : Store CvuSt} (h : t = { s with fab := f, cvus := c }) (m a : Nat) :
    t.route m a = s.route m a := by
  have hrd : t.rd = s.rd := by rw [h]; rfl
  have hon : t.on = s.on := by rw [h]; rfl
  have hdec : t.regDecoded = s.regDecoded := by rw [h]; rfl
  have hend : t.dramEnd = s.dramEnd := by rw [h]; rfl
  have hchan : t.chanOf = s.chanOf := by rw [h]; rfl
  have hbank : t.bankFenced = s.bankFenced := by rw [h]; rfl
  have hsize : t.baySize = s.baySize := by rw [h]; rfl
  have haddr : t.bayAddr = s.bayAddr := by rw [h]; rfl
  have htag : t.bayTag = s.bayTag := by rw [h]; rfl
  unfold State.route
  rw [hrd, hon, hdec, hend, hchan, hbank, hsize, haddr, htag]

section
variable {s : State} (deny : Bool) (x : Part)

/-- A part as it waits at its target in a locked device, where nothing holds it. -/
def State.routed (s : State) (deny : Bool) (x : Part) : Part :=
  let r := if deny then (15, x.addr, none) else s.route x.master x.addr
  { x with target := r.1, addr := r.2.1, mtag := if x.mtag.isSome then x.mtag else r.2.2, holdTo := 0 }

theorem State.routed_spec {x : Part} {j a : Nat} {tg : Option Tag} (h : s.route x.master x.addr = (j, a, tg)) :
    (s.routed false x).target = j ∧ (s.routed false x).addr = a := ⟨congrArg Prod.fst h, congrArg (·.2.1) h⟩

theorem State.placePart_locked (hu : s.unlocked = false) :
    s.placePart deny x = { s with fab := { s.fab with waiting := s.fab.waiting ++ [s.routed deny x] } } := by
  simp only [State.placePart, State.perturb_locked s _ hu, State.routed, Bool.false_eq_true, if_false]

/-- The only part of a request that is not split. -/
def wholePart (base : Part) (addr len : Nat) (data : List Nat) : Part :=
  { base with addr := addr, len := len, off := addr - addr, data := (data.drop (addr - addr)).take len }

theorem State.placeParts_whole (hu : s.unlocked = false) (base : Part) (addr len : Nat) (data : List Nat) :
    s.placeParts deny base addr data [(addr, len)] =
      { s with fab := { s.fab with waiting := s.fab.waiting ++ [s.routed deny (wholePart base addr len data)] } } :=
  State.placePart_locked deny _ hu

theorem State.fab_perturb (p kind : Nat) (sel : Option Nat) : (s.perturb p kind sel).2.fab = s.fab := by
  have hite : ∀ (c : Bool) (a b : Bool × State), a.2.fab = s.fab → b.2.fab = s.fab → (if c then a else b).2.fab = s.fab := by
    intro c a b ha hb
    cases c
    · exact hb
    · exact ha
  unfold State.perturb
  exact hite _ _ _ (hite _ _ _ ((apply_ite State.fab _ _ _).trans (ite_self s.fab)) rfl) rfl

theorem State.inFlight_placePart : (s.placePart deny x).inFlight = s.inFlight := by
  unfold State.placePart State.inFlight
  dsimp only
  rw [State.fab_perturb]

theorem State.inFlight_placeParts (base : Part) (addr : Nat) (data : List Nat) (l : List (Nat × Nat)) :
    (s.placeParts deny base addr data l).inFlight = s.inFlight := by
  induction l generalizing s with
  | nil => rfl
  | cons y l ih => exact ih.trans (State.inFlight_placePart deny _)

end

/-! ### Ports parked on the requesting master (R78) -/

section
variable {s : State} {tag : Nat} {idle : List Nat}

/-- A part at a port parked on its master is granted, where the port is free to. -/
def State.parkStep (s : State) (x : Part) : State :=
  if s.parkedOn x.target x.master && !s.portBlocked x.target && s.slotFree x then s.grantPart x else s

/-- The parts that a parked port may grant at once. -/
def State.parkable (s : State) (tag : Nat) (idle : List Nat) : List Part :=
  s.fab.waiting.filter fun x => decide (x.tag = tag) && idle.contains x.target && decide (x.holdTo ≤ s.time.cyc)

theorem State.parkGrant_eq : s.parkGrant tag idle = (s.parkable tag idle).foldl State.parkStep s := rfl

theorem State.mem_parkable {x : Part} (h : x ∈ s.parkable tag idle) : x ∈ s.fab.waiting ∧ idle.contains x.target = true := by
  obtain ⟨hmem, hpass⟩ := List.mem_filter.1 h
  simp only [Bool.and_eq_true] at hpass
  obtain ⟨⟨-, hidle⟩, -⟩ := hpass
  exact ⟨hmem, hidle⟩

theorem State.inFlight_parkGrant : (s.parkGrant tag idle).inFlight = s.inFlight := by
  have hstep : ∀ (l : List Part) (u : State), (l.foldl State.parkStep u).inFlight = u.inFlight := by
    intro l
    induction l with
    | nil => exact fun u => rfl
    | cons x l ih =>
      intro u
      refine (ih _).trans ?_
      unfold State.parkStep
      split
      · exact u.inFlight_grantPart x
      · rfl
  rw [State.parkGrant_eq]
  exact hstep _ s

/-- With no idle port parked on its master, nothing is granted at once. -/
theorem State.parkGrant_unparked (h : ∀ x ∈ s.parkable tag idle, s.parkedOn x.target x.master = false) :
    s.parkGrant tag idle = s := by
  have hfix : ∀ l : List Part, (∀ x ∈ l, s.parkedOn x.target x.master = false) → l.foldl State.parkStep s = s := by
    intro l hl
    induction l with
    | nil => rfl
    | cons x l ih =>
      have hstep : s.parkStep x = s := by simp [State.parkStep, hl x List.mem_cons_self]
      rw [List.foldl_cons, hstep, ih fun y hy => hl y (List.mem_cons_of_mem _ hy)]
  rw [State.parkGrant_eq]
  exact hfix _ h

end

/-! ### Issuing (R63, R67) -/

section
variable {s : State} {deny emerg : Bool} {m fid addr len g : Nat} {k : AccKind} {data : List Nat} {tag : Option Tag}

/-- The parts of a request: an atomic is one. -/
def reqParts (k : AccKind) (addr len : Nat) : List (Nat × Nat) := if k = .atomic then [(addr, len)] else fabricPieces addr len

/-- The ports at which no part waits. -/
def State.idlePorts (s : State) : List Nat := (upTo 16).filter fun g => s.fab.waiting.all fun x => decide (x.target ≠ g)

/-- A request with no part answered yet. -/
def newReq (g m fid : Nat) (k : AccKind) (addr len : Nat) : Req :=
  ⟨g, m, fid, k, addr, len, (reqParts k addr len).length, 0, 0, List.replicate len 0, []⟩

/-- The request is outstanding under tag `g`; the check-value units that take a write have seen it. -/
def State.opened (s : State) (g m fid : Nat) (k : AccKind) (addr len : Nat) (data : List Nat) : State :=
  let s := { s with fab := { s.fab with reqs := s.fab.reqs ++ [newReq g m fid k addr len] } }
  if k = .write then s.cvuSnoop m addr (padTo len data) else s

/-- What its parts have in common. -/
def partOf (g m fid : Nat) (k : AccKind) (addr len : Nat) (tag : Option Tag) (emerg : Bool) : Part :=
  ⟨g, m, fid, k, addr, len, 0, [], tag, 15, 0, 0, 0, 0, none, emerg⟩

theorem State.fabricIssueAt_nothing (h : s.mayIssue m = false ∨ reqShape k addr len = false ∨ s.freeTag = none) :
    s.fabricIssueAt deny m fid k addr len data tag emerg = s := by
  have hnone : (if s.mayIssue m && reqShape k addr len then s.freeTag else none) = none := by
    rcases h with h | h | h <;> simp [h]
  simp only [State.fabricIssueAt, hnone]

theorem State.fabricIssueAt_tagged (hm : s.mayIssue m = true) (hr : reqShape k addr len = true) (hg : s.freeTag = some g) :
    s.fabricIssueAt deny m fid k addr len data tag emerg =
      ((s.opened g m fid k addr len data).placeParts deny (partOf g m fid k addr len tag emerg) addr (padTo len data)
        (reqParts k addr len)).parkGrant g s.idlePorts := by
  simp only [State.fabricIssueAt, hm, hr, hg, Bool.and_self, if_true]
  rfl

theorem foldl_cvus {step : State → Nat → State} (h : ∀ u x, ∃ c, step u x = { u with cvus := c }) (l : List Nat) (s : State) :
    ∃ c, l.foldl step s = { s with cvus := c } := by
  induction l generalizing s with
  | nil => exact ⟨s.cvus, rfl⟩
  | cons x l ih =>
    obtain ⟨c, hc⟩ := h s x
    obtain ⟨c', hc'⟩ := ih (step s x)
    rw [List.foldl_cons, hc', hc]
    exact ⟨c', rfl⟩

theorem State.cvuSnoop_cvus (s : State) (m a : Nat) (data : List Nat) : ∃ c, s.cvuSnoop m a data = { s with cvus := c } :=
  foldl_cvus (fun _ _ => ⟨_, rfl⟩) _ s

/-- A tag taken changes the requests in flight and what the check-value units have seen. -/
theorem State.opened_eq (s : State) (g m fid : Nat) (k : AccKind) (addr len : Nat) (data : List Nat) :
    ∃ c, s.opened g m fid k addr len data =
      { s with fab := { s.fab with reqs := s.fab.reqs ++ [newReq g m fid k addr len] }, cvus := c } := by
  unfold State.opened
  dsimp only
  split
  · exact State.cvuSnoop_cvus _ _ _ _
  · exact ⟨s.cvus, rfl⟩

/-- A request that takes a tag is outstanding under it. -/
theorem State.outstanding_fabricIssueAt (hm : s.mayIssue m = true) (hr : reqShape k addr len = true)
    (hg : s.freeTag = some g) : ∃ r ∈ (s.fabricIssueAt deny m fid k addr len data tag emerg).fab.reqs,
      r.tag = g ∧ r.master = m ∧ r.kind = k ∧ r.addr = addr ∧ r.len = len := by
  obtain ⟨c, hopen⟩ := s.opened_eq g m fid k addr len data
  have hmem : (g, m, k, addr, len) ∈ (s.fabricIssueAt deny m fid k addr len data tag emerg).inFlight := by
    rw [State.fabricIssueAt_tagged hm hr hg, State.inFlight_parkGrant, State.inFlight_placeParts, hopen]
    exact List.mem_map.2 ⟨_, List.mem_append_right _ List.mem_cons_self, rfl⟩
  obtain ⟨q, hq, hident⟩ := List.mem_map.1 hmem
  simp only [Req.ident, Prod.mk.injEq] at hident
  exact ⟨q, hq, hident⟩

theorem State.not_idle {y : Part} (hy : y ∈ s.fab.waiting) : s.idlePorts.contains y.target = false := by
  rw [Bool.eq_false_iff]
  intro h
  have hall := (List.mem_filter.1 (List.contains_iff_mem.1 h)).2
  simpa using List.all_eq_true.1 hall y hy

/-- In a locked device a request of one part waits at the target of its address, unless that port grants it at once. -/
theorem State.fabricIssue_onePart {j a : Nat} {tg : Option Tag} (hm : s.mayIssue m = true) (hr : reqShape k addr len = true)
    (hg : s.freeTag = some g) (hone : reqParts k addr len = [(addr, len)]) (hu : s.unlocked = false)
    (hroute : s.route m addr = (j, a, tg)) (hpark : s.parkedOn j m = false ∨ ∃ y ∈ s.fab.waiting, y.target = j) :
    ∃ y, (s.fabricIssue m fid k addr len data tag emerg).fab.waiting = s.fab.waiting ++ [y] ∧ y.tag = g ∧ y.master = m ∧
      y.target = j ∧ y.addr = a ∧ y.len = len ∧ y.kind = k ∧
      (s.fabricIssue m fid k addr len data tag emerg).fab.queued = s.fab.queued := by
  obtain ⟨c, hopen⟩ := s.opened_eq g m fid k addr len data
  have hroute' := (State.route_congr hopen m addr).trans hroute
  have hu' : (s.opened g m fid k addr len data).unlocked = false := by
    rw [hopen]
    exact hu
  have hwaiting : (s.opened g m fid k addr len data).fab.waiting = s.fab.waiting := by rw [hopen]
  have hparked : (s.opened g m fid k addr len data).parkedOn j m = s.parkedOn j m := by
    rw [hopen]
    rfl
  have hqueued : (s.opened g m fid k addr len data).fab.queued = s.fab.queued := by rw [hopen]
  unfold State.fabricIssue
  rw [State.fabricIssueAt_tagged hm hr hg, hone, State.placeParts_whole false hu']
  generalize s.opened g m fid k addr len data = u at hroute' hwaiting hparked hqueued
  obtain ⟨htarget, haddr⟩ := State.routed_spec (x := wholePart (partOf g m fid k addr len tag emerg) addr len (padTo len data))
    hroute'
  rw [State.parkGrant_unparked fun z hz => ?_]
  · exact ⟨_, congrArg (· ++ [_]) hwaiting, rfl, rfl, htarget, haddr, rfl, rfl, hqueued⟩
  · obtain ⟨hmem, hidle⟩ := State.mem_parkable hz
    rcases List.mem_append.1 hmem with hold | hnew
    · rw [hwaiting] at hold
      exact absurd ((State.not_idle hold).symm.trans hidle) Bool.false_ne_true
    · rw [List.mem_singleton.1 hnew, htarget] at hidle ⊢
      rcases hpark with hoff | ⟨z', hz', htz⟩
      · exact hparked.trans hoff
      · exact absurd ((State.not_idle hz').symm.trans (htz ▸ hidle)) Bool.false_ne_true

end

/-! ### The locked debug port (R484, R72) -/

/-- From `s` to `t` only the fabric and the check-value units' view of it change, and parts come to wait or to hold slots at the
default target alone. -/
def onlyDefault (s t : State) : Prop :=
  t = { s with fab := t.fab, cvus := t.cvus } ∧ (∀ y ∈ t.fab.waiting, y ∈ s.fab.waiting ∨ y.target = 15) ∧
    ∀ y ∈ t.fab.queued, y ∈ s.fab.queued ∨ y.target = 15

section
variable {s t : State} {x : Part}

theorem onlyDefault_opened (g m fid : Nat) (k : AccKind) (addr len : Nat) (data : List Nat) :
    onlyDefault s (s.opened g m fid k addr len data) := by
  obtain ⟨c, hopen⟩ := s.opened_eq g m fid k addr len data
  rw [hopen]
  exact ⟨rfl, fun y => .inl, fun y => .inl⟩

theorem onlyDefault.unlocked_eq (h : onlyDefault s t) : t.unlocked = s.unlocked := by
  rw [h.1]
  rfl

theorem onlyDefault.withFab {f : FabSt} (h : onlyDefault s t) (hwait : ∀ y ∈ f.waiting, y ∈ s.fab.waiting ∨ y.target = 15)
    (hqueue : ∀ y ∈ f.queued, y ∈ s.fab.queued ∨ y.target = 15) : onlyDefault s { t with fab := f } := by
  refine ⟨?_, hwait, hqueue⟩
  rw [h.1]

theorem onlyDefault_placePart (hu : s.unlocked = false) (h : onlyDefault s t) : onlyDefault s (t.placePart true x) := by
  rw [State.placePart_locked true x (h.unlocked_eq.trans hu)]
  refine h.withFab (fun y hy => ?_) h.2.2
  rcases List.mem_append.1 hy with hy | hy
  · exact h.2.1 y hy
  · rw [List.mem_singleton.1 hy]
    exact .inr rfl

theorem onlyDefault_placeParts (hu : s.unlocked = false) (base : Part) (addr : Nat) (data : List Nat) (l : List (Nat × Nat))
    (h : onlyDefault s t) : onlyDefault s (t.placeParts true base addr data l) := by
  induction l generalizing t with
  | nil => exact h
  | cons y l ih => exact ih (onlyDefault_placePart hu h)

/-- The default target has no guard: a parked grant moves the part to its queue. -/
theorem onlyDefault_parkStep (hx : x.target = 15) (h : onlyDefault s t) : onlyDefault s (t.parkStep x) := by
  have hg : guardOf x.target = none := by rw [hx]; rfl
  unfold State.parkStep
  split
  · rw [State.grantPart_unguarded hg]
    refine h.withFab (fun y hy => h.2.1 y (List.mem_of_mem_erase hy)) fun y hy => ?_
    rcases List.mem_append.1 hy with hy | hy
    · exact h.2.2 y hy
    · rw [List.mem_singleton.1 hy]
      exact .inr hx
  · exact h

theorem onlyDefault_parkGrant {g : Nat} (h : onlyDefault s t) : onlyDefault s (t.parkGrant g s.idlePorts) := by
  have hfold : ∀ l : List Part, (∀ x ∈ l, x.target = 15) → ∀ u, onlyDefault s u → onlyDefault s (l.foldl State.parkStep u) := by
    intro l
    induction l with
    | nil => exact fun _ u hu => hu
    | cons x l ih =>
      intro hl u hu
      exact ih (fun y hy => hl y (List.mem_cons_of_mem _ hy)) _ (onlyDefault_parkStep (hl x List.mem_cons_self) hu)
  rw [State.parkGrant_eq]
  refine hfold _ (fun x hx => ?_) t h
  obtain ⟨hmem, hidle⟩ := State.mem_parkable hx
  refine (h.2.1 x hmem).resolve_left fun hold => ?_
  exact Bool.false_ne_true ((State.not_idle hold).symm.trans hidle)

/-- A request kept from every target but the default one. -/
theorem onlyDefault_fabricIssueAt (hu : s.unlocked = false) (m fid : Nat) (k : AccKind) (addr len : Nat) (data : List Nat)
    (tag : Option Tag) (emerg : Bool) : onlyDefault s (s.fabricIssueAt true m fid k addr len data tag emerg) := by
  by_cases hi : s.mayIssue m = false ∨ reqShape k addr len = false ∨ s.freeTag = none
  · rw [State.fabricIssueAt_nothing hi]
    exact ⟨rfl, fun y => .inl, fun y => .inl⟩
  · simp only [not_or, Bool.not_eq_false] at hi
    obtain ⟨hm, hr, hf⟩ := hi
    obtain ⟨g, hg⟩ := Option.ne_none_iff_exists'.1 hf
    rw [State.fabricIssueAt_tagged hm hr hg]
    exact onlyDefault_parkGrant (onlyDefault_placeParts hu _ _ _ _ (onlyDefault_opened ..))

end

/-! ### The commands -/

section
variable {k : AccKind} {addr : BitVec 40} {len : Nat} {data : List Nat} {s : State}

theorem exec_fabricRequest (m : Fin 32) (fid : BitVec 16) (tag : Option Tag) : exec (.fabricRequest m fid k addr len data tag) s =
    .next (s.fabricIssue m.val fid.toNat k addr.toNat len data tag false) := rfl

/-- The reads that the locked debug port may make (R484): of SYS_ID, TST_CHAL and TST_UNLOCK. -/
def debugReads (k : AccKind) (addr : BitVec 40) (len : Nat) : Prop :=
  k = .read ∧ len = 4 ∧ (addr.toNat = 0 ∨ addr.toNat = 0xC100 ∨ addr.toNat = 0xC104)

theorem exec_debugRequest_unlocked (hu : s.unlocked = true) : exec (.debugRequest k addr len data) s =
    .next (s.fabricIssue 31 0x1C00 k addr.toNat len data none (s.on tstP TST_DBG_EMERG)) :=
  congrArg _ (if_pos hu)

theorem exec_debugRequest_reads (hu : s.unlocked = false) (h : debugReads k addr len) : exec (.debugRequest k addr len data) s =
    .next (s.fabricIssue 31 0x1C00 k addr.toNat len data none false) :=
  congrArg _ ((if_neg (by simp [hu])).trans (if_pos h))

theorem exec_debugRequest_denied (hu : s.unlocked = false) (h : ¬ debugReads k addr len) :
    exec (.debugRequest k addr len data) s = .next (s.fabricIssueAt true 31 0x1C00 k addr.toNat len data none false) :=
  congrArg _ ((if_neg (by simp [hu])).trans (if_neg h))

/-- Locked or not, a debug request is one of master 31 that the fabric issues. -/
theorem exec_debugRequest_issues : ∃ deny emerg, exec (.debugRequest k addr len data) s =
    .next (s.fabricIssueAt deny 31 0x1C00 k addr.toNat len data none emerg) := by
  cases hu : s.unlocked
  · by_cases h : debugReads k addr len
    · exact ⟨_, _, exec_debugRequest_reads hu h⟩
    · exact ⟨_, _, exec_debugRequest_denied hu h⟩
  · exact ⟨_, _, exec_debugRequest_unlocked hu⟩

end

/-- Settles O12: a request with a tag is outstanding, through the placing of its parts and any grant of a parked port; the locked
debug port's parts have the default target alone. -/
theorem fabricRequests : Obligations.FabricRequests := by
  unfold Obligations.FabricRequests
  refine ⟨fun m fid k addr len data tag s => ⟨fun h => ?_, fun g hm hr hg => ⟨⟨_, exec_fabricRequest m fid tag, ?_⟩,
    fun j a tg hone hu hroute hpark => ⟨_, exec_fabricRequest m fid tag, ?_⟩⟩⟩, fun k addr len data s => ⟨fun g hm hr hg => ?_,
    fun hu he => ?_, fun hu h => ?_, fun hu h => ⟨_, exec_debugRequest_denied hu h, ?_⟩⟩⟩
  · exact (exec_fabricRequest m fid tag).trans (congrArg _ (State.fabricIssueAt_nothing h))
  · exact State.outstanding_fabricIssueAt hm hr hg
  · have hparts : reqParts k addr.toNat len = [(addr.toNat, len)] := by
      unfold reqParts
      split
      · rfl
      next hk => exact hone.resolve_left hk
    exact State.fabricIssue_onePart hm hr hg hparts hu hroute hpark
  · obtain ⟨deny, emerg, hexec⟩ := exec_debugRequest_issues (k := k) (addr := addr) (len := len) (data := data) (s := s)
    exact ⟨_, hexec, State.outstanding_fabricIssueAt hm hr hg⟩
  · rw [exec_debugRequest_unlocked hu, he]
    rfl
  · rw [exec_debugRequest_reads hu h]
    rfl
  · obtain ⟨hrest, hwait, hqueue⟩ := onlyDefault_fabricIssueAt hu 31 0x1C00 k addr.toNat len data none false
    refine ⟨fun y hy => ?_, ?_⟩
    · rcases List.mem_append.1 hy with hy | hy
      · exact (hwait y hy).imp_left (List.mem_append_left _)
      · exact (hqueue y hy).imp_left (List.mem_append_right _)
    · rw [hrest]
      exact ⟨rfl, rfl, rfl, rfl, rfl⟩

end Sys2Proof.Machine
end

section
/-! PROOFS. Tokens of the DRAM controllers (R113, R114, R122). -/

set_option autoImplicit false

namespace Sys2Proof.Machine

/-! ### Tokens taken (R113, R122) -/

section
variable {s : State} {n : Fin 8}

theorem exec_dmcTokenTake_inactive (h : s.rd (pg .dmc n.val) DMC_PM_STATE ≠ 0) : exec (.dmcTokenTake n) s = .next s :=
  congrArg _ (if_pos h)

/-- The part has left the queue of its controller and is served, from now on. -/
def State.partServed (s : State) (x : Part) : State :=
  { s with fab := { s.fab with queued := dropPart s.fab.queued x
                               serving := s.fab.serving ++ [{ x with stamp := s.time.cyc, lat := none }] } }

theorem exec_dmcTokenTake_next {x : Part} (h : s.rd (pg .dmc n.val) DMC_PM_STATE = 0) (hu : s.unlocked = false)
    (hx : s.tokenNext n.val = some x) : exec (.dmcTokenTake n) s =
    .next (((s.partServed x).inc (pg .dmc n.val) (DMC_TOK_HELD x.master) 1).wr (pg .dmc n.val) DMC_TOKFREE_FREE
      (s.rd (pg .dmc n.val) DMC_TOKFREE_FREE - 1)) := by
  show execDmcTokenTake n s = _
  simp only [execDmcTokenTake, State.tokenTake, h, hx, State.perturb_locked s _ hu, ne_eq, not_true_eq_false, if_false]
  rfl

/-- With the pool empty, a master whose reserve is not above what it holds takes nothing. -/
theorem State.canTake_eq_false {m : Nat}
    (hm : s.rd (pg .dmc n.val) (DMC_TOK_RESERVE m) ≤ s.rd (pg .dmc n.val) (DMC_TOK_HELD m)) (hp : s.poolFree n.val = 0) :
    s.canTake n.val m = false := by
  simp [State.canTake, hp, hm]

theorem exec_dmcTokenTake_none (h : s.tokenNext n.val = none) : exec (.dmcTokenTake n) s = .next s := by
  refine congrArg _ (ite_eq_left_iff.2 fun _ => ?_)
  rw [h]

end

/-! ### Reserves (R114) -/

/-- The sum of the reserves of a controller. -/
def State.reserveSum (s : State) (n : Nat) : Nat := (upTo 32).foldl (fun t i => t + s.rd (pg .dmc n) (DMC_TOK_RESERVE i)) 0

/-- The write raises the reserve, and with it the sum of the reserves above 112. -/
def State.overReserves (s : State) (n m new : Nat) : Prop :=
  s.rd (pg .dmc n) (DMC_TOK_RESERVE m) < new ∧ 112 < s.reserveSum n - s.rd (pg .dmc n) (DMC_TOK_RESERVE m) + new

section
variable {s : State} {n : Fin 8} {m : Fin 32} {v : Word} (w : Writer)

theorem exec_dmcTokWrite_taken (h : ¬ s.overReserves n.val m.val (v.toNat % 2 ^ 7)) :
    exec (.dmcTokWrite w n m v) s = .next (s.wr (pg .dmc n.val) (DMC_TOK_RESERVE m.val) (v.toNat % 2 ^ 7)) :=
  congrArg _ (if_neg h)

theorem exec_dmcTokWrite_refused (h : s.overReserves n.val m.val (v.toNat % 2 ^ 7)) :
    exec (.dmcTokWrite w n m v) s = .next s :=
  congrArg _ (if_pos h)

end

/-- Settles O19: HELD and FREE are different fields, so the token counted off FREE leaves HELD one higher; with the pool empty and no
reserve above HELD, no part is found that could take one. -/
theorem dmcTokens : Obligations.DmcTokens := by
  unfold Obligations.DmcTokens
  refine fun w n s => ⟨exec_dmcTokenTake_inactive, fun x h hu hx => ?_, fun hr hp => ?_,
    fun m v => ⟨fun h => ?_, fun hold hsum => ?_⟩⟩
  · refine ⟨_, exec_dmcTokenTake_next h hu hx, rfl, rfl, ?_⟩
    rw [State.rd_wr_same (by simp only [DMC_TOK_HELD, DMC_TOKFREE_FREE]; omega), State.inc_eq, State.rd_wr_self]
    rfl
  · refine exec_dmcTokenTake_none (List.find?_eq_none.2 fun x hx => ?_)
    simp [State.canTake_eq_false (hr x hx) hp]
  · refine exec_dmcTokWrite_taken w fun ⟨hold, hsum⟩ => ?_
    exact h.elim (Nat.not_le.2 hold) (Nat.not_le.2 hsum)
  · exact exec_dmcTokWrite_refused w ⟨hold, hsum⟩

end Sys2Proof.Machine
end

section
/-! PROOFS. The loft: its ports, its scrubber and its partition entries (R128 to R131, R489). -/

set_option autoImplicit false

namespace Sys2Proof.Machine

theorem pg_loft_above : 0xF000 ≤ pg .loft 0 := by decide

/-! ### Accesses to the loft leave the fabric alone (R129) -/

section
variable (s : State)

theorem State.fab_emit_above {q : Nat} (hq : 0xF000 ≤ q) (code : Nat) (data : List Nat) : (s.emit q code data).fab = s.fab :=
  (State.emit_onlyRegsEv hq).fab_eq

theorem State.fab_emitLimited {q : Nat} (hq : 0xF000 ≤ q) (key ms code : Nat) (data : List Nat) :
    (s.emitLimited q key ms code data).fab = s.fab := by
  obtain he | ⟨e, he⟩ := s.emitLimited_cases q key ms code data
  · rw [he]
  · rw [he, State.fab_emit_above _ hq]

@[simp] theorem State.fab_loftPut (off : Nat) (b : List Nat) : (s.loftPut off b).fab = s.fab := by
  rw [(s.loftPut_spec off b).1]

theorem State.fab_loftCapture (kind wd master syn : Nat) : (s.loftCapture kind wd master syn).fab = s.fab := by
  unfold State.loftCapture
  dsimp only
  split <;> rfl

theorem State.fab_loftWord (master wd : Nat) : (s.loftWord master wd).2.fab = s.fab := by
  unfold State.loftWord
  dsimp only
  split
  · rfl
  · split
    · exact (State.fab_emitLimited _ pg_loft_above _ _ _ _).trans (State.fab_loftCapture _ _ _ _ _)
    · exact (State.fab_emit_above _ pg_loft_above _ _).trans (State.fab_loftCapture _ _ _ _ _)

@[simp] theorem State.fab_loftWords (master : Nat) (l : List Nat) : (s.loftWords master l).2.fab = s.fab := by
  induction l generalizing s with
  | nil => rfl
  | cons wd t ih => exact (ih _).trans (s.fab_loftWord master wd)

theorem State.fab_loftPerform (x : Part) : (s.loftPerform x).2.2.fab = s.fab := by
  unfold State.loftPerform
  dsimp only
  split <;> split <;> simp only [State.fab_loftPut, State.fab_loftWords]

end

/-! ### Parts performed a stretch of enabled bytes at a time (R39) -/

section
variable {f : State → Part → Nat × Nat × List Nat × State} (s : State) (x : Part)

/-- What each stretch leaves alone, the whole part does. -/
theorem State.perRuns_leaves {α : Type} {g : State → α} (hf : ∀ u y, g (f u y).2.2.2 = g u) :
    g (s.perRuns f x).2.2.2 = g s := by
  unfold State.perRuns
  split
  · exact hf _ _
  · exact List.foldlRecOn (motive := fun q : Nat × Nat × List Nat × State => g q.2.2.2 = g s) _ _ rfl
      fun _ hq _ _ => (hf _ _).trans hq

theorem Part.runs_enabled {x : Part} (h : ∀ b ∈ x.data, b < 256) : x.runs = [x] :=
  if_pos (List.all_eq_true.2 fun b hb => decide_eq_true (h b hb))

theorem State.perRuns_enabled {x : Part} (h : ∀ b ∈ x.data, b < 256) : s.perRuns f x = f s x := by
  unfold State.perRuns
  rw [Part.runs_enabled h]

end

/-! ### Ports (R128, R129) -/

section
variable {s : State} {port : Fin 4} {x : Part}

theorem exec_loftServe {l : List Part} (h : atTarget s.fab.queued (8 + port.val) = x :: l) :
    exec (.loftServe port) s = .next (s.loftServe x) := by
  show execLoftServe port s = _
  simp only [execLoftServe, h]

/-- One stretch of a part at the loft, in the shape of `State.perRuns`: the loft's answers carry no detail. -/
def State.loftRun (s : State) (x : Part) : Nat × Nat × List Nat × State :=
  ((s.loftPerform x).1, 0, (s.loftPerform x).2.1, (s.loftPerform x).2.2)

/-- The state once the part has left its queue. -/
def State.loftTaken (s : State) (x : Part) : State := { s with fab := { s.fab with queued := dropPart s.fab.queued x } }

theorem State.loftServe_eq : s.loftServe x =
    ((s.loftTaken x).perRuns State.loftRun x).2.2.2.answer x ((s.loftTaken x).perRuns State.loftRun x).1 0
      ((s.loftTaken x).perRuns State.loftRun x).2.2.1 := rfl

theorem State.queued_loftServe : (s.loftServe x).fab.queued = dropPart s.fab.queued x := by
  rw [State.loftServe_eq, (onlyAnswers_answer x _ _ _).queued_eq,
    State.perRuns_leaves (g := State.fab) _ _ fun u y => u.fab_loftPerform y]
  rfl

end

/-! ### Whole words (R129) -/

section
variable {s : State} {x : Part} {off len : Nat}

/-- Each word of an area that begins and ends at word boundaries lies in it. -/
theorem mem_wordsOf_aligned {wd : Nat} (ho : off % 8 = 0) (hl : len % 8 = 0) (h : wd ∈ wordsOf off len) :
    off ≤ wd * 8 ∧ wd * 8 + 8 ≤ off + len := by
  unfold wordsOf at h
  split at h
  next => cases h
  next hne =>
    obtain ⟨i, hi, rfl⟩ := List.mem_map.1 h
    have hlt := List.mem_range.1 hi
    omega

theorem padTo_self (l : List Nat) : padTo l.length l = l := by simp [padTo]

/-- No word is covered in part, so none is merged. -/
theorem State.loftPut_aligned {l : List Nat} (ho : off % 8 = 0) (hl : l.length % 8 = 0) : s.loftPut off l = s.loftStore off l := by
  have hend : (off + l.length) % 8 = 0 := by omega
  simp [State.loftPut, ho, hend]

theorem State.loftPerform_aligned (hk : x.kind = .write) (ha : (x.addr - loftBase) % 8 = 0) (hl : x.len % 8 = 0)
    (hd : x.data.length = x.len) : s.loftPerform x = (0, [], s.loftStore (x.addr - loftBase) x.data) := by
  have hmerge : ((wordsOf (x.addr - loftBase) x.len).filter fun wd =>
      decide (wd * 8 < x.addr - loftBase) || decide (x.addr - loftBase + x.len < wd * 8 + 8)) = [] := by
    refine List.filter_eq_nil_iff.2 fun wd hwd => ?_
    obtain ⟨hlo, hhi⟩ := mem_wordsOf_aligned ha hl hwd
    simp [hlo, hhi]
  simp only [State.loftPerform, hk, hmerge, State.loftWords, if_true]
  rw [← hd, padTo_self, State.loftPut_aligned ha (hd ▸ hl)]

theorem State.loft_loftServe_aligned (hk : x.kind = .write) (ha : (x.addr - loftBase) % 8 = 0) (hl : x.len % 8 = 0)
    (hd : x.data.length = x.len) (hb : ∀ b ∈ x.data, b < 256) :
    (s.loftServe x).loft = s.loft.putBytes (x.addr - loftBase) x.data := by
  rw [State.loftServe_eq, State.perRuns_enabled _ hb]
  show ((s.loftTaken x).loftPerform x).2.2.loft = _
  rw [State.loftPerform_aligned hk ha hl hd]
  rfl

end

/-! ### The scrubber (R129) -/

section
variable {s : State} {master wd : Nat}

theorem exec_loftScrub {word : Fin 6291456} (he : s.on (pg .loft 0) LOFT_SCRUB_EN = true) (hc : s.time.coarse = false) :
    exec (.loftScrub word) s = .next (s.loftWord 0x1F word.val).2 :=
  congrArg _ (if_pos ⟨he, by simp [hc]⟩)

theorem State.loftWord_good (h : Store.getD 0 wd s.loftSyn = 0) : s.loftWord master wd = (true, s) := if_pos h

/-- A word that can be corrected is written back with its right check byte, whatever its record has left in the loft. -/
theorem State.loftSyn_loftWord_corrected {v : Nat} (h : Store.getD 0 wd s.loftSyn ≠ 0)
    (hv : correctWord (s.loft.readLE (wd * 8) 8) (Store.getD 0 wd s.loftSyn) = some v) :
    Store.getD 0 wd (s.loftWord master wd).2.loftSyn = 0 := by
  unfold State.loftWord
  dsimp only
  rw [if_neg h, hv]
  exact congrArg (Option.getD · 0) (Store.find_del_self _ _)

end

/-! ### Partition entries (R130, R131) -/

section
variable {s : State} {p v : Nat} {f : Fld} {w : Writer}

theorem mem_partFields (h : f ∈ partFields p) : f.off = 0x140 + 4 * p ∧ f.lo < 31 := by
  simp only [partFields, List.mem_cons, List.not_mem_nil, or_false] at h
  obtain rfl | rfl | rfl | rfl := h <;> exact ⟨rfl, by simp [LOFT_PART_BASE, LOFT_PART_SIZE, LOFT_PART_USE, LOFT_PART_EN]⟩

/-- The lock bit of the word written counts: 1 locks the entry. -/
def State.partLocked (s : State) (p v : Nat) : State := if bit v 31 then s.wb (pg .loft 0) (LOFT_PART_LOCK p) true else s

theorem State.rd_partLocked (h : f ∈ partFields p) : (s.partLocked p v).rd (pg .loft 0) f = s.rd (pg .loft 0) f := by
  obtain ⟨hoff, hlo⟩ := mem_partFields h
  unfold State.partLocked
  split
  · exact State.rd_wr_same (by simp only [LOFT_PART_LOCK]; omega)
  · rfl

theorem State.on_lock_partLocked (h : s.on (pg .loft 0) (LOFT_PART_LOCK p) = false) :
    (s.partLocked p v).on (pg .loft 0) (LOFT_PART_LOCK p) = bit v 31 := by
  unfold State.partLocked
  split
  next hb => rw [hb, State.on_wb_true _ _ _ rfl]
  next hb => rw [h, Bool.eq_false_iff.2 hb]

/-- A write of a locked entry: other values are recorded and not taken. -/
def State.partRefused (s : State) (w : Writer) (p v : Nat) : State :=
  if s.differs (pg .loft 0) (partFields p) v then s.lockedWrite (pg .loft 0) (0x140 + 4 * p) 0xFFFF v w else s

theorem State.rd_partRefused (h : f ∈ partFields p) : (s.partRefused w p v).rd (pg .loft 0) f = s.rd (pg .loft 0) f := by
  obtain ⟨hoff, hlo⟩ := mem_partFields h
  unfold State.partRefused
  split
  · exact State.rd_emit_above pg_loft_above (by omega)
  · rfl

theorem exec_loftPartWrite_locked {p : Fin 16} (w : Writer) (v : Word)
    (h : s.on (pg .loft 0) (LOFT_PART_LOCK p.val) = true) :
    exec (.loftPartWrite w p v) s = .next ((s.partRefused w p.val v.toNat).partLocked p.val v.toNat) := by
  show execLoftPartWrite w p v s = _
  simp [execLoftPartWrite, h, State.partRefused, State.partLocked]

theorem exec_loftPartWrite_open {p : Fin 16} (w : Writer) (v : Word) (hl : s.on (pg .loft 0) HDR_CTRL_LOCK = false)
    (h : s.on (pg .loft 0) (LOFT_PART_LOCK p.val) = false) :
    exec (.loftPartWrite w p v) s = .next ((s.partWrite w p.val v.toNat).partLocked p.val v.toNat) := by
  show execLoftPartWrite w p v s = _
  simp [execLoftPartWrite, hl, h, State.partLocked]

/-- The fields that a write gives an entry that is off, but for EN. -/
def State.partSet (s : State) (p v : Nat) : State :=
  s.setFields (pg .loft 0) [LOFT_PART_BASE p, LOFT_PART_SIZE p, LOFT_PART_USE p] v

theorem State.partSet_eq : s.partSet p v =
    ((s.wr (pg .loft 0) (LOFT_PART_BASE p) (fieldOf v (LOFT_PART_BASE p))).wr (pg .loft 0) (LOFT_PART_SIZE p)
      (fieldOf v (LOFT_PART_SIZE p))).wr (pg .loft 0) (LOFT_PART_USE p) (fieldOf v (LOFT_PART_USE p)) := rfl

theorem State.rd_base_partSet : (s.partSet p v).rd (pg .loft 0) (LOFT_PART_BASE p) = fieldOf v (LOFT_PART_BASE p) := by
  rw [State.partSet_eq, State.rd_wr_same (by simp [LOFT_PART_BASE, LOFT_PART_USE]),
    State.rd_wr_same (by simp [LOFT_PART_BASE, LOFT_PART_SIZE]), State.rd_wr_self, fieldOf_mod]

theorem State.rd_size_partSet : (s.partSet p v).rd (pg .loft 0) (LOFT_PART_SIZE p) = fieldOf v (LOFT_PART_SIZE p) := by
  rw [State.partSet_eq, State.rd_wr_same (by simp [LOFT_PART_SIZE, LOFT_PART_USE]), State.rd_wr_self, fieldOf_mod]

theorem State.rd_lock_partSet : (s.partSet p v).rd (pg .loft 0) (LOFT_PART_LOCK p) = s.rd (pg .loft 0) (LOFT_PART_LOCK p) := by
  rw [State.partSet_eq, State.rd_wr_same (by simp [LOFT_PART_LOCK, LOFT_PART_USE]),
    State.rd_wr_same (by simp [LOFT_PART_LOCK, LOFT_PART_SIZE]), State.rd_wr_same (by simp [LOFT_PART_LOCK, LOFT_PART_BASE])]

/-- Why the entry with the fields written may not be enabled (R130). -/
def State.partSetRefusal (s : State) (p v : Nat) : Option Bool :=
  (s.partSet p v).partRefusal p ((s.partSet p v).rd (pg .loft 0) (LOFT_PART_BASE p))
    ((s.partSet p v).rd (pg .loft 0) (LOFT_PART_SIZE p)) ((s.partSet p v).rd (pg .loft 0) (LOFT_PART_USE p))

theorem State.partWrite_enables (h : s.partOn p = false) (he : fieldOf v (LOFT_PART_EN p) = 1) (hc : s.capsWord ≠ 0)
    (hr : s.partSetRefusal p v = none) : s.partWrite w p v = (s.partSet p v).wb (pg .loft 0) (LOFT_PART_EN p) true := by
  unfold State.partSetRefusal State.partSet at hr
  simp [State.partWrite, h, he, hc, hr, State.partSet]

/-- The record of a fenced bank is one of the SYS page. -/
theorem State.rd_loft_enableFenced (req unit idx writer : Nat) :
    (s.enableFenced req unit idx writer).rd (pg .loft 0) f = s.rd (pg .loft 0) f := by
  refine State.rd_congr (State.find_emitAt _ _ _ _ _ ?_)
  simp only [evKey, fkey, pg_sys, pg_loft, pg_dbk, HDR_EVT_RAW_RAW, DBK_WR_COUNT, DBK_LOST_COUNT]
  omega

/-- Enabled, refused or neither, an entry that was off holds the fields written. -/
theorem State.rd_partWrite_off (h : s.partOn p = false) (hf : f.lo % 32 ≠ 30) :
    (s.partWrite w p v).rd (pg .loft 0) f = (s.partSet p v).rd (pg .loft 0) f := by
  unfold State.partWrite
  simp only [h, Bool.false_eq_true, if_false]
  split
  · rfl
  · split
    · exact State.rd_wr_same (by simp only [LOFT_PART_EN]; omega)
    · exact State.rd_loft_enableFenced _ _ _ _
    · rfl

end

section
variable {s : State} {w : Writer} {p : Fin 16} {v : Word}

theorem loftPartWrite_locked_keeps (hlock : s.on (pg .loft 0) (LOFT_PART_LOCK p.val) = true) :
    completes (.loftPartWrite w p v) s fun t => ∀ f ∈ partFields p.val, t.rd (pg .loft 0) f = s.rd (pg .loft 0) f :=
  ⟨_, exec_loftPartWrite_locked w v hlock, fun _ hf => (State.rd_partLocked hf).trans (State.rd_partRefused hf)⟩

theorem loftPartWrite_off_sets (hl : s.on (pg .loft 0) HDR_CTRL_LOCK = false)
    (hlock : s.on (pg .loft 0) (LOFT_PART_LOCK p.val) = false) (hoff : s.partOn p.val = false) :
    completes (.loftPartWrite w p v) s fun t =>
      t.rd (pg .loft 0) (LOFT_PART_BASE p.val) = fieldOf v.toNat (LOFT_PART_BASE p.val) ∧
      t.rd (pg .loft 0) (LOFT_PART_SIZE p.val) = fieldOf v.toNat (LOFT_PART_SIZE p.val) ∧
      t.on (pg .loft 0) (LOFT_PART_LOCK p.val) = bit v.toNat 31 ∧
      (fieldOf v.toNat (LOFT_PART_EN p.val) = 1 → s.capsWord ≠ 0 → s.partSetRefusal p.val v.toNat = none →
        t.on (pg .loft 0) (LOFT_PART_EN p.val) = true) := by
  refine ⟨_, exec_loftPartWrite_open w v hl hlock, ?_, ?_, State.on_lock_partLocked ?_, fun hen hcaps hr => ?_⟩
  · rw [State.rd_partLocked (by simp [partFields]), State.rd_partWrite_off hoff (by simp [LOFT_PART_BASE]),
      State.rd_base_partSet]
  · rw [State.rd_partLocked (by simp [partFields]), State.rd_partWrite_off hoff (by simp [LOFT_PART_SIZE]),
      State.rd_size_partSet]
  · rw [State.on_eq, State.rd_partWrite_off hoff (by simp [LOFT_PART_LOCK]), State.rd_lock_partSet]
    exact hlock
  · rw [State.on_eq, State.rd_partLocked (by simp [partFields]), State.partWrite_enables hoff hen hcaps hr]
    exact State.on_wb_true _ _ _ rfl

end

/-- Settles O23: a write of whole words has none to merge with; a corrected word takes its right check byte; EN of a partition entry
is asked for once its fields stand, and its lock bit is written last. -/
theorem loftPorts : Obligations.LoftPorts := by
  unfold Obligations.LoftPorts
  refine fun s => ⟨fun port x l hx => ⟨⟨_, exec_loftServe hx, State.queued_loftServe⟩, fun hk _ ha hl hd hb => ?_⟩,
    fun word he hc => ⟨fun hs => ?_, fun x hs hv => ?_⟩, fun w p v => ⟨fun hlock => ?_, fun hl hlock hoff hen => ?_⟩⟩
  · refine ⟨_, exec_loftServe hx, ?_⟩
    dsimp only
    rw [State.loft_loftServe_aligned hk ha hl hd hb, ← hd]
    refine ⟨fun i hi => ?_, fun a ha' => Mem.read_putBytes_out _ ha'⟩
    rw [Mem.read_putBytes_in _ hi, List.getD_eq_getElem _ _ hi]
  · rw [exec_loftScrub he hc, State.loftWord_good hs]
  · exact ⟨_, exec_loftScrub he hc, State.loftSyn_loftWord_corrected hs hv⟩
  · obtain ⟨t, hexec, hkeeps⟩ := loftPartWrite_locked_keeps (w := w) (v := v) hlock
    refine ⟨t, hexec, hkeeps _ (by simp [partFields]), hkeeps _ (by simp [partFields]), ?_⟩
    simp only [State.on_eq, hkeeps (LOFT_PART_EN p.val) (by simp [partFields])]
  · obtain ⟨t, hexec, hbase, hsize, hlocked, hon⟩ := loftPartWrite_off_sets (w := w) (v := v) hl hlock hoff
    exact ⟨t, hexec, hbase, hsize, hlocked, fun hen1 hr => hon hen1 (hen.resolve_left (by omega)) hr⟩

end Sys2Proof.Machine
end

section
/-! PROOFS. Bays freed by their owner or by force, and what their return to FREE leaves of them; a closed aperture that is closed
(R138 to R140, R144, R328). -/

set_option autoImplicit false

namespace Sys2Proof.Machine

/-! ### The return to FREE leaves other bays, and those not HELD, as they are (R138, R139) -/

/-- The field lies in the 64 bytes of a bay's descriptor. -/
abbrev inDescriptor (f : Fld) : Prop := f.off * 32 + f.lo < 64 * 32

theorem fkey_bayE_ne {m n : Nat} {f g : Fld} (hn : n ≠ m) (hf : inDescriptor f) (hg : inDescriptor g) :
    fkey (bayE n) f ≠ fkey (bayE m) g := by
  simp only [fkey, bayE]
  omega

section
variable {s : State} {m n g : Nat} {f : Fld}

theorem State.bayHeld_iff : s.bayHeld n g = true ↔ s.bayState n = 2 ∧ s.bayGen n = g := by
  simp only [State.bayHeld, Bool.and_eq_true, decide_eq_true_eq]

theorem State.bayIdle_iff : s.bayIdle n = true ↔
    s.bayState n = 2 ∧ s.rd (bayE n) BAYD_OWNER_REFCNT = 0 ∧ s.rd (bayE n) BAYD_STAT_MARKS = 0 := by
  simp only [State.bayIdle, Bool.and_eq_true, decide_eq_true_eq, and_assoc]

theorem State.rd_bayToFree_other (hn : n ≠ m) (hf : inDescriptor f) : (s.bayToFree m).rd (bayE n) f = s.rd (bayE n) f := by
  rw [State.bayToFree, State.rd_wr_key (fkey_bayE_ne hn hf (by decide)),
    State.rd_wr_key (fkey_bayE_ne hn hf (by decide))]

/-- Only a HELD bay loses a hold. -/
theorem State.rd_holdDrop_notHeld (hs : s.bayState n ≠ 2) (hf : inDescriptor f) :
    (s.holdDrop m g).rd (bayE n) f = s.rd (bayE n) f := by
  unfold State.holdDrop
  split
  next h =>
    have hn : n ≠ m := by
      rintro rfl
      exact hs (State.bayHeld_iff.1 (Bool.and_eq_true_iff.1 h).1).1
    exact State.rd_wr_key (fkey_bayE_ne hn hf (by decide))
  next => rfl

/-- The LEDGER hold that ends with an output bay is none of a bay that is not HELD. -/
theorem State.rd_ledgerDrop_notHeld (hs : s.bayState n ≠ 2) (hf : inDescriptor f) :
    (s.ledgerDrop m).rd (bayE n) f = s.rd (bayE n) f := by
  unfold State.ledgerDrop
  split
  next => rfl
  next lb lg _ =>
    have hdrop {g : Fld} (hg : inDescriptor g) :
        (State.holdDrop { s with yardLedger := Store.del m s.yardLedger } lb lg).rd (bayE n) g = s.rd (bayE n) g :=
      State.rd_holdDrop_notHeld (s := { s with yardLedger := Store.del m s.yardLedger }) hs hg
    dsimp only
    split
    next hidle =>
      have hn : n ≠ lb := by
        rintro rfl
        exact hs ((hdrop (by decide)).symm.trans (State.bayIdle_iff.1 hidle).1)
      rw [State.rd_bayToFree_other hn hf, hdrop hf]
    next => exact hdrop hf

theorem State.bayState_bayToFree : (s.bayToFree n).bayState n = 1 := by
  rw [State.bayState, State.bayToFree, State.rd_wr_same (by decide), State.rd_wr_self]
  rfl

theorem State.bayToFree_notHeld : (s.bayToFree n).bayState n ≠ 2 := by
  rw [State.bayState_bayToFree]
  decide

theorem State.bayState_bayReturn_idle (h : s.bayIdle n = true) : (s.bayReturn n).bayState n = 1 := by
  rw [State.bayReturn, if_pos h, State.bayState, State.rd_ledgerDrop_notHeld State.bayToFree_notHeld (by decide)]
  exact State.bayState_bayToFree

theorem State.bayReturn_busy (h : s.rd (bayE n) BAYD_OWNER_REFCNT ≠ 0) : s.bayReturn n = s :=
  if_neg fun hidle => h (State.bayIdle_iff.1 hidle).2.1

/-- Of the bay's own descriptor, the return to FREE changes STATE and OWNER alone. -/
theorem State.rd_bayReturn (hf : inDescriptor f) (hstate : f.off * 32 + f.lo ≠ 0x18 * 32)
    (howner : f.off * 32 + f.lo ≠ 0x1C * 32) : (s.bayReturn n).rd (bayE n) f = s.rd (bayE n) f := by
  unfold State.bayReturn
  split
  next =>
    rw [State.rd_ledgerDrop_notHeld State.bayToFree_notHeld hf, State.bayToFree, State.rd_wr_same howner, State.rd_wr_same hstate]
  next => rfl

end

/-! ### The bay of a free (R139, R140) -/

section
variable {s : State} {n g r : Nat}

/-- An owner's free drops its hold, clears OWNED and, with no hold and no mark left, the bay is FREE. -/
theorem State.ownerRelease_eq (hs : s.bayState n = 2) (hg : s.bayGen n = g) (howned : s.on (bayE n) BAYD_STAT_OWNED = true)
    (hr : s.rd (bayE n) BAYD_OWNER_REFCNT = r + 1) :
    s.ownerRelease n g = ((s.wr (bayE n) BAYD_OWNER_REFCNT r).wb (bayE n) BAYD_STAT_OWNED false).bayReturn n := by
  have hheld := State.bayHeld_iff.2 ⟨hs, hg⟩
  have hdrop : s.holdDrop n g = s.wr (bayE n) BAYD_OWNER_REFCNT r := by simp [State.holdDrop, hheld, hr]
  rw [State.ownerRelease, if_pos (by simp [hheld, howned]), hdrop]

theorem State.ownerRelease_spec (hs : s.bayState n = 2) (hg : s.bayGen n = g) (howned : s.on (bayE n) BAYD_STAT_OWNED = true)
    (hr : s.rd (bayE n) BAYD_OWNER_REFCNT = r + 1) (hlt : r < 2 ^ BAYD_OWNER_REFCNT.w) :
    (s.ownerRelease n g).on (bayE n) BAYD_STAT_OWNED = false ∧
    (r = 0 → s.rd (bayE n) BAYD_STAT_MARKS = 0 → (s.ownerRelease n g).bayState n = 1) ∧
    (r ≠ 0 → (s.ownerRelease n g).bayState n = 2 ∧ (s.ownerRelease n g).rd (bayE n) BAYD_OWNER_REFCNT = r) := by
  rw [State.ownerRelease_eq hs hg howned hr]
  have hstate : ((s.wr (bayE n) BAYD_OWNER_REFCNT r).wb (bayE n) BAYD_STAT_OWNED false).bayState n = 2 := by
    rw [State.bayState, State.wb_eq, State.rd_wr_same (by decide), State.rd_wr_same (by decide)]
    exact hs
  have hcount : ((s.wr (bayE n) BAYD_OWNER_REFCNT r).wb (bayE n) BAYD_STAT_OWNED false).rd (bayE n) BAYD_OWNER_REFCNT = r := by
    rw [State.wb_eq, State.rd_wr_same (by decide), State.rd_wr_self, Nat.mod_eq_of_lt hlt]
  refine ⟨?_, fun hr0 hmarks => State.bayState_bayReturn_idle (State.bayIdle_iff.2 ⟨hstate, hcount.trans hr0, ?_⟩), fun hr0 => ?_⟩
  · rw [State.on_eq, State.rd_bayReturn (by decide) (by decide) (by decide)]
    exact State.on_wb_false _ _ _
  · rw [State.wb_eq, State.rd_wr_same (by decide), State.rd_wr_same (by decide), hmarks]
  · rw [State.bayReturn_busy (by rwa [hcount])]
    exact ⟨hstate, hcount⟩

theorem State.bayForce_spec (hs : s.bayState n = 2) : (s.bayForce n).bayState n = 1 ∧
    (s.bayForce n).rd (bayE n) BAYD_OWNER_REFCNT = 0 ∧ (s.bayForce n).bayGen n = s.bayGen n := by
  unfold State.bayForce State.bayGen
  simp only [State.wb_eq]
  refine ⟨State.bayState_bayReturn_idle (State.bayIdle_iff.2 ⟨?_, ?_, ?_⟩), ?_, ?_⟩
  · rw [State.bayState]
    iterate 3 rw [State.rd_wr_same (by decide)]
    exact hs
  · iterate 2 rw [State.rd_wr_same (by decide)]
    exact State.rd_wr_self _ _ _ _
  · rw [State.rd_wr_same (by decide)]
    exact State.rd_wr_self _ _ _ _
  · rw [State.rd_bayReturn (by decide) (by decide) (by decide)]
    iterate 2 rw [State.rd_wr_same (by decide)]
    exact State.rd_wr_self _ _ _ _
  · rw [State.rd_bayReturn (by decide) (by decide) (by decide)]
    iterate 3 rw [State.rd_wr_same (by decide)]

end

/-! ### Recording channels whose ring bay is lost (R328) -/

section
variable (s : State) (n g : Nat)

@[simp] theorem State.enc_holdDrop : (s.holdDrop n g).enc = s.enc := by
  unfold State.holdDrop
  split <;> rfl

@[simp] theorem State.enc_ledgerDrop : (s.ledgerDrop n).enc = s.enc := by
  unfold State.ledgerDrop
  split
  next => rfl
  next lb lg _ =>
    dsimp only
    split <;> exact State.enc_holdDrop { s with yardLedger := Store.del n s.yardLedger } lb lg

@[simp] theorem State.enc_bayReturn : (s.bayReturn n).enc = s.enc := by
  unfold State.bayReturn
  split
  · exact State.enc_ledgerDrop _ n
  · rfl

@[simp] theorem State.enc_ownerRelease : (s.ownerRelease n g).enc = s.enc := by
  unfold State.ownerRelease
  split
  · exact (State.enc_bayReturn _ n).trans (s.enc_holdDrop n g)
  · rfl

@[simp] theorem State.enc_bayForce : (s.bayForce n).enc = s.enc := State.enc_bayReturn _ n

theorem onlyRegsEv.enc_eq {s t : State} {l : List Nat} {q : Nat} (h : onlyRegsEv l q s t) : t.enc = s.enc := by rw [h.1]

/-- No recording channel stops while each one's ring bay is HELD under its GEN. -/
theorem State.ringsLost_allHeld {s : State} (h : ∀ e ∈ s.enc, s.encRing (e.1 / 32) (e.1 % 32) = true) : s.ringsLost = s := by
  unfold State.ringsLost
  generalize s.enc = l at h
  induction l with
  | nil => rfl
  | cons e l ih =>
    obtain ⟨he, hl⟩ := List.forall_mem_cons.1 h
    rw [List.foldl_cons, if_pos he]
    exact ih hl

/-- A channel that ends is listed no more. -/
theorem State.find_enc_chStop (p k cause : Nat) : Store.find (p * 32 + k) (s.chStop p k cause).enc = none := by
  have hp : 0xF000 ≤ encP p := by
    simp only [encP, pg_enc]
    omega
  rw [State.chStop, (State.emit_onlyRegsEv hp).enc_eq]
  unfold State.chEnd
  split
  next h => exact h
  next => exact Store.find_del_self _ _

end

/-- The only channel listed stops where its ring bay is not HELD under its GEN. -/
theorem State.find_enc_ringsLost {s : State} {i : Nat} {x : EncCh} (hs : s.enc = [(i, x)])
    (hlost : s.encRing (i / 32) (i % 32) = false) : Store.find i s.ringsLost.enc = none := by
  have hi : i / 32 * 32 + i % 32 = i := by omega
  rw [State.ringsLost, hs, List.foldl_cons, List.foldl_nil, if_neg (by simp [hlost])]
  exact (congrArg (Store.find · _) hi).symm.trans (s.find_enc_chStop _ _ 2)

/-! ### The commands -/

theorem pg_bay_above : 0xF000 ≤ pg .bay 0 := by decide

section
variable {s : State} {b : Fin 8192} {gen : BitVec 16} {w : Writer}

theorem exec_bayFree_otherGen (hs : s.bayState b.val = 2) (hg : s.bayGen b.val ≠ gen.toNat) :
    exec (.bayFree w b gen) s = .next (s.freeRefused w b.val gen.toNat 1) := by
  show execBayFree w b gen s = _
  rw [execBayFree, if_neg (not_not.2 hs), if_pos hg, done]

theorem exec_bayFree_otherOwner (hs : s.bayState b.val = 2) (hg : s.bayGen b.val = gen.toNat)
    (ho : s.rd (bayE b.val) BAYD_OWNER_OWNER ≠ w.fid) :
    exec (.bayFree w b gen) s = .next (s.freeRefused w b.val gen.toNat 0) := by
  show execBayFree w b gen s = _
  rw [execBayFree, if_neg (not_not.2 hs), if_neg (not_not.2 hg), if_pos ho, done]

theorem exec_bayFree_owner (hs : s.bayState b.val = 2) (hg : s.bayGen b.val = gen.toNat)
    (ho : s.rd (bayE b.val) BAYD_OWNER_OWNER = w.fid) (howned : s.on (bayE b.val) BAYD_STAT_OWNED = true) :
    exec (.bayFree w b gen) s = .next (s.ownerRelease b.val gen.toNat).ringsLost := by
  show execBayFree w b gen s = _
  rw [execBayFree, if_neg (not_not.2 hs), if_neg (not_not.2 hg), if_neg (not_not.2 ho), if_neg (by simp [howned]), done]

/-- A bay forced free, and its FORCED record. -/
def State.bayForced (s : State) (w : Writer) (n gen : Nat) : State :=
  (s.bayForce n).emit (pg .bay 0) 0x1001 (le n 2 ++ le w.fid 2 ++ le gen 2 ++
    le (s.rd (bayE n) BAYD_OWNER_REFCNT) 2 ++ [s.rd (bayE n) BAYD_STAT_MARKS])

theorem exec_bayForceFree_allowed (hw : w = .host ∨ w = .mss) (hs : s.bayState b.val = 2) (hg : s.bayGen b.val = gen.toNat) :
    exec (.bayForceFree w b gen) s = .next (s.bayForced w b.val gen.toNat).ringsLost := by
  show execBayForceFree w b gen s = _
  rw [execBayForceFree, if_neg (by tauto), if_neg (not_not.2 hs), if_neg (not_not.2 hg), done]
  rfl

theorem exec_bayForceFree_drover (d : Fin 8) :
    exec (.bayForceFree (.drover d) b gen) s = .next (s.freeRefused (.drover d) b.val gen.toNat 3) := by
  show execBayForceFree (.drover d) b gen s = _
  rw [execBayForceFree, if_pos ⟨nofun, nofun⟩, done]

theorem State.enc_bayForced (n g : Nat) : (s.bayForced w n g).enc = s.enc :=
  (State.emit_onlyRegsEv pg_bay_above).enc_eq.trans (s.enc_bayForce n)

/-- No descriptor holds a register that the FORCED record writes. -/
theorem State.rd_bayForced (n g : Nat) (f : Fld) : (s.bayForced w n g).rd (bayE n) f = (s.bayForce n).rd (bayE n) f :=
  State.rd_emit (ringKeysFree_above pg_bay_above) (not_evKey_bayE n f)

theorem exec_apertureClose_closed {a : Fin 16} (h : s.on (pg .bay 0) (BAY_APT_EN a.val) = false) :
    exec (.apertureClose w a) s = .next s.ringsLost := by
  show execApertureClose w a s = _
  rw [execApertureClose, State.apertureClose, if_neg (by simp [h]), done]

end

/-- Settles O25: the free and the forced free are judged by state, GEN, owner and writer; what each leaves of the bay is said of
`State.ownerRelease` and `State.bayForce`, and with every ring bay HELD no channel stops after it. -/
theorem bayFrees : Obligations.BayFrees := by
  unfold Obligations.BayFrees
  refine ⟨fun w b gen s r hs hg hr hlt => ⟨fun ho howned => ?_, exec_bayFree_otherOwner hs hg,
    fun _ => exec_bayFree_otherGen hs⟩, fun w b gen s hs hg => ⟨fun hw => ?_, fun d hd => hd ▸ exec_bayForceFree_drover d⟩⟩
  · have hexec := exec_bayFree_owner hs hg ho howned
    refine ⟨hexec, fun hrings => ⟨_, hexec, ?_⟩⟩
    rw [State.ringsLost_allHeld (by rwa [State.enc_ownerRelease])]
    exact State.ownerRelease_spec hs hg howned hr hlt
  · have hexec := exec_bayForceFree_allowed hw hs hg
    refine ⟨hexec, fun hrings => ⟨_, hexec, ?_⟩⟩
    obtain ⟨hstate, hcount, hgen⟩ := State.bayForce_spec hs
    rw [State.ringsLost_allHeld (by rwa [State.enc_bayForced])]
    exact ⟨(State.rd_bayForced ..).trans hstate, (State.rd_bayForced ..).trans hcount, (State.rd_bayForced ..).trans hgen⟩

/-- Channel 0 of pipeline 0 is enabled, and its ring bay, bay 0, has returned to FREE. -/
def ringFreed : State :=
  { (State.reset.wb (encP 0) (ENC_CH_CTRL_EN 0) true).wr (bayE 0) BAYD_STAT_STATE 1 with
    enc := [(0, {
      geo := { inc := 1, hAct := 2, hTot := 4, vAct := 2, start := 0, cwin := 0, vmin := 1, vmax := 1, x := 0, y := 0
               d24 := false, member := false, fixed := false, canvas := 0, engine := 0 }
      block := none, seen := none, tap := none, ended := none, queue := [], gap := false, idr := true, sinceIdr := 0
      win := [], refs := [], size := (16, 16) })] }

/-- Refutes O26, in its clause on closing a closed aperture: the write stops each recording channel whose ring bay is no longer HELD
(R328), so `ringFreed` loses its channel. The aperture itself stays as it is; with every ring bay HELD, so does the state, by
`exec_apertureClose_closed` and `State.ringsLost_allHeld`. -/
theorem not_apertures : ¬ Obligations.Apertures := by
  unfold Obligations.Apertures
  intro h
  have hclosed : ringFreed.on (pg .bay 0) (BAY_APT_EN 0) = false := by decide
  obtain ⟨-, -, -, hstays⟩ := h .host 0 0 0 ringFreed
  have hsame : ringFreed.ringsLost = ringFreed :=
    Host.Outcome.next.inj ((exec_apertureClose_closed hclosed).symm.trans (hstays hclosed))
  have hgone : Store.find 0 ringFreed.ringsLost.enc = none := State.find_enc_ringsLost rfl (by decide)
  rw [hsame] at hgone
  exact absurd hgone (by decide)

end Sys2Proof.Machine
end

section
/-! PROOFS. Steps of yard time (R156 to R158): what a jump passes leaves yard time, the slew and the pending step alone. -/

set_option autoImplicit false

namespace Sys2Proof.Machine

/-! ### Fields and events of the TB page -/

/-- Pages of these blocks lie above the daybook's, TB's and the MSI-X pages. -/
theorem pg_above {b : Blk} (h : 0xF000 ≤ b.base) (i : Nat) : 0xF000 ≤ pg b i := Nat.le_add_right_of_le h

@[simp] theorem pg_cmp_above (e : Nat) : 0xF000 ≤ pg .cmp e := pg_above (by decide) e
@[simp] theorem pg_yk_above (i : Nat) : 0xF000 ≤ pg .yk i := pg_above (by decide) i
@[simp] theorem pg_gate_above (e : Nat) : 0xF000 ≤ pg .gate e := pg_above (by decide) e
@[simp] theorem pg_hd_above (h : Nat) : 0xF000 ≤ pg .hd h := pg_above (by decide) h
@[simp] theorem pg_net_above (n : Nat) : 0xF000 ≤ pg .net n := pg_above (by decide) n
@[simp] theorem pg_ln_above (l : Nat) : 0xF000 ≤ pg .ln l := pg_above (by decide) l
@[simp] theorem bayE_above (n : Nat) : 0xF000 ≤ bayE n := by unfold bayE; omega
@[simp] theorem stallE_above (n : Nat) : 0xF000 ≤ stallE n := by unfold stallE; omega

section
variable {s : State} {q n code : Nat} {data : List Nat} {f : Fld}

/-- Of its own page's words an event of TB writes EVT_RAW. -/
theorem not_evKey_tb (hf : f.off * 32 + f.lo < 0x1000 * 32) (hraw : f.off * 32 + f.lo ≠ 0x10 * 32) : ¬ evKey tb (fkey tb f) := by
  simp only [evKey, fkey, tb, pg_dbk, HDR_EVT_RAW_RAW, DBK_WR_COUNT, DBK_LOST_COUNT]
  omega

theorem ringKeysFree_tb : ringKeysFree tb [] :=
  ⟨⟨List.not_mem_nil, not_evKey_tb (by decide) (by decide)⟩, ⟨List.not_mem_nil, not_evKey_tb (by decide) (by decide)⟩⟩

theorem State.rd_emitAt_tb (hf : f.off * 32 + f.lo < 0x1000 * 32) (hraw : f.off * 32 + f.lo ≠ 0x10 * 32) :
    (s.emitAt tb n code data).rd tb f = s.rd tb f := State.rd_congr (State.find_emitAt _ _ _ _ _ (not_evKey_tb hf hraw))

theorem State.rd_emit_tb (hf : f.off * 32 + f.lo < 0x1000 * 32) (hraw : f.off * 32 + f.lo ≠ 0x10 * 32) :
    (s.emit tb code data).rd tb f = s.rd tb f := State.rd_emitAt_tb hf hraw

@[simp] theorem State.time_emit_tb : (s.emit tb code data).time = s.time :=
  (onlyRegsEv_emit (l := []) ringKeysFree_tb onlyRegsEv_refl).time_eq

/-- Events of the pages above write none of TB's words. -/
theorem State.rd_tb_emit_above (hq : 0xF000 ≤ q) (hf : f.off * 32 + f.lo < 0x1000 * 32) :
    (s.emit q code data).rd tb f = s.rd tb f :=
  State.rd_congr (State.find_emitAt _ _ _ _ _ (by
    simp only [evKey, fkey, tb, pg_dbk, HDR_EVT_RAW_RAW, DBK_WR_COUNT, DBK_LOST_COUNT]
    omega))

theorem State.rd_tb_wr_above (hq : 0xF000 ≤ q) (g : Fld) (v : Nat) (hf : f.off * 32 + f.lo < 0x1000 * 32) :
    (s.wr q g v).rd tb f = s.rd tb f :=
  State.rd_wr_key (by
    simp only [fkey, tb]
    omega)

end

/-! ### Yard time, the slew and the pending step -/

/-- Yard time, the slew, the pending step and whether STATUS shows it. -/
def State.tbStep (s : State) : Nat × Nat × Option Int × Nat :=
  (s.time.yt, s.time.slew, s.time.pend, s.rd tb TB_STATUS_STEP_PENDING)

section
variable (s : State) (q : Nat)

@[simp] theorem State.tbStep_wr_above (hq : 0xF000 ≤ q) (f : Fld) (v : Nat) : (s.wr q f v).tbStep = s.tbStep :=
  congrArg (fun x => (s.time.yt, s.time.slew, s.time.pend, x)) (State.rd_tb_wr_above hq f v (by decide))

@[simp] theorem State.tbStep_wb_above (hq : 0xF000 ≤ q) (f : Fld) (b : Bool) : (s.wb q f b).tbStep = s.tbStep :=
  s.tbStep_wr_above q hq f _

@[simp] theorem State.tbStep_cnt_above (hq : 0xF000 ≤ q) (f : Fld) (n : Nat) : (s.cnt q f n).tbStep = s.tbStep :=
  s.tbStep_wr_above q hq f _

@[simp] theorem State.tbStep_wr_tb {f : Fld} (hf : f.off * 32 + f.lo ≠ 0xC * 32 + 4) (v : Nat) : (s.wr tb f v).tbStep = s.tbStep :=
  congrArg (fun x => (s.time.yt, s.time.slew, s.time.pend, x)) (State.rd_wr_same hf.symm)

@[simp] theorem State.tbStep_emit_above (hq : 0xF000 ≤ q) (code : Nat) (data : List Nat) : (s.emit q code data).tbStep = s.tbStep := by
  simp only [State.tbStep, State.rd_tb_emit_above (f := TB_STATUS_STEP_PENDING) hq (by decide), (State.emit_onlyRegsEv hq).time_eq]

@[simp] theorem State.tbStep_emit_tb (code : Nat) (data : List Nat) : (s.emit tb code data).tbStep = s.tbStep := by
  simp only [State.tbStep, State.rd_emit_tb (f := TB_STATUS_STEP_PENDING) (by decide) (by decide), State.time_emit_tb]

@[simp] theorem State.tbStep_ite (c : Prop) [Decidable c] (a b : State) :
    (if c then a else b).tbStep = if c then a.tbStep else b.tbStep := by
  split <;> rfl

@[simp] theorem State.tbStep_foldl {α : Type} {step : State → α → State} (l : List α) (h : ∀ u x, (step u x).tbStep = u.tbStep) :
    (l.foldl step s).tbStep = s.tbStep := by
  induction l generalizing s with
  | nil => rfl
  | cons x l ih => rw [List.foldl_cons, ih, h]

end

/-! ### What a jump of yard time passes leaves them alone (R156) -/

section
variable (s : State)

/-! #### Holds and canvases -/

@[simp] theorem State.tbStep_bayToFree (n : Nat) : (s.bayToFree n).tbStep = s.tbStep := by
  simp [State.bayToFree]

@[simp] theorem State.tbStep_holdDrop (n g : Nat) : (s.holdDrop n g).tbStep = s.tbStep := by
  simp [State.holdDrop]

@[simp] theorem State.tbStep_ledgerDrop (n : Nat) : (s.ledgerDrop n).tbStep = s.tbStep := by
  unfold State.ledgerDrop
  split
  · rfl
  · simp only [State.tbStep_ite, State.tbStep_bayToFree, ite_self, State.tbStep_holdDrop]
    rfl

@[simp] theorem State.tbStep_holdRelease (n g : Nat) : (s.holdRelease n g).tbStep = s.tbStep := by
  simp [State.holdRelease, State.bayReturn]

@[simp] theorem State.tbStep_setCv (e c : Nat) (x : CanvasSt) : (s.setCv e c x).tbStep = s.tbStep := rfl

@[simp] theorem State.tbStep_setStallSt (n : Nat) (x : StallSt) : (s.setStallSt n x).tbStep = s.tbStep := rfl

@[simp] theorem State.tbStep_activate (p : Nat) (l : List Fld) : (s.activate p l).tbStep = s.tbStep := rfl

@[simp] theorem State.tbStep_stallApply (n : Nat) : (s.stallApply n).tbStep = s.tbStep := by
  simp [State.stallApply]

@[simp] theorem State.tbStep_dropHolds (l : List StallHold) : (s.dropHolds l).tbStep = s.tbStep := by
  simp [State.dropHolds]

@[simp] theorem State.tbStep_trackPrune (e : Nat) : (s.trackPrune e).tbStep = s.tbStep := rfl

@[simp] theorem State.tbStep_cmpDensity (e : Nat) : (s.cmpDensity e).tbStep = s.tbStep := by
  simp [State.cmpDensity]

@[simp] theorem State.tbStep_canvasApply (e c : Nat) : (s.canvasApply e c).tbStep = s.tbStep := by
  unfold State.canvasApply
  split
  · rfl
  · dsimp only
    simp only [State.tbStep_cmpDensity, State.tbStep_trackPrune, State.tbStep_setCv]
    split <;> simp

@[simp] theorem State.tbStep_epochMissed (e c n reason k : Nat) : (s.epochMissed e c n reason k).tbStep = s.tbStep := by
  simp [State.epochMissed]

@[simp] theorem State.tbStep_epochsPassed (e c : Nat) : (s.epochsPassed e c).tbStep = s.tbStep := by
  simp [State.epochsPassed]

@[simp] theorem State.tbStep_setCrc (c : Nat) (l : List CrcSt) : (s.setCrc c l).tbStep = s.tbStep := rfl

@[simp] theorem State.tbStep_setCrcHold (c : Nat) (b : Bool) : (s.setCrcHold c b).tbStep = s.tbStep := by
  simp [State.setCrcHold]

@[simp] theorem State.tbStep_outsideCheck (h : Nat) : (s.outsideCheck h).tbStep = s.tbStep := by
  simp [State.outsideCheck]

@[simp] theorem State.tbStep_closeCheck (c : Nat) : (s.closeCheck c).tbStep = s.tbStep := by
  refine State.tbStep_foldl _ _ fun u e => ?_
  dsimp only
  split
  · split <;> simp
  · rfl

@[simp] theorem State.tbStep_canvasChanged (e c : Nat) (was : Bool) : (s.canvasChanged e c was).tbStep = s.tbStep := by
  unfold State.canvasChanged
  dsimp only
  generalize hu : (if was = s.cvOn e c then s else _) = u
  generalize hv : (if (was && !s.cvOn e c) = true then _ else u) = v
  have hu : u.tbStep = s.tbStep := by
    rw [← hu]
    split <;> rfl
  have hv : v.tbStep = u.tbStep := by
    rw [← hv]
    split
    · exact ((u.setCrc c []).tbStep_setCrcHold c false).trans rfl
    · rfl
  simp [hu, hv]

@[simp] theorem State.tbStep_reachHeads (e c : Nat) (size : Nat × Nat) : (s.reachHeads e c size).tbStep = s.tbStep := by
  simp [State.reachHeads]

@[simp] theorem State.tbStep_passedReach (e c n : Nat) : (s.passedReach e c n).tbStep = s.tbStep := by
  simp [State.passedReach]

/-! #### The yoke: a payload may take the link down, which may split the team and change TB's mode and state (R371, R375, R376) -/

@[simp] theorem State.tbStep_yk (f : YokeSt → YokeSt) : (s.yk f).tbStep = s.tbStep := rfl

@[simp] theorem State.tbStep_setVc (v : Nat) (x : YkVc) : (s.setVc v x).tbStep = s.tbStep := rfl

@[simp] theorem State.tbStep_emitOut (o : Out) : (s.emitOut o).tbStep = s.tbStep := rfl

@[simp] theorem State.tbStep_ykState (new : Nat) : (s.ykState new).tbStep = s.tbStep := by
  simp [State.ykState]

@[simp] theorem State.tbStep_ykClear : s.ykClear.tbStep = s.tbStep := by
  unfold State.ykClear
  refine (State.tbStep_foldl _ _ fun u v => ?_).trans rfl
  simp

@[simp] theorem State.tbStep_setTbState (new : Nat) : (s.setTbState new).tbStep = s.tbStep := by
  have hhold : ∀ (u : State) (x : Nat), State.tbStep { u with time := { u.time with holdFrom := x } } = u.tbStep := fun _ _ => rfl
  have hstate : (s.wr tb TB_STATUS_STATE new).tbStep = s.tbStep := s.tbStep_wr_tb (by decide) new
  unfold State.setTbState
  dsimp only
  split
  · rfl
  · exact (State.tbStep_emit_tb _ _ _).trans ((hhold _ _).trans hstate)

@[simp] theorem State.tbStep_wheelSplit : s.wheelSplit.tbStep = s.tbStep := by
  have hmode : (s.wr tb TB_CTRL_MODE 1).tbStep = s.tbStep := s.tbStep_wr_tb (by decide) 1
  unfold State.wheelSplit
  dsimp only
  split
  · split
    · rw [State.tbStep_setTbState]
      exact (State.tbStep_wr_tb _ (by decide) 3).trans hmode
    · exact hmode
  · rfl

@[simp] theorem State.tbStep_toIngress (m : Nat) (x : PktSlot) : (s.toIngress m x).tbStep = s.tbStep := by
  unfold State.toIngress
  dsimp only
  split <;> rfl

@[simp] theorem State.tbStep_laterGo : s.laterGo.tbStep = s.tbStep := by
  simp [State.laterGo]

@[simp] theorem State.tbStep_mergeSplit (wasSeq : Bool) : (s.mergeSplit wasSeq).tbStep = s.tbStep := rfl

@[simp] theorem State.tbStep_netDrop (n : Nat) : (s.netDrop n).tbStep = s.tbStep := by
  simp [State.netDrop]

@[simp] theorem State.tbStep_netDatagram (nets : Nat) (dest : Dest) (bytes : List Nat) :
    (s.netDatagram nets dest bytes).tbStep = s.tbStep := by
  simp [State.netDatagram]

@[simp] theorem State.tbStep_report (kind obj id frame own partner withheld : Nat) :
    (s.report kind obj id frame own partner withheld).tbStep = s.tbStep := by
  simp [State.report, State.ymSend]

@[simp] theorem State.tbStep_ykDown (cause : Nat) : (s.ykDown cause).tbStep = s.tbStep := by
  simp [State.ykDown]

@[simp] theorem State.tbStep_ykEmit (x : YkFrame) (replay : Bool) : (s.ykEmit x replay).tbStep = s.tbStep := by
  unfold State.ykEmit State.ykEmitFor
  split <;> simp

@[simp] theorem State.tbStep_ykPush (v typ : Nat) (data : List Nat) : (s.ykPush v typ data).tbStep = s.tbStep := by
  simp [State.ykPush]

@[simp] theorem State.tbStep_ykSend (v typ : Nat) (data : List Nat) : (s.ykSend v typ data).tbStep = s.tbStep := by
  simp [State.ykSend]

/-! #### Check values (R380, R381) -/

@[simp] theorem State.tbStep_fNote (own partner : ChkVal) : (s.fNote own partner).tbStep = s.tbStep := by
  simp [State.fNote]

@[simp] theorem State.tbStep_inStepCheck : s.inStepCheck.tbStep = s.tbStep := by
  unfold State.inStepCheck
  split
  · rfl
  · split <;> simp

@[simp] theorem State.tbStep_reportDiv (kind obj id frame own partner : Nat) :
    (s.reportDiv kind obj id frame own partner).tbStep = s.tbStep := by
  simp [State.reportDiv]

@[simp] theorem State.tbStep_diverge (kind obj id n own partner : Nat) : (s.diverge kind obj id n own partner).tbStep = s.tbStep := by
  unfold State.diverge State.divergeOn
  dsimp only
  split <;> simp

@[simp] theorem State.tbStep_chkCompare (a b : ChkVal) : (s.chkCompare a b).tbStep = s.tbStep := by
  have hite : ∀ (u : State) (c : Prop) [Decidable c] (kind x y : Nat),
      (if c then u.diverge kind a.obj 0xFFFF a.n x y else u).tbStep = u.tbStep := fun u c _ kind x y => by simp
  unfold State.chkCompare
  dsimp only
  split
  · split <;> simp
  · rw [hite, hite, hite]
  · split
    · rw [hite, hite]
    · rw [State.tbStep_yk, hite, hite]

@[simp] theorem State.tbStep_chkOwn (v : ChkVal) : (s.chkOwn v).tbStep = s.tbStep := by
  have hnote : ∀ o : Option ChkVal, (match o with | some b => s.fNote v b | none => s).tbStep = s.tbStep := by
    intro o
    cases o
    · rfl
    · exact s.tbStep_fNote _ _
  unfold State.chkOwn
  dsimp only
  rw [State.tbStep_inStepCheck]
  split
  · rw [State.tbStep_chkCompare, State.tbStep_yk]
    exact hnote _
  · rw [State.tbStep_yk]
    exact hnote _

@[simp] theorem State.tbStep_epochSum (c flags entries n ldig wcrc : Nat) :
    (s.epochSum c flags entries n ldig wcrc).tbStep = s.tbStep := by
  simp [State.epochSum]

@[simp] theorem State.tbStep_epochsMissedSum (c n held k : Nat) : (s.epochsMissedSum c n held k).tbStep = s.tbStep := by
  simp [State.epochsMissedSum]

/-! #### Output edges and the wake alarm -/

@[simp] theorem State.tbStep_toEdge (j t : Nat) : (s.toEdge j t).tbStep = s.tbStep := by
  have hpulse : ∀ u : State, (u.inc tb (TB_TO_STAT_PULSES j) 1).tbStep = u.tbStep := fun u =>
    u.tbStep_wr_tb (by simp only [TB_TO_STAT_PULSES]; omega) _
  show ((s.setTout j _).inc tb (TB_TO_STAT_PULSES j) 1).tbStep = _
  exact (hpulse _).trans rfl

@[simp] theorem State.tbStep_stepOutputs (old : Nat) : (s.stepOutputs old).tbStep = s.tbStep := by
  have hlate : ∀ (u : State) (j : Nat), (u.wb tb (TB_TO_STAT_LATE j) true).tbStep = u.tbStep := fun u j =>
    u.tbStep_wr_tb (by simp only [TB_TO_STAT_LATE]; omega) _
  refine State.tbStep_foldl _ _ fun u j => ?_
  split
  · simp [hlate]
  · rfl

/-- What a jump of yard time passes: edges and cuts. -/
@[simp] theorem State.tbStep_timeMoved (old : Nat) : (s.timeMoved old).tbStep = s.tbStep := by
  refine (State.tbStep_foldl _ _ fun u e => State.tbStep_foldl _ _ fun u c => ?_).trans (s.tbStep_stepOutputs old)
  simp

/-- A wake cause writes words of the PWR page alone. -/
theorem State.wake_spec (cause : Nat) : (s.wake cause).time = s.time ∧ ∀ f : Fld, (s.wake cause).rd tb f = s.rd tb f := by
  have hpwr : ∀ (u : State) (g f : Fld) (v : Nat), g.off < 0x1000 → g.lo < 32 → (u.wr pwrP g v).rd tb f = u.rd tb f := fun u g f v ho hl =>
    State.rd_wr_key (by
      simp only [fkey, tb, pg_pwr]
      omega)
  have hpin : ∀ (u : State) (c : Prop) [Decidable c] (o : Out), (if c then u.emitOut o else u).time = u.time ∧
      ∀ f : Fld, (if c then u.emitOut o else u).rd tb f = u.rd tb f := by
    intro u c _ o
    split <;> exact ⟨rfl, fun _ => rfl⟩
  have hcause : ∀ f : Fld, (s.wr pwrP PWR_WAKE_CAUSE_CAUSE (setBit (s.rd pwrP PWR_WAKE_CAUSE_CAUSE) cause)).rd tb f = s.rd tb f :=
    fun f => hpwr s _ f _ (by decide) (by decide)
  unfold State.wake
  dsimp only
  split
  · exact ⟨rfl, fun _ => rfl⟩
  · obtain ⟨ht, hr⟩ := hpin (s.wr pwrP PWR_WAKE_CAUSE_CAUSE (setBit (s.rd pwrP PWR_WAKE_CAUSE_CAUSE) cause))
      (State.on _ pwrP PWR_WAKE_EN_PCIE = true) (.pin "PCIE_WAKE_N" 0 0)
    split
    · exact ⟨ht, fun f => (hr f).trans (hcause f)⟩
    · split
      · exact ⟨ht, fun f => (hpwr _ _ f _ (by decide) (by decide)).trans ((hr f).trans (hcause f))⟩
      · exact ⟨ht, fun f => (hr f).trans (hcause f)⟩

@[simp] theorem State.tbStep_alarmPassed (old : Nat) : (s.alarmPassed old).tbStep = s.tbStep := by
  obtain ⟨ht, hr⟩ := s.wake_spec 3
  unfold State.alarmPassed
  dsimp only
  split
  · simp only [State.tbStep, ht, hr]
  · rfl

end

/-! ### A step judged (R156) -/

section
variable (s : State)

theorem State.tbStep_eq_iff {s t : State} : t.tbStep = s.tbStep ↔ t.time.yt = s.time.yt ∧ t.time.slew = s.time.slew ∧
    t.time.pend = s.time.pend ∧ t.rd tb TB_STATUS_STEP_PENDING = s.rd tb TB_STATUS_STEP_PENDING := by
  simp [State.tbStep]

theorem State.tbStep_timeJump (d : Nat) : (s.timeJump d).tbStep =
    (min (s.time.yt + d) (ns ytMax), s.time.slew, s.time.pend, s.rd tb TB_STATUS_STEP_PENDING) := by
  unfold State.timeJump
  dsimp only
  rw [State.tbStep_alarmPassed, State.tbStep_timeMoved]
  rfl

theorem State.tbStep_stepApply_back {x : Int} (h : x < 0) : (s.stepApply x).tbStep =
    (s.time.yt, s.time.slew + ns x.natAbs, s.time.pend, s.rd tb TB_STATUS_STEP_PENDING) := by
  rw [State.stepApply, if_pos h]
  rfl

theorem State.tbStep_stepApply_absorbed {x : Int} (h : 0 ≤ x) (hs : ns x.toNat ≤ s.time.slew) : (s.stepApply x).tbStep =
    (s.time.yt, s.time.slew - ns x.toNat, s.time.pend, s.rd tb TB_STATUS_STEP_PENDING) := by
  simp only [State.stepApply, if_neg (Int.not_lt.2 h), Nat.min_eq_left hs, Nat.lt_irrefl, if_false]
  rfl

theorem State.tbStep_stepApply_jump {x : Int} (h : 0 ≤ x) (hs : s.time.slew < ns x.toNat) : (s.stepApply x).tbStep =
    (min (s.time.yt + (ns x.toNat - s.time.slew)) (ns ytMax), 0, s.time.pend, s.rd tb TB_STATUS_STEP_PENDING) := by
  simp only [State.stepApply, if_neg (Int.not_lt.2 h), Nat.min_eq_right hs.le, if_pos hs, State.tbStep_timeJump, Nat.sub_self]
  rfl

/-- A step applied leaves what is pending, and what STATUS shows of it. -/
theorem State.pend_stepApply (x : Int) : (s.stepApply x).time.pend = s.time.pend ∧
    (s.stepApply x).rd tb TB_STATUS_STEP_PENDING = s.rd tb TB_STATUS_STEP_PENDING := by
  have hlook : ∃ y z, (s.stepApply x).tbStep = (y, z, s.time.pend, s.rd tb TB_STATUS_STEP_PENDING) := by
    by_cases h : x < 0
    · exact ⟨_, _, s.tbStep_stepApply_back h⟩
    · by_cases hs : ns x.toNat ≤ s.time.slew
      · exact ⟨_, _, s.tbStep_stepApply_absorbed (Int.not_lt.1 h) hs⟩
      · exact ⟨_, _, s.tbStep_stepApply_jump (Int.not_lt.1 h) (Nat.lt_of_not_le hs)⟩
  obtain ⟨y, z, hyz⟩ := hlook
  simp only [State.tbStep, Prod.mk.injEq] at hyz
  exact hyz.2.2

theorem State.rd_state_setTbState (new : Nat) (h : new < 8) : (s.setTbState new).rd tb TB_STATUS_STATE = new := by
  unfold State.setTbState
  dsimp only
  split
  next he => exact he.symm
  next => exact (State.rd_emit_tb (by decide) (by decide)).trans ((State.rd_wr_self _ _ _ _).trans (Nat.mod_eq_of_lt h))

theorem State.stepFirst_spec (x : Int) : (s.stepFirst x).rd tb TB_STATUS_STATE = 1 ∧
    (s.stepFirst x).time.yt = (clamp 0 (ns ytMax) ((s.time.yt : Int) + x * subNs)).toNat := by
  have hyt : ∀ (t : State) (c : Prop) [Decidable c] (old : Nat),
      (if c then (t.timeMoved old).alarmPassed old else t).tbStep = t.tbStep := fun t c _ old => by simp
  constructor
  · exact (State.rd_emit_tb (by decide) (by decide)).trans (State.rd_state_setTbState _ 1 (by decide))
  · have hlook : (s.stepFirst x).tbStep = State.tbStep { s with time := { s.time with
        yt := (clamp 0 (ns ytMax) ((s.time.yt : Int) + x * subNs)).toNat } } :=
      (State.tbStep_emit_tb _ _ _).trans ((State.tbStep_setTbState _ _).trans (hyt _ _ _))
    exact (State.tbStep_eq_iff.1 hlook).1

end

/-! ### The commands (R156 to R158) -/

section
variable {s : State} {w : Writer}

theorem exec_timeStepRequest (hw : s.tbWriterOk w = true) (hi : Word) :
    exec (.timeStepRequest w hi) s = .next (s.stepJudge (sint 64 (s.time.stepLo + 2 ^ 32 * hi.toNat))) :=
  congrArg _ (if_pos hw)

theorem exec_timeStepRequest_wrongWriter (hw : s.tbWriterOk w = false) (hi : Word) :
    exec (.timeStepRequest w hi) s = .next (s.wrongWriter w 0x114) := congrArg _ (if_neg (by simp [hw]))

/-- A step within the threshold leaves the time that its application gives: its record moves none. -/
theorem State.time_stepJudge_within {x : Int} (h0 : s.rd tb TB_STATUS_STATE ≠ 0) (hx : x.natAbs ≤ s.rd tb TB_JUMP_THRESH) :
    (s.stepJudge x).time = (s.stepApply x).time := by
  rw [State.stepJudge, if_neg h0, if_pos hx, State.time_emit_tb]

theorem State.acceptTest_match {key : Nat} {x : Int} (hw : w = .host ∨ w = .mss) (hp : s.time.pend = some x) (hk : uint 16 x = key) :
    s.acceptTest w key = (some x, s) := by
  rw [State.acceptTest, if_neg (by tauto), hp]
  exact if_pos hk

theorem State.acceptTest_wrongKey {key : Nat} {x : Int} (hw : w = .host ∨ w = .mss) (hp : s.time.pend = some x)
    (hk : uint 16 x ≠ key) : s.acceptTest w key = (none, s.wrongKey w) := by
  rw [State.acceptTest, if_neg (by tauto), hp]
  exact if_neg hk

theorem State.acceptTest_wrongWriter {key : Nat} (hh : w ≠ .host) (hm : w ≠ .mss) :
    s.acceptTest w key = (none, s.wrongWriter w 0x124) := if_pos ⟨hh, hm⟩

/-- The pending step is accepted. -/
theorem exec_stepAccept_match {key : BitVec 16} {x : Int} (h : s.acceptTest w key.toNat = (some x, s)) :
    exec (.stepAccept w key) s = .next (((s.setPend none).stepApply x).emit tb 0x1001 (le (uint 64 x) 8)) ∧
    exec (.stepDiscard w key) s = .next (s.setPend none) := by
  constructor
  · show execStepAccept w key s = _
    rw [execStepAccept, h]
  · show execStepDiscard w key s = _
    rw [execStepDiscard, h]

/-- A write that is not taken leaves its event alone. -/
theorem exec_stepAccept_refused {key : BitVec 16} {t : State} (h : s.acceptTest w key.toNat = (none, t)) :
    exec (.stepAccept w key) s = .next t ∧ exec (.stepDiscard w key) s = .next t := by
  constructor
  · show execStepAccept w key s = _
    rw [execStepAccept, h]
  · show execStepDiscard w key s = _
    rw [execStepDiscard, h]

theorem State.setPend_none_spec : (s.setPend none).time.pend = none ∧ (s.setPend none).rd tb TB_STATUS_STEP_PENDING = 0 :=
  ⟨rfl, State.rd_wr_self _ _ _ _⟩

end

/-- Settles O27: a step is judged by writer, STATE and threshold, and what a jump passes leaves `State.tbStep` as it is. -/
theorem timeSteps : Obligations.TimeSteps := by
  unfold Obligations.TimeSteps
  refine ⟨fun w hi s => ?_, fun w key s x hp => ⟨fun hw hk => ?_, fun hw hk => ?_, fun hh hm => ?_⟩⟩
  · intro x
    refine ⟨fun hw => exec_timeStepRequest_wrongWriter hw hi, fun hw h0 => ?_, fun hw h0 hx => ?_, fun hw h0 hx => ?_⟩
    · refine ⟨_, exec_timeStepRequest hw hi, ?_⟩
      rw [State.stepJudge, if_pos h0]
      exact s.stepFirst_spec x
    · have hlook : ∀ {y z : Nat}, (s.stepApply x).tbStep = (y, z, s.time.pend, s.rd tb TB_STATUS_STEP_PENDING) →
          completes (.timeStepRequest w hi) s fun t => t.time.yt = y ∧ t.time.slew = z := by
        intro y z h
        simp only [State.tbStep, Prod.mk.injEq] at h
        obtain ⟨hy, hz, -⟩ := h
        have ht := State.time_stepJudge_within h0 hx
        exact ⟨_, exec_timeStepRequest hw hi, (congrArg TimeSt.yt ht).trans hy, (congrArg TimeSt.slew ht).trans hz⟩
      exact ⟨fun hn => hlook (s.tbStep_stepApply_back hn), fun hn hs => hlook (s.tbStep_stepApply_absorbed hn hs),
        fun hn hs => hlook (s.tbStep_stepApply_jump hn hs)⟩
    · rw [exec_timeStepRequest hw, State.stepJudge, if_neg h0, if_neg (Nat.not_le.2 hx)]
  · obtain ⟨haccept, hdiscard⟩ := exec_stepAccept_match (State.acceptTest_match hw hp hk)
    obtain ⟨hpend, hshown⟩ := (s.setPend none).pend_stepApply x
    refine ⟨⟨_, haccept, ?_, ?_⟩, hdiscard⟩
    · rw [State.time_emit_tb, hpend]
      exact State.setPend_none_spec.1
    · rw [State.on_eq, State.rd_emit_tb (by decide) (by decide), hshown, State.setPend_none_spec.2]
      rfl
  · exact exec_stepAccept_refused (State.acceptTest_wrongKey hw hp hk)
  · exact exec_stepAccept_refused (State.acceptTest_wrongWriter hh hm)

end Sys2Proof.Machine
end

section
/-! PROOFS. The time base: rate, servo state, holdover and slewing (R156, R158, R160), and what the clock's advance leaves alone. -/

set_option autoImplicit false

namespace Sys2Proof.Machine

/-! ### The clock advances: only the running latency counts change with it (R156, R159, R164) -/

/-- The keys of what the passing core cycles write: count, SAT and RUN of the latency entries. -/
def rxlKeys : List Nat := (upTo 8).flatMap fun e => [fkey tb (TB_RXL_COUNT e), fkey tb (TB_RXL_SAT e), fkey tb (TB_RXL_RUN e)]

theorem notMem_rxlKeys {k : Nat} (h : k < 32 * (tb + 0x180) ∨ 32 * (tb + 0x200) ≤ k) : k ∉ rxlKeys := by
  simp only [rxlKeys, upTo, List.mem_flatMap, List.mem_range, List.mem_cons, List.not_mem_nil, or_false, not_exists, not_and]
  simp only [fkey, tb, TB_RXL_COUNT, TB_RXL_SAT, TB_RXL_RUN] at h ⊢
  omega

section
variable (s : State)

theorem onlyRegs_rxlRun {t : State} {e : Nat} (k : Nat) (he : e ∈ upTo 8) (h : onlyRegs rxlKeys s t) :
    onlyRegs rxlKeys s (State.rxlRun k t e) := by
  have hkey : ∀ f ∈ [TB_RXL_COUNT e, TB_RXL_SAT e, TB_RXL_RUN e], fkey tb f ∈ rxlKeys := fun f hf =>
    List.mem_flatMap.2 ⟨e, he, List.mem_map_of_mem (f := fkey tb) hf⟩
  unfold State.rxlRun
  dsimp only
  split
  · split
    · exact onlyRegs_wr (hkey _ (by simp)) h
    · exact onlyRegs_wb (hkey _ (by simp)) (onlyRegs_wb (hkey _ (by simp)) (onlyRegs_wr (hkey _ (by simp)) h))
  · exact h

theorem onlyRegs_setTime (t : TimeSt) : onlyRegs rxlKeys { s with time := t } (s.setTime t) :=
  onlyRegs_foldl (fun _ _ he h => onlyRegs_rxlRun _ _ he h) onlyRegs_refl

theorem State.time_setTime (t : TimeSt) : (s.setTime t).time = t := (s.setTime_time_hit t).1

/-- The clock with the coarse part's edges, or with the core's, passes nothing but time. -/
theorem TimeSt.outs_pass (t : TimeSt) (inc d : Nat) : (t.pass inc d).outs = t.outs := by
  unfold TimeSt.pass TimeSt.edges
  dsimp only
  split <;> rfl

theorem State.advanceTo_spec (x : Nat) : ∃ t : TimeSt, onlyRegs rxlKeys { s with time := t } (s.advanceTo x) ∧
    t.outs = s.time.outs := by
  unfold State.advanceTo
  split
  · exact ⟨_, onlyRegs_setTime s _, TimeSt.outs_pass _ _ _⟩
  · exact ⟨s.time, onlyRegs_refl, rfl⟩

/-- The running-rate clock passes core cycles or TCXO edges. -/
theorem State.advanceRun_spec (x : Nat) : ∃ t : TimeSt, onlyRegs rxlKeys { s with time := t } (s.advanceRun x) := by
  unfold State.advanceRun
  split
  · dsimp only
    split
    · exact ⟨_, onlyRegs_setTime s _⟩
    · exact ⟨_, onlyRegs_setTime s _⟩
  · exact ⟨s.time, onlyRegs_refl⟩

/-- No register but those of the latency entries changes. -/
theorem State.rd_advanceTo (x : Nat) {p : Nat} {f : Fld} (hf : fkey p f ∉ rxlKeys) : (s.advanceTo x).rd p f = s.rd p f := by
  obtain ⟨t, h, -⟩ := s.advanceTo_spec x
  exact h.rd hf

end

/-! ### STATUS.STATE (R160) -/

section
variable (s : State)

theorem State.setTbState_of_ne {new : Nat} (h : new ≠ s.rd tb TB_STATUS_STATE) : s.setTbState new =
    State.emit { s.wr tb TB_STATUS_STATE new with time := { s.time with holdFrom := if new = 3 then s.time.run else 0 } } tb 0x1801
      [new, s.rd tb TB_STATUS_STATE] := if_neg h

theorem State.setTbState_self {new : Nat} (h : new = s.rd tb TB_STATUS_STATE) : s.setTbState new = s := if_pos h

theorem State.run_setTbState (new : Nat) : (s.setTbState new).time.run = s.time.run := by
  by_cases h : new = s.rd tb TB_STATUS_STATE
  · rw [s.setTbState_self h]
  · rw [s.setTbState_of_ne h, State.time_emit_tb]

theorem State.holdFrom_setTbState_holdover (h : s.rd tb TB_STATUS_STATE ≠ 3) : (s.setTbState 3).time.holdFrom = s.time.run := by
  rw [s.setTbState_of_ne h.symm, State.time_emit_tb]
  rfl

/-- Of TB's other words a change of STATE writes none. -/
theorem State.rd_setTbState (new : Nat) {f : Fld} (hf : f.off * 32 + f.lo < 0x1000 * 32) (hraw : f.off * 32 + f.lo ≠ 0x10 * 32)
    (hstate : f.off * 32 + f.lo ≠ 0xC * 32) : (s.setTbState new).rd tb f = s.rd tb f := by
  by_cases h : new = s.rd tb TB_STATUS_STATE
  · rw [s.setTbState_self h]
  · rw [s.setTbState_of_ne h, State.rd_emit_tb hf hraw]
    exact State.rd_wr_same hstate

/-- HOLDOVER that has just begun does not run out: LIMIT is no less than 1 s. -/
theorem State.holdoverCheck_fresh (h : s.rd tb TB_STATUS_STATE = 3 → s.time.holdFrom = s.time.run) : s.holdoverCheck = s := by
  refine if_neg fun ⟨h3, hlimit⟩ => ?_
  have hlimit : 1 ≤ s.tbElapsed := (Nat.le_max_right _ _).trans hlimit
  simp [State.tbElapsed, h h3] at hlimit

end

/-! ### Slewing (R156) -/

section
variable {t : TimeSt} {inc : Nat}

/-- Yard time advances by what was withheld. -/
theorem TimeSt.pass_slew_fine (hc : t.coarse = false) : (t.pass inc t.slew).slew = 0 ∧ (t.pass inc t.slew).yt = t.yt + t.slew := by
  simp [TimeSt.pass, hc]

/-- Whole TCXO edges absorb the slew, each half of its worth, and yard time advances by no less. -/
theorem TimeSt.pass_slew_coarse (hinc : 0 < inc) (hc : t.coarse = true) :
    (t.pass inc t.slew).slew = 0 ∧ t.yt + t.slew ≤ (t.pass inc t.slew).yt := by
  have hedges := le_edgesFor_mul (inc := 48 * inc) (by omega) (t.slew + t.slew)
  generalize hn : edgesFor (48 * inc) (t.slew + t.slew) = n at hedges
  have hwhole : n * (48 * inc) = 48 * (n * inc) := Nat.mul_left_comm _ _ _
  have hhalf : n * (48 * inc - 48 * inc / 2) = 24 * (n * inc) := by
    rw [show 48 * inc - 48 * inc / 2 = 24 * inc by omega, Nat.mul_left_comm]
  simp only [TimeSt.pass, hc, if_true, Nat.min_self, hn, TimeSt.edges, hhalf, hwhole] at hedges ⊢
  omega

end

/-! ### The commands (R156, R158, R160) -/

section
variable {s : State} {w : Writer}

theorem exec_tbRateWrite (v : Word) : exec (.tbRateWrite w v) s =
    .next (if s.tbWriterOk w then s.wr tb TB_RATE_RATE v.toNat else s.wrongWriter w 0x10C) := rfl

theorem exec_servoStateWrite_other (hw : w ≠ .mss) (n : BitVec 3) : exec (.servoStateWrite w n) s = .next s :=
  congrArg _ (if_pos (.inl hw))

theorem exec_servoStateWrite_mss {n : BitVec 3} (h1 : 1 ≤ n.toNat) (h3 : n.toNat ≤ 3) (h0 : s.rd tb TB_STATUS_STATE ≠ 0)
    (h4 : s.rd tb TB_STATUS_STATE = 4 → n.toNat ≠ 3) :
    exec (.servoStateWrite .mss n) s = .next ((s.wr tb TB_SERVO_STATE n.toNat).setTbState n.toNat).holdoverCheck :=
  congrArg _ (if_neg (by
    have hn : n.toNat ≠ 0 := by omega
    have hn' : ¬ 3 < n.toNat := by omega
    simpa [hn, hn', h0] using h4))

theorem exec_holdoverExpire_in (h : s.rd tb TB_STATUS_STATE = 3) : exec .holdoverExpire s =
    .next ((s.advanceRun (s.time.holdFrom + ns (s.tbLimit * 10 ^ 9))).setTbState 4) := congrArg _ (if_pos h)

theorem exec_holdoverExpire_out (h : s.rd tb TB_STATUS_STATE ≠ 3) : exec .holdoverExpire s = .next s := congrArg _ (if_neg h)

end

/-- Settles O28: a written STATE begins no holdover that is over already; the slew's edges, fine or coarse, absorb it. -/
theorem timeBaseState : Obligations.TimeBaseState := by
  unfold Obligations.TimeBaseState
  intro w v s
  refine ⟨fun hw => ?_, fun hw => ?_, fun n hw => exec_servoStateWrite_other hw n, fun n h1 h3 h0 h4 hh => ?_, fun h3 => ?_,
    exec_holdoverExpire_out, ⟨_, rfl, ?_⟩⟩
  · rw [exec_tbRateWrite, if_pos hw]
  · rw [exec_tbRateWrite, if_neg (by simp [hw])]
  · refine ⟨_, exec_servoStateWrite_mss h1 h3 h0 h4, ?_⟩
    have hstate := State.rd_state_setTbState (s.wr tb TB_SERVO_STATE n.toNat) n.toNat n.isLt
    rw [State.holdoverCheck_fresh]
    · refine ⟨hstate, ?_⟩
      rw [State.rd_setTbState _ _ (by decide) (by decide) (by decide)]
      exact (State.rd_wr_self _ _ _ _).trans (Nat.mod_eq_of_lt n.isLt)
    · intro h
      have hn : n.toNat = 3 := hstate.symm.trans h
      have hwas : (s.wr tb TB_SERVO_STATE 3).rd tb TB_STATUS_STATE ≠ 3 := by
        rw [State.rd_wr_same (by decide)]
        exact fun h => hh h hn
      rw [hn, State.holdFrom_setTbState_holdover _ hwas, State.run_setTbState]
  · refine ⟨_, exec_holdoverExpire_in h3, State.rd_state_setTbState _ 4 (by decide), ?_⟩
    rw [State.run_setTbState]
    exact s.le_run_advanceRun _
  · beta_reduce
    rw [State.time_setTime]
    cases hc : s.time.coarse with
    | false =>
      obtain ⟨hslew, hyt⟩ := TimeSt.pass_slew_fine (inc := s.cycleInc) hc
      exact ⟨hslew, hyt.ge, fun _ => hyt⟩
    | true =>
      obtain ⟨hslew, hyt⟩ := TimeSt.pass_slew_coarse s.cycleInc_pos hc
      exact ⟨hslew, hyt, fun h => absurd h (by decide)⟩

end Sys2Proof.Machine
end

section
/-! PROOFS. Latency entries, the entry latch and the transmit stamp queue (R164 to R167). -/

set_option autoImplicit false

namespace Sys2Proof.Machine

/-! ### A latency entry is taken (R164) -/

section
variable (s : State) (e pre : Nat)

/-- Entry `e` taken, its count beginning at `pre`. -/
def State.rxlTaken (s : State) (e pre : Nat) : State :=
  (((s.wr tb (TB_RXL_COUNT e) pre).wb tb (TB_RXL_SAT e) false).wb tb (TB_RXL_RUN e) true).wb tb (TB_RXL_VALID e) true

theorem State.rxlTaken_spec : (s.rxlTaken e pre).on tb (TB_RXL_VALID e) = true ∧ (s.rxlTaken e pre).on tb (TB_RXL_RUN e) = true ∧
    (s.rxlTaken e pre).on tb (TB_RXL_SAT e) = false ∧ (s.rxlTaken e pre).rd tb (TB_RXL_COUNT e) = pre % 2 ^ 24 := by
  simp [State.rxlTaken, State.on_eq, State.wb_eq, State.rd_wr_same, TB_RXL_COUNT, TB_RXL_SAT, TB_RXL_RUN, TB_RXL_VALID, b2n]

/-- The frame on `port` that took entry `e` has not ended. -/
def State.rxlOpened (s : State) (e port : Nat) : State :=
  { s with time := { s.time with rxOpen := Store.put e port s.time.rxOpen } }

theorem State.rd_rxlOpened (port p : Nat) (f : Fld) : (s.rxlOpened e port).rd p f = s.rd p f := rfl
theorem State.on_rxlOpened (port p : Nat) (f : Fld) : (s.rxlOpened e port).on p f = s.on p f := rfl

end

section
variable {s : State} {port : Fin 18} {align : Nat}

theorem exec_sfdDetect_idle (h : bit (s.rd tb TB_PTP_PORTS_PORTS) port.val = false ∨ s.enabled (pg .net port.val) = false) :
    exec (.sfdDetect port align) s = .next s :=
  congrArg _ (if_pos (by simpa using h))

theorem exec_sfdDetect_full (hp : bit (s.rd tb TB_PTP_PORTS_PORTS) port.val = true) (he : s.enabled (pg .net port.val) = true)
    (hf : s.freeRxl = none) : exec (.sfdDetect port align) s = .next (s.emit tb 0x2801 [0, 0, 0, port.val]) := by
  show execSfdDetect port align s = _
  simp [execSfdDetect, State.sfdDetect, hp, he, hf]

theorem exec_sfdDetect_free {e : Nat} (hp : bit (s.rd tb TB_PTP_PORTS_PORTS) port.val = true)
    (he : s.enabled (pg .net port.val) = true) (hu : s.unlocked = false) (hf : s.freeRxl = some e) :
    exec (.sfdDetect port align) s = .next ((s.rxlTaken e (portLatency (s.netMode port.val) align)).rxlOpened e port.val) := by
  show execSfdDetect port align s = _
  simp [execSfdDetect, State.sfdDetect, hp, he, hf, State.perturb_locked s tb hu, State.rxlTaken, State.rxlOpened]

end

/-! ### The entry latch (R165) -/

section
variable (s : State)

/-- The count of entry `e` stops. -/
def State.rxlStop (s : State) (e : Nat) : State := s.wb tb (TB_RXL_RUN e) false

theorem State.on_rxlStop_of_off {i : Nat} (e : Nat) (h : s.on tb (TB_RXL_RUN i) = false) :
    (s.rxlStop e).on tb (TB_RXL_RUN i) = false := by
  by_cases hie : i = e
  · rw [hie]
    exact State.on_wb_false _ _ _
  · rw [State.rxlStop, State.on_eq, State.wb_eq, State.rd_wr_same, ← State.on_eq, h]
    simp only [TB_RXL_RUN]
    omega

theorem State.on_foldl_rxlStop {i : Nat} (l : List Nat) (h : i ∈ l ∨ s.on tb (TB_RXL_RUN i) = false) :
    (l.foldl State.rxlStop s).on tb (TB_RXL_RUN i) = false := by
  induction l generalizing s with
  | nil => simpa using h
  | cons e l ih =>
    refine ih _ ?_
    rcases h with h | h
    · exact (List.mem_cons.1 h).symm.imp id fun he => by
        rw [he]
        exact State.on_wb_false _ _ _
    · exact .inr (s.on_rxlStop_of_off e h)

/-- The words below the entries stay as they are. -/
theorem State.rd_foldl_rxlStop {f : Fld} (hf : f.off * 32 + f.lo < 0x180 * 32) (l : List Nat) :
    (l.foldl State.rxlStop s).rd tb f = s.rd tb f := by
  induction l generalizing s with
  | nil => rfl
  | cons e l ih =>
    rw [List.foldl_cons, ih, State.rxlStop, State.wb_eq, State.rd_wr_same]
    simp only [TB_RXL_RUN]
    omega

theorem exec_entryLatch : exec .entryLatch s =
    .next ((upTo 8).foldl State.rxlStop (s.wr64 tb TB_ENTRY_LO_T TB_ENTRY_HI_T s.now)) := rfl

end

/-! ### A count reaches its end (R164, R165) -/

section
variable (s : State)

/-- Entry `e` runs. -/
def State.rxlRuns (s : State) (e : Nat) : Prop := s.on tb (TB_RXL_VALID e) = true ∧ s.on tb (TB_RXL_RUN e) = true

/-- The count of entry `e` stands at its end. -/
def State.rxlFull (s : State) (e : Nat) : Prop :=
  s.rd tb (TB_RXL_COUNT e) = 0xFFFFFF ∧ s.on tb (TB_RXL_SAT e) = true ∧ s.on tb (TB_RXL_RUN e) = false

theorem State.rxlRun_eq (k e : Nat) : State.rxlRun k s e =
    if s.on tb (TB_RXL_VALID e) && s.on tb (TB_RXL_RUN e) then
      if s.rd tb (TB_RXL_COUNT e) + k < 0xFFFFFF then s.wr tb (TB_RXL_COUNT e) (s.rd tb (TB_RXL_COUNT e) + k)
      else ((s.wr tb (TB_RXL_COUNT e) 0xFFFFFF).wb tb (TB_RXL_SAT e) true).wb tb (TB_RXL_RUN e) false
    else s := rfl

theorem State.rxlRun_stopped {e : Nat} (k : Nat) (h : s.on tb (TB_RXL_RUN e) = false) : State.rxlRun k s e = s := by
  simp [State.rxlRun_eq, h]

/-- Core cycles counted for one entry leave another one's word as it is. -/
theorem State.rxlRun_other {e i : Nat} (hie : i ≠ e) (k : Nat) :
    (State.rxlRun k s e).rd tb (TB_RXL_COUNT i) = s.rd tb (TB_RXL_COUNT i) ∧
    (State.rxlRun k s e).rd tb (TB_RXL_SAT i) = s.rd tb (TB_RXL_SAT i) ∧
    (State.rxlRun k s e).rd tb (TB_RXL_RUN i) = s.rd tb (TB_RXL_RUN i) ∧
    (State.rxlRun k s e).rd tb (TB_RXL_VALID i) = s.rd tb (TB_RXL_VALID i) := by
  have hword : ∀ f : Fld, f.off = 0x180 + 16 * i → f.lo < 32 → (State.rxlRun k s e).rd tb f = s.rd tb f := by
    intro f hoff hlo
    have hcount : ∀ (u : State) (v : Nat), (u.wr tb (TB_RXL_COUNT e) v).rd tb f = u.rd tb f := fun u v =>
      State.rd_wr_same (by simp only [TB_RXL_COUNT]; omega)
    have hsat : ∀ u : State, (u.wb tb (TB_RXL_SAT e) true).rd tb f = u.rd tb f := fun u =>
      State.rd_wr_same (by simp only [TB_RXL_SAT]; omega)
    have hrun : ∀ u : State, (u.wb tb (TB_RXL_RUN e) false).rd tb f = u.rd tb f := fun u =>
      State.rd_wr_same (by simp only [TB_RXL_RUN]; omega)
    rw [State.rxlRun_eq]
    split
    · split
      · rw [hcount]
      · rw [hrun, hsat, hcount]
    · rfl
  exact ⟨hword _ rfl (by simp [TB_RXL_COUNT]), hword _ rfl (by simp [TB_RXL_SAT]), hword _ rfl (by simp [TB_RXL_RUN]),
    hword _ rfl (by simp [TB_RXL_VALID])⟩

theorem State.rxlFull_rxlRun {e : Nat} {k : Nat} (h : s.rxlRuns e) (hk : 0xFFFFFF ≤ s.rd tb (TB_RXL_COUNT e) + k) :
    (State.rxlRun k s e).rxlFull e := by
  obtain ⟨hvalid, hrun⟩ := h
  rw [State.rxlRun_eq, hvalid, hrun, Bool.and_self, if_pos rfl, if_neg (Nat.not_lt.2 hk)]
  simp [State.rxlFull, State.on_eq, State.wb_eq, State.rd_wr_same, TB_RXL_COUNT, TB_RXL_SAT, TB_RXL_RUN, b2n]

/-- A count at its end stays there, whatever entry the cycles are counted for. -/
theorem State.rxlFull.rxlRun {s : State} {e : Nat} (h : s.rxlFull e) (k x : Nat) : (State.rxlRun k s x).rxlFull e := by
  by_cases hx : e = x
  · obtain ⟨-, -, hrun⟩ := id h
    rwa [← hx, s.rxlRun_stopped k hrun]
  · obtain ⟨hcount, hsat, hrun, -⟩ := s.rxlRun_other hx k
    simpa only [State.rxlFull, State.on_eq, hcount, hsat, hrun] using h

theorem State.rxlFull_foldl {e k : Nat} (l : List Nat)
    (h : s.rxlFull e ∨ (e ∈ l ∧ s.rxlRuns e ∧ 0xFFFFFF ≤ s.rd tb (TB_RXL_COUNT e) + k)) :
    (l.foldl (State.rxlRun k) s).rxlFull e := by
  induction l generalizing s with
  | nil => exact h.resolve_right fun h => absurd h.1 List.not_mem_nil
  | cons x l ih =>
    refine ih _ ?_
    rcases h with h | ⟨he, hruns, hk⟩
    · exact .inl (h.rxlRun k x)
    · by_cases hx : e = x
      · subst hx
        exact .inl (s.rxlFull_rxlRun hruns hk)
      · obtain ⟨hcount, -, hrun, hvalid⟩ := s.rxlRun_other hx k
        refine .inr ⟨(List.mem_cons.1 he).resolve_left hx, ?_, by rwa [hcount]⟩
        simpa only [State.rxlRuns, State.on_eq, hrun, hvalid] using hruns

theorem State.rxlFull_setTime {e : Nat} {t : TimeSt} (he : e < 8) (h : s.rxlRuns e)
    (hk : 0xFFFFFF ≤ s.rd tb (TB_RXL_COUNT e) + (t.cyc - s.time.cyc)) : (s.setTime t).rxlFull e :=
  State.rxlFull_foldl { s with time := t } (upTo 8) (.inr ⟨List.mem_range.2 he, h, hk⟩)

/-- The rate is a multiple of ten, so half of any span of whole core cycles is whole. -/
theorem State.cycleInc_even : s.cycleInc % 2 = 0 := by
  unfold State.cycleInc
  omega

/-- With the core clock running, `k` core cycles of running-rate time are at least `k` cycles counted. -/
theorem State.advanceRun_cycles (hc : s.time.coarse = false) (k : Nat) :
    s.advanceRun (s.time.run + k * s.cycleInc) = s ∧ k = 0 ∨ ∃ t : TimeSt, s.advanceRun (s.time.run + k * s.cycleInc) = s.setTime t ∧
      t.run = s.time.run + k * s.cycleInc ∧ k ≤ t.cyc - s.time.cyc := by
  have hinc := s.cycleInc_pos
  rcases Nat.eq_zero_or_pos k with rfl | hk
  · refine .inl ⟨?_, rfl⟩
    unfold State.advanceRun
    rw [if_neg (by omega)]
  · have hneed : 0 < k * s.cycleInc := Nat.mul_pos hk hinc
    have heven : k * s.cycleInc % 2 = 0 := by
      rw [Nat.mul_mod, s.cycleInc_even]
      simp
    have hpassed : ∀ d, d + min d s.time.slew = k * s.cycleInc → k ≤ (s.time.pass s.cycleInc d).cyc - s.time.cyc := by
      intro d hd
      have hwhole : k ≤ (s.time.frac + k * s.cycleInc) / s.cycleInc := (Nat.le_div_iff_mul_le hinc).2 (Nat.le_add_left _ _)
      simpa [TimeSt.pass, hc, hd, Nat.max_eq_left (show 1 ≤ s.cycleInc from hinc)] using hwhole
    have hspan : ∃ d, d + min d s.time.slew = k * s.cycleInc ∧ s.advanceRun (s.time.run + k * s.cycleInc) =
        s.setTime { s.time.pass s.cycleInc d with run := s.time.run + k * s.cycleInc } := by
      refine ⟨if k * s.cycleInc ≤ 2 * s.time.slew then k * s.cycleInc / 2 else k * s.cycleInc - s.time.slew, ?_, ?_⟩
      · split <;> omega
      · unfold State.advanceRun
        rw [if_pos (by omega), Nat.add_sub_cancel_left, hc]
        rfl
    obtain ⟨d, hd, hadv⟩ := hspan
    exact .inr ⟨_, hadv, rfl, hpassed d hd⟩

theorem exec_latencyCountSaturate_stopped {e : Fin 8} (hc : s.time.coarse = true) : exec (.latencyCountSaturate e) s = .next s :=
  congrArg _ (if_neg (by simp [hc]))

theorem exec_latencyCountSaturate {e : Fin 8} (h : s.rxlRuns e.val) (hc : s.time.coarse = false) : exec (.latencyCountSaturate e) s =
    .next (State.rxlRun 0 (s.advanceRun (s.time.run + (0xFFFFFF - s.rd tb (TB_RXL_COUNT e.val)) * s.cycleInc)) e.val) :=
  congrArg _ (if_pos ⟨h.1, h.2, by simp [hc]⟩)

theorem State.latencyCount_spec {e : Nat} (he : e < 8) (h : s.rxlRuns e) (hc : s.time.coarse = false) :
    (State.rxlRun 0 (s.advanceRun (s.time.run + (0xFFFFFF - s.rd tb (TB_RXL_COUNT e)) * s.cycleInc)) e).rxlFull e ∧
    (s.advanceRun (s.time.run + (0xFFFFFF - s.rd tb (TB_RXL_COUNT e)) * s.cycleInc)).time.run =
      s.time.run + (0xFFFFFF - s.rd tb (TB_RXL_COUNT e)) * s.cycleInc := by
  rcases s.advanceRun_cycles hc (0xFFFFFF - s.rd tb (TB_RXL_COUNT e)) with ⟨hs, h0⟩ | ⟨t, ht, hrun, hk⟩
  · rw [hs, h0]
    exact ⟨s.rxlFull_rxlRun h (by omega), by omega⟩
  · rw [ht, State.time_setTime]
    exact ⟨(s.rxlFull_setTime he h (by omega)).rxlRun 0 e, hrun⟩

end

/-- Settles O29: a running count saturates by the cycles that its distance to the end takes; the latch stops each of the eight. -/
theorem latencyAndStamps : Obligations.LatencyAndStamps := by
  unfold Obligations.LatencyAndStamps
  intro w s
  refine ⟨fun port align e hp he hu hf => ?_, fun port align => ⟨exec_sfdDetect_idle, exec_sfdDetect_full⟩,
    ⟨_, exec_entryLatch s, ?_, ?_, fun e he => ?_⟩, fun e hvalid hrun => ⟨fun hc => ?_, exec_latencyCountSaturate_stopped s⟩,
    fun h => ?_, fun x l h => ?_⟩
  · obtain ⟨hvalid, hrun, hsat, hcount⟩ := s.rxlTaken_spec e (portLatency (s.netMode port.val) align)
    refine ⟨_, exec_sfdDetect_free hp he hu hf, ?_⟩
    simp only [State.on_rxlOpened, State.rd_rxlOpened]
    exact ⟨hvalid, hrun, hsat, hcount, Store.find_put_self _ _ _⟩
  · rw [State.rd_foldl_rxlStop _ (by decide), State.wr64, State.rd_wr_same (by decide)]
    exact State.rd_wr_self _ _ _ _
  · rw [State.rd_foldl_rxlStop _ (by decide)]
    exact State.rd_wr_self _ _ _ _
  · exact State.on_foldl_rxlStop _ _ (.inl (List.mem_range.2 he))
  · obtain ⟨⟨hcount, hsat, hstop⟩, htime⟩ := s.latencyCount_spec e.isLt ⟨hvalid, hrun⟩ hc
    refine ⟨_, exec_latencyCountSaturate s ⟨hvalid, hrun⟩ hc, hcount, hsat, hstop, ?_⟩
    rw [(State.rxlRun_time_hit _ 0 e.val).1]
    exact htime
  · show execTxqPop w s = _
    rw [execTxqPop, h]
    rfl
  · show execTxqPop w s = _
    rw [execTxqPop, h]
    rfl

end Sys2Proof.Machine
end

section
/-! PROOFS. Time inputs and time outputs (R155, R170, R171, R173). -/

set_option autoImplicit false

namespace Sys2Proof.Machine

/-! ### Time inputs (R155, R170) -/

section
variable {s : State} {j : Fin 8} {x : TiEdge}

theorem State.tiSees_eq_false (h : s.on tb (TB_TI_CTRL_EN j.val) = false ∨
    edgeSelected (s.rd tb (TB_TI_CTRL_EDGE j.val)) x.rising = false ∨ x.pulse < 4) : s.tiSees j.val x = false := by
  unfold State.tiSees
  rcases h with h | h | h
  · simp [h]
  · simp [h]
  · simp [Nat.not_le.2 h]

theorem exec_tiCapture_ignored (h : s.tiSees j.val x = false) : exec (.tiCapture j x) s = .next s := by
  show execTiCapture j x s = _
  simp [execTiCapture, State.tiCapture, h]

/-- What a capture writes: the time, the count and the edge. -/
def State.tiCaught (s : State) (i t : Nat) (rising : Bool) : State :=
  ((s.wr64 tb (TB_TI_CAP_LO_T i) (TB_TI_CAP_HI_T i) t).inc tb (TB_TI_STAT_COUNT i) 1).wb tb (TB_TI_STAT_LAST_EDGE i) rising

theorem State.tiCaught_spec (s : State) (i t : Nat) (rising : Bool) :
    (s.tiCaught i t rising).rd tb (TB_TI_CAP_LO_T i) = t % 2 ^ 32 ∧
    (s.tiCaught i t rising).rd tb (TB_TI_CAP_HI_T i) = t / 2 ^ 32 % 2 ^ 32 ∧
    (s.tiCaught i t rising).rd tb (TB_TI_STAT_COUNT i) = (s.rd tb (TB_TI_STAT_COUNT i) + 1) % 2 ^ (TB_TI_STAT_COUNT i).w := by
  have hlow : ∀ (u : State) {f g : Fld} (v : Nat), f.off < g.off → f.lo < 32 → (u.wr tb g v).rd tb f = u.rd tb f :=
    fun u f g v h hf => State.rd_wr_same (by omega)
  have hedge : ∀ (u : State) (v : Nat), (u.wr tb (TB_TI_STAT_LAST_EDGE i) v).rd tb (TB_TI_STAT_COUNT i) = u.rd tb (TB_TI_STAT_COUNT i) :=
    fun u v => State.rd_wr_same (by simp [TB_TI_STAT_LAST_EDGE, TB_TI_STAT_COUNT])
  have hhigh : ∀ (u : State) {g : Fld} (v : Nat), g.off < 0x30C + 16 * i → g.lo < 32 →
      (u.wr tb g v).rd tb (TB_TI_STAT_COUNT i) = u.rd tb (TB_TI_STAT_COUNT i) := fun u g v h hg =>
    State.rd_wr_same (by simp only [TB_TI_STAT_COUNT]; omega)
  unfold State.tiCaught
  refine ⟨?_, ?_, ?_⟩
  · rw [State.wb_eq, hlow _ _ (by simp [TB_TI_CAP_LO_T, TB_TI_STAT_LAST_EDGE]) (by simp [TB_TI_CAP_LO_T]), State.inc_eq,
      hlow _ _ (by simp [TB_TI_CAP_LO_T, TB_TI_STAT_COUNT]) (by simp [TB_TI_CAP_LO_T]), State.wr64,
      hlow _ _ (by simp [TB_TI_CAP_LO_T, TB_TI_CAP_HI_T]) (by simp [TB_TI_CAP_LO_T])]
    exact State.rd_wr_self _ _ _ _
  · rw [State.wb_eq, hlow _ _ (by simp [TB_TI_CAP_HI_T, TB_TI_STAT_LAST_EDGE]) (by simp [TB_TI_CAP_HI_T]), State.inc_eq,
      hlow _ _ (by simp [TB_TI_CAP_HI_T, TB_TI_STAT_COUNT]) (by simp [TB_TI_CAP_HI_T])]
    exact State.rd_wr_self _ _ _ _
  · rw [State.wb_eq, hedge, State.inc_eq, State.rd_wr_self, State.wr64, hhigh _ _ (by simp [TB_TI_CAP_HI_T]) (by simp [TB_TI_CAP_HI_T]),
      hhigh _ _ (by simp [TB_TI_CAP_LO_T]) (by simp [TB_TI_CAP_LO_T])]

/-- After the capture come its record and a wake cause, which write none of TB's words but EVT_RAW. -/
theorem exec_tiCapture_seen (h : s.tiSees j.val x = true) : ∃ t, exec (.tiCapture j x) s = .next t ∧
    ∀ f : Fld, f.off * 32 + f.lo < 0x1000 * 32 → f.off * 32 + f.lo ≠ 0x10 * 32 →
      t.rd tb f = (s.tiCaught j.val (s.stamp - tiDelay) x.rising).rd tb f := by
  have hrecord : ∀ f : Fld, f.off * 32 + f.lo < 0x1000 * 32 → f.off * 32 + f.lo ≠ 0x10 * 32 →
      (s.tiCapture j.val x).rd tb f = (s.tiCaught j.val (s.stamp - tiDelay) x.rising).rd tb f := by
    intro f hf hraw
    have hcap : s.tiCapture j.val x = if (s.tiCaught j.val (s.stamp - tiDelay) x.rising).on tb (TB_TI_CTRL_RECORD j.val) then
        (s.tiCaught j.val (s.stamp - tiDelay) x.rising).emitAt tb (s.stamp - tiDelay) 0x3001 [j.val, b2n x.rising]
        else s.tiCaught j.val (s.stamp - tiDelay) x.rising := if_neg (by simp [h])
    rw [hcap]
    split
    · exact State.rd_emitAt_tb hf hraw
    · rfl
  refine ⟨_, rfl, fun f hf hraw => ?_⟩
  split
  · exact (((s.tiCapture j.val x).wake_spec 4).2 f).trans (hrecord f hf hraw)
  · exact hrecord f hf hraw

end

/-! ### The schedule of a time output (R171) -/

section
variable (s : State) (j : Nat)

@[simp] theorem State.tout_setTout (x : TimeOut) : (s.setTout j x).tout j = x := Store.getD_setD_self _ _ _ _

theorem State.tout_congr {s t : State} (h : t.time = s.time) (j : Nat) : t.tout j = s.tout j := by rw [State.tout, State.tout, h]

/-- A disarmed output has nothing scheduled. -/
theorem State.disarmed_toDisarm : (s.toDisarm j).on tb (TB_TO_CTRL_ARM j) = false ∧ ((s.toDisarm j).tout j).next = none := by
  unfold State.toDisarm
  exact ⟨State.on_wb_false _ _ _, by rw [State.tout_setTout]⟩

/-- Output `j` is armed for time `t`. -/
def State.toArm (s : State) (j t : Nat) : State := (s.wb tb (TB_TO_CTRL_ARM j) true).setTout j { s.tout j with next := some t }

theorem State.armed_toArm (t : Nat) : (s.toArm j t).on tb (TB_TO_CTRL_ARM j) = true ∧ ((s.toArm j t).tout j).next = some t := by
  unfold State.toArm
  exact ⟨State.on_wb_true _ _ _ rfl, by rw [State.tout_setTout]⟩

/-- A START already past misses a single pulse (R171). -/
def State.toMissed (s : State) (j start : Nat) : State :=
  ((s.toDisarm j).wb tb (TB_TO_STAT_MISSED j) true).emit tb 0x3802 ([j] ++ le 0 7 ++ le start 8)

theorem State.toMissed_spec {j : Nat} (hj : j < 8) (start : Nat) : (s.toMissed j start).on tb (TB_TO_CTRL_ARM j) = false ∧
    ((s.toMissed j start).tout j).next = none ∧ (s.toMissed j start).on tb (TB_TO_STAT_MISSED j) = true := by
  obtain ⟨harm, hnext⟩ := s.disarmed_toDisarm j
  unfold State.toMissed
  refine ⟨?_, ?_, ?_⟩
  · rw [State.on_eq, State.rd_emit_tb, State.wb_eq, State.rd_wr_same, ← State.on_eq, harm]
    all_goals
      simp only [TB_TO_CTRL_ARM, TB_TO_STAT_MISSED]
      omega
  · rw [State.tout_congr State.time_emit_tb]
    exact hnext
  · rw [State.on_eq, State.rd_emit_tb, ← State.on_eq]
    · exact State.on_wb_true _ _ _ rfl
    all_goals
      simp only [TB_TO_STAT_MISSED]
      omega

end

section
variable {s : State} {w : Writer} {j : Fin 8}

theorem exec_timeOutputArm_off (h : s.on tb (TB_TO_CTRL_EN j.val) = false) : exec (.timeOutputArm w j) s = .next s :=
  congrArg _ (if_pos (by simp [h]))

theorem exec_timeOutputArm_refused (h : s.on tb (TB_TO_CTRL_EN j.val) = true)
    (hp : s.rd tb (TB_TO_PERIOD_NS j.val) ≤ s.rd tb (TB_TO_WIDTH_NS j.val)) :
    exec (.timeOutputArm w j) s = .next (s.toDisarm j.val) :=
  congrArg _ ((if_neg (by simp [h])).trans (if_pos hp))

/-- An enabled output whose period exceeds its width: the present decides. -/
theorem exec_timeOutputArm (h : s.on tb (TB_TO_CTRL_EN j.val) = true)
    (hp : s.rd tb (TB_TO_WIDTH_NS j.val) < s.rd tb (TB_TO_PERIOD_NS j.val)) : exec (.timeOutputArm w j) s = .next
      (if s.now ≤ s.rd64 tb (TB_TO_START_LO_T j.val) (TB_TO_START_HI_T j.val) then
        s.toArm j.val (s.rd64 tb (TB_TO_START_LO_T j.val) (TB_TO_START_HI_T j.val))
      else if s.on tb (TB_TO_CTRL_PERIODIC j.val) then
        s.toArm j.val (gridAt (s.rd64 tb (TB_TO_START_LO_T j.val) (TB_TO_START_HI_T j.val)) (s.rd tb (TB_TO_PERIOD_NS j.val)) s.now)
      else s.toMissed j.val (s.rd64 tb (TB_TO_START_LO_T j.val) (TB_TO_START_HI_T j.val))) :=
  congrArg _ ((if_neg (by simp [h])).trans (if_neg (Nat.not_le.2 hp)))

end

/-! ### Edges and pulses (R171) -/

section
variable (s : State)

/-- The clock's advance drives no pin, and keeps the schedules and TB's words behind the latency entries. -/
theorem State.advanceTo_pins (x : Nat) : (s.advanceTo x).out = s.out ∧ (∀ j, (s.advanceTo x).tout j = s.tout j) ∧
    ∀ f : Fld, 0x200 ≤ f.off → (s.advanceTo x).rd tb f = s.rd tb f := by
  refine ⟨?_, ?_, fun f hf => s.rd_advanceTo x (notMem_rxlKeys (.inr ?_))⟩
  · obtain ⟨t, h, -⟩ := s.advanceTo_spec x
    rw [h.1]
  · obtain ⟨t, h, houts⟩ := s.advanceTo_spec x
    intro j
    rw [h.1]
    exact congrArg (Store.getD ⟨none, none⟩ j) houts
  · simp only [fkey, tb]
    omega

/-- With the core clock running, yard time reaches a time ahead of it exactly. -/
theorem State.now_advanceTo (hc : s.time.coarse = false) (x : Nat) : (s.advanceTo x).now = max s.now x := by
  have hsub : 0 < subNs := by decide
  unfold State.advanceTo
  split
  next h =>
    have hyt : (s.setTime (s.time.pass s.cycleInc (ns x - s.time.yt))).time.yt = x * subNs := by
      rw [State.time_setTime, TimeSt.pass, hc]
      show s.time.yt + (ns x - s.time.yt) = _
      rw [Nat.add_sub_cancel' h.le]
      exact Nat.mul_comm _ _
    have hle : s.now ≤ x := Nat.div_le_of_le_mul h.le
    rw [State.now, hyt, Nat.mul_div_cancel _ hsub, Nat.max_eq_right hle]
  next h =>
    have hle : x ≤ s.now := (Nat.le_div_iff_mul_le hsub).2 ((Nat.mul_comm _ _).trans_le (Nat.not_lt.1 h))
    exact (Nat.max_eq_left hle).symm

/-- A pulse begins: it is counted, its pin is active, and it ends one WIDTH later. -/
theorem State.toEdge_spec (j t : Nat) : ((s.toEdge j t).tout j).pulseEnd = some (s.now + s.rd tb (TB_TO_WIDTH_NS j)) ∧
    (s.toEdge j t).now = s.now ∧
    (s.toEdge j t).rd tb (TB_TO_STAT_PULSES j) = (s.rd tb (TB_TO_STAT_PULSES j) + 1) % 2 ^ (TB_TO_STAT_PULSES j).w ∧
    (s.toEdge j t).out = s.out ++ [.pin "TOUT" j (b2n (true != s.on tb (TB_TO_CTRL_POL j)))] := by
  obtain ⟨x, hx⟩ : ∃ x, s.toEdge j t = (((s.setTout j ⟨x, some (s.now + s.rd tb (TB_TO_WIDTH_NS j))⟩).inc tb
      (TB_TO_STAT_PULSES j) 1).toDrive j true) := ⟨_, rfl⟩
  have hpol : ∀ (u : State) (v : Nat), (u.wr tb (TB_TO_STAT_PULSES j) v).on tb (TB_TO_CTRL_POL j) = u.on tb (TB_TO_CTRL_POL j) := by
    intro u v
    rw [State.on_eq, State.rd_wr_same, ← State.on_eq]
    simp only [TB_TO_CTRL_POL, TB_TO_STAT_PULSES]
    omega
  rw [hx]
  refine ⟨?_, rfl, State.rd_wr_self _ _ _ _, ?_⟩
  · exact congrArg TimeOut.pulseEnd (s.tout_setTout j ⟨x, some (s.now + s.rd tb (TB_TO_WIDTH_NS j))⟩)
  · rw [State.toDrive, State.inc_eq, hpol]
    rfl

/-- A pulse has ended: its pin is inactive. -/
def State.toEnd (s : State) (j : Nat) : State := (s.setTout j { s.tout j with pulseEnd := none }).toDrive j false

theorem State.tout_toEnd (j : Nat) : (s.toEnd j).tout j = { s.tout j with pulseEnd := none } := s.tout_setTout j _

end

section
variable {s : State} {j : Fin 8} {a : Nat}

theorem exec_timeOutputEdge_none (h : (s.tout j.val).next = none) : exec (.timeOutputEdge j) s = .next s := by
  show execTimeOutputEdge j s = _
  rw [execTimeOutputEdge, h]

theorem exec_timeOutputEdge (h : (s.tout j.val).next = some a) :
    exec (.timeOutputEdge j) s = .next ((s.advanceTo a).toEdge j.val a) := by
  show execTimeOutputEdge j s = _
  rw [execTimeOutputEdge, h]

theorem exec_timeOutputPulseEnd_none (h : (s.tout j.val).pulseEnd = none) : exec (.timeOutputPulseEnd j) s = .next s := by
  show execTimeOutputPulseEnd j s = _
  rw [execTimeOutputPulseEnd, h]

/-- With nothing more scheduled the output is disarmed. -/
theorem exec_timeOutputPulseEnd (h : (s.tout j.val).pulseEnd = some a) : exec (.timeOutputPulseEnd j) s = .next
    (if (s.tout j.val).next.isNone then ((s.advanceTo a).toEnd j.val).wb tb (TB_TO_CTRL_ARM j.val) false
      else (s.advanceTo a).toEnd j.val) := by
  have hnext : (((s.advanceTo a).toEnd j.val).tout j.val).next = (s.tout j.val).next := by
    rw [State.tout_toEnd]
    show ((s.advanceTo a).tout j.val).next = _
    rw [(s.advanceTo_pins a).2.1]
  rw [← hnext]
  show execTimeOutputPulseEnd j s = _
  rw [execTimeOutputPulseEnd, h]
  rfl

end

/-- Settles O30: what a capture's record, a wake and the clock's advance write is none of the words that the clauses name. -/
theorem timePins : Obligations.TimePins := by
  unfold Obligations.TimePins
  intro w j s start
  refine ⟨fun x hen hedge hpulse => ?_, fun x h => exec_tiCapture_ignored (State.tiSees_eq_false h), exec_timeOutputArm_off,
    exec_timeOutputArm_refused, fun hen hwidth => ?_, exec_timeOutputEdge_none, fun a ha => ?_, exec_timeOutputPulseEnd_none,
    fun a ha => ?_⟩
  · obtain ⟨t, hexec, hrd⟩ := exec_tiCapture_seen (s := s) (j := j) (x := x) (by simp [State.tiSees, hen, hedge, hpulse])
    obtain ⟨hlo, hhi, hcount⟩ := s.tiCaught_spec j.val (s.stamp - tiDelay) x.rising
    refine ⟨t, hexec, (hrd _ ?_ ?_).trans hlo, (hrd _ ?_ ?_).trans hhi, (hrd _ ?_ ?_).trans hcount⟩
    all_goals
      simp only [TB_TI_CAP_LO_T, TB_TI_CAP_HI_T, TB_TI_STAT_COUNT]
      omega
  · have hexec := exec_timeOutputArm (w := w) hen hwidth
    refine ⟨fun hs => ?_, fun hs hp => ?_, fun hs hp => ?_⟩
    · rw [if_pos hs] at hexec
      exact ⟨_, hexec, s.armed_toArm j.val start⟩
    · rw [if_neg (Nat.not_le.2 hs), if_pos hp] at hexec
      exact ⟨_, hexec, s.armed_toArm j.val _⟩
    · rw [if_neg (Nat.not_le.2 hs), hp] at hexec
      exact ⟨_, hexec, s.toMissed_spec j.isLt start⟩
  · obtain ⟨hend, hnow, hpulses, hout⟩ := (s.advanceTo a).toEdge_spec j.val a
    obtain ⟨hsame, -, hrd⟩ := s.advanceTo_pins a
    refine ⟨_, exec_timeOutputEdge ha, ?_, fun hc => ?_, ?_, ?_⟩
    · rw [hend, hnow, hrd _ (by simp only [TB_TO_WIDTH_NS]; omega)]
    · rw [hnow, s.now_advanceTo hc]
    · rw [hpulses, hrd _ (by simp only [TB_TO_STAT_PULSES]; omega)]
    · rw [hout, hsame, State.on_eq, hrd _ (by simp only [TB_TO_CTRL_POL]; omega), ← State.on_eq]
  · obtain ⟨hsame, -, hrd⟩ := s.advanceTo_pins a
    have hpulse : (((s.advanceTo a).toEnd j.val).tout j.val).pulseEnd = none := by rw [State.tout_toEnd]
    have hout : ((s.advanceTo a).toEnd j.val).out = s.out ++ [.pin "TOUT" j.val (b2n (false != s.on tb (TB_TO_CTRL_POL j.val)))] := by
      rw [← hsame, State.on_eq, ← hrd _ (by simp only [TB_TO_CTRL_POL]; omega), ← State.on_eq]
      rfl
    refine ⟨_, exec_timeOutputPulseEnd ha, ?_, fun hn => ?_, ?_⟩
    · split
      · exact hpulse
      · exact hpulse
    · rw [hn, Option.isNone_none, if_pos rfl]
      exact State.on_wb_false _ _ _
    · split
      · exact hout
      · exact hout

end Sys2Proof.Machine
end

section
/-! PROOFS. Counters, what sending leaves of ingress, and sending from the Ethernet ports (R167, R175, R176, R180, R181, R195, R196,
R311). -/

set_option autoImplicit false

namespace Sys2Proof.Machine

/-! ### Counters -/

theorem satAdd_lt (w v n : Nat) : satAdd w v n < 2 ^ w := by
  have hpos := Nat.two_pow_pos w
  unfold satAdd
  split
  · assumption
  · omega

section
variable (s : State) (p : Nat) (f : Fld)

/-- A counter's sum fits its field. -/
@[simp] theorem State.rd_cnt_self (n : Nat) : (s.cnt p f n).rd p f = satAdd f.w (s.rd p f) n := by
  rw [State.cnt_eq, State.rd_wr_self, Nat.mod_eq_of_lt (satAdd_lt _ _ _)]

variable {s p f}

theorem State.rd_cnt_key {q : Nat} {g : Fld} (h : fkey q g ≠ fkey p f) (n : Nat) : (s.cnt p f n).rd q g = s.rd q g := State.rd_wr_key h

theorem State.stamp_cnt_above (hp : 0xF000 ≤ p) (n : Nat) : (s.cnt p f n).stamp = s.stamp := by
  have hrate : (s.cnt p f n).rd (pg .tb 0) TB_RATE_RATE = s.rd (pg .tb 0) TB_RATE_RATE := State.rd_tb_wr_above hp _ _ (by decide)
  have hinc : (s.cnt p f n).clockInc = s.clockInc := by
    unfold State.clockInc State.cycleInc
    rw [hrate]
    rfl
  unfold State.stamp
  rw [hinc]
  rfl

end

/-! ### What ingress has received -/

/-- The frames in packet slots, the frames that wait for check-value units, the memberships and the feeds' states. -/
def State.ingress (s : State) : List PktSlot × List RxHeld × List Join × Store FeedSt := (s.pkts, s.rxHeld, s.joins, s.feeds)

section
variable (s : State)

theorem State.ingress_eq_iff {s t : State} :
    t.ingress = s.ingress ↔ t.pkts = s.pkts ∧ t.rxHeld = s.rxHeld ∧ t.joins = s.joins ∧ t.feeds = s.feeds := by
  simp [State.ingress]

theorem onlyRegsEv.ingress_eq {s t : State} {l : List Nat} {q : Nat} (h : onlyRegsEv l q s t) : t.ingress = s.ingress := by rw [h.1]; rfl

@[simp] theorem State.ingress_wb (p : Nat) (f : Fld) (b : Bool) : (s.wb p f b).ingress = s.ingress := rfl
@[simp] theorem State.ingress_cnt (p : Nat) (f : Fld) (n : Nat) : (s.cnt p f n).ingress = s.ingress := rfl

theorem State.ingress_emit {q : Nat} (hq : 0xF000 ≤ q) (code : Nat) (data : List Nat) : (s.emit q code data).ingress = s.ingress :=
  (State.emit_onlyRegsEv hq).ingress_eq

theorem State.ingress_emitLimited {q : Nat} (hq : 0xF000 ≤ q) (key ms code : Nat) (data : List Nat) :
    (s.emitLimited q key ms code data).ingress = s.ingress := by
  obtain h | ⟨e, h⟩ := s.emitLimited_cases q key ms code data
  · rw [h]
  · rw [h]
    exact State.ingress_emit _ hq code data

@[simp] theorem State.ingress_netDrop (n : Nat) : (s.netDrop n).ingress = s.ingress := by
  unfold State.netDrop
  split
  · exact State.ingress_cnt _ _ _ _
  · rfl

@[simp] theorem State.ingress_netSend (n : Nat) (what : String) (vals : List Nat) : (s.netSend n what vals).ingress = s.ingress := by
  unfold State.netSend
  split
  · rfl
  · exact State.ingress_netDrop _ _

@[simp] theorem State.ingress_oldQuerier (port version group : Nat) (v6 : Bool) :
    (s.oldQuerier port version group v6).ingress = s.ingress :=
  State.ingress_emitLimited _ (by decide) _ _ _ _

end

/-! ### Sending a frame (R167, R176, R311) -/

section
variable {s : State} {port : Fin 18} {bytes : List Nat}

/-- A frame leaves and is counted. -/
def State.frameSent (s : State) (n : Nat) (bytes : List Nat) : State :=
  (s.emitOut (.netFrame n bytes)).cnt (pg .net n) NET_TX_FRAMES_COUNT 1

theorem exec_netFrameTransmit_down {stamp : Option (Nat × Nat × Nat)} (h : s.netUp port.val = false) :
    exec (.netFrameTransmit port bytes stamp) s = .next (s.netDrop port.val) :=
  congrArg _ (if_pos (by simp [h]))

theorem exec_netFrameTransmit (h : s.netUp port.val = true) :
    exec (.netFrameTransmit port bytes none) s = .next (s.frameSent port.val bytes) :=
  congrArg _ (if_neg (by simp [h]))

theorem exec_netFrameTransmit_stamped {seqId msgType align : Nat} (h : s.netUp port.val = true) :
    exec (.netFrameTransmit port bytes (some (seqId, msgType, align))) s = .next ((s.frameSent port.val bytes).txqPush
      ⟨s.stamp + portLatency (s.netMode port.val) align * 5 / 6, seqId, msgType, port.val⟩) := by
  have hstamp : (s.frameSent port.val bytes).stamp = s.stamp := State.stamp_cnt_above (pg_net_above _) 1
  rw [← hstamp]
  exact congrArg _ (if_neg (by simp [h]))

theorem State.frameSent_spec (s : State) (n : Nat) (bytes : List Nat) : (s.frameSent n bytes).out = s.out ++ [.netFrame n bytes] ∧
    (s.frameSent n bytes).rd (pg .net n) NET_TX_FRAMES_COUNT = satAdd 32 (s.rd (pg .net n) NET_TX_FRAMES_COUNT) 1 ∧
    onlyRegs [fkey (pg .net n) NET_TX_FRAMES_COUNT] (s.emitOut (.netFrame n bytes)) (s.frameSent n bytes) :=
  ⟨rfl, State.rd_cnt_self _ _ _ 1, onlyRegs_cnt (List.mem_singleton_self _) onlyRegs_refl⟩

theorem State.txqPush_room {x : TxStamp} (h : s.time.txq.length < 64) :
    s.txqPush x = { s with time := { s.time with txq := s.time.txq ++ [x] } } := if_pos h

end

/-! ### The link (R181) -/

section
variable {s : State} {n : Nat}

theorem State.netLink_spec (s : State) (n : Nat) (up fec : Bool) : (s.netLink n up fec).on (pg .net n) NET_LINK_UP = up ∧
    onlyRegsEv [fkey (pg .net n) NET_LINK_UP, fkey (pg .net n) NET_LINK_FEC_LOCK] (pg .net n) s (s.netLink n up fec) := by
  obtain ⟨t, ht⟩ : ∃ t, t = (s.wb (pg .net n) NET_LINK_UP up).wb (pg .net n) NET_LINK_FEC_LOCK
    (up && fec && decide ((s.wb (pg .net n) NET_LINK_UP up).netMode n = 3)) := ⟨_, rfl⟩
  have hon : t.on (pg .net n) NET_LINK_UP = up := by
    rw [ht, State.on_eq, State.wb_eq, State.rd_wr_same (by decide), ← State.on_eq]
    cases up
    · exact State.on_wb_false _ _ _
    · exact State.on_wb_true _ _ _ rfl
  have honly : onlyRegsEv [fkey (pg .net n) NET_LINK_UP, fkey (pg .net n) NET_LINK_FEC_LOCK] (pg .net n) s t := by
    rw [ht]
    exact onlyRegsEv_wb (by simp) (onlyRegsEv_wb (by simp) onlyRegsEv_refl)
  have hlink : s.netLink n up fec = if up = s.on (pg .net n) NET_LINK_UP then t else t.emit (pg .net n) (if up then 1 else 2) [] := by
    rw [ht]
    rfl
  rw [hlink]
  split
  · exact ⟨hon, honly⟩
  · refine ⟨?_, onlyRegsEv_emit (ringKeysFree_words (l := [NET_LINK_UP, NET_LINK_FEC_LOCK]) (.inr (pg_net_above n)) (by decide)) honly⟩
    rw [State.on_eq, State.rd_emit_above (pg_net_above n) (by decide), ← State.on_eq, hon]

end

/-! ### The unmatched queue (R175, R196) -/

section
variable {s : State} {x : PktSlot}

theorem State.pkts_pktFree (s : State) (x : PktSlot) : (s.pktFree x).pkts = s.pkts.erase x := by
  unfold State.pktFree
  dsimp only
  split <;> rfl

theorem State.pkts_netSend (n : Nat) (what : String) (vals : List Nat) : (s.netSend n what vals).pkts = s.pkts :=
  (State.ingress_eq_iff.1 (s.ingress_netSend n what vals)).1

/-- Whatever a query is answered, its frame's slot is freed and no other. -/
theorem State.pkts_answerQuery (version group : Nat) (asked : List Nat) :
    (s.answerQuery x version group asked).pkts = s.pkts.erase x := by
  rw [← State.pkts_pktFree]
  unfold State.answerQuery
  dsimp only
  split
  · exact (State.ingress_eq_iff.1 (State.ingress_oldQuerier _ _ _ _ _)).1
  · split
    · rfl
    · exact State.pkts_netSend _ _ _

/-- The reply to an unmatched frame, from an address of its family. -/
def State.unmatchedAnswer (s : State) (x : PktSlot) (what : String) (v6 : Bool) : State :=
  if (s.pktFree x).netAddr x.port v6 = 0 then s.pktFree x
  else (s.pktFree x).netSend x.port what (x.frame.src :: (s.pktFree x).netFrom x.port v6)

theorem State.pkts_unmatchedAnswer (what : String) (v6 : Bool) : (s.unmatchedAnswer x what v6).pkts = s.pkts.erase x := by
  unfold State.unmatchedAnswer
  split
  · exact s.pkts_pktFree x
  · exact (State.pkts_netSend _ _ _).trans (s.pkts_pktFree x)

theorem exec_unmatchedReply_idle (h : s.drvRuns = false) : exec .unmatchedReply s = .next s := congrArg _ (if_pos (by simp [h]))

theorem exec_unmatchedReply_none (h : s.unmatched (fun _ => true) = none) : exec .unmatchedReply s = .next s := by
  show execUnmatchedReply s = _
  rw [execUnmatchedReply, h]
  exact congrArg _ (ite_self _)

theorem exec_unmatchedReply (hrun : s.drvRuns = true) (h : s.unmatched (fun _ => true) = some x) :
    exec .unmatchedReply s = .next (match x.frame.ask with
      | .nothing => s.pktFree x
      | .arp => s.unmatchedAnswer x "ARP reply" false
      | .nd => s.unmatchedAnswer x "neighbour advertisement" true
      | .echo => s.unmatchedAnswer x "ICMP echo reply" x.frame.v6
      | .query v g l => s.answerQuery x v g l) := by
  show execUnmatchedReply s = _
  rw [execUnmatchedReply, h]
  exact congrArg _ (if_neg (by simp [hrun]))

theorem exec_membershipQuery_idle (h : s.drvRuns = false) : exec .membershipQuery s = .next s := congrArg _ (if_pos (by simp [h]))

/-- The frame asks for memberships. -/
def Ask.isQuery : Ask → Bool
  | .query _ _ _ => true
  | _ => false

/-- A membership query is answered. -/
def State.queryAnswered (s : State) (x : PktSlot) : State :=
  match x.frame.ask with
  | .query v g l => s.answerQuery x v g l
  | _ => s

theorem exec_membershipQuery : exec .membershipQuery s = .next (if !s.drvRuns then s
    else match s.unmatched Ask.isQuery with
      | none => s
      | some x => s.queryAnswered x) := rfl

theorem exec_membershipQuery_none (h : s.unmatched Ask.isQuery = none) : exec .membershipQuery s = .next s := by
  rw [exec_membershipQuery, h]
  exact congrArg _ (ite_self _)

theorem exec_membershipQuery_some {v g : Nat} {l : List Nat} (hrun : s.drvRuns = true) (h : s.unmatched Ask.isQuery = some x)
    (ha : x.frame.ask = .query v g l) : exec .membershipQuery s = .next (s.answerQuery x v g l) := by
  have hx : s.queryAnswered x = s.answerQuery x v g l := by rw [State.queryAnswered, ha]
  rw [exec_membershipQuery, h, ← hx]
  exact congrArg _ (if_neg (by simp [hrun]))

end

/-! ### Membership reports (R196) -/

section
variable {s : State} {port : Fin 18} {f : Fin 512}

/-- Feed `f`'s group has unsolicited reports left on port `n`. -/
def State.joinLeft (s : State) (n f : Nat) (j : Join) : Bool :=
  decide (j.port = n) && decide ((j.v6, j.group) = s.feedGroup f) && decide (0 < j.left)

/-- One of the reports left is sent. -/
def State.joinsReported (s : State) (n f : Nat) : State :=
  { s with joins := mapWhere (s.joinLeft n f) (fun (j : Join) => { j with left := j.left - 1 }) s.joins }

theorem exec_membershipReport_idle (h : s.drvRuns = false) : exec (.membershipReport port f) s = .next s :=
  congrArg _ (if_pos (by simp [h]))

/-- The report is sent and the group's feeds read JOINED. -/
theorem exec_membershipReport (hrun : s.drvRuns = true) (hany : s.joins.any (s.joinLeft port.val f.val) = true)
    (hup : s.netUp port.val = true) : ∃ (vals : List Nat) (l : List Nat), exec (.membershipReport port f) s = .next
      (l.foldl (fun s f => s.wb (feedE f) FEEDD_W44_JOINED true)
        ((s.joinsReported port.val f.val).netSend port.val "membership report" vals)) := by
  have hguard : ¬ (!s.drvRuns || !s.joins.any (s.joinLeft port.val f.val) || !s.netUp port.val) = true := by simp [hrun, hany, hup]
  exact ⟨_, _, congrArg _ (if_neg hguard)⟩

theorem State.ingress_foldl_joined (l : List Nat) : (l.foldl (fun s f => s.wb (feedE f) FEEDD_W44_JOINED true) s).ingress = s.ingress := by
  induction l generalizing s with
  | nil => rfl
  | cons f l ih => exact ih.trans (s.ingress_wb _ _ _)

end

/-! ### Receiver reports (R195) -/

section
variable {s : State} {f : Fin 512} {st : FeedSt}

theorem exec_receiverReportSend_idle (h : s.drvRuns = false) : exec (.receiverReportSend f) s = .next s :=
  congrArg _ (if_pos (by simp [h]))

theorem exec_receiverReportSend (hrun : s.drvRuns = true) (hf : Store.find f.val s.feeds = some st)
    (hint : s.rd feedP FEED_RR_INT_INTERVAL ≠ 0) (hclaim : s.highClaim = true) :
    exec (.receiverReportSend f) s = .next (s.receiverReport f.val st) := by
  show execReceiverReportSend f s = _
  rw [execReceiverReportSend, hf]
  simp only [hrun, hclaim, decide_eq_false hint]
  rfl

/-- A report sent has noted what it covers. -/
theorem State.ingress_receiverReport {n a k m : Nat} (ha : s.feedSource n st = some a) (hk : s.feedSsrc n st = some k)
    (hm : st.maxSeq = some m) :
    (s.receiverReport n st).ingress = (s.setFeed n { st with rrExp := m + 1 - st.baseSeq, rrRec := st.received }).ingress := by
  unfold State.receiverReport
  rw [ha, hk, hm]
  exact State.ingress_netSend _ _ _ _

end

/-- Settles O32: a send writes counters and emissions alone, which are none of what ingress has received. -/
theorem netSending : Obligations.NetSending := by
  unfold Obligations.NetSending
  refine ⟨fun port s => ⟨fun bytes stamp hdown => ?_, fun bytes hup => ?_, fun bytes seqId msgType align hup hroom => ?_,
    fun up fec => ?_⟩,
    fun s => ⟨fun hidle => ?_, exec_unmatchedReply_none, fun x hrun hx => ?_, exec_membershipQuery_none, fun x v g l hrun hx ha => ?_,
      fun port f j hrun hj hport hgroup hleft hup => ?_, fun f st a k m hrun hf hint hclaim ha hk hm => ?_⟩⟩
  · exact ⟨_, exec_netFrameTransmit_down hdown, rfl⟩
  · obtain ⟨hout, hcount, honly⟩ := s.frameSent_spec port.val bytes
    exact ⟨_, exec_netFrameTransmit hup, hout, hcount, honly⟩
  · obtain ⟨hout, hcount, honly⟩ := s.frameSent_spec port.val bytes
    have hexec := exec_netFrameTransmit_stamped (bytes := bytes) (seqId := seqId) (msgType := msgType) (align := align) hup
    rw [State.txqPush_room (show (s.frameSent port.val bytes).time.txq.length < 64 from hroom)] at hexec
    exact ⟨_, hexec, hout, rfl, rfl, honly.2⟩
  · exact ⟨_, rfl, s.netLink_spec port.val _ fec⟩
  · exact ⟨exec_unmatchedReply_idle hidle, exec_membershipQuery_idle hidle, fun _ _ => exec_membershipReport_idle hidle,
      fun _ => exec_receiverReportSend_idle hidle⟩
  · refine ⟨_, exec_unmatchedReply hrun hx, ?_⟩
    cases x.frame.ask with
    | nothing => exact s.pkts_pktFree x
    | arp => exact State.pkts_unmatchedAnswer _ _
    | nd => exact State.pkts_unmatchedAnswer _ _
    | echo => exact State.pkts_unmatchedAnswer _ _
    | query v g l => exact State.pkts_answerQuery v g l
  · exact ⟨_, exec_membershipQuery_some hrun hx ha, State.pkts_answerQuery v g l⟩
  · have hany : s.joins.any (s.joinLeft port.val f.val) = true :=
      List.any_eq_true.2 ⟨j, hj, by simp [State.joinLeft, hport, hgroup, hleft]⟩
    obtain ⟨vals, l, hexec⟩ := exec_membershipReport hrun hany hup
    obtain ⟨-, -, hjoins, -⟩ := State.ingress_eq_iff.1 ((State.ingress_foldl_joined l).trans
      ((s.joinsReported port.val f.val).ingress_netSend port.val "membership report" vals))
    exact ⟨_, hexec, hjoins⟩
  · obtain ⟨hpkts, -, -, hfeeds⟩ := State.ingress_eq_iff.1 (State.ingress_receiverReport ha hk hm)
    refine ⟨_, exec_receiverReportSend hrun hf hint hclaim, ?_, hpkts⟩
    rw [hfeeds]
    exact Store.find_put_self _ _ _

end Sys2Proof.Machine
end

section
/-! PROOFS. Frames received (R164, R175, R178, R179, R320, R321, R445). -/

set_option autoImplicit false

namespace Sys2Proof.Machine

/-! ### The end of a frame at its latency entry (R164) -/

section
variable {s : State} {port e : Nat}

/-- The latency entry that a frame on the port has taken. -/
def State.rxlOpen (s : State) (port : Nat) : Option Nat :=
  (upTo 8).find? fun e => s.on tb (TB_RXL_VALID e) && decide (Store.find e s.time.rxOpen = some port)

theorem State.rxlOpen_congr {s t : State} (htime : t.time = s.time)
    (hrd : ∀ f : Fld, f.off * 32 + f.lo < 0x1000 * 32 → t.rd tb f = s.rd tb f) (port : Nat) : t.rxlOpen port = s.rxlOpen port := by
  unfold State.rxlOpen
  refine List.find?_congr fun e he => ?_
  have hlt : e < 8 := List.mem_range.1 he
  rw [htime, State.on_eq, State.on_eq, hrd _ (by simp only [TB_RXL_VALID]; omega)]

theorem State.rxlOpen_lt (h : s.rxlOpen port = some e) : e < 8 := List.mem_range.1 (List.mem_of_find?_eq_some h)

/-- The entry takes no frame any more. -/
def State.rxlClosed (s : State) (e : Nat) : State := { s with time := { s.time with rxOpen := Store.del e s.time.rxOpen } }

/-- The entry keeps the event message's port, type and sequenceId. -/
def State.rxlNamed (s : State) (port e mt sq : Nat) : State :=
  ((s.wr tb (TB_RXL_ID_SEQ_ID e) sq).wr tb (TB_RXL_ID_MSG_TYPE e) mt).wr tb (TB_RXL_ID_PORT e) port

theorem State.rxlFrameEnd_none {ev : Option (Nat × Nat)} (h : s.rxlOpen port = none) : s.rxlFrameEnd port ev = s := by
  unfold State.rxlOpen at h
  rw [State.rxlFrameEnd, h]

theorem State.rxlFrameEnd_event {mt sq : Nat} (h : s.rxlOpen port = some e) : ∃ o,
    s.rxlFrameEnd port (some (mt, sq)) = ((s.rxlClosed e).rxlNamed port e mt sq).emitOut o := by
  unfold State.rxlOpen at h
  rw [State.rxlFrameEnd, h]
  exact ⟨_, rfl⟩

theorem State.rxlFrameEnd_freed (h : s.rxlOpen port = some e) :
    s.rxlFrameEnd port none = ((s.rxlClosed e).wb tb (TB_RXL_VALID e) false).wb tb (TB_RXL_RUN e) false := by
  unfold State.rxlOpen at h
  rw [State.rxlFrameEnd, h]
  rfl

theorem State.rxlNamed_spec (s : State) (port e mt sq : Nat) : (s.rxlNamed port e mt sq).time = s.time ∧
    (s.rxlNamed port e mt sq).rd tb (TB_RXL_ID_PORT e) = port % 2 ^ 5 ∧
    (s.rxlNamed port e mt sq).rd tb (TB_RXL_ID_SEQ_ID e) = sq % 2 ^ 16 ∧
    (s.rxlNamed port e mt sq).rd tb (TB_RXL_ID_MSG_TYPE e) = mt % 2 ^ 4 := by
  unfold State.rxlNamed
  refine ⟨rfl, State.rd_wr_self _ _ _ _, ?_, ?_⟩
  · rw [State.rd_wr_same (by simp [TB_RXL_ID_SEQ_ID, TB_RXL_ID_PORT]), State.rd_wr_same (by simp [TB_RXL_ID_SEQ_ID, TB_RXL_ID_MSG_TYPE])]
    exact State.rd_wr_self _ _ _ _
  · rw [State.rd_wr_same (by simp [TB_RXL_ID_MSG_TYPE, TB_RXL_ID_PORT])]
    exact State.rd_wr_self _ _ _ _

theorem State.rd_above_wr_tb {p : Nat} {g : Fld} (hp : 0xF000 ≤ p) (hg : g.off * 32 + g.lo < 0x1000 * 32) (f : Fld) (v : Nat) :
    (s.wr tb g v).rd p f = s.rd p f :=
  State.rd_wr_key (by
    simp only [fkey, tb]
    omega)

/-- The end of a frame changes neither what ingress holds nor a page above TB's. -/
theorem State.rxlFrameEnd_spec (s : State) (port : Nat) (ev : Option (Nat × Nat)) : (s.rxlFrameEnd port ev).ingress = s.ingress ∧
    ∀ (p : Nat) (f : Fld), 0xF000 ≤ p → (s.rxlFrameEnd port ev).rd p f = s.rd p f := by
  cases he : s.rxlOpen port with
  | none =>
    rw [State.rxlFrameEnd_none he]
    exact ⟨rfl, fun _ _ _ => rfl⟩
  | some e =>
    have hlt := State.rxlOpen_lt he
    have hwr : ∀ (u : State) {g : Fld} (v p : Nat) (f : Fld), g.off ≤ 0x184 + 16 * e → g.lo < 32 → 0xF000 ≤ p →
        (u.wr tb g v).rd p f = u.rd p f := fun u g v p f ho hl hp => State.rd_above_wr_tb hp (by omega) f v
    cases ev with
    | none =>
      rw [State.rxlFrameEnd_freed he]
      refine ⟨rfl, fun p f hp => ?_⟩
      rw [State.wb_eq, hwr _ _ _ _ (by simp [TB_RXL_RUN]) (by simp [TB_RXL_RUN]) hp, State.wb_eq,
        hwr _ _ _ _ (by simp [TB_RXL_VALID]) (by simp [TB_RXL_VALID]) hp]
      rfl
    | some m =>
      obtain ⟨o, ho⟩ := State.rxlFrameEnd_event (mt := m.1) (sq := m.2) he
      rw [ho]
      refine ⟨rfl, fun p f hp => ?_⟩
      refine Eq.trans (show _ = ((s.rxlClosed e).rxlNamed port e m.1 m.2).rd p f from rfl) ?_
      rw [State.rxlNamed, hwr _ _ _ _ le_rfl (by simp [TB_RXL_ID_PORT]) hp, hwr _ _ _ _ le_rfl (by simp [TB_RXL_ID_MSG_TYPE]) hp,
        hwr _ _ _ _ le_rfl (by simp [TB_RXL_ID_SEQ_ID]) hp]
      rfl

end

/-! ### A frame counted in NET_RX_FRAMES: nothing that classifies a frame reads that word -/

/-- A good frame is counted. -/
def State.rxCounted (s : State) (n : Nat) : State := s.cnt (pg .net n) NET_RX_FRAMES_COUNT 1

section
variable (s : State) (n : Nat)

theorem State.rd_rxCounted_page {g : Fld} (hg : g.off * 32 + g.lo ≠ 0x140 * 32) :
    (s.rxCounted n).rd (pg .net n) g = s.rd (pg .net n) g := State.rd_wr_same hg

theorem State.rd_rxCounted_below {q : Nat} {g : Fld} (h : (q + g.off) * 32 + g.lo < 0x50000 * 32) : (s.rxCounted n).rd q g = s.rd q g :=
  State.rd_cnt_key (by
    simp only [fkey, pg_net]
    omega) 1

/-- The counter is a whole word, whose field begins at bit 0. -/
theorem State.rd_rxCounted_inside {g : Fld} (h : 0 < g.lo) (hg : g.lo < 32) (q : Nat) : (s.rxCounted n).rd q g = s.rd q g :=
  State.rd_cnt_key (by
    simp only [fkey, NET_RX_FRAMES_COUNT]
    omega) 1

variable {n}

theorem State.rd_rxCounted_above (hn : n < 18) {q : Nat} (hq : 0x62000 ≤ q) (g : Fld) : (s.rxCounted n).rd q g = s.rd q g :=
  State.rd_cnt_key (by
    simp only [fkey, pg_net, NET_RX_FRAMES_COUNT]
    omega) 1

variable (n)

theorem State.pwrState_rxCounted : (s.rxCounted n).pwrState = s.pwrState := s.rd_rxCounted_below n (by decide)

theorem State.rxDrops_rxCounted (fr : NetFrame) : (s.rxCounted n).rxDrops n fr = s.rxDrops n fr := by
  unfold State.rxDrops
  rw [s.rd_rxCounted_page n (by decide)]

theorem State.netAddr_rxCounted (v6 : Bool) : (s.rxCounted n).netAddr n v6 = s.netAddr n v6 := by
  have hip6 : ∀ k, k ∈ upTo 4 → (s.rxCounted n).rd (pg .net n) (NET_IP6_ADDR k) = s.rd (pg .net n) (NET_IP6_ADDR k) := fun k hk =>
    s.rd_rxCounted_page n (by
      have hlt : k < 4 := List.mem_range.1 hk
      simp only [NET_IP6_ADDR]
      omega)
  unfold State.netAddr
  dsimp only
  rw [s.rd_rxCounted_page n (by decide)]
  split
  · exact List.foldl_ext _ _ _ fun t k hk => by rw [hip6 k hk]
  · rfl

theorem State.wakeFrame_rxCounted (fr : NetFrame) : (s.rxCounted n).wakeFrame n fr = s.wakeFrame n fr := by
  have hnode : (s.rxCounted n).node = s.node := s.rd_rxCounted_below n (by decide)
  have hpwr : ∀ {g : Fld}, g.off * 32 + g.lo < 0x1000 * 32 → (s.rxCounted n).rd pwrP g = s.rd pwrP g := fun h =>
    s.rd_rxCounted_below n (by
      simp only [pg_pwr]
      omega)
  unfold State.wakeFrame
  dsimp only
  rw [hnode, State.netAddr_rxCounted, State.on_eq, hpwr (by decide), ← State.on_eq, hpwr (by decide), hpwr (by decide),
    s.rd_rxCounted_page n (by decide), s.rd_rxCounted_page n (by decide)]

theorem State.freePkt_rxCounted : (s.rxCounted n).freePkt = s.freePkt := by
  have hon : ∀ i, (s.rxCounted n).partOn i = s.partOn i := fun i => by
    unfold State.partOn
    rw [State.on_eq, s.rd_rxCounted_inside n (by simp [LOFT_PART_EN]) (by simp [LOFT_PART_EN]), ← State.on_eq]
  have huse : ∀ i, (s.rxCounted n).rd (pg .loft 0) (LOFT_PART_USE i) = s.rd (pg .loft 0) (LOFT_PART_USE i) := fun i =>
    s.rd_rxCounted_inside n (by simp [LOFT_PART_USE]) (by simp [LOFT_PART_USE]) _
  have hsize : ∀ i, (s.rxCounted n).rd (pg .loft 0) (LOFT_PART_SIZE i) = s.rd (pg .loft 0) (LOFT_PART_SIZE i) := fun i =>
    s.rd_rxCounted_inside n (by simp [LOFT_PART_SIZE]) (by simp [LOFT_PART_SIZE]) _
  have hpart : (s.rxCounted n).partOfUse 2 = s.partOfUse 2 := by
    unfold State.partOfUse
    simp only [hon, huse]
  have hslots : (s.rxCounted n).pktSlots = s.pktSlots := by
    unfold State.pktSlots State.partArea
    simp only [hpart, hsize]
  unfold State.freePkt
  rw [hslots]
  rfl

theorem State.forMss_rxCounted (port : Nat) (fr : NetFrame) : (s.rxCounted n).forMss port fr = s.forMss port fr := by
  have htb : ∀ {g : Fld}, g.off * 32 + g.lo < 0x1000 * 32 → (s.rxCounted n).rd tb g = s.rd tb g := fun h =>
    s.rd_rxCounted_below n (by
      simp only [tb]
      omega)
  have hptp : (s.rxCounted n).ptpUsed fr = s.ptpUsed fr := by
    unfold State.ptpUsed
    rw [htb (by decide)]
  have hupd : (s.rxCounted n).updPort = s.updPort := by
    unfold State.updPort
    rw [State.on_eq, s.rd_rxCounted_below n (by decide), ← State.on_eq]
    rfl
  unfold State.forMss
  rw [htb (by decide), hptp, hupd]
  rfl

variable {n}

theorem State.rxUnits_rxCounted (hn : n < 18) (port : Nat) (fr : NetFrame) : (s.rxCounted n).rxUnits port fr = s.rxUnits port fr := by
  have hcvu : ∀ u g, (s.rxCounted n).rd (cvuP u) g = s.rd (cvuP u) g := fun u g => s.rd_rxCounted_above hn (by
    simp only [pg_cvu]
    omega) g
  unfold State.rxUnits State.enabled
  simp only [State.on_eq, hcvu]

theorem State.feedMatch_rxCounted (hn : n < 18) (port : Nat) (fr : NetFrame) :
    (s.rxCounted n).feedMatch port fr = s.feedMatch port fr := by
  have hfeed : ∀ f g, (s.rxCounted n).rd (feedE f) g = s.rd (feedE f) g := fun f g => s.rd_rxCounted_above hn (by
    unfold feedE
    omega) g
  have htakes : ∀ u f, (s.rxCounted n).feedTakes port fr u f = s.feedTakes port fr u f := fun u f => by
    unfold State.feedTakes State.feedOn State.feedAddr
    simp only [State.on_eq, hfeed]
    rfl
  have hen : (s.rxCounted n).enabled feedP = s.enabled feedP := by
    unfold State.enabled
    rw [State.on_eq, s.rd_rxCounted_below n (by decide), ← State.on_eq]
  unfold State.feedMatch
  simp only [htakes, hen]
  rfl

end

/-! ### Classification (R175, R179, R320, R321) -/

section
variable {s : State} {port stamp n : Nat} {fr : NetFrame}

/-- A frame stands last in the packet slots. -/
def State.pktStored (s : State) (x : PktSlot) : State := { s with pkts := s.pkts ++ [x] }

theorem State.rd_pktStored (s : State) (x : PktSlot) (p : Nat) (f : Fld) : (s.pktStored x).rd p f = s.rd p f := rfl

theorem State.rxPass_held (h : s.rxUnits port fr ≠ []) :
    s.rxPass port fr stamp = { s with rxHeld := s.rxHeld ++ [⟨port, fr, stamp, s.rxUnits port fr⟩] } :=
  if_neg (by simp [h])

theorem State.rxPass_free (h : s.rxUnits port fr = []) (hall : s.rxHeld.all (fun x => decide (x.port ≠ port)) = true) :
    s.rxPass port fr stamp = s.rxClassify port fr stamp :=
  if_pos (by rw [h, hall]; rfl)

theorem State.rxClassify_noSlot (h : s.freePkt = none) : s.rxClassify port fr stamp = s.cnt (pg .net port) NET_RX_NOBUF_COUNT 1 := by
  rw [State.rxClassify, h]

/-- A frame of the MSS changes no more than a counter of its port. -/
theorem State.rxClassify_mss (h : s.forMss port fr = true) : s.rxClassify port fr stamp = s ∨
    s.rxClassify port fr stamp = s.cnt (pg .net port) NET_RX_NOBUF_COUNT 1 := by
  cases hn : s.freePkt with
  | none => exact .inr (State.rxClassify_noSlot hn)
  | some n =>
    refine .inl ?_
    rw [State.rxClassify, hn]
    exact if_pos h

theorem State.rxClassify_feed {f : Nat} {rtcp : Bool} (hslot : s.freePkt = some n) (hmss : s.forMss port fr = false)
    (hfeed : s.feedMatch port fr = some (f, rtcp)) (hteam : s.inTeam = false) : s.rxClassify port fr stamp =
      (s.cnt feedP FEED_MATCHED_COUNT 1).pktStored ⟨n, port, 3, f, rtcp, true, stamp, fr⟩ := by
  rw [State.rxClassify, hslot]
  simp only [hmss, hfeed]
  exact if_neg (show ¬ s.inTeam = true by simp [hteam])

theorem State.rxClassify_unmatched (hslot : s.freePkt = some n) (hmss : s.forMss port fr = false) (hfeed : s.feedMatch port fr = none) :
    s.rxClassify port fr stamp = if s.on feedP FEED_UNM_CTRL_EN then
        (s.cnt feedP FEED_UNMATCHED_COUNT 1).pktStored ⟨n, port, 4, 0, false, true, stamp, fr⟩
      else (s.cnt feedP FEED_UNMATCHED_COUNT 1).cnt feedP FEED_UNM_LOST_COUNT 1 := by
  have hen : (s.cnt feedP FEED_UNMATCHED_COUNT 1).on feedP FEED_UNM_CTRL_EN = s.on feedP FEED_UNM_CTRL_EN := by
    rw [State.on_eq, State.rd_cnt_key (by decide), ← State.on_eq]
  rw [State.rxClassify, hslot]
  simp only [hmss, hfeed, hen]
  rfl

end

/-! ### A good frame (R178, R445, R447) -/

section
variable {s : State} {port stamp : Nat} {fr : NetFrame}

theorem State.ingress_wake (cause : Nat) : (s.wake cause).ingress = s.ingress := by
  unfold State.wake
  dsimp only
  repeat' split
  all_goals rfl

theorem State.stabledFrame_spec (s : State) (port : Nat) (fr : NetFrame) : (s.stabledFrame port fr).ingress = s.ingress ∧
    (s.stabledFrame port fr).time = s.time ∧ ∀ p f, (s.stabledFrame port fr).rd p f = s.rd p f := by
  unfold State.stabledFrame
  split
  · exact ⟨rfl, rfl, fun _ _ => rfl⟩
  · exact ⟨rfl, rfl, fun _ _ => rfl⟩

/-- A wake frame wakes. -/
def State.rxWoken (s : State) (port : Nat) (fr : NetFrame) : State := if s.wakeFrame port fr then s.wake 2 else s

theorem State.rxWoken_spec (s : State) (port : Nat) (fr : NetFrame) : (s.rxWoken port fr).ingress = s.ingress ∧
    (s.rxWoken port fr).time = s.time ∧ ∀ f, (s.rxWoken port fr).rd tb f = s.rd tb f := by
  unfold State.rxWoken
  split
  · exact ⟨State.ingress_wake 2, s.wake_spec 2⟩
  · exact ⟨rfl, rfl, fun _ => rfl⟩

theorem State.rxFrame_pause (h : fr.pause = true) : s.rxFrame port fr stamp = s.rxCounted port := if_pos h

theorem State.rxFrame_dropped (hp : fr.pause = false) (h : s.rxDrops port fr = true) :
    s.rxFrame port fr stamp = (s.rxCounted port).cnt (pg .net port) NET_RX_DROP_COUNT 1 := by
  rw [← State.rxDrops_rxCounted] at h
  exact (if_neg (by simp [hp])).trans (if_pos h)

theorem State.rxFrame_kept (hp : fr.pause = false) (h : s.rxDrops port fr = false) : s.rxFrame port fr stamp =
    if 2 ≤ s.pwrState then ((s.rxCounted port).rxWoken port fr).stabledFrame port fr
    else ((s.rxCounted port).rxWoken port fr).rxPass port fr stamp := by
  rw [← State.rxDrops_rxCounted] at h
  rw [← s.pwrState_rxCounted port]
  exact (if_neg (by simp [hp])).trans (if_neg (Bool.eq_false_iff.1 h))

/-- An awake device's frame that does not wake goes on to the check-value units. -/
theorem State.rxFrame_awake (hp : fr.pause = false) (h : s.rxDrops port fr = false) (hw : s.wakeFrame port fr = false)
    (hst : s.pwrState < 2) : s.rxFrame port fr stamp = (s.rxCounted port).rxPass port fr stamp := by
  have hwoken : (s.rxCounted port).rxWoken port fr = s.rxCounted port := by
    rw [← State.wakeFrame_rxCounted] at hw
    exact if_neg (by simp [hw])
  rw [State.rxFrame_kept hp h, if_neg (Nat.not_le.2 hst), hwoken]

/-- In the stabled state no frame reaches ingress. -/
theorem State.ingress_rxFrame_stabled (h : 2 ≤ s.pwrState) : (s.rxFrame port fr stamp).ingress = s.ingress := by
  cases hp : fr.pause with
  | true => rw [State.rxFrame_pause hp]; rfl
  | false =>
    cases hd : s.rxDrops port fr with
    | true => rw [State.rxFrame_dropped hp hd]; rfl
    | false =>
      rw [State.rxFrame_kept hp hd, if_pos h]
      exact (State.stabledFrame_spec _ _ _).1.trans (State.rxWoken_spec _ _ _).1

/-- A PTP message in use on a PTP port is the MSS's. -/
theorem State.forMss_ptp (hport : bit (s.rd tb TB_PTP_PORTS_PORTS) port = true) (hptp : (s.ptpUsed fr).isSome = true) :
    s.forMss port fr = true := by
  simp [State.forMss, hport, hptp]

/-- A frame of the MSS that passes leaves the clock and TB's words. -/
theorem State.rxPass_mss (h : s.forMss port fr = true) : (s.rxPass port fr stamp).time = s.time ∧
    ∀ f : Fld, f.off * 32 + f.lo < 0x1000 * 32 → (s.rxPass port fr stamp).rd tb f = s.rd tb f := by
  have hclass : (s.rxClassify port fr stamp).time = s.time ∧
      ∀ f : Fld, f.off * 32 + f.lo < 0x1000 * 32 → (s.rxClassify port fr stamp).rd tb f = s.rd tb f := by
    obtain hc | hc := State.rxClassify_mss (stamp := stamp) h
    · rw [hc]
      exact ⟨rfl, fun _ _ => rfl⟩
    · rw [hc]
      exact ⟨rfl, fun f hf => State.rd_tb_wr_above (pg_net_above port) _ _ hf⟩
  unfold State.rxPass
  dsimp only
  split
  · exact hclass
  · exact ⟨rfl, fun _ _ => rfl⟩

/-- A PTP message in use on a PTP port leaves the clock and TB's words, and with them the latency entries. -/
theorem State.rxFrame_ptp (hd : s.rxDrops port fr = false) (hport : bit (s.rd tb TB_PTP_PORTS_PORTS) port = true)
    (hptp : (s.ptpUsed fr).isSome = true) : (s.rxFrame port fr stamp).time = s.time ∧
      ∀ f : Fld, f.off * 32 + f.lo < 0x1000 * 32 → (s.rxFrame port fr stamp).rd tb f = s.rd tb f := by
  have hcount : ∀ f : Fld, f.off * 32 + f.lo < 0x1000 * 32 → (s.rxCounted port).rd tb f = s.rd tb f := fun f hf =>
    State.rd_tb_wr_above (pg_net_above port) _ _ hf
  obtain ⟨-, htime, hrd⟩ := (s.rxCounted port).rxWoken_spec port fr
  have hwoken : ∀ f : Fld, f.off * 32 + f.lo < 0x1000 * 32 → ((s.rxCounted port).rxWoken port fr).rd tb f = s.rd tb f := fun f hf =>
    (hrd f).trans (hcount f hf)
  cases hp : fr.pause with
  | true =>
    rw [State.rxFrame_pause hp]
    exact ⟨rfl, hcount⟩
  | false =>
    rw [State.rxFrame_kept hp hd]
    split
    · obtain ⟨-, htime', hrd'⟩ := ((s.rxCounted port).rxWoken port fr).stabledFrame_spec port fr
      exact ⟨htime'.trans htime, fun f hf => (hrd' _ f).trans (hwoken f hf)⟩
    · have hused : ((s.rxCounted port).rxWoken port fr).ptpUsed fr = s.ptpUsed fr := by
        unfold State.ptpUsed
        rw [hwoken _ (by decide)]
      obtain ⟨htime', hrd'⟩ := State.rxPass_mss (stamp := stamp)
        (State.forMss_ptp (by rw [hwoken _ (by decide), hport]) (by rw [hused, hptp]))
      exact ⟨htime'.trans htime, fun f hf => (hrd' f hf).trans (hwoken f hf)⟩

end

/-! ### The command (R175) -/

section
variable {s : State} {port : Fin 18} {fr : NetFrame} {ago : Nat}

theorem exec_netFrameReceive_down (h : s.netUp port.val = false) : exec (.netFrameReceive port fr ago) s = .next s :=
  congrArg _ (if_pos (by simp [h]))

theorem exec_netFrameReceive_badFcs (h : s.netUp port.val = true) (hf : fr.fcsOk = false) : exec (.netFrameReceive port fr ago) s =
    .next ((s.rxlFrameEnd port.val none).cnt (pg .net port.val) NET_RX_FCS_COUNT 1) :=
  congrArg _ ((if_neg (by simp [h])).trans (if_pos (by simp [hf])))

theorem exec_netFrameReceive (h : s.netUp port.val = true) (hf : fr.fcsOk = true) : exec (.netFrameReceive port fr ago) s =
    .next ((s.rxFrame port.val fr (s.stamp - ago)).rxlFrameEnd port.val (if s.rxDrops port.val fr then none else s.ptpEvent fr)) :=
  congrArg _ ((if_neg (by simp [h])).trans (if_neg (by simp [hf])))

/-- A good frame ends as its classification left it, but for its latency entry. -/
theorem exec_netFrameReceive_frame (h : s.netUp port.val = true) (hf : fr.fcsOk = true) : ∃ t,
    exec (.netFrameReceive port fr ago) s = .next t ∧
    t.pkts = (s.rxFrame port.val fr (s.stamp - ago)).pkts ∧ t.rxHeld = (s.rxFrame port.val fr (s.stamp - ago)).rxHeld ∧
    ∀ (p : Nat) (f : Fld), 0xF000 ≤ p → t.rd p f = (s.rxFrame port.val fr (s.stamp - ago)).rd p f := by
  obtain ⟨hingress, hrd⟩ := (s.rxFrame port.val fr (s.stamp - ago)).rxlFrameEnd_spec port.val
    (if s.rxDrops port.val fr then none else s.ptpEvent fr)
  obtain ⟨hpkts, hheld, -, -⟩ := State.ingress_eq_iff.1 hingress
  exact ⟨_, exec_netFrameReceive h hf, hpkts, hheld, hrd⟩

theorem State.ptpUsed_of_event {m : Nat × Nat} (h : s.ptpEvent fr = some m) : (s.ptpUsed fr).isSome = true := by
  cases hm : s.ptpUsed fr with
  | none => rw [State.ptpEvent, hm] at h; cases h
  | some x => rfl

end

/-- Settles O31: a frame's count is none of the words that classify it, and its latency entry lies apart from what ingress holds. -/
theorem netFrameReceived : Obligations.NetFrameReceived := by
  unfold Obligations.NetFrameReceived
  intro port fr ago s
  have hnet := pg_net_above port.val
  refine ⟨exec_netFrameReceive_down, fun hup hfcs => ?_, fun hup hfcs hp => ?_, fun hup hfcs hp hd => ?_,
    fun mt sq e hup hfcs hd hport hev he => ?_, fun hup hfcs hp hd hw hst hu => ?_, fun hup hfcs hst => ?_,
    fun hup hfcs hp hd hw hst hu hall hmss => ?_⟩
  · obtain ⟨hingress, hrd⟩ := s.rxlFrameEnd_spec port.val none
    obtain ⟨hpkts, -⟩ := State.ingress_eq_iff.1 hingress
    refine ⟨_, exec_netFrameReceive_badFcs hup hfcs, ?_, hpkts⟩
    rw [State.rd_cnt_self, hrd _ _ hnet]
    rfl
  · obtain ⟨t, hexec, hpkts, -, hrd⟩ := exec_netFrameReceive_frame (ago := ago) hup hfcs
    rw [State.rxFrame_pause hp] at hpkts hrd
    exact ⟨t, hexec, (hrd _ _ hnet).trans (State.rd_cnt_self _ _ _ 1), hpkts⟩
  · obtain ⟨t, hexec, hpkts, -, hrd⟩ := exec_netFrameReceive_frame (ago := ago) hup hfcs
    rw [State.rxFrame_dropped hp hd] at hpkts hrd
    refine ⟨t, hexec, ?_, ?_, hpkts⟩
    · rw [hrd _ _ hnet, State.cnt_eq, State.rd_wr_same (by decide)]
      exact State.rd_cnt_self _ _ _ 1
    · rw [hrd _ _ hnet, State.rd_cnt_self, s.rd_rxCounted_page port.val (by decide)]
      rfl
  · obtain ⟨htime, hrd⟩ := State.rxFrame_ptp (stamp := s.stamp - ago) hd hport (State.ptpUsed_of_event hev)
    obtain ⟨o, ho⟩ := State.rxlFrameEnd_event (mt := mt) (sq := sq) ((State.rxlOpen_congr htime hrd port.val).trans he)
    have hexec := exec_netFrameReceive (ago := ago) hup hfcs
    rw [hd, hev] at hexec
    obtain ⟨hclosed, hid, hseq, htype⟩ := ((s.rxFrame port.val fr (s.stamp - ago)).rxlClosed e).rxlNamed_spec port.val e mt sq
    refine ⟨_, hexec.trans (congrArg _ ho), ?_, hseq, htype, ?_⟩
    · exact hid.trans (Nat.mod_eq_of_lt (by omega))
    · exact (congrArg (fun x : TimeSt => Store.find e x.rxOpen) hclosed).trans (Store.find_del_self _ _)
  · obtain ⟨t, hexec, hpkts, hheld, -⟩ := exec_netFrameReceive_frame (ago := ago) hup hfcs
    rw [← s.rxUnits_rxCounted port.isLt] at hu
    rw [State.rxFrame_awake hp hd hw hst, State.rxPass_held hu] at hpkts hheld
    rw [s.rxUnits_rxCounted port.isLt] at hheld
    exact ⟨t, hexec, hheld, hpkts⟩
  · obtain ⟨t, hexec, hpkts, hheld, -⟩ := exec_netFrameReceive_frame (ago := ago) hup hfcs
    obtain ⟨hpkts', hheld', -⟩ := State.ingress_eq_iff.1
      (State.ingress_rxFrame_stabled (port := port.val) (fr := fr) (stamp := s.stamp - ago) hst)
    exact ⟨t, hexec, hpkts.trans hpkts', hheld.trans hheld'⟩
  · obtain ⟨t, hexec, hpkts, -, hrd⟩ := exec_netFrameReceive_frame (ago := ago) hup hfcs
    have hclass : s.rxFrame port.val fr (s.stamp - ago) = (s.rxCounted port.val).rxClassify port.val fr (s.stamp - ago) := by
      rw [State.rxFrame_awake hp hd hw hst]
      exact State.rxPass_free ((s.rxUnits_rxCounted port.isLt _ _).trans hu) hall
    rw [hclass] at hpkts hrd
    have hmss' := (s.forMss_rxCounted port.val port.val fr).trans hmss
    have hslot := s.freePkt_rxCounted port.val
    have hmatch := s.feedMatch_rxCounted port.isLt port.val fr
    refine ⟨fun hfree => ?_, fun n f rtcp hfree hf hteam => ?_, fun n hfree hf => ?_⟩
    · rw [State.rxClassify_noSlot (hslot.trans hfree)] at hpkts hrd
      refine ⟨t, hexec, ?_, hpkts⟩
      rw [hrd _ _ hnet, State.rd_cnt_self, s.rd_rxCounted_page port.val (by decide)]
      rfl
    · rw [State.rxClassify_feed (hslot.trans hfree) hmss' (hmatch.trans hf) hteam] at hpkts hrd
      refine ⟨t, hexec, ?_, hpkts⟩
      have hmatched : ((s.rxCounted port.val).cnt feedP FEED_MATCHED_COUNT 1).rd feedP FEED_MATCHED_COUNT =
          satAdd 32 (s.rd feedP FEED_MATCHED_COUNT) 1 := by
        rw [State.rd_cnt_self, s.rd_rxCounted_below port.val (by decide)]
        rfl
      rw [hrd _ _ (by decide), State.rd_pktStored, hmatched]
    · have hun : ((s.rxCounted port.val).cnt feedP FEED_UNMATCHED_COUNT 1).rd feedP FEED_UNMATCHED_COUNT =
          satAdd 32 (s.rd feedP FEED_UNMATCHED_COUNT) 1 := by
        rw [State.rd_cnt_self, s.rd_rxCounted_below port.val (by decide)]
        rfl
      have hen : (s.rxCounted port.val).on feedP FEED_UNM_CTRL_EN = s.on feedP FEED_UNM_CTRL_EN := by
        rw [State.on_eq, s.rd_rxCounted_below port.val (by decide), ← State.on_eq]
      rw [State.rxClassify_unmatched (hslot.trans hfree) hmss' (hmatch.trans hf), hen] at hpkts hrd
      refine ⟨t, hexec, ?_, ?_⟩
      · rw [hrd _ _ (by decide)]
        split
        · rw [State.rd_pktStored, hun]
        · rw [State.rd_cnt_key (by decide), hun]
      · rw [hpkts]
        split <;> rfl

end Sys2Proof.Machine
end

section
/-! PROOFS. The words of the feeds' descriptors, and what leaves them and what ingress holds alone (R182, R188, R196). -/

set_option autoImplicit false

namespace Sys2Proof.Machine

/-! ### The descriptors lie above the pages of the blocks (R38, R182) -/

theorem feedE_above (f : Nat) : 0xF000 ≤ feedE f := by
  unfold feedE
  omega

section
variable (s : State) (f : Nat) (g : Fld)

theorem State.rd_feedE_wr {q : Nat} {h : Fld} (hq : (q + h.off) * 32 + h.lo < 0x2000000 * 32) (v : Nat) :
    (s.wr q h v).rd (feedE f) g = s.rd (feedE f) g :=
  State.rd_wr_key (by
    simp only [fkey, feedE]
    omega)

/-- Events of pages below the descriptors write none of their words. -/
theorem State.rd_feedE_emit {q : Nat} (hq : q < 0x1000000) (code : Nat) (data : List Nat) :
    (s.emit q code data).rd (feedE f) g = s.rd (feedE f) g :=
  State.rd_congr (State.find_emitAt _ _ _ _ _ (by
    simp only [evKey, fkey, feedE, pg_dbk, HDR_EVT_RAW_RAW, DBK_WR_COUNT, DBK_LOST_COUNT]
    omega))

@[simp] theorem State.rd_setFeed (x : FeedSt) (p : Nat) : (s.setFeed f x).rd p g = s.rd p g := State.rd_congr rfl

end

section
variable (s : State) (f : Nat)

@[simp] theorem State.find_setFeed (x : FeedSt) : Store.find f (s.setFeed f x).feeds = some x := Store.find_put_self _ _ _

theorem State.feeds_emit_feed (code : Nat) (data : List Nat) : (s.emit feedP code data).feeds = s.feeds :=
  (State.ingress_eq_iff.1 (s.ingress_emit (by decide) code data)).2.2.2

theorem State.pkts_emit_feed (code : Nat) (data : List Nat) : (s.emit feedP code data).pkts = s.pkts :=
  (State.ingress_eq_iff.1 (s.ingress_emit (by decide) code data)).1

/-- A packet slot freed may give credits back, and changes nothing else but the slots. -/
theorem State.pktFree_eq (x : PktSlot) : ∃ y, s.pktFree x = { s with pkts := s.pkts.erase x, yoke := y } := by
  unfold State.pktFree
  dsimp only
  split
  · exact ⟨_, rfl⟩
  · exact ⟨_, rfl⟩

theorem State.rd_pktFree (x : PktSlot) (p : Nat) (g : Fld) : (s.pktFree x).rd p g = s.rd p g := by
  obtain ⟨y, h⟩ := s.pktFree_eq x
  rw [h]
  rfl

theorem State.feeds_pktFree (x : PktSlot) : (s.pktFree x).feeds = s.feeds := by
  obtain ⟨y, h⟩ := s.pktFree_eq x
  rw [h]

end

/-! ### Ingress waits for yard time (R153, R172, R188) -/

/-- Yard time passes by no less than asked for, with the coarse part too, whose edges are whole. -/
theorem TimeSt.le_yt_pass {inc : Nat} (hinc : 0 < inc) (t : TimeSt) (d : Nat) : t.yt + d ≤ (t.pass inc d).yt := by
  cases hc : t.coarse with
  | false => simp [TimeSt.pass, hc]
  | true =>
    have hedges := le_edgesFor_mul (inc := 48 * inc) (by omega) (d + min d t.slew)
    generalize hn : edgesFor (48 * inc) (d + min d t.slew) = n at hedges
    have hwhole : n * (48 * inc) = 48 * (n * inc) := Nat.mul_left_comm _ _ _
    have hhalf : n * (48 * inc - 48 * inc / 2) = 24 * (n * inc) := by
      rw [show 48 * inc - 48 * inc / 2 = 24 * inc by omega, Nat.mul_left_comm]
    simp only [TimeSt.pass, hc, if_true, hn, TimeSt.edges, hhalf, hwhole] at hedges ⊢
    omega

theorem State.now_congr {s t : State} (h : t.time = s.time) : t.now = s.now := by rw [State.now, State.now, h]

theorem State.now_wr (s : State) (p : Nat) (g : Fld) (v : Nat) : (s.wr p g v).now = s.now := State.now_congr rfl

section
variable (s : State) (x : Nat)

theorem State.le_now_advanceTo : x ≤ (s.advanceTo x).now := by
  have hreach : ns x ≤ (s.advanceTo x).time.yt := by
    unfold State.advanceTo
    split
    next h =>
      have := TimeSt.le_yt_pass s.cycleInc_pos s.time (ns x - s.time.yt)
      rw [State.time_setTime]
      omega
    next h => exact Nat.not_lt.1 h
  exact (Nat.le_div_iff_mul_le (by decide)).2 ((Nat.mul_comm _ _).trans_le hreach)

/-- Waiting changes time and the running latency counts alone. -/
theorem State.ingressTo_spec : ∃ t : TimeSt, onlyRegs rxlKeys { s with time := t } (s.ingressTo x) := by
  unfold State.ingressTo
  split
  · exact ⟨s.time, onlyRegs_refl⟩
  · obtain ⟨t, h, -⟩ := s.advanceTo_spec x
    exact ⟨t, h⟩

theorem notMem_rxlKeys_above {p : Nat} (hp : 0xF000 ≤ p) (g : Fld) : fkey p g ∉ rxlKeys :=
  notMem_rxlKeys (.inr (by
    simp only [fkey, tb]
    omega))

theorem State.rd_ingressTo_above {p : Nat} (hp : 0xF000 ≤ p) (g : Fld) : (s.ingressTo x).rd p g = s.rd p g := by
  obtain ⟨t, h⟩ := s.ingressTo_spec x
  exact h.rd (notMem_rxlKeys_above hp g)

theorem State.loft_ingressTo : (s.ingressTo x).loft = s.loft ∧ (s.ingressTo x).loftSyn = s.loftSyn := by
  obtain ⟨t, h⟩ := s.ingressTo_spec x
  rw [h.1]
  exact ⟨rfl, rfl⟩

end

end Sys2Proof.Machine
end

section
/-! PROOFS. RTP and RTCP packets of a feed (R179, R182, R185, R186, R193). -/

set_option autoImplicit false

namespace Sys2Proof.Machine

/-! ### The words that count a feed's packets (R182) -/

/-- PKTS, KIB and LAST_RX: what each RTP packet writes, accepted or not. -/
def rxWords : List Fld := [FEEDD_PKTS_PKTS, FEEDD_KIB_KIB, FEEDD_LAST_RX_LO_T, FEEDD_LAST_RX_HI_T]

/-- The field is none of them. -/
abbrev notRxWord (g : Fld) : Prop := ∀ h ∈ rxWords, h.off * 32 + h.lo ≠ g.off * 32 + g.lo

/-- From `s` to `t` those words of feed `f`, and the packet slots, stay as they are. -/
def keepsRx (f : Nat) (s t : State) : Prop := t.pkts = s.pkts ∧ ∀ h ∈ rxWords, t.rd (feedE f) h = s.rd (feedE f) h

section
variable {s t : State} {f : Nat}

theorem keepsRx_refl : keepsRx f s s := ⟨rfl, fun _ _ => rfl⟩

theorem keepsRx.trans {u : State} (h : keepsRx f s t) (h' : keepsRx f t u) : keepsRx f s u := by
  obtain ⟨hpkts, hrd⟩ := h
  obtain ⟨hpkts', hrd'⟩ := h'
  exact ⟨hpkts'.trans hpkts, fun w hw => (hrd' w hw).trans (hrd w hw)⟩

theorem keepsRx_wr {g : Fld} (hg : notRxWord g) (v : Nat) (h : keepsRx f s t) : keepsRx f s (t.wr (feedE f) g v) :=
  ⟨h.1, fun w hw => (State.rd_wr_same (hg w hw)).trans (h.2 w hw)⟩

theorem keepsRx_setFeed (x : FeedSt) (h : keepsRx f s t) : keepsRx f s (t.setFeed f x) := h

theorem keepsRx_emit (code : Nat) (data : List Nat) (h : keepsRx f s t) : keepsRx f s (t.emit feedP code data) :=
  ⟨(t.pkts_emit_feed code data).trans h.1, fun w hw => (t.rd_feedE_emit f w (by decide) code data).trans (h.2 w hw)⟩

end

/-! ### A packet counted (R182) -/

section
variable (s : State) (f : Nat) (st : FeedSt) (x : PktSlot) (r : Rtp)

/-- The feed's state with the packet's payload counted. -/
def FeedSt.counted (st : FeedSt) (r : Rtp) : FeedSt := { st with bytes := st.bytes + r.data.length }

/-- The packet counted. -/
def State.rtpCounted (s : State) (f : Nat) (st : FeedSt) (x : PktSlot) (r : Rtp) : State := (s.rtpCount f st x r).2

theorem State.rtpCounted_spec :
    (s.rtpCounted f st x r).rd (feedE f) FEEDD_LAST_RX_LO_T = x.stamp % 2 ^ 32 ∧
    (s.rtpCounted f st x r).rd (feedE f) FEEDD_LAST_RX_HI_T = x.stamp / 2 ^ 32 % 2 ^ 32 ∧
    (s.rtpCounted f st x r).rd (feedE f) FEEDD_PKTS_PKTS = (s.rd (feedE f) FEEDD_PKTS_PKTS + 1) % 2 ^ FEEDD_PKTS_PKTS.w ∧
    (s.rtpCounted f st x r).rd (feedE f) FEEDD_KIB_KIB = (st.bytes + r.data.length) / 1024 % 2 ^ FEEDD_KIB_KIB.w ∧
    Store.find f (s.rtpCounted f st x r).feeds = some (st.counted r) := by
  simp only [State.rtpCounted, State.rtpCount, State.feedInc, State.inc_eq, State.wr64, State.rd_setFeed]
  refine ⟨?_, ?_, ?_, ?_, State.find_setFeed _ _ _⟩
  · iterate 3 rw [State.rd_wr_same (by decide)]
    exact State.rd_wr_self _ _ _ _
  · iterate 2 rw [State.rd_wr_same (by decide)]
    exact State.rd_wr_self _ _ _ _
  · rw [State.rd_wr_same (by decide), State.rd_wr_self]
    iterate 2 rw [State.rd_wr_same (by decide)]
  · exact State.rd_wr_self _ _ _ _

theorem State.rd_rtpCounted {g : Fld} (hg : notRxWord g) : (s.rtpCounted f st x r).rd (feedE f) g = s.rd (feedE f) g := by
  simp only [notRxWord, rxWords, List.forall_mem_cons] at hg
  obtain ⟨hpkts, hkib, hlo, hhi, -⟩ := hg
  simp only [State.rtpCounted, State.rtpCount, State.feedInc, State.inc_eq, State.wr64, State.rd_setFeed]
  rw [State.rd_wr_same hkib.symm, State.rd_wr_same hpkts.symm, State.rd_wr_same hhi.symm, State.rd_wr_same hlo.symm]

/-- The packet is no RTP of the feed, or holds no payload that R187 supports. -/
def State.rtpForeign (s : State) (f : Nat) (st : FeedSt) (r : Rtp) : Prop :=
  r.v ≠ 2 ∨ r.pt ≠ s.rd (feedE f) FEEDD_W04_PT ∨
    (if s.on (feedE f) FEEDD_W00_SSRC_ANY then st.ssrc else some (s.rd (feedE f) FEEDD_W0C_SSRC)).getD r.ssrc ≠ r.ssrc ∨
    nalUnsupported (decide (s.rd (feedE f) FEEDD_W00_CODEC = 1)) r.data = true

/-- The count writes none of the words that decide it. -/
theorem State.rtpForeign_rtpCounted : (s.rtpCounted f st x r).rtpForeign f (st.counted r) r ↔ s.rtpForeign f st r := by
  simp only [State.rtpForeign, State.on_eq, s.rd_rtpCounted f st x r (g := FEEDD_W04_PT) (by decide),
    s.rd_rtpCounted f st x r (g := FEEDD_W00_SSRC_ANY) (by decide), s.rd_rtpCounted f st x r (g := FEEDD_W0C_SSRC) (by decide),
    s.rd_rtpCounted f st x r (g := FEEDD_W00_CODEC) (by decide)]
  rfl

end

/-! ### A packet accepted (R185, R188, R197) -/

section
variable {s t : State} {f : Nat} {st : FeedSt} {x : PktSlot} {r : Rtp}

theorem keepsRx_feedAccepted (st : FeedSt) (h : keepsRx f s t) : keepsRx f s (t.feedAccepted f st) := by
  have hwr := keepsRx_wr (g := FEEDD_W44_HEALTH) (by decide) (healthLive st t.now) h
  unfold State.feedAccepted
  dsimp only
  split
  · exact keepsRx_emit _ _ hwr
  · exact hwr

theorem State.feeds_feedAccepted (s : State) (f : Nat) (st : FeedSt) : (s.feedAccepted f st).feeds = s.feeds := by
  unfold State.feedAccepted
  dsimp only
  split
  · exact State.feeds_emit_feed _ _ _
  · rfl

theorem keepsRx_rtpLock (h : keepsRx f s t) : keepsRx f s (t.rtpLock f st x r).2 :=
  keepsRx_wr (by decide) _ h

/-- Where a packet is placed concerns the access units alone. -/
theorem State.auPlace_snd (s : State) (f : Nat) (st : FeedSt) (stamp ext ts : Nat) (m : Bool) (data : List Nat) :
    ∃ l, (s.auPlace f st stamp ext ts m data).2 = { st with aus := l } := by
  unfold State.auPlace
  dsimp only
  split
  · split
    · exact ⟨_, rfl⟩
    · exact ⟨_, rfl⟩
  · split
    · exact ⟨_, rfl⟩
    · exact ⟨_, rfl⟩

theorem FeedSt.jitter_eq (st : FeedSt) (rx ts : Nat) : ∃ tr j, st.jitter rx ts = { st with transit := tr, jit := j } := by
  unfold FeedSt.jitter
  dsimp only
  split
  · exact ⟨_, _, rfl⟩
  · exact ⟨_, _, rfl⟩

/-- An accepted packet counts as received now, with the highest number so far; of the descriptor it writes JITTER, LATE and HEALTH. -/
theorem State.rtpAccept_spec (s : State) (f : Nat) (st : FeedSt) (x : PktSlot) (r : Rtp) (ext : Nat) :
    keepsRx f s (s.rtpAccept f st x r ext) ∧
    ∃ st2, Store.find f (s.rtpAccept f st x r ext).feeds = some st2 ∧ st2.maxSeq = some (max ext (st.maxSeq.getD ext)) ∧
      st2.received = st.received + 1 ∧ st2.lastAcc = x.stamp := by
  unfold State.rtpAccept
  dsimp only
  generalize hst1 : FeedSt.mk .. = st1
  obtain ⟨tr, j, hjit⟩ := st1.jitter_eq x.stamp r.ts
  obtain ⟨l, hl⟩ := s.auPlace_snd f (st1.jitter x.stamp r.ts) x.stamp ext r.ts r.m r.data
  generalize s.auPlace f (st1.jitter x.stamp r.ts) x.stamp ext r.ts r.m r.data = placed at hl ⊢
  obtain ⟨late, st2⟩ := placed
  dsimp only at hl ⊢
  refine ⟨keepsRx_feedAccepted _ (keepsRx_setFeed _ ?_), st2, ?_, ?_⟩
  · have hjitter := keepsRx_wr (f := f) (g := FEEDD_JITTER_JITTER) (by decide) (st2.jit / 16) (keepsRx_refl (s := s))
    split
    · exact keepsRx_wr (by decide) _ hjitter
    · exact hjitter
  · rw [State.feeds_feedAccepted, State.find_setFeed]
  · rw [hl, hjit, ← hst1]
    exact ⟨rfl, rfl, rfl⟩

end

/-! ### A packet judged (R185, R186) -/

section
variable (s : State) (f : Nat) (st : FeedSt) (x : PktSlot) (r : Rtp)

/-- A packet accepted, which may lock the feed's SSRC and source. -/
def State.rtpLockAccept (s : State) (f : Nat) (st : FeedSt) (x : PktSlot) (r : Rtp) (ext : Nat) : State :=
  (s.rtpLock f st x r).2.rtpAccept f (s.rtpLock f st x r).1 x r ext

/-- The feed's state before the first packet of a sequence, whose number begins it. -/
def FeedSt.begun (st : FeedSt) (ext : Nat) : FeedSt := if st.maxSeq.isNone then { st with baseSeq := ext } else st

/-- The feed's state where the sequence starts again. -/
def State.rtpRestarted (s : State) (f : Nat) (st : FeedSt) (x : PktSlot) (r : Rtp) : FeedSt :=
  { st.seqStart r.seq x.stamp with resync := true, pset := s.on (feedE f) FEEDD_W00_PSET_EN, ssrc := none, src := none }

/-- What becomes of a counted packet by the verdict on its number. -/
def State.rtpJudged (s : State) (f : Nat) (st : FeedSt) (x : PktSlot) (r : Rtp) : SeqVerdict → State
  | .dup => s.feedInc f FEEDD_DUP_DUP 1
  | .jump => (s.setFeed f { st with badSeq := (r.seq + 1) % 65536 }).feedInc f FEEDD_W64_UNSUP 1
  | .good ext => s.rtpLockAccept f (st.begun ext) x r ext
  | .restart =>
    let u := s.emit feedP 0x1801 (le f 2 ++ [0, 0] ++ le r.seq 4)
    u.rtpLockAccept f (u.rtpRestarted f st x r) x r (u.rtpRestarted f st x r).baseSeq

variable {s f st r}

theorem State.rtpPacket_foreign (h : s.rtpForeign f st r) :
    s.rtpPacket f st x r = (s.rtpCounted f st x r).feedInc f FEEDD_W64_UNSUP 1 :=
  if_pos ((s.rtpForeign_rtpCounted f st x r).2 h)

theorem State.rtpPacket_own (h : ¬ s.rtpForeign f st r) :
    s.rtpPacket f st x r = (s.rtpCounted f st x r).rtpJudged f (st.counted r) x r (seqJudge st r.seq) :=
  (if_neg (mt (s.rtpForeign_rtpCounted f st x r).1 h)).trans rfl

theorem State.rtpLockAccept_spec (s : State) (f : Nat) (st : FeedSt) (x : PktSlot) (r : Rtp) (ext : Nat) :
    keepsRx f s (s.rtpLockAccept f st x r ext) ∧
    ∃ st2, Store.find f (s.rtpLockAccept f st x r ext).feeds = some st2 ∧ st2.maxSeq = some (max ext (st.maxSeq.getD ext)) ∧
      st2.received = st.received + 1 ∧ st2.lastAcc = x.stamp := by
  obtain ⟨hkeeps, hst⟩ := (s.rtpLock f st x r).2.rtpAccept_spec f (s.rtpLock f st x r).1 x r ext
  exact ⟨(keepsRx_rtpLock keepsRx_refl).trans hkeeps, hst⟩

theorem FeedSt.begun_eq (st : FeedSt) (ext : Nat) : ∃ b, st.begun ext = { st with baseSeq := b } := by
  unfold FeedSt.begun
  split
  · exact ⟨_, rfl⟩
  · exact ⟨_, rfl⟩

theorem keepsRx_rtpJudged (v : SeqVerdict) : keepsRx f s (s.rtpJudged f st x r v) := by
  cases v with
  | good ext => exact (s.rtpLockAccept_spec f _ x r ext).1
  | dup => exact keepsRx_wr (by decide) _ keepsRx_refl
  | jump => exact keepsRx_wr (by decide) _ (keepsRx_setFeed _ keepsRx_refl)
  | restart => exact (keepsRx_emit _ _ keepsRx_refl).trans (State.rtpLockAccept_spec _ f _ x r _).1

/-- Whatever is judged of a packet, it stays counted. -/
theorem keepsRx_rtpPacket (s : State) (f : Nat) (st : FeedSt) (x : PktSlot) (r : Rtp) :
    keepsRx f (s.rtpCounted f st x r) (s.rtpPacket f st x r) := by
  by_cases h : s.rtpForeign f st r
  · rw [State.rtpPacket_foreign x h]
    exact keepsRx_wr (by decide) _ keepsRx_refl
  · rw [State.rtpPacket_own x h]
    exact keepsRx_rtpJudged x _

theorem State.rtpPacket_counts (s : State) (f : Nat) (st : FeedSt) (x : PktSlot) (r : Rtp) :
    (s.rtpPacket f st x r).rd (feedE f) FEEDD_LAST_RX_LO_T = x.stamp % 2 ^ 32 ∧
    (s.rtpPacket f st x r).rd (feedE f) FEEDD_LAST_RX_HI_T = x.stamp / 2 ^ 32 % 2 ^ 32 ∧
    (s.rtpPacket f st x r).rd (feedE f) FEEDD_PKTS_PKTS = (s.rd (feedE f) FEEDD_PKTS_PKTS + 1) % 2 ^ FEEDD_PKTS_PKTS.w ∧
    (s.rtpPacket f st x r).rd (feedE f) FEEDD_KIB_KIB = (st.bytes + r.data.length) / 1024 % 2 ^ FEEDD_KIB_KIB.w := by
  obtain ⟨hlo, hhi, hpkts, hkib, -⟩ := s.rtpCounted_spec f st x r
  obtain ⟨-, hrd⟩ := keepsRx_rtpPacket s f st x r
  exact ⟨(hrd _ (by decide)).trans hlo, (hrd _ (by decide)).trans hhi, (hrd _ (by decide)).trans hpkts,
    (hrd _ (by decide)).trans hkib⟩

/-- A packet that is counted once more, and changes nothing else of the feed. -/
theorem State.rtpCounted_feedInc (s : State) (f : Nat) (st : FeedSt) (x : PktSlot) (r : Rtp) {g : Fld} (hg : notRxWord g) :
    ((s.rtpCounted f st x r).feedInc f g 1).rd (feedE f) g = (s.rd (feedE f) g + 1) % 2 ^ g.w ∧
    Store.find f ((s.rtpCounted f st x r).feedInc f g 1).feeds = some (st.counted r) := by
  obtain ⟨-, -, -, -, hfind⟩ := s.rtpCounted_spec f st x r
  refine ⟨?_, hfind⟩
  rw [State.feedInc, State.inc_eq, State.rd_wr_self, s.rd_rtpCounted f st x r hg]

/-- A packet in sequence. -/
theorem State.rtpPacket_good {ext : Nat} (h : ¬ s.rtpForeign f st r) (hj : seqJudge st r.seq = .good ext) :
    ∃ st2, Store.find f (s.rtpPacket f st x r).feeds = some st2 ∧ st2.maxSeq = some (max ext (st.maxSeq.getD ext)) ∧
      st2.received = st.received + 1 ∧ st2.lastAcc = x.stamp := by
  obtain ⟨b, hb⟩ := (st.counted r).begun_eq ext
  obtain ⟨-, st2, hfind, hst2⟩ := (s.rtpCounted f st x r).rtpLockAccept_spec f ((st.counted r).begun ext) x r ext
  rw [State.rtpPacket_own x h, hj]
  rw [hb] at hst2
  exact ⟨st2, hfind, hst2⟩

end

/-! ### Sender reports (R193) -/

theorem State.pkts_senderReport (s : State) (f : Nat) (st : FeedSt) (x : PktSlot) (l : List Nat) :
    (s.senderReport f st x l).pkts = s.pkts := by
  unfold State.senderReport
  dsimp only
  split
  · rfl
  · split
    · rfl
    · split
      · exact State.pkts_emit_feed _ _ _
      · rfl

/-! ### The commands -/

section
variable {s : State} {f : Fin 512} {x : PktSlot}

/-- What the firmware of feed `f` does with a packet once its slot is freed. -/
def State.rtpTaken (s : State) (f : Nat) (x : PktSlot) : State :=
  match Store.find f s.feeds, x.frame.udp with
  | some st, some u => s.rtpPacket f st x (rtpParse u.payload)
  | _, _ => s

def State.rtcpTaken (s : State) (f : Nat) (x : PktSlot) : State :=
  match Store.find f s.feeds, x.frame.udp with
  | some st, some u => s.senderReport f st x u.payload
  | _, _ => s

theorem State.pkts_rtpTaken (s : State) (f : Nat) (x : PktSlot) : (s.rtpTaken f x).pkts = s.pkts := by
  unfold State.rtpTaken
  split
  · exact (keepsRx_rtpPacket _ _ _ _ _).1
  · rfl

theorem State.pkts_rtcpTaken (s : State) (f : Nat) (x : PktSlot) : (s.rtcpTaken f x).pkts = s.pkts := by
  unfold State.rtcpTaken
  split
  · exact State.pkts_senderReport _ _ _ _ _
  · rfl

theorem exec_rtpPacket_idle (h : s.drvRuns = false) : exec (.rtpPacket f) s = .next s := congrArg _ (if_pos (by simp [h]))

theorem exec_senderReport_idle (h : s.drvRuns = false) : exec (.senderReport f) s = .next s := congrArg _ (if_pos (by simp [h]))

theorem exec_rtpPacket_none (h : s.feedFrame f.val false = none) : exec (.rtpPacket f) s = .next s := by
  show execRtpPacket f s = _
  rw [execRtpPacket, h]
  exact congrArg _ (ite_self _)

theorem exec_senderReport_none (h : s.feedFrame f.val true = none) : exec (.senderReport f) s = .next s := by
  show execSenderReport f s = _
  rw [execSenderReport, h]
  exact congrArg _ (ite_self _)

theorem exec_rtpPacket (hrun : s.drvRuns = true) (h : s.feedFrame f.val false = some x) :
    exec (.rtpPacket f) s = .next ((s.pktFree x).rtpTaken f.val x) := by
  show execRtpPacket f s = _
  rw [execRtpPacket, h]
  exact congrArg _ (if_neg (by simp [hrun]))

theorem exec_senderReport (hrun : s.drvRuns = true) (h : s.feedFrame f.val true = some x) :
    exec (.senderReport f) s = .next ((s.pktFree x).rtcpTaken f.val x) := by
  show execSenderReport f s = _
  rw [execSenderReport, h]
  exact congrArg _ (if_neg (by simp [hrun]))

/-- An enabled feed's packet is processed as RTP. -/
theorem exec_rtpPacket_feed {st : FeedSt} {u : Udp} (hrun : s.drvRuns = true) (h : s.feedFrame f.val false = some x)
    (hf : Store.find f.val s.feeds = some st) (hu : x.frame.udp = some u) :
    exec (.rtpPacket f) s = .next ((s.pktFree x).rtpPacket f.val st x (rtpParse u.payload)) := by
  rw [exec_rtpPacket hrun h, State.rtpTaken, State.feeds_pktFree, hf, hu]

theorem State.rtpForeign_pktFree {st : FeedSt} {r : Rtp} {n : Nat} : (s.pktFree x).rtpForeign n st r ↔ s.rtpForeign n st r := by
  obtain ⟨y, h⟩ := s.pktFree_eq x
  rw [h]
  rfl

end

/-- Settles O34: every packet is counted before it is judged, and what it is judged to be writes none of the words of that count. -/
theorem feedPackets : Obligations.FeedPackets := by
  unfold Obligations.FeedPackets
  intro f s
  refine ⟨fun h => ⟨exec_rtpPacket_idle h, exec_senderReport_idle h⟩, exec_rtpPacket_none,
    fun x hrun hx => ⟨_, exec_senderReport hrun hx, ?_⟩, exec_senderReport_none, fun x hrun hx => ⟨_, exec_rtpPacket hrun hx, ?_⟩,
    fun x st u hrun hx hf hu => ?_⟩
  · exact (State.pkts_rtcpTaken _ _ _).trans (s.pkts_pktFree x)
  · exact (State.pkts_rtpTaken _ _ _).trans (s.pkts_pktFree x)
  · have hexec := exec_rtpPacket_feed hrun hx hf hu
    generalize rtpParse u.payload = r at hexec ⊢
    refine ⟨⟨_, hexec, ?_⟩, fun h => ⟨_, hexec, ?_⟩, fun hv hpt hssrc hnal => ?_⟩
    · rw [← s.rd_pktFree x]
      exact State.rtpPacket_counts _ _ _ _ _
    · have hforeign : (s.pktFree x).rtpForeign f.val st r :=
        State.rtpForeign_pktFree.2 (h.imp_right .inl)
      rw [State.rtpPacket_foreign x hforeign, ← s.rd_pktFree x]
      exact State.rtpCounted_feedInc _ _ _ _ _ (by decide)
    · have hown : ¬ (s.pktFree x).rtpForeign f.val st r := by
        rw [State.rtpForeign_pktFree, State.rtpForeign]
        simp [hv, hpt, hssrc, hnal]
      refine ⟨fun hdup => ⟨_, hexec, ?_⟩, fun ext hgood => ⟨_, hexec, State.rtpPacket_good x hown hgood⟩⟩
      rw [State.rtpPacket_own x hown, hdup, ← s.rd_pktFree x]
      exact State.rtpCounted_feedInc _ _ _ _ _ (by decide)

end Sys2Proof.Machine
end

section
/-! PROOFS. Access units closed, admitted and dropped, and the health of feeds (R188, R189, R191, R192, R197). -/

set_option autoImplicit false

namespace Sys2Proof.Machine

/-! ### Closed access units (R188) -/

theorem nextAu_eq_none {l : List OpenAu} (h : ∀ a ∈ l, a.closing = none) : nextAu l = none := by
  have hclosed : l.filter (fun a => a.closing.isSome) = [] := by simpa using h
  unfold nextAu
  rw [hclosed]
  rfl

/-- The access unit closed at the time-out of the oldest open one. -/
def FeedSt.timedOut (st : FeedSt) (a : OpenAu) (t : Nat) : FeedSt :=
  { st with aus := mapWhere (fun x => decide (x.ts = a.ts)) (OpenAu.close t false) st.aus }

/-- The access unit `x` is open no more. -/
def FeedSt.without (st : FeedSt) (x : OpenAu) : FeedSt := { st with aus := st.aus.filter fun y => decide (y.ts ≠ x.ts) }

/-! ### Where an access unit is dropped (R184, R191, R192) -/

section
variable {s t : State}

/-- The context of a feed lies in the loft, where its partition's words say. -/
theorem State.feedCtx_congr (hrd : ∀ g, t.rd (pg .loft 0) g = s.rd (pg .loft 0) g) (f : Nat) : t.feedCtx f = s.feedCtx f := by
  have huse : t.partOfUse 1 = s.partOfUse 1 := by simp only [State.partOfUse, State.partOn, State.on_eq, hrd]
  unfold State.feedCtx
  simp only [huse, State.partArea, hrd]
  rfl

theorem State.ctx_congr {f : Nat} (hctx : t.feedCtx f = s.feedCtx f) (hloft : t.loft = s.loft) (hsyn : t.loftSyn = s.loftSyn)
    (off n : Nat) : t.ctx f off n = s.ctx f off n := by
  have hbyte : ∀ a, t.loftByte a = s.loftByte a := fun a => by
    unfold State.loftByte
    rw [hloft, hsyn]
  unfold State.ctx State.loftLE
  simp only [hctx, hbyte]

/-- Waiting for yard time decides nothing of a drop. -/
theorem State.auDrops_ingressTo (s : State) (x f : Nat) (st : FeedSt) (a len : Nat) :
    (s.ingressTo x).auDrops f st a len = s.auDrops f st a len := by
  obtain ⟨hloft, hsyn⟩ := s.loft_ingressTo x
  have hctx := State.feedCtx_congr (s := s) (s.rd_ingressTo_above x pg_loft_above) f
  have hword := State.ctx_congr hctx hloft hsyn
  have hrd : (s.ingressTo x).auRd f = s.auRd f := by simp only [State.auRd, hword]
  have hwait : (s.ingressTo x).auWaiting f = s.auWaiting f := by simp only [State.auWaiting, hword, hrd]
  have hspans : (s.ingressTo x).auSpans f = s.auSpans f := by simp only [State.auSpans, hword, hrd, hwait]
  unfold State.auDrops State.baySize
  simp only [hctx, hwait, hspans, s.rd_ingressTo_above x (feedE_above f), s.rd_ingressTo_above x (bayE_above _)]

theorem State.bayHeld_ingressTo (s : State) (x n g : Nat) : (s.ingressTo x).bayHeld n g = s.bayHeld n g := by
  simp only [State.bayHeld, State.bayState, State.bayGen, s.rd_ingressTo_above x (bayE_above n)]
  rfl

end

/-! ### Admission (R189, R191) -/

section
variable {s : State} {f : Nat} {st : FeedSt} {x : OpenAu} {a : Nat}

/-- The bytes of an access unit before which no parameter sets are due. -/
def State.auBytes (s : State) (f : Nat) (x : OpenAu) : List Nat :=
  annexB (assemble (decide (s.rd (feedE f) FEEDD_W00_CODEC = 1)) none (pktSort x.pkts))

theorem State.auBytes_ingressTo (t : Nat) : (s.ingressTo t).auBytes f x = s.auBytes f x := by
  simp only [State.auBytes, s.rd_ingressTo_above t (feedE_above f)]

theorem FeedSt.with_pset {b : Bool} (h : st.pset = b) : { st with pset := b } = st := by
  subst h
  rfl

/-- The access unit behind the bytes `pre` of its parameter sets is dropped or written. -/
def State.auAdmitted (s : State) (f : Nat) (st : FeedSt) (x : OpenAu) (a : Nat) (pre : List Nat) (pset : Bool) : State :=
  if s.auDrops f { st with pset := false } a (pre ++ s.auBytes f x).length then s.auDropIngress f { st with pset := pset } x
  else s.auWrite f { st with pset := false } x a (pre ++ s.auBytes f x) pset

theorem State.auAdmit_held (hring : s.bayHeld (s.rd (feedE f) FEEDD_RING_RING_BAY) (s.rd (feedE f) FEEDD_RING_RING_GEN) = true) :
    s.auAdmit f st x a = (s.psetPrefix f (st.without x)).2.2.auAdmitted f (st.without x) x a (s.psetPrefix f (st.without x)).1
      (s.psetPrefix f (st.without x)).2.1 :=
  if_neg (by simp [hring])

/-- With no parameter sets due, nothing stands before the access unit. -/
theorem State.auAdmit_plain (hring : s.bayHeld (s.rd (feedE f) FEEDD_RING_RING_BAY) (s.rd (feedE f) FEEDD_RING_RING_GEN) = true)
    (hp : st.pset = false) :
    s.auAdmit f st x a = if s.auDrops f (st.without x) a (s.auBytes f x).length then s.auDropIngress f (st.without x) x
      else s.auWrite f (st.without x) x a (s.auBytes f x) false := by
  have hpre : s.psetPrefix f (st.without x) = ([], false, s) := if_pos (by simp [FeedSt.without, hp])
  rw [State.auAdmit_held hring, hpre, State.auAdmitted, FeedSt.with_pset (st := st.without x) hp]
  rfl

/-- A drop is counted, leaves a gap before the next access unit, and changes no other access unit. -/
theorem State.auDropIngress_spec (s : State) (f : Nat) (st : FeedSt) (x : OpenAu) :
    (s.auDropIngress f st x).rd (feedE f) FEEDD_W64_DROPPED =
      (s.rd (feedE f) FEEDD_W64_DROPPED + 1) % 2 ^ FEEDD_W64_DROPPED.w ∧
    ∃ st2, Store.find f (s.auDropIngress f st x).feeds = some st2 ∧ st2.aus = st.aus ∧ st2.gap = true :=
  ⟨State.rd_wr_self _ _ _ _, _, State.find_setFeed _ _ _, rfl, rfl⟩

end

/-! ### The commands -/

section
variable {s : State} {f : Fin 512} {st : FeedSt}

theorem exec_auTimeout_idle (h : s.drvRuns = false) : exec (.auTimeout f) s = .next s := congrArg _ (if_pos (by simp [h]))
theorem exec_auAdmit_idle (h : s.drvRuns = false) : exec (.auAdmit f) s = .next s := congrArg _ (if_pos (by simp [h]))
theorem exec_feedSilent_idle (h : s.drvRuns = false) : exec (.feedSilent f) s = .next s := congrArg _ (if_pos (by simp [h]))
theorem exec_feedDegradedLapse_idle (h : s.drvRuns = false) : exec (.feedDegradedLapse f) s = .next s :=
  congrArg _ (if_pos (by simp [h]))

variable (hf : Store.find f.val s.feeds = some st)
include hf

theorem exec_auTimeout {a : OpenAu} (hrun : s.drvRuns = true) (ha : st.aus.find? (fun a => a.closing.isNone) = some a)
    (ht : s.ingressAt (a.newest + s.auTimeoutNs f.val) = true) :
    exec (.auTimeout f) s = .next ((s.ingressTo (a.newest + s.auTimeoutNs f.val)).setFeed f.val
      (st.timedOut a (a.newest + s.auTimeoutNs f.val))) := by
  show execAuTimeout f s = _
  simp only [execAuTimeout, hf, ha, hrun, ht, Bool.not_true, Bool.false_eq_true, if_false]
  rfl

theorem exec_auTimeout_none (h : ∀ a ∈ st.aus, a.closing.isSome = true) : exec (.auTimeout f) s = .next s := by
  have hopen : st.aus.find? (fun a => a.closing.isNone) = none := by simpa [Option.isSome_iff_ne_none] using h
  show execAuTimeout f s = _
  simp only [execAuTimeout, hf, hopen]
  exact congrArg _ (ite_self _)

theorem exec_auAdmit_none (h : ∀ a ∈ st.aus, a.closing = none) : exec (.auAdmit f) s = .next s := by
  show execAuAdmit f s = _
  simp only [execAuAdmit, hf, nextAu_eq_none h]
  exact congrArg _ (ite_self _)

theorem exec_auAdmit {x : OpenAu} (hrun : s.drvRuns = true) (hx : nextAu st.aus = some x)
    (ht : s.ingressAt (s.auStamp f.val st x) = true) :
    exec (.auAdmit f) s = .next ((s.ingressTo (s.auStamp f.val st x)).auAdmit f.val st x (s.auStamp f.val st x)) := by
  show execAuAdmit f s = _
  simp only [execAuAdmit, hf, hx, hrun, ht, Bool.not_true, Bool.false_eq_true, if_false]

/-- With the ring held and no parameter sets due, the state before the wait decides whether the access unit is dropped. -/
theorem exec_auAdmit_plain {x : OpenAu} (hrun : s.drvRuns = true) (hx : nextAu st.aus = some x)
    (ht : s.ingressAt (s.auStamp f.val st x) = true)
    (hring : s.bayHeld (s.rd (feedE f.val) FEEDD_RING_RING_BAY) (s.rd (feedE f.val) FEEDD_RING_RING_GEN) = true)
    (hp : st.pset = false) :
    exec (.auAdmit f) s = .next
      (if s.auDrops f.val (st.without x) (s.auStamp f.val st x) (s.auBytes f.val x).length
        then (s.ingressTo (s.auStamp f.val st x)).auDropIngress f.val (st.without x) x
        else (s.ingressTo (s.auStamp f.val st x)).auWrite f.val (st.without x) x (s.auStamp f.val st x) (s.auBytes f.val x) false) := by
  rw [exec_auAdmit hf hrun hx ht, State.auAdmit_plain _ hp, State.auBytes_ingressTo, State.auDrops_ingressTo]
  simpa only [State.bayHeld_ingressTo, s.rd_ingressTo_above _ (feedE_above f.val)] using hring

/-- SILENT in ns; 0 acts as 1,000 ms (R182). -/
def State.silentNs (s : State) (f : Nat) : Nat :=
  (if s.rd (feedE f) FEEDD_W40_SILENT = 0 then 1000 else s.rd (feedE f) FEEDD_W40_SILENT) * 1000000

theorem exec_feedSilent (hrun : s.drvRuns = true)
    (hh : s.rd (feedE f.val) FEEDD_W44_HEALTH = 2 ∨ s.rd (feedE f.val) FEEDD_W44_HEALTH = 3) : ∃ data,
    exec (.feedSilent f) s = .next
      (((s.advanceTo (st.lastAcc + s.silentNs f.val + 1)).wr (feedE f.val) FEEDD_W44_HEALTH 4).emit feedP 0x0801 data) := by
  have hlive : ¬ (s.rd (feedE f.val) FEEDD_W44_HEALTH ≠ 2 ∧ s.rd (feedE f.val) FEEDD_W44_HEALTH ≠ 3) := by omega
  show ∃ data, execFeedSilent f s = _
  rw [execFeedSilent, hf]
  exact ⟨_, congrArg _ ((if_neg (by simp [hrun])).trans (if_neg hlive))⟩

theorem exec_feedSilent_other (h2 : s.rd (feedE f.val) FEEDD_W44_HEALTH ≠ 2) (h3 : s.rd (feedE f.val) FEEDD_W44_HEALTH ≠ 3) :
    exec (.feedSilent f) s = .next s := by
  show execFeedSilent f s = _
  rw [execFeedSilent, hf]
  exact congrArg _ ((congrArg _ (if_pos ⟨h2, h3⟩)).trans (ite_self _))

theorem exec_feedDegradedLapse {a : Nat} (hrun : s.drvRuns = true) (ha : st.flaggedAt = some a)
    (hh : s.rd (feedE f.val) FEEDD_W44_HEALTH = 3) :
    exec (.feedDegradedLapse f) s = .next ((s.advanceTo (a + 10 ^ 9)).wr (feedE f.val) FEEDD_W44_HEALTH 2) := by
  show execFeedDegradedLapse f s = _
  simp only [execFeedDegradedLapse, hf, ha, hrun, hh, Bool.not_true, Bool.false_eq_true, if_false, if_true]

end

/-- The feed has been silent for longer than SILENT. -/
theorem State.silent_spec (s : State) (f t : Nat) (data : List Nat) :
    (((s.advanceTo (t + 1)).wr (feedE f) FEEDD_W44_HEALTH 4).emit feedP 0x0801 data).rd (feedE f) FEEDD_W44_HEALTH = 4 ∧
    t < (((s.advanceTo (t + 1)).wr (feedE f) FEEDD_W44_HEALTH 4).emit feedP 0x0801 data).now := by
  refine ⟨?_, ?_⟩
  · rw [State.rd_feedE_emit _ _ _ (by decide), State.rd_wr_self]
    rfl
  · rw [State.now_congr (State.emit_onlyRegsEv (by decide)).time_eq, State.now_wr]
    exact s.le_now_advanceTo (t + 1)

/-- Settles O35: ingress waits until the time named, which changes nothing that decides of the access unit, and then acts. -/
theorem accessUnits : Obligations.AccessUnits := by
  unfold Obligations.AccessUnits
  intro f s st hf
  refine ⟨fun h => ⟨exec_auTimeout_idle h, exec_auAdmit_idle h, exec_feedSilent_idle h, exec_feedDegradedLapse_idle h⟩,
    fun a hrun ha ht => ⟨_, exec_auTimeout hf hrun ha ht, State.find_setFeed _ _ _⟩, exec_auTimeout_none hf, exec_auAdmit_none hf,
    fun x hrun hx ht hring hp => ?_, fun hrun hh => ?_, exec_feedSilent_other hf, fun a hrun ha hh => ?_⟩
  · have hexec := exec_auAdmit_plain hf hrun hx ht hring hp
    refine ⟨fun hdrop => ?_, fun hkeep => hexec.trans (congrArg _ (if_neg (Bool.eq_false_iff.1 hkeep)))⟩
    refine ⟨_, hexec.trans (congrArg _ (if_pos hdrop)), ?_⟩
    rw [← s.rd_ingressTo_above (s.auStamp f.val st x) (feedE_above f.val)]
    exact State.auDropIngress_spec _ _ _ _
  · obtain ⟨data, hexec⟩ := exec_feedSilent hf hrun hh
    exact ⟨_, hexec, s.silent_spec f.val _ data⟩
  · exact ⟨_, exec_feedDegradedLapse hf hrun ha hh, State.rd_wr_self _ _ _ _, (s.le_now_advanceTo _).trans_eq (State.now_wr _ _ _ _).symm⟩

end Sys2Proof.Machine
end

section
/-! PROOFS. The descriptor of a feed: its words written, the feed enabled and disabled (R182, R184, R196). -/

set_option autoImplicit false

namespace Sys2Proof.Machine

/-! ### A descriptor word written (R182) -/

section
variable {s : State} {p v : Nat} {f : Fld} {l : List Fld}

theorem onlyRegs_setFields : onlyRegs (l.map (fkey p)) s (s.setFields p l v) :=
  onlyRegs_foldl (fun _ _ hg h => onlyRegs_wr (List.mem_map_of_mem hg) h) onlyRegs_refl

/-- Fields of different keys take what the word carries. -/
theorem State.rd_setFields (hl : (l.map (fkey p)).Nodup) (hf : f ∈ l) : (s.setFields p l v).rd p f = fieldOf v f := by
  induction l generalizing s with
  | nil => exact absurd hf List.not_mem_nil
  | cons g l ih =>
    rw [List.map_cons, List.nodup_cons] at hl
    obtain ⟨hg, hl⟩ := hl
    rcases List.mem_cons.1 hf with rfl | hf
    · have hkeep : ((s.wr p f (fieldOf v f)).setFields p l v).rd p f = (s.wr p f (fieldOf v f)).rd p f := onlyRegs_setFields.rd hg
      exact hkeep.trans ((State.rd_wr_self _ _ _ _).trans (fieldOf_mod v f))
    · exact ih hl hf

end

/-- The fields of a descriptor's word lie in it, at different bits. -/
theorem feedWord_fields (word : Fin 32) :
    (∀ g ∈ feedWord (4 * word.val), g.off = 4 * word.val) ∧ ((feedWord (4 * word.val)).map Fld.lo).Nodup := by
  revert word
  decide

theorem feedWord_keys_nodup (p : Nat) (word : Fin 32) : ((feedWord (4 * word.val)).map (fkey p)).Nodup := by
  obtain ⟨hoff, hlo⟩ := feedWord_fields word
  exact fkeys_nodup p hoff hlo

section
variable {s : State} {w : Writer} {f off v : Nat}

theorem State.feedDescWrite_on (h : s.feedOn f = true) : s.feedDescWrite w f off v = s :=
  (if_neg (by simp [h])).trans (if_pos h)

theorem State.feedDescWrite_open (ho : off ≠ 0) (h : s.feedOn f = false) (hl : s.on (feedE f) FEEDD_W00_LOCK = false)
    (hp : s.on feedP HDR_CTRL_LOCK = false) : s.feedDescWrite w f off v = s.setFields (feedE f) (feedWord off) v :=
  (if_neg fun hc => ho hc.1).trans ((if_neg (by simp [h])).trans (if_neg (by simp [hl, hp])))

theorem State.feedDescWrite_locked (ho : off ≠ 0) (h : s.feedOn f = false)
    (hl : (s.on (feedE f) FEEDD_W00_LOCK || s.on feedP HDR_CTRL_LOCK) = true) : s.feedDescWrite w f off v =
      if s.differs (feedE f) (feedWord off) v then s.lockedWrite feedP off f v w else s :=
  (if_neg fun hc => ho hc.1).trans ((if_neg (by simp [h])).trans (if_pos hl))

end

/-! ### What ingress holds and the descriptors read, beside the pipelines, the loft and the tracks -/

/-- From `s` to `t` the fields of feed `f`'s descriptor that pass `P` stay, and the feeds' states and the packet slots do. -/
def keepsFeed (P : Fld → Prop) (f : Nat) (s t : State) : Prop :=
  t.feeds = s.feeds ∧ t.pkts = s.pkts ∧ ∀ g, P g → t.rd (feedE f) g = s.rd (feedE f) g

section
variable {P : Fld → Prop} {f : Nat} {s t : State}

theorem keepsFeed_refl : keepsFeed P f s s := ⟨rfl, rfl, fun _ _ => rfl⟩

theorem keepsFeed.trans {u : State} (h : keepsFeed P f s t) (h' : keepsFeed P f t u) : keepsFeed P f s u := by
  obtain ⟨hfeeds, hpkts, hrd⟩ := h
  obtain ⟨hfeeds', hpkts', hrd'⟩ := h'
  exact ⟨hfeeds'.trans hfeeds, hpkts'.trans hpkts, fun g hg => (hrd' g hg).trans (hrd g hg)⟩

theorem keepsFeed_foldl {α : Type} {step : State → α → State} {l : List α} (hstep : ∀ u, ∀ x ∈ l, keepsFeed P f u (step u x)) :
    keepsFeed P f s (l.foldl step s) :=
  List.foldlRecOn l step keepsFeed_refl fun u hu x hx => hu.trans (hstep u x hx)

theorem keepsFeed_ite (c : Prop) [Decidable c] {u : State} (h : keepsFeed P f s t) (h' : keepsFeed P f s u) :
    keepsFeed P f s (if c then t else u) := by
  split
  · exact h
  · exact h'

theorem keepsFeed_wr {q : Nat} {h : Fld} (hq : (q + h.off) * 32 + h.lo < 0x2000000 * 32) (v : Nat) : keepsFeed P f s (s.wr q h v) :=
  ⟨rfl, rfl, fun g _ => s.rd_feedE_wr f g hq v⟩

theorem keepsFeed_emit {q : Nat} (hq : 0xF000 ≤ q) (hq' : q < 0x1000000) (code : Nat) (data : List Nat) :
    keepsFeed P f s (s.emit q code data) := by
  obtain ⟨hpkts, -, -, hfeeds⟩ := State.ingress_eq_iff.1 (s.ingress_emit hq code data)
  exact ⟨hfeeds, hpkts, fun g _ => s.rd_feedE_emit f g hq' code data⟩

theorem keepsFeed_ctxPut (n off v k : Nat) : keepsFeed P f s (s.ctxPut n off v k) := by
  unfold State.ctxPut State.loftPutLE
  split
  · rw [(State.loftPut_spec _ _ _).1]
    exact ⟨rfl, rfl, fun _ _ => rfl⟩
  · exact keepsFeed_refl

theorem keepsFeed_trackRestart (n : Nat) : keepsFeed P f s (s.trackRestart n) := by
  refine keepsFeed_foldl fun u e _ => ?_
  dsimp only
  split
  · exact ⟨rfl, rfl, fun _ _ => rfl⟩
  · exact keepsFeed_refl

theorem keepsFeed_feedCount : keepsFeed P f s s.feedCount := keepsFeed_wr (by decide) _

theorem keepsFeed_feedJoin (n : Nat) : keepsFeed P f s (s.feedJoin n) := by
  unfold State.feedJoin
  refine keepsFeed_ite _ keepsFeed_refl (keepsFeed_foldl fun u k _ => keepsFeed_ite _ ?_ keepsFeed_refl)
  exact keepsFeed_ite _ ⟨rfl, rfl, fun _ _ => rfl⟩ ⟨rfl, rfl, fun _ _ => rfl⟩

theorem keepsFeed_feedResumed (n : Nat) : keepsFeed P f s (s.feedResumed n) := keepsFeed_emit (by decide) (by decide) _ _

theorem keepsFeed_decRest {n : Nat} (hn : n < 8) : keepsFeed P f s (s.decRest n) := by
  have hpage : pg .dec n < 0x1000000 := by
    rw [pg_dec]
    omega
  have hwr : ∀ (u : State) (h : Fld) (v : Nat), h.off * 32 + h.lo < 0x1000 * 32 → keepsFeed P f u (u.wr (pg .dec n) h v) :=
    fun u h v hh => keepsFeed_wr (by omega) v
  have hswap : keepsFeed P f s (s.decSwap n) :=
    ((hwr _ _ _ (by decide)).trans (hwr _ _ _ (by decide))).trans (keepsFeed_emit (pg_dec_above n) hpage _ _)
  exact keepsFeed_ite _ ((keepsFeed_ite _ hswap keepsFeed_refl).trans (hwr _ _ _ (by decide))) keepsFeed_refl

theorem keepsFeed_decRestAll : keepsFeed P f s s.decRestAll := keepsFeed_foldl fun _ _ hn => keepsFeed_decRest (List.mem_range.1 hn)

end

/-! ### Memberships left (R196) -/

/-- Fields in words of the descriptor at whose place no page of a port or a lane counts what it sends, whatever its number. -/
abbrev clearOfTx (g : Fld) : Prop := g.off < 0x48 ∧ g.off ≠ 0x1C ∧ g.lo < 32

section
variable {f : Nat} {s : State}

theorem keepsFeed_netSend (n : Nat) (what : String) (vals : List Nat) : keepsFeed clearOfTx f s (s.netSend n what vals) := by
  obtain ⟨hpkts, -, -, hfeeds⟩ := State.ingress_eq_iff.1 (s.ingress_netSend n what vals)
  refine ⟨hfeeds, hpkts, fun g ⟨hoff, hne, hlo⟩ => ?_⟩
  have hnet : fkey (feedE f) g ≠ fkey (pg .net n) NET_TX_FRAMES_COUNT := by
    simp only [fkey, feedE, pg_net, NET_TX_FRAMES_COUNT]
    omega
  have hln : fkey (feedE f) g ≠ fkey (pg .ln (s.netLane n)) LN_TX_DROP_COUNT := by
    simp only [fkey, feedE, pg_ln, LN_TX_DROP_COUNT]
    omega
  unfold State.netSend State.netDrop
  split
  · exact State.rd_cnt_key hnet 1
  · split
    · exact State.rd_cnt_key hln 1
    · rfl

theorem keepsFeed_feedLeave : keepsFeed clearOfTx f s s.feedLeave :=
  keepsFeed.trans (t := { s with joins := s.joins.filter fun j => s.groupWanted j.port (j.v6, j.group) })
    ⟨rfl, rfl, fun _ _ => rfl⟩ (keepsFeed_foldl fun _ _ _ => keepsFeed_netSend _ _ _)

end

/-! ### Enable and disable (R184, R196) -/

section
variable {s : State} {w : Writer} {f : Nat}

theorem State.feedEnable_on (h : s.feedOn f = true) : s.feedEnable w f = s := if_pos h

/-- The descriptor and the feed's state as an enable that is not refused leaves them. -/
def State.feedStarted (s : State) (f : Nat) : State :=
  let s := (s.resetFields (feedE f) feedCounters).wb (feedE f) FEEDD_W00_EN true
  (s.wr (feedE f) FEEDD_W44_HEALTH 1).setFeed f (feed0 (s.on (feedE f) FEEDD_W00_PSET_EN))

theorem State.feedStarted_spec (s : State) (f : Nat) : (s.feedStarted f).rd (feedE f) FEEDD_W00_EN = 1 ∧
    (s.feedStarted f).rd (feedE f) FEEDD_W44_HEALTH = 1 ∧ (∀ g ∈ feedCounters, (s.feedStarted f).rd (feedE f) g = g.rst) ∧
    Store.find f (s.feedStarted f).feeds = some (feed0 (s.on (feedE f) FEEDD_W00_PSET_EN)) := by
  simp only [State.feedStarted, State.rd_setFeed, State.find_setFeed, State.wb_eq]
  refine ⟨?_, State.rd_wr_self _ _ _ _, fun g hg => ?_, ?_⟩
  · rw [State.rd_wr_same (by decide), State.rd_wr_self]
    rfl
  · have hne : (FEEDD_W44_HEALTH.off * 32 + FEEDD_W44_HEALTH.lo ≠ g.off * 32 + g.lo) ∧
        FEEDD_W00_EN.off * 32 + FEEDD_W00_EN.lo ≠ g.off * 32 + g.lo := by
      revert g
      decide
    rw [State.rd_wr_same hne.1.symm, State.rd_wr_same hne.2.symm]
    exact State.rd_foldl_wr_rst (by decide) hg
  · rw [State.on_eq, State.rd_wr_same (by decide), State.rd_resetFields_notMem _ (by decide), ← State.on_eq]

/-- What follows an enable, RUN_SEQ, the tracks, the count and the group's memberships, leaves the descriptor. -/
theorem State.feedEnable_spec (h : s.feedOn f = false) (hr : s.feedRefusal f = none) :
    keepsFeed (fun _ => True) f (s.feedStarted f) (s.feedEnable w f) := by
  have henable : s.feedEnable w f = ((((s.feedStarted f).ctxPut f 0x3CC (((s.feedStarted f).ctx f 0x3CC 4 + 1) % 2 ^ 32) 4).ctxPut
      f 0x3C8 0 4).trackRestart f).feedCount.feedJoin f := by
    unfold State.feedEnable
    rw [hr]
    exact if_neg (by simp [h])
  rw [henable]
  exact ((((keepsFeed_ctxPut _ _ _ _).trans (keepsFeed_ctxPut _ _ _ _)).trans (keepsFeed_trackRestart _)).trans
    keepsFeed_feedCount).trans (keepsFeed_feedJoin _)

/-- The status fields that a disable returns to 0. -/
def feedStatus : List Fld := [FEEDD_W00_EN, FEEDD_W44_HEALTH, FEEDD_W44_MEASURED, FEEDD_W44_JOINED, FEEDD_W44_SSRC_LOCKED]

/-- The feed as a disable leaves it, before memberships are left and the pipelines rest. -/
def State.feedStopped (s : State) (f : Nat) : State :=
  let s := if s.rd (feedE f) FEEDD_W44_HEALTH = 4 then s.feedResumed f else s
  { s.resetFields (feedE f) feedStatus with feeds := Store.del f (s.resetFields (feedE f) feedStatus).feeds }

theorem State.feedStopped_spec (s : State) (f : Nat) : (∀ g ∈ feedStatus, (s.feedStopped f).rd (feedE f) g = g.rst) ∧
    Store.find f (s.feedStopped f).feeds = none ∧ (s.feedStopped f).pkts = s.pkts := by
  refine ⟨fun g hg => State.rd_foldl_wr_rst (by decide) hg, Store.find_del_self _ _, ?_⟩
  obtain ⟨-, hpkts, -⟩ : keepsFeed (fun _ => True) f s (if s.rd (feedE f) FEEDD_W44_HEALTH = 4 then s.feedResumed f else s) :=
    keepsFeed_ite _ (keepsFeed_feedResumed f) keepsFeed_refl
  rw [← hpkts]
  rfl

theorem State.feedDisable_spec (h : s.feedOn f = true) : keepsFeed clearOfTx f (s.feedStopped f) (s.feedDisable f) := by
  have hdisable : s.feedDisable f = (s.feedStopped f).feedCount.feedLeave.decRestAll := if_neg (by simp [h])
  rw [hdisable]
  exact (keepsFeed_feedCount.trans keepsFeed_feedLeave).trans keepsFeed_decRestAll

end

/-! ### The commands -/

section
variable {w : Writer} {f : Fin 512} {s : State}

theorem exec_feedDescWrite (word : Fin 32) (v : Word) :
    exec (.feedDescWrite w f word v) s = .next (s.feedDescWrite w f.val (4 * word.val) v.toNat) := rfl

theorem exec_feedEnable (v : Word) :
    exec (.feedEnable w f v) s = .next ((s.feedDescWrite w f.val 0 v.toNat).feedEnable w f.val) := rfl

/-- A feed that is enabled is disabled as its descriptor stands. -/
theorem exec_feedDisable (v : Word) (h : s.feedOn f.val = true) : exec (.feedDisable w f v) s = .next (s.feedDisable f.val) := by
  show done ((s.feedDescWrite w f.val 0 v.toNat).feedDisable f.val) = _
  rw [State.feedDescWrite_on h]

end

/-- Settles O33: beside the descriptor an enable and a disable write the loft, the tracks, the pipelines' pages and counters of what is
sent, which are none of the words read here. -/
theorem feedDescriptor : Obligations.FeedDescriptor := by
  unfold Obligations.FeedDescriptor
  intro w f v s
  have hoff : ∀ word : Fin 32, word.val ≠ 0 → 4 * word.val ≠ 0 := fun _ h => Nat.mul_ne_zero (by decide) h
  refine ⟨fun word hon => ?_, fun word hw hon hl hp => ⟨_, exec_feedDescWrite word v, ?_⟩, fun word hw hon hl => ?_,
    fun u hu hon hr => ?_, fun hon => ⟨_, exec_feedEnable v, ?_⟩, fun hon => ⟨_, exec_feedDisable v hon, ?_⟩⟩
  · rw [exec_feedDescWrite, State.feedDescWrite_on hon]
  · rw [State.feedDescWrite_open (hoff word hw) hon hl hp]
    exact ⟨onlyRegs_setFields, fun g hg => State.rd_setFields (feedWord_keys_nodup _ word) hg⟩
  · rw [exec_feedDescWrite, State.feedDescWrite_locked (hoff word hw) hon hl]
  · subst hu
    obtain ⟨hen, hhealth, hcounters, hfind⟩ := (s.feedDescWrite w f.val 0 v.toNat).feedStarted_spec f.val
    obtain ⟨hfeeds, -, hrd⟩ := State.feedEnable_spec (w := w) hon hr
    refine ⟨_, exec_feedEnable v, ?_, (hrd _ trivial).trans hhealth, (hrd _ trivial).trans (hcounters _ (by decide)),
      (hrd _ trivial).trans (hcounters _ (by decide)), ?_⟩
    · rw [State.feedOn, State.on_eq, hrd _ trivial, hen]
      rfl
    · rw [hfeeds, hfind]
  · rw [State.feedDescWrite_on hon, State.feedEnable_on hon]
  · obtain ⟨hstatus, hfind, hpkts⟩ := s.feedStopped_spec f.val
    obtain ⟨hfeeds, hpkts', hrd⟩ := State.feedDisable_spec hon
    refine ⟨?_, (hrd _ (by decide)).trans (hstatus _ (by decide)), ?_, hpkts'.trans hpkts⟩
    · rw [State.feedOn, State.on_eq, hrd _ (by decide), hstatus _ (by decide)]
      rfl
    · rw [hfeeds, hfind]

end Sys2Proof.Machine
end

section
/-! PROOFS. What bays, DRAM accesses, the fabric's ports, the yoke and composition leave alone: yard time, the active and the captured
values of the registers, and the canvases. -/

set_option autoImplicit false

namespace Sys2Proof.Machine

/-! ### The scene of an epoch -/

/-- Yard time, the active and the captured values, and the canvases: what an access, an event or a frame sent leaves as it is. -/
def State.scene (s : State) : Nat × Store Nat × Store Nat × Store CanvasSt := (s.time.yt, s.act, s.cap, s.cvs)

theorem onlyRegs.scene {l : List Nat} {s t : State} (h : onlyRegs l s t) : t.scene = s.scene := by
  rw [h.1]
  rfl

section
variable (s : State) (n p v : Nat) (f : Fld)

/-! #### Updates of other parts -/

@[simp] theorem State.scene_wr : (s.wr p f v).scene = s.scene := rfl
@[simp] theorem State.scene_wb (b : Bool) : (s.wb p f b).scene = s.scene := rfl
@[simp] theorem State.scene_cnt : (s.cnt p f v).scene = s.scene := rfl
@[simp] theorem State.scene_inc : (s.inc p f v).scene = s.scene := rfl
@[simp] theorem State.scene_wr64 (g : Fld) : (s.wr64 p f g v).scene = s.scene := rfl
@[simp] theorem State.scene_emitOut (o : Out) : (s.emitOut o).scene = s.scene := rfl
@[simp] theorem State.scene_draw : s.draw.2.scene = s.scene := rfl
@[simp] theorem State.scene_setDm (d : DmcSt) : (s.setDm n d).scene = s.scene := rfl
@[simp] theorem State.scene_setStallSt (x : StallSt) : (s.setStallSt n x).scene = s.scene := rfl
@[simp] theorem State.scene_setCrc (l : List CrcSt) : (s.setCrc n l).scene = s.scene := rfl
@[simp] theorem State.scene_yk (g : YokeSt → YokeSt) : (s.yk g).scene = s.scene := rfl
@[simp] theorem State.scene_setVc (x : YkVc) : (s.setVc n x).scene = s.scene := rfl
@[simp] theorem State.scene_dramFixWord : (s.dramFixWord n v).scene = s.scene := rfl
@[simp] theorem State.scene_setMeta : (s.setMeta n v).scene = s.scene := rfl
@[simp] theorem State.scene_answer (x : Part) (d : List Nat) : (s.answer x n v d).scene = s.scene := rfl
@[simp] theorem State.scene_noteDenial (x : Part) : (s.noteDenial x n p v).scene = s.scene := rfl
@[simp] theorem State.scene_decisionDone (c : List Part) (x : Part) : (s.decisionDone n c x).scene = s.scene := rfl
@[simp] theorem State.scene_holdsOver : (s.holdsOver n).scene = s.scene := rfl
@[simp] theorem State.scene_openRows (c : Nat) : (s.openRows n c v).scene = s.scene := rfl

@[simp] theorem State.scene_setDram (x : Mem) : State.scene { s with dram := x } = s.scene := rfl
@[simp] theorem State.scene_zeroLines (c d : Nat) : (s.zeroLines n c d).scene = s.scene := rfl
@[simp] theorem State.scene_setLoft (x : Mem) (y : Store Nat) : State.scene { s with loft := x, loftSyn := y } = s.scene := rfl
@[simp] theorem State.scene_setDirects (x : Store DirectSt) : State.scene { s with directs := x } = s.scene := rfl
@[simp] theorem State.scene_setFab (x : FabSt) : State.scene { s with fab := x } = s.scene := rfl

@[simp] theorem State.scene_ite (c : Prop) [Decidable c] (a b : State) :
    (if c then a else b).scene = if c then a.scene else b.scene := by
  split <;> rfl

/-- A fold over values that a state is part of. -/
theorem State.scene_foldl_of {α β : Type} (π : β → State) {step : β → α → β} (l : List α)
    (h : ∀ r x, (π (step r x)).scene = (π r).scene) (r : β) : (π (l.foldl step r)).scene = (π r).scene := by
  induction l generalizing r with
  | nil => rfl
  | cons x l ih => rw [List.foldl_cons, ih, h]

@[simp] theorem State.scene_foldl {α : Type} {step : State → α → State} (l : List α)
    (h : ∀ u x, (step u x).scene = u.scene) : (l.foldl step s).scene = s.scene := State.scene_foldl_of id l h s

/-- The state of a pair that keeps the scene. -/
theorem State.scene_of_snd {α : Type} {r : α × State} {a : α} {s t : State} (e : r = (a, t)) (h : r.2.scene = s.scene) :
    t.scene = s.scene := by
  rw [e] at h
  exact h

/-! #### Events and interrupts -/

@[simp] theorem State.scene_loftPut (l : List Nat) : (s.loftPut n l).scene = s.scene := by
  rw [(State.loftPut_spec s n l).1]
  rfl

@[simp] theorem State.scene_raisePage : (s.raisePage p).scene = s.scene := by
  simp [State.raisePage, State.raiseTarget, State.raiseMsix]

@[simp] theorem State.scene_ringAppend (r : Rec) : (s.ringAppend p r).scene = s.scene := by
  simp [State.ringAppend, State.ringPut, State.loftPutLE]

@[simp] theorem State.scene_setDbk (d : Store Rec) : State.scene { s with dbk := d } = s.scene := rfl

@[simp] theorem State.scene_dbkAppend (r : Rec) : (s.dbkAppend r).scene = s.scene := by
  simp [State.dbkAppend]

@[simp] theorem State.scene_setEvSeq (d : Store Nat) : State.scene { s with evSeq := d } = s.scene := rfl

@[simp] theorem State.scene_emit (code : Nat) (data : List Nat) : (s.emit p code data).scene = s.scene := by
  simp [State.emit, State.emitAt]

@[simp] theorem State.scene_setEvLast (d : Store Nat) : State.scene { s with evLast := d } = s.scene := rfl

@[simp] theorem State.scene_emitLimited (key ms code : Nat) (data : List Nat) :
    (s.emitLimited p key ms code data).scene = s.scene := by
  unfold State.emitLimited
  split <;> simp

@[simp] theorem State.scene_snd_ite {α : Type} (c : Prop) [Decidable c] (a b : α × State) :
    (if c then a else b).2.scene = if c then a.2.scene else b.2.scene := by
  split <;> rfl

@[simp] theorem State.scene_setLfsr (d : Store Nat) : State.scene { s with lfsr := d } = s.scene := rfl

@[simp] theorem State.scene_perturb (kind : Nat) (sel : Option Nat) : (s.perturb p kind sel).2.scene = s.scene := by
  simp [State.perturb]

/-! #### Bays -/

@[simp] theorem State.scene_setYardLedger (d : Store (Nat × Nat)) : State.scene { s with yardLedger := d } = s.scene := rfl

@[simp] theorem State.scene_bayToFree : (s.bayToFree n).scene = s.scene := rfl

@[simp] theorem State.scene_holdDrop (g : Nat) : (s.holdDrop n g).scene = s.scene := by
  simp [State.holdDrop]

@[simp] theorem State.scene_ledgerDrop : (s.ledgerDrop n).scene = s.scene := by
  unfold State.ledgerDrop
  split <;> simp

@[simp] theorem State.scene_bayReturn : (s.bayReturn n).scene = s.scene := by
  simp [State.bayReturn]

@[simp] theorem State.scene_holdTake (g : Nat) : (s.holdTake n g).2.scene = s.scene := by
  simp [State.holdTake]

@[simp] theorem State.scene_holdRelease (g : Nat) : (s.holdRelease n g).scene = s.scene := by
  simp [State.holdRelease]

@[simp] theorem State.scene_ownerRelease (g : Nat) : (s.ownerRelease n g).scene = s.scene := by
  simp [State.ownerRelease]

@[simp] theorem State.scene_bayHold (fid : Nat) : (s.bayHold n fid).scene = s.scene :=
  (onlyRegs_bayHold s n fid).scene

@[simp] theorem State.scene_alloc (cls fid : Nat) : (s.alloc cls fid).2.scene = s.scene := by
  unfold State.alloc
  dsimp only
  split <;> simp

/-! #### DRAM words and lines -/

@[simp] theorem State.scene_dmcCapture (kind a master syn : Nat) (scrub : Bool) :
    (s.dmcCapture n kind a master syn scrub).scene = s.scene := by
  simp [State.dmcCapture]

@[simp] theorem State.scene_dmcCe (a master syn isMeta word : Nat) (scrub : Bool) :
    (s.dmcCe n a master syn isMeta word scrub).scene = s.scene := by
  simp [State.dmcCe]

@[simp] theorem State.scene_dmcUe (kind a master syn word : Nat) (scrub : Bool) :
    (s.dmcUe n kind a master syn word scrub).scene = s.scene := by
  simp [State.dmcUe]

@[simp] theorem State.scene_dmcMetaUe (a master syn : Nat) (scrub : Bool) : (s.dmcMetaUe n a master syn scrub).scene = s.scene := by
  simp [State.dmcMetaUe]

@[simp] theorem State.scene_readWord (master : Nat) (newer : Nat → Bool) (wd : Nat) :
    (s.readWord n master newer wd).2.scene = s.scene := by
  unfold State.readWord
  dsimp only
  split
  · rfl
  · split <;> simp

@[simp] theorem State.scene_readWords (master : Nat) (newer : Nat → Bool) (l : List Nat) :
    (s.readWords n master newer l).2.scene = s.scene := by
  induction l generalizing s with
  | nil => rfl
  | cons wd l ih => simp [State.readWords, ih]

@[simp] theorem State.scene_readMeta (master : Nat) (tagged newer : Bool) (line : Nat) :
    (s.readMeta n master tagged newer line).scene = s.scene := by
  unfold State.readMeta
  dsimp only
  split
  · rfl
  · split
    · rename_i m _
      show (if newer then s.dmcCe _ _ _ _ _ _ _ else (s.dmcCe _ _ _ _ _ _ _).setMeta m line).scene = _
      simp
    · simp

@[simp] theorem State.scene_dramRead (master a len : Nat) (tag : Option Tag) (newer : Nat → Bool) :
    (s.dramRead master a len tag newer).2.2.scene = s.scene := by
  unfold State.dramRead
  dsimp only
  rw [State.scene_readWords, State.scene_foldl _ _ fun u x => State.scene_readMeta _ _ _ _ _ _]
  split <;> simp

@[simp] theorem State.scene_writeWord (master a : Nat) (data : List Nat) (atomic : Bool) (wd : Nat) :
    (s.writeWord n master a data atomic wd).2.scene = s.scene := by
  unfold State.writeWord
  dsimp only
  split
  · rfl
  · split
    · exact (State.scene_setDram _ _).trans (by simp)
    · simp

@[simp] theorem State.scene_writeWords (master a : Nat) (data : List Nat) (atomic : Bool) (l : List Nat) :
    (s.writeWords n master a data atomic l).2.scene = s.scene := by
  induction l generalizing s with
  | nil => rfl
  | cons wd l ih => simp [State.writeWords, ih]

@[simp] theorem State.scene_carryWord (master wd : Nat) : (s.carryWord n master wd).scene = s.scene := by
  unfold State.carryWord
  dsimp only
  split
  · rfl
  · split <;> simp

@[simp] theorem State.scene_dramWrite (master a : Nat) (data : List Nat) (tag : Option Tag) (atomic : Bool) :
    (s.dramWrite master a data tag atomic).2.scene = s.scene := by
  have hmeta : ∀ (u : State) (m : Nat) (l : List Nat), (l.foldl (fun u x => u.setMeta m x) u).scene = u.scene := fun u m l =>
    u.scene_foldl l fun _ _ => rfl
  cases tag <;> simp [State.dramWrite, hmeta]

/-! #### The DRAM controllers -/

@[simp] theorem State.scene_dramPerform (x : Part) : (s.dramPerform n x).2.2.2.scene = s.scene := by
  unfold State.dramPerform
  dsimp only
  split <;> simp

/-- The runs of a part, each done by what keeps the scene. -/
theorem State.scene_perRuns {f : State → Part → Nat × Nat × List Nat × State} (h : ∀ u y, (f u y).2.2.2.scene = u.scene)
    (x : Part) : (s.perRuns f x).2.2.2.scene = s.scene := by
  unfold State.perRuns
  split
  · exact h _ _
  · refine State.scene_foldl_of (fun r : Nat × Nat × List Nat × State => r.2.2.2) _ ?_ _
    exact fun r y => h r.2.2.2 y

@[simp] theorem State.scene_dmcServe (x : Part) : (s.dmcServe n x).scene = s.scene := by
  simp [State.dmcServe, State.scene_perRuns]

@[simp] theorem State.scene_tokenTake : (s.tokenTake n).scene = s.scene := by
  unfold State.tokenTake
  dsimp only
  split
  · rfl
  · split <;> simp

@[simp] theorem State.scene_initPass (c : Nat) : (s.initPass n c).scene = s.scene := by
  simp [State.initPass]

@[simp] theorem State.scene_initWait : (s.initWait n).scene = s.scene := by
  unfold State.initWait
  split <;> simp

@[simp] theorem State.scene_commandIssue : (s.commandIssue n).scene = s.scene := by
  unfold State.commandIssue
  split
  · rfl
  · split <;> simp

@[simp] theorem State.scene_initServing : (s.initServing n).scene = s.scene := by
  simp [State.initServing]

@[simp] theorem State.scene_servingRun (k : Nat) : (s.servingRun n k).scene = s.scene := by
  induction k generalizing s with
  | zero => rfl
  | succ k ih =>
    unfold State.servingRun
    split <;> simp [ih]

@[simp] theorem State.scene_dmcLock (on : Bool) : (s.dmcLock n on).scene = s.scene := rfl

@[simp] theorem State.scene_srEnter : (s.srEnter n).scene = s.scene := by
  simp [State.srEnter]

@[simp] theorem State.scene_dmcDeg : (s.dmcDeg n).2.scene = s.scene := by
  simp [State.dmcDeg]

@[simp] theorem State.scene_trainStep (ok : Bool) : (s.trainStep n ok).scene = s.scene := by
  simp [State.trainStep]

@[simp] theorem State.scene_srLeave : (s.srLeave n).scene = s.scene := by
  simp [State.srLeave]

@[simp] theorem State.scene_chanWake : (s.chanWake n).scene = s.scene := by
  unfold State.chanWake State.tokensDone
  split <;> simp

/-! #### The fabric's ports -/

@[simp] theorem State.scene_guardViolate (m fid : Nat) (k : AccKind) (addr region fault parts gen : Nat) :
    (s.guardViolate n m fid k addr region fault parts gen).scene = s.scene := by
  simp [State.guardViolate]

@[simp] theorem State.scene_closeDenial (x : Part) : (s.closeDenial x n).scene = s.scene := by
  unfold State.closeDenial
  split
  · rfl
  · split
    · rfl
    · split <;> simp

@[simp] theorem State.scene_grantPart (x : Part) : (s.grantPart x).scene = s.scene := by
  unfold State.grantPart
  dsimp only
  split
  · rfl
  · split <;> simp

@[simp] theorem State.scene_slotGrant (stall : Bool) : (s.slotGrant n stall).scene = s.scene := by
  unfold State.slotGrant
  split
  · simp
  · dsimp only
    split <;> simp

@[simp] theorem State.scene_loftCapture (kind wd master syn : Nat) : (s.loftCapture kind wd master syn).scene = s.scene := by
  simp [State.loftCapture]

@[simp] theorem State.scene_loftWord (master wd : Nat) : (s.loftWord master wd).2.scene = s.scene := by
  unfold State.loftWord
  dsimp only
  split
  · rfl
  · split <;> simp

@[simp] theorem State.scene_loftWords (master : Nat) (l : List Nat) : (s.loftWords master l).2.scene = s.scene := by
  induction l generalizing s with
  | nil => rfl
  | cons wd l ih => simp [State.loftWords, ih]

@[simp] theorem State.scene_loftPerform (x : Part) : (s.loftPerform x).2.2.scene = s.scene := by
  unfold State.loftPerform
  dsimp only
  split <;> split <;> simp

@[simp] theorem State.scene_loftServe (x : Part) : (s.loftServe x).scene = s.scene := by
  simp [State.loftServe, State.scene_perRuns]

@[simp] theorem State.scene_serveOther (x : Part) : (s.serveOther x).scene = s.scene := by
  have hrun : ∀ (u : State) (y : Part), (if x.target = 14 then
      let r := memPerform u.sram (y.addr - 0x4000000) y
      (0, 0, r.1, { u with sram := r.2 })
    else
      let r := memPerform u.host (u.busAddr y.addr) y
      ((0, 0, r.1, { u with host := r.2 }) : Nat × Nat × List Nat × State)).2.2.2.scene = u.scene := by
    intro u y
    split <;> rfl
  exact (State.scene_answer ..).trans ((State.scene_perRuns _ hrun x).trans rfl)

@[simp] theorem State.scene_fencedTry (w : Writer) (a : Nat) : (s.fencedTry w a v).scene = s.scene := by
  unfold State.fencedTry
  split <;> simp [State.enableFenced]

@[simp] theorem State.scene_serveDefault (x : Part) : (s.serveDefault x).scene = s.scene := by
  unfold State.serveDefault
  dsimp only
  split <;> simp

@[simp] theorem State.scene_serveOuter (x : Part) : (s.serveOuter x).scene = s.scene := by
  simp [State.serveOuter]

@[simp] theorem State.scene_portTurn : (s.portTurn n).scene = s.scene := by
  unfold State.portTurn
  dsimp only
  split
  · simp
  · split
    · simp
    · split <;> simp

@[simp] theorem State.scene_portTurns (k : Nat) : (s.portTurns n k).scene = s.scene := by
  induction k generalizing s with
  | zero => rfl
  | succ k ih => simp [State.portTurns, ih]

@[simp] theorem State.scene_portRun : (s.portRun n).scene = s.scene := by
  simp [State.portRun]

@[simp] theorem State.scene_accessFailed (k : AccKind) (code : Nat) : (s.accessFailed n k code).scene = s.scene := by
  simp [State.accessFailed]

@[simp] theorem State.scene_respond : (s.respond n).scene = s.scene := by
  unfold State.respond
  split <;> simp

/-! #### DRAM accesses of the hardware masters -/

@[simp] theorem State.scene_tagReady : (s.tagReady n).scene = s.scene := by
  simp [State.tagReady, State.respondAll]

@[simp] theorem State.scene_hwEnter (a len : Nat) : (s.hwEnter n a len).scene = s.scene := by
  unfold State.hwEnter
  split <;> simp

@[simp] theorem State.scene_hwPiece (m fid : Nat) (k : AccKind) (tag : Option Tag) (a len : Nat) (data : List Nat) :
    (s.hwPiece m fid k tag a len data).2.2.2.scene = s.scene := by
  unfold State.hwPiece
  dsimp only
  split
  · simp [State.hwMiss]
  · split
    · rfl
    · split <;> simp

@[simp] theorem State.scene_hwPieces (m fid : Nat) (k : AccKind) (tag : Option Tag) (base : Nat) (data : List Nat)
    (l : List (Nat × Nat)) : (s.hwPieces m fid k tag base data l).2.scene = s.scene := by
  induction l generalizing s with
  | nil => rfl
  | cons x l ih => simp [State.hwPieces, ih]

@[simp] theorem State.scene_guardPieces (m fid : Nat) (k : AccKind) (l : List (Nat × Nat)) :
    (s.guardPieces m fid k l).scene = s.scene := by
  refine State.scene_foldl _ _ fun u g => ?_
  dsimp only
  split <;> simp

@[simp] theorem State.scene_cvuSnoop (m a : Nat) (data : List Nat) : (s.cvuSnoop m a data).scene = s.scene := by
  exact State.scene_foldl _ _ fun _ _ => rfl

@[simp] theorem State.scene_hwRequests (m fid : Nat) (k : AccKind) (tag : Option Tag) (base : Nat) (data : List Nat)
    (l : List (Nat × Nat)) : (s.hwRequests m fid k tag base data l).2.scene = s.scene := by
  induction l generalizing s with
  | nil => rfl
  | cons x l ih => simp [State.hwRequests, ih]

@[simp] theorem State.scene_bayRead (m fid n g fseq off len : Nat) (chk : Bool) :
    (s.bayRead m fid n g fseq off len chk).2.scene = s.scene :=
  State.scene_hwRequests ..

@[simp] theorem State.scene_bayWrite (m fid n g fseq off : Nat) (data : List Nat) :
    (s.bayWrite m fid n g fseq off data).2.scene = s.scene :=
  State.scene_hwRequests ..

/-! #### The yoke and the team -/

@[simp] theorem State.scene_setTime_holdFrom : State.scene { s with time := { s.time with holdFrom := n } } = s.scene := rfl

@[simp] theorem State.scene_setTbState : (s.setTbState n).scene = s.scene := by
  simp [State.setTbState]

@[simp] theorem State.scene_wheelSplit : s.wheelSplit.scene = s.scene := by
  simp [State.wheelSplit]

@[simp] theorem State.scene_ykState : (s.ykState n).scene = s.scene := by
  simp [State.ykState]

@[simp] theorem State.scene_ykClear : s.ykClear.scene = s.scene := by
  unfold State.ykClear
  refine (State.scene_foldl _ _ fun u v => ?_).trans rfl
  simp

@[simp] theorem State.scene_toIngress (x : PktSlot) : (s.toIngress n x).scene = s.scene := by
  unfold State.toIngress
  split <;> rfl

@[simp] theorem State.scene_laterGo : s.laterGo.scene = s.scene := by
  simp [State.laterGo]

@[simp] theorem State.scene_mergeSplit (wasSeq : Bool) : (s.mergeSplit wasSeq).scene = s.scene := rfl

@[simp] theorem State.scene_netDrop : (s.netDrop n).scene = s.scene := by
  simp [State.netDrop]

@[simp] theorem State.scene_netDatagram (dest : Dest) (bytes : List Nat) : (s.netDatagram n dest bytes).scene = s.scene := by
  simp [State.netDatagram]

@[simp] theorem State.scene_report (kind obj id frame own partner withheld : Nat) :
    (s.report kind obj id frame own partner withheld).scene = s.scene := by
  simp [State.report, State.ymSend]

@[simp] theorem State.scene_ykDown (cause : Nat) : (s.ykDown cause).scene = s.scene := by
  simp [State.ykDown]

@[simp] theorem State.scene_ykEmit (x : YkFrame) (replay : Bool) : (s.ykEmit x replay).scene = s.scene := by
  unfold State.ykEmit State.ykEmitFor
  split <;> simp

@[simp] theorem State.scene_ykPush (typ : Nat) (data : List Nat) : (s.ykPush v typ data).scene = s.scene := by
  simp [State.ykPush]

@[simp] theorem State.scene_ykSend (typ : Nat) (data : List Nat) : (s.ykSend v typ data).scene = s.scene := by
  simp [State.ykSend]

@[simp] theorem State.scene_diverge (kind obj id n own partner : Nat) : (s.diverge kind obj id n own partner).scene = s.scene := by
  unfold State.diverge State.divergeOn State.reportDiv
  dsimp only
  split <;> simp

@[simp] theorem State.scene_chkCompare (a b : ChkVal) : (s.chkCompare a b).scene = s.scene := by
  have hd : ∀ (u : State) (c : Prop) [Decidable c] (kind x y : Nat),
      (if c then u.diverge kind a.obj 0xFFFF a.n x y else u).scene = u.scene := fun u c _ kind x y => by simp
  unfold State.chkCompare
  dsimp only
  split
  · simp
  · rw [hd, hd, hd]
  · split
    · rw [hd, hd]
    · rw [State.scene_yk, hd, hd]

@[simp] theorem State.scene_fNote (own partner : ChkVal) : (s.fNote own partner).scene = s.scene := by
  simp [State.fNote]

@[simp] theorem State.scene_inStepCheck : s.inStepCheck.scene = s.scene := by
  unfold State.inStepCheck
  split
  · rfl
  · split <;> simp

@[simp] theorem State.scene_chkOwn (x : ChkVal) : (s.chkOwn x).scene = s.scene := by
  unfold State.chkOwn
  dsimp only
  split <;> split <;> simp

@[simp] theorem State.scene_epochSum (c flags entries n ldig wcrc : Nat) :
    (s.epochSum c flags entries n ldig wcrc).scene = s.scene := by
  simp [State.epochSum]

@[simp] theorem State.scene_epochsMissedSum (c n held k : Nat) : (s.epochsMissedSum c n held k).scene = s.scene := by
  simp [State.epochsMissedSum]

@[simp] theorem State.scene_snapSend (e c : Nat) : (s.snapSend e c).scene = s.scene := by
  unfold State.snapSend
  dsimp only
  split <;> simp [State.snapSection]

@[simp] theorem State.scene_snapCut (c : Nat) : (s.snapCut c).scene = s.scene := by
  unfold State.snapCut
  split
  · rfl
  · exact State.scene_foldl _ _ fun _ _ => rfl

/-! #### Admission and composition -/

@[simp] theorem State.scene_cmpRead (e b g off len : Nat) : (s.cmpRead e b g off len).2.scene = s.scene := by
  simp [State.cmpRead]

@[simp] theorem State.scene_readStatHdr (e b g : Nat) : (s.readStatHdr e b g).2.scene = s.scene := by
  unfold State.readStatHdr
  split
  next h => exact State.scene_of_snd h (s.scene_cmpRead ..)
  next h => exact State.scene_of_snd h (s.scene_cmpRead ..)

@[simp] theorem State.scene_measure (e b g : Nat) (t : StallCfg) : (s.measure e b g t).2.scene = s.scene := by
  unfold State.measure
  split
  next h => exact State.scene_of_snd h (s.scene_readStatHdr ..)
  next hdr u h =>
    have hu := State.scene_of_snd h (s.scene_readStatHdr ..)
    split
    next h' => exact (State.scene_of_snd h' (u.scene_cmpRead ..)).trans hu
    next h' => exact (State.scene_of_snd h' (u.scene_cmpRead ..)).trans hu

@[simp] theorem State.scene_judgePic (e : Nat) (t : StallCfg) (q : TrackPic) : (s.judgePic e n t q).2.scene = s.scene := by
  unfold State.judgePic
  dsimp only
  split
  · rfl
  · split
    next h => exact State.scene_of_snd h (s.scene_measure ..)
    next h => simp [State.scene_of_snd h (s.scene_measure ..)]

@[simp] theorem State.scene_freezeJudge (e : Nat) (t : StallCfg) (k : Track) (c : Option Nat) (x : Nat × Nat) (tc : Nat) :
    (s.freezeJudge e n t k c x tc).2.2.scene = s.scene := by
  unfold State.freezeJudge
  dsimp only
  split
  · refine (State.scene_setStallSt ..).trans ?_
    refine (State.scene_foldl_of Prod.snd _ ?_ _).trans rfl
    exact fun r q => r.2.scene_judgePic n e t q
  · rfl

@[simp] theorem State.scene_readAll (e b g : Nat) (l : List (Nat × Nat)) : (s.readAll e b g l).2.scene = s.scene := by
  induction l generalizing s with
  | nil => rfl
  | cons x l ih => simp [State.readAll, ih]

@[simp] theorem State.scene_admitPick (e : Nat) (t : StallCfg) (w : CanvasCfg) (cut : Nat) :
    (s.admitPick e n t w cut).2.2.2.scene = s.scene := by
  unfold State.admitPick
  dsimp only
  split
  · split <;> rfl
  · split
    · rfl
    · split <;> simp

@[simp] theorem State.scene_admitRead (e : Nat) (t : StallCfg) (x : Nat × Nat) : (s.admitRead e t x).2.2.2.scene = s.scene := by
  unfold State.admitRead
  split
  next h => exact State.scene_of_snd h (s.scene_holdTake ..)
  next u h =>
    have hu := State.scene_of_snd h (s.scene_holdTake ..)
    have hhdr := u.scene_readStatHdr e x.1 x.2
    generalize u.readStatHdr e x.1 x.2 = r at hhdr ⊢
    obtain ⟨hdr, v⟩ := r
    by_cases hbay : t.isBay = true
    · simp [hbay, hu, apply_ite Prod.snd]
    · cases hdr <;> simp [hbay, hhdr, hu, apply_ite Prod.snd]

@[simp] theorem State.scene_sourceFail (e : Nat) (x : Nat × Nat) (fail : Option Nat) :
    (s.sourceFail e n x fail).scene = s.scene := by
  unfold State.sourceFail
  split <;> simp

@[simp] theorem State.scene_stallStatus (a : Admit) : (s.stallStatus n a).scene = s.scene := rfl

@[simp] theorem State.scene_admitStall (e : Nat) (w : CanvasCfg) (cut : Nat) : (s.admitStall e n w cut).2.scene = s.scene := by
  have hpick := s.scene_admitPick n e (s.stallAct n) w cut
  unfold State.admitStall
  dsimp only
  split
  next h =>
    rw [h] at hpick
    exact hpick
  next x late c u h =>
    rw [h] at hpick
    have hread := u.scene_admitRead e (s.stallAct n) x.bg
    generalize u.admitRead e (s.stallAct n) x.bg = r at hread ⊢
    obtain ⟨fail, img, held, v⟩ := r
    simp only [State.scene_stallStatus, State.scene_sourceFail]
    split
    · split <;> simp [hread, hpick]
    · simp [hread, hpick]

@[simp] theorem State.scene_admitAll (e : Nat) (w : CanvasCfg) (cut : Nat) (l : List Nat) :
    (s.admitAll e w cut l).2.scene = s.scene := by
  induction l generalizing s with
  | nil => rfl
  | cons n l ih => simp [State.admitAll, ih]

@[simp] theorem State.scene_composeWrite (e : Nat) (out : Nat × Nat) (frame w h : Nat) (rows : List (List Nat)) :
    (s.composeWrite e out frame w h rows).scene = s.scene := by
  simp [State.composeWrite]

/-! #### Commit and miss -/

@[simp] theorem State.scene_admitRelease (x : EpochSt) : (s.admitRelease x).scene = s.scene := by
  simp [State.admitRelease]

@[simp] theorem State.scene_epochOwners (x : EpochSt) : (s.epochOwners x).scene = s.scene := by
  unfold State.epochOwners
  dsimp only
  split <;> split <;> simp

@[simp] theorem State.scene_epochRelease (x : EpochSt) : (s.epochRelease x).scene = s.scene := by
  simp [State.epochRelease]

@[simp] theorem State.scene_epochMissed (e c n reason k : Nat) : (s.epochMissed e c n reason k).scene = s.scene := by
  simp [State.epochMissed]

@[simp] theorem State.scene_epochHold (e c : Nat) : (s.epochHold e c).2.scene = s.scene := by
  simp [State.epochHold]

@[simp] theorem State.scene_crcNotRun (c : Nat) : (s.crcNotRun c).scene = s.scene := by
  unfold State.crcNotRun
  split <;> simp

@[simp] theorem State.scene_crcReady (c n wcrc : Nat) (size : Nat × Nat) : (s.crcReady c n wcrc size).scene = s.scene := by
  simp [State.crcReady]

@[simp] theorem State.scene_epochToHeads (c n : Nat) (ok fixed : Bool) : (s.epochToHeads c n ok fixed).scene = s.scene :=
  State.scene_foldl _ _ fun _ _ => rfl

@[simp] theorem State.scene_outsideCheck (h : Nat) : (s.outsideCheck h).scene = s.scene := by
  simp [State.outsideCheck]

end

end Sys2Proof.Machine
end

section
/-! PROOFS. Epochs of a canvas: the cut, r_n and the writes that drain (R234, R252, R253). -/

set_option autoImplicit false

namespace Sys2Proof.Machine

/-! ### What the scene shows -/

section
variable {s t : State}

theorem State.now_of_scene (h : t.scene = s.scene) : t.now = s.now := congrArg (fun x => x.1 / subNs) h

theorem State.now_of_tbStep (h : t.tbStep = s.tbStep) : t.now = s.now := congrArg (fun x => x.1 / subNs) h

theorem State.cv_of_scene (h : t.scene = s.scene) (e c : Nat) : t.cv e c = s.cv e c :=
  congrArg (fun x : Nat × Store Nat × Store Nat × Store CanvasSt => Store.getD cv0 (e * 64 + c) x.2.2.2) h

theorem State.cvAct_of_scene (h : t.scene = s.scene) (e c : Nat) : t.cvAct e c = s.cvAct e c :=
  congrArg (fun x : Nat × Store Nat × Store Nat × Store CanvasSt =>
    canvasOf c fun f => Store.getD f.rst (fkey (cmpP e) f) x.2.1) h

end

section
variable (s : State) (e c : Nat)

/-! ### The canvases' queues -/

/-- Yard time, and the epochs begun and those whose writes drain of canvas `c` of engine `e`. -/
def State.epochView (s : State) (e c : Nat) : Nat × List EpochSt × List EpochSt := (s.now, (s.cv e c).begun, (s.cv e c).drains)

theorem State.epochView_of_scene {t : State} (h : t.scene = s.scene) : t.epochView e c = s.epochView e c := by
  rw [State.epochView, State.epochView, State.now_of_scene h, State.cv_of_scene h]

theorem State.epochView_setCv_self (x : CanvasSt) : (s.setCv e c x).epochView e c = (s.now, x.begun, x.drains) := by
  simp only [State.epochView, State.cv, State.setCv, Store.getD_setD_self]
  rfl

/-- An update of a canvas's other parts. -/
theorem State.epochView_setCv {a b : Nat} {x : CanvasSt} (hb : x.begun = (s.cv a b).begun) (hd : x.drains = (s.cv a b).drains) :
    (s.setCv a b x).epochView e c = s.epochView e c := by
  by_cases hk : e * 64 + c = a * 64 + b
  · have hcv : ∀ u : State, u.epochView e c = u.epochView a b := fun u => by simp only [State.epochView, State.cv, hk]
    rw [hcv, hcv, State.epochView_setCv_self, hb, hd]
    rfl
  · have hcv : (s.setCv a b x).cv e c = s.cv e c := Store.getD_setD_ne hk ..
    rw [State.epochView, hcv]
    rfl

theorem State.epochView_epochDo (a b : Nat) (x : EpochSt) (o d : Nat × Nat) (slack : Nat) :
    (s.epochDo a b x o d slack).epochView e c = s.epochView e c := by
  unfold State.epochDo
  dsimp only
  refine (State.epochView_setCv _ e c ?_ ?_).trans (State.epochView_of_scene _ e c ?_)
  · rfl
  · rfl
  · simp only [State.scene_wr, State.scene_wb, State.scene_cnt, State.scene_epochOwners]
    split <;> simp

/-- Closing a canvas that has ended its frames takes its latest epoch from it, and releases that epoch's bay. -/
theorem State.closeCheck_leaves {α : Type} (f : State → α)
    (hclose : ∀ u a, f (u.setCv a c { u.cv a c with closing := false, last := none }) = f u)
    (hrelease : ∀ u n g, f (u.holdRelease n g) = f u) : f (s.closeCheck c) = f s := by
  unfold State.closeCheck
  generalize upTo 2 = l
  induction l generalizing s with
  | nil => rfl
  | cons a l ih =>
    rw [List.foldl_cons, ih]
    dsimp only
    split
    · split
      · rw [hrelease, hclose]
      · exact hclose s a
    · rfl

theorem State.epochView_closeCheck (b : Nat) : (s.closeCheck b).epochView e c = s.epochView e c :=
  s.closeCheck_leaves b (fun u => u.epochView e c) (fun u _ => u.epochView_setCv e c rfl rfl)
    fun u n g => State.epochView_of_scene u e c (u.scene_holdRelease n g)

theorem State.epochView_reachHeads (a b : Nat) (size : Nat × Nat) : (s.reachHeads a b size).epochView e c = s.epochView e c := by
  unfold State.reachHeads
  split
  · refine (State.epochView_of_scene _ e c (State.scene_foldl _ _ fun u h => u.scene_outsideCheck h)).trans ?_
    exact s.epochView_setCv e c rfl rfl
  · rfl

theorem State.cv_advanceTo (x : Nat) : (s.advanceTo x).cv e c = s.cv e c := by
  obtain ⟨t, h, -⟩ := s.advanceTo_spec x
  rw [State.cv, h.1]
  rfl

end

/-! ### The cut (R234) -/

section
variable (s : State) (e c : Nat)

theorem State.now_epochBegin (n : Nat) : (s.epochBegin e c n).now = s.now := by
  have hadmit := s.scene_admitAll e (s.cvAct e c) ((s.cvAct e c).cut n) ((s.stallsOn c).map (·.1))
  unfold State.epochBegin
  dsimp only
  generalize s.admitAll e (s.cvAct e c) ((s.cvAct e c).cut n) ((s.stallsOn c).map (·.1)) = r at hadmit ⊢
  obtain ⟨l, u⟩ := r
  have ho := u.scene_alloc (s.cvAct e c).outC (fidOf .cmp e)
  generalize u.alloc (s.cvAct e c).outC (fidOf .cmp e) = r at ho ⊢
  obtain ⟨o, v⟩ := r
  have hd := v.scene_alloc (s.cvAct e c).ledC (fidOf .cmp e)
  generalize v.alloc (s.cvAct e c).ledC (fidOf .cmp e) = r at hd ⊢
  obtain ⟨d, w⟩ := r
  have hw : w.scene = s.scene := hd.trans (ho.trans hadmit)
  have hset : ∀ (y : State) (x : CanvasSt), y.scene = w.scene → (y.setCv e c x).now = s.now := fun y x hy =>
    (State.now_of_scene (hy.trans hw) : y.now = s.now)
  split
  · exact hset w _ rfl
  · exact hset w _ rfl
  · dsimp only
    split
    · exact hset w _ rfl
    · split
      · exact hset w _ rfl
      · exact hset _ _ (by simp)

theorem State.le_now_epochCut (h : s.cvOn e c = true) : (s.cvAct e c).cut (s.cv e c).next ≤ (s.epochCut e c).now := by
  unfold State.epochCut
  rw [if_neg (by simp [h])]
  extract_lets n u v
  have hcut : (s.cvAct e c).cut n ≤ v.now := (s.le_now_advanceTo _).trans_eq (State.now_of_tbStep (u.tbStep_canvasApply e c)).symm
  clear_value v
  split
  · exact hcut
  · split
    · exact hcut
    · exact hcut.trans_eq (v.now_epochBegin e c n).symm

end

/-! ### A canvas that is not active: its cut leaves time and the values alone -/

section
variable (s : State) (n g : Nat)

@[simp] theorem State.time_ite (c : Prop) [Decidable c] (a b : State) :
    (if c then a else b).time = if c then a.time else b.time := by
  split <;> rfl

@[simp] theorem State.time_wr (p v : Nat) (f : Fld) : (s.wr p f v).time = s.time := rfl

@[simp] theorem State.time_bayToFree : (s.bayToFree n).time = s.time := rfl

@[simp] theorem State.time_holdDrop : (s.holdDrop n g).time = s.time := by
  simp [State.holdDrop]

@[simp] theorem State.time_ledgerDrop : (s.ledgerDrop n).time = s.time := by
  unfold State.ledgerDrop
  split
  · rfl
  · simp

@[simp] theorem State.time_holdRelease : (s.holdRelease n g).time = s.time := by
  simp [State.holdRelease, State.bayReturn]

end

/-- Time, and the active and the captured values. -/
def State.values (s : State) : TimeSt × Store Nat × Store Nat := (s.time, s.act, s.cap)

section
variable (s : State) (e c : Nat)

theorem State.values_of_scene {t : State} (h : t.scene = s.scene) (ht : t.time = s.time) : t.values = s.values := by
  rw [State.values, ht]
  exact congrArg (fun x : Nat × Store Nat × Store Nat × Store CanvasSt => (s.time, x.2.1, x.2.2.1)) h

theorem State.time_outsideCheck (h : Nat) : (s.outsideCheck h).time = s.time := by
  have hemit : ∀ (u : State) (a code : Nat) (data : List Nat), (u.emit (gtP a) code data).time = u.time := fun _ a _ _ =>
    (State.emit_onlyRegsEv (pg_gate_above a)).time_eq
  simp [State.outsideCheck, hemit, State.wb]

theorem State.values_closeCheck : (s.closeCheck c).values = s.values :=
  s.closeCheck_leaves c State.values (fun _ _ => rfl) fun u n g =>
    State.values_of_scene u (u.scene_holdRelease n g) (u.time_holdRelease n g)

/-- Of a canvas that neither was nor is active only its heads and its hold are looked after. -/
theorem State.values_canvasChanged_off (h : s.cvOn e c = false) : (s.canvasChanged e c false).values = s.values := by
  have hheads : ∀ (l : List Nat) (u : State), (l.foldl State.outsideCheck u).values = u.values := by
    intro l
    induction l with
    | nil => exact fun _ => rfl
    | cons a l ih => exact fun u => (ih _).trans (State.values_of_scene u (u.scene_outsideCheck a) (u.time_outsideCheck a))
  unfold State.canvasChanged
  simp only [h, if_true, Bool.false_and, Bool.false_eq_true, if_false]
  rw [State.values_closeCheck, hheads]

theorem exec_epochCut_off {e : Fin 2} {c : Fin 64} (h : s.cvOn e.val c.val = false) :
    exec (.epochCut e c) s = .next (s.canvasChanged e.val c.val false) := by
  have hcut : s.epochCut e.val c.val = s := if_pos (by simp [h])
  show execEpochCut e c s = _
  simp [execEpochCut, h, hcut, done]

theorem epochCut_reaches_cut {e : Fin 2} {c : Fin 64} (h : s.cvOn e.val c.val = true) : completes (.epochCut e c) s fun t =>
    (s.cvAct e.val c.val).cut (s.cv e.val c.val).next ≤ t.now := by
  have hsnap := s.scene_snapCut c.val
  have hact := State.cvAct_of_scene hsnap e.val c.val
  have hcut := (s.snapCut c.val).le_now_epochCut e.val c.val ((congrArg CanvasCfg.en hact).trans h)
  rw [hact, State.cv_of_scene hsnap] at hcut
  refine ⟨_, rfl, hcut.trans_eq ?_⟩
  have hchanged := State.now_of_tbStep (((s.snapCut c.val).epochCut e.val c.val).tbStep_canvasChanged e.val c.val true)
  rw [h, if_pos rfl]
  generalize ((s.snapCut c.val).epochCut e.val c.val).canvasChanged e.val c.val true = u at hchanged ⊢
  rw [← hchanged]
  refine (State.now_of_scene (s := u) ?_).symm
  simp

end

/-! ### r_n (R252) -/

/-- Epoch `x` has come to its r_n, and `l` are the epochs of the canvas that are begun still. -/
def epochPast (e c : Nat) (x : EpochSt) (l : List EpochSt) (t : State) : Prop := (t.cv e c).begun = l ∧ x.ready ≤ t.now

section
variable {s t : State} {e c : Nat} {x : EpochSt} {l : List EpochSt}

theorem epochPast_congr (h : t.epochView e c = s.epochView e c) (hs : epochPast e c x l s) : epochPast e c x l t := by
  simp only [State.epochView, Prod.mk.injEq] at h
  obtain ⟨hnow, hbegun, -⟩ := h
  rw [epochPast, hbegun, hnow]
  exact hs

theorem epochPast_of_scene (h : t.scene = s.scene) (hs : epochPast e c x l s) : epochPast e c x l t :=
  epochPast_congr (State.epochView_of_scene s e c h) hs

theorem epochPast_setCv {k : CanvasSt} (hk : k.begun = l) (h : x.ready ≤ s.now) : epochPast e c x l (s.setCv e c k) := by
  refine ⟨?_, h⟩
  rw [State.cv, State.setCv, Store.getD_setD_self, hk]

theorem epochPast_setCv_begun {k : CanvasSt} (hs : epochPast e c x l s) (hk : k.begun = (s.cv e c).begun) :
    epochPast e c x l (s.setCv e c k) := by
  obtain ⟨hbegun, hnow⟩ := hs
  exact epochPast_setCv (hk.trans hbegun) hnow

/-- The tiles of a direct epoch, written as they were composed at its cut (R253). -/
def State.directTiles (s : State) (e c : Nat) (x : EpochSt) (o : Nat × Nat) : State :=
  let i := 2 * c + x.n % 2
  match Store.find i s.directs with
  | some y =>
    { s with directs := Store.put i { y with ready := true } s.directs }.composeWrite e o (x.n % 2 ^ 32) x.size.1 x.size.2 y.rows
  | none => s

theorem State.scene_directTiles (s : State) (e c : Nat) (x : EpochSt) (o : Nat × Nat) :
    (s.directTiles e c x o).scene = s.scene := by
  unfold State.directTiles
  dsimp only
  split <;> simp

/-- What follows the tiles of a direct epoch: its heads start, and its output bay commits or its writes drain (R253). -/
def State.directShown (s : State) (e c : Nat) (x : EpochSt) (o d : Nat × Nat) (ack : Option Nat) : State :=
  let s := (s.crcReady c x.n x.wcrc x.size).epochToHeads c x.n true true
  let (hold, s) := s.epochHold e c
  match ack with
  | some a =>
    if hold ≤ a then (s.admitRelease x).epochDo e c x o d (a - hold)
    else s.setCv e c { s.cv e c with drains := (s.cv e c).drains ++ [{ x with direct := true }] }
  | none => s.setCv e c { s.cv e c with drains := (s.cv e c).drains ++ [{ x with direct := true }] }

theorem epochPast_directShown (hs : epochPast e c x l s) (o d : Nat × Nat) (ack : Option Nat) :
    epochPast e c x l (s.directShown e c x o d ack) := by
  have hshown : epochPast e c x l (((s.crcReady c x.n x.wcrc x.size).epochToHeads c x.n true true).epochHold e c).2 :=
    epochPast_of_scene (s := s) (by simp) hs
  unfold State.directShown
  dsimp only
  split
  · split
    · refine epochPast_congr (State.epochView_epochDo ..) ?_
      exact epochPast_of_scene (State.scene_admitRelease ..) hshown
    · exact epochPast_setCv_begun hshown rfl
  · exact epochPast_setCv_begun hshown rfl

variable (h : (s.cv e c).begun = x :: l)
include h

theorem epochPast_epochReady (ack : Option Nat) : epochPast e c x l (s.epochReady e c ack).2 := by
  have hlate : ∀ u : State, epochPast e c x l (((u.advanceTo x.ready).epochMissed e c x.n 4 1).setCv e c
      { u.cv e c with begun := l, drains := (u.cv e c).drains ++ [x] }) := fun u =>
    epochPast_setCv rfl ((u.le_now_advanceTo x.ready).trans_eq (State.now_of_scene (State.scene_epochMissed ..)).symm)
  unfold State.epochReady
  simp only [h]
  split
  · refine epochPast_of_scene ((State.scene_epochRelease ..).trans (State.scene_epochMissed ..)) ?_
    exact epochPast_setCv rfl (s.le_now_advanceTo x.ready)
  · generalize s.epochHold e c = r
    obtain ⟨hold, u⟩ := r
    dsimp only
    split
    · split
      · refine epochPast_congr (State.epochView_epochDo ..) ?_
        exact epochPast_setCv rfl (State.le_now_advanceTo ..)
      · exact hlate u
    · exact hlate u

theorem epochPast_directReady (ack : Option Nat) (led : Bool) : epochPast e c x l (s.directReady e c x ack led) := by
  unfold State.directReady
  extract_lets v k u
  have hready : epochPast e c x l u := epochPast_setCv (by simp [v, State.cv_advanceTo, h]) (s.le_now_advanceTo x.ready)
  clear_value u
  split
  next o d _ _ _ =>
    split
    · obtain ⟨hbegun, hnow⟩ := hready
      refine epochPast_of_scene (State.scene_epochToHeads ..) (epochPast_setCv hbegun ?_)
      exact hnow.trans_eq (State.now_of_scene (State.scene_epochMissed ..)).symm
    · have htiles := epochPast_of_scene (u.scene_directTiles e c x o) hready
      have hshown := epochPast_directShown htiles o d ack
      exact hshown
  · refine epochPast_of_scene ?_ hready
    simp

end

/-! ### The commands -/

section
variable {s : State} {e : Fin 2} {c : Fin 64}

theorem exec_epochCommit_none (h : (s.cv e.val c.val).begun = []) (ack : Option Nat) (led : Bool) :
    exec (.epochCommit e c ack led) s = .next s := by
  show execEpochCommit e c ack led s = _
  simp [execEpochCommit, h, done]

theorem epochCommit_takes_oldest {x : EpochSt} {l : List EpochSt} (h : (s.cv e.val c.val).begun = x :: l) (ack : Option Nat)
    (led : Bool) :
    completes (.epochCommit e c ack led) s (epochPast e.val c.val x l) := by
  refine ⟨_, rfl, ?_⟩
  simp only [h]
  split
  · refine epochPast_congr ((State.epochView_closeCheck ..).trans (State.epochView_reachHeads ..)) ?_
    exact epochPast_setCv (by simp) (s.le_now_advanceTo x.ready)
  · split
    · refine epochPast_of_scene (State.scene_epochSum ..) (epochPast_congr (State.epochView_reachHeads ..) ?_)
      exact epochPast_directReady h ack led
    · have hready := epochPast_epochReady h ack
      refine epochPast_congr ((State.epochView_closeCheck ..).trans (State.epochView_reachHeads ..)) ?_
      refine epochPast_of_scene (State.scene_epochSum ..) (epochPast_of_scene ?_ hready)
      simp

theorem exec_epochWritesDrain_none (h : (s.cv e.val c.val).drains = []) : exec (.epochWritesDrain e c) s = .next s := by
  show execEpochWritesDrain e c s = _
  simp [execEpochWritesDrain, h, done]

theorem epochWritesDrain_takes_oldest {x : EpochSt} {l : List EpochSt} (h : (s.cv e.val c.val).drains = x :: l) :
    completes (.epochWritesDrain e c) s fun t => (t.cv e.val c.val).drains = l := by
  refine ⟨_, rfl, ?_⟩
  simp only [h]
  have hview := s.epochView_setCv_self e.val c.val { s.cv e.val c.val with drains := l }
  generalize s.setCv e.val c.val { s.cv e.val c.val with drains := l } = u at hview ⊢
  have hdrains : ∀ t : State, t.epochView e.val c.val = u.epochView e.val c.val → (t.cv e.val c.val).drains = l := fun t ht =>
    congrArg (fun y => y.2.2) (ht.trans hview)
  have hrelease := State.epochView_of_scene u e.val c.val (u.scene_epochRelease x)
  split
  · split
    · refine hdrains _ ((State.epochView_epochDo ..).trans ?_)
      exact State.epochView_of_scene u _ _ (u.scene_admitRelease x)
    · exact hdrains _ hrelease
  · exact hdrains _ hrelease

end

/-- Settles O39: waiting reaches the time named, and what follows leaves yard time and the scene alone, but for the canvas's own lists,
from which the command takes the oldest epoch. -/
theorem epochs : Obligations.Epochs := by
  unfold Obligations.Epochs
  intro e c s
  refine ⟨fun hon => epochCut_reaches_cut s hon, fun hoff => ⟨_, exec_epochCut_off s hoff, ?_⟩,
    fun ack led h => exec_epochCommit_none h ack led, fun ack led x l h => epochCommit_takes_oldest h ack led,
    exec_epochWritesDrain_none, fun x l h => epochWritesDrain_takes_oldest h⟩
  simpa only [State.values, Prod.mk.injEq] using s.values_canvasChanged_off e.val c.val hoff

end Sys2Proof.Machine
end

section
/-! PROOFS. What events, bays, DRAM accesses, the yoke, the output check and recording leave alone of the heads: their run-time state
(R256 to R275). -/

set_option autoImplicit false

namespace Sys2Proof.Machine

section
variable (s : State) (n p v : Nat) (f : Fld)

/-! ### Updates of other parts -/

@[simp] theorem State.heads_wr : (s.wr p f v).heads = s.heads := rfl
@[simp] theorem State.heads_wb (b : Bool) : (s.wb p f b).heads = s.heads := rfl
@[simp] theorem State.heads_cnt : (s.cnt p f v).heads = s.heads := rfl
@[simp] theorem State.heads_inc : (s.inc p f v).heads = s.heads := rfl
@[simp] theorem State.heads_wr64 (g : Fld) : (s.wr64 p f g v).heads = s.heads := rfl
@[simp] theorem State.heads_emitOut (o : Out) : (s.emitOut o).heads = s.heads := rfl
@[simp] theorem State.heads_setDm (d : DmcSt) : (s.setDm n d).heads = s.heads := rfl
@[simp] theorem State.heads_yk (g : YokeSt → YokeSt) : (s.yk g).heads = s.heads := rfl
@[simp] theorem State.heads_setVc (x : YkVc) : (s.setVc n x).heads = s.heads := rfl
@[simp] theorem State.heads_setCrc (l : List CrcSt) : (s.setCrc n l).heads = s.heads := rfl
@[simp] theorem State.heads_setMeta : (s.setMeta n v).heads = s.heads := rfl
@[simp] theorem State.heads_setBl (x : BlLane) : (s.setBl n v x).heads = s.heads := rfl
@[simp] theorem State.heads_bayToFree : (s.bayToFree n).heads = s.heads := rfl
@[simp] theorem State.heads_draw : s.draw.2.heads = s.heads := rfl
@[simp] theorem State.heads_zeroLines (c d : Nat) : (s.zeroLines n c d).heads = s.heads := rfl

@[simp] theorem State.heads_ite (c : Prop) [Decidable c] (a b : State) :
    (if c then a else b).heads = if c then a.heads else b.heads := apply_ite _ _ _ _

/-- A fold over values that a state is part of. -/
theorem State.heads_foldl_of {α β : Type} (π : β → State) {step : β → α → β} (l : List α)
    (h : ∀ r x, (π (step r x)).heads = (π r).heads) (r : β) : (π (l.foldl step r)).heads = (π r).heads := by
  induction l generalizing r with
  | nil => rfl
  | cons x l ih => rw [List.foldl_cons, ih, h]

@[simp] theorem State.heads_foldl {α : Type} {step : State → α → State} (l : List α)
    (h : ∀ u x, (step u x).heads = u.heads) : (l.foldl step s).heads = s.heads := State.heads_foldl_of id l h s

theorem onlyRegs.heads_eq {l : List Nat} {s t : State} (h : onlyRegs l s t) : t.heads = s.heads := by
  rw [h.1]

theorem State.heads_advanceRun (x : Nat) : (s.advanceRun x).heads = s.heads := by
  obtain ⟨t, h⟩ := s.advanceRun_spec x
  exact h.heads_eq

/-! ### Events and interrupts -/

@[simp] theorem State.heads_loftPut (l : List Nat) : (s.loftPut n l).heads = s.heads := by
  rw [(State.loftPut_spec s n l).1]

@[simp] theorem State.heads_raisePage : (s.raisePage p).heads = s.heads := by
  simp [State.raisePage, State.raiseTarget, State.raiseMsix]

@[simp] theorem State.heads_ringAppend (r : Rec) : (s.ringAppend p r).heads = s.heads := by
  simp [State.ringAppend, State.ringPut, State.loftPutLE]

@[simp] theorem State.heads_dbkAppend (r : Rec) : (s.dbkAppend r).heads = s.heads := by
  simp [State.dbkAppend]

@[simp] theorem State.heads_emitAt (t code : Nat) (data : List Nat) : (s.emitAt p t code data).heads = s.heads := by
  simp [State.emitAt]

@[simp] theorem State.heads_emit (code : Nat) (data : List Nat) : (s.emit p code data).heads = s.heads := s.heads_emitAt p ..

@[simp] theorem State.heads_emitLimited (key ms code : Nat) (data : List Nat) :
    (s.emitLimited p key ms code data).heads = s.heads := by
  unfold State.emitLimited
  split <;> simp

@[simp] theorem State.heads_perturb (kind : Nat) (sel : Option Nat) : (s.perturb p kind sel).2.heads = s.heads := by
  simp [State.perturb, apply_ite Prod.snd]

/-! ### Bays -/

@[simp] theorem State.heads_holdDrop (g : Nat) : (s.holdDrop n g).heads = s.heads := by
  simp [State.holdDrop]

@[simp] theorem State.heads_ledgerDrop : (s.ledgerDrop n).heads = s.heads := by
  unfold State.ledgerDrop
  split <;> simp

@[simp] theorem State.heads_bayReturn : (s.bayReturn n).heads = s.heads := by
  simp [State.bayReturn]

@[simp] theorem State.heads_holdRelease (g : Nat) : (s.holdRelease n g).heads = s.heads := by
  simp [State.holdRelease]

@[simp] theorem State.heads_ownerRelease (g : Nat) : (s.ownerRelease n g).heads = s.heads := by
  simp [State.ownerRelease]

@[simp] theorem State.heads_alloc (cls fid : Nat) : (s.alloc cls fid).2.heads = s.heads := by
  unfold State.alloc
  dsimp only
  split
  · exact (onlyRegs_bayHold s _ fid).heads_eq
  · simp

/-! ### DRAM words and lines -/

@[simp] theorem State.heads_dmcCapture (kind a master syn : Nat) (scrub : Bool) :
    (s.dmcCapture n kind a master syn scrub).heads = s.heads := by
  simp [State.dmcCapture]

@[simp] theorem State.heads_dmcCe (a master syn isMeta word : Nat) (scrub : Bool) :
    (s.dmcCe n a master syn isMeta word scrub).heads = s.heads := by
  simp [State.dmcCe]

@[simp] theorem State.heads_dmcUe (kind a master syn word : Nat) (scrub : Bool) :
    (s.dmcUe n kind a master syn word scrub).heads = s.heads := by
  simp [State.dmcUe]

@[simp] theorem State.heads_readWords (master : Nat) (newer : Nat → Bool) (l : List Nat) :
    (s.readWords n master newer l).2.heads = s.heads := by
  have hword : ∀ (u : State) (wd : Nat), (u.readWord n master newer wd).2.heads = u.heads := by
    intro u wd
    unfold State.readWord
    dsimp only
    split
    · rfl
    · split <;> simp [State.dramFixWord]
  induction l generalizing s with
  | nil => rfl
  | cons wd l ih => simp [State.readWords, ih, hword]

@[simp] theorem State.heads_readMeta (master : Nat) (tagged newer : Bool) (line : Nat) :
    (s.readMeta n master tagged newer line).heads = s.heads := by
  unfold State.readMeta
  dsimp only
  split
  · rfl
  · split <;> simp [State.dmcMetaUe]

@[simp] theorem State.heads_dramRead (master a len : Nat) (tag : Option Tag) (newer : Nat → Bool) :
    (s.dramRead master a len tag newer).2.2.heads = s.heads := by
  unfold State.dramRead
  dsimp only
  rw [State.heads_readWords, State.heads_foldl _ _ fun u x => State.heads_readMeta _ _ _ _ _ _]
  split <;> simp

@[simp] theorem State.heads_writeWords (master a : Nat) (data : List Nat) (atomic : Bool) (l : List Nat) :
    (s.writeWords n master a data atomic l).2.heads = s.heads := by
  have hword : ∀ (u : State) (wd : Nat), (u.writeWord n master a data atomic wd).2.heads = u.heads := by
    intro u wd
    unfold State.writeWord
    dsimp only
    split
    · rfl
    · split <;> simp [State.dramFixWord]
  induction l generalizing s with
  | nil => rfl
  | cons wd l ih => simp [State.writeWords, ih, hword]

@[simp] theorem State.heads_carryWord (master wd : Nat) : (s.carryWord n master wd).heads = s.heads := by
  unfold State.carryWord
  dsimp only
  split
  · rfl
  · split <;> simp [State.dramFixWord]

@[simp] theorem State.heads_dramWrite (master a : Nat) (data : List Nat) (tag : Option Tag) (atomic : Bool) :
    (s.dramWrite master a data tag atomic).2.heads = s.heads := by
  have hmeta : ∀ (u : State) (m : Nat) (l : List Nat), (l.foldl (fun u x => u.setMeta m x) u).heads = u.heads := fun u m l =>
    u.heads_foldl l fun _ _ => rfl
  cases tag <;> simp [State.dramWrite, hmeta]

/-! ### The DRAM controllers -/

@[simp] theorem State.heads_dramPerform (x : Part) : (s.dramPerform n x).2.2.2.heads = s.heads := by
  unfold State.dramPerform
  dsimp only
  split <;> simp

/-- The runs of a part, each done by what leaves the heads alone. -/
theorem State.heads_perRuns {f : State → Part → Nat × Nat × List Nat × State} (h : ∀ u y, (f u y).2.2.2.heads = u.heads)
    (x : Part) : (s.perRuns f x).2.2.2.heads = s.heads := by
  unfold State.perRuns
  split
  · exact h _ _
  · refine State.heads_foldl_of (fun r : Nat × Nat × List Nat × State => r.2.2.2) _ ?_ _
    exact fun r y => h r.2.2.2 y

@[simp] theorem State.heads_dmcServe (x : Part) : (s.dmcServe n x).heads = s.heads := by
  simp [State.dmcServe, State.heads_perRuns, State.answer, State.openRows]

@[simp] theorem State.heads_tokenTake : (s.tokenTake n).heads = s.heads := by
  unfold State.tokenTake
  dsimp only
  split
  · rfl
  · split <;> simp

@[simp] theorem State.heads_initPass (c : Nat) : (s.initPass n c).heads = s.heads := by
  simp [State.initPass]

@[simp] theorem State.heads_commandIssue : (s.commandIssue n).heads = s.heads := by
  unfold State.commandIssue State.initWait
  split
  · rfl
  · split
    · split <;> simp
    · simp

@[simp] theorem State.heads_servingRun (k : Nat) : (s.servingRun n k).heads = s.heads := by
  induction k generalizing s with
  | zero => rfl
  | succ k ih =>
    unfold State.servingRun
    split <;> simp [ih, State.initServing]

@[simp] theorem State.heads_trainStep (ok : Bool) : (s.trainStep n ok).heads = s.heads := by
  simp [State.trainStep, State.dmcDeg, apply_ite Prod.snd]

@[simp] theorem State.heads_chanWake : (s.chanWake n).heads = s.heads := by
  unfold State.chanWake State.tokensDone
  split <;> simp [State.srEnter, State.srLeave, State.dmcLock, State.pllAnew]

/-! ### The fabric's ports -/

@[simp] theorem State.heads_guardViolate (m fid : Nat) (k : AccKind) (addr region fault parts gen : Nat) :
    (s.guardViolate n m fid k addr region fault parts gen).heads = s.heads := by
  simp [State.guardViolate]

@[simp] theorem State.heads_closeDenial (x : Part) : (s.closeDenial x n).heads = s.heads := by
  unfold State.closeDenial
  split
  · rfl
  · split
    · rfl
    · split <;> simp

@[simp] theorem State.heads_grantPart (x : Part) : (s.grantPart x).heads = s.heads := by
  unfold State.grantPart
  dsimp only
  split
  · rfl
  · split <;> simp [State.noteDenial, State.answer]

@[simp] theorem State.heads_slotGrant (stall : Bool) : (s.slotGrant n stall).heads = s.heads := by
  unfold State.slotGrant
  split
  · simp
  · dsimp only
    split <;> simp [State.decisionDone]

@[simp] theorem State.heads_loftWords (master : Nat) (l : List Nat) : (s.loftWords master l).2.heads = s.heads := by
  have hword : ∀ (u : State) (wd : Nat), (u.loftWord master wd).2.heads = u.heads := by
    intro u wd
    unfold State.loftWord
    dsimp only
    split
    · rfl
    · split <;> simp [State.loftCapture]
  induction l generalizing s with
  | nil => rfl
  | cons wd l ih => simp [State.loftWords, ih, hword]

@[simp] theorem State.heads_loftPerform (x : Part) : (s.loftPerform x).2.2.heads = s.heads := by
  unfold State.loftPerform
  dsimp only
  split <;> split <;> simp

@[simp] theorem State.heads_loftServe (x : Part) : (s.loftServe x).heads = s.heads := by
  simp [State.loftServe, State.heads_perRuns, State.answer]

@[simp] theorem State.heads_serveOther (x : Part) : (s.serveOther x).heads = s.heads := by
  refine (State.heads_perRuns _ (fun u y => ?_) x).trans rfl
  split <;> rfl

@[simp] theorem State.heads_serveDefault (x : Part) : (s.serveDefault x).heads = s.heads := by
  unfold State.serveDefault State.fencedTry
  dsimp only
  split
  · split <;> simp [State.enableFenced, State.answer]
  · simp [State.answer]

@[simp] theorem State.heads_serveOuter (x : Part) : (s.serveOuter x).heads = s.heads := by
  simp [State.serveOuter, State.answer]

@[simp] theorem State.heads_portTurns (k : Nat) : (s.portTurns n k).heads = s.heads := by
  have hturn : ∀ u : State, (u.portTurn n).heads = u.heads := by
    intro u
    unfold State.portTurn
    dsimp only
    split
    · simp [State.initServing]
    · split
      · simp
      · split <;> simp
  induction k generalizing s with
  | zero => rfl
  | succ k ih => simp [State.portTurns, ih, hturn]

@[simp] theorem State.heads_portRun : (s.portRun n).heads = s.heads := by
  simp [State.portRun, State.holdsOver]

@[simp] theorem State.heads_respond : (s.respond n).heads = s.heads := by
  unfold State.respond
  split <;> simp [State.accessFailed]

/-! ### DRAM accesses of the hardware masters -/

@[simp] theorem State.heads_tagReady : (s.tagReady n).heads = s.heads := by
  simp [State.tagReady, State.respondAll]

@[simp] theorem State.heads_hwEnter (a len : Nat) : (s.hwEnter n a len).heads = s.heads := by
  unfold State.hwEnter
  split <;> simp [State.openRows]

@[simp] theorem State.heads_hwPieces (m fid : Nat) (k : AccKind) (tag : Option Tag) (base : Nat) (data : List Nat)
    (l : List (Nat × Nat)) : (s.hwPieces m fid k tag base data l).2.heads = s.heads := by
  have hpiece : ∀ (u : State) (a len : Nat) (d : List Nat), (u.hwPiece m fid k tag a len d).2.2.2.heads = u.heads := by
    intro u a len d
    unfold State.hwPiece
    dsimp only
    split
    · simp [State.hwMiss]
    · split
      · rfl
      · split <;> simp
  induction l generalizing s with
  | nil => rfl
  | cons x l ih => simp [State.hwPieces, ih, hpiece]

@[simp] theorem State.heads_guardPieces (m fid : Nat) (k : AccKind) (l : List (Nat × Nat)) :
    (s.guardPieces m fid k l).heads = s.heads := by
  refine State.heads_foldl _ _ fun u g => ?_
  dsimp only
  split <;> simp

@[simp] theorem State.heads_cvuSnoop (m a : Nat) (data : List Nat) : (s.cvuSnoop m a data).heads = s.heads :=
  State.heads_foldl _ _ fun _ _ => rfl

@[simp] theorem State.heads_hwRequests (m fid : Nat) (k : AccKind) (tag : Option Tag) (base : Nat) (data : List Nat)
    (l : List (Nat × Nat)) : (s.hwRequests m fid k tag base data l).2.heads = s.heads := by
  induction l generalizing s with
  | nil => rfl
  | cons x l ih => simp [State.hwRequests, ih]

@[simp] theorem State.heads_bayWrite (m fid g fseq off : Nat) (data : List Nat) :
    (s.bayWrite m fid n g fseq off data).2.heads = s.heads :=
  State.heads_hwRequests ..

/-! ### The yoke and the team -/

@[simp] theorem State.heads_setTbState : (s.setTbState n).heads = s.heads := by
  simp [State.setTbState]

@[simp] theorem State.heads_wheelSplit : s.wheelSplit.heads = s.heads := by
  simp [State.wheelSplit]

@[simp] theorem State.heads_ykState : (s.ykState n).heads = s.heads := by
  simp [State.ykState]

@[simp] theorem State.heads_ykClear : s.ykClear.heads = s.heads := by
  unfold State.ykClear
  refine (State.heads_foldl _ _ fun u v => ?_).trans rfl
  simp

@[simp] theorem State.heads_laterGo : s.laterGo.heads = s.heads := by
  have hgo : ∀ (u : State) (m : Nat) (x : PktSlot), (u.toIngress m x).heads = u.heads := by
    intro u m x
    unfold State.toIngress
    split <;> rfl
  simp [State.laterGo, hgo]

@[simp] theorem State.heads_report (kind obj id frame own partner withheld : Nat) :
    (s.report kind obj id frame own partner withheld).heads = s.heads := by
  simp [State.report, State.ymSend, State.netDatagram, State.netDrop]

@[simp] theorem State.heads_ykDown (cause : Nat) : (s.ykDown cause).heads = s.heads := by
  simp [State.ykDown, State.mergeSplit]

@[simp] theorem State.heads_ykEmit (x : YkFrame) (replay : Bool) : (s.ykEmit x replay).heads = s.heads := by
  unfold State.ykEmit State.ykEmitFor
  split <;> simp

@[simp] theorem State.heads_ykSend (typ : Nat) (data : List Nat) : (s.ykSend v typ data).heads = s.heads := by
  simp [State.ykSend, State.ykPush]

@[simp] theorem State.heads_diverge (kind obj id n own partner : Nat) : (s.diverge kind obj id n own partner).heads = s.heads := by
  unfold State.diverge State.divergeOn State.reportDiv
  dsimp only
  split <;> simp

@[simp] theorem State.heads_chkCompare (a b : ChkVal) : (s.chkCompare a b).heads = s.heads := by
  have hd : ∀ (u : State) (c : Prop) [Decidable c] (kind x y : Nat),
      (if c then u.diverge kind a.obj 0xFFFF a.n x y else u).heads = u.heads := fun u c _ kind x y => by simp
  unfold State.chkCompare
  dsimp only
  split
  · simp
  · rw [hd, hd, hd]
  · split
    · rw [hd, hd]
    · rw [State.heads_yk, hd, hd]

@[simp] theorem State.heads_fNote (own partner : ChkVal) : (s.fNote own partner).heads = s.heads := by
  simp [State.fNote]

@[simp] theorem State.heads_inStepCheck : s.inStepCheck.heads = s.heads := by
  unfold State.inStepCheck
  split
  · rfl
  · split <;> simp

@[simp] theorem State.heads_chkOwn (x : ChkVal) : (s.chkOwn x).heads = s.heads := by
  unfold State.chkOwn
  dsimp only
  split <;> split <;> simp

@[simp] theorem State.heads_lineFlush (h : Nat) : (s.lineFlush h).heads = s.heads := by
  unfold State.lineFlush
  split <;> simp

@[simp] theorem State.heads_lineValue (h g fr crc : Nat) : (s.lineValue h g fr crc).heads = s.heads := by
  unfold State.lineValue
  split
  · rfl
  · extract_lets u w
    have hw : w.heads = s.heads := by
      unfold w
      split
      · split <;> simp [u]
      · simp [u]
    clear_value w
    split
    · split <;> simp [hw]
    · exact hw

@[simp] theorem State.heads_frameSum (h flags lines fr ts vd td : Nat) : (s.frameSum h flags lines fr ts vd td).heads = s.heads := by
  simp [State.frameSum]

/-! ### The packetisers -/

@[simp] theorem State.heads_handOver (h : Nat) (g : Geo) (typ group frame : Nat) (rep : Bool) (payload : List Nat) (due : Nat) :
    (s.handOver h g typ group frame rep payload due).heads = s.heads := by
  simp [State.handOver, State.blQueue]

/-! ### The output check -/

@[simp] theorem State.heads_crcNotRun (c : Nat) : (s.crcNotRun c).heads = s.heads := by
  unfold State.crcNotRun
  split <;> simp

@[simp] theorem State.heads_crcBegin (c n h : Nat) (g : Geo) : (s.crcBegin c n h g).heads = s.heads := by
  have hneed : ∀ x, (s.crcNeed c x).2.heads = s.heads := by
    intro x
    unfold State.crcNeed
    split
    · rfl
    · split <;> simp
  unfold State.crcBegin
  split <;> simp [hneed]

@[simp] theorem State.heads_crcLine (c n h y x : Nat) (words : List Nat) : (s.crcLine c n h y x words).heads = s.heads := rfl

@[simp] theorem State.heads_crcResult (c : Nat) (x : CrcSt) : (s.crcResult c x).heads = s.heads := by
  unfold State.crcResult
  dsimp only
  split <;> simp [State.setCrcHold]

@[simp] theorem State.heads_crcEnd (c n h : Nat) (ok : Bool) : (s.crcEnd c n h ok).heads = s.heads := by
  unfold State.crcEnd
  split <;> simp

/-! ### Recording -/

@[simp] theorem State.heads_encUpd (p k : Nat) (g : EncCh → EncCh) : (s.encUpd p k g).heads = s.heads := by
  unfold State.encUpd
  split <;> rfl

@[simp] theorem State.heads_dropRecs (l : List TapRec) : (s.dropRecs l).heads = s.heads := by
  simp [State.dropRecs]

@[simp] theorem State.heads_chStop (p k cause : Nat) : (s.chStop p k cause).heads = s.heads := by
  unfold State.chStop State.chEnd
  rw [State.heads_emit]
  split
  · rfl
  · dsimp only
    split <;> simp

@[simp] theorem State.heads_notRec (p k f h cause : Nat) : (s.notRec p k f h cause).heads = s.heads := by
  simp [State.notRec]

@[simp] theorem State.heads_tapStart (h : Nat) (g : Geo) (fr : GateFrame) : (s.tapStart h g fr).heads = s.heads := by
  unfold State.tapStart
  dsimp only
  split
  · rfl
  · split
    · rfl
    · have halloc : ∀ (u : State) (a b : Nat) (o : Option (Nat × Nat)) (w : State), u.alloc a b = (o, w) → w.heads = u.heads :=
        fun u a b o w h => by rw [← u.heads_alloc a b, h]
      split
      · rfl
      · split
        · simp
        · split
          · simp
          · split
            next h => simp [halloc _ _ _ _ _ h]
            next h => split <;> simp [halloc _ _ _ _ _ h]

@[simp] theorem State.heads_tapLine (h y : Nat) (px : List Nat) : (s.tapLine h y px).heads = s.heads := by
  unfold State.tapLine
  split
  · rfl
  · split <;> simp

@[simp] theorem State.heads_tapDone (p k : Nat) : (s.tapDone p k).heads = s.heads := by
  unfold State.tapDone
  split
  · rfl
  · split <;> simp

@[simp] theorem State.heads_tapEnd (h : Nat) (g : Geo) (fr : GateFrame) : (s.tapEnd h g fr).heads = s.heads := by
  unfold State.tapEnd
  split
  · rfl
  · split
    · rfl
    · dsimp only
      split <;> simp

@[simp] theorem State.heads_tapAbort (h : Nat) : (s.tapAbort h).heads = s.heads := by
  unfold State.tapAbort
  split
  · rfl
  · split <;> simp

/-! ### Canvases -/

@[simp] theorem State.heads_outsideCheck (h : Nat) : (s.outsideCheck h).heads = s.heads := by
  simp [State.outsideCheck]

@[simp] theorem State.heads_closeCheck (c : Nat) : (s.closeCheck c).heads = s.heads :=
  s.closeCheck_leaves c State.heads (fun _ _ => rfl) fun u n g => u.heads_holdRelease n g

end
end Sys2Proof.Machine
end

section
/-! PROOFS. Heads: frame start, VMIN, commit and its window (R261 to R264). -/

set_option autoImplicit false

namespace Sys2Proof.Machine

/-! ### The run-time state of a head -/

section
variable (s : State) (i : Nat)

@[simp] theorem State.hd_setHd_self (x : HeadSt) : (s.setHd i x).hd i = x := Store.getD_put_self ..

@[simp] theorem State.rd_setHd (x : HeadSt) (p : Nat) (f : Fld) : (s.setHd i x).rd p f = s.rd p f := rfl

theorem State.hd_of_heads {s t : State} (h : t.heads = s.heads) (i : Nat) : t.hd i = s.hd i := by
  rw [State.hd, h, State.hd]

@[simp] theorem State.hd_advanceRun (x : Nat) : (s.advanceRun x).hd i = s.hd i := State.hd_of_heads (s.heads_advanceRun x) i

/-- Whether a frame is in progress, its lines handed over and fetched, and the repeats in its run. -/
def State.progress : Bool × Nat × Nat × Nat := ((s.hd i).inFrame, (s.hd i).sent, (s.hd i).fetched, (s.hd i).run)

theorem State.progress_of_heads {s t : State} (h : t.heads = s.heads) (i : Nat) : t.progress i = s.progress i := by
  rw [State.progress, State.hd_of_heads h, State.progress]

theorem State.progress_setHd (x : HeadSt) : (s.setHd i x).progress i = (x.inFrame, x.sent, x.fetched, x.run) := by
  rw [State.progress, State.hd_setHd_self]

/-- No register but those of the latency entries changes. -/
theorem State.rd_advanceRun_above (x : Nat) {p : Nat} (hp : 0xF000 ≤ p) (f : Fld) : (s.advanceRun x).rd p f = s.rd p f := by
  obtain ⟨t, h⟩ := s.advanceRun_spec x
  refine h.rd (notMem_rxlKeys (.inr ?_))
  simp only [fkey, tb]
  omega

end

/-! ### The start of a frame (R261 to R263) -/

section
variable (s : State) (i : Nat)

theorem State.progress_judged (e : Nat) (f : GateFrame) (g : Geo) : (s.judged e i f g).progress i = s.progress i := by
  unfold State.judged
  dsimp only
  rw [State.progress_setHd]
  refine State.progress_of_heads ?_ i
  rw [State.heads_cnt]
  refine State.heads_foldl _ _ fun u t => ?_
  split
  · rfl
  · exact u.heads_emitAt ..

/-- A corrected s leaves the run of repeats. -/
theorem State.run_takeS (n more : Nat) : ((s.takeS i n more).hd i).run = (s.hd i).run := by
  have hset : ∀ v, ((s.setHd i { s.hd i with s := v }).hd i).run = (s.hd i).run := fun v => by rw [State.hd_setHd_self]
  unfold State.takeS
  dsimp only
  split
  · rfl
  · split
    · exact hset _
    · split
      · rw [State.hd_of_heads (State.heads_emit ..)]
        exact hset _
      · rfl

/-- What follows a frame's entry in its head's own state: the verdicts, the check, FRAME_START and the tap. -/
def State.frameShown (h : Nat) (g : Geo) (n f : Nat) (fr : GateFrame) (rep : Bool) (pay : List Nat) : State :=
  let s := s.judged g.engine h fr g
  let s := if g.member then s.crcBegin g.canvas n h g else s
  let s := s.handOver h g 1 0xFFFF f rep pay 0
  s.tapStart h g fr

theorem State.progress_frameShown (g : Geo) (n f : Nat) (fr : GateFrame) (rep : Bool) (pay : List Nat) :
    (s.frameShown i g n f fr rep pay).progress i = s.progress i := by
  have hheads : (s.frameShown i g n f fr rep pay).heads = (s.judged g.engine i fr g).heads := by simp [State.frameShown]
  rw [State.progress_of_heads hheads, State.progress_judged]

/-- A frame is entered in its head's own state as one begun, with nothing sent; a repeat lengthens the run. -/
theorem State.frameGo_eq_frameShown (bay : Nat × Nat) (ep : Option (Nat × Nat)) (led : Nat × Nat) (rep direct : Bool) :
    ∃ u x g n f fr pay, s.frameGo i bay ep led rep direct = (State.setHd u i x).frameShown i g n f fr rep pay ∧
      x.inFrame = true ∧ x.sent = 0 ∧ x.run = if rep then (s.hd i).run + 1 else 0 :=
  ⟨_, _, _, _, _, _, _, rfl, rfl, rfl, congrArg (fun r => if rep then r + 1 else 0) (s.run_takeS i _ _)⟩

/-- Head `i` is in a frame of which no line has been sent, the `r`-th repeat of its run. -/
def frameBegun (i r : Nat) (t : State) : Prop := (t.hd i).inFrame = true ∧ (t.hd i).sent = 0 ∧ (t.hd i).run = r

theorem frameBegun_frameGo (bay : Nat × Nat) (ep : Option (Nat × Nat)) (led : Nat × Nat) (rep direct : Bool) :
    frameBegun i (if rep then (s.hd i).run + 1 else 0) (s.frameGo i bay ep led rep direct) := by
  obtain ⟨u, x, g, n, f, fr, pay, heq, hin, hsent, hrun⟩ := s.frameGo_eq_frameShown i bay ep led rep direct
  have hprogress := ((u.setHd i x).progress_frameShown i g n f fr rep pay).trans (u.progress_setHd i x)
  simp only [State.progress, ← heq, hin, hsent, hrun, Prod.mk.injEq] at hprogress
  exact ⟨hprogress.1, hprogress.2.1, hprogress.2.2.2⟩

theorem frameBegun_frameNew (h : s.bayReady i = true) : frameBegun i 0 (s.frameNew i) := by
  unfold State.bayReady at h
  unfold State.frameNew
  split
  next hm =>
    rw [if_pos hm] at h
    obtain ⟨y, hy⟩ := Option.isSome_iff_exists.1 h
    rw [hy]
    exact frameBegun_frameGo s i _ _ _ false false
  next => exact frameBegun_frameGo s i _ _ _ false false

theorem frameBegun_frameRepeat {y : Nat × Nat × Nat} (h : (s.hd i).shown = some y) :
    frameBegun i ((s.hd i).run + 1) (s.frameRepeat i) := by
  unfold State.frameRepeat
  rw [h]
  exact frameBegun_frameGo s i _ _ _ true false

/-- The running-rate clock has reached the end of the head's VMIN. -/
abbrev State.vminPast : State := s.advanceRun (s.blankAt (s.hd i) (s.geoAct i).vmin)

/-- A head that does not wait for r_n, from VMIN on: a ready bay starts a frame; at VMAX the last bay shown does again (R262, R263). -/
def State.freeStart : State :=
  let x := s.hd i
  let g := s.geoAct i
  let s := s.vminPast i
  if s.bayReady i then s.frameNew i
  else if x.shown.isSome ∧ x.blank.isSome ∧ !g.fixed then (s.advanceRun (s.blankAt x g.vmax)).frameRepeat i
  else s

theorem frameBegun_freeStart_ready (hready : (s.vminPast i).bayReady i = true) : frameBegun i 0 (s.freeStart i) := by
  unfold State.freeStart
  rw [if_pos hready]
  exact frameBegun_frameNew _ i hready

theorem State.freeStart_wait (hready : (s.vminPast i).bayReady i = false)
    (hnone : (s.hd i).shown = none ∨ (s.hd i).blank = none ∨ (s.geoAct i).fixed = true) : s.freeStart i = s.vminPast i := by
  have hno : ¬ ((s.hd i).shown.isSome ∧ (s.hd i).blank.isSome ∧ !(s.geoAct i).fixed) := by
    rintro ⟨hs, hb, hf⟩
    rcases hnone with h | h | h <;> simp [h] at hs hb hf
  unfold State.freeStart
  simp only [hready, hno, Bool.false_eq_true, if_false]

theorem frameBegun_freeStart_repeat (hready : (s.vminPast i).bayReady i = false) {y : Nat × Nat × Nat} {b : Nat}
    (hs : (s.hd i).shown = some y) (hb : (s.hd i).blank = some b) (hf : (s.geoAct i).fixed = false) :
    frameBegun i ((s.hd i).run + 1) (s.freeStart i) := by
  unfold State.freeStart
  simp only [hready, hs, hb, hf, Bool.false_eq_true, if_false, Option.isSome_some, Bool.not_false, and_self, if_true]
  have hbegun := fun z => frameBegun_frameRepeat ((s.vminPast i).advanceRun z) i (y := y) (by simpa using hs)
  simp only [State.hd_advanceRun] at hbegun
  exact hbegun _

end

section
variable {s : State} {h : Fin 64}

theorem exec_frameStart_barred
    (hb : s.pll 0 = false ∨ s.enabled (hdP h.val) = false ∨ (s.hd h.val).inFrame = true ∨ s.mayStart h.val = false) :
    exec (.frameStart h) s = .next s := by
  refine congrArg Host.Outcome.next (if_pos ?_)
  simpa using hb

variable (hpll : s.pll 0 = true) (hon : s.enabled (hdP h.val) = true) (hrest : (s.hd h.val).inFrame = false)
  (hmay : s.mayStart h.val = true)
include hpll hon hrest hmay

theorem exec_frameStart_fixed (hfix : ((s.geoAct h.val).fixed && (s.geoAct h.val).member) = true)
    (hdue : (s.hd h.val).fixedDue = none) : exec (.frameStart h) s = .next s := by
  show execFrameStart h s = _
  simp only [execFrameStart, hpll, hon, hrest, hmay, hfix, hdue]
  rfl

theorem exec_frameStart_free (hfix : ((s.geoAct h.val).fixed && (s.geoAct h.val).member) = false) :
    exec (.frameStart h) s = .next (s.freeStart h.val) := by
  show execFrameStart h s = _
  simp only [execFrameStart, hpll, hon, hrest, hmay, hfix]
  rfl

end

/-! ### VMIN (R261) -/

section
variable {s : State} {h : Fin 64}

theorem vminReached_waits (hon : s.enabled (hdP h.val) = true) (hrest : (s.hd h.val).inFrame = false)
    (hphase : s.rd (hdP h.val) HD_STATE_PHASE = 3) (hready : (s.vminPast h.val).bayReady h.val = false) :
    completes (.vminReached h) s fun t => t.rd (hdP h.val) HD_STATE_PHASE = 4 := by
  refine ⟨(s.vminPast h.val).wr (hdP h.val) HD_STATE_PHASE 4, ?_, State.rd_wr_self ..⟩
  show execVminReached h s = _
  simp [execVminReached, hon, hrest, hphase, hready]

end

/-! ### Commits and their window (R264) -/

section
variable {s : State} {h : Fin 64} (w : Writer)

/-- A word of HD_COMMIT, or a counter of the head, is none that a gate's event writes. -/
theorem State.rd_hd_emit_gate (s : State) (h e code : Nat) (data : List Nat) {f : Fld}
    (hf : f.off * 32 + f.lo < 0x1000 * 32) (hraw : f.off * 32 + f.lo ≠ 0x10 * 32) :
    (s.emit (gtP e) code data).rd (hdP h) f = s.rd (hdP h) f := by
  refine State.rd_emit (ringKeysFree_above (pg_gate_above e)) ?_
  simp only [evKey, fkey, pg_dbk, pg_gate, pg_hd, HDR_EVT_RAW_RAW, DBK_WR_COUNT, DBK_LOST_COUNT]
  omega

theorem State.on_hd_emit_gate (s : State) (h e code : Nat) (data : List Nat) {f : Fld}
    (hf : f.off * 32 + f.lo < 0x1000 * 32) (hraw : f.off * 32 + f.lo ≠ 0x10 * 32) :
    (s.emit (gtP e) code data).on (hdP h) f = s.on (hdP h) f := by
  rw [State.on_eq, s.rd_hd_emit_gate h e code data hf hraw, State.on_eq]

theorem State.enabled_wb_commit (s : State) (i : Nat) (b : Bool) :
    (s.wb (hdP i) HD_COMMIT_COMMIT b).enabled (hdP i) = s.enabled (hdP i) := by
  rw [State.enabled, State.on_eq, State.wb_eq, State.rd_wr_same (by decide)]
  rfl

theorem exec_headCommit_again (hc : s.on (hdP h.val) HD_COMMIT_COMMIT = true) : exec (.headCommit w h) s = .next s :=
  congrArg Host.Outcome.next (if_pos hc)

theorem exec_headCommit_open (hc : s.on (hdP h.val) HD_COMMIT_COMMIT = false)
    (hopen : s.enabled (hdP h.val) = false ∨ (s.hd h.val).closed = false) :
    exec (.headCommit w h) s = .next (s.wb (hdP h.val) HD_COMMIT_COMMIT true) := by
  show execHeadCommit w h s = _
  simp only [execHeadCommit, hc, State.enabled_wb_commit]
  rcases hopen with h | h <;> simp [h]

/-- COMMIT and LATE are set, and the late commit is counted. -/
def State.commitLate (s : State) (i : Nat) : State :=
  ((s.wb (hdP i) HD_COMMIT_COMMIT true).wb (hdP i) HD_COMMIT_LATE true).cnt (hdP i) HD_LATE_COUNT 1

theorem State.commitLate_spec (s : State) (i : Nat) : (s.commitLate i).on (hdP i) HD_COMMIT_COMMIT = true ∧
    (s.commitLate i).on (hdP i) HD_COMMIT_LATE = true ∧
    (s.commitLate i).rd (hdP i) HD_LATE_COUNT = satAdd HD_LATE_COUNT.w (s.rd (hdP i) HD_LATE_COUNT) 1 := by
  unfold State.commitLate
  refine ⟨?_, ?_, ?_⟩
  · rw [State.on_eq, State.cnt_eq, State.rd_wr_same (by decide), State.wb_eq _ _ HD_COMMIT_LATE, State.rd_wr_same (by decide),
      ← State.on_eq]
    exact State.on_wb_true _ _ _ rfl
  · rw [State.on_eq, State.cnt_eq, State.rd_wr_same (by decide), ← State.on_eq]
    exact State.on_wb_true _ _ _ rfl
  · rw [State.rd_cnt_self, State.wb_eq _ _ HD_COMMIT_LATE, State.rd_wr_same (by decide), State.wb_eq, State.rd_wr_same (by decide)]

theorem exec_headCommit_late (hc : s.on (hdP h.val) HD_COMMIT_COMMIT = false) (hon : s.enabled (hdP h.val) = true)
    (hclosed : (s.hd h.val).closed = true) : exec (.headCommit w h) s = .next ((s.commitLate h.val).emit
      (gtP (s.hd h.val).geo.engine) 0x1801 (gateData 0 h.val 0 ((s.commitLate h.val).rd (hdP h.val) HD_FRAME_NUMBER)
        ((s.commitLate h.val).headTs h.val))) := by
  have hon' : (s.wb (hdP h.val) HD_COMMIT_COMMIT true).enabled (hdP h.val) = true := by rw [State.enabled_wb_commit, hon]
  show execHeadCommit w h s = _
  simp only [execHeadCommit, hc, hon', hclosed]
  rfl

theorem headCommit_late (hc : s.on (hdP h.val) HD_COMMIT_COMMIT = false) (hon : s.enabled (hdP h.val) = true)
    (hclosed : (s.hd h.val).closed = true) : completes (.headCommit w h) s fun t =>
      t.on (hdP h.val) HD_COMMIT_COMMIT = true ∧ t.on (hdP h.val) HD_COMMIT_LATE = true ∧
      t.rd (hdP h.val) HD_LATE_COUNT = satAdd HD_LATE_COUNT.w (s.rd (hdP h.val) HD_LATE_COUNT) 1 := by
  refine ⟨_, exec_headCommit_late w hc hon hclosed, ?_⟩
  dsimp only
  rw [State.on_hd_emit_gate _ _ _ _ _ (by decide) (by decide), State.on_hd_emit_gate _ _ _ _ _ (by decide) (by decide),
    State.rd_hd_emit_gate _ _ _ _ _ (by decide) (by decide)]
  exact s.commitLate_spec h.val

theorem exec_commitWindowClose_none (hx : (s.hd h.val).inFrame = false ∨ (s.hd h.val).closed = true) :
    exec (.commitWindowClose h) s = .next s :=
  congrArg Host.Outcome.next (if_pos (by simpa using hx))

/-- Head `i`'s window has closed on the frames `l`, and a commit that waited, if `b`, is accepted or refused. -/
def windowClosed (i : Nat) (l : List GateFrame) (b : Bool) (t : State) : Prop :=
  (t.hd i).frames = l ∧ (t.hd i).closed = true ∧ (b = true → (t.hd i).accepted = true ∨
    t.on (hdP i) HD_COMMIT_REFUSED = true ∧ t.on (hdP i) HD_COMMIT_COMMIT = false)

theorem windowClosed_accepted {s : State} {i : Nat} (hclosed : (s.hd i).closed = true) (b : Bool) (t : State) :
    windowClosed i (s.hd i).frames b (t.setHd i { s.hd i with accepted := true }) := by
  unfold windowClosed
  simp only [State.hd_setHd_self]
  exact ⟨trivial, hclosed, fun _ => .inl trivial⟩

theorem windowClosed_refused {s : State} {i : Nat} (hclosed : (s.hd i).closed = true) (b : Bool) (e r ts : Nat) :
    windowClosed i (s.hd i).frames b ((((s.wb (hdP i) HD_COMMIT_REFUSED true).wr (hdP i) HD_COMMIT_REASON r).wb (hdP i)
      HD_COMMIT_COMMIT false).headRefused i e r 1 ts) := by
  unfold State.headRefused
  have hhd : ∀ (t : State) (code : Nat) (data : List Nat), (t.emit (gtP e) code data).hd i = t.hd i := fun t _ _ =>
    State.hd_of_heads (t.heads_emit ..) i
  refine ⟨by rw [hhd]; rfl, by rw [hhd]; exact hclosed, fun _ => .inr ⟨?_, ?_⟩⟩
  · rw [State.on_hd_emit_gate _ _ _ _ _ (by decide) (by decide), State.on_eq, State.wb_eq _ _ HD_COMMIT_COMMIT,
      State.rd_wr_same (by decide), State.rd_wr_same (by decide), ← State.on_eq]
    exact State.on_wb_true _ _ _ rfl
  · rw [State.on_hd_emit_gate _ _ _ _ _ (by decide) (by decide)]
    exact State.on_wb_false _ _ _

theorem windowClosed_windowClose {s : State} {i : Nat} (hin : (s.hd i).inFrame = true) (hclosed : (s.hd i).closed = false) :
    windowClosed i (s.hd i).frames (s.on (hdP i) HD_COMMIT_COMMIT) (s.windowClose i) := by
  unfold State.windowClose
  rw [if_neg (by simp [hin, hclosed])]
  extract_lets +onlyGivenNames u v
  have hv : v.hd i = { s.hd i with closed := true } := u.hd_setHd_self i _
  have hframes : (v.hd i).frames = (s.hd i).frames := by rw [hv]
  have hshut : (v.hd i).closed = true := by rw [hv]
  have hcommit : v.on (hdP i) HD_COMMIT_COMMIT = s.on (hdP i) HD_COMMIT_COMMIT := by
    rw [State.on_eq, State.rd_setHd, s.rd_advanceRun_above _ (pg_hd_above i), State.on_eq]
  -- Opaque from here on: the kernel would evaluate `headJudge` on the state written out.
  clear_value v
  rw [← hcommit, ← hframes]
  split
  next hc => exact ⟨rfl, hshut, fun h => by simp [h] at hc⟩
  next =>
    split
    · exact windowClosed_accepted hshut _ _
    · exact windowClosed_refused hshut _ _ _ _

theorem commitWindowClose_judges (hin : (s.hd h.val).inFrame = true) (hclosed : (s.hd h.val).closed = false) :
    completes (.commitWindowClose h) s fun t => (t.hd h.val).closed = true ∧ (s.on (hdP h.val) HD_COMMIT_COMMIT = true →
      (t.hd h.val).accepted = true ∨ t.on (hdP h.val) HD_COMMIT_REFUSED = true ∧ t.on (hdP h.val) HD_COMMIT_COMMIT = false) := by
  obtain ⟨-, hjudged⟩ := windowClosed_windowClose hin hclosed
  exact ⟨_, rfl, hjudged⟩

end

/-- Settles O40: a frame is entered in its head's state as begun, and what follows it there leaves that; a commit is judged when its
window closes, in fields that no record writes. -/
theorem headFrameStart : Obligations.HeadFrameStart := by
  unfold Obligations.HeadFrameStart
  intro w h s
  refine ⟨exec_frameStart_barred, fun hpll hon hrest hmay => ?_, vminReached_waits, exec_headCommit_again w, fun hc hopen => ?_,
    headCommit_late w, exec_commitWindowClose_none, commitWindowClose_judges⟩
  · have hfree := exec_frameStart_free hpll hon hrest hmay
    refine ⟨exec_frameStart_fixed hpll hon hrest hmay, fun hfix hready => ?_, fun hfix hready => ⟨fun hnone => ?_,
      fun y b hs hb hf => ?_⟩⟩
    · exact ⟨_, hfree hfix, frameBegun_freeStart_ready s h.val hready⟩
    · rw [hfree hfix, State.freeStart_wait s h.val hready hnone]
    · exact ⟨_, hfree hfix, frameBegun_freeStart_repeat s h.val hready hs hb hf⟩
  · exact ⟨_, exec_headCommit_open w hc hopen, State.on_wb_true _ _ _ rfl, onlyRegs_wb (by simp) onlyRegs_refl⟩

end Sys2Proof.Machine
end

section
/-! PROOFS. Heads: lines, reads, end of frame, disable and CRC holds (R260, R266, R267, R270, R281). -/

set_option autoImplicit false

namespace Sys2Proof.Machine

/-! ### Numbers as bits -/

theorem ldiff_add_land (v m : Nat) : Nat.ldiff v m + (v &&& m) = v := by
  induction v using Nat.binaryRec generalizing m with
  | zero => simp [Nat.ldiff]
  | bit b v ih =>
    cases m using Nat.bitCasesOn with
    | bit c m =>
      have hvm := ih m
      rw [Nat.ldiff_bit, Nat.land_bit]
      cases b <;> cases c <;> simp [Nat.bit_val] <;> omega

theorem bit_andNot (v m j : Nat) : bit (andNot v m) j = (bit v j && !bit m j) := by
  have hdiff : andNot v m = Nat.ldiff v m := by
    have hsum := ldiff_add_land v m
    unfold andNot
    omega
  rw [hdiff, bit_eq_testBit, bit_eq_testBit, bit_eq_testBit, Nat.testBit_ldiff]

/-! ### The end of a frame (R260, R266, R270) -/

section
variable (s : State) (i : Nat)

/-- What values become active with leaves the frame in progress as it is. -/
theorem State.inFrame_headApply : ((s.headApply i).hd i).inFrame = (s.hd i).inFrame := by
  unfold State.headApply
  dsimp only
  split
  · rw [State.hd_of_heads (State.heads_outsideCheck ..), State.hd_setHd_self]
  · rfl

theorem State.inFrame_frameOver (fr : GateFrame) (a : Bool) : ((s.frameOver i fr a).hd i).inFrame = false := by
  have hheads : (s.frameOver i fr a).heads = (s.setHd i { s.hd i with inFrame := false, bank := [], held := false }).heads := by
    simp [State.frameOver]
  rw [State.hd_of_heads hheads, State.hd_setHd_self]

/-- Blanking begins with no frame in progress. -/
theorem State.inFrame_blanking {s : State} {i : Nat} (h : (s.hd i).inFrame = false) (c : Nat) :
    ((((s.wr (hdP i) HD_STATE_PHASE 3).headApply i).closeCheck c).hd i).inFrame = false := by
  rw [State.hd_of_heads (State.heads_closeCheck ..), State.inFrame_headApply]
  exact h

theorem State.inFrame_frameAbort {s : State} {i : Nat} (hf : (s.hd i).frames ≠ []) (line cause : Nat) :
    ((s.frameAbort i line cause).hd i).inFrame = false := by
  unfold State.frameAbort
  dsimp only
  split
  next h => exact absurd h hf
  next fr _ _ =>
    refine State.inFrame_blanking ?_ _
    rw [State.hd_setHd_self]
    dsimp only
    rw [State.hd_of_heads (State.heads_tapAbort ..), State.inFrame_frameOver]

theorem State.inFrame_underrun {s : State} {i : Nat} (hf : (s.hd i).frames ≠ []) (line : Nat) :
    ((s.underrun i line).hd i).inFrame = false := by
  unfold State.underrun
  refine State.inFrame_frameAbort ?_ _ _
  rw [State.hd_of_heads (State.heads_emit ..)]
  suffices hheads : ∀ t : State, t.heads = s.heads → (t.hd i).frames ≠ [] by
    refine hheads _ ?_
    split
    · dsimp only
      split
      · rfl
      · split
        · simp
        · rfl
    · rfl
  exact fun t ht => by rwa [State.hd_of_heads ht]

end

/-! ### Lines (R266) -/

section
variable {s : State} {h : Fin 64}

/-- Line `x.sent` of the frame `fr`, in the bank `b` of a head that was `x`, passes the gate and is handed over. -/
def State.lineSent (s : State) (i : Nat) (x : HeadSt) (fr : GateFrame) (b : BankLine) : State :=
  let px := gateLine fr x.geo x.cols x.sent b.words
  let pay := linesPayload x.geo px
  let s := s.setHd i { s.hd i with sent := x.sent + 1, bank := x.bank.filter fun a => decide (a.line ≠ x.sent) }
  let s := s.wr (hdP i) HD_STATE_PHASE 2
  let s := s.handOver i x.geo 2 x.sent fr.f fr.rep pay s.time.run
  let s := if x.geo.member then s.crcLine x.geo.canvas (s.frameEpoch i fr) i (x.geo.y + x.sent) x.geo.x b.words else s
  let s := s.lineValue i x.sent fr.f (crc32c (foldBlock i x.sent fr.f ++ pay))
  s.tapLine i x.sent px

theorem State.heads_lineSent (s : State) (i : Nat) (x : HeadSt) (fr : GateFrame) (b : BankLine) : (s.lineSent i x fr b).heads =
    (s.setHd i { s.hd i with sent := x.sent + 1, bank := x.bank.filter fun a => decide (a.line ≠ x.sent) }).heads := by
  simp [State.lineSent]

theorem exec_lineDue_barred (hb : s.pll 0 = false ∨ (s.hd h.val).frames = [] ∨ (s.hd h.val).inFrame = false ∨
    (s.hd h.val).geo.vAct ≤ (s.hd h.val).sent) : exec (.lineDue h) s = .next s := by
  show execLineDue h s = _
  unfold execLineDue
  refine congrArg Host.Outcome.next ?_
  split
  · rfl
  next hf =>
    refine if_pos ?_
    simpa [hf] using hb

variable (hpll : s.pll 0 = true) (hf : (s.hd h.val).frames ≠ []) (hin : (s.hd h.val).inFrame = true)
  (hleft : (s.hd h.val).sent < (s.hd h.val).geo.vAct)
include hpll hf hin hleft

theorem lineDue_sends (hline : ((s.hd h.val).bank.find? fun b => decide (b.line = (s.hd h.val).sent)).isSome = true) :
    completes (.lineDue h) s fun t => (t.hd h.val).sent = (s.hd h.val).sent + 1 ∧ (t.hd h.val).inFrame = true := by
  obtain ⟨b, hb⟩ := Option.isSome_iff_exists.1 hline
  obtain ⟨fr, rest, hfr⟩ := List.exists_cons_of_ne_nil hf
  have hopen : ¬ ((!s.pll 0) = true ∨ (!(s.hd h.val).inFrame) = true ∨ (s.hd h.val).geo.vAct ≤ (s.hd h.val).sent) := by
    simp [hpll, hin, hleft]
  refine ⟨(s.advanceRun (s.lineAt (s.hd h.val) ((s.hd h.val).geo.start + (s.hd h.val).sent))).lineSent h.val (s.hd h.val) fr b, ?_, ?_⟩
  · show execLineDue h s = _
    simp only [execLineDue, hfr, if_neg hopen, hb]
    rfl
  · beta_reduce
    rw [State.hd_of_heads (State.heads_lineSent ..), State.hd_setHd_self, State.hd_advanceRun]
    exact ⟨rfl, hin⟩

theorem lineDue_underrun (hline : ((s.hd h.val).bank.find? fun b => decide (b.line = (s.hd h.val).sent)) = none) :
    completes (.lineDue h) s fun t => (t.hd h.val).inFrame = false := by
  obtain ⟨fr, rest, hfr⟩ := List.exists_cons_of_ne_nil hf
  have hopen : ¬ ((!s.pll 0) = true ∨ (!(s.hd h.val).inFrame) = true ∨ (s.hd h.val).geo.vAct ≤ (s.hd h.val).sent) := by
    simp [hpll, hin, hleft]
  refine ⟨_, rfl, ?_⟩
  simp only [hfr, if_neg hopen, hline]
  refine State.inFrame_underrun ?_ _
  rw [State.hd_advanceRun]
  exact hf

end

/-! ### Reads (R267) -/

section
variable (s : State) (i : Nat)

theorem State.progress_midFail (e line a b : Nat) : (s.midFail e i line a b).progress i = s.progress i := by
  unfold State.midFail
  split
  · rfl
  · refine (State.progress_of_heads (State.heads_foldl _ _ fun v t => ?_) i).trans (State.progress_setHd ..)
    simp [State.verdictRec]

/-- What a part `y` of a line that a head, then `x`, reads from `bay` means when it fails: its stalls are not shown from there on. -/
def State.partRead (s : State) (i : Nat) (x : HeadSt) (bay : Nat × Nat) (y : Nat × Nat × List Nat) : State :=
  if y.2.1 = 0 then s
  else
    let z := s.hd i
    let s := if z.failed.contains bay then s else s.setHd i { z with failed := bay :: z.failed }
    let s := if z.readFail then s
      else s.emit (gtP x.geo.engine) 0x0802 (gateData 0 i 0 (x.fetched + y.2.1 * 2 ^ 16) (s.headTs i))
    let s := s.setHd i { s.hd i with readFail := true }
    s.midFail x.geo.engine i x.fetched (y.1 / 4) ((y.1 + y.2.2.length + 3) / 4)

theorem State.progress_partRead (x : HeadSt) (bay : Nat × Nat) (y : Nat × Nat × List Nat) :
    (s.partRead i x bay y).progress i = s.progress i := by
  unfold State.partRead
  split
  · rfl
  · dsimp only
    rw [State.progress_midFail, State.progress_setHd]
    show State.progress _ i = _
    have hfailed : ∀ b : Bool, (if b then s else s.setHd i { s.hd i with failed := bay :: (s.hd i).failed }).progress i =
        s.progress i := fun b => by
      cases b
      · exact State.progress_setHd ..
      · rfl
    split
    · exact hfailed _
    · rw [State.progress_of_heads (State.heads_emit ..)]
      exact hfailed _

theorem State.progress_foldl_partRead (x : HeadSt) (bay : Nat × Nat) (l : List (Nat × Nat × List Nat)) :
    (l.foldl (fun u y => u.partRead i x bay y) s).progress i = s.progress i := by
  induction l generalizing s with
  | nil => rfl
  | cons y l ih => rw [List.foldl_cons, ih, State.progress_partRead]

end

section
variable {s : State} {h : Fin 64}

theorem exec_scanoutReadComplete_none (hx : (s.hd h.val).inFrame = false ∨ (s.hd h.val).geo.vAct ≤ (s.hd h.val).fetched ∨
    (s.hd h.val).sent + 4 ≤ (s.hd h.val).fetched ∨ (s.hd h.val).last = none) : exec (.scanoutReadComplete h) s = .next s := by
  show execScanoutReadComplete h s = _
  unfold execScanoutReadComplete
  refine congrArg Host.Outcome.next ?_
  split
  · rfl
  next hopen =>
    split
    · rfl
    next bay hlast => exact absurd (by simpa [hlast] using hx) hopen

theorem scanoutReadComplete_fetches (bay : Nat × Nat) (hin : (s.hd h.val).inFrame = true)
    (hleft : (s.hd h.val).fetched < (s.hd h.val).geo.vAct) (hroom : (s.hd h.val).fetched < (s.hd h.val).sent + 4)
    (hlast : (s.hd h.val).last = some bay) :
    completes (.scanoutReadComplete h) s fun t => (t.hd h.val).fetched = (s.hd h.val).fetched + 1 := by
  have hopen : ¬ ((!(s.hd h.val).inFrame) = true ∨ (s.hd h.val).geo.vAct ≤ (s.hd h.val).fetched ∨
      (s.hd h.val).sent + 4 ≤ (s.hd h.val).fetched) := by
    simp [hin, hleft, hroom]
  refine ⟨_, rfl, ?_⟩
  simp only [if_neg hopen, hlast]
  split
  · rw [State.hd_setHd_self]
  · obtain ⟨parts, u⟩ := s.lineParts (s.hd h.val) bay
    exact congrArg (fun r => r.2.2.1) ((State.progress_foldl_partRead _ h.val (s.hd h.val) bay parts).trans (State.progress_setHd ..))

end

/-! ### The end of the active lines (R260) -/

section
variable {s : State} {h : Fin 64}

theorem exec_endOfActive_none (hx : (s.hd h.val).frames = [] ∨ (s.hd h.val).inFrame = false ∨
    (s.hd h.val).sent < (s.hd h.val).geo.vAct) : exec (.endOfActive h) s = .next s := by
  show execEndOfActive h s = _
  unfold execEndOfActive
  refine congrArg Host.Outcome.next ?_
  split
  · rfl
  next hf =>
    refine if_pos ?_
    simpa [hf] using hx

/-- A window that closes leaves the frames of a frame in progress. -/
theorem State.frames_windowClose {s : State} {i : Nat} (hin : (s.hd i).inFrame = true) :
    ((s.windowClose i).hd i).frames = (s.hd i).frames := by
  cases hclosed : (s.hd i).closed with
  | false => exact (windowClosed_windowClose hin hclosed).1
  | true =>
    unfold State.windowClose
    rw [if_pos (.inr hclosed)]

theorem endOfActive_ends (hf : (s.hd h.val).frames ≠ []) (hin : (s.hd h.val).inFrame = true)
    (hsent : (s.hd h.val).geo.vAct ≤ (s.hd h.val).sent) :
    completes (.endOfActive h) s fun t => (t.hd h.val).inFrame = false := by
  obtain ⟨fr, rest, hfr⟩ := List.exists_cons_of_ne_nil hf
  have hdone : ¬ ((!(s.hd h.val).inFrame) = true ∨ (s.hd h.val).sent < (s.hd h.val).geo.vAct) := by
    simp [hin, hsent]
  have hkept : ((s.windowClose h.val).hd h.val).frames = fr :: rest := (State.frames_windowClose hin).trans hfr
  refine ⟨_, rfl, ?_⟩
  simp only [hfr, if_neg hdone, hkept]
  refine State.inFrame_blanking ?_ _
  rw [State.hd_of_heads (State.heads_tapEnd ..), State.inFrame_frameOver]

end

/-! ### Disabling a head (R270) -/

section
variable {s : State} {h : Fin 64} (w : Writer)

/-- No closing of the canvas is under way. -/
theorem State.closeCheck_open {s : State} {c : Nat} (hopen : ∀ e, (s.cv e c).closing = false) : s.closeCheck c = s :=
  List.foldl_fixed' (fun e => if_neg (by simp [hopen])) _

theorem exec_headDisable_off (hoff : s.enabled (hdP h.val) = false) : exec (.headDisable w h) s = .next s :=
  congrArg Host.Outcome.next (if_pos (by simp [hoff]))

/-- Head `i` is no longer enabled, and its state is gone. -/
def State.headOut (s : State) (i : Nat) : State :=
  let s := { (s.wb (hdP i) HDR_CTRL_ENABLE false) with heads := Store.del i s.heads }
  (s.wr (hdP i) HD_STATE_PHASE 0).wb (hdP i) HD_STATE_OUTSIDE false

/-- The recording of head `i`, if any, stops. -/
def State.unrecorded (s : State) (i : Nat) : State :=
  match s.chOf i with
  | some (q, k) => s.chStop q k 0
  | none => s

/-- An enabled head `i` of canvas `c`, with no frame in progress, is disabled. -/
def State.headOff (s : State) (i c : Nat) : State :=
  (((s.useSet (s.headBanks i) false).headOut i).unrecorded i).closeCheck c

theorem State.find_headOut (s : State) (i : Nat) : Store.find i (s.headOut i).heads = none := Store.find_del_self ..

theorem State.enabled_headOut (s : State) (i : Nat) : (s.headOut i).enabled (hdP i) = false := by
  unfold State.headOut
  rw [State.enabled, State.on_eq, State.wb_eq _ _ HD_STATE_OUTSIDE, State.rd_wr_same (by decide), State.rd_wr_same (by decide),
    ← State.on_eq]
  exact State.on_wb_false _ _ _

theorem State.heads_unrecorded (s : State) (i : Nat) : (s.unrecorded i).heads = s.heads := by
  unfold State.unrecorded
  split
  · exact s.heads_chStop ..
  · rfl

/-- With no channel enabled, no recording stops. -/
theorem State.unrecorded_of_enc {s : State} (henc : s.enc = []) (i : Nat) : s.unrecorded i = s := by
  have hnone : s.chOf i = none := by simp [State.chOf, henc]
  rw [State.unrecorded, hnone]

theorem State.useSet_eq (s : State) (l : List Nat) (b : Bool) : ∃ r, s.useSet l b = { s with regs := r } := by
  unfold State.useSet
  induction l generalizing s with
  | nil => exact ⟨s.regs, rfl⟩
  | cons n l ih => exact ih (s.wb (ownPg n) (OWN_ENT_IN_USE (n % 1024)) b)

theorem State.find_headOff (s : State) (i c : Nat) : Store.find i (s.headOff i c).heads = none := by
  rw [State.headOff, State.heads_closeCheck, State.heads_unrecorded, State.find_headOut]

theorem State.enabled_headOff {s : State} {c : Nat} (i : Nat) (henc : s.enc = []) (hopen : ∀ e, (s.cv e c).closing = false) :
    (s.headOff i c).enabled (hdP i) = false := by
  obtain ⟨r, hr⟩ := s.useSet_eq (s.headBanks i) false
  have henc' : ((s.useSet (s.headBanks i) false).headOut i).enc = [] := by
    rw [hr]
    exact henc
  have hopen' : ∀ e, (((s.useSet (s.headBanks i) false).headOut i).cv e c).closing = false := by
    rw [hr]
    exact hopen
  rw [State.headOff, State.unrecorded_of_enc henc', State.closeCheck_open hopen', State.enabled_headOut]

theorem exec_headDisable_on (hon : s.enabled (hdP h.val) = true) : exec (.headDisable w h) s = .next
    ((if (s.hd h.val).inFrame then s.frameAbort h.val (s.hd h.val).sent 1 else s).headOff h.val (s.hd h.val).geo.canvas) :=
  congrArg Host.Outcome.next (if_neg (by simp [hon]))

theorem headDisable_ends (hon : s.enabled (hdP h.val) = true) : completes (.headDisable w h) s fun t =>
    Store.find h.val t.heads = none ∧ ((s.hd h.val).inFrame = false → s.enc = [] →
      (∀ e, (s.cv e (s.hd h.val).geo.canvas).closing = false) → t.enabled (hdP h.val) = false) := by
  refine ⟨_, exec_headDisable_on w hon, State.find_headOff .., fun hin henc hopen => ?_⟩
  rw [if_neg (by simp [hin])]
  exact State.enabled_headOff h.val henc hopen

end

/-! ### CRC holds (R281) -/

section
variable {s : State} (w : Writer) (e : Fin 4) (hi : Bool) (v : Word)

theorem exec_crcHoldClear_fenced (hfence : s.pageFenced .gate e.val = true) : exec (.crcHoldClear w e hi v) s =
    .next (s.missRecord w .write (gtP e.val + (if hi then GATE_CRC_HOLD_HI_HOLD else GATE_CRC_HOLD_LO_HOLD).off)) :=
  congrArg Host.Outcome.next (if_pos hfence)

theorem exec_crcHoldClear_open (hfence : s.pageFenced .gate e.val = false) : exec (.crcHoldClear w e hi v) s =
    .next (s.wr (gtP 0) (if hi then GATE_CRC_HOLD_HI_HOLD else GATE_CRC_HOLD_LO_HOLD)
      (andNot (s.rd (gtP 0) (if hi then GATE_CRC_HOLD_HI_HOLD else GATE_CRC_HOLD_LO_HOLD)) v.toNat)) :=
  congrArg Host.Outcome.next (if_neg (by simp [hfence]))

theorem crcHoldClear_clears (hfence : s.pageFenced .gate e.val = false) : completes (.crcHoldClear w e hi v) s fun t =>
    let f := if hi then GATE_CRC_HOLD_HI_HOLD else GATE_CRC_HOLD_LO_HOLD
    (∀ j, j < 32 → bit (t.rd (gtP 0) f) j = (bit (s.rd (gtP 0) f) j && !bit v.toNat j)) ∧ onlyRegs [fkey (gtP 0) f] s t := by
  have hwidth : (if hi then GATE_CRC_HOLD_HI_HOLD else GATE_CRC_HOLD_LO_HOLD).w = 32 := by cases hi <;> rfl
  refine ⟨_, exec_crcHoldClear_open w e hi v hfence, fun j hj => ?_, onlyRegs_wr (by simp) onlyRegs_refl⟩
  rw [State.rd_wr_self, hwidth, bit_mod_two_pow hj, bit_andNot]

end

/-- Settles O41: what the end of a frame, a line, a read and a disable do to the head itself is a plain update of its run-time state,
which the packetisers, the yoke, the output check, the tap and the canvas leave alone. -/
theorem headLines : Obligations.HeadLines := by
  unfold Obligations.HeadLines
  intro w h s
  refine ⟨exec_lineDue_barred, fun hpll hf hin hleft => ⟨lineDue_sends hpll hf hin hleft, lineDue_underrun hpll hf hin hleft⟩,
    exec_scanoutReadComplete_none, scanoutReadComplete_fetches, exec_endOfActive_none, endOfActive_ends,
    exec_headDisable_off w, headDisable_ends w, exec_crcHoldClear_fenced w, crcHoldClear_clears w⟩

end Sys2Proof.Machine
end

section
/-! PROOFS. The reference receiver: alignment, packets, presentation, blanking, status (R286, R304 to R308). -/

set_option autoImplicit false

namespace Sys2Proof.Machine

/-! ### The state of a receiver -/

section
variable (s : State) (i : Nat)

@[simp] theorem State.rcv_setRcv_self (x : RcvSt) : (s.setRcv i x).rcv i = x := Store.getD_setD_self ..

@[simp] theorem State.time_setRcv (x : RcvSt) : (s.setRcv i x).time = s.time := rfl
@[simp] theorem State.out_setRcv (x : RcvSt) : (s.setRcv i x).out = s.out := rfl

@[simp] theorem State.rcv_emitOut (o : Out) : (s.emitOut o).rcv i = s.rcv i := rfl
@[simp] theorem State.time_emitOut (o : Out) : (s.emitOut o).time = s.time := rfl
@[simp] theorem State.out_emitOut (o : Out) : (s.emitOut o).out = s.out ++ [o] := rfl

/-- The clock's advance touches no receiver and sends nothing. -/
theorem State.rcv_out_advanceRun (x : Nat) : (s.advanceRun x).rcv i = s.rcv i ∧ (s.advanceRun x).out = s.out := by
  obtain ⟨t, h, -⟩ := s.advanceRun_spec x
  rw [h]
  exact ⟨rfl, rfl⟩

/-- T_LOSS blanks a receiver and changes nothing else of it. -/
theorem RcvSt.timed_eq (x : RcvSt) (t : Nat) : ∃ b, x.timed t = { x with blanked := b } := by
  unfold RcvSt.timed
  split
  · exact ⟨true, rfl⟩
  · exact ⟨x.blanked, rfl⟩

end

/-! ### Alignment (R286) -/

section
variable {h : Fin 64} {input : Fin 2} {lane : Fin 4} {s : State} {rate : Nat}

theorem receiverAlignAcquire_aligns (hlane : lane.val < (s.rcv h.val).lanesOf input.val)
    (hrate : (s.rcv h.val).cfg.rates.getD input.val 0 = rate) :
    completes (.receiverAlignAcquire h input ⟨lane, rate⟩) s fun t =>
      (t.rcv h.val).aligned.contains (input.val * 4 + lane.val) = true ∧ t = { s with rcvs := t.rcvs } := by
  refine ⟨_, rfl, ?_⟩
  cases hk : (s.rcv h.val).aligned.contains (input.val * 4 + lane.val) with
  | true =>
    rw [if_pos (.inl rfl)]
    exact ⟨hk, rfl⟩
  | false =>
    rw [if_neg fun hx => hx.elim (by decide) fun hx => hx.elim (Nat.not_le.2 hlane) fun hne => hne hrate, State.rcv_setRcv_self]
    exact ⟨by simp, rfl⟩

theorem exec_receiverAlignAcquire_elsewhere
    (hx : (s.rcv h.val).lanesOf input.val ≤ lane.val ∨ (s.rcv h.val).cfg.rates.getD input.val 0 ≠ rate) :
    exec (.receiverAlignAcquire h input ⟨lane, rate⟩) s = .next s :=
  congrArg Host.Outcome.next (if_pos (.inr hx))

theorem receiverAlignLoss_unaligns : completes (.receiverAlignLoss h input lane) s fun t =>
    (t.rcv h.val).aligned.contains (input.val * 4 + lane.val) = false ∧ t = { s with rcvs := t.rcvs } := by
  refine ⟨_, rfl, ?_, rfl⟩
  simp

end

/-! ### Packets (R304, R305) -/

section
variable {h : Fin 64} {input : Fin 2} {lane : Fin 4} {s : State} {clean : Bool} {d : List Nat}

theorem exec_receiverPacket_unaligned (hk : (s.rcv h.val).aligned.contains (input.val * 4 + lane.val) = false) :
    exec (.receiverPacket h input lane clean d) s = .next s :=
  congrArg Host.Outcome.next (if_pos (by rw [hk]; rfl))

variable (hk : (s.rcv h.val).aligned.contains (input.val * 4 + lane.val) = true)
include hk

theorem receiverPacket_valid (hd : (clean && (s.rcv h.val).valid (s.rcv h.val).cfg.head d) = true) :
    completes (.receiverPacket h input lane clean d) s fun t =>
      t.rcv h.val = ((s.rcv h.val).timed s.time.run).packet h.val input.val s.time.run d :=
  ⟨_, congrArg Host.Outcome.next ((if_neg (by simp only [hk]; decide)).trans (if_pos hd)), State.rcv_setRcv_self ..⟩

theorem receiverPacket_invalid (hd : (clean && (s.rcv h.val).valid (s.rcv h.val).cfg.head d) = false) :
    completes (.receiverPacket h input lane clean d) s fun t =>
      t.rcv h.val = { s.rcv h.val with invalid := ((s.rcv h.val).invalid + 1) % 2 ^ 32 } :=
  ⟨_, congrArg Host.Outcome.next ((if_neg (by simp only [hk]; decide)).trans (if_neg (by simp only [hd]; decide))),
    State.rcv_setRcv_self ..⟩

end

/-! ### Presentation (R306, R307) -/

/-- What a receiver shows for the next line of the frame `f` that follows `p`: the source (0 the frame itself, 1 the frame before, 2
no-signal) and the bytes. -/
def RcvSt.lineShown (x : RcvSt) (f : RcvFrame) (p : Option RcvFrame) : Nat × List Nat :=
  if x.blanked then (2, [])
  else match Store.find f.next f.lines with
    | some b => (0, b)
    | none => match p.bind fun q => Store.find f.next q.lines with
      | some b => (1, b)
      | none => (2, [])

/-- The receiver with the next line of `f` behind it. -/
def RcvSt.linePassed (x : RcvSt) (f : RcvFrame) : RcvSt :=
  { x with
    frames := mapWhere (fun (a : RcvFrame) => decide (a.frame = f.frame) && decide (a.t0 = f.t0))
      (fun (a : RcvFrame) => { a with next := f.next + 1 }) x.frames }

/-- The receiver once the next line of `f` has been shown from source `n`: one from elsewhere counts as missed. -/
def RcvSt.presented (x : RcvSt) (f : RcvFrame) (n : Nat) : RcvSt :=
  if n = 0 then x.linePassed f else { x.linePassed f with missed := (x.missed + 1) % 2 ^ 32 }

/-- Receiver `i` shows the next line of `f`, which follows `p`, now. -/
def State.linePresented (s : State) (i : Nat) (f : RcvFrame) (p : Option RcvFrame) : State :=
  let x := (s.rcv i).timed s.time.run
  (s.setRcv i (x.presented f (x.lineShown f p).1)).emitOut (.shown i f.next (x.lineShown f p).1 (x.lineShown f p).2)

section
variable {x : RcvSt} {f : RcvFrame} {p : Option RcvFrame}

theorem RcvSt.lineShown_blanked (h : x.blanked = true) : x.lineShown f p = (2, []) := if_pos h

theorem RcvSt.lineShown_held {d : List Nat} (h : x.blanked = false) (hd : Store.find f.next f.lines = some d) :
    x.lineShown f p = (0, d) := by
  simp [RcvSt.lineShown, h, hd]

theorem RcvSt.lineShown_previous {d : List Nat} (h : x.blanked = false) (hf : Store.find f.next f.lines = none)
    (hp : (p.bind fun q => Store.find f.next q.lines) = some d) : x.lineShown f p = (1, d) := by
  simp [RcvSt.lineShown, h, hf, hp]

theorem RcvSt.lineShown_absent (h : x.blanked = false) (hf : Store.find f.next f.lines = none)
    (hp : (p.bind fun q => Store.find f.next q.lines) = none) : x.lineShown f p = (2, []) := by
  simp [RcvSt.lineShown, h, hf, hp]

theorem RcvSt.missed_presented (x : RcvSt) (f : RcvFrame) (n : Nat) :
    (x.presented f n).missed = if n = 0 then x.missed else (x.missed + 1) % 2 ^ 32 :=
  apply_ite RcvSt.missed _ _ _

theorem State.time_linePresented (s : State) (i : Nat) (f : RcvFrame) (p : Option RcvFrame) :
    (s.linePresented i f p).time = s.time := by
  rw [State.linePresented, State.time_emitOut, State.time_setRcv]

theorem State.linePresented_spec (s : State) (i : Nat) (f : RcvFrame) (p : Option RcvFrame) : ∃ n b,
    (s.linePresented i f p).out = s.out ++ [.shown i f.next n b] ∧
    (((s.rcv i).timed s.time.run).blanked = true → n = 2 ∧ b = []) ∧
    (∀ d, ((s.rcv i).timed s.time.run).blanked = false → Store.find f.next f.lines = some d → n = 0 ∧ b = d) ∧
    ((s.linePresented i f p).rcv i).missed = if n = 0 then (s.rcv i).missed else ((s.rcv i).missed + 1) % 2 ^ 32 := by
  obtain ⟨b, hb⟩ := (s.rcv i).timed_eq s.time.run
  unfold State.linePresented
  generalize (s.rcv i).timed s.time.run = x at hb ⊢
  refine ⟨(x.lineShown f p).1, (x.lineShown f p).2, ?_, fun hx => Prod.ext_iff.1 (RcvSt.lineShown_blanked hx), fun d hx hd =>
    Prod.ext_iff.1 (RcvSt.lineShown_held hx hd), ?_⟩
  · rw [State.out_emitOut, State.out_setRcv]
  · rw [State.rcv_emitOut, State.rcv_setRcv_self, RcvSt.missed_presented, hb]

end

section
variable {h : Fin 64} {s : State} {f : RcvFrame} {p : Option RcvFrame}

theorem exec_receiverLinePresent_none (hdue : duePair (Config.rcvDelay h.val) (s.rcv h.val).frames = none) :
    exec (.receiverLinePresent h) s = .next s := by
  show execReceiverLinePresent h s = _
  simp only [execReceiverLinePresent, hdue]

variable (hdue : duePair (Config.rcvDelay h.val) (s.rcv h.val).frames = some (f, p))
include hdue

theorem exec_receiverLinePresent_due : exec (.receiverLinePresent h) s =
    .next ((s.advanceRun (f.at_ (Config.rcvDelay h.val) f.next)).linePresented h.val f p) := by
  show execReceiverLinePresent h s = _
  unfold execReceiverLinePresent
  extract_lets i d
  rw [hdue]
  dsimp -zeta only
  extract_lets +onlyGivenNames g u
  change done _ = .next (u.linePresented i f p)
  unfold State.linePresented
  -- The clock and the receiver are named opaquely: the kernel would evaluate the times written out.
  obtain ⟨v, hv⟩ : ∃ v, u = v := ⟨_, rfl⟩
  rw [hv]
  obtain ⟨y, hy⟩ : ∃ y, (v.rcv i).timed v.time.run = y := ⟨_, rfl⟩
  rw [hy]
  extract_lets x frames passed missed
  have hpassed : x.presented f 0 = passed := if_pos rfl
  have hmissed : ∀ n, n ≠ 0 → x.presented f n = missed := fun n hn => if_neg hn
  have hblanked : passed.blanked = x.blanked := rfl
  clear_value passed missed x
  refine congrArg Host.Outcome.next ?_
  cases hb : x.blanked with
  | true => rw [if_pos (hblanked.trans hb), RcvSt.lineShown_blanked hb, hmissed 2 (by decide)]
  | false =>
    rw [if_neg (by simp [hblanked, hb])]
    cases hf : Store.find f.next f.lines with
    | some b => rw [RcvSt.lineShown_held hb hf, hpassed]
    | none =>
      cases hp : p.bind fun q => Store.find f.next q.lines with
      | some b => rw [RcvSt.lineShown_previous hb hf hp, hmissed 1 (by decide)]
      | none => rw [RcvSt.lineShown_absent hb hf hp, hmissed 2 (by decide)]

theorem receiverLinePresent_shows : completes (.receiverLinePresent h) s fun t =>
    (∃ n b, t.out = s.out ++ [.shown h.val f.next n b] ∧
      (((s.rcv h.val).timed t.time.run).blanked = true → n = 2 ∧ b = []) ∧
      (∀ d, ((s.rcv h.val).timed t.time.run).blanked = false → Store.find f.next f.lines = some d → n = 0 ∧ b = d) ∧
      (t.rcv h.val).missed = if n = 0 then (s.rcv h.val).missed else ((s.rcv h.val).missed + 1) % 2 ^ 32) ∧
    f.at_ (Config.rcvDelay h.val) f.next ≤ t.time.run := by
  refine ⟨_, exec_receiverLinePresent_due hdue, ?_⟩
  beta_reduce
  rw [State.time_linePresented]
  refine ⟨?_, State.le_run_advanceRun ..⟩
  obtain ⟨hrcv, hout⟩ := s.rcv_out_advanceRun h.val (f.at_ (Config.rcvDelay h.val) f.next)
  rw [← hrcv, ← hout]
  exact State.linePresented_spec ..

end

/-! ### Blanking and status (R307, R308) -/

section
variable {h : Fin 64} {s : State}

theorem exec_receiverLossTimeout_blanked (hb : (s.rcv h.val).blanked = true) : exec (.receiverLossTimeout h) s = .next s :=
  congrArg Host.Outcome.next (if_pos hb)

theorem receiverLossTimeout_blanks (hb : (s.rcv h.val).blanked = false) : completes (.receiverLossTimeout h) s fun t =>
    t.rcv h.val = { s.rcv h.val with blanked := true } ∧ (s.rcv h.val).lossAt ≤ t.time.run :=
  ⟨_, congrArg Host.Outcome.next (if_neg (by simp [hb])), State.rcv_setRcv_self .., by
    rw [State.time_setRcv]
    exact State.le_run_advanceRun ..⟩

theorem receiverStatusSend_sends : completes (.receiverStatusSend h) s fun t =>
    ∃ b, t = { s with out := s.out ++ [.rcvStatus h.val b] } ∧ b.length = 28 ∧
      b.take 7 = [0x42, 0x4C, 0x4A, 0x53, 1, (s.rcv h.val).cfg.head, (s.rcv h.val).cur] := by
  refine ⟨_, rfl, _, rfl, by simp [leBytes_length], ?_⟩
  obtain ⟨b, hb⟩ := (s.rcv h.val).timed_eq s.time.run
  rw [hb]
  rfl

end

/-- Settles O43: a packet is judged by its lane's alignment and its validity, a due line by what is held of it at its time. -/
theorem referenceReceiver : Obligations.ReferenceReceiver := by
  unfold Obligations.ReferenceReceiver
  intro h input lane s
  exact ⟨fun _ => receiverAlignAcquire_aligns, fun _ => exec_receiverAlignAcquire_elsewhere, receiverAlignLoss_unaligns,
    fun _ _ => ⟨exec_receiverPacket_unaligned, receiverPacket_valid, receiverPacket_invalid⟩,
    exec_receiverLinePresent_none, fun _ _ => receiverLinePresent_shows,
    exec_receiverLossTimeout_blanked, receiverLossTimeout_blanks, receiverStatusSend_sends⟩

end Sys2Proof.Machine
end

section
/-! PROOFS. Belja lanes: the lane's state, packets, IDLE, wraps, schedule writes and swaps (R285, R287, R289, R299, R300, R311). -/

set_option autoImplicit false

namespace Sys2Proof.Machine

@[simp] theorem pg_bl_above (e : Nat) : 0xF000 ≤ pg .bl e := pg_above (by decide) e

/-! ### The state of a lane -/

section
variable (s : State) (e l : Nat)

theorem State.bl_of_find {s : State} {e l : Nat} {x : BlLane} (h : Store.find (64 * e + l) s.blLanes = some x) : s.bl e l = x := by
  rw [State.bl, h]
  rfl

@[simp] theorem State.find_setBl_self (x : BlLane) : Store.find (64 * e + l) (s.setBl e l x).blLanes = some x :=
  Store.find_put_self ..

@[simp] theorem State.bl_setBl_self (x : BlLane) : (s.setBl e l x).bl e l = x := State.bl_of_find (s.find_setBl_self e l x)

theorem State.find_setBl_ne {l l' : Nat} (h : l' ≠ l) (x : BlLane) :
    Store.find (64 * e + l') (s.setBl e l x).blLanes = Store.find (64 * e + l') s.blLanes :=
  Store.find_put_ne (by omega) _ _

/-- What a lane has queued is no matter of the registers, which a lane at rest takes its copy from. -/
theorem State.queue_of_blLanes {s t : State} (h : t.blLanes = s.blLanes) (e l : Nat) : (t.bl e l).queue = (s.bl e l).queue := by
  rw [State.bl, State.bl, h]
  cases Store.find (64 * e + l) s.blLanes <;> rfl

theorem State.blLanes_emit {q : Nat} (hq : 0xF000 ≤ q) (code : Nat) (data : List Nat) :
    (s.emit q code data).blLanes = s.blLanes := by
  rw [(State.emit_onlyRegsEv hq).1]

end

/-! ### Whether a lane carries Belja (R311, R312) -/

section
variable {s t : State} {l : Nat}

theorem State.lnRun_eq_two_iff : (s.lnRun l).1 = 2 ↔ s.mss.hold ≠ 3 ∧ s.quadBls (l / 4) ≠ [] ∧
    s.rd (lnP l) LN_CFG_PROTO = 1 ∧ beljaRate (s.rd (lnP l) LN_CFG_RATE) = true := by
  unfold State.lnRun
  dsimp only
  split
  next h => simp [h]
  next h =>
    split
    next hq =>
      have hq' : s.quadBls (l / 4) ≠ [] := by simpa using hq
      split
      next hp => simp [h, hq', hp]
      next hp => simpa [h, hq'] using hp
    next hq =>
      have hq' : s.quadBls (l / 4) = [] := by simpa using hq
      split
      · simp [hq']
      · split
        · simp [hq']
        · split <;> simp [hq']

/-- A lane that carries Belja runs at the rate of its LN_CFG. -/
theorem State.lnRun_of_belja (h : (s.lnRun l).1 = 2) : s.lnRun l = (2, s.rd (lnP l) LN_CFG_RATE) := by
  obtain ⟨hhold, hq, hp, hr⟩ := State.lnRun_eq_two_iff.1 h
  have hq' : (!(s.quadBls (l / 4)).isEmpty) = true := by simpa using hq
  unfold State.lnRun
  dsimp only
  rw [if_neg hhold, if_pos hq', if_pos ⟨hp, hr⟩]

/-- Whether a lane carries Belja is decided by the hold, the quads in use and the lane's LN_CFG. -/
theorem State.lnRun_eq_two_congr (hm : t.mss = s.mss) (hq : t.blQuads = s.blQuads)
    (hp : t.rd (lnP l) LN_CFG_PROTO = s.rd (lnP l) LN_CFG_PROTO) (hr : t.rd (lnP l) LN_CFG_RATE = s.rd (lnP l) LN_CFG_RATE) :
    (t.lnRun l).1 = 2 ↔ (s.lnRun l).1 = 2 := by
  rw [State.lnRun_eq_two_iff, State.lnRun_eq_two_iff, hm, hp, hr, State.quadBls, hq, State.quadBls]

theorem State.lnRun_advanceRun (x : Nat) (h : (s.lnRun l).1 = 2) : ((s.advanceRun x).lnRun l).1 = 2 := by
  have hrd : ∀ f, (s.advanceRun x).rd (lnP l) f = s.rd (lnP l) f := s.rd_advanceRun_above x (pg_ln_above l)
  obtain ⟨t, ht, -⟩ := s.advanceRun_spec x
  exact (State.lnRun_eq_two_congr (by rw [ht]) (by rw [ht]) (hrd _) (hrd _)).2 h

theorem State.lnLocked_advanceRun (x : Nat) (h : (s.lnRun l).1 = 2) : (s.advanceRun x).lnLocked l = s.lnLocked l := by
  have hon : ∀ f, (s.advanceRun x).on (quadP l) f = s.on (quadP l) f := fun f => by
    rw [State.on_eq, s.rd_advanceRun_above x (p := quadP l) (pg_ln_above _), State.on_eq]
  unfold State.lnLocked
  rw [State.lnRun_of_belja h, State.lnRun_of_belja (State.lnRun_advanceRun x h), s.rd_advanceRun_above x (pg_ln_above l)]
  simp only [hon]

end

/-! ### A packet goes out (R285, R287, R299, R311) -/

section
variable (s : State)

/-- What `t` has sent begins with what `s` has. -/
def sentSince (s t : State) : Prop := ∃ r, t.out = s.out ++ r

theorem State.out_cnt (p : Nat) (f : Fld) (n : Nat) : (s.cnt p f n).out = s.out := rfl

theorem sentSince_refl : sentSince s s := ⟨[], (List.append_nil _).symm⟩

theorem sentSince_emitOut (o : Out) : sentSince s (s.emitOut o) := ⟨[o], rfl⟩

theorem sentSince_of_out {s t u : State} (h : t.out = s.out) (hu : sentSince t u) : sentSince s u := by
  rwa [sentSince, ← h]

theorem sentSince_raisePage (p : Nat) : sentSince s (s.raisePage p) := by
  unfold State.raisePage State.raiseTarget State.raiseMsix
  dsimp only
  split
  · split
    · exact sentSince_refl s
    · exact sentSince_emitOut s _
  · split
    · split
      · exact sentSince_emitOut s _
      · exact sentSince_refl s
    · split
      · exact sentSince_emitOut s _
      · exact sentSince_refl s

theorem State.out_loftPut (off : Nat) (b : List Nat) : (s.loftPut off b).out = s.out := by
  rw [(State.loftPut_spec s off b).1]

theorem State.out_ringAppend (p : Nat) (r : Rec) : (s.ringAppend p r).out = s.out := by
  unfold State.ringAppend
  dsimp only
  split
  · rfl
  · split
    · exact s.out_loftPut _ _
    · exact (State.out_loftPut _ _ _).trans (s.out_loftPut _ _)

theorem State.out_dbkAppend (r : Rec) : (s.dbkAppend r).out = s.out := by
  unfold State.dbkAppend
  dsimp only
  split
  · rfl
  · split <;> rfl

/-- An event sends no more than its page's interrupt, after what has been sent. -/
theorem sentSince_emit (p code : Nat) (data : List Nat) : sentSince s (s.emit p code data) := by
  unfold State.emit State.emitAt
  extract_lets before r u v w x
  have hx : x.out = s.out := by
    rw [State.out_ringAppend]
    show (if _ then _ else _ : State).out = _
    split
    · exact State.out_dbkAppend ..
    · rfl
  split
  · exact (sentSince_raisePage x p).imp fun _ h => by rw [h, hx]
  · exact ⟨[], by rw [hx, List.append_nil]⟩

variable (e l : Nat) (q : BlPkt) (k : Option Nat)

/-- A packet sent goes out ahead of any event of its lateness, and the lane is busy with it. -/
theorem State.blSend_spec : (∃ r, (s.blSend e l q k).out = s.out ++ .belja l (packetGroups (s.blBytes q)) :: r) ∧
    ((s.blSend e l q k).bl e l).busy = s.time.run + s.pktTime l q.payload.length ∧ ((s.blSend e l q k).bl e l).slot = k ∧
    ((s.blSend e l q k).bl e l).queue = (s.bl e l).queue := by
  unfold State.blSend
  extract_lets p own fin u late v
  have hv : v.blLanes = s.blLanes ∧ sentSince u v := by
    unfold v
    split
    · exact ⟨State.blLanes_emit _ (pg_bl_above e) .., sentSince_of_out (State.out_cnt ..) (sentSince_emit ..)⟩
    · exact ⟨rfl, sentSince_refl u⟩
  obtain ⟨hlanes, r, hr⟩ := hv
  rw [State.bl_setBl_self]
  refine ⟨⟨r, ?_⟩, rfl, rfl, State.queue_of_blLanes hlanes e l⟩
  show v.out = _
  rw [hr]
  exact List.append_assoc ..

end

section
variable {s : State} {l : Fin 64}

theorem exec_beljaPacketSend_none (h : (s.lnRun l.val).1 ≠ 2 ∨ s.laneTurn l.val = none) :
    exec (.beljaPacketSend l) s = .next s := by
  have hturn : (if (s.lnRun l.val).1 = 2 then s.laneTurn l.val else none) = none := by
    split
    next hrun => exact h.resolve_left (not_not_intro hrun)
    next => rfl
  show execBeljaPacketSend l s = _
  simp only [execBeljaPacketSend, hturn]

/-- A lane on which no page has anything queued has no turn. -/
theorem State.laneTurn_none {i : Nat} (h : ∀ e, e < 4 → (s.bl e i).queue = []) : s.laneTurn i = none := by
  have hnone : ∀ p : BlPkt → Bool, ((s.quadBls (i / 4)).filter fun e => (s.bl e i).queue.any p) = [] := fun p =>
    List.filter_eq_nil_iff.2 fun e he => by
      have hlt : e < 4 := List.mem_range.1 (List.mem_of_mem_filter he)
      simp [h e hlt]
  unfold State.laneTurn
  simp only [hnone]
  rfl

variable {e : Nat} (hrun : (s.lnRun l.val).1 = 2) (hturn : s.laneTurn l.val = some e)
include hrun hturn

theorem exec_beljaPacketSend_noPick {v : State} (hpick : (s.laneFree l.val).blPick e l.val = (none, v)) :
    exec (.beljaPacketSend l) s = .next v := by
  show execBeljaPacketSend l s = _
  simp only [execBeljaPacketSend, hrun, hturn, hpick, if_true]

theorem exec_beljaPacketSend_pick {q : BlPkt} {k : Option Nat} {v : State}
    (hpick : (s.laneFree l.val).blPick e l.val = (some (q, k), v)) : exec (.beljaPacketSend l) s =
      .next (if v.lnLocked l.val then v.blSend e l.val q k else v.cnt (lnP l.val) LN_TX_DROP_COUNT 1) := by
  show execBeljaPacketSend l s = _
  simp only [execBeljaPacketSend, hrun, hturn, hpick, if_true]

end

/-! ### IDLE packets (R289) -/

section
variable {s : State}

theorem State.queue_blQueue {l : Nat} (hrun : (s.lnRun l).1 = 2) (hlock : s.lnLocked l = true) (e : Nat) (x : BlPkt) :
    ((s.blQueue e l x).bl e l).queue = (s.bl e l).queue ++ [x] := by
  unfold State.blQueue
  rw [if_pos ⟨hrun, hlock⟩, State.bl_setBl_self]

variable {l h : Fin 64}

theorem exec_beljaIdleTimer_off (hrun : (s.lnRun l.val).1 ≠ 2) : exec (.beljaIdleTimer l h) s = .next s :=
  congrArg Host.Outcome.next (if_pos (.inl hrun))

variable (hrun : (s.lnRun l.val).1 = 2) (hon : s.enabled (hdP h.val) = true)
  (hquad : (s.quadBls (l.val / 4)).contains (s.geoAct h.val).engine = true)
  (hhead : (s.laneHeads (s.geoAct h.val).engine l.val).contains h.val = true)
  (hnone : ∀ q ∈ (s.bl (s.geoAct h.val).engine l.val).queue, q.head ≠ h.val)
include hrun hon hquad hhead hnone

/-- At the end of its interval an IDLE packet of a head that has none queued is. -/
theorem exec_beljaIdleTimer_due : ∃ x y, exec (.beljaIdleTimer l h) s =
    .next ((s.advanceRun x).blQueue (s.geoAct h.val).engine l.val y) ∧ y.head = h.val ∧ y.typ = 5 ∧ y.group = 0xFFFC := by
  have hany : ((s.bl (s.geoAct h.val).engine l.val).queue.any fun (q : BlPkt) => decide (q.head = h.val)) = false := by
    simpa using hnone
  refine ⟨_, _, congrArg Host.Outcome.next (if_neg ?_), rfl, rfl, rfl⟩
  rw [hquad, hon, hhead, hany]
  simp [hrun]

theorem beljaIdleTimer_queues (hlock : s.lnLocked l.val = true) : completes (.beljaIdleTimer l h) s fun t =>
    ∃ y, (t.bl (s.geoAct h.val).engine l.val).queue = (s.bl (s.geoAct h.val).engine l.val).queue ++ [y] ∧
      y.head = h.val ∧ y.typ = 5 ∧ y.group = 0xFFFC := by
  obtain ⟨x, y, hexec, hy⟩ := exec_beljaIdleTimer_due hrun hon hquad hhead hnone
  refine ⟨_, hexec, y, ?_, hy⟩
  have hlanes : (s.advanceRun x).blLanes = s.blLanes := by
    obtain ⟨t, ht, -⟩ := s.advanceRun_spec x
    rw [ht]
  rw [State.queue_blQueue (State.lnRun_advanceRun x hrun) ((State.lnLocked_advanceRun x hrun).trans hlock),
    State.queue_of_blLanes hlanes]

end

/-! ### The end of a packet and the wrap (R300) -/

section
variable (s : State) (e l : Nat)

/-- A lane whose packet has ended: its slot is free, and the lane otherwise as it was. -/
theorem State.blSettle_cases : s.blSettle e l = s ∨ ∃ (u : State) (h : Option Nat), u.blLanes = s.blLanes ∧
    s.blSettle e l = u.setBl e l { s.bl e l with slot := none, held := h } := by
  unfold State.blSettle State.blEnd
  split
  · exact .inl rfl
  · dsimp only
    split
    · refine .inr ⟨_, none, ?_, rfl⟩
      rfl
    · exact .inr ⟨s, _, rfl, rfl⟩
    · exact .inl rfl

theorem State.copy_blSettle : ((s.blSettle e l).bl e l).copy = (s.bl e l).copy := by
  rcases s.blSettle_cases e l with h | ⟨u, x, -, h⟩
  · rw [h]
  · rw [h, State.bl_setBl_self]

theorem State.blLanes_swapDone : (s.swapDone e).blLanes = s.blLanes := by
  unfold State.swapDone
  dsimp only
  split
  · exact State.blLanes_emit _ (pg_bl_above e) ..
  · rfl

/-- A lane past its wrap: at slot 0, in the other copy where a swap was requested. -/
def BlLane.wrapped (x : BlLane) : BlLane :=
  { x with pos := 0, copy := x.copy != x.swap, swap := false }

theorem State.blLanes_laneWrap : (s.laneWrap e l).blLanes = (s.setBl e l (s.bl e l).wrapped).blLanes := by
  unfold State.laneWrap
  dsimp only
  split
  next h => rw [State.blLanes_swapDone, BlLane.wrapped, h, Bool.bne_true]
  next h => simp [BlLane.wrapped, Bool.eq_false_iff.2 h]

theorem State.pos_laneWrap : ((s.laneWrap e l).bl e l).pos = 0 := by
  have h : Store.find (64 * e + l) (s.laneWrap e l).blLanes = some (s.bl e l).wrapped := by
    rw [State.blLanes_laneWrap, State.find_setBl_self]
  rw [State.bl_of_find h]
  rfl

end

section
variable {s : State} {l : Fin 64}

theorem exec_blLaneWrap_off (hrun : (s.lnRun l.val).1 ≠ 2) : exec (.blLaneWrap l) s = .next s :=
  congrArg Host.Outcome.next (if_pos hrun)

theorem blLaneWrap_wraps {e : Nat} (hrun : (s.lnRun l.val).1 = 2) (hquad : s.quadBls (l.val / 4) = [e])
    (hnext : (s.laneFree l.val).nextSlot e l.val = none) :
    completes (.blLaneWrap l) s fun t => (t.bl e l.val).pos = 0 := by
  refine ⟨(s.laneFree l.val).laneWrap e l.val, ?_, State.pos_laneWrap ..⟩
  show execBlLaneWrap l s = _
  simp only [execBlLaneWrap, hrun, hquad, hnext, List.foldl_cons, List.foldl_nil]
  rfl

end

/-! ### Schedule words (R300) -/

section
variable (s : State) (e l : Nat) (copy : Bool)

/-- HEAD and VALID of a slot. -/
def State.slot (k : Nat) : Nat × Bool := (s.rd (blP e) (slotFlds copy l k).1, s.on (blP e) (slotFlds copy l k).2)

theorem State.slot_slotPut_self (k v : Nat) : (s.slotPut e copy l k v).slot e l copy k = (v % 64, bit v 7) := by
  unfold State.slotPut State.slot
  dsimp only
  rw [State.wb_eq, State.rd_wr_same, State.rd_wr_self, State.on_eq, State.rd_wr_self]
  · cases bit v 7 <;> simp [slotFlds, b2n]
  · simp only [slotFlds]
    omega

theorem State.slot_slotPut_ne {k k' : Nat} (h : k' ≠ k) (v : Nat) :
    (s.slotPut e copy l k v).slot e l copy k' = s.slot e l copy k' := by
  unfold State.slotPut State.slot
  dsimp only
  rw [State.wb_eq, State.on_eq, State.on_eq]
  have hrd : ∀ f, f = (slotFlds copy l k').1 ∨ f = (slotFlds copy l k').2 → ∀ a b,
      ((s.wr (blP e) (slotFlds copy l k).1 a).wr (blP e) (slotFlds copy l k).2 b).rd (blP e) f = s.rd (blP e) f := by
    intro f hf a b
    rw [State.rd_wr_same, State.rd_wr_same] <;>
    · rcases hf with rfl | rfl <;>
      · simp only [slotFlds]
        omega
  rw [hrd _ (.inl rfl), hrd _ (.inr rfl)]

variable (base v : Nat)

theorem State.slot_foldl_notMem {l' : List Nat} {j : Nat} (h : j ∉ l') :
    (l'.foldl (fun s i => s.slotPut e copy l (base + i) (bits v (8 * i) 8)) s).slot e l copy (base + j) =
      s.slot e l copy (base + j) := by
  induction l' generalizing s with
  | nil => rfl
  | cons i l' ih =>
    rw [List.mem_cons, not_or] at h
    rw [List.foldl_cons, ih _ h.2, State.slot_slotPut_ne _ _ _ _ (by omega)]

theorem State.slot_foldl_mem {l' : List Nat} (hl : l'.Nodup) {j : Nat} (h : j ∈ l') :
    (l'.foldl (fun s i => s.slotPut e copy l (base + i) (bits v (8 * i) 8)) s).slot e l copy (base + j) =
      (bits v (8 * j) 8 % 64, bit (bits v (8 * j) 8) 7) := by
  induction l' generalizing s with
  | nil => exact absurd h List.not_mem_nil
  | cons i l' ih =>
    rw [List.nodup_cons] at hl
    rw [List.foldl_cons]
    rcases List.mem_cons.1 h with rfl | h
    · rw [State.slot_foldl_notMem _ _ _ _ _ _ hl.1, State.slot_slotPut_self]
    · exact ih _ hl.2 h

theorem bits_eight_mod (lo : Nat) : bits v lo 8 % 64 = bits v lo 6 := Nat.mod_mod_of_dvd _ (by decide)

theorem bit_bits_eight (lo : Nat) : bit (bits v lo 8) 7 = bit v (lo + 7) := by
  rw [bits, bit_mod_two_pow (by decide), bit, bit, Nat.div_div_eq_div_mul, pow_add]

/-- A write to a schedule word of the copy not in use writes its four slots, once a packet over by now has let its slot go. -/
theorem State.schedWrite_other {l : Nat} (hcopy : copy ≠ (s.bl e l).copy) (hi : Bool) : s.schedWrite e copy l hi v =
    (upTo 4).foldl (fun s i => s.slotPut e copy l ((if hi then 4 else 0) + i) (bits v (8 * i) 8)) (s.blSettle e l) := by
  have hne : (copy != ((s.blSettle e l).bl e l).copy) = true := by
    rw [State.copy_blSettle]
    exact bne_iff_ne.2 hcopy
  unfold State.schedWrite
  dsimp only
  rw [if_pos hne]
  simp only [reduceCtorEq, if_false]

end

theorem blSchedWrite_takes {s : State} (w : Writer) {e : Fin 4} {copy : Bool} {l : Fin 64} (hi : Bool) (v : Word)
    (hfence : s.pageFenced .bl e.val = false) (hcopy : copy ≠ (s.bl e.val l.val).copy) :
    completes (.blSchedWrite w e copy l hi v) s fun t => ∀ j, j < 4 →
      let f := slotFlds copy l.val ((if hi then 4 else 0) + j)
      t.rd (blP e.val) f.1 = bits v.toNat (8 * j) 6 ∧ t.on (blP e.val) f.2 = bit v.toNat (8 * j + 7) := by
  refine ⟨_, congrArg Host.Outcome.next (if_neg (by simp [hfence])), fun j hj => ?_⟩
  have hslot := State.slot_foldl_mem (s.blSettle e.val l.val) e.val l.val copy (if hi then 4 else 0) v.toNat
    List.nodup_range (List.mem_range.2 hj)
  rw [bits_eight_mod, bit_bits_eight] at hslot
  rw [State.schedWrite_other _ _ _ _ hcopy]
  exact Prod.ext_iff.1 hslot

/-! ### Swaps (R300) -/

section
variable (s : State) (e : Nat)

theorem State.blRun_wb_swap (b : Bool) : (s.wb (blP e) BL_SCHED_CTRL_SWAP b).blRun e = s.blRun e := by
  have hrd : ∀ l g, g = LN_CFG_PROTO ∨ g = LN_CFG_RATE →
      (s.wb (blP e) BL_SCHED_CTRL_SWAP b).rd (lnP l) g = s.rd (lnP l) g := by
    rintro l g (rfl | rfl) <;>
    · refine State.rd_wr_key ?_
      simp only [fkey, pg_bl, pg_ln, LN_CFG_PROTO, LN_CFG_RATE, BL_SCHED_CTRL_SWAP]
      omega
  refine List.filter_congr fun l _ => ?_
  rw [decide_eq_decide]
  exact State.lnRun_eq_two_congr rfl rfl (hrd l _ (.inl rfl)) (hrd l _ (.inr rfl))

/-- Lane `l` of page `e` waits in copy `a` for its wrap, or has swapped to the other. -/
def swapAsked (e : Nat) (a : Bool) (l : Nat) (s : State) : Prop :=
  ∃ x, Store.find (64 * e + l) s.blLanes = some x ∧ x.swap = (x.copy == a)

variable {s e} {t : State} {a : Bool} {b l : Nat}

theorem swapAsked_of_blLanes (h : t.blLanes = s.blLanes) (hs : swapAsked e a b s) : swapAsked e a b t := by
  rwa [swapAsked, h]

/-- A lane written keeps the promise of each if its own state does. -/
theorem swapAsked_setBl {x : BlLane} (hx : b = l → x.swap = (x.copy == a)) (hs : b ≠ l → swapAsked e a b s) :
    swapAsked e a b (s.setBl e l x) := by
  by_cases h : b = l
  · subst h
    exact ⟨x, State.find_setBl_self .., hx rfl⟩
  · obtain ⟨y, hy, hya⟩ := hs h
    exact ⟨y, (State.find_setBl_ne s e h x).trans hy, hya⟩

theorem swapAsked.bl (h : swapAsked e a l s) : (s.bl e l).swap = ((s.bl e l).copy == a) := by
  obtain ⟨x, hx, hxa⟩ := h
  rw [State.bl_of_find hx, hxa]

theorem swapAsked_blSettle (h : swapAsked e a b s) : swapAsked e a b (s.blSettle e l) := by
  rcases s.blSettle_cases e l with heq | ⟨u, y, hu, heq⟩
  · rwa [heq]
  · rw [heq]
    refine swapAsked_setBl (fun hb => ?_) fun _ => swapAsked_of_blLanes hu h
    subst hb
    exact h.bl

/-- A lane that waits has swapped past its wrap. -/
theorem swapAsked_laneWrap (hswap : (s.bl e l).swap = true) (h : swapAsked e a b s) : swapAsked e a b (s.laneWrap e l) := by
  refine swapAsked_of_blLanes (s.blLanes_laneWrap e l) (swapAsked_setBl (fun hb => ?_) fun _ => h)
  subst hb
  have hbl := h.bl
  rw [hswap] at hbl
  simp [BlLane.wrapped, hswap, beq_iff_eq.1 hbl.symm]

/-- A swap is asked of lane `l`, which stands in copy `a`. -/
def State.swapAsk (e : Nat) (a : Bool) (s : State) (l : Nat) : State := s.setBl e l { s.bl e l with copy := a, swap := true }

theorem swapAsked_foldl_swapAsk {ls : List Nat} (h : b ∈ ls ∨ swapAsked e a b s) :
    swapAsked e a b (ls.foldl (State.swapAsk e a) s) := by
  induction ls generalizing s with
  | nil => exact h.resolve_left List.not_mem_nil
  | cons l ls ih =>
    refine ih ?_
    rw [List.mem_cons, or_assoc] at h
    by_cases hb : b = l
    · exact .inr (swapAsked_setBl (fun _ => (beq_self_eq_true a).symm) fun hne => absurd hb hne)
    · exact (h.resolve_left hb).imp_right fun hs => swapAsked_setBl (fun heq => absurd heq hb) fun _ => hs

/-- A lane with nothing to send swaps at once. -/
def State.swapIdle (e : Nat) (s : State) (l : Nat) : State :=
  let s := s.blSettle e l
  if (s.bl e l).swap ∧ s.laneBusy l ≤ s.time.run ∧ (s.bl e l).queue.isEmpty then s.laneWrap e l else s

theorem swapAsked_foldl_swapIdle {ls : List Nat} (h : swapAsked e a b s) : swapAsked e a b (ls.foldl (State.swapIdle e) s) := by
  induction ls generalizing s with
  | nil => exact h
  | cons l ls ih =>
    refine ih ?_
    unfold State.swapIdle
    dsimp only
    split
    next hidle => exact swapAsked_laneWrap hidle.1 (swapAsked_blSettle h)
    next => exact swapAsked_blSettle h

end

section
variable {s : State} (w : Writer) {e : Fin 4}

theorem exec_blSchedSwapRequest_again (hfence : s.pageFenced .bl e.val = false)
    (hswap : s.on (blP e.val) BL_SCHED_CTRL_SWAP = true) : exec (.blSchedSwapRequest w e) s = .next s :=
  congrArg Host.Outcome.next ((if_neg (by simp [hfence])).trans (if_pos hswap))

variable (hfence : s.pageFenced .bl e.val = false) (hswap : s.on (blP e.val) BL_SCHED_CTRL_SWAP = false)
include hfence hswap

theorem exec_blSchedSwapRequest_refused {a b : Nat}
    (hslot : s.slotless e.val (fun _ => !s.on (blP e.val) BL_SCHED_CTRL_ACTIVE) (fun _ => true) = some (a, b)) :
    exec (.blSchedSwapRequest w e) s = .next (s.emit (blP e.val) 0x0801 [a, b, 0]) := by
  show execBlSchedSwapRequest w e s = _
  simp only [execBlSchedSwapRequest, hfence, hswap, hslot]
  rfl

theorem exec_blSchedSwapRequest_asks
    (hslot : s.slotless e.val (fun _ => !s.on (blP e.val) BL_SCHED_CTRL_ACTIVE) (fun _ => true) = none) :
    exec (.blSchedSwapRequest w e) s = .next (((s.blRun e.val).foldl (State.swapIdle e.val)
      ((s.blRun e.val).foldl (State.swapAsk e.val (s.on (blP e.val) BL_SCHED_CTRL_ACTIVE))
        (s.wb (blP e.val) BL_SCHED_CTRL_SWAP true))).swapDone e.val) := by
  have hrun := s.blRun_wb_swap e.val true
  show execBlSchedSwapRequest w e s = _
  simp only [execBlSchedSwapRequest, hfence, hswap, hslot, hrun, Bool.not_not]
  rfl

theorem blSchedSwapRequest_waits
    (hslot : s.slotless e.val (fun _ => !s.on (blP e.val) BL_SCHED_CTRL_ACTIVE) (fun _ => true) = none) :
    completes (.blSchedSwapRequest w e) s fun t => ∀ a ∈ s.blRun e.val,
      (t.bl e.val a).swap = ((t.bl e.val a).copy == s.on (blP e.val) BL_SCHED_CTRL_ACTIVE) :=
  ⟨_, exec_blSchedSwapRequest_asks w hfence hswap hslot, fun _ ha => swapAsked.bl (swapAsked_of_blLanes
    (State.blLanes_swapDone ..) (swapAsked_foldl_swapIdle (swapAsked_foldl_swapAsk (.inl ha))))⟩

end

/-- Settles O42: a packet goes out ahead of the event of its lateness, which leaves the lanes alone; the clock's advance leaves what a
lane carries; and a lane asked to swap waits in the copy in use until its wrap takes it to the other. -/
theorem beljaLanes : Obligations.BeljaLanes := by
  unfold Obligations.BeljaLanes
  intro w l s
  refine ⟨exec_beljaPacketSend_none, fun h => exec_beljaPacketSend_none (.inr (State.laneTurn_none h)),
    fun e hrun hturn => ⟨fun v => exec_beljaPacketSend_noPick hrun hturn, fun q k v hpick => ⟨fun hlost => ?_, fun hlock => ?_⟩⟩,
    fun h hrun hlock hon hquad hhead hnone => beljaIdleTimer_queues hrun hon hquad hhead hnone hlock,
    fun h hrun => ⟨exec_beljaIdleTimer_off hrun, exec_blLaneWrap_off hrun⟩, fun e => blLaneWrap_wraps,
    fun e copy hi v => blSchedWrite_takes w hi v, fun e hfence hswap => ⟨fun a b => exec_blSchedSwapRequest_refused w hfence hswap,
    blSchedSwapRequest_waits w hfence hswap⟩, fun e => exec_blSchedSwapRequest_again w⟩
  · rw [exec_beljaPacketSend_pick hrun hturn hpick, hlost]
    rfl
  · refine ⟨v.blSend e l.val q k, ?_, State.blSend_spec ..⟩
    rw [exec_beljaPacketSend_pick hrun hturn hpick, hlock]
    rfl

end Sys2Proof.Machine
end

section
/-! PROOFS. A step runs the front command, every command goes on, and each keeps the queue and the canonical memories. -/

set_option autoImplicit false

namespace Sys2Proof.Machine

/-- Every meaning is wrapped in `done`: the arm of each command answers a next state. -/
theorem exec_next (c : Instr) (s : State) : ∃ t, exec c s = .next t := by
  cases c <;> exact ⟨_, rfl⟩

/-- Each command's meaning keeps the queue and the canonical memories (`Keeps`), by the law of that meaning. -/
theorem exec_keeps {r s : State} (c : Instr) (hk : Keeps r s) : KeepsOut r (exec c s) := by
  cases c with
  | registerWrite w addr v => exact execRegisterWrite_keeps w addr v hk
  | rcCounterRead w addr => exact execRcCounterRead_keeps w addr hk
  | latchingRead w addr => exact execLatchingRead_keeps w addr hk
  | enableWrite w page v => exact execEnableWrite_keeps w page v hk
  | softReset w page en => exact execSoftReset_keeps w page en hk
  | pageLock w page => exact execPageLock_keeps w page hk
  | evtPendClear w page v => exact execEvtPendClear_keeps w page v hk
  | ringEnable w page rpt v => exact execRingEnable_keeps w page rpt v hk
  | msixUnmask w vec => exact execMsixUnmask_keeps w vec hk
  | ownerWrite w idx v => exact execOwnerWrite_keeps w idx v hk
  | ownEntryLock w idx => exact execOwnEntryLock_keeps w idx hk
  | selfTestDone t => exact execSelfTestDone_keeps t hk
  | nodeWrite w v => exact execNodeWrite_keeps w v hk
  | fabricRequest m fid k addr len data tag => exact execFabricRequest_keeps m fid k addr len data tag hk
  | slotGrant t => exact execSlotGrant_keeps t hk
  | fabricResponse tag => exact execFabricResponse_keeps tag hk
  | guardRuleWrite w g off v => exact execGuardRuleWrite_keeps w g off v hk
  | guardDrained g => exact execGuardDrained_keeps g hk
  | guardRegionLock w g k => exact execGuardRegionLock_keeps w g k hk
  | hitTake w n => exact execHitTake_keeps w n hk
  | hitRelease w n rel => exact execHitRelease_keeps w n rel hk
  | hitWait w slot n tmo => exact execHitWait_keeps w slot n tmo hk
  | hitWaitCancel w slot => exact execHitWaitCancel_keeps w slot hk
  | hitWaitTimeout slot => exact execHitWaitTimeout_keeps slot hk
  | hitWaitRead w slot => exact execHitWaitRead_keeps w slot hk
  | ownerEpochIncrement slot => exact execOwnerEpochIncrement_keeps slot hk
  | dmcTokenTake n => exact execDmcTokenTake_keeps n hk
  | dmcCommandIssue n => exact execDmcCommandIssue_keeps n hk
  | dmcTokWrite w n m v => exact execDmcTokWrite_keeps w n m v hk
  | refreshInterval n => exact execRefreshInterval_keeps n hk
  | refreshIssue n rank sub => exact execRefreshIssue_keeps n rank sub hk
  | mr4Poll n hot => exact execMr4Poll_keeps n hot hk
  | dramInitDone n => exact execDramInitDone_keeps n hk
  | srEntryRequest w n => exact execSrEntryRequest_keeps w n hk
  | srEntry n => exact execSrEntry_keeps n hk
  | srExitRequest n cause => exact execSrExitRequest_keeps n cause hk
  | srExit n => exact execSrExit_keeps n hk
  | retrainCheck n => exact execRetrainCheck_keeps n hk
  | retrainNow w n => exact execRetrainNow_keeps w n hk
  | retrainStep n ok => exact execRetrainStep_keeps n ok hk
  | scrubRead n => exact execScrubRead_keeps n hk
  | qosSlotWrite w n copyB slot v => exact execQosSlotWrite_keeps w n copyB slot v hk
  | qosSlotSwapRequest w n => exact execQosSlotSwapRequest_keeps w n hk
  | qosSlotBoundary n => exact execQosSlotBoundary_keeps n hk
  | loftServe port => exact execLoftServe_keeps port hk
  | loftScrub word => exact execLoftScrub_keeps word hk
  | loftPartWrite w p v => exact execLoftPartWrite_keeps w p v hk
  | bayDescWrite w b word v => exact execBayDescWrite_keeps w b word v hk
  | bayEnlist w b enlist => exact execBayEnlist_keeps w b enlist hk
  | bayAlloc w cls => exact execBayAlloc_keeps w cls hk
  | bayFree w b gen => exact execBayFree_keeps w b gen hk
  | bayForceFree w b gen => exact execBayForceFree_keeps w b gen hk
  | apertureOpen w a b gen => exact execApertureOpen_keeps w a b gen hk
  | apertureClose w a => exact execApertureClose_keeps w a hk
  | timeStepRequest w hi => exact execTimeStepRequest_keeps w hi hk
  | stepAccept w key => exact execStepAccept_keeps w key hk
  | stepDiscard w key => exact execStepDiscard_keeps w key hk
  | tbRateWrite w v => exact execTbRateWrite_keeps w v hk
  | servoStateWrite w v => exact execServoStateWrite_keeps w v hk
  | holdoverExpire => exact execHoldoverExpire_keeps hk
  | sfdDetect port align => exact execSfdDetect_keeps port align hk
  | entryLatch => exact execEntryLatch_keeps hk
  | latencyCountSaturate e => exact execLatencyCountSaturate_keeps e hk
  | txqPop w => exact execTxqPop_keeps w hk
  | tiCapture pin edge => exact execTiCapture_keeps pin edge hk
  | timeOutputArm w j => exact execTimeOutputArm_keeps w j hk
  | timeOutputEdge j => exact execTimeOutputEdge_keeps j hk
  | timeOutputPulseEnd j => exact execTimeOutputPulseEnd_keeps j hk
  | netFrameReceive port fr ago => exact execNetFrameReceive_keeps port fr ago hk
  | netFrameTransmit port bytes stamp => exact execNetFrameTransmit_keeps port bytes stamp hk
  | unmatchedReply => exact execUnmatchedReply_keeps hk
  | netLinkChange port up fec => exact execNetLinkChange_keeps port up fec hk
  | feedDescWrite w f word v => exact execFeedDescWrite_keeps w f word v hk
  | feedEnable w f v => exact execFeedEnable_keeps w f v hk
  | feedDisable w f v => exact execFeedDisable_keeps w f v hk
  | rtpPacket f => exact execRtpPacket_keeps f hk
  | auTimeout f => exact execAuTimeout_keeps f hk
  | auAdmit f => exact execAuAdmit_keeps f hk
  | senderReport f => exact execSenderReport_keeps f hk
  | receiverReportSend f => exact execReceiverReportSend_keeps f hk
  | membershipReport port f => exact execMembershipReport_keeps port f hk
  | membershipQuery => exact execMembershipQuery_keeps hk
  | feedSilent f => exact execFeedSilent_keeps f hk
  | decPictureStart n switch => exact execDecPictureStart_keeps n switch hk
  | auRecordConsume n => exact execAuRecordConsume_keeps n hk
  | decPictureDone n feed => exact execDecPictureDone_keeps n feed hk
  | candidateExpire f => exact execCandidateExpire_keeps f hk
  | decSlotWrite w n copyB slot v => exact execDecSlotWrite_keeps w n copyB slot v hk
  | decSlotSwapRequest w n => exact execDecSlotSwapRequest_keeps w n hk
  | decFlush w n f => exact execDecFlush_keeps w n f hk
  | stallDescWrite w n word v => exact execStallDescWrite_keeps w n word v hk
  | canvasCommit w e c => exact execCanvasCommit_keeps w e c hk
  | epochCut e c => exact execEpochCut_keeps e c hk
  | epochCommit e c ack led => exact execEpochCommit_keeps e c ack led hk
  | epochWritesDrain e c => exact execEpochWritesDrain_keeps e c hk
  | headCommit w h => exact execHeadCommit_keeps w h hk
  | commitWindowClose h => exact execCommitWindowClose_keeps h hk
  | frameStart h => exact execFrameStart_keeps h hk
  | endOfActive h => exact execEndOfActive_keeps h hk
  | lineDue h => exact execLineDue_keeps h hk
  | scanoutReadComplete h => exact execScanoutReadComplete_keeps h hk
  | headDisable w h => exact execHeadDisable_keeps w h hk
  | crcHoldClear w e hi v => exact execCrcHoldClear_keeps w e hi v hk
  | beljaPacketSend l => exact execBeljaPacketSend_keeps l hk
  | beljaIdleTimer l h => exact execBeljaIdleTimer_keeps l h hk
  | blSchedWrite w e copy l hi v => exact execBlSchedWrite_keeps w e copy l hi v hk
  | blSchedSwapRequest w e => exact execBlSchedSwapRequest_keeps w e hk
  | blLaneWrap l => exact execBlLaneWrap_keeps l hk
  | receiverAlignAcquire h input lane => exact execReceiverAlignAcquire_keeps h input lane hk
  | receiverAlignLoss h input lane => exact execReceiverAlignLoss_keeps h input lane hk
  | receiverPacket h input lane clean d => exact execReceiverPacket_keeps h input lane clean d hk
  | receiverLinePresent h => exact execReceiverLinePresent_keeps h hk
  | receiverLossTimeout h => exact execReceiverLossTimeout_keeps h hk
  | receiverStatusSend h => exact execReceiverStatusSend_keeps h hk
  | pllLocked q k => exact execPllLocked_keeps q k hk
  | pllLost q k => exact execPllLost_keeps q k hk
  | pllRetry q k => exact execPllRetry_keeps q k hk
  | losChange l los => exact execLosChange_keeps l los hk
  | patternCheckLock l rx good more => exact execPatternCheckLock_keeps l rx good more hk
  | injectOne w l => exact execInjectOne_keeps w l hk
  | cvuDataWrite w u v => exact execCvuDataWrite_keeps w u v hk
  | cvuDataBWrite w u v => exact execCvuDataBWrite_keeps w u v hk
  | cvuEnd w u => exact execCvuEnd_keeps w u hk
  | cvuSnoopBlock u k => exact execCvuSnoopBlock_keeps u k hk
  | cvuResultPop w u => exact execCvuResultPop_keeps w u hk
  | encChannelEnable w p k v => exact execEncChannelEnable_keeps w p k v hk
  | tapRecordComplete p k => exact execTapRecordComplete_keeps p k hk
  | encPictureStart p => exact execEncPictureStart_keeps p hk
  | encPictureDone p c => exact execEncPictureDone_keeps p c hk
  | encStreamSend p k port sr => exact execEncStreamSend_keeps p k port sr hk
  | scanFrameStart p => exact execScanFrameStart_keeps p hk
  | scanFrameEnd p m lcur lcand => exact execScanFrameEnd_keeps p m lcur lcand hk
  | keyFrame counts => exact execKeyFrame_keeps counts hk
  | ykLower w v => exact execYkLower_keeps w v hk
  | ykSet w v => exact execYkSet_keeps w v hk
  | yokeTrain aligned => exact execYokeTrain_keeps aligned hk
  | yokeFrameReceive bytes fr => exact execYokeFrameReceive_keeps bytes fr hk
  | yokeAckTimer => exact execYokeAckTimer_keeps hk
  | yokeReplayTimeout v => exact execYokeReplayTimeout_keeps v hk
  | yokeSilenceTimeout => exact execYokeSilenceTimeout_keeps hk
  | yokeRetry => exact execYokeRetry_keeps hk
  | yokeTimeSend => exact execYokeTimeSend_keeps hk
  | yokeJoinStart => exact execYokeJoinStart_keeps hk
  | fwdDrop => exact execFwdDrop_keeps hk
  | mergeEmit => exact execMergeEmit_keeps hk
  | mergeMarkSend => exact execMergeMarkSend_keeps hk
  | checkHoldExpire => exact execCheckHoldExpire_keeps hk
  | samplesLost p => exact execSamplesLost_keeps p hk
  | heartbeat => exact execHeartbeat_keeps hk
  | setClaim m => exact execSetClaim_keeps m hk
  | mssBootStage ok => exact execMssBootStage_keeps ok hk
  | lockstep a b => exact execLockstep_keeps a b hk
  | mssWatchdogExpire => exact execMssWatchdogExpire_keeps hk
  | watchdogKick w => exact execWatchdogKick_keeps w hk
  | sensorSample temps volts => exact execSensorSample_keeps temps volts hk
  | logEmit w code => exact execLogEmit_keeps w code hk
  | dbkClear w => exact execDbkClear_keeps w hk
  | sagDetect rail => exact execSagDetect_keeps rail hk
  | sagTail => exact execSagTail_keeps hk
  | saveDone us resp => exact execSaveDone_keeps us resp hk
  | sagRestart => exact execSagRestart_keeps hk
  | vholdCollapse => exact execVholdCollapse_keeps hk
  | vholdChargeChange mv => exact execVholdChargeChange_keeps mv hk
  | mirrorBatch resp how => exact execMirrorBatch_keeps resp how hk
  | farrierTriggerCheck => exact execFarrierTriggerCheck_keeps hk
  | farrierRunRequest w => exact execFarrierRunRequest_keeps w hk
  | farrierRunEnd a b vrefBad crefBad => exact execFarrierRunEnd_keeps a b vrefBad crefBad hk
  | farrierValueWrite w ix v => exact execFarrierValueWrite_keeps w ix v hk
  | updateOpen r => exact execUpdateOpen_keeps r hk
  | slotEraseDone => exact execSlotEraseDone_keeps hk
  | updateBlock r => exact execUpdateBlock_keeps r hk
  | blockWriteDone => exact execBlockWriteDone_keeps hk
  | updateClose r => exact execUpdateClose_keeps r hk
  | verifyDone norOk => exact execVerifyDone_keeps norOk hk
  | updateAbort r => exact execUpdateAbort_keeps r hk
  | updateActivate r norOk => exact execUpdateActivate_keeps r norOk hk
  | activateGraceExpire => exact execActivateGraceExpire_keeps hk
  | updateStatus r => exact execUpdateStatus_keeps r hk
  | updateRecover w => exact execUpdateRecover_keeps w hk
  | slotCopyDone fail => exact execSlotCopyDone_keeps fail hk
  | updateHandover w => exact execUpdateHandover_keeps w hk
  | handoverInterrupt => exact execHandoverInterrupt_keeps hk
  | handoverReady w => exact execHandoverReady_keeps w hk
  | handoverTimeout => exact execHandoverTimeout_keeps hk
  | stableRequest w => exact execStableRequest_keeps w hk
  | stabled => exact execStabled_keeps hk
  | wakeRequest w => exact execWakeRequest_keeps w hk
  | wakeAlarm => exact execWakeAlarm_keeps hk
  | wakeComplete => exact execWakeComplete_keeps hk
  | droverRelease => exact execDroverRelease_keeps hk
  | powerOnReset => exact execPowerOnReset_keeps hk
  | resetNAssert => exact execResetNAssert_keeps hk
  | resetRelease pfailLow recoveryLow => exact execResetRelease_keeps pfailLow recoveryLow hk
  | sysResetGo w => exact execSysResetGo_keeps w hk
  | pciReset kind => exact execPciReset_keeps kind hk
  | pllFail k => exact execPllFail_keeps k hk
  | refClockChange ix found => exact execRefClockChange_keeps ix found hk
  | pcieLinkChange up speed width => exact execPcieLinkChange_keeps up speed width hk
  | pcieCompletionTimeout tag => exact execPcieCompletionTimeout_keeps tag hk
  | dmaTailWrite w idx => exact execDmaTailWrite_keeps w idx hk
  | dmaDescriptorDone => exact execDmaDescriptorDone_keeps hk
  | dmaResume w => exact execDmaResume_keeps w hk
  | gpioWrite w oe k v => exact execGpioWrite_keeps w oe k v hk
  | testUnlock w key => exact execTestUnlock_keeps w key hk
  | testRelock w => exact execTestRelock_keeps w hk
  | testSeedWrite w v => exact execTestSeedWrite_keeps w v hk
  | muxTake w k ball signal => exact execMuxTake_keeps w k ball signal hk
  | muxReturn w k ball signal => exact execMuxReturn_keeps w k ball signal hk
  | debugRequest k addr len data => exact execDebugRequest_keeps k addr len data hk
  | slewAbsorbed => exact execSlewAbsorbed_keeps hk
  | feedDegradedLapse f => exact execFeedDegradedLapse_keeps f hk
  | vminReached h => exact execVminReached_keeps h hk
  | devicePllLock k => exact execDevicePllLock_keeps k hk
  | codecPllIdleStop => exact execCodecPllIdleStop_keeps hk
  | cdrLockChange l locked => exact execCdrLockChange_keeps l locked hk

theorem step_of_nil {s : State} (h : s.pending = []) : step s = .next s.tick := by
  rw [step, h]

theorem step_of_cons {s : State} {c : Instr} {rest : List Instr} (h : s.pending = c :: rest) :
    step s = exec c { s with pending := rest } := by
  rw [step, h]

/-- Settles O1: the step's two cases are the queue's. -/
theorem stepRunsTheFrontCommand : Obligations.StepRunsTheFrontCommand :=
  ⟨fun _ _ _ => step_of_cons, fun _ _ => step_of_cons rfl, fun _ => step_of_nil⟩

/-- Settles O2: no arm of `exec` faults or refuses. -/
theorem everyCommandGoesOn : Obligations.EveryCommandGoesOn :=
  fun c s => ⟨exec_next c s, exec_next c s⟩

/-- Settles O3: the first half of what each meaning keeps. -/
theorem commandsKeepTheQueue : Obligations.CommandsKeepTheQueue :=
  fun c s _ h => (exec_keeps c (keeps_refl s) _ h).1

/-- A tick of the clock keeps what a command does. -/
theorem tick_keeps (s : State) : Keeps s s.tick := by
  rw [State.tick]
  exact State.clockEdge_keeps (keeps_refl s)

/-- Taking a command off the queue leaves the memories alone. -/
theorem memWf_pending (s : State) (l : List Instr) : ({ s with pending := l } : State).memWf = s.memWf := rfl

/-- Settles O5: a step is a tick of the clock, which touches no memory, or a command, whose meaning keeps the memories canonical. -/
theorem stepKeepsMemoriesCanonical : Obligations.StepKeepsMemoriesCanonical := by
  intro s t hwf hstep
  cases hq : s.pending with
  | nil =>
    have htick : s.tick = t := Host.Outcome.next.inj ((step_of_nil hq).symm.trans hstep)
    rw [← htick]
    exact (tick_keeps s).2 hwf
  | cons c rest =>
    have hexec := (step_of_cons hq).symm.trans hstep
    have hkeeps := exec_keeps c (keeps_refl _) t hexec
    rw [← memWf_pending s rest] at hwf
    exact hkeeps.2 hwf

end Sys2Proof.Machine
end

section
/-! PROOFS. What an event of any page leaves alone (R47 to R54): all of the state but the registers, the loft, the daybook, the record
counts and the emissions; and of the registers, the fields beyond EVT_RAW of the pages other than the daybook's and the MSI-X ones. -/

set_option autoImplicit false

namespace Sys2Proof.Machine

/-! ### A command's next state -/

theorem completes_of {c : Instr} {s t : State} {P : State → Prop} (h : exec c s = .next t) (hP : P t) : completes c s P := ⟨t, h, hP⟩

theorem completes_of_forall {c : Instr} {s : State} {P : State → Prop} (h : ∀ t, exec c s = .next t → P t) : completes c s P := by
  obtain ⟨t, ht⟩ := exec_next c s
  exact ⟨t, ht, h t ht⟩

/-! ### The state beside what an event writes -/

/-- The state with what registers, events and emissions change taken out. -/
def State.core (s : State) : State :=
  { s with regs := [], evSeq := [], dbk := [], loft := [], loftSyn := [], out := [] }

section
variable (s : State) (p q v : Nat) (f : Fld)

@[simp] theorem State.core_wr : (s.wr p f v).core = s.core := by
  unfold State.wr
  rfl

@[simp] theorem State.core_wb (b : Bool) : (s.wb p f b).core = s.core := s.core_wr ..
@[simp] theorem State.core_cnt : (s.cnt p f v).core = s.core := s.core_wr ..
@[simp] theorem State.core_inc : (s.inc p f v).core = s.core := s.core_wr ..
@[simp] theorem State.core_wr64 (g : Fld) : (s.wr64 p f g v).core = s.core := (State.core_wr ..).trans (s.core_wr ..)
@[simp] theorem State.core_emitOut (o : Out) : (s.emitOut o).core = s.core := rfl

@[simp] theorem State.core_ite (c : Prop) [Decidable c] (t u : State) :
    (if c then t else u).core = if c then t.core else u.core := apply_ite _ _ _ _

@[simp] theorem State.core_foldl {α : Type} {step : State → α → State} (l : List α) (h : ∀ u x, (step u x).core = u.core) :
    (l.foldl step s).core = s.core := by
  induction l generalizing s with
  | nil => rfl
  | cons x l ih => rw [List.foldl_cons, ih, h]

@[simp] theorem State.core_loftPut (off : Nat) (b : List Nat) : (s.loftPut off b).core = s.core := by
  rw [(State.loftPut_spec s off b).1]
  rfl

@[simp] theorem State.core_ringAppend (r : Rec) : (s.ringAppend q r).core = s.core := by
  simp [State.ringAppend, State.ringPut, State.loftPutLE]

@[simp] theorem State.core_dbkAppend (r : Rec) : (s.dbkAppend r).core = s.core := by
  have hdbk : ∀ d : Store Rec, ({ s with dbk := d } : State).core = s.core := fun _ => rfl
  simp [State.dbkAppend, hdbk]

@[simp] theorem State.core_raisePage : (s.raisePage q).core = s.core := by
  simp [State.raisePage, State.raiseTarget, State.raiseMsix]

@[simp] theorem State.core_emitAt (n code : Nat) (data : List Nat) : (s.emitAt q n code data).core = s.core := by
  have hseq : ∀ m : Store Nat, ({ s with evSeq := m } : State).core = s.core := fun _ => rfl
  simp [State.emitAt, hseq]

@[simp] theorem State.core_emit (code : Nat) (data : List Nat) : (s.emit q code data).core = s.core := s.core_emitAt ..

end

/-- What each step of a fold leaves, the fold leaves. -/
theorem foldl_leaves {α β : Type} {g : State → β} {step : State → α → State} {l : List α}
    (h : ∀ u, ∀ x ∈ l, g (step u x) = g u) (s : State) : g (l.foldl step s) = g s := by
  induction l generalizing s with
  | nil => rfl
  | cons x l ih =>
    rw [List.foldl_cons, ih fun u y hy => h u y (List.mem_cons_of_mem x hy), h s x List.mem_cons_self]

/-- What each step of a fold keeps, the fold keeps. -/
theorem foldl_keeps {α : Type} {P : State → Prop} {step : State → α → State} {l : List α}
    (h : ∀ u, ∀ x ∈ l, P u → P (step u x)) {s : State} (hs : P s) : P (l.foldl step s) := by
  induction l generalizing s with
  | nil => exact hs
  | cons x l ih => exact ih (fun u y hy => h u y (List.mem_cons_of_mem x hy)) (h s x List.mem_cons_self hs)

/-- What reads nothing of an event's writing reads alike in states of one core. -/
theorem eq_of_core {α : Type} (g : State → α) (hg : ∀ u : State, g u.core = g u) {s t : State} (h : t.core = s.core) :
    g t = g s := by
  rw [← hg t, h, hg]

theorem onlyRegsEv.core_eq {s t : State} {l : List Nat} {q : Nat} (h : onlyRegsEv l q s t) : t.core = s.core := by
  rw [h.1]
  rfl

theorem onlyRegs.core_eq {s t : State} {l : List Nat} (h : onlyRegs l s t) : t.core = s.core := by
  rw [h.1]
  rfl

/-! ### Fields in their pages -/

/-- The field lies in its page beyond EVT_RAW. -/
def Fld.beyondRaw (f : Fld) : Bool := decide (f.off < 0x1000) && decide (f.off ≠ 0x10) && decide (f.lo < 32)

/-- `p` is the address of a page. -/
def isPage (p : Nat) : Prop := p % 0x1000 = 0

/-- `p` is the address of a page, neither the daybook's nor the pending bits' of MSI-X. -/
def ownPage (p : Nat) : Prop := isPage p ∧ p ≠ 0x6000 ∧ p ≠ 0xE000

section
variable {s : State} {p q code n : Nat} {data : List Nat} {f g : Fld}

theorem isPage_pg (b : Blk) (i : Nat) : isPage (pg b i) := by
  unfold isPage pg
  cases b <;> simp [Blk.base]

theorem ownPage_above (h : 0xF000 ≤ p) (hp : isPage p) : ownPage p := ⟨hp, by omega, by omega⟩

theorem ownPage_pg_above {b : Blk} (h : 0xF000 ≤ b.base) (i : Nat) : ownPage (pg b i) :=
  ownPage_above (pg_above h i) (isPage_pg b i)

theorem beyondRaw_iff : f.beyondRaw = true ↔ f.off < 0x1000 ∧ f.off ≠ 0x10 ∧ f.lo < 32 := by
  simp [Fld.beyondRaw, and_assoc]

/-- Fields of different pages have different keys. -/
theorem fkey_ne_pages (hp : isPage p) (hq : isPage q) (hpq : p ≠ q) (hf : f.off < 0x1000 ∧ f.lo < 32)
    (hg : g.off < 0x1000 ∧ g.lo < 32) : fkey p f ≠ fkey q g := by
  unfold isPage at hp hq
  simp only [fkey]
  omega

theorem not_evKey_page (hq : isPage q) (hp : ownPage p) (hf : f.beyondRaw = true) : ¬ evKey q (fkey p f) := by
  obtain ⟨hpage, hdbk, hmsix⟩ := hp
  obtain ⟨hoff, hraw, hlo⟩ := beyondRaw_iff.1 hf
  unfold isPage at hq hpage
  simp only [evKey, fkey, pg_dbk, HDR_EVT_RAW_RAW, DBK_WR_COUNT, DBK_LOST_COUNT]
  omega

theorem State.rd_emit_page (hq : isPage q) (hp : ownPage p) (hf : f.beyondRaw = true) :
    (s.emit q code data).rd p f = s.rd p f :=
  State.rd_congr (State.find_emitAt _ _ _ _ _ (not_evKey_page hq hp hf))

theorem State.on_emit_page (hq : isPage q) (hp : ownPage p) (hf : f.beyondRaw = true) :
    (s.emit q code data).on p f = s.on p f := by
  rw [State.on_eq, State.on_eq, State.rd_emit_page hq hp hf]

theorem ringKeysFree_page (hp : ownPage p) : ringKeysFree p [] :=
  ⟨⟨List.not_mem_nil, not_evKey_page hp.1 hp rfl⟩, ⟨List.not_mem_nil, not_evKey_page hp.1 hp rfl⟩⟩

/-- An event of a page changes what its page's events change. -/
theorem State.emit_page_onlyRegsEv (hp : ownPage p) : onlyRegsEv [] p s (s.emit p code data) :=
  onlyRegsEv_emit (ringKeysFree_page hp) onlyRegsEv_refl

/-- Fields of other words leave the descriptor of the ring alone. -/
theorem ringKeysFree_fields {L : List Fld} (hp : ownPage p) (hL : ∀ f ∈ L, f.off ≠ 0x1C ∧ f.lo < 32) :
    ringKeysFree p (L.map (fkey p)) := by
  have hkey : ∀ g : Fld, g.off = 0x1C → g.lo < 32 → fkey p g ∉ L.map (fkey p) := by
    rintro g hg hlo hmem
    obtain ⟨f, hf, he⟩ := List.mem_map.1 hmem
    obtain ⟨hoff, hflo⟩ := hL f hf
    simp only [fkey] at he
    omega
  exact ⟨⟨hkey _ rfl (by decide), not_evKey_page hp.1 hp rfl⟩, ⟨hkey _ rfl (by decide), not_evKey_page hp.1 hp rfl⟩⟩

end

end Sys2Proof.Machine
end

section
/-! PROOFS. Balls, unlock and relock, and the test multiplexer (R61, R456, R478 to R482). -/

set_option autoImplicit false

namespace Sys2Proof.Machine

/-! ### GPIO words (R456) -/

theorem andNot_eq_ldiff (v m : Nat) : andNot v m = Nat.ldiff v m := by
  have hsum := ldiff_add_land v m
  unfold andNot
  omega

/-- The bits under the mask come from `v`, the others from `x`: nothing carries. -/
theorem andNot_add_land_eq_lor (x v m : Nat) : andNot x m + (v &&& m) = Nat.ldiff x m ||| (v &&& m) := by
  have hdiff : Nat.ldiff (Nat.ldiff x m ||| (v &&& m)) m = Nat.ldiff x m := by
    refine Nat.eq_of_testBit_eq fun j => ?_
    simp only [Nat.testBit_ldiff, Nat.testBit_or, Nat.testBit_and]
    cases x.testBit j <;> cases m.testBit j <;> simp
  have hland : (Nat.ldiff x m ||| (v &&& m)) &&& m = v &&& m := by
    refine Nat.eq_of_testBit_eq fun j => ?_
    simp only [Nat.testBit_ldiff, Nat.testBit_or, Nat.testBit_and]
    cases v.testBit j <;> cases m.testBit j <;> simp
  calc andNot x m + (v &&& m)
      = Nat.ldiff (Nat.ldiff x m ||| (v &&& m)) m + ((Nat.ldiff x m ||| (v &&& m)) &&& m) := by
        rw [hdiff, hland, andNot_eq_ldiff]
    _ = Nat.ldiff x m ||| (v &&& m) := ldiff_add_land _ m

theorem bit_andNot_add_land (x v m j : Nat) : bit (andNot x m + (v &&& m)) j = if bit m j then bit v j else bit x j := by
  simp only [andNot_add_land_eq_lor, bit_eq_testBit, Nat.testBit_or, Nat.testBit_and, Nat.testBit_ldiff]
  cases m.testBit j <;> simp

/-- The mask with bit `j` where `P j`, for the numbers below `n`. -/
def maskOf (P : Nat → Prop) [DecidablePred P] (n : Nat) : Nat := (upTo n).foldl (fun m j => if P j then m + 2 ^ j else m) 0

section
variable (P : Nat → Prop) [DecidablePred P]

theorem maskOf_succ (n : Nat) : maskOf P (n + 1) = if P n then maskOf P n + 2 ^ n else maskOf P n := by
  simp [maskOf, upTo, List.range_succ]

theorem maskOf_lt (n : Nat) : maskOf P n < 2 ^ n := by
  induction n with
  | zero => simp [maskOf, upTo]
  | succ n ih =>
    rw [maskOf_succ, pow_succ]
    split <;> omega

theorem bit_maskOf {n j : Nat} (h : j < n) : bit (maskOf P n) j = decide (P j) := by
  induction n with
  | zero => omega
  | succ n ih =>
    have hlt := maskOf_lt P n
    rw [maskOf_succ, bit_eq_testBit]
    rcases Nat.lt_succ_iff_lt_or_eq.1 h with hj | rfl
    · rw [← ih hj, bit_eq_testBit]
      split
      · rw [Nat.add_comm, Nat.testBit_two_pow_add_gt hj]
      · rfl
    · split
      next hP => rw [Nat.add_comm, Nat.testBit_two_pow_add_eq, Nat.testBit_lt_two_pow hlt, decide_eq_true hP]; rfl
      next hP => rw [Nat.testBit_lt_two_pow hlt, decide_eq_false hP]

end

/-- OUT or OE of the balls M(32k) to M(32k + 31). -/
def gpioWord (oe : Bool) (k : Nat) : Fld := if oe then SYS_GPIO_OE_OE k else SYS_GPIO_OUT_OUT k

theorem gpioWord_w (oe : Bool) (k : Nat) : (gpioWord oe k).w = 32 := by
  cases oe <;> rfl

theorem exec_gpioWrite (w : Writer) (oe : Bool) (k : Fin 8) (v : Word) (s : State) :
    exec (.gpioWrite w oe k v) s = .next (s.wr 0 (gpioWord oe k.val)
      (andNot (s.rd 0 (gpioWord oe k.val)) (maskOf (fun j => s.owner (32 * k.val + j) = w.fid) 32) +
        (v.toNat &&& maskOf (fun j => s.owner (32 * k.val + j) = w.fid) 32))) := rfl

theorem gpioWrite_changes_owned (w : Writer) (oe : Bool) (k : Fin 8) (v : Word) (s : State) :
    completes (.gpioWrite w oe k v) s fun t =>
      (∀ j, j < 32 → bit (t.rd 0 (gpioWord oe k.val)) j =
        if s.owner (32 * k.val + j) = w.fid then bit v.toNat j else bit (s.rd 0 (gpioWord oe k.val)) j) ∧
      onlyRegs [fkey 0 (gpioWord oe k.val)] s t := by
  refine ⟨_, exec_gpioWrite w oe k v s, fun j hj => ?_, onlyRegs_wr (by simp) onlyRegs_refl⟩
  rw [State.rd_wr_self, gpioWord_w, bit_mod_two_pow hj, bit_andNot_add_land, bit_maskOf _ hj]
  simp

/-! ### Unlock (R478, R480) -/

theorem ownPage_tst : ownPage tstP := ⟨rfl, by decide, by decide⟩

section
variable {s : State} {w : Writer} {key : BitVec 16}

theorem exec_testUnlock_refused {r : Nat} (h : s.unlockRefusal w key.toNat = some r) :
    exec (.testUnlock w key) s = .next (s.emit tstP 0x0801 (le w.fid 2 ++ [r])) := by
  show execTestUnlock w key s = _
  rw [execTestUnlock, h]

/-- The device unlocked, before the event of it. -/
def State.unlockedAnew (s : State) : State := State.wb { s with lfsr := [] } tstP TST_UNLOCK_UNLOCKED true

theorem exec_testUnlock_allowed (hkey : key.toNat = s.rd tstP TST_CHAL_VALUE) (hw : w = .host ∨ w = .mss)
    (hallow : s.mss.testAllow = true) :
    exec (.testUnlock w key) s = .next (s.unlockedAnew.emit tstP 0x0001 (le w.fid 2)) := by
  have hnone : s.unlockRefusal w key.toNat = none := by
    have hw' : ¬ (w ≠ .host ∧ w ≠ .mss) := by tauto
    simp [State.unlockRefusal, hkey, hw', hallow]
  show execTestUnlock w key s = _
  rw [execTestUnlock, hnone]
  rfl

theorem State.unlockedAnew_spec (s : State) (code : Nat) (data : List Nat) :
    (s.unlockedAnew.emit tstP code data).unlocked = true ∧ (s.unlockedAnew.emit tstP code data).lfsr = [] ∧
      onlyRegsEv [fkey tstP TST_UNLOCK_UNLOCKED] tstP { s with lfsr := [] } (s.unlockedAnew.emit tstP code data) := by
  have hwrite : onlyRegsEv [fkey tstP TST_UNLOCK_UNLOCKED] tstP { s with lfsr := [] } s.unlockedAnew :=
    (onlyRegs_wb List.mem_cons_self onlyRegs_refl).toEv
  refine ⟨?_, eq_of_core State.lfsr (fun _ => rfl) (State.core_emit ..), onlyRegsEv_emit ?_ hwrite⟩
  · rw [State.unlocked, State.on_emit_page ownPage_tst.1 ownPage_tst rfl]
    exact State.on_wb_true _ tstP TST_UNLOCK_UNLOCKED rfl
  · exact ringKeysFree_fields (L := [TST_UNLOCK_UNLOCKED]) ownPage_tst (by decide)

theorem exec_testRelock_locked (h : s.unlocked = false) : exec (.testRelock w) s = .next s := by
  show execTestRelock w s = _
  simp [execTestRelock, h]

theorem exec_testRelock_unlocked (h : s.unlocked = true) : exec (.testRelock w) s =
    .next (((upTo 4).foldl State.muxDrop (s.wb tstP TST_UNLOCK_UNLOCKED false)).drawChal.emit tstP 0x0002 (le w.fid 2)) := by
  show execTestRelock w s = _
  simp [execTestRelock, h]

end

/-! ### Balls taken and returned (R61, R482) -/

section
variable (s : State) {k : Nat} {f : Fld}

theorem fidPage_isPage {k fid p : Nat} (h : fidPage k fid = some p) : isPage p := by
  obtain ⟨e, -, rfl⟩ := Option.map_eq_some_iff.1 h
  exact isPage_pg ..

/-- A field of the TST page that no word of a ball's entry or of its owner's page meets. -/
def Fld.ofTest (f : Fld) : Prop := f.beyondRaw = true ∧ f.lo ≠ 24 ∧ f.off ≠ 0x20

theorem ofTest_mux {k : Nat} (hk : k < 4) :
    (TST_MUX_EN k).ofTest ∧ (TST_MUX_BALL k).ofTest ∧ (TST_MUX_SIGNAL k).ofTest := by
  simp only [Fld.ofTest, beyondRaw_iff, TST_MUX_EN, TST_MUX_BALL, TST_MUX_SIGNAL]
  omega

theorem State.rd_ballRecord (hf : f.beyondRaw = true) (b code : Nat) : (s.ballRecord b code).rd tstP f = s.rd tstP f := by
  unfold State.ballRecord
  split
  next p hp => exact State.rd_emit_page (fidPage_isPage hp) ownPage_tst hf
  next => rfl

/-- TAKEN lies at bit 24 of its words, where TST has no field of the multiplexer. -/
theorem State.rd_wb_ballTaken (hf : f.ofTest) (b : Nat) (v : Bool) :
    (s.wb (ownPg b) (OWN_ENT_TAKEN b) v).rd tstP f = s.rd tstP f := by
  obtain ⟨hraw, hlo, -⟩ := hf
  obtain ⟨-, -, hlo32⟩ := beyondRaw_iff.1 hraw
  refine State.rd_wr_key ?_
  simp only [fkey, OWN_ENT_TAKEN]
  omega

theorem State.rd_ballReturn (hf : f.ofTest) (b : Nat) : (s.ballReturn b).rd tstP f = s.rd tstP f := by
  rw [State.ballReturn, State.rd_ballRecord _ hf.1, State.rd_wb_ballTaken _ hf]

theorem State.rd_wb_ownTaken {p : Nat} (hp : isPage p) (hf : f.ofTest) (v : Bool) :
    (s.wb p HDR_OWN_TAKEN v).rd tstP f = s.rd tstP f := by
  obtain ⟨hraw, -, hoff⟩ := hf
  obtain ⟨hlt, -, hlo⟩ := beyondRaw_iff.1 hraw
  refine State.rd_wr_key ?_
  unfold isPage at hp
  simp only [fkey, HDR_OWN_TAKEN, pg_tst]
  omega

theorem State.rd_ballTake (hf : f.ofTest) (b : Nat) : (s.ballTake b).rd tstP f = s.rd tstP f := by
  unfold State.ballTake
  dsimp only
  rw [State.rd_ballRecord _ hf.1]
  split
  next p hp => rw [State.rd_wb_ownTaken _ (fidPage_isPage hp) hf, State.rd_wb_ballTaken _ hf]
  next => rw [State.rd_wb_ballTaken _ hf]

theorem State.core_ballRecord (b code : Nat) : (s.ballRecord b code).core = s.core := by
  unfold State.ballRecord
  split
  · exact State.core_emit ..
  · rfl

theorem State.core_muxDrop (k : Nat) : (s.muxDrop k).core = s.core := by
  unfold State.muxDrop
  simp [State.ballReturn, State.core_ballRecord]

theorem State.rd_muxDrop (hf : f.ofTest) (hk : fkey tstP f ≠ fkey tstP (TST_MUX_EN k)) :
    (s.muxDrop k).rd tstP f = s.rd tstP f := by
  unfold State.muxDrop
  split
  · rw [State.wb_eq, State.rd_wr_key hk, State.rd_ballReturn _ hf]
  · rfl

theorem State.on_muxDrop_self (k : Nat) : (s.muxDrop k).on tstP (TST_MUX_EN k) = false := by
  unfold State.muxDrop
  split
  next => exact State.on_wb_false ..
  next h => exact Bool.eq_false_iff.2 h

theorem muxEn_fkey_ne {j k : Nat} (h : j ≠ k) : fkey tstP (TST_MUX_EN j) ≠ fkey tstP (TST_MUX_EN k) := by
  simp only [fkey, TST_MUX_EN]
  omega

/-- Dropping every multiplexer of a list leaves each of them off. -/
theorem State.on_foldl_muxDrop {l : List Nat} (hk : k < 4) (h : k ∈ l ∨ s.on tstP (TST_MUX_EN k) = false) :
    (l.foldl State.muxDrop s).on tstP (TST_MUX_EN k) = false := by
  induction l generalizing s with
  | nil => exact h.resolve_left List.not_mem_nil
  | cons j l ih =>
    refine ih _ ?_
    by_cases hjk : k = j
    · exact .inr (hjk ▸ s.on_muxDrop_self k)
    · have hstay : (s.muxDrop j).on tstP (TST_MUX_EN k) = s.on tstP (TST_MUX_EN k) := by
        rw [State.on_eq, State.on_eq, s.rd_muxDrop (ofTest_mux hk).1 (muxEn_fkey_ne hjk)]
      rw [hstay]
      exact h.imp_left fun hmem => (List.mem_cons.1 hmem).resolve_left hjk

theorem State.rd_foldl_muxDrop (hf : f.ofTest) (hk : ∀ k, fkey tstP f ≠ fkey tstP (TST_MUX_EN k)) (l : List Nat) :
    (l.foldl State.muxDrop s).rd tstP f = s.rd tstP f := by
  induction l generalizing s with
  | nil => rfl
  | cons k l ih => rw [List.foldl_cons, ih, s.rd_muxDrop hf (hk k)]

theorem unlocked_fkey_ne (k : Nat) : fkey tstP TST_UNLOCK_UNLOCKED ≠ fkey tstP (TST_MUX_EN k) := by
  simp only [fkey, TST_UNLOCK_UNLOCKED, TST_MUX_EN]
  omega

end

/-! ### Relock and the multiplexer (R479, R482) -/

section
variable {s : State} {w : Writer}

theorem testRelock_returns (h : s.unlocked = true) : completes (.testRelock w) s fun t =>
    t.unlocked = false ∧ t.freeCtr = s.freeCtr + 1 ∧ ∀ k, k < 4 → t.on tstP (TST_MUX_EN k) = false := by
  have hread : ∀ (u : State) (f : Fld), f.beyondRaw = true → f.off ≠ 0x100 →
      (u.drawChal.emit tstP 0x0002 (le w.fid 2)).rd tstP f = u.rd tstP f := fun u f hf hoff => by
    rw [State.rd_emit_page ownPage_tst.1 ownPage_tst hf]
    refine State.rd_wr_same ?_
    obtain ⟨-, -, hlo⟩ := beyondRaw_iff.1 hf
    simp only [TST_CHAL_VALUE]
    omega
  refine ⟨_, exec_testRelock_unlocked h, ?_, ?_, fun k hk => ?_⟩
  · rw [State.unlocked, State.on_eq, hread _ _ rfl (by decide), State.rd_foldl_muxDrop _ ⟨rfl, by decide, by decide⟩
      unlocked_fkey_ne, ← State.on_eq, State.on_wb_false]
  · refine (eq_of_core State.freeCtr (fun _ => rfl) (State.core_emit ..)).trans ?_
    have hcore := State.core_foldl (s.wb tstP TST_UNLOCK_UNLOCKED false) (upTo 4) State.core_muxDrop
    exact congrArg (· + 1) (eq_of_core State.freeCtr (fun _ => rfl) hcore)
  · have hoff : (TST_MUX_EN k).off ≠ 0x100 := by simp only [TST_MUX_EN]; omega
    rw [State.on_eq, hread _ _ (ofTest_mux hk).1.1 hoff, ← State.on_eq]
    exact State.on_foldl_muxDrop _ hk (.inl (List.mem_range.2 hk))

theorem testSeedWrite_reloads (v : Word) : completes (.testSeedWrite w v) s fun t =>
    t.lfsr = [] ∧ t.rd tstP TST_SEED_SEED = v.toNat ∧ onlyRegs [fkey tstP TST_SEED_SEED] { s with lfsr := [] } t :=
  ⟨_, rfl, rfl, (State.rd_wr_self ..).trans (Nat.mod_eq_of_lt v.isLt), onlyRegs_wr (by simp) onlyRegs_refl⟩

variable {k : Fin 4} {b : BitVec 8} {g : BitVec 16}

theorem exec_muxTake_refused {r : Nat} (h : s.muxRefusal k.val b.toNat g.toNat = some r) :
    exec (.muxTake w k b g) s = .next ((s.muxDrop k.val).emit tstP 0x1001 [k.val, b.toNat, r]) := by
  show execMuxTake w k b g s = _
  simp only [execMuxTake, h]

/-- BALL and SIGNAL of a multiplexer written, in that order. -/
def State.muxSet (s : State) (k b g : Nat) : State := (s.wr tstP (TST_MUX_BALL k) b).wr tstP (TST_MUX_SIGNAL k) g

theorem exec_muxTake (h : s.muxRefusal k.val b.toNat g.toNat = none) : exec (.muxTake w k b g) s =
    .next (if s.on tstP (TST_MUX_EN k.val) ∧ s.rd tstP (TST_MUX_BALL k.val) = b.toNat
      then s.wr tstP (TST_MUX_SIGNAL k.val) g.toNat
      else (((s.muxDrop k.val).ballTake b.toNat).muxSet k.val b.toNat g.toNat).wb tstP (TST_MUX_EN k.val) true) := by
  show execMuxTake w k b g s = _
  simp only [execMuxTake, h]
  rfl

theorem State.muxSet_spec (s : State) (k b g : Nat) : (s.muxSet k b g).rd tstP (TST_MUX_BALL k) = b % 2 ^ 8 ∧
    (s.muxSet k b g).rd tstP (TST_MUX_SIGNAL k) = g % 2 ^ 16 ∧
    (s.muxSet k b g).on tstP (TST_MUX_EN k) = s.on tstP (TST_MUX_EN k) := by
  refine ⟨(State.rd_wr_same ?_).trans (State.rd_wr_self ..), State.rd_wr_self .., ?_⟩
  · simp [TST_MUX_BALL, TST_MUX_SIGNAL]
  · rw [State.on_eq, State.on_eq, State.muxSet, State.rd_wr_same, State.rd_wr_same]
    · simp [TST_MUX_BALL, TST_MUX_EN]
    · simp [TST_MUX_SIGNAL, TST_MUX_EN]

theorem muxTake_refused {r : Nat} (h : s.muxRefusal k.val b.toNat g.toNat = some r) :
    completes (.muxTake w k b g) s fun t => t.on tstP (TST_MUX_EN k.val) = false := by
  exact ⟨_, exec_muxTake_refused h,
    (State.on_emit_page ownPage_tst.1 ownPage_tst (ofTest_mux k.isLt).1.1).trans (s.on_muxDrop_self _)⟩

theorem muxTake_takes (h : s.muxRefusal k.val b.toNat g.toNat = none) : completes (.muxTake w k b g) s fun t =>
    t.on tstP (TST_MUX_EN k.val) = true ∧ t.rd tstP (TST_MUX_BALL k.val) = b.toNat ∧
    t.rd tstP (TST_MUX_SIGNAL k.val) = g.toNat % 2 ^ (TST_MUX_SIGNAL k.val).w := by
  refine ⟨_, exec_muxTake h, ?_⟩
  split
  next hheld =>
    obtain ⟨hen, hball⟩ := hheld
    refine ⟨?_, ?_, State.rd_wr_self ..⟩
    · rw [State.on_eq, State.rd_wr_same (by simp [TST_MUX_SIGNAL, TST_MUX_EN]), ← State.on_eq, hen]
    · rw [State.rd_wr_same (by simp [TST_MUX_SIGNAL, TST_MUX_BALL]), hball]
  next =>
    obtain ⟨hball, hsig, -⟩ := State.muxSet_spec ((s.muxDrop k.val).ballTake b.toNat) k.val b.toNat g.toNat
    refine ⟨State.on_wb_true _ _ _ rfl, ?_, ?_⟩
    · rw [State.wb_eq, State.rd_wr_same (by simp [TST_MUX_EN, TST_MUX_BALL]), hball, Nat.mod_eq_of_lt b.isLt]
    · rw [State.wb_eq, State.rd_wr_same (by simp [TST_MUX_EN, TST_MUX_SIGNAL]), hsig]
      rfl

theorem muxReturn_returns : completes (.muxReturn w k b g) s fun t =>
    t.on tstP (TST_MUX_EN k.val) = false ∧ t.rd tstP (TST_MUX_BALL k.val) = b.toNat := by
  obtain ⟨hball, -, hen⟩ := State.muxSet_spec (s.muxDrop k.val) k.val b.toNat g.toNat
  exact ⟨(s.muxDrop k.val).muxSet k.val b.toNat g.toNat, rfl, hen.trans (s.on_muxDrop_self _),
    hball.trans (Nat.mod_eq_of_lt b.isLt)⟩

end

/-- Settles O60: a GPIO write is one masked write; what a ball's entry and records change meets no field of the test page, so that
only the multiplexers' own writes show there. That relocking a locked device has no effect is the model's choice (log entry 32). -/
theorem gpioAndTest : Obligations.GpioAndTest := by
  unfold Obligations.GpioAndTest
  intro w s
  refine ⟨fun oe k v => gpioWrite_changes_owned w oe k v s, fun _ _ => exec_testUnlock_refused, fun key hkey hw hallow => ?_,
    exec_testRelock_locked, testRelock_returns, fun _ => testSeedWrite_reloads _,
    fun k b g => ⟨fun _ => muxTake_refused, muxTake_takes, muxReturn_returns⟩⟩
  exact ⟨_, exec_testUnlock_allowed hkey hw hallow, s.unlockedAnew_spec ..⟩

end Sys2Proof.Machine
end

section
/-! PROOFS. The farrier: runs, their end and value writes (R413 to R416). -/

set_option autoImplicit false

namespace Sys2Proof.Machine

theorem ownPage_far : ownPage farP := ⟨rfl, by decide, by decide⟩

/-! ### The start of a run (R414) -/

section
variable {s : State} {t : Nat}

/-- A fold that keeps the largest of some numbers is at least each of them. -/
theorem le_foldl_max {l : List Nat} {g : Nat → Nat} {i : Nat} (h : i ∈ l) (m : Nat) :
    g i ≤ l.foldl (fun m i => max m (g i)) m := by
  have hstart : ∀ (l : List Nat) (m : Nat), m ≤ l.foldl (fun m i => max m (g i)) m := by
    intro l
    induction l with
    | nil => exact fun _ => le_rfl
    | cons x l ih => exact fun m => (le_max_left ..).trans (ih _)
  induction l generalizing m with
  | nil => cases h
  | cons x l ih =>
    rcases List.mem_cons.1 h with rfl | h
    · exact (le_max_right ..).trans (hstart l _)
    · exact ih h _

theorem State.far_farStart (s : State) (t : Nat) :
    (s.farStart t).far.run = some t ∧ (s.farStart t).far.lastEnd = s.far.lastEnd ∧ (s.farStart t).far.frames = [] := ⟨rfl, rfl, rfl⟩

theorem State.busy_farStart (s : State) (t : Nat) : (s.farStart t).on farP FAR_STATUS_BUSY = true :=
  State.on_wb_true (s.wb farP FAR_CTRL_RUN false) _ _ rfl

theorem State.asked_farStart (s : State) (t : Nat) : (s.farStart t).on farP FAR_CTRL_RUN = false := by
  show ((s.wb farP FAR_CTRL_RUN false).wb farP FAR_STATUS_BUSY true).on farP FAR_CTRL_RUN = false
  rw [State.on_eq, State.wb_eq, State.rd_wr_same (by decide), ← State.on_eq, State.on_wb_false]

theorem exec_farrierTriggerCheck_not (h : s.on farP FAR_CTRL_AUTO = false ∨ s.farFree = false ∨ s.far.run.isSome = true) :
    exec .farrierTriggerCheck s = .next s := by
  have hnot : ¬ (s.on farP FAR_CTRL_AUTO ∧ s.farFree ∧ s.far.run.isNone) := by
    rcases h with h | h | h
    · simp [h]
    · simp [h]
    · simp [Option.isSome_iff_ne_none.1 h]
  show execFarrierTriggerCheck s = _
  exact congrArg Host.Outcome.next (if_neg fun hc => hnot ⟨hc.1, hc.2.1, hc.2.2.1⟩)

theorem exec_farrierTriggerCheck_moved {i : Nat} (hi : i < 12) (hauto : s.on farP FAR_CTRL_AUTO = true) (hfree : s.farFree = true)
    (hrun : s.far.run = none) (hend : s.far.lastEnd = none)
    (hmoved : 16 * max 1 (s.rd farP FAR_TRIG_DELTA) <
      (sint 16 (s.rd mssP (MSS_TS_VAL_T i)) - sint 16 (s.rd farP (FAR_BASE_T_T i))).natAbs) :
    exec .farrierTriggerCheck s = .next (s.farStart 0) := by
  have hmax := hmoved.trans_le (le_foldl_max (l := upTo 12)
    (g := fun i => (sint 16 (s.rd mssP (MSS_TS_VAL_T i)) - sint 16 (s.rd farP (FAR_BASE_T_T i))).natAbs) (List.mem_range.2 hi) 0)
  show execFarrierTriggerCheck s = _
  refine congrArg Host.Outcome.next (if_pos ⟨hauto, hfree, by rw [hrun]; rfl, by rw [hend], hmax⟩)

variable {w : Writer}

theorem exec_farrierRunRequest_blocked (h : s.farFree = false) : exec (.farrierRunRequest w) s = .next s := by
  show execFarrierRunRequest w s = _
  simp [execFarrierRunRequest, h]

theorem exec_farrierRunRequest_starts (h : s.farFree = true) (hrun : s.far.run = none) :
    exec (.farrierRunRequest w) s = .next (s.farStart 1) := by
  show execFarrierRunRequest w s = _
  simp [execFarrierRunRequest, h, hrun]

theorem exec_farrierRunRequest_waits (h : s.farFree = true) (hrun : s.far.run.isSome = true) :
    exec (.farrierRunRequest w) s = .next (s.wb farP FAR_CTRL_RUN true) := by
  show execFarrierRunRequest w s = _
  simp [execFarrierRunRequest, h, hrun]

end

/-! ### The end of a run (R415) -/

section
variable (s : State) (t : Nat)

@[simp] theorem State.core_farReject (cause idx dif : Nat) : (s.farReject t cause idx dif).core = s.core := State.core_emit ..

@[simp] theorem State.core_farFallback : (s.farFallback t).core = s.core := by
  unfold State.farFallback
  split <;> simp [State.farLoad]

@[simp] theorem State.core_farAccept (l : List (Nat × Nat)) : (s.farAccept t l).core = s.core := by
  simp [State.farAccept]

/-- Judging a run writes registers and a record. -/
theorem State.core_farJudge (a b : List Nat) (vrefBad crefBad : Bool) : (s.farJudge t a b vrefBad crefBad).core = s.core := by
  unfold State.farJudge
  dsimp only
  split <;> simp

theorem State.far_farOver : s.farOver.far.lastEnd = some s.time.run ∧ (s.farOver.far.run = none ∨ s.farOver.far.run = some 1) ∧
    s.farOver.far.frames = [] := by
  unfold State.farOver
  dsimp only
  split
  · exact ⟨rfl, .inr rfl, rfl⟩
  · exact ⟨rfl, .inl rfl, rfl⟩

variable {s} {a b : List Nat} {c d : Bool}

theorem exec_farrierRunEnd_idle (h : s.far.run = none) : exec (.farrierRunEnd a b c d) s = .next s := by
  show execFarrierRunEnd a b c d s = _
  simp [execFarrierRunEnd, h]

theorem exec_farrierRunEnd_frames {p : Nat} (hp : p ∈ s.far.ports) (hfew : Store.getD 0 p s.far.frames < 58)
    (hen : s.enabled (tchP p) = true) : exec (.farrierRunEnd a b c d) s = .next s := by
  have hall : (s.far.ports.all fun p => decide (58 ≤ Store.getD 0 p s.far.frames) || !s.enabled (tchP p)) = false :=
    List.all_eq_false.2 ⟨p, hp, by simp [hen, hfew]⟩
  show execFarrierRunEnd a b c d s = _
  unfold execFarrierRunEnd
  rw [hall]
  split <;> rfl

theorem farrierRunEnd_ends {k : Nat} (hrun : s.far.run = some k) (hall : ∀ p ∈ s.far.ports, 58 ≤ Store.getD 0 p s.far.frames) :
    completes (.farrierRunEnd a b c d) s fun t =>
      t.far.lastEnd = some s.time.run ∧ (t.far.run = none ∨ t.far.run = some 1) ∧ t.far.frames = [] := by
  have hready : (s.far.ports.all fun p => decide (58 ≤ Store.getD 0 p s.far.frames) || !s.enabled (tchP p)) = true :=
    List.all_eq_true.2 fun p hp => by simp [hall p hp]
  have hexec : exec (.farrierRunEnd a b c d) s = .next (s.farJudge k a b c d).farOver := by
    show execFarrierRunEnd a b c d s = _
    simp only [execFarrierRunEnd, hrun, hready, if_true]
  have hrun' : (s.farJudge k a b c d).time.run = s.time.run := eq_of_core (·.time.run) (fun _ => rfl) (State.core_farJudge ..)
  exact ⟨_, hexec, hrun' ▸ State.far_farOver _⟩

end

/-! ### Value writes (R416) -/

section
variable {s : State} {w : Writer} {i : Fin 192} {v : Word}

theorem exec_farrierValueWrite_reserved (h : i.val = 30 ∨ i.val = 31) : exec (.farrierValueWrite w i v) s = .next s :=
  congrArg Host.Outcome.next (if_pos h)

variable (hi : ¬ (i.val = 30 ∨ i.val = 31))
include hi

theorem exec_farrierValueWrite_running (h : s.far.run.isSome = true) :
    exec (.farrierValueWrite w i v) s = .next (s.emit farP 0x1001 (le (0x400 + 4 * i.val) 2 ++ le w.fid 2)) := by
  show execFarrierValueWrite w i v s = _
  simp [execFarrierValueWrite, hi, h]

/-- The word that a value index takes of a written one: the references are 16 bits. -/
def farWord (i v : Nat) : Nat := if i = 28 ∨ i = 29 then v % 2 ^ 16 else v

theorem exec_farrierValueWrite (h : s.far.run = none) : exec (.farrierValueWrite w i v) s =
    .next ((s.wr farP (FAR_VAL_VALUE i.val) (farWord i.val v.toNat)).wr farP FAR_STATUS_SOURCE 2) := by
  show execFarrierValueWrite w i v s = _
  simp [execFarrierValueWrite, hi, h, farWord]

omit hi in
theorem farWord_lt (i : Nat) (v : Word) : farWord i v.toNat < 2 ^ 32 := by
  have := v.isLt
  unfold farWord
  split <;> omega

theorem farrierValueWrite_takes (h : s.far.run = none) : completes (.farrierValueWrite w i v) s fun t =>
    t.rd farP (FAR_VAL_VALUE i.val) = farWord i.val v.toNat ∧ t.rd farP FAR_STATUS_SOURCE = 2 ∧
    onlyRegs [fkey farP (FAR_VAL_VALUE i.val), fkey farP FAR_STATUS_SOURCE] s t := by
  refine ⟨_, exec_farrierValueWrite hi h, ?_, State.rd_wr_self .., onlyRegs_wr (by simp) (onlyRegs_wr (by simp) onlyRegs_refl)⟩
  rw [State.rd_wr_same (by simp [FAR_VAL_VALUE, FAR_STATUS_SOURCE]; omega), State.rd_wr_self]
  exact Nat.mod_eq_of_lt (farWord_lt _ _)

end

/-- Settles O54: the judgement of a run writes registers and a record, so its end keeps the clock's moment. That a run starts only
while `farFree` holds is the model's choice (log entry 109). -/
theorem farrier : Obligations.Farrier := by
  unfold Obligations.Farrier
  intro w s
  refine ⟨exec_farrierTriggerCheck_not, fun i hi hauto hfree hrun hend hmoved => ?_, exec_farrierRunRequest_blocked,
    fun hfree hrun => ?_, fun hfree hrun => ?_, fun _ _ _ _ => exec_farrierRunEnd_idle,
    fun _ _ _ _ _ => exec_farrierRunEnd_frames, fun _ _ _ _ _ => farrierRunEnd_ends,
    fun _ _ => exec_farrierValueWrite_reserved, fun i v h30 h31 => ?_⟩
  · exact ⟨_, exec_farrierTriggerCheck_moved hi hauto hfree hrun hend hmoved, rfl, s.busy_farStart 0⟩
  · exact ⟨_, exec_farrierRunRequest_starts hfree hrun, rfl, s.busy_farStart 1, s.asked_farStart 1⟩
  · exact ⟨_, exec_farrierRunRequest_waits hfree hrun, State.on_wb_true _ _ _ rfl, onlyRegs_wb (by simp) onlyRegs_refl⟩
  · have hi : ¬ (i.val = 30 ∨ i.val = 31) := not_or.2 ⟨h30, h31⟩
    exact ⟨fun hrun => ⟨_, exec_farrierValueWrite_running hi hrun, State.emit_page_onlyRegsEv ownPage_far⟩,
      farrierValueWrite_takes hi⟩

end Sys2Proof.Machine
end

section
/-! PROOFS. Check-value units: the register tap, results and write snoops (R320 to R324). -/

set_option autoImplicit false

namespace Sys2Proof.Machine

/-! ### The state of a unit -/

section
variable (s : State) (u p v : Nat) (f : Fld) (x : CvuSt)

@[simp] theorem State.cvu_setCvu : (s.setCvu u x).cvu u = x := Store.getD_setD_self ..
@[simp] theorem State.rd_setCvu : (s.setCvu u x).rd p f = s.rd p f := rfl
@[simp] theorem State.on_setCvu : (s.setCvu u x).on p f = s.on p f := rfl
@[simp] theorem State.cvu_wr : (s.wr p f v).cvu u = s.cvu u := rfl
@[simp] theorem State.cvu_wb (b : Bool) : (s.wb p f b).cvu u = s.cvu u := rfl
@[simp] theorem State.cvu_cnt : (s.cnt p f v).cvu u = s.cvu u := rfl
@[simp] theorem State.cvu_inc : (s.inc p f v).cvu u = s.cvu u := rfl

theorem State.setCvu_frame : s.setCvu u x = { s with cvus := (s.setCvu u x).cvus } := rfl

end

/-! ### A block's result (R322, R324) -/

section
variable (s : State) (u v tag : Nat)

theorem State.cvuPush_room (h : (s.cvu u).queue.length < 16) : ((s.cvuPush u v tag).cvu u) =
    { s.cvu u with queue := (s.cvu u).queue ++ [(v, tag)] } := by
  rw [State.cvuPush]
  simp [h]

theorem State.cvuPush_full (h : 16 ≤ (s.cvu u).queue.length) :
    s.cvuPush u v tag = (s.wb (cvuP u) CVU_RES_STAT_OVF true).cnt (cvuP u) CVU_LOST_COUNT 1 :=
  if_neg (Nat.not_lt.2 h)

/-- Fields of the page other than those that a push of a result shows. -/
theorem State.rd_cvuPush {f : Fld} (h : f.off ≠ 0x158 ∧ f.off ≠ 0x168 ∧ f.lo < 32) :
    (s.cvuPush u v tag).rd (cvuP u) f = s.rd (cvuP u) f := by
  obtain ⟨hstat, hlost, hlo⟩ := h
  rw [State.cvuPush]
  split
  · rw [State.rd_wr_same (by simp only [CVU_RES_STAT_USED]; omega), State.rd_setCvu]
  · rw [State.cnt_eq, State.rd_wr_same (by simp only [CVU_LOST_COUNT]; omega), State.wb_eq,
      State.rd_wr_same (by simp only [CVU_RES_STAT_OVF]; omega)]

/-- A block counted leaves the queue and the requests seen; the block after it is empty. -/
theorem State.cvu_cvuCount : ((s.cvuCount u).cvu u) = { s.cvu u with first := none, data := [], count := (s.cvu u).count + 1 } := by
  unfold State.cvuCount
  dsimp only
  split <;> simp

theorem State.rd_cvuCount {f : Fld} (h : f.off ≠ 0x130 ∧ f.off ≠ 0x160 ∧ f.lo < 32) :
    (s.cvuCount u).rd (cvuP u) f = s.rd (cvuP u) f := by
  obtain ⟨hseq, hblocks, hlo⟩ := h
  have hcnt : ∀ t : State, (t.cnt (cvuP u) CVU_BLOCKS_COUNT 1).rd (cvuP u) f = t.rd (cvuP u) f := fun t =>
    State.rd_wr_same (by simp only [CVU_BLOCKS_COUNT]; omega)
  unfold State.cvuCount
  dsimp only
  split
  · rw [State.inc_eq, State.rd_wr_same (by simp only [CVU_SEQ_SEQ]; omega), hcnt, State.rd_setCvu]
  · rw [hcnt, State.rd_setCvu]

theorem State.blocks_cvuCount : (s.cvuCount u).rd (cvuP u) CVU_BLOCKS_COUNT =
    satAdd CVU_BLOCKS_COUNT.w (s.rd (cvuP u) CVU_BLOCKS_COUNT) 1 := by
  unfold State.cvuCount
  dsimp only
  split
  · rw [State.inc_eq, State.rd_wr_same (by decide), State.rd_cnt_self, State.rd_setCvu]
  · rw [State.rd_cnt_self, State.rd_setCvu]

/-- The result that a block of bytes `d` from address `a` gives under COMPUTE. -/
def State.cvuResult (s : State) (u a : Nat) (d : List Nat) : Nat × Nat := (s.cvuValue u (s.cvuFold u a ++ d), s.cvuTag u a)

variable {s u} {a : Nat} {d : List Nat} (hmode : s.rd (cvuP u) CVU_CFG_MODE = 0)
include hmode

theorem State.cvuClose_compute :
    s.cvuClose u a d = (s.cvuPush u (s.cvuResult u a d).1 (s.cvuResult u a d).2).cvuCount u := if_pos hmode

theorem State.cvuClose_room (h : (s.cvu u).queue.length < 16) :
    ((s.cvuClose u a d).cvu u).queue = (s.cvu u).queue ++ [s.cvuResult u a d] ∧ ((s.cvuClose u a d).cvu u).data = [] ∧
    ((s.cvuClose u a d).cvu u).seen = (s.cvu u).seen ∧
    (s.cvuClose u a d).rd (cvuP u) CVU_BLOCKS_COUNT = satAdd CVU_BLOCKS_COUNT.w (s.rd (cvuP u) CVU_BLOCKS_COUNT) 1 := by
  rw [State.cvuClose_compute hmode, State.cvu_cvuCount, State.cvuPush_room _ _ _ _ h, State.blocks_cvuCount,
    State.rd_cvuPush _ _ _ _ (by decide)]
  exact ⟨rfl, rfl, rfl, rfl⟩

theorem State.cvuClose_full (h : 16 ≤ (s.cvu u).queue.length) :
    ((s.cvuClose u a d).cvu u).queue = (s.cvu u).queue ∧ ((s.cvuClose u a d).cvu u).data = [] ∧
    (s.cvuClose u a d).on (cvuP u) CVU_RES_STAT_OVF = true ∧
    (s.cvuClose u a d).rd (cvuP u) CVU_LOST_COUNT = satAdd CVU_LOST_COUNT.w (s.rd (cvuP u) CVU_LOST_COUNT) 1 := by
  rw [State.cvuClose_compute hmode, State.cvu_cvuCount, State.on_eq, State.rd_cvuCount _ _ (by decide),
    State.rd_cvuCount _ _ (by decide), State.cvuPush_full _ _ _ _ h, State.rd_cnt_self]
  refine ⟨rfl, rfl, ?_, by rw [State.wb_eq, State.rd_wr_same (by decide)]⟩
  rw [State.cnt_eq, State.rd_wr_same (by decide), ← State.on_eq, State.on_wb_true _ _ _ rfl]

end

/-! ### The register tap (R320, R321, R323) -/

section
variable {w : Writer} {u : Fin 24} {s : State} (hfence : s.pageFenced .cvu u.val = false)
include hfence

theorem exec_cvuDataWrite (v : Word) : exec (.cvuDataWrite w u v) s = .next (s.cvuFeed w u.val (le v.toNat 4)) :=
  congrArg Host.Outcome.next (if_neg (by simp [hfence]))

theorem exec_cvuDataBWrite (v : BitVec 8) : exec (.cvuDataBWrite w u v) s = .next (s.cvuFeed w u.val [v.toNat]) :=
  congrArg Host.Outcome.next (if_neg (by simp [hfence]))

theorem exec_cvuEnd_other (h : s.cvuMine w u.val = false) : exec (.cvuEnd w u) s = .next s := by
  show execCvuEnd w u s = _
  simp [execCvuEnd, hfence, h]

theorem exec_cvuEnd_tap (h : s.cvuMine w u.val = true) (htap : s.rd (cvuP u.val) CVU_CFG_TAP = 0) :
    exec (.cvuEnd w u) s = .next (s.cvuClose u.val ((s.cvu u.val).first.getD 0) (s.cvu u.val).data) := by
  show execCvuEnd w u s = _
  simp [execCvuEnd, hfence, h, htap]

omit hfence in
theorem State.cvuFeed_other (h : s.cvuMine w u.val = false) (d : List Nat) : s.cvuFeed w u.val d = s := by
  simp [State.cvuFeed, h]

omit hfence in
theorem State.cvuFeed_mine (h : s.cvuMine w u.val = true) (htap : s.rd (cvuP u.val) CVU_CFG_TAP = 0) (d : List Nat) :
    s.cvuFeed w u.val d = s.setCvu u.val { s.cvu u.val with data := (s.cvu u.val).data ++ d } := by
  simp [State.cvuFeed, h, htap]

/-! ### Results read (R324) -/

theorem exec_cvuResultPop_empty (h : (s.cvu u.val).queue = []) : exec (.cvuResultPop w u) s = .next { s with rdata := 0 } := by
  show execCvuResultPop w u s = _
  simp only [execCvuResultPop, hfence, h]
  rfl

/-- The oldest result taken from the queue. -/
def State.cvuTake (s : State) (u v : Nat) (l : List (Nat × Nat)) : State :=
  ((s.ret (v / 2 ^ 32)).setCvu u { s.cvu u with queue := l }).wr (cvuP u) CVU_RES_STAT_USED l.length

variable {v tag : Nat} {l : List (Nat × Nat)} (hqueue : (s.cvu u.val).queue = (v, tag) :: l)
include hqueue

theorem exec_cvuResultPop_owner (h : s.ownedBy w.fid (cvuIdx u.val) = true) :
    exec (.cvuResultPop w u) s = .next (s.cvuTake u.val v l) := by
  show execCvuResultPop w u s = _
  simp only [execCvuResultPop, hfence, hqueue, h, Bool.or_true]
  rfl

theorem exec_cvuResultPop_other (h : s.ownedBy w.fid (cvuIdx u.val) = false) (htap : s.rd (cvuP u.val) CVU_CFG_TAP < 2) :
    exec (.cvuResultPop w u) s = .next { s with rdata := v / 2 ^ 32 } := by
  have hown : (decide (2 ≤ s.rd (cvuP u.val) CVU_CFG_TAP) || s.ownedBy w.fid (cvuIdx u.val)) = false := by
    simp [h, htap]
  show execCvuResultPop w u s = _
  simp only [execCvuResultPop, hfence, hqueue, hown]
  rfl

end

/-! ### Write snoops (R320, R321) -/

section
variable {s : State} {u : Nat}

/-- The requests seen enter the block in their order: the first of them gives its address where it has none yet. -/
theorem foldl_cvuSeen (l : List (Nat × List Nat)) (x : CvuSt) :
    l.foldl (fun x r => { x with first := some (x.first.getD r.1), data := x.data ++ r.2 }) x =
      { x with first := (match x.first with | some a => some a | none => l.head?.map (·.1)), data := x.data ++ l.flatMap (·.2) } := by
  induction l generalizing x with
  | nil => cases hx : x.first <;> simp [← hx]
  | cons r l ih =>
    rw [List.foldl_cons, ih]
    cases x.first <;> simp

theorem State.cvuGather_eq : s.cvuGather u = s.setCvu u { s.cvu u with
    first := (match (s.cvu u).first with | some a => some a | none => ((s.cvu u).seen.head?).map (·.1))
    data := (s.cvu u).data ++ (s.cvu u).seen.flatMap (·.2), seen := [] } := by
  rw [State.cvuGather, foldl_cvuSeen]

/-- What a unit of the registers' page has closed reads the registers and the count, which requests taken off the list leave. -/
theorem State.cvuResult_setSeen (l : List (Nat × List Nat)) (a : Nat) (d : List Nat) :
    (s.setCvu u { s.cvu u with seen := l }).cvuResult u a d = s.cvuResult u a d := by
  have htag : (s.setCvu u { s.cvu u with seen := l }).cvuTag u a = s.cvuTag u a := by
    simp only [State.cvuTag, State.cvu_setCvu, State.rd_setCvu]
  rw [State.cvuResult, htag]
  rfl

theorem exec_cvuSnoopBlock_off {u : Fin 24} (k : Nat) (h : s.enabled (cvuP u.val) = false) :
    exec (.cvuSnoopBlock u k) s = .next s := congrArg Host.Outcome.next (if_pos (by simp [h]))

theorem exec_cvuSnoopBlock_write {u : Fin 24} (k : Nat) (hen : s.enabled (cvuP u.val) = true)
    (htap : s.rd (cvuP u.val) CVU_CFG_TAP = 1) : exec (.cvuSnoopBlock u k) s = .next (s.cvuWrite u.val) := by
  show execCvuSnoopBlock u k s = _
  simp only [execCvuSnoopBlock, hen, htap]
  rfl

theorem State.cvuWrite_accum (h : s.on (cvuP u) CVU_CFG_ACCUM = true) : s.cvuWrite u = s.cvuGather u := if_pos h

variable (hacc : s.on (cvuP u) CVU_CFG_ACCUM = false)
include hacc

theorem State.cvuWrite_none (h : (s.cvu u).seen = []) : s.cvuWrite u = s := by
  simp [State.cvuWrite, hacc, h]

theorem State.cvuWrite_oldest {a : Nat} {d : List Nat} {l : List (Nat × List Nat)} (h : (s.cvu u).seen = (a, d) :: l) :
    s.cvuWrite u = (s.setCvu u { s.cvu u with seen := l }).cvuClose u a d := by
  simp [State.cvuWrite, hacc, h]

end

/-- Settles O45: a block closes into one result, which its queue takes or loses, and is counted in either case. -/
theorem checkValueUnits : Obligations.CheckValueUnits := by
  unfold Obligations.CheckValueUnits
  intro w u s hfence
  refine ⟨fun hmine htap => ⟨fun v => ?_, fun v => ?_, fun hmode hroom => ?_, fun hmode hfull => ?_⟩,
    fun hother => ⟨fun v => ?_, fun v => ?_, exec_cvuEnd_other hfence hother⟩, exec_cvuResultPop_empty hfence,
    fun v tag l hqueue hown => ?_, fun v tag l hqueue => exec_cvuResultPop_other hfence hqueue,
    fun k => exec_cvuSnoopBlock_off k, fun k hen htap hacc => ?_, fun k hen htap hacc hseen => ?_,
    fun k a d l hen htap hacc hseen hmode hroom => ?_⟩
  · rw [completes, exec_cvuDataWrite hfence, State.cvuFeed_mine hmine htap]
    exact ⟨_, rfl, State.cvu_setCvu .., State.setCvu_frame ..⟩
  · rw [completes, exec_cvuDataBWrite hfence, State.cvuFeed_mine hmine htap]
    exact ⟨_, rfl, State.cvu_setCvu .., State.setCvu_frame ..⟩
  · obtain ⟨hqueue, hdata, -, hblocks⟩ := State.cvuClose_room hmode hroom
    exact ⟨_, exec_cvuEnd_tap hfence hmine htap, hqueue, hdata, hblocks⟩
  · exact ⟨_, exec_cvuEnd_tap hfence hmine htap, State.cvuClose_full hmode hfull⟩
  · rw [exec_cvuDataWrite hfence, State.cvuFeed_other hother]
  · rw [exec_cvuDataBWrite hfence, State.cvuFeed_other hother]
  · refine ⟨_, exec_cvuResultPop_owner hfence hqueue hown, rfl, ?_, onlyRegs_wr (by simp) onlyRegs_refl⟩
    simp [State.cvuTake]
  · rw [completes, exec_cvuSnoopBlock_write k hen htap, State.cvuWrite_accum hacc, State.cvuGather_eq]
    exact ⟨_, rfl, State.cvu_setCvu .., State.setCvu_frame ..⟩
  · rw [exec_cvuSnoopBlock_write k hen htap, State.cvuWrite_none hacc hseen]
  · obtain ⟨hqueue, -, hleft, -⟩ := State.cvuClose_room (s := s.setCvu u.val { s.cvu u.val with seen := l }) (a := a) (d := d)
      hmode (by simpa using hroom)
    rw [State.cvu_setCvu, State.cvuResult_setSeen] at hqueue
    rw [State.cvu_setCvu] at hleft
    rw [completes, exec_cvuSnoopBlock_write k hen htap, State.cvuWrite_oldest hacc hseen]
    exact ⟨_, rfl, hqueue, hleft⟩

end Sys2Proof.Machine
end

section
/-! PROOFS. Serial lanes: PLL lock and retry, loss of signal, clock recovery, test patterns (R310, R311, R314 to R316). -/

set_option autoImplicit false

namespace Sys2Proof.Machine

theorem ownPage_ln (l : Nat) : ownPage (pg .ln l) := ownPage_pg_above (by decide) l

/-! ### Fields of the LN pages -/

section
variable {s t u : State} {p l : Nat} {f g : Fld} {K : List Nat}

/-- Fields at different bits of their words have different keys, whatever their pages. -/
theorem State.rd_wr_bit {q v : Nat} (hf : f.lo < 32) (hg : g.lo < 32) (h : f.lo ≠ g.lo) : (s.wr q g v).rd p f = s.rd p f :=
  State.rd_wr_key (by simp only [fkey]; omega)

/-- Fields in words of different offsets, of pages, have different keys. -/
theorem State.rd_wr_word {q v : Nat} (hp : isPage p) (hq : isPage q) (hf : f.off < 0x1000 ∧ f.lo < 32)
    (hg : g.off < 0x1000 ∧ g.lo < 32) (h : f.off ≠ g.off) : (s.wr q g v).rd p f = s.rd p f := by
  unfold isPage at hp hq
  exact State.rd_wr_key (by simp only [fkey]; omega)

/-- What a lane carries reads no field at bit 9 of its word, where INJ_ONE lies. -/
theorem State.lnRun_wb_injOne (s : State) (l m : Nat) (b : Bool) : (s.wb (lnP l) LN_PAT_CTRL_INJ_ONE b).lnRun m = s.lnRun m := by
  have hrd : ∀ p f, f.lo < 32 → f.lo ≠ 9 → (s.wb (lnP l) LN_PAT_CTRL_INJ_ONE b).rd p f = s.rd p f := fun p f hf h =>
    State.rd_wr_bit hf (by decide) h
  have hen : ∀ p, (s.wb (lnP l) LN_PAT_CTRL_INJ_ONE b).enabled p = s.enabled p := fun p => by
    rw [State.enabled, State.enabled, State.on_eq, State.on_eq, hrd _ _ (by decide) (by decide)]
  have hnet : (s.wb (lnP l) LN_PAT_CTRL_INJ_ONE b).laneNet m = s.laneNet m := by
    simp only [State.laneNet, hen]
    rfl
  have hyoke : (s.wb (lnP l) LN_PAT_CTRL_INJ_ONE b).yokeQuad (m / 4) = s.yokeQuad (m / 4) := by
    simp only [State.yokeQuad, hen, hrd _ YK_CFG_QUAD (by decide) (by decide)]
    rfl
  simp only [State.lnRun, hnet, hyoke, hen, hrd _ LN_CFG_RATE (by decide) (by decide), hrd _ LN_CFG_PROTO (by decide) (by decide)]
  rfl

theorem State.lnTest_wb_injOne (s : State) (l m : Nat) (b : Bool) : (s.wb (lnP l) LN_PAT_CTRL_INJ_ONE b).lnTest m = s.lnTest m := by
  have hlock : ∀ f : Fld, f.lo < 32 → f.lo ≠ 9 → (s.wb (lnP l) LN_PAT_CTRL_INJ_ONE b).on (quadP m) f = s.on (quadP m) f :=
    fun f hf h => by
      rw [State.on_eq, State.on_eq, State.wb_eq, State.rd_wr_bit hf (by decide) h]
  simp only [State.lnTest, State.lnLocked, State.lnRun_wb_injOne]
  split
  next => rw [hlock _ (by split <;> decide) (by split <;> decide)]
  next => rfl

end

/-! ### Patterns begin and take bits: only pats, free values, records and their own fields change (R315, R316) -/

/-- From `s` to `t` nothing changes but fields of `K`, what events of the page at `q` change, patterns and the count of free values. -/
def patsOnly (K : List Nat) (q : Nat) (s t : State) : Prop := onlyRegsEv K q { s with pats := t.pats, freeCtr := t.freeCtr } t

section
variable {s t : State} {K : List Nat} {p q l : Nat} {f : Fld}

theorem patsOnly.refl : patsOnly K q s s := onlyRegsEv_refl

theorem patsOnly.wr {v : Nat} (hf : fkey p f ∈ K) (h : patsOnly K q s t) : patsOnly K q s (t.wr p f v) := onlyRegsEv_wr hf h

theorem patsOnly.emitOut {o : Out} (h : patsOnly K q s t) : patsOnly K q s (t.emitOut o) := onlyRegsEv_emitOut h

theorem patsOnly.setPat (x : PatSt) (h : patsOnly K q s t) : patsOnly K q s (t.setPat l x) := by
  obtain ⟨hframe, hregs, hloft, hseq⟩ := h
  refine ⟨?_, hregs, hloft, hseq⟩
  rw [State.setPat, hframe]

theorem patsOnly.draw (h : patsOnly K q s t) : patsOnly K q s t.draw.2 := by
  obtain ⟨hframe, hregs, hloft, hseq⟩ := h
  refine ⟨?_, hregs, hloft, hseq⟩
  rw [State.draw, hframe]

theorem patsOnly.emit {code : Nat} {data : List Nat} (hq : ringKeysFree q K) (h : patsOnly K q s t) :
    patsOnly K q s (t.emit q code data) := by
  have hcore := State.core_emit t q code data
  have hpats : (t.emit q code data).pats = t.pats := eq_of_core State.pats (fun _ => rfl) hcore
  have hfree : (t.emit q code data).freeCtr = t.freeCtr := eq_of_core State.freeCtr (fun _ => rfl) hcore
  rw [patsOnly, hpats, hfree]
  exact onlyRegsEv_emit hq h

theorem patsOnly.pllRetry_eq (h : patsOnly K q s t) : t.pllRetry = s.pllRetry := by
  rw [h.1]

theorem patsOnly.injectNext (hf : fkey (lnP l) LN_PAT_CTRL_INJ_ONE ∈ K) (h : patsOnly K q s t) : patsOnly K q s (t.injectNext l) := by
  unfold State.injectNext
  dsimp only
  split
  · exact ((h.setPat _).wr hf).emitOut
  · exact h

theorem patsOnly.patStart (hf : fkey (lnP l) LN_PAT_CTRL_INJ_ONE ∈ K) (h : patsOnly K q s t) : patsOnly K q s (t.patStart l) := by
  unfold State.patStart
  split
  · exact (h.draw.setPat _).injectNext hf
  · exact h

theorem patsOnly.idleOut (h : patsOnly K q s t) : patsOnly K q s (t.idleOut l) := by
  unfold State.idleOut
  split
  · exact h.emitOut
  · exact h

end

/-! ### A PLL locks (R310, R311) -/

section
variable {s : State} {q : Fin 16} {k : Fin 2}

theorem pllFlds_lock (k : Nat) : (pllFlds k).2.1.off = 0x304 ∧ (pllFlds k).2.1.lo < 32 ∧ (pllFlds k).2.1.w = 1 := by
  unfold pllFlds
  split <;> decide

/-- The fields that a PLL's lock may write: its own, and INJ_ONE of its quad's lanes. -/
def pllLockKeys (q k : Nat) : List Nat :=
  fkey (pg .ln (4 * q)) (pllFlds k).2.1 :: (upTo 4).map fun i => fkey (lnP (4 * q + i)) LN_PAT_CTRL_INJ_ONE

/-- The lane of a quad begins to send, where the PLL serves it. -/
def State.laneBegins (q k : Nat) (s : State) (i : Nat) : State :=
  if ratePll (s.lnRun (4 * q + i)).2 = some (k, s.pllFam q k) then (s.idleOut (4 * q + i)).patStart (4 * q + i) else s

/-- The PLL locked, its lanes begun. -/
def State.pllUp (s : State) (q k : Nat) : State :=
  (upTo 4).foldl (State.laneBegins q k) (s.wb (pg .ln (4 * q)) (pllFlds k).2.1 true)

theorem State.pllUp_spec (s : State) (q k : Nat) : patsOnly (pllLockKeys q k) (pg .ln (4 * q)) s (s.pllUp q k) ∧
    (s.pllUp q k).on (pg .ln (4 * q)) (pllFlds k).2.1 = true := by
  obtain ⟨hoff, hlo, hw⟩ := pllFlds_lock k
  constructor
  · refine foldl_keeps (P := patsOnly (pllLockKeys q k) (pg .ln (4 * q)) s) (fun u i hi h => ?_) (patsOnly.refl.wr List.mem_cons_self)
    unfold State.laneBegins
    split
    · exact h.idleOut.patStart (List.mem_cons_of_mem _ (List.mem_map_of_mem hi))
    · exact h
  · have hleave : ∀ u : State, ∀ i ∈ upTo 4, (State.laneBegins q k u i).rd (pg .ln (4 * q)) (pllFlds k).2.1 =
        u.rd (pg .ln (4 * q)) (pllFlds k).2.1 := fun u i _ => by
      have hbegin : patsOnly [fkey (lnP (4 * q + i)) LN_PAT_CTRL_INJ_ONE] (pg .ln (4 * q)) u (State.laneBegins q k u i) := by
        unfold State.laneBegins
        split
        · exact patsOnly.refl.idleOut.patStart List.mem_cons_self
        · exact patsOnly.refl
      refine onlyRegsEv.rd hbegin ?_ (not_evKey_page (isPage_pg ..) (ownPage_ln _) (beyondRaw_iff.2 ⟨by omega, by omega, hlo⟩))
      have hp := isPage_pg .ln (4 * q)
      have hp' := isPage_pg .ln (4 * q + i)
      unfold isPage at hp hp'
      simp only [List.mem_singleton, fkey, hoff, lnP, LN_PAT_CTRL_INJ_ONE]
      omega
    rw [State.on_eq, State.pllUp, foldl_leaves (g := fun u => u.rd (pg .ln (4 * q)) (pllFlds k).2.1) hleave, ← State.on_eq,
      State.on_wb_true _ _ _ hw]

theorem ringKeysFree_pllLock (q k : Nat) : ringKeysFree (pg .ln (4 * q)) (pllLockKeys q k) := by
  have hkey : ∀ g : Fld, g.off = 0x1C → g.lo < 32 → fkey (pg .ln (4 * q)) g ∉ pllLockKeys q k := by
    intro g hg hlo hmem
    have hp := isPage_pg .ln (4 * q)
    unfold isPage at hp
    rcases List.mem_cons.1 hmem with he | he
    · obtain ⟨hoff, hlo', -⟩ := pllFlds_lock k
      simp only [fkey, hg, hoff] at he
      omega
    · obtain ⟨i, -, he⟩ := List.mem_map.1 he
      have hp' := isPage_pg .ln (4 * q + i)
      unfold isPage at hp'
      simp only [fkey, hg, lnP, LN_PAT_CTRL_INJ_ONE] at he
      omega
  exact ⟨⟨hkey _ rfl (by decide), not_evKey_page (isPage_pg ..) (ownPage_ln _) rfl⟩,
    ⟨hkey _ rfl (by decide), not_evKey_page (isPage_pg ..) (ownPage_ln _) rfl⟩⟩

theorem exec_pllLocked_not (h : s.on (pg .ln (4 * q.val)) (pllFlds k.val).1 = false ∨
    s.on (pg .ln (4 * q.val)) (pllFlds k.val).2.1 = true ∨ s.on (pg .clk 0) (s.pllRef q.val k.val) = false) :
    exec (.pllLocked q k) s = .next s := by
  refine congrArg Host.Outcome.next (if_pos ?_)
  rcases h with h | h | h <;> simp [h]

theorem exec_pllLocked (hon : s.on (pg .ln (4 * q.val)) (pllFlds k.val).1 = true)
    (hlock : s.on (pg .ln (4 * q.val)) (pllFlds k.val).2.1 = false) (href : s.on (pg .clk 0) (s.pllRef q.val k.val) = true) :
    exec (.pllLocked q k) s = .next (if (Store.find (2 * q.val + k.val) (s.pllUp q.val k.val).pllRetry).isSome
      then State.emit { s.pllUp q.val k.val with pllRetry := Store.del (2 * q.val + k.val) (s.pllUp q.val k.val).pllRetry }
        (pg .ln (4 * q.val)) 0x0802 [k.val, (s.pllUp q.val k.val).pllFam q.val k.val]
      else s.pllUp q.val k.val) :=
  congrArg Host.Outcome.next (if_neg (by simp [hon, hlock, href]))

theorem pllLocked_locks (hon : s.on (pg .ln (4 * q.val)) (pllFlds k.val).1 = true)
    (hlock : s.on (pg .ln (4 * q.val)) (pllFlds k.val).2.1 = false) (href : s.on (pg .clk 0) (s.pllRef q.val k.val) = true) :
    completes (.pllLocked q k) s fun t =>
      t.on (pg .ln (4 * q.val)) (pllFlds k.val).2.1 = true ∧ Store.find (2 * q.val + k.val) t.pllRetry = none ∧
      onlyRegsEv (pllLockKeys q.val k.val) (pg .ln (4 * q.val))
        { s with pllRetry := t.pllRetry, pats := t.pats, freeCtr := t.freeCtr } t := by
  obtain ⟨honly, hup⟩ := s.pllUp_spec q.val k.val
  refine ⟨_, exec_pllLocked hon hlock href, ?_⟩
  generalize s.pllUp q.val k.val = u at honly hup
  split
  next =>
    obtain ⟨hoff, hlo, -⟩ := pllFlds_lock k.val
    have hcore := State.core_emit { u with pllRetry := Store.del (2 * q.val + k.val) u.pllRetry } (pg .ln (4 * q.val)) 0x0802
      [k.val, u.pllFam q.val k.val]
    have hretry := eq_of_core State.pllRetry (fun _ => rfl) hcore
    have hpats := eq_of_core State.pats (fun _ => rfl) hcore
    have hfree := eq_of_core State.freeCtr (fun _ => rfl) hcore
    refine ⟨?_, by rw [hretry]; exact Store.find_del_self .., ?_⟩
    · rw [State.on_emit_page (isPage_pg ..) (ownPage_ln _) (beyondRaw_iff.2 ⟨by omega, by omega, hlo⟩)]
      exact hup
    · rw [hretry, hpats, hfree]
      refine onlyRegsEv_emit (ringKeysFree_pllLock ..) ?_
      obtain ⟨hframe, hregs, hloft, hseq⟩ := honly
      exact ⟨by rw [hframe], hregs, hloft, hseq⟩
  next hnone =>
    refine ⟨hup, Option.not_isSome_iff_eq_none.1 hnone, ?_⟩
    rw [honly.pllRetry_eq]
    exact honly

end

/-! ### A PLL loses lock, and retries (R311) -/

section
variable {s : State} {q : Fin 16} {k : Fin 2}

/-- The PLL marked lost, before its links fall and its lanes fall quiet. -/
def State.pllLoss (s : State) (q k : Nat) : State :=
  let u := (s.wb (pg .ln (4 * q)) (pllFlds k).2.1 false).cnt (pg .ln (4 * q)) LN_QLOSS_COUNT 1
  { u with pllRetry := Store.put (2 * q + k) (u.time.run + ns 1000000) u.pllRetry }

/-- What the loss makes of the record, the links and the lanes. -/
def State.pllFall (s : State) (q k fam : Nat) : State :=
  (upTo 4).foldl (fun s i => s.lnQuiet (4 * q + i)) ((s.emit (pg .ln (4 * q)) 0x0801 [k, fam]).netsDown q k)

theorem exec_pllLost (hon : s.on (pg .ln (4 * q.val)) (pllFlds k.val).1 = true)
    (hlock : s.on (pg .ln (4 * q.val)) (pllFlds k.val).2.1 = true) :
    exec (.pllLost q k) s = .next ((s.pllLoss q.val k.val).pllFall q.val k.val ((s.pllLoss q.val k.val).pllFam q.val k.val)) :=
  congrArg Host.Outcome.next (if_neg (by simp [hon, hlock]))

/-- A quiet lane loses its status, its checker's lock and its pattern, and nothing of the quad's words. -/
theorem State.lnQuiet_leaves (s : State) (l q : Nat) {f : Fld} (hf : f.off < 0x1000 ∧ f.lo < 32) (hst : f.off ≠ 0xC)
    (hpat : f.off ≠ 0x108) : (s.lnQuiet l).rd (pg .ln q) f = s.rd (pg .ln q) f ∧ (s.lnQuiet l).pllRetry = s.pllRetry := by
  unfold State.lnQuiet
  split
  · exact ⟨rfl, rfl⟩
  · have hwrite : ∀ (u : State) (g : Fld) (v : Bool), g.off < 0x1000 ∧ g.lo < 32 → f.off ≠ g.off →
        (u.wb (lnP l) g v).rd (pg .ln q) f = u.rd (pg .ln q) f := fun u g v hg h =>
      State.rd_wr_word (isPage_pg ..) (isPage_pg ..) hf hg h
    refine ⟨?_, rfl⟩
    show (((s.wb (lnP l) LN_ST_LOS false).wb (lnP l) LN_ST_CDR false).wb (lnP l) LN_PAT_CTRL_LOCKED false).rd (pg .ln q) f = _
    rw [hwrite _ _ _ (by decide) hpat, hwrite _ _ _ (by decide) hst, hwrite _ _ _ (by decide) hst]

theorem State.netLink_leaves (s : State) {n : Nat} (hn : n < 18) (up fec : Bool) (q : Nat) {f : Fld} (hf : f.beyondRaw = true) :
    (s.netLink n up fec).rd (pg .ln q) f = s.rd (pg .ln q) f ∧ (s.netLink n up fec).pllRetry = s.pllRetry := by
  obtain ⟨hoff, -, hlo⟩ := beyondRaw_iff.1 hf
  have hlink := (s.netLink_spec n up fec).2
  refine ⟨hlink.rd ?_ (not_evKey_page (isPage_pg ..) (ownPage_ln _) hf), by rw [hlink.1]⟩
  simp only [List.mem_cons, List.not_mem_nil, or_false, not_or, fkey, pg_ln, pg_net, NET_LINK_UP, NET_LINK_FEC_LOCK]
  omega

theorem State.netsDown_leaves (s : State) (q k q' : Nat) {f : Fld} (hf : f.beyondRaw = true) :
    (s.netsDown q k).rd (pg .ln q') f = s.rd (pg .ln q') f ∧ (s.netsDown q k).pllRetry = s.pllRetry := by
  have hstep : ∀ u : State, ∀ n ∈ upTo 18, _ := fun u n hn => u.netLink_leaves (List.mem_range.1 hn) false false q' hf
  unfold State.netsDown
  constructor
  · refine foldl_leaves (g := fun u => u.rd (pg .ln q') f) (fun u n hn => ?_) s
    refine (apply_ite (fun u => State.rd u (pg .ln q') f) _ _ _).trans ?_
    rw [(hstep u n hn).1, ite_self]
  · refine foldl_leaves (g := State.pllRetry) (fun u n hn => ?_) s
    refine (apply_ite State.pllRetry _ _ _).trans ?_
    rw [(hstep u n hn).2, ite_self]

theorem State.pllFall_leaves (s : State) (q k fam : Nat) {f : Fld} (hf : f.beyondRaw = true) (hst : f.off ≠ 0xC)
    (hpat : f.off ≠ 0x108) : (s.pllFall q k fam).rd (pg .ln (4 * q)) f = s.rd (pg .ln (4 * q)) f ∧
      (s.pllFall q k fam).pllRetry = s.pllRetry := by
  obtain ⟨hoff, -, hlo⟩ := beyondRaw_iff.1 hf
  have hquiet : ∀ u : State, ∀ i ∈ upTo 4, _ := fun u i _ => u.lnQuiet_leaves (4 * q + i) (4 * q) ⟨hoff, hlo⟩ hst hpat
  obtain ⟨hrd, hretry⟩ := (s.emit (pg .ln (4 * q)) 0x0801 [k, fam]).netsDown_leaves q k (4 * q) hf
  unfold State.pllFall
  constructor
  · rw [foldl_leaves (g := fun u => u.rd (pg .ln (4 * q)) f) (fun u i hi => (hquiet u i hi).1), hrd,
      State.rd_emit_page (isPage_pg ..) (ownPage_ln _) hf]
  · rw [foldl_leaves (g := State.pllRetry) (fun u i hi => (hquiet u i hi).2), hretry]
    exact eq_of_core State.pllRetry (fun _ => rfl) (State.core_emit ..)

theorem pllLost_loses (hon : s.on (pg .ln (4 * q.val)) (pllFlds k.val).1 = true)
    (hlock : s.on (pg .ln (4 * q.val)) (pllFlds k.val).2.1 = true) : completes (.pllLost q k) s fun t =>
      t.on (pg .ln (4 * q.val)) (pllFlds k.val).2.1 = false ∧
      t.rd (pg .ln (4 * q.val)) LN_QLOSS_COUNT = satAdd LN_QLOSS_COUNT.w (s.rd (pg .ln (4 * q.val)) LN_QLOSS_COUNT) 1 ∧
      Store.find (2 * q.val + k.val) t.pllRetry = some (s.time.run + ns 1000000) := by
  obtain ⟨hoff, hlo, -⟩ := pllFlds_lock k.val
  have hloss : (s.pllLoss q.val k.val).on (pg .ln (4 * q.val)) (pllFlds k.val).2.1 = false := by
    show ((s.wb _ _ false).cnt _ LN_QLOSS_COUNT 1).on _ _ = false
    rw [State.on_eq, State.cnt_eq, State.rd_wr_same (by simp only [hoff, LN_QLOSS_COUNT]; omega), ← State.on_eq, State.on_wb_false]
  have hcount : (s.pllLoss q.val k.val).rd (pg .ln (4 * q.val)) LN_QLOSS_COUNT =
      satAdd LN_QLOSS_COUNT.w (s.rd (pg .ln (4 * q.val)) LN_QLOSS_COUNT) 1 := by
    show ((s.wb (pg .ln (4 * q.val)) (pllFlds k.val).2.1 false).cnt (pg .ln (4 * q.val)) LN_QLOSS_COUNT 1).rd _ LN_QLOSS_COUNT = _
    rw [State.rd_cnt_self, State.wb_eq, State.rd_wr_same (by simp only [hoff, LN_QLOSS_COUNT]; omega)]
  refine ⟨_, exec_pllLost hon hlock, ?_, ?_, ?_⟩
  · rw [State.on_eq, ((s.pllLoss q.val k.val).pllFall_leaves _ _ _ (beyondRaw_iff.2 ⟨by omega, by omega, hlo⟩) (by omega)
      (by omega)).1, ← State.on_eq, hloss]
  · rw [((s.pllLoss q.val k.val).pllFall_leaves _ _ _ (f := LN_QLOSS_COUNT) rfl (by decide) (by decide)).1, hcount]
  · rw [((s.pllLoss q.val k.val).pllFall_leaves _ _ _ (f := LN_QLOSS_COUNT) rfl (by decide) (by decide)).2]
    exact Store.find_put_self ..

theorem exec_pllRetry_none (h : Store.find (2 * q.val + k.val) s.pllRetry = none) : exec (.pllRetry q k) s = .next s := by
  show execPllRetry q k s = _
  simp only [execPllRetry, h]

theorem pllRetry_again {a : Nat} (h : Store.find (2 * q.val + k.val) s.pllRetry = some a) : completes (.pllRetry q k) s fun t =>
    Store.find (2 * q.val + k.val) t.pllRetry = some (a + ns 1000000) ∧ a ≤ t.time.run := by
  have hexec : exec (.pllRetry q k) s = .next { s.advanceRun a with
      pllRetry := Store.put (2 * q.val + k.val) (a + ns 1000000) (s.advanceRun a).pllRetry } := by
    show execPllRetry q k s = _
    simp only [execPllRetry, h]
  exact ⟨_, hexec, Store.find_put_self .., s.le_run_advanceRun a⟩

end

/-! ### Loss of signal and clock recovery (R314) -/

section
variable {s : State} {l : Fin 64} {b : Bool}

theorem exec_receiverOff (h : s.lnRx l.val = false) :
    exec (.losChange l b) s = .next s ∧ exec (.cdrLockChange l b) s = .next s :=
  ⟨congrArg Host.Outcome.next (if_pos (by simp [h])), congrArg Host.Outcome.next (if_neg (by simp [h]))⟩

theorem State.on_wb_self {s : State} {p : Nat} {f : Fld} (hw : f.w = 1) (b : Bool) : (s.wb p f b).on p f = b := by
  cases b
  · exact State.on_wb_false ..
  · exact State.on_wb_true _ _ _ hw

theorem cdrLockChange_shows (h : s.lnRx l.val = true) : completes (.cdrLockChange l b) s fun t =>
    t.on (lnP l.val) LN_ST_CDR = b ∧ onlyRegs [fkey (lnP l.val) LN_ST_CDR] s t :=
  ⟨_, congrArg Host.Outcome.next (if_pos h), State.on_wb_self rfl b, onlyRegs_wb (by simp) onlyRegs_refl⟩

theorem exec_losChange (h : s.lnRx l.val = true) (hne : s.on (lnP l.val) LN_ST_LOS ≠ b) : exec (.losChange l b) s =
    .next (if b then ((s.wb (lnP l.val) LN_ST_LOS b).cnt (lnP l.val) LN_LOS_COUNT_COUNT 1).emit (lnP l.val) 1 []
      else (s.wb (lnP l.val) LN_ST_LOS b).emit (lnP l.val) 2 []) :=
  congrArg Host.Outcome.next (if_neg (by simp [h, hne]))

theorem losChange_shows (h : s.lnRx l.val = true) (hne : s.on (lnP l.val) LN_ST_LOS ≠ b) : completes (.losChange l b) s fun t =>
    t.on (lnP l.val) LN_ST_LOS = b ∧
    t.rd (lnP l.val) LN_LOS_COUNT_COUNT = (if b then satAdd LN_LOS_COUNT_COUNT.w (s.rd (lnP l.val) LN_LOS_COUNT_COUNT) 1
      else s.rd (lnP l.val) LN_LOS_COUNT_COUNT) ∧
    onlyRegsEv [fkey (lnP l.val) LN_ST_LOS, fkey (lnP l.val) LN_LOS_COUNT_COUNT] (lnP l.val) s t := by
  have hfree : ringKeysFree (lnP l.val) [fkey (lnP l.val) LN_ST_LOS, fkey (lnP l.val) LN_LOS_COUNT_COUNT] :=
    ringKeysFree_fields (L := [LN_ST_LOS, LN_LOS_COUNT_COUNT]) (ownPage_ln _) (by decide)
  have hemit : ∀ (u : State) (f : Fld) (c : Nat), f.beyondRaw = true → (u.emit (lnP l.val) c []).rd (lnP l.val) f = u.rd (lnP l.val) f :=
    fun u f c hf => State.rd_emit_page (isPage_pg ..) (ownPage_ln _) hf
  refine ⟨_, exec_losChange h hne, ?_⟩
  cases b
  · refine ⟨?_, ?_, onlyRegsEv_emit hfree (onlyRegsEv_wb (by simp) onlyRegsEv_refl)⟩
    · exact (State.on_emit_page (isPage_pg ..) (ownPage_ln _) rfl).trans (State.on_wb_false ..)
    · exact (hemit _ _ _ rfl).trans (State.rd_wr_same (by decide))
  · refine ⟨?_, ?_, onlyRegsEv_emit hfree (onlyRegsEv_cnt (by simp) (onlyRegsEv_wb (by simp) onlyRegsEv_refl))⟩
    · refine (State.on_emit_page (isPage_pg ..) (ownPage_ln _) rfl).trans ?_
      rw [State.on_eq, State.cnt_eq, State.rd_wr_same (by decide), ← State.on_eq, State.on_wb_true _ _ _ rfl]
    · refine (hemit _ _ _ rfl).trans ((State.rd_cnt_self ..).trans ?_)
      rw [State.wb_eq, State.rd_wr_same (by decide), if_pos rfl]

end
/-! ### The pattern checker takes bits (R315, R316) -/

section
variable {s u : State} {l : Nat} {b : Bool}

/-- The fields that the checker of a lane writes. -/
def checkKeys (l : Nat) : List Nat := [fkey (lnP l) LN_PAT_CTRL_LOCKED, fkey (lnP l) LN_PAT_ERR_COUNT, fkey (lnP l) LN_PAT_BITS_COUNT]

theorem ringKeysFree_check (l : Nat) : ringKeysFree (lnP l) (checkKeys l) :=
  ringKeysFree_fields (L := [LN_PAT_CTRL_LOCKED, LN_PAT_ERR_COUNT, LN_PAT_BITS_COUNT]) (ownPage_ln l) (by decide)

theorem State.rd_setPat (s : State) (l : Nat) (x : PatSt) (p : Nat) (f : Fld) : (s.setPat l x).rd p f = s.rd p f := rfl

theorem State.on_setPat (s : State) (l : Nat) (x : PatSt) (p : Nat) (f : Fld) : (s.setPat l x).on p f = s.on p f := rfl

theorem State.pat_setPat (s : State) (l : Nat) (x : PatSt) : (s.setPat l x).pat l = x := by
  rw [State.pat, State.setPat, Store.find_put_self, Option.getD_some]

theorem State.core_setPat (s : State) (l : Nat) (x : PatSt) : (s.setPat l x).core = s.core.setPat l x := rfl

theorem State.freeCtr_setPat (s : State) (l : Nat) (x : PatSt) : (s.setPat l x).freeCtr = s.freeCtr := rfl

theorem State.freeCtr_core (s : State) : s.core.freeCtr = s.freeCtr := rfl

theorem patsOnly.patTake {t : State} (h : patsOnly (checkKeys l) (lnP l) s t) : patsOnly (checkKeys l) (lnP l) s (t.patTake l b) := by
  have hkeys := ringKeysFree_check l
  unfold State.patTake
  dsimp only
  split
  · have hcount : ∀ m n, patsOnly (checkKeys l) (lnP l) s ((t.cnt (lnP l) LN_PAT_ERR_COUNT m).cnt (lnP l) LN_PAT_BITS_COUNT n) :=
      fun m n => (h.wr (by simp [checkKeys])).wr (by simp [checkKeys])
    split
    · exact (((hcount ..).setPat _).wr (by simp [checkKeys])).emit hkeys
    · exact (hcount ..).setPat _
  · split
    · exact ((h.setPat _).wr (by simp [checkKeys])).emit hkeys
    · exact h.setPat _

theorem State.patTake_freeCtr (s : State) (l : Nat) (b : Bool) : (s.patTake l b).freeCtr = s.freeCtr := by
  rw [← State.freeCtr_core]
  unfold State.patTake
  dsimp only
  split <;> split <;> simp [State.core_setPat, State.freeCtr_setPat, State.freeCtr_core]

theorem patsOnly.patClean {t : State} {n : Nat} (h : patsOnly (checkKeys l) (lnP l) s t) :
    patsOnly (checkKeys l) (lnP l) s (t.patClean l n) := by
  unfold State.patClean
  dsimp only
  split
  · exact h
  · exact (h.wr (by simp [checkKeys])).setPat _

theorem State.patClean_freeCtr (s : State) (l n : Nat) : (s.patClean l n).freeCtr = s.freeCtr := by
  unfold State.patClean
  exact (apply_ite State.freeCtr _ _ _).trans (ite_self _)

/-- A clean run counts bits and writes nothing else of the lane's words. -/
theorem State.patClean_leaves (s : State) (l n : Nat) {f : Fld}
    (h : ¬ (f.off * 32 + f.lo = LN_PAT_BITS_COUNT.off * 32 + LN_PAT_BITS_COUNT.lo)) :
    (s.patClean l n).rd (lnP l) f = s.rd (lnP l) f := by
  unfold State.patClean
  dsimp only
  split
  · rfl
  · exact State.rd_wr_same h

/-- An unlocked checker with fewer than 64 bits takes one: with the 64th it locks where they fit the pattern, before it only waits. -/
theorem State.patTake_unlocked (hlock : s.on (lnP l) LN_PAT_CTRL_LOCKED = false) (hlen : (s.pat l).rx.length < 64) :
    s.patTake l b =
      let rx := (b != s.on (lnP l) LN_CFG_RX_POL) :: (s.pat l).rx
      if rx.length = 64 ∧ patFits (s.rd (lnP l) LN_PAT_CTRL_CHK) (s.rd (lnP l) LN_PAT_WORD_WORD) rx then
        ((s.setPat l { s.pat l with rx := rx.take 31, errs := [] }).wb (lnP l) LN_PAT_CTRL_LOCKED true).emit (lnP l) 0x1002
          ([0, 0, 0, 0] ++ le (((s.setPat l { s.pat l with rx := rx.take 31, errs := [] }).wb (lnP l) LN_PAT_CTRL_LOCKED true).rd
            (lnP l) LN_PAT_ERR_COUNT) 4)
      else s.setPat l { s.pat l with rx := rx } := by
  have htake : ((b != s.on (lnP l) LN_CFG_RX_POL) :: (s.pat l).rx).take 64 = (b != s.on (lnP l) LN_CFG_RX_POL) :: (s.pat l).rx :=
    List.take_of_length_le hlen
  unfold State.patTake
  dsimp only
  rw [if_neg (by simp [hlock]), htake]

theorem State.patTake_waits (hlock : s.on (lnP l) LN_PAT_CTRL_LOCKED = false) (hlen : (s.pat l).rx.length + 1 < 64) :
    s.patTake l b = s.setPat l { s.pat l with rx := (b != s.on (lnP l) LN_CFG_RX_POL) :: (s.pat l).rx } := by
  rw [State.patTake_unlocked hlock (by omega)]
  exact if_neg fun h => by
    rw [List.length_cons] at h
    omega

theorem State.patTake_decides (hlock : s.on (lnP l) LN_PAT_CTRL_LOCKED = false) (hlen : (s.pat l).rx.length + 1 = 64) :
    (s.patTake l b).on (lnP l) LN_PAT_CTRL_LOCKED = patFits (s.rd (lnP l) LN_PAT_CTRL_CHK) (s.rd (lnP l) LN_PAT_WORD_WORD)
      ((b != s.on (lnP l) LN_CFG_RX_POL) :: (s.pat l).rx) := by
  rw [State.patTake_unlocked hlock (by omega)]
  dsimp only
  split
  next h =>
    rw [State.on_emit_page (isPage_pg ..) (ownPage_ln _) rfl, State.on_wb_true _ _ _ rfl, h.2]
  next h =>
    rw [State.on_setPat, hlock]
    exact (Bool.eq_false_iff.2 fun hfit => h ⟨hlen, hfit⟩).symm

/-- Bits reach an unlocked checker up to the 64th, which decides. -/
theorem State.patTakes_decide (bits : List Bool) : ∀ u : State, u.on (lnP l) LN_PAT_CTRL_LOCKED = false →
    (u.pat l).rx.length + bits.length = 64 → bits ≠ [] →
    (bits.foldl (fun s b => s.patTake l b) u).on (lnP l) LN_PAT_CTRL_LOCKED =
      patFits (u.rd (lnP l) LN_PAT_CTRL_CHK) (u.rd (lnP l) LN_PAT_WORD_WORD)
        ((bits.map (· != u.on (lnP l) LN_CFG_RX_POL)).reverse ++ (u.pat l).rx) := by
  induction bits with
  | nil => exact fun _ _ _ h => absurd rfl h
  | cons b bits ih =>
    intro u hlock hlen _
    rw [List.length_cons] at hlen
    rw [List.foldl_cons, List.map_cons, List.reverse_cons, List.append_assoc, List.singleton_append]
    by_cases hlast : bits = []
    · subst hlast
      exact State.patTake_decides hlock hlen
    · have hpos := List.length_pos_iff.2 hlast
      have hrest := ih (u.setPat l { u.pat l with rx := (b != u.on (lnP l) LN_CFG_RX_POL) :: (u.pat l).rx }) hlock
        (by rw [State.pat_setPat]; simp only [List.length_cons]; omega) hlast
      rw [State.pat_setPat] at hrest
      rw [State.patTake_waits hlock (by omega)]
      exact hrest

/-- A locked checker counts a wrong bit, and stays locked with at most 16 such among the latest 64. -/
theorem State.patTake_locked (hlock : s.on (lnP l) LN_PAT_CTRL_LOCKED = true) :
    let bad := (b != s.on (lnP l) LN_CFG_RX_POL) != patNext (s.rd (lnP l) LN_PAT_CTRL_CHK) (s.pat l).rx
    (s.patTake l b).rd (lnP l) LN_PAT_ERR_COUNT = satAdd LN_PAT_ERR_COUNT.w (s.rd (lnP l) LN_PAT_ERR_COUNT) (b2n bad) ∧
    (s.patTake l b).on (lnP l) LN_PAT_CTRL_LOCKED = decide (((bad :: (s.pat l).errs).take 64).count true ≤ 16) := by
  intro bad
  have hcount : ∀ n, ((s.cnt (lnP l) LN_PAT_ERR_COUNT (b2n bad)).cnt (lnP l) LN_PAT_BITS_COUNT n).rd (lnP l) LN_PAT_ERR_COUNT =
      satAdd LN_PAT_ERR_COUNT.w (s.rd (lnP l) LN_PAT_ERR_COUNT) (b2n bad) := fun n => by
    rw [State.cnt_eq, State.rd_wr_same (by decide), State.rd_cnt_self]
  have hlocked : ∀ m n, ((s.cnt (lnP l) LN_PAT_ERR_COUNT m).cnt (lnP l) LN_PAT_BITS_COUNT n).on (lnP l) LN_PAT_CTRL_LOCKED = true :=
    fun m n => by
      rw [State.on_eq, State.cnt_eq, State.rd_wr_same (by decide), State.cnt_eq, State.rd_wr_same (by decide), ← State.on_eq, hlock]
  unfold State.patTake
  dsimp only
  rw [if_pos hlock]
  split
  next h =>
    constructor
    · rw [State.rd_emit_page (isPage_pg ..) (ownPage_ln _) rfl, State.wb_eq, State.rd_wr_same (by decide)]
      exact hcount _
    · rw [State.on_emit_page (isPage_pg ..) (ownPage_ln _) rfl, State.on_wb_false]
      exact (decide_eq_false (Nat.not_le.2 h)).symm
  next h =>
    refine ⟨hcount _, ?_⟩
    rw [State.on_setPat, hlocked]
    exact (decide_eq_true (Nat.not_lt.1 h)).symm

end

section
variable {s : State} {l : Fin 64} {rx more : List Bool} {good : Nat}

theorem exec_patternCheckLock_idle (h : s.lnTest l.val = false ∨ patOn (s.rd (lnP l.val) LN_PAT_CTRL_CHK) = false) :
    exec (.patternCheckLock l rx good more) s = .next s := by
  refine congrArg Host.Outcome.next (if_pos ?_)
  rcases h with h | h <;> simp [h]

theorem exec_patternCheckLock (ht : s.lnTest l.val = true) (hp : patOn (s.rd (lnP l.val) LN_PAT_CTRL_CHK) = true) :
    exec (.patternCheckLock l rx good more) s = .next (more.foldl (fun s b => s.patTake l.val b)
      ((rx.foldl (fun s b => s.patTake l.val b) s).patClean l.val good)) :=
  congrArg Host.Outcome.next (if_neg (by simp [ht, hp]))

theorem patternCheckLock_writes (ht : s.lnTest l.val = true) (hp : patOn (s.rd (lnP l.val) LN_PAT_CTRL_CHK) = true) :
    completes (.patternCheckLock l rx good more) s fun t => onlyRegsEv (checkKeys l.val) (lnP l.val) { s with pats := t.pats } t := by
  refine ⟨_, exec_patternCheckLock ht hp, ?_⟩
  have htake : ∀ (bits : List Bool) {u : State}, patsOnly (checkKeys l.val) (lnP l.val) s u ∧ u.freeCtr = s.freeCtr →
      patsOnly (checkKeys l.val) (lnP l.val) s (bits.foldl (fun s b => s.patTake l.val b) u) ∧
      (bits.foldl (fun s b => s.patTake l.val b) u).freeCtr = s.freeCtr := fun bits u h =>
    foldl_keeps (P := fun u => patsOnly (checkKeys l.val) (lnP l.val) s u ∧ u.freeCtr = s.freeCtr)
      (fun v b _ hv => ⟨hv.1.patTake, (v.patTake_freeCtr ..).trans hv.2⟩) h
  obtain ⟨hrx, hfree⟩ := htake rx ⟨patsOnly.refl, rfl⟩
  obtain ⟨hall, hfree⟩ := htake more ⟨hrx.patClean (n := good), (State.patClean_freeCtr ..).trans hfree⟩
  rw [patsOnly, hfree] at hall
  exact hall

theorem patternCheckLock_64 (ht : s.lnTest l.val = true) (hp : patOn (s.rd (lnP l.val) LN_PAT_CTRL_CHK) = true)
    (hlock : s.on (lnP l.val) LN_PAT_CTRL_LOCKED = false) (hnil : (s.pat l.val).rx = []) (hlen : rx.length = 64) :
    completes (.patternCheckLock l rx 0 []) s fun t => t.on (lnP l.val) LN_PAT_CTRL_LOCKED =
      patFits (s.rd (lnP l.val) LN_PAT_CTRL_CHK) (s.rd (lnP l.val) LN_PAT_WORD_WORD)
        (rx.map (· != s.on (lnP l.val) LN_CFG_RX_POL)).reverse := by
  refine ⟨_, exec_patternCheckLock ht hp, ?_⟩
  have hdecide := State.patTakes_decide rx s hlock (by rw [hnil, hlen]; rfl) (List.ne_nil_of_length_pos (by omega))
  rw [hnil, List.append_nil] at hdecide
  rw [← hdecide]
  exact congrArg (fun v => decide (v = 1)) (State.patClean_leaves _ _ _ (by decide))

theorem patternCheckLock_locked {b : Bool} (ht : s.lnTest l.val = true) (hp : patOn (s.rd (lnP l.val) LN_PAT_CTRL_CHK) = true)
    (hlock : s.on (lnP l.val) LN_PAT_CTRL_LOCKED = true) : completes (.patternCheckLock l [b] 0 []) s fun t =>
      let bad := (b != s.on (lnP l.val) LN_CFG_RX_POL) != patNext (s.rd (lnP l.val) LN_PAT_CTRL_CHK) (s.pat l.val).rx
      t.rd (lnP l.val) LN_PAT_ERR_COUNT = satAdd LN_PAT_ERR_COUNT.w (s.rd (lnP l.val) LN_PAT_ERR_COUNT) (b2n bad) ∧
      t.on (lnP l.val) LN_PAT_CTRL_LOCKED = decide (((bad :: (s.pat l.val).errs).take 64).count true ≤ 16) := by
  refine ⟨_, exec_patternCheckLock ht hp, ?_⟩
  obtain ⟨hcount, hstay⟩ := State.patTake_locked (b := b) hlock
  exact ⟨(State.patClean_leaves _ _ _ (by decide)).trans hcount,
    (congrArg (fun v => decide (v = 1)) (State.patClean_leaves _ _ _ (by decide))).trans hstay⟩

/-- INJ_ONE waits unless a pattern is sent, whose next bit then takes it. -/
theorem injectOne_waits (w : Writer) : completes (.injectOne w l) s fun t =>
    t.on (lnP l.val) LN_PAT_CTRL_INJ_ONE = !(s.lnTest l.val && patOn (s.rd (lnP l.val) LN_PAT_CTRL_GEN)) ∧
    t.out = s.out ++ (if s.lnTest l.val && patOn (s.rd (lnP l.val) LN_PAT_CTRL_GEN) then [.injected l.val] else []) ∧
    onlyRegs [fkey (lnP l.val) LN_PAT_CTRL_INJ_ONE] { s with out := t.out, pats := t.pats } t := by
  refine ⟨_, rfl, ?_⟩
  have hset : (s.wb (lnP l.val) LN_PAT_CTRL_INJ_ONE true).on (lnP l.val) LN_PAT_CTRL_INJ_ONE = true := State.on_wb_true _ _ _ rfl
  have hgen : (s.wb (lnP l.val) LN_PAT_CTRL_INJ_ONE true).rd (lnP l.val) LN_PAT_CTRL_GEN = s.rd (lnP l.val) LN_PAT_CTRL_GEN :=
    State.rd_wr_same (by decide)
  unfold State.injectNext
  dsimp only
  rw [hset, State.lnTest_wb_injOne, hgen, Bool.true_and]
  cases s.lnTest l.val && patOn (s.rd (lnP l.val) LN_PAT_CTRL_GEN)
  · exact ⟨hset, (List.append_nil _).symm, onlyRegs_wb List.mem_cons_self onlyRegs_refl⟩
  · refine ⟨State.on_wb_false .., rfl, ?_⟩
    have honly : onlyRegs [fkey (lnP l.val) LN_PAT_CTRL_INJ_ONE] s
        ((s.wb (lnP l.val) LN_PAT_CTRL_INJ_ONE true).wb (lnP l.val) LN_PAT_CTRL_INJ_ONE false) :=
      onlyRegs_wb (by simp) (onlyRegs_wb (by simp) onlyRegs_refl)
    exact ⟨rfl, honly.2⟩

end

/-- Settles O44: a PLL locks and begins its lanes, loses lock and retries; a receiver shows its input; the checker locks by 64 bits
that fit and counts those that do not. The model's readings: a lock needs no retry before it (log 84) but a present reference (log
185), and the checker takes its place in the pattern from 64 bits that fit (log 178). -/
theorem linkLanes : Obligations.LinkLanes := by
  unfold Obligations.LinkLanes
  intro w s
  refine ⟨fun q k => ⟨exec_pllLocked_not, pllLocked_locks, pllLost_loses, exec_pllRetry_none, fun a h => pllRetry_again h⟩, fun l => ?_⟩
  exact ⟨fun b h => exec_receiverOff h, fun b h => cdrLockChange_shows h, fun b h hne => losChange_shows h hne,
    fun h rx good more => exec_patternCheckLock_idle h, fun rx good more ht hp => patternCheckLock_writes ht hp,
    fun rx ht hp hlock hnil hlen => patternCheckLock_64 ht hp hlock hnil hlen,
    fun b ht hp hlock => patternCheckLock_locked ht hp hlock, injectOne_waits w⟩

end Sys2Proof.Machine
end

section
/-! PROOFS. What accesses to memory, hitches, events and the yoke's traffic leave alone: the parts of the state that the MSS, the
power sequence, updates, the sag, the farrier, touch and recording keep for themselves. -/

set_option autoImplicit false

namespace Sys2Proof.Machine

/-! ### The rim of the state -/

/-- Parts that no access to memory, hitch, event or yoke frame changes; of a mirrored matrix page all but the samples on their way,
which fall with the link; of the clock all but the start of a holdover. -/
structure Rim where
  mss : MssSt
  sag : SagSt
  upd : UpdSt
  far : FarSt
  keys : KeySt
  tch : Store TchSt
  enc : Store EncCh
  encJobs : Store EncJob
  encRecs : Store (List RingRec)
  wakes : List Nat
  from_ : Nat
  codecIdle : Option Nat
  nvm : Mem
  nor : Mem
  time : TimeSt

/-- A matrix page but for the samples on their way. -/
def TchSt.still (x : TchSt) : TchSt := { x with samples := none }

def State.rim (s : State) : Rim :=
  ⟨s.mss, s.sag, s.upd, s.far, s.keys, s.tch.map fun e => (e.1, e.2.still), s.enc, s.encJobs, s.encRecs, s.pwr.wakes, s.pwr.from_,
    s.pwr.codecIdle, s.nvm, s.nor, { s.time with holdFrom := 0 }⟩

theorem State.rim_of_core {s t : State} (h : t.core = s.core) : t.rim = s.rim := eq_of_core State.rim (fun _ => rfl) h

section
variable {s t : State} (h : t.rim = s.rim)
include h

theorem rim_mss : t.mss = s.mss := congrArg Rim.mss h
theorem rim_sag : t.sag = s.sag := congrArg Rim.sag h
theorem rim_upd : t.upd = s.upd := congrArg Rim.upd h
theorem rim_far : t.far = s.far := congrArg Rim.far h
theorem rim_keys : t.keys = s.keys := congrArg Rim.keys h
theorem rim_enc : t.enc = s.enc := congrArg Rim.enc h
theorem rim_encJobs : t.encJobs = s.encJobs := congrArg Rim.encJobs h
theorem rim_encRecs : t.encRecs = s.encRecs := congrArg Rim.encRecs h
theorem rim_wakes : t.pwr.wakes = s.pwr.wakes := congrArg Rim.wakes h
theorem rim_from : t.pwr.from_ = s.pwr.from_ := congrArg Rim.from_ h
theorem rim_codecIdle : t.pwr.codecIdle = s.pwr.codecIdle := congrArg Rim.codecIdle h
theorem rim_nvm : t.nvm = s.nvm := congrArg Rim.nvm h
theorem rim_nor : t.nor = s.nor := congrArg Rim.nor h
theorem rim_run : t.time.run = s.time.run := congrArg (fun r : Rim => r.time.run) h
theorem rim_now : t.now = s.now := congrArg (fun r : Rim => r.time.yt / subNs) h
theorem rim_coarse : t.time.coarse = s.time.coarse := congrArg (fun r : Rim => r.time.coarse) h
theorem rim_pend : t.time.pend = s.time.pend := congrArg (fun r : Rim => r.time.pend) h

theorem rim_tchSt (p : Nat) : (t.tchSt p).still = (s.tchSt p).still := by
  have hfind : ∀ m : Store TchSt, (Store.getD tch0 p m).still = Store.getD tch0 p (m.map fun e => (e.1, e.2.still)) := by
    intro m
    unfold Store.getD
    have hmap : Store.find p (m.map fun e => (e.1, e.2.still)) = (Store.find p m).map TchSt.still := by
      induction m with
      | nil => rfl
      | cons e m ih =>
        simp only [List.map_cons, Store.find, ih]
        split <;> rfl
    rw [hmap]
    cases Store.find p m <;> rfl
  exact (hfind t.tch).trans ((congrArg (fun r : Rim => Store.getD tch0 p r.tch) h).trans (hfind s.tch).symm)

end

theorem onlyRegs.rim {l : List Nat} {s t : State} (h : onlyRegs l s t) : t.rim = s.rim := State.rim_of_core h.core_eq

section
variable (s : State) (n p v : Nat) (f : Fld)

/-! #### Updates of other parts -/

@[simp] theorem State.rim_wr : (s.wr p f v).rim = s.rim := rfl
@[simp] theorem State.rim_wb (b : Bool) : (s.wb p f b).rim = s.rim := rfl
@[simp] theorem State.rim_cnt : (s.cnt p f v).rim = s.rim := rfl
@[simp] theorem State.rim_inc : (s.inc p f v).rim = s.rim := rfl
@[simp] theorem State.rim_wr64 (g : Fld) : (s.wr64 p f g v).rim = s.rim := rfl
@[simp] theorem State.rim_emitOut (o : Out) : (s.emitOut o).rim = s.rim := rfl
@[simp] theorem State.rim_draw : s.draw.2.rim = s.rim := rfl
@[simp] theorem State.rim_setDm (d : DmcSt) : (s.setDm n d).rim = s.rim := rfl
@[simp] theorem State.rim_setStallSt (x : StallSt) : (s.setStallSt n x).rim = s.rim := rfl
@[simp] theorem State.rim_setCrc (l : List CrcSt) : (s.setCrc n l).rim = s.rim := rfl
@[simp] theorem State.rim_yk (g : YokeSt → YokeSt) : (s.yk g).rim = s.rim := rfl
@[simp] theorem State.rim_setVc (x : YkVc) : (s.setVc n x).rim = s.rim := rfl
@[simp] theorem State.rim_dramFixWord : (s.dramFixWord n v).rim = s.rim := rfl
@[simp] theorem State.rim_setMeta : (s.setMeta n v).rim = s.rim := rfl
@[simp] theorem State.rim_answer (x : Part) (d : List Nat) : (s.answer x n v d).rim = s.rim := rfl
@[simp] theorem State.rim_noteDenial (x : Part) : (s.noteDenial x n p v).rim = s.rim := rfl
@[simp] theorem State.rim_decisionDone (c : List Part) (x : Part) : (s.decisionDone n c x).rim = s.rim := rfl
@[simp] theorem State.rim_holdsOver : (s.holdsOver n).rim = s.rim := rfl
@[simp] theorem State.rim_openRows (c : Nat) : (s.openRows n c v).rim = s.rim := rfl

@[simp] theorem State.rim_setDram (x : Mem) : State.rim { s with dram := x } = s.rim := rfl
@[simp] theorem State.rim_zeroLines (c d : Nat) : (s.zeroLines n c d).rim = s.rim := rfl
@[simp] theorem State.rim_setLoft (x : Mem) (y : Store Nat) : State.rim { s with loft := x, loftSyn := y } = s.rim := rfl
@[simp] theorem State.rim_setDirects (x : Store DirectSt) : State.rim { s with directs := x } = s.rim := rfl
@[simp] theorem State.rim_setFab (x : FabSt) : State.rim { s with fab := x } = s.rim := rfl

@[simp] theorem State.rim_ite (c : Prop) [Decidable c] (a b : State) :
    (if c then a else b).rim = if c then a.rim else b.rim := by
  split <;> rfl

/-- A fold over values that a state is part of. -/
theorem State.rim_foldl_of {α β : Type} (π : β → State) {step : β → α → β} (l : List α)
    (h : ∀ r x, (π (step r x)).rim = (π r).rim) (r : β) : (π (l.foldl step r)).rim = (π r).rim := by
  induction l generalizing r with
  | nil => rfl
  | cons x l ih => rw [List.foldl_cons, ih, h]

@[simp] theorem State.rim_foldl {α : Type} {step : State → α → State} (l : List α)
    (h : ∀ u x, (step u x).rim = u.rim) : (l.foldl step s).rim = s.rim := State.rim_foldl_of id l h s

/-- The state of a pair that keeps the rim. -/
theorem State.rim_of_snd {α : Type} {r : α × State} {a : α} {s t : State} (e : r = (a, t)) (h : r.2.rim = s.rim) :
    t.rim = s.rim := by
  rw [e] at h
  exact h

/-! #### Events and interrupts -/

@[simp] theorem State.rim_emit (code : Nat) (data : List Nat) : (s.emit p code data).rim = s.rim := State.rim_of_core (by simp)

@[simp] theorem State.rim_loftPut (l : List Nat) : (s.loftPut n l).rim = s.rim := State.rim_of_core (by simp)

@[simp] theorem State.rim_setEvLast (d : Store Nat) : State.rim { s with evLast := d } = s.rim := rfl

@[simp] theorem State.rim_emitLimited (key ms code : Nat) (data : List Nat) :
    (s.emitLimited p key ms code data).rim = s.rim := by
  unfold State.emitLimited
  split <;> simp

@[simp] theorem State.rim_snd_ite {α : Type} (c : Prop) [Decidable c] (a b : α × State) :
    (if c then a else b).2.rim = if c then a.2.rim else b.2.rim := by
  split <;> rfl

@[simp] theorem State.rim_setLfsr (d : Store Nat) : State.rim { s with lfsr := d } = s.rim := rfl

@[simp] theorem State.rim_perturb (kind : Nat) (sel : Option Nat) : (s.perturb p kind sel).2.rim = s.rim := by
  simp [State.perturb]

/-! #### Bays -/

@[simp] theorem State.rim_setYardLedger (d : Store (Nat × Nat)) : State.rim { s with yardLedger := d } = s.rim := rfl

@[simp] theorem State.rim_bayToFree : (s.bayToFree n).rim = s.rim := rfl

@[simp] theorem State.rim_holdDrop (g : Nat) : (s.holdDrop n g).rim = s.rim := by
  simp [State.holdDrop]

@[simp] theorem State.rim_ledgerDrop : (s.ledgerDrop n).rim = s.rim := by
  unfold State.ledgerDrop
  split <;> simp

@[simp] theorem State.rim_bayReturn : (s.bayReturn n).rim = s.rim := by
  simp [State.bayReturn]

@[simp] theorem State.rim_holdTake (g : Nat) : (s.holdTake n g).2.rim = s.rim := by
  simp [State.holdTake]

@[simp] theorem State.rim_holdRelease (g : Nat) : (s.holdRelease n g).rim = s.rim := by
  simp [State.holdRelease]

@[simp] theorem State.rim_ownerRelease (g : Nat) : (s.ownerRelease n g).rim = s.rim := by
  simp [State.ownerRelease]

@[simp] theorem State.rim_bayHold (fid : Nat) : (s.bayHold n fid).rim = s.rim :=
  (onlyRegs_bayHold s n fid).rim

@[simp] theorem State.rim_alloc (cls fid : Nat) : (s.alloc cls fid).2.rim = s.rim := by
  unfold State.alloc
  dsimp only
  split <;> simp

/-! #### DRAM words and lines -/

@[simp] theorem State.rim_dmcCapture (kind a master syn : Nat) (scrub : Bool) :
    (s.dmcCapture n kind a master syn scrub).rim = s.rim := by
  simp [State.dmcCapture]

@[simp] theorem State.rim_dmcCe (a master syn isMeta word : Nat) (scrub : Bool) :
    (s.dmcCe n a master syn isMeta word scrub).rim = s.rim := by
  simp [State.dmcCe]

@[simp] theorem State.rim_dmcUe (kind a master syn word : Nat) (scrub : Bool) :
    (s.dmcUe n kind a master syn word scrub).rim = s.rim := by
  simp [State.dmcUe]

@[simp] theorem State.rim_dmcMetaUe (a master syn : Nat) (scrub : Bool) : (s.dmcMetaUe n a master syn scrub).rim = s.rim := by
  simp [State.dmcMetaUe]

@[simp] theorem State.rim_readWord (master : Nat) (newer : Nat → Bool) (wd : Nat) :
    (s.readWord n master newer wd).2.rim = s.rim := by
  unfold State.readWord
  dsimp only
  split
  · rfl
  · split <;> simp

@[simp] theorem State.rim_readWords (master : Nat) (newer : Nat → Bool) (l : List Nat) :
    (s.readWords n master newer l).2.rim = s.rim := by
  induction l generalizing s with
  | nil => rfl
  | cons wd l ih => simp [State.readWords, ih]

@[simp] theorem State.rim_readMeta (master : Nat) (tagged newer : Bool) (line : Nat) :
    (s.readMeta n master tagged newer line).rim = s.rim := by
  unfold State.readMeta
  dsimp only
  split
  · rfl
  · split
    · rename_i m _
      show (if newer then s.dmcCe _ _ _ _ _ _ _ else (s.dmcCe _ _ _ _ _ _ _).setMeta m line).rim = _
      simp
    · simp

@[simp] theorem State.rim_dramRead (master a len : Nat) (tag : Option Tag) (newer : Nat → Bool) :
    (s.dramRead master a len tag newer).2.2.rim = s.rim := by
  unfold State.dramRead
  dsimp only
  rw [State.rim_readWords, State.rim_foldl _ _ fun u x => State.rim_readMeta _ _ _ _ _ _]
  split <;> simp

@[simp] theorem State.rim_writeWord (master a : Nat) (data : List Nat) (atomic : Bool) (wd : Nat) :
    (s.writeWord n master a data atomic wd).2.rim = s.rim := by
  unfold State.writeWord
  dsimp only
  split
  · rfl
  · split
    · exact (State.rim_setDram _ _).trans (by simp)
    · simp

@[simp] theorem State.rim_writeWords (master a : Nat) (data : List Nat) (atomic : Bool) (l : List Nat) :
    (s.writeWords n master a data atomic l).2.rim = s.rim := by
  induction l generalizing s with
  | nil => rfl
  | cons wd l ih => simp [State.writeWords, ih]

@[simp] theorem State.rim_carryWord (master wd : Nat) : (s.carryWord n master wd).rim = s.rim := by
  unfold State.carryWord
  dsimp only
  split
  · rfl
  · split <;> simp

@[simp] theorem State.rim_dramWrite (master a : Nat) (data : List Nat) (tag : Option Tag) (atomic : Bool) :
    (s.dramWrite master a data tag atomic).2.rim = s.rim := by
  have hmeta : ∀ (u : State) (m : Nat) (l : List Nat), (l.foldl (fun u x => u.setMeta m x) u).rim = u.rim := fun u m l =>
    u.rim_foldl l fun _ _ => rfl
  cases tag <;> simp [State.dramWrite, hmeta]

/-! #### The DRAM controllers -/

@[simp] theorem State.rim_dramPerform (x : Part) : (s.dramPerform n x).2.2.2.rim = s.rim := by
  unfold State.dramPerform
  dsimp only
  split <;> simp

/-- The runs of a part, each done by what keeps the rim. -/
theorem State.rim_perRuns {f : State → Part → Nat × Nat × List Nat × State} (h : ∀ u y, (f u y).2.2.2.rim = u.rim)
    (x : Part) : (s.perRuns f x).2.2.2.rim = s.rim := by
  unfold State.perRuns
  split
  · exact h _ _
  · refine State.rim_foldl_of (fun r : Nat × Nat × List Nat × State => r.2.2.2) _ ?_ _
    exact fun r y => h r.2.2.2 y

@[simp] theorem State.rim_dmcServe (x : Part) : (s.dmcServe n x).rim = s.rim := by
  simp [State.dmcServe, State.rim_perRuns]

@[simp] theorem State.rim_tokenTake : (s.tokenTake n).rim = s.rim := by
  unfold State.tokenTake
  dsimp only
  split
  · rfl
  · split <;> simp [-State.heads_perturb]

@[simp] theorem State.rim_initPass (c : Nat) : (s.initPass n c).rim = s.rim := by
  simp [State.initPass]

@[simp] theorem State.rim_initWait : (s.initWait n).rim = s.rim := by
  unfold State.initWait
  split <;> simp

@[simp] theorem State.rim_commandIssue : (s.commandIssue n).rim = s.rim := by
  unfold State.commandIssue
  split
  · rfl
  · split <;> simp

@[simp] theorem State.rim_initServing : (s.initServing n).rim = s.rim := by
  simp [State.initServing]

@[simp] theorem State.rim_servingRun (k : Nat) : (s.servingRun n k).rim = s.rim := by
  induction k generalizing s with
  | zero => rfl
  | succ k ih =>
    unfold State.servingRun
    split <;> simp [ih]

@[simp] theorem State.rim_dmcLock (on : Bool) : (s.dmcLock n on).rim = s.rim := rfl

@[simp] theorem State.rim_srEnter : (s.srEnter n).rim = s.rim := by
  simp [State.srEnter]

@[simp] theorem State.rim_dmcDeg : (s.dmcDeg n).2.rim = s.rim := by
  simp [State.dmcDeg]

@[simp] theorem State.rim_trainStep (ok : Bool) : (s.trainStep n ok).rim = s.rim := by
  simp [State.trainStep]

@[simp] theorem State.rim_srLeave : (s.srLeave n).rim = s.rim := by
  simp [State.srLeave]

@[simp] theorem State.rim_chanWake : (s.chanWake n).rim = s.rim := by
  unfold State.chanWake State.tokensDone
  split <;> simp

/-! #### The fabric's ports -/

@[simp] theorem State.rim_guardViolate (m fid : Nat) (k : AccKind) (addr region fault parts gen : Nat) :
    (s.guardViolate n m fid k addr region fault parts gen).rim = s.rim := by
  simp [State.guardViolate]

@[simp] theorem State.rim_closeDenial (x : Part) : (s.closeDenial x n).rim = s.rim := by
  unfold State.closeDenial
  split
  · rfl
  · split
    · rfl
    · split <;> simp

@[simp] theorem State.rim_grantPart (x : Part) : (s.grantPart x).rim = s.rim := by
  unfold State.grantPart
  dsimp only
  split
  · rfl
  · split <;> simp

@[simp] theorem State.rim_slotGrant (stall : Bool) : (s.slotGrant n stall).rim = s.rim := by
  unfold State.slotGrant
  split
  · simp
  · dsimp only
    split <;> simp [-State.heads_perturb]

@[simp] theorem State.rim_loftCapture (kind wd master syn : Nat) : (s.loftCapture kind wd master syn).rim = s.rim := by
  simp [State.loftCapture]

@[simp] theorem State.rim_loftWord (master wd : Nat) : (s.loftWord master wd).2.rim = s.rim := by
  unfold State.loftWord
  dsimp only
  split
  · rfl
  · split <;> simp [-State.heads_emitLimited]

@[simp] theorem State.rim_loftWords (master : Nat) (l : List Nat) : (s.loftWords master l).2.rim = s.rim := by
  induction l generalizing s with
  | nil => rfl
  | cons wd l ih => simp [State.loftWords, ih]

@[simp] theorem State.rim_loftPerform (x : Part) : (s.loftPerform x).2.2.rim = s.rim := by
  unfold State.loftPerform
  dsimp only
  split <;> split <;> simp

@[simp] theorem State.rim_loftServe (x : Part) : (s.loftServe x).rim = s.rim := by
  simp [State.loftServe, State.rim_perRuns]

@[simp] theorem State.rim_serveOther (x : Part) : (s.serveOther x).rim = s.rim := by
  have hrun : ∀ (u : State) (y : Part), (if x.target = 14 then
      let r := memPerform u.sram (y.addr - 0x4000000) y
      (0, 0, r.1, { u with sram := r.2 })
    else
      let r := memPerform u.host (u.busAddr y.addr) y
      ((0, 0, r.1, { u with host := r.2 }) : Nat × Nat × List Nat × State)).2.2.2.rim = u.rim := by
    intro u y
    split <;> rfl
  exact (State.rim_answer ..).trans ((State.rim_perRuns _ hrun x).trans rfl)

@[simp] theorem State.rim_fencedTry (w : Writer) (a : Nat) : (s.fencedTry w a v).rim = s.rim := by
  unfold State.fencedTry
  split <;> simp [State.enableFenced]

@[simp] theorem State.rim_serveDefault (x : Part) : (s.serveDefault x).rim = s.rim := by
  unfold State.serveDefault
  dsimp only
  split <;> simp

@[simp] theorem State.rim_serveOuter (x : Part) : (s.serveOuter x).rim = s.rim := by
  simp [State.serveOuter]

@[simp] theorem State.rim_portTurn : (s.portTurn n).rim = s.rim := by
  unfold State.portTurn
  dsimp only
  split
  · simp
  · split
    · simp
    · split <;> simp

@[simp] theorem State.rim_portTurns (k : Nat) : (s.portTurns n k).rim = s.rim := by
  induction k generalizing s with
  | zero => rfl
  | succ k ih => simp [State.portTurns, ih]

@[simp] theorem State.rim_portRun : (s.portRun n).rim = s.rim := by
  simp [State.portRun]

@[simp] theorem State.rim_accessFailed (k : AccKind) (code : Nat) : (s.accessFailed n k code).rim = s.rim := by
  simp [State.accessFailed]

@[simp] theorem State.rim_respond : (s.respond n).rim = s.rim := by
  unfold State.respond
  split <;> simp

/-! #### DRAM accesses of the hardware masters -/

@[simp] theorem State.rim_tagReady : (s.tagReady n).rim = s.rim := by
  simp [State.tagReady, State.respondAll]

@[simp] theorem State.rim_hwEnter (a len : Nat) : (s.hwEnter n a len).rim = s.rim := by
  unfold State.hwEnter
  split <;> simp

@[simp] theorem State.rim_hwPiece (m fid : Nat) (k : AccKind) (tag : Option Tag) (a len : Nat) (data : List Nat) :
    (s.hwPiece m fid k tag a len data).2.2.2.rim = s.rim := by
  unfold State.hwPiece
  dsimp only
  split
  · simp [State.hwMiss]
  · split
    · rfl
    · split <;> simp

@[simp] theorem State.rim_hwPieces (m fid : Nat) (k : AccKind) (tag : Option Tag) (base : Nat) (data : List Nat)
    (l : List (Nat × Nat)) : (s.hwPieces m fid k tag base data l).2.rim = s.rim := by
  induction l generalizing s with
  | nil => rfl
  | cons x l ih => simp [State.hwPieces, ih]

@[simp] theorem State.rim_guardPieces (m fid : Nat) (k : AccKind) (l : List (Nat × Nat)) :
    (s.guardPieces m fid k l).rim = s.rim := by
  refine State.rim_foldl _ _ fun u g => ?_
  dsimp only
  split <;> simp

@[simp] theorem State.rim_cvuSnoop (m a : Nat) (data : List Nat) : (s.cvuSnoop m a data).rim = s.rim := by
  exact State.rim_foldl _ _ fun _ _ => rfl

@[simp] theorem State.rim_hwRequests (m fid : Nat) (k : AccKind) (tag : Option Tag) (base : Nat) (data : List Nat)
    (l : List (Nat × Nat)) : (s.hwRequests m fid k tag base data l).2.rim = s.rim := by
  induction l generalizing s with
  | nil => rfl
  | cons x l ih => simp [State.hwRequests, ih]

@[simp] theorem State.rim_bayRead (m fid n g fseq off len : Nat) (chk : Bool) :
    (s.bayRead m fid n g fseq off len chk).2.rim = s.rim :=
  State.rim_hwRequests ..

@[simp] theorem State.rim_bayWrite (m fid n g fseq off : Nat) (data : List Nat) :
    (s.bayWrite m fid n g fseq off data).2.rim = s.rim :=
  State.rim_hwRequests ..

/-! #### The yoke and the team -/

@[simp] theorem State.rim_setTime_holdFrom : State.rim { s with time := { s.time with holdFrom := n } } = s.rim := rfl

@[simp] theorem State.rim_setTbState : (s.setTbState n).rim = s.rim := by
  unfold State.setTbState
  dsimp only
  split
  · rfl
  · exact State.rim_emit ..

@[simp] theorem State.rim_wheelSplit : s.wheelSplit.rim = s.rim := by
  simp [State.wheelSplit]

@[simp] theorem State.rim_ykState : (s.ykState n).rim = s.rim := by
  simp [State.ykState]

@[simp] theorem State.rim_ykClear : s.ykClear.rim = s.rim := by
  have htch : ∀ m : Store TchSt, (m.map fun e => (e.1, e.2.still)).map (fun e => (e.1, e.2.still)) = m.map fun e => (e.1, e.2.still) :=
    fun m => by
      rw [List.map_map]
      rfl
  unfold State.ykClear
  refine (State.rim_foldl _ _ fun u v => by simp).trans ?_
  exact congrArg (fun m => { s.rim with tch := m }) (htch s.tch)

@[simp] theorem State.rim_toIngress (x : PktSlot) : (s.toIngress n x).rim = s.rim := by
  unfold State.toIngress
  split <;> rfl

@[simp] theorem State.rim_laterGo : s.laterGo.rim = s.rim := by
  simp [State.laterGo]

@[simp] theorem State.rim_mergeSplit (wasSeq : Bool) : (s.mergeSplit wasSeq).rim = s.rim := rfl

@[simp] theorem State.rim_netDrop : (s.netDrop n).rim = s.rim := by
  simp [State.netDrop]

@[simp] theorem State.rim_netDatagram (dest : Dest) (bytes : List Nat) : (s.netDatagram n dest bytes).rim = s.rim := by
  simp [State.netDatagram]

@[simp] theorem State.rim_report (kind obj id frame own partner withheld : Nat) :
    (s.report kind obj id frame own partner withheld).rim = s.rim := by
  simp [State.report, State.ymSend]

@[simp] theorem State.rim_ykDown (cause : Nat) : (s.ykDown cause).rim = s.rim := by
  simp [State.ykDown]

@[simp] theorem State.rim_ykEmit (x : YkFrame) (replay : Bool) : (s.ykEmit x replay).rim = s.rim := by
  unfold State.ykEmit State.ykEmitFor
  split <;> simp

@[simp] theorem State.rim_ykPush (typ : Nat) (data : List Nat) : (s.ykPush v typ data).rim = s.rim := by
  simp [State.ykPush]

@[simp] theorem State.rim_ykSend (typ : Nat) (data : List Nat) : (s.ykSend v typ data).rim = s.rim := by
  simp [State.ykSend]

/-! #### Roles and claims -/

@[simp] theorem State.rim_timeRole : s.timeRole.rim = s.rim := by
  simp [State.timeRole]

@[simp] theorem State.rim_forward (x : PktSlot) : (s.forward x).rim = s.rim := by
  simp [State.forward]

@[simp] theorem State.rim_roleChange (was : Bool) : (s.roleChange was).rim = s.rim := by
  simp [State.roleChange]

@[simp] theorem State.rim_claimShown (new old : Nat) : (s.claimShown new old).rim = s.rim := by
  simp [State.claimShown]

@[simp] theorem State.rim_claimSet (new cause : Nat) : (s.claimSet new cause).rim = s.rim := by
  simp [State.claimSet]

@[simp] theorem State.rim_tieCheck : s.tieCheck.rim = s.rim := by
  simp [State.tieCheck]

/-! #### Hitches -/

@[simp] theorem State.rim_setHit (x : HitSt) : State.rim { s with hit := x } = s.rim := rfl

@[simp] theorem State.rim_dropWait (o : Nat) : (s.dropWait o).rim = s.rim := rfl

@[simp] theorem State.rim_hitchGrant (o : Nat) (ab : Bool) : (s.hitchGrant o n ab).rim = s.rim := by
  unfold State.hitchGrant State.setWait State.hitchGive State.hitOrder
  split <;> simp

@[simp] theorem State.rim_hitchFree (ab : Bool) : (s.hitchFree n ab).rim = s.rim := by
  unfold State.hitchFree State.setAband
  dsimp only
  split <;> simp

@[simp] theorem State.rim_epochUp (o : Nat) : (s.epochUp o).rim = s.rim := by
  simp [State.epochUp, State.setWait]

/-! #### Clocks and lanes -/

@[simp] theorem State.rim_pllAnew : (s.pllAnew n).rim = s.rim := rfl

@[simp] theorem State.rim_setLock (on : Bool) : (s.setLock n on).rim = s.rim := rfl

@[simp] theorem State.rim_lnQuiet : (s.lnQuiet n).rim = s.rim := by
  unfold State.lnQuiet
  split <;> rfl

@[simp] theorem State.rim_quadStop : (s.quadStop n).rim = s.rim := by
  unfold State.quadStop
  exact (State.rim_foldl _ _ fun u i => by simp).trans (State.rim_foldl _ _ fun u k => rfl)

end

/-! ### Registers that a run of steps may have written -/

/-- From `s` to `t` no register field has changed but those with keys in `K`. -/
def wrote (K : Nat → Prop) (s t : State) : Prop := ∀ k, ¬ K k → Store.find k t.regs = Store.find k s.regs

/-- The keys that an event of some page may change. -/
def eventKey (k : Nat) : Prop := k / 32 % 0x1000 = 0x10 ∨ k / 32 / 0x1000 = 6 ∨ k / 32 / 0x20 = 0xE000 / 0x20

theorem eventKey_of_evKey {q k : Nat} (hq : isPage q) (h : evKey q k) : eventKey k := by
  unfold isPage at hq
  simp only [evKey, fkey, pg_dbk, HDR_EVT_RAW_RAW, DBK_WR_COUNT, DBK_LOST_COUNT] at h
  unfold eventKey
  omega

theorem ownPage_of {p : Nat} (h : p % 0x1000 = 0 ∧ p ≠ 0x6000 ∧ p ≠ 0xE000) : ownPage p := h

theorem not_eventKey {p : Nat} {f : Fld} (hp : ownPage p) (hf : f.beyondRaw = true) : ¬ eventKey (fkey p f) := by
  obtain ⟨hpage, hdbk, hmsix⟩ := hp
  obtain ⟨hoff, hraw, hlo⟩ := beyondRaw_iff.1 hf
  unfold isPage at hpage
  simp only [eventKey, fkey]
  omega

section
variable {K : Nat → Prop} {s t u : State} {p q v : Nat} {f : Fld}

theorem wrote.refl : wrote K s s := fun _ _ => rfl

theorem wrote.trans (h : wrote K s t) (h' : wrote K t u) : wrote K s u := fun k hk => (h' k hk).trans (h k hk)

theorem wrote.mono {L : Nat → Prop} (hKL : ∀ k, K k → L k) (h : wrote K s t) : wrote L s t := fun k hk => h k fun hK => hk (hKL k hK)

theorem wrote.of_regs (he : u.regs = t.regs) (h : wrote K s t) : wrote K s u := fun k hk => he ▸ h k hk

theorem wrote.wr (hf : K (fkey q f)) (h : wrote K s t) : wrote K s (t.wr q f v) := fun k hk =>
  (State.find_wr fun he => hk (by rw [he]; exact hf)).trans (h k hk)

theorem wrote.emit {code : Nat} {data : List Nat} (hq : isPage q) (hK : ∀ k, eventKey k → K k) (h : wrote K s t) :
    wrote K s (t.emit q code data) := fun k hk =>
  (State.find_emitAt _ _ _ _ _ fun he => hk (hK k (eventKey_of_evKey hq he))).trans (h k hk)

theorem wrote.of_onlyRegs {l : List Nat} (hl : ∀ k ∈ l, K k) (h : onlyRegs l t u) (hs : wrote K s t) : wrote K s u :=
  fun k hk => (h.2 k fun hmem => hk (hl k hmem)).trans (hs k hk)

theorem wrote.ite {c : Prop} [Decidable c] (ht : wrote K s t) (hu : wrote K s u) : wrote K s (if c then t else u) := by
  split
  · exact ht
  · exact hu

theorem wrote.rd (h : wrote K s t) (hf : ¬ K (fkey p f)) : t.rd p f = s.rd p f := State.rd_congr (h _ hf)

theorem wrote.on (h : wrote K s t) (hf : ¬ K (fkey p f)) : t.on p f = s.on p f := by
  rw [State.on_eq, State.on_eq, h.rd hf]

end

end Sys2Proof.Machine
end

section
/-! PROOFS. The stabled state, waking, and the device's clocks (R344, R357, R443 to R447). -/

set_option autoImplicit false

namespace Sys2Proof.Machine

/-! ### Matrix pages -/

section
variable (s : State) {p q : Nat} {x : TchSt}

theorem State.tchSt_setTch_self : (s.setTch p x).tchSt p = x := Store.getD_setD_self ..

theorem State.tchSt_setTch_ne (h : q ≠ p) : (s.setTch p x).tchSt q = s.tchSt q := Store.getD_setD_ne h ..

/-- The window of the nodes lies above every page. -/
theorem fkey_touchE (p n : Nat) (f : Fld) : 32 * 0x3800000 ≤ fkey (touchE p n) f := by
  unfold fkey touchE
  omega

/-- The keys of the window of the nodes. -/
def nodeKey (k : Nat) : Prop := 32 * 0x3800000 ≤ k

theorem State.nodesQuiet_spec (p : Nat) : wrote nodeKey s (s.nodesQuiet p) ∧ (s.nodesQuiet p).core = s.core :=
  foldl_keeps (P := fun u => wrote nodeKey s u ∧ u.core = s.core)
    (fun _ n _ h => ⟨((h.1.wr (fkey_touchE p n _)).wr (fkey_touchE p n _)).wr (fkey_touchE p n _), by simpa using h.2⟩)
    ⟨wrote.refl, rfl⟩

/-- The nodes of a matrix port that goes off, quiet and without baselines. -/
def State.nodesBare (p : Nat) : State := (s.nodesOf p).foldl (fun s n => s.wr (touchE p n) TCHN_A_BASE 0) (s.nodesQuiet p)

theorem State.core_nodesBare (p : Nat) : (s.nodesBare p).core = s.core :=
  (State.core_foldl _ _ fun _ _ => State.core_wr ..).trans (s.nodesQuiet_spec p).2

/-- A matrix page whose port is off. -/
def TchSt.off (x : TchSt) : TchSt :=
  { x with scanning := false, calib := false, init := none, sums := [], anti := [], contacts := [], owed := 0, since := [],
           samples := none }

theorem State.matrixOff_eq (p : Nat) : s.matrixOff p = (s.nodesBare p).setTch p ((s.nodesBare p).tchSt p).off := rfl

theorem State.tchSt_matrixOff_self (p : Nat) : (s.matrixOff p).tchSt p = ((s.nodesBare p).tchSt p).off := by
  rw [State.matrixOff_eq, State.tchSt_setTch_self]

theorem State.tchSt_matrixOff_ne (h : q ≠ p) : (s.matrixOff p).tchSt q = s.tchSt q := by
  rw [State.matrixOff_eq, State.tchSt_setTch_ne _ h]
  exact eq_of_core (fun u => State.tchSt u q) (fun _ => rfl) (s.core_nodesBare p)

/-- Both matrix ports off. -/
theorem State.matricesOff_spec {p : Nat} (hp : p < 2) : ∃ x : TchSt, ((upTo 2).foldl State.matrixOff s).tchSt p = x.off := by
  show ∃ x : TchSt, ((s.matrixOff 0).matrixOff 1).tchSt p = x.off
  obtain rfl | rfl : p = 0 ∨ p = 1 := by omega
  · rw [State.tchSt_matrixOff_ne _ (by decide), State.tchSt_matrixOff_self]
    exact ⟨_, rfl⟩
  · rw [State.tchSt_matrixOff_self]
    exact ⟨_, rfl⟩

theorem State.wakes_matrixOff (p : Nat) : (s.matrixOff p).pwr.wakes = s.pwr.wakes := by
  have hwakes : (s.nodesBare p).pwr.wakes = s.pwr.wakes := eq_of_core (fun u => u.pwr.wakes) (fun _ => rfl) (s.core_nodesBare p)
  rw [State.matrixOff_eq]
  exact hwakes

end

/-! ### Entry (R357, R445, R446) -/

section
variable {s : State} {w : Writer}

theorem exec_stableRequest_refused {f r : Nat} (h : s.stableRefusal = some (f, r)) :
    exec (.stableRequest w) s = .next (s.emit pwrP 0x1001 (le f 2 ++ [r])) := by
  show execStableRequest w s = _
  simp only [execStableRequest, h]

/-- The entry has begun. -/
def State.entering (s : State) : State := (s.wb pwrP PWR_CTRL_STABLE true).wr pwrP PWR_STATE_STATE 1

/-- The time of the entry noted. -/
def State.entryNoted (s : State) : State := { s with pwr := { s.pwr with from_ := s.now } }

theorem exec_stableRequest (h : s.stableRefusal = none) :
    exec (.stableRequest w) s = .next s.entering.droversHeld.entryNoted := by
  show execStableRequest w s = _
  unfold execStableRequest State.entryNoted State.entering
  rw [h]

/-- The epochs of the drovers, counted one by one. -/
theorem State.rim_epochs (s : State) (l : List Nat) : (l.foldl (fun s d => s.epochUp (2 + d)) s).rim = s.rim := by
  simp

theorem State.droversHeld_spec (s : State) : s.droversHeld.now = s.now ∧ s.droversHeld.mss.drovers = false := by
  have hnow := rim_now (s.rim_epochs (upTo 8))
  unfold State.droversHeld
  generalize (upTo 8).foldl (fun s d => s.epochUp (2 + d)) s = u at hnow ⊢
  exact ⟨hnow, rfl⟩

/-- The keys of the HIT page, and of CLK_STAT's locks. -/
def heldKey (k : Nat) : Prop := 32 * 0x1D000 ≤ k ∧ k < 32 * 0x1E000 ∨ k = fkey clkP CLK_STAT_LOCK

/-- Owners that hold nothing lose nothing with their epochs: the HIT page counts them. -/
theorem epochUp_noneHeld {u : State} {o : Nat} (ho : o < 10) (h : wrote heldKey s u ∧ u.hit.held = []) :
    wrote heldKey s (u.epochUp o) ∧ (u.epochUp o).hit.held = [] := by
  obtain ⟨hwrote, hheld⟩ := h
  have hkey : ∀ f ∈ [HIT_EPOCH_EPOCH o, HIT_WAIT_STATE o, HIT_WAIT_ABANDONED o], heldKey (fkey (pg .hit 0) f) := by
    simp only [List.mem_cons, List.not_mem_nil, or_false, forall_eq_or_imp, forall_eq, heldKey, fkey, pg_hit, HIT_EPOCH_EPOCH,
      HIT_WAIT_STATE, HIT_WAIT_ABANDONED]
    omega
  have hcounted : wrote heldKey s (u.epochCounted o) ∧ (u.epochCounted o).hit.held = [] := by
    unfold State.epochCounted
    dsimp only
    split
    · exact ⟨((wrote.of_regs rfl (hwrote.wr (hkey _ (by simp)))).wr (hkey _ (by simp))).wr (hkey _ (by simp)), hheld⟩
    · exact ⟨hwrote.wr (hkey _ (by simp)), hheld⟩
  rw [State.epochUp_eq, hcounted.2]
  exact hcounted

theorem wrote_droversHeld (h : s.hit.held = []) : wrote heldKey s s.droversHeld := by
  have hepochs : wrote heldKey s ((upTo 8).foldl (fun s d => s.epochUp (2 + d)) s) :=
    (foldl_keeps (P := fun u => wrote heldKey s u ∧ u.hit.held = []) (fun u d hd hu =>
      epochUp_noneHeld (by simp only [upTo, List.mem_range] at hd; omega) hu) ⟨wrote.refl, h⟩).1
  unfold State.droversHeld
  generalize (upTo 8).foldl (fun s d => s.epochUp (2 + d)) s = u at hepochs ⊢
  exact (wrote.of_regs rfl hepochs).wr (q := clkP) (f := CLK_STAT_LOCK) (.inr rfl)

theorem stableRequest_enters (h : s.stableRefusal = none) : completes (.stableRequest w) s fun t =>
    t.pwr.from_ = s.now ∧ t.mss.drovers = false ∧ (s.hit.held = [] → t.pwrState = 1) := by
  obtain ⟨hnow, hdrovers⟩ := s.entering.droversHeld_spec
  have hnoted : ∀ u : State, u.entryNoted.pwr.from_ = u.now ∧ u.entryNoted.mss = u.mss ∧ u.entryNoted.pwrState = u.pwrState :=
    fun u => ⟨rfl, rfl, rfl⟩
  obtain ⟨hfrom, hmss, hstate⟩ := hnoted s.entering.droversHeld
  refine ⟨_, exec_stableRequest h, hfrom.trans hnow, (congrArg MssSt.drovers hmss).trans hdrovers, fun hheld => ?_⟩
  exact (hstate.trans ((wrote_droversHeld (s := s.entering) hheld).rd (by simp only [heldKey, fkey]; decide))).trans
    (State.rd_wr_self ..)

theorem exec_stabled_not (h : s.pwrState ≠ 1) : exec .stabled s = .next s := congrArg Host.Outcome.next (if_pos h)

/-- A channel that sleeps, or falls asleep with its tokens complete. -/
theorem rim_chanSleeps (s : State) (n : Nat) :
    (if s.rd (pg .dmc n) DMC_PM_STATE = 2 then s else (s.tokensDone n).srEnter n).rim = s.rim := by
  split
  · rfl
  · rw [State.rim_srEnter, State.tokensDone, State.rim_servingRun]

/-- The keys of the TB and PWR pages, and of events. -/
def sleepKey (k : Nat) : Prop := 32 * 0xA000 ≤ k ∧ k < 32 * 0xB000 ∨ 32 * 0x3000 ≤ k ∧ k < 32 * 0x4000 ∨ eventKey k

theorem wrote_setTbState {K : Nat → Prop} (hK : ∀ k, eventKey k → K k) (hs : K (fkey tb TB_STATUS_STATE)) {u : State} (n : Nat)
    (h : wrote K s u) : wrote K s (u.setTbState n) := by
  unfold State.setTbState
  dsimp only
  split
  · exact h
  · exact wrote.emit (isPage_pg .tb 0) hK (wrote.of_regs rfl (h.wr hs))

theorem sleepKey_tb {f : Fld} (h : f.off < 0x1000 ∧ f.lo < 32) : sleepKey (fkey tb f) := by
  refine .inl ?_
  simp only [fkey, tb]
  omega

theorem sleepKey_pwr {f : Fld} (h : f.off < 0x1000 ∧ f.lo < 32) : sleepKey (fkey pwrP f) := by
  refine .inr (.inl ?_)
  simp only [fkey, pg_pwr]
  omega

/-- The coarse part of the time base runs alone. -/
def State.coarseAlone (s : State) : State := { s with time := { s.time with coarse := true } }

/-- STABLED is reached, with its record. -/
def State.stabledRecord (s : State) : State :=
  (((s.coarseAlone.wb tb TB_STATUS_COARSE true).wb pwrP PWR_CTRL_STABLE false).wr pwrP
    PWR_STATE_STATE 2).emit pwrP 0x0001 []

/-- No cause of wake is kept any longer. -/
def State.wakesGone (s : State) : State := { s with pwr := { s.pwr with wakes := [], codecIdle := none, failed := [] } }

theorem State.stabledRecord_spec (u : State) : u.stabledRecord.pwr = u.pwr ∧ u.stabledRecord.tch = u.tch ∧
    u.stabledRecord.time.coarse = true ∧ u.stabledRecord.on tb TB_STATUS_COARSE = true ∧ u.stabledRecord.pwrState = 2 ∧
    wrote sleepKey u u.stabledRecord := by
  have hcore : u.stabledRecord.core = u.coarseAlone.core := by simp [State.stabledRecord]
  refine ⟨(eq_of_core State.pwr (fun _ => rfl) hcore).trans rfl, (eq_of_core State.tch (fun _ => rfl) hcore).trans rfl,
    (eq_of_core (fun v => v.time.coarse) (fun _ => rfl) hcore).trans rfl, ?_, ?_, ?_⟩
  · refine (State.on_emit_page (isPage_pg .pwr 0) (p := tb) (ownPage_of (by decide)) rfl).trans ?_
    rw [State.on_eq, State.rd_wr_key (by decide), State.wb_eq, State.rd_wr_key (by decide), ← State.on_eq, State.on_wb_true _ _ _ rfl]
  · exact (State.rd_emit_page (isPage_pg .pwr 0) (p := pwrP) (ownPage_of (by decide)) rfl).trans (State.rd_wr_self ..)
  · refine wrote.emit (isPage_pg .pwr 0) (fun k hk => .inr (.inr hk)) (wrote.wr (sleepKey_pwr (by decide)) (wrote.wr
      (sleepKey_pwr (by decide)) (wrote.wr (sleepKey_tb (by decide)) (wrote.of_regs (t := u) rfl wrote.refl))))

theorem stabled_sleeps {t : State} (h : s.pwrState = 1) (ht : exec .stabled s = .next t) :
    t.pwrState = (if s.pwr.wakes = [] then 2 else 3) ∧ t.time.coarse = true ∧ t.on tb TB_STATUS_COARSE = true ∧
    t.rd clkP CLK_STAT_LOCK = 0 ∧ t.rd clkP CLK_STAT_DMC_LOCK = 0 ∧ t.pwr.wakes = [] ∧
    ∀ p, p < 2 → (t.tchSt p).scanning = false ∧ (t.tchSt p).contacts = [] ∧ (t.tchSt p).init = none := by
  change execStabled s = _ at ht
  unfold execStabled at ht
  rw [if_neg (by simp [h])] at ht
  injection ht with ht
  extract_lets slept quads dark off held time coarse record wakes pwr gone at ht
  have hquads : quads.rim = s.rim :=
    (State.rim_foldl _ _ fun u q => by split <;> simp).trans (State.rim_foldl _ _ rim_chanSleeps)
  have hdark : dark.pwr.wakes = s.pwr.wakes :=
    (foldl_leaves (g := fun u => u.pwr.wakes) (fun u p _ => u.wakes_matrixOff p) quads).trans (rim_wakes hquads)
  have hoff : ∀ p, p < 2 → ∃ x : TchSt, dark.tchSt p = x.off := fun p hp => quads.matricesOff_spec hp
  clear_value dark
  have hdark : off.pwr.wakes = s.pwr.wakes := hdark
  have hoff : ∀ p, p < 2 → ∃ x : TchSt, off.tchSt p = x.off := hoff
  have hlocks : off.rd clkP CLK_STAT_LOCK = 0 ∧ off.rd clkP CLK_STAT_DMC_LOCK = 0 :=
    ⟨(State.rd_wr_same (by decide)).trans (State.rd_wr_self ..), State.rd_wr_self ..⟩
  have hheld : held.rim = off.rim ∧ wrote sleepKey off held := by
    show (if _ then _ else off).rim = _ ∧ wrote sleepKey off (if _ then _ else off)
    split
    · exact ⟨by simp, wrote_setTbState (fun k hk => .inr (.inr hk)) (sleepKey_tb (by decide)) 3 (wrote.refl.wr (sleepKey_tb (by decide)))⟩
    · exact ⟨rfl, wrote.refl⟩
  have hclk : ∀ v, wrote sleepKey off v → v.rd clkP CLK_STAT_LOCK = 0 ∧ v.rd clkP CLK_STAT_DMC_LOCK = 0 := fun v hv =>
    ⟨(hv.rd (by simp only [sleepKey, eventKey, fkey]; decide)).trans hlocks.1,
      (hv.rd (by simp only [sleepKey, eventKey, fkey]; decide)).trans hlocks.2⟩
  clear_value off held
  obtain ⟨hpwr, htch, hcoarse, hon, hstate, hrecord⟩ := held.stabledRecord_spec
  have hgone : gone = held.stabledRecord.wakesGone := rfl
  have hwakes : wakes = s.pwr.wakes := (congrArg PwrSt.wakes hpwr).trans ((rim_wakes hheld.1).trans hdark)
  clear_value gone wakes
  subst hgone hwakes
  have hwrote : wrote sleepKey off held.stabledRecord := hheld.2.trans hrecord
  generalize held.stabledRecord = u at *
  have hawake : ∀ p, p < 2 → (u.tchSt p).scanning = false ∧ (u.tchSt p).contacts = [] ∧ (u.tchSt p).init = none := fun p hp => by
    obtain ⟨x, hx⟩ := hoff p hp
    have hstill : (u.tchSt p).still = (off.tchSt p).still :=
      (congrArg (fun m => (Store.getD tch0 p m).still) htch).trans (rim_tchSt hheld.1 p)
    rw [hx] at hstill
    exact ⟨congrArg TchSt.scanning hstill, congrArg TchSt.contacts hstill, congrArg TchSt.init hstill⟩
  by_cases hw : s.pwr.wakes = []
  · rw [if_pos hw]
    rw [if_pos (by simp [hw])] at ht
    subst ht
    obtain ⟨hlock, hdmc⟩ := hclk _ hwrote
    exact ⟨hstate, hcoarse, hon, hlock, hdmc, rfl, hawake⟩
  · rw [if_neg hw]
    rw [if_neg (by simp [hw])] at ht
    subst ht
    obtain ⟨hlock, hdmc⟩ := hclk (u.wakesGone.wr pwrP PWR_STATE_STATE 3)
      (wrote.wr (sleepKey_pwr (by decide)) (wrote.of_regs rfl hwrote))
    refine ⟨State.rd_wr_self .., hcoarse, ?_, hlock, hdmc, rfl, hawake⟩
    rw [State.on_eq, State.rd_wr_key (by decide), ← State.on_eq]
    exact hon

end

/-! ### Wake (R447) -/

section
variable {s : State} {w : Writer}

/-- The cause of a wake shows, with the pin that tells of it. -/
def State.causeSet (s : State) (c : Nat) : State :=
  let s := s.wr pwrP PWR_WAKE_CAUSE_CAUSE (setBit (s.rd pwrP PWR_WAKE_CAUSE_CAUSE) c)
  if s.on pwrP PWR_WAKE_EN_PCIE then s.emitOut (.pin "PCIE_WAKE_N" 0 0) else s

theorem State.causeSet_spec (s : State) (c : Nat) : (s.causeSet c).pwr = s.pwr ∧ (s.causeSet c).pwrState = s.pwrState ∧
    (s.causeSet c).time = s.time ∧
    (s.causeSet c).rd pwrP PWR_WAKE_CAUSE_CAUSE = setBit (s.rd pwrP PWR_WAKE_CAUSE_CAUSE) c % 2 ^ PWR_WAKE_CAUSE_CAUSE.w := by
  have hstate : (s.wr pwrP PWR_WAKE_CAUSE_CAUSE (setBit (s.rd pwrP PWR_WAKE_CAUSE_CAUSE) c)).pwrState = s.pwrState :=
    State.rd_wr_same (by decide)
  unfold State.causeSet
  dsimp only
  split
  · exact ⟨rfl, hstate, rfl, State.rd_wr_self ..⟩
  · exact ⟨rfl, hstate, rfl, State.rd_wr_self ..⟩

theorem State.wake_active {c : Nat} (h : s.pwrState = 0) : s.wake c = s := if_pos h

/-- A cause of wake kept until STABLED. -/
def State.wakeKept (s : State) (c : Nat) : State := { s with pwr := { s.pwr with wakes := s.pwr.wakes ++ [c] } }

theorem State.wake_entering {c : Nat} (h : s.pwrState = 1) : s.wake c = (s.causeSet c).wakeKept c := by
  unfold State.wake
  simp only [h]
  rfl

theorem State.wake_stabled {c : Nat} (h : s.pwrState = 2) : s.wake c = (s.causeSet c).wr pwrP PWR_STATE_STATE 3 := by
  unfold State.wake
  simp only [h]
  rfl

theorem exec_wake_active (h : s.pwrState = 0) : exec (.wakeRequest w) s = .next s ∧ exec .wakeAlarm s = .next s :=
  ⟨congrArg Host.Outcome.next (State.wake_active h), congrArg Host.Outcome.next (if_pos (.inl h))⟩

theorem wakeRequest_entering (h : s.pwrState = 1) : completes (.wakeRequest w) s fun t =>
    t.pwrState = 1 ∧ t.pwr.wakes = s.pwr.wakes ++ [0] := by
  obtain ⟨hpwr, hstate, -⟩ := s.causeSet_spec 0
  have hkept : ∀ u : State, (u.wakeKept 0).pwrState = u.pwrState ∧ (u.wakeKept 0).pwr.wakes = u.pwr.wakes ++ [0] := fun _ => ⟨rfl, rfl⟩
  refine ⟨_, congrArg Host.Outcome.next (State.wake_entering h), (hkept _).1.trans (hstate.trans h), (hkept _).2.trans ?_⟩
  rw [hpwr]

theorem wakeRequest_stabled (h : s.pwrState = 2) : completes (.wakeRequest w) s fun t =>
    t.pwrState = 3 ∧ bit (t.rd pwrP PWR_WAKE_CAUSE_CAUSE) 0 = true := by
  obtain ⟨-, -, -, hcause⟩ := s.causeSet_spec 0
  refine ⟨_, congrArg Host.Outcome.next (State.wake_stabled h), State.rd_wr_self .., ?_⟩
  rw [State.rd_wr_same (by decide), hcause, bit_mod_two_pow (by decide), bit_setBit_self]

/-- The time of the alarm. -/
def State.alarmAt (s : State) : Nat := s.rd64 pwrP PWR_WAKE_AT_LO_T PWR_WAKE_AT_HI_T

/-- An alarm acted on. -/
def State.alarmNoted (s : State) (a : Nat) : State := { s with pwr := { s.pwr with from_ := max a s.now } }

theorem exec_wakeAlarm (h : s.pwrState = 2) (hen : s.on pwrP PWR_WAKE_EN_ALARM = true) (ha : s.pwr.from_ < s.alarmAt) :
    exec .wakeAlarm s = .next (((s.advanceTo s.alarmAt).wake 3).alarmNoted s.alarmAt) :=
  congrArg Host.Outcome.next (if_neg (by
    rintro (hstate | hoff | hpast)
    · omega
    · simp [hen] at hoff
    · exact absurd ha (Nat.not_lt.2 hpast)))

theorem wakeAlarm_stabled (h : s.pwrState = 2) (hen : s.on pwrP PWR_WAKE_EN_ALARM = true) (ha : s.pwr.from_ < s.alarmAt) :
    completes .wakeAlarm s fun t => t.pwrState = 3 ∧ s.alarmAt ≤ t.now := by
  have hstate : (s.advanceTo s.alarmAt).pwrState = 2 :=
    (State.rd_advanceTo _ _ (notMem_rxlKeys (.inl (by simp only [fkey, pg_pwr, tb, PWR_STATE_STATE]; omega)))).trans h
  have hnow : s.alarmAt ≤ (s.advanceTo s.alarmAt).now := State.le_now_advanceTo ..
  have hnoted : ∀ (u : State) (a : Nat), (u.alarmNoted a).pwrState = u.pwrState ∧ (u.alarmNoted a).now = u.now := fun _ _ => ⟨rfl, rfl⟩
  refine ⟨_, exec_wakeAlarm h hen ha, ?_, ?_⟩
  · rw [State.wake_stabled hstate]
    exact (hnoted _ _).1.trans (State.rd_wr_self ..)
  · obtain ⟨-, -, htime, -⟩ := (s.advanceTo s.alarmAt).causeSet_spec 3
    rw [State.wake_stabled hstate, (hnoted _ _).2]
    exact Nat.le_trans hnow (Nat.le_of_eq (congrArg (fun t => t.yt / subNs) htime.symm))

end

/-! ### Exit (R344, R446) -/

/-- The keys that the exit writes after the core's and the MSS's PLLs have locked: the TB page, the channels, the lanes and what lies
above them, the channels' locks, STATE, and those of events. -/
def wakeKey (k : Nat) : Prop :=
  32 * 0xA000 ≤ k ∧ k < 32 * 0xB000 ∨ 32 * 0x20000 ≤ k ∧ k < 32 * 0x30000 ∨ 32 * 0x100000 ≤ k ∨ k = fkey clkP CLK_STAT_DMC_LOCK ∨
    k = fkey pwrP PWR_STATE_STATE ∨ eventKey k

theorem wakeKey_event {k : Nat} (h : eventKey k) : wakeKey k := .inr (.inr (.inr (.inr (.inr h))))

theorem wakeKey_dmc {n : Nat} (hn : n < 8) {f : Fld} (h : f.off < 0x1000 ∧ f.lo < 32) : wakeKey (fkey (pg .dmc n) f) := by
  refine .inr (.inl ?_)
  simp only [fkey, pg_dmc]
  omega

theorem wakeKey_ln (l : Nat) (f : Fld) : wakeKey (fkey (pg .ln l) f) := by
  refine .inr (.inr (.inl ?_))
  simp only [fkey, pg_ln]
  omega

theorem wakeKey_node {k : Nat} (h : nodeKey k) : wakeKey k := by
  refine .inr (.inr (.inl ?_))
  unfold nodeKey at h
  omega

theorem State.mem_channels {s : State} {n : Nat} (h : n ∈ s.channels) : n < 8 := by
  simp only [State.channels, upTo, List.mem_filter, List.mem_range] at h
  exact h.1

section
variable {s u : State}

/-- What a step of the exit keeps: the clock, and registers beside those of `wakeKey`. -/
def wakes (s u : State) : Prop := wrote wakeKey s u ∧ u.rim = s.rim

theorem wakes.emit {q code : Nat} {data : List Nat} (hq : isPage q) (h : wakes s u) : wakes s (u.emit q code data) :=
  ⟨h.1.emit hq fun _ => wakeKey_event, (State.rim_emit ..).trans h.2⟩

theorem wakes.wr {q v : Nat} {f : Fld} (hf : wakeKey (fkey q f)) (h : wakes s u) : wakes s (u.wr q f v) := ⟨h.1.wr hf, h.2⟩

theorem wakes.congr {v : State} (hregs : v.regs = u.regs) (hrim : v.rim = u.rim) (h : wakes s u) : wakes s v :=
  ⟨h.1.of_regs hregs, hrim.trans h.2⟩

theorem wakes.trainStep {n : Nat} (hn : n < 8) (ok : Bool) (h : wakes s u) : wakes s (u.trainStep n ok) := by
  refine ⟨?_, (State.rim_trainStep ..).trans h.2⟩
  have hkey : ∀ f : Fld, f.off < 0x1000 ∧ f.lo < 32 → wakeKey (fkey (pg .dmc n) f) := fun f => wakeKey_dmc hn
  have hdeg : wrote wakeKey s (u.dmcDeg n).2 := by
    unfold State.dmcDeg
    split
    · exact h.1
    · exact wrote.of_regs rfl h.1
  unfold State.trainStep
  dsimp only
  split
  · exact wrote.of_regs rfl h.1
  · split
    · exact (((hdeg.wr (hkey _ (by decide))).wr (hkey _ (by decide)))).emit (isPage_pg ..) fun _ => wakeKey_event
    · exact (((((wrote.of_regs rfl hdeg).wr (hkey _ (by decide))).wr (hkey _ (by decide))).wr (hkey _ (by decide))).wr
        (hkey _ (by decide))).emit (isPage_pg ..) fun _ => wakeKey_event

theorem wakes.srLeave {n : Nat} (hn : n < 8) (h : wakes s u) : wakes s (u.srLeave n) := by
  have hlock : wakes s (u.dmcLock n true) := ⟨wrote.of_regs rfl (h.1.wr (.inr (.inr (.inr (.inl rfl))))), h.2⟩
  unfold State.srLeave
  dsimp only
  split
  · exact ((hlock.trainStep hn true).wr (wakeKey_dmc hn (by decide))).emit (isPage_pg ..)
  · exact (hlock.wr (wakeKey_dmc hn (by decide))).emit (isPage_pg ..)

theorem wakes.lnQuiet {l : Nat} (h : wakes s u) : wakes s (u.lnQuiet l) := by
  unfold State.lnQuiet
  split
  · exact h
  · have hoff : wakes s (((u.wb (lnP l) LN_ST_LOS false).wb (lnP l) LN_ST_CDR false).wb (lnP l) LN_PAT_CTRL_LOCKED false) :=
      ((h.wr (wakeKey_ln ..)).wr (wakeKey_ln ..)).wr (wakeKey_ln ..)
    exact hoff.congr rfl rfl

theorem wakes.lnRefresh {q : Nat} (h : wakes s u) : wakes s (u.lnRefresh q) := by
  refine foldl_keeps (fun v i _ hv => hv.lnQuiet) (foldl_keeps (P := wakes s) (fun v k _ hv => ?_) h)
  dsimp only
  split
  · split
    · exact hv
    · exact ((hv.wr (wakeKey_ln ..)).wr (wakeKey_ln ..)).wr (wakeKey_ln ..)
  · have hoff : wakes s (((v.wb (pg .ln (4 * q)) (pllFlds k).1 false).wb (pg .ln (4 * q)) (pllFlds k).2.1 false).wr (pg .ln (4 * q))
        (pllFlds k).2.2 0) := ((hv.wr (wakeKey_ln ..)).wr (wakeKey_ln ..)).wr (wakeKey_ln ..)
    exact hoff.congr rfl rfl


/-- The clocks of the exit: the fine part of the time base runs again, and the channels start their exit. -/
theorem State.wakeClocks_spec (s : State) : wrote wakeKey s s.wakeClocks ∧ s.wakeClocks.time.coarse = false := by
  have hedge : wrote wakeKey s (if s.time.coarse then s.clockEdge else s) := by
    split
    · refine wrote.of_onlyRegs (fun k hk => .inl ?_) (onlyRegs_setTime s (s.time.clock s.clockInc)) (wrote.of_regs rfl wrote.refl)
      exact Classical.byContradiction fun hout => notMem_rxlKeys (by simp only [tb] at *; omega) hk
    · exact wrote.refl
  unfold State.wakeClocks
  generalize (if s.time.coarse then s.clockEdge else s) = u at hedge ⊢
  dsimp only
  refine foldl_keeps (P := fun v => wrote wakeKey s v ∧ v.time.coarse = false) (fun v n hn hv => ?_) ⟨?_, rfl⟩
  · split
    · exact ⟨hv.1.wr (wakeKey_dmc (State.mem_channels hn) (by decide)), hv.2⟩
    · exact hv
  · exact (wrote.of_regs (t := u) rfl hedge).wr (.inl (by simp only [fkey]; decide))

/-- Every matrix port that is enabled begins to capture its baselines. -/
theorem State.matrixWake_spec (s : State) (p : Nat) : wrote wakeKey s (s.matrixWake p) ∧ (s.matrixWake p).time = s.time ∧
    (∀ q, q ≠ p → (s.matrixWake p).tchSt q = s.tchSt q) ∧
    (s.enabled (tchP p) = true → ((s.matrixWake p).tchSt p).init = some 0) := by
  unfold State.matrixWake
  split
  next =>
    generalize hu : s.setTch p { s.tchSt p with lastSet := s.time.run } = u
    obtain ⟨hwrote, hcore⟩ := u.nodesQuiet_spec p
    have htime : (u.nodesQuiet p).time = s.time := (eq_of_core State.time (fun _ => rfl) hcore).trans (hu ▸ rfl)
    have hother : ∀ q, q ≠ p → (u.nodesQuiet p).tchSt q = s.tchSt q := fun q hq =>
      (eq_of_core (fun v => State.tchSt v q) (fun _ => rfl) hcore).trans (hu ▸ State.tchSt_setTch_ne s hq)
    have hregs : u.regs = s.regs := hu ▸ rfl
    have hnodes : wrote wakeKey s (u.nodesQuiet p) := (wrote.of_regs hregs wrote.refl).trans (hwrote.mono fun _ => wakeKey_node)
    unfold State.captureStart
    generalize u.nodesQuiet p = v at htime hother hnodes ⊢
    exact ⟨wrote.of_regs rfl hnodes, htime, fun q hq => (State.tchSt_setTch_ne v hq).trans (hother q hq), fun _ =>
      congrArg TchSt.init (State.tchSt_setTch_self v)⟩
  next hoff => exact ⟨wrote.refl, rfl, fun _ _ => rfl, fun hon => absurd hon hoff⟩


theorem exec_wakeComplete_not (h : s.pwrState ≠ 3) : exec .wakeComplete s = .next s := congrArg Host.Outcome.next (if_pos h)

theorem wakeKey_enabled {p : Nat} (hp : p < 2) : ¬ wakeKey (fkey (tchP p) HDR_CTRL_ENABLE) := by
  simp only [wakeKey, eventKey, fkey, pg_tch, pg_clk, pg_pwr, HDR_CTRL_ENABLE, CLK_STAT_DMC_LOCK, PWR_STATE_STATE]
  omega

theorem State.rd_setLock (s : State) (k : Nat) (on : Bool) : (s.setLock k on).rd clkP CLK_STAT_LOCK =
    (if on then setBit (s.rd clkP CLK_STAT_LOCK) k else clrBit (s.rd clkP CLK_STAT_LOCK) k) % 2 ^ CLK_STAT_LOCK.w := State.rd_wr_self ..

theorem State.rd_setLock_ne (s : State) (k : Nat) (on : Bool) {p : Nat} {f : Fld} (h : fkey p f ≠ fkey clkP CLK_STAT_LOCK) :
    (s.setLock k on).rd p f = s.rd p f := State.rd_wr_key h

/-- The two PLLs that the core and the MSS run on, locked. -/
def State.coreLocked (s : State) : State := (s.setLock 0 true).setLock 1 true

theorem State.coreLocked_spec (s : State) : s.coreLocked.pll 0 = true ∧ s.coreLocked.pll 1 = true ∧
    ∀ p, s.coreLocked.enabled (tchP p) = s.enabled (tchP p) := by
  refine ⟨?_, ?_, fun p => ?_⟩
  · rw [State.pll, State.coreLocked, State.rd_setLock, State.rd_setLock, bit_mod_two_pow (by decide)]
    exact bit_setBit_of_bit _ ((bit_mod_two_pow (by decide)).trans (bit_setBit_self ..))
  · rw [State.pll, State.coreLocked, State.rd_setLock, bit_mod_two_pow (by decide)]
    exact bit_setBit_self ..
  · have hne : fkey (tchP p) HDR_CTRL_ENABLE ≠ fkey clkP CLK_STAT_LOCK := by
      simp only [fkey, pg_tch, pg_clk, HDR_CTRL_ENABLE, CLK_STAT_LOCK]
      omega
    rw [State.enabled, State.enabled, State.on_eq, State.on_eq, State.coreLocked, State.rd_setLock_ne _ _ _ hne,
      State.rd_setLock_ne _ _ _ hne]

theorem wakeComplete_wakes {t : State} (h : s.pwrState = 3) (ht : exec .wakeComplete s = .next t) :
    t.pwrState = 0 ∧ t.time.coarse = false ∧ t.pll 0 = true ∧ t.pll 1 = true ∧
    ∀ p, p < 2 → s.enabled (tchP p) = true → (t.tchSt p).init = some 0 := by
  change execWakeComplete s = _ at ht
  unfold execWakeComplete at ht
  rw [if_neg (by simp [h])] at ht
  injection ht with ht
  extract_lets clocks chans lanes ports active at ht
  have hlocked : clocks = s.coreLocked.wakeClocks := rfl
  obtain ⟨hlock0, hlock1, hon⟩ := s.coreLocked_spec
  obtain ⟨hclocks, hcoarse⟩ := s.coreLocked.wakeClocks_spec
  rw [← hlocked] at hclocks hcoarse
  clear_value clocks
  have hlanes : wakes clocks lanes :=
    foldl_keeps (fun u q _ hu => hu.lnRefresh) (foldl_keeps (P := wakes clocks) (fun u n hn hu => by
      split
      · exact hu.srLeave (State.mem_channels hn)
      · exact hu) ⟨wrote.refl, rfl⟩)
  have hpll : ∀ u : State, wrote wakeKey s.coreLocked u → u.pll 0 = true ∧ u.pll 1 = true := fun u hu => by
    have hrd := hu.rd (p := clkP) (f := CLK_STAT_LOCK) (by simp only [wakeKey, eventKey, fkey]; decide)
    exact ⟨(congrArg (bit · 0) hrd).trans hlock0, (congrArg (bit · 1) hrd).trans hlock1⟩
  have henabled : ∀ u : State, wrote wakeKey s.coreLocked u → ∀ p, p < 2 → s.enabled (tchP p) = true → u.enabled (tchP p) = true :=
    fun u hu p hp h => (hu.on (wakeKey_enabled hp)).trans ((hon p).trans h)
  have hwrote := hclocks.trans hlanes.1
  have htime : lanes.time.coarse = false := (rim_coarse hlanes.2).trans hcoarse
  clear_value lanes
  obtain ⟨hwrote0, htime0, -, hinit0⟩ := lanes.matrixWake_spec 0
  obtain ⟨hwrote1, htime1, hother1, hinit1⟩ := (lanes.matrixWake 0).matrixWake_spec 1
  have hports : ports = (lanes.matrixWake 0).matrixWake 1 := rfl
  rw [← hports] at hwrote1 htime1 hother1 hinit1
  clear_value ports
  have hinit : ∀ p, p < 2 → s.enabled (tchP p) = true → (ports.tchSt p).init = some 0 := fun p hp h => by
    obtain rfl | rfl : p = 0 ∨ p = 1 := by omega
    · rw [hother1 0 (by decide)]
      exact hinit0 (henabled _ hwrote 0 (by decide) h)
    · exact hinit1 (henabled _ (hwrote.trans hwrote0) 1 (by decide) h)
  have hactive : active.pwrState = 0 ∧ wakes ports active ∧ active.tch = ports.tch := by
    refine ⟨(State.rd_emit_page (isPage_pg .pwr 0) (p := pwrP) (ownPage_of (by decide)) rfl).trans (State.rd_wr_self ..), ?_, ?_⟩
    · exact (wakes.wr (.inr (.inr (.inr (.inr (.inl rfl))))) ⟨wrote.refl, rfl⟩).emit (isPage_pg .pwr 0)
    · exact (eq_of_core State.tch (fun _ => rfl) (State.core_emit ..)).trans rfl
  clear_value active
  obtain ⟨hstate, ⟨hlast, hrim⟩, htch⟩ := hactive
  have hend : t.regs = active.regs ∧ t.time = active.time ∧ t.tch = active.tch := by
    rw [← ht]
    split <;> exact ⟨rfl, rfl, rfl⟩
  obtain ⟨hregs, htend, htchend⟩ := hend
  have hall : wrote wakeKey s.coreLocked t := wrote.of_regs hregs (((hwrote.trans hwrote0).trans hwrote1).trans hlast)
  refine ⟨(State.rd_congr (congrArg _ hregs)).trans hstate, ?_, (hpll t hall).1, (hpll t hall).2, fun p hp h => ?_⟩
  · rw [htend, rim_coarse hrim, htime1, htime0, htime]
  · exact (congrArg (fun m => (Store.getD tch0 p m).init) (htchend.trans htch)).trans (hinit p hp h)

end

/-! ### The drovers run again (R425, R446) -/

section
variable {s : State}

theorem exec_droverRelease_not (h : s.pwrState ≠ 0 ∨ s.mss.hold ≠ 0 ∨ s.mss.drovers = true ∨ s.recovery = true) :
    exec .droverRelease s = .next s := congrArg Host.Outcome.next (if_pos h)

/-- The drovers are out of reset. -/
def State.droversOn (s : State) : State := { s with mss := { s.mss with drovers := true } }

theorem exec_droverRelease (hp : s.pwrState = 0) (hh : s.mss.hold = 0) (hd : s.mss.drovers = false) (hr : s.recovery = false) :
    exec .droverRelease s = .next (if s.drvCodeOk.1 then s.drvCodeOk.2.droversOn else s.drvCodeOk.2.verifyFail 21 2) := by
  show execDroverRelease s = _
  have hgo : ¬ (s.pwrState ≠ 0 ∨ s.mss.hold ≠ 0 ∨ s.mss.drovers = true ∨ s.recovery = true) := by simp [hp, hh, hd, hr]
  unfold execDroverRelease State.droversOn
  extract_lets r
  rw [if_neg hgo]

/-- With every function off the drovers are held. -/
theorem State.drovers_functionsOff (s : State) : s.functionsOff.mss.drovers = false := by
  unfold State.functionsOff
  extract_lets keep blocks off dma
  clear_value dma
  split
  next => exact dma.droversHeld_spec.2
  next h => exact Bool.eq_false_iff.2 h

theorem State.rim_ownWrite (s : State) (a b c d : Nat) : (s.ownWrite a b c d).rim = s.rim := by
  simp [State.ownWrite, State.enableFenced, State.ownConflict]

theorem State.rim_ownCheck {s t : State} {a b c : Nat} {l : List Nat} (h : s.ownCheck a b c l = some t) : t.rim = s.rim := by
  unfold State.ownCheck at h
  dsimp only at h
  split at h
  · rw [← Option.some.inj h]
    exact State.rim_emit ..
  · split at h
    · rw [← Option.some.inj h]
      exact State.rim_emit ..
    · cases h

theorem State.rim_lnRefresh (s : State) (q : Nat) : (s.lnRefresh q).rim = s.rim :=
  (wakes.lnRefresh (s := s) ⟨wrote.refl, rfl⟩).2

theorem State.rim_useSet (s : State) (l : List Nat) (b : Bool) : (s.useSet l b).rim = s.rim := State.rim_foldl _ _ fun _ _ => rfl

theorem State.rim_netEnable (s : State) (w : Writer) (n : Nat) : (s.netEnable w n).rim = s.rim := by
  have hon : ∀ l q (L : List Fld), (((s.useSet l true).wb q HDR_CTRL_ENABLE true).commitNow q L).rim = s.rim := fun l q L =>
    State.rim_useSet ..
  unfold State.netEnable
  extract_lets p mode lane
  split
  · rfl
  · split
    · exact State.rim_emit ..
    · split
      next t ht => exact State.rim_ownCheck ht
      next =>
        split
        · exact hon ..
        · exact (State.rim_lnRefresh ..).trans (hon ..)

theorem State.rim_recoveryNet (s : State) : s.recoveryNet.rim = s.rim := by
  unfold State.recoveryNet
  extract_lets p id t u v
  have hv : v.rim = s.rim := by simp only [v, u, t, State.rim_wr]
  clear_value v
  split
  · exact hv
  · exact (State.rim_netEnable v _ _).trans hv

theorem State.drovers_enterRecovery (s : State) : s.enterRecovery.mss.drovers = false := by
  have hnet : s.enterRecovery.rim = (s.claimSet 0 0).functionsOff.recoveryMark.rim := by
    rw [State.enterRecovery_eq, State.rim_recoveryNet, State.rim_ownWrite, State.rim_ownWrite,
      State.rim_foldl _ _ fun u k => State.rim_ownWrite ..]
  have hmark : ∀ u : State, u.recoveryMark.mss.drovers = u.mss.drovers := fun _ => rfl
  exact (congrArg MssSt.drovers (rim_mss hnet)).trans ((hmark _).trans (State.drovers_functionsOff _))

theorem droverRelease_checks (hp : s.pwrState = 0) (hh : s.mss.hold = 0) (hd : s.mss.drovers = false) (hr : s.recovery = false) :
    (s.drvCodeOk.1 = true → completes .droverRelease s fun t =>
      t = { s.drvCodeOk.2 with mss := { s.drvCodeOk.2.mss with drovers := true } }) ∧
    (s.drvCodeOk.1 = false → completes .droverRelease s fun t => t.recovery = true ∧ t.mss.drovers = false) := by
  have hexec := exec_droverRelease hp hh hd hr
  constructor
  · intro hok
    rw [if_pos hok] at hexec
    exact ⟨_, hexec, rfl⟩
  · intro hbad
    rw [if_neg (by simp [hbad])] at hexec
    exact ⟨_, hexec, State.on_recovery_enterRecovery _, State.drovers_enterRecovery _⟩

end

/-! ### PLLs, the codec's idle time, reference clocks (R443, R444) -/

section
variable {s : State} {k : Fin 16}

theorem exec_devicePll_idle (h : s.pllRuns k.val = false ∨ s.pllIsLocked k.val = true) :
    exec (.devicePllLock k) s = .next s ∧ exec (.pllFail k) s = .next s := by
  refine ⟨congrArg Host.Outcome.next (if_pos ?_), congrArg Host.Outcome.next (if_pos ?_)⟩ <;> rcases h with h | h <;> simp [h]

/-- With the core's and the MSS's PLLs locked the exit goes on. -/
def State.exitGoesOn (s : State) : State :=
  if s.pwrState = 3 ∧ s.time.coarse ∧ s.pllIsLocked 0 ∧ s.pllIsLocked 1 then s.wakeClocks else s

theorem exec_devicePllLock (hr : s.pllRuns k.val = true) (hl : s.pllIsLocked k.val = false) : exec (.devicePllLock k) s =
    .next (if k.val < 4 then (s.setLock k.val true).exitGoesOn else s.dmcLock (k.val - 8) true) := by
  show execDevicePllLock k s = _
  unfold execDevicePllLock State.exitGoesOn
  rw [if_neg (by simp [hr, hl])]

theorem State.pllIsLocked_low (s : State) {k : Nat} (h : k < 4) : s.pllIsLocked k = s.pll k := if_pos h

theorem State.pllIsLocked_high (s : State) {k : Nat} (h : ¬ k < 4) : s.pllIsLocked k = s.dmcPll (k - 8) := if_neg h

theorem State.pll_setLock (s : State) {k : Nat} (h : k < 4) : (s.setLock k true).pll k = true := by
  rw [State.pll, State.rd_setLock]
  exact (bit_mod_two_pow (w := 4) h).trans (bit_setBit_self ..)

theorem State.dmcPll_dmcLock (s : State) {n : Nat} (h : n < 8) : (s.dmcLock n true).dmcPll n = true := by
  have hrd : (s.dmcLock n true).rd clkP CLK_STAT_DMC_LOCK = setBit (s.rd clkP CLK_STAT_DMC_LOCK) n % 2 ^ 8 := State.rd_wr_self ..
  rw [State.dmcPll, hrd, bit_mod_two_pow h]
  exact bit_setBit_self ..

theorem State.pll_wakeClocks (s : State) (k : Nat) : s.wakeClocks.pll k = s.pll k :=
  congrArg (bit · k) (s.wakeClocks_spec.1.rd (by simp only [wakeKey, eventKey, fkey]; decide))

theorem State.pll_exitGoesOn (s : State) (k : Nat) : s.exitGoesOn.pll k = s.pll k := by
  unfold State.exitGoesOn
  split
  · exact s.pll_wakeClocks k
  · rfl

theorem devicePllLock_locks (hr : s.pllRuns k.val = true) (hl : s.pllIsLocked k.val = false) :
    completes (.devicePllLock k) s fun t => t.pllIsLocked k.val = true := by
  have hk := k.isLt
  have hexec := exec_devicePllLock hr hl
  by_cases h4 : k.val < 4
  · rw [if_pos h4] at hexec
    exact completes_of hexec ((State.pllIsLocked_low _ h4).trans ((State.pll_exitGoesOn ..).trans (State.pll_setLock _ h4)))
  · rw [if_neg h4] at hexec
    exact completes_of hexec ((State.pllIsLocked_high _ h4).trans (State.dmcPll_dmcLock _ (by omega)))

/-- The failure of PLL `k` stands recorded. -/
def State.pllFailed (s : State) (k : Nat) : State := { s with pwr := { s.pwr with failed := k :: s.pwr.failed } }

theorem pllFail_recorded (hr : s.pllRuns k.val = true) (hl : s.pllIsLocked k.val = false) :
    (s.pwr.failed.contains k.val = true → exec (.pllFail k) s = .next s) ∧
    (s.pwr.failed.contains k.val = false → completes (.pllFail k) s fun t =>
      t.pwr.failed = k.val :: s.pwr.failed ∧ onlyRegsEv [] clkP { s with pwr := t.pwr } t) := by
  refine ⟨fun h => congrArg Host.Outcome.next (if_pos (by rw [h]; simp)), fun h => ?_⟩
  have hexec : exec (.pllFail k) s = .next ((s.pllFailed k.val).emit clkP 0x0001 [k.val]) :=
    congrArg Host.Outcome.next (if_neg (by rw [hr, hl, h]; simp))
  have hpwr : ((s.pllFailed k.val).emit clkP 0x0001 [k.val]).pwr = (s.pllFailed k.val).pwr :=
    eq_of_core State.pwr (fun _ => rfl) (State.core_emit ..)
  refine ⟨_, hexec, congrArg PwrSt.failed hpwr, ?_⟩
  rw [hpwr]
  exact State.emit_page_onlyRegsEv (ownPage_of (by decide))

theorem exec_codecPllIdleStop_none (h : s.pwr.codecIdle = none) : exec .codecPllIdleStop s = .next s := by
  show execCodecPllIdleStop s = _
  simp only [execCodecPllIdleStop, h]

theorem exec_codecPllIdleStop_used {a : Nat} (h : s.pwr.codecIdle = some a) (hu : s.codecUsed = true) :
    exec .codecPllIdleStop s = .next { s with pwr := { s.pwr with codecIdle := none } } := by
  show execCodecPllIdleStop s = _
  simp only [execCodecPllIdleStop, h, hu, if_true]

/-- The codec's PLL has no user, and waits for none. -/
def State.codecIdled (s : State) : State := { s with pwr := { s.pwr with codecIdle := none } }

theorem exec_codecPllIdleStop {a : Nat} (h : s.pwr.codecIdle = some a) (hu : s.codecUsed = false) :
    exec .codecPllIdleStop s = .next ((s.advanceRun (a + ns 1000000)).setLock 2 false).codecIdled := by
  show execCodecPllIdleStop s = _
  simp only [execCodecPllIdleStop, h, hu]
  rfl

theorem State.codecIdled_spec (u : State) :
    u.codecIdled.pll 2 = u.pll 2 ∧ u.codecIdled.pwr.codecIdle = none ∧ u.codecIdled.time = u.time := ⟨rfl, rfl, rfl⟩

theorem State.time_setLock (u : State) (k : Nat) (b : Bool) : (u.setLock k b).time = u.time := rfl

theorem State.pll_setLock_off (u : State) : (u.setLock 2 false).pll 2 = false := by
  rw [State.pll, State.rd_setLock, bit_mod_two_pow (by decide)]
  exact bit_clrBit_self ..

theorem codecPllIdleStop_stops {a : Nat} (h : s.pwr.codecIdle = some a) (hu : s.codecUsed = false) :
    completes .codecPllIdleStop s fun t => t.pll 2 = false ∧ t.pwr.codecIdle = none ∧ a + ns 1000000 ≤ t.time.run := by
  have hexec := exec_codecPllIdleStop h hu
  have hrun := s.le_run_advanceRun (a + ns 1000000)
  generalize s.advanceRun (a + ns 1000000) = u at hexec hrun
  obtain ⟨hpll, hnone, htime⟩ := (u.setLock 2 false).codecIdled_spec
  refine completes_of hexec ⟨hpll.trans u.pll_setLock_off, hnone, ?_⟩
  rw [htime, State.time_setLock]
  exact hrun

theorem exec_refClockChange_same {i : Fin 4} {b : Bool} (h : s.on clkP (refFld i.val) = b) : exec (.refClockChange i b) s = .next s :=
  congrArg Host.Outcome.next (if_pos (by simp [h]))

theorem refFld_spec : ∀ i : Fin 4, (refFld i.val).w = 1 ∧ (refFld i.val).beyondRaw = true ∧ (refFld i.val).off ≠ 0x1C := by decide

theorem refClockChange_shows {i : Fin 4} {b : Bool} (h : s.on clkP (refFld i.val) ≠ b) : completes (.refClockChange i b) s fun t =>
    t.on clkP (refFld i.val) = b ∧ onlyRegsEv [fkey clkP (refFld i.val)] clkP s t := by
  obtain ⟨hw, hf, hoff⟩ := refFld_spec i
  obtain ⟨-, -, hlo⟩ := beyondRaw_iff.1 hf
  have hclk : ownPage clkP := ownPage_of (by decide)
  refine ⟨_, congrArg Host.Outcome.next (if_neg (by simp [h])), ?_, ?_⟩
  · exact (State.on_emit_page (isPage_pg .clk 0) hclk hf).trans (State.on_wb_self hw b)
  · refine onlyRegsEv_emit (ringKeysFree_fields (L := [refFld i.val]) hclk ?_) (onlyRegsEv_wb List.mem_cons_self onlyRegsEv_refl)
    simp only [List.mem_singleton, forall_eq]
    exact ⟨hoff, hlo⟩

end

/-- Settles O57: the entry into the stabled state, its causes of wake and its exit, and the clocks. A wake in ACTIVE does nothing
(log 116), the exit performs the locks that remain, and a PLL that does not run cannot lock (log 117). -/
theorem power : Obligations.Power := by
  unfold Obligations.Power
  refine ⟨fun w s => ⟨fun f r h => exec_stableRequest_refused h, stableRequest_enters, exec_stabled_not, fun h => ?_, exec_wake_active,
    wakeRequest_entering, wakeRequest_stabled, wakeAlarm_stabled, exec_wakeComplete_not, fun h => ?_, exec_droverRelease_not,
    droverRelease_checks⟩, fun k s => ⟨exec_devicePll_idle, fun hr hl => ⟨devicePllLock_locks hr hl, pllFail_recorded hr hl⟩,
    exec_codecPllIdleStop_none, fun a h => ⟨fun hu => ⟨_, exec_codecPllIdleStop_used h hu, rfl⟩, codecPllIdleStop_stops h⟩,
    fun i b => exec_refClockChange_same, fun i b => refClockChange_shows⟩⟩
  · exact completes_of_forall fun t => stabled_sleeps h
  · exact completes_of_forall fun t => wakeComplete_wakes h

end Sys2Proof.Machine
end

section
/-! PROOFS. Which registers the yoke's traffic, the messages to the yardmaster and claims may write (R363 to R378, R384 to R388). -/

set_option autoImplicit false

namespace Sys2Proof.Machine

/-! ### The registers of the team's traffic -/

/-- The keys that the yoke's frames, the yardmaster's messages and a change of role may write: those of events, of the TB page, and of
pages from the YK page's claim on, but for the claim itself. -/
def teamKey (k : Nat) : Prop :=
  eventKey k ∨ k / 32 / 0x1000 = 0xA ∨ (0x3E104 ≤ k / 32 ∧ k ≠ fkey ykP YK_CLAIM_CLAIM)

theorem teamKey_event {k : Nat} (h : eventKey k) : teamKey k := .inl h

section
variable {p : Nat} {f : Fld}

theorem teamKey_above (h : 0x3F000 ≤ p) : teamKey (fkey p f) := by
  simp only [teamKey, fkey, pg_yk, YK_CLAIM_CLAIM]
  omega

theorem teamKey_tb (hoff : f.off < 0x1000) (hlo : f.lo < 32) : teamKey (fkey tb f) := by
  simp only [teamKey, fkey, show tb = 0xA000 from rfl]
  omega

theorem teamKey_yk (hoff : 0x104 ≤ f.off) (h : f.off * 32 + f.lo ≠ 0x104 * 32) : teamKey (fkey ykP f) := by
  simp only [teamKey, fkey, pg_yk, YK_CLAIM_CLAIM]
  omega

theorem not_teamKey_claim : ¬ teamKey (fkey ykP YK_CLAIM_CLAIM) := by
  simp only [teamKey, eventKey, fkey, pg_yk, YK_CLAIM_CLAIM]
  omega

/-- Fields of the pages below the YK page, but for the TB page. -/
theorem not_teamKey_low (hp : ownPage p) (hf : f.beyondRaw = true) (hlow : p < 0x3E000) (htb : p ≠ 0xA000) : ¬ teamKey (fkey p f) := by
  have hev := not_eventKey hp hf
  obtain ⟨hpage, -, -⟩ := hp
  obtain ⟨hoff, -, hlo⟩ := beyondRaw_iff.1 hf
  unfold isPage at hpage
  rintro (h | h | ⟨h, -⟩)
  · exact hev h
  · simp only [fkey] at h
    omega
  · simp only [fkey] at h
    omega

end

section
variable {K : Nat → Prop} {s t : State}

theorem wrote.foldl {α : Type} {step : State → α → State} (hstep : ∀ u x, wrote K u (step u x)) (l : List α) (s : State) :
    wrote K s (l.foldl step s) := by
  induction l generalizing s with
  | nil => exact .refl
  | cons x l ih => exact (hstep s x).trans (ih _)

theorem wrote.regs_eq (h : t.regs = s.regs) : wrote K s t := wrote.refl.of_regs h

end

/-! ### Messages and the link -/

section
variable (s : State)

theorem wrote_yk {K : Nat → Prop} (g : YokeSt → YokeSt) : wrote K s (s.yk g) := .regs_eq rfl

theorem wrote_setVc {K : Nat → Prop} (v : Nat) (x : YkVc) : wrote K s (s.setVc v x) := .regs_eq rfl

theorem wrote_netDrop (n : Nat) : wrote teamKey s (s.netDrop n) := by
  unfold State.netDrop
  exact .ite (.wr (teamKey_above (by rw [pg_ln]; omega)) .refl) .refl

theorem wrote_netDatagram (nets : Nat) (dest : Dest) (bytes : List Nat) : wrote teamKey s (s.netDatagram nets dest bytes) := by
  have hport : ∀ (u : State) (n : Nat), wrote teamKey u (if bit (s.netsUp nets) n then u.cnt (pg .net n) NET_TX_FRAMES_COUNT 1
      else if bit nets n then u.netDrop n else u) := fun u n =>
    .ite (.wr (teamKey_above (by rw [pg_net]; omega)) .refl) (.ite (wrote_netDrop u n) .refl)
  unfold State.netDatagram
  dsimp only
  refine wrote.trans ?_ (wrote.foldl hport _ _)
  split
  · exact .refl
  · exact .regs_eq rfl

theorem wrote_ymSend (typ : Nat) (body : List Nat) : wrote teamKey s (s.ymSend typ body) := by
  unfold State.ymSend
  exact .ite .refl (.of_regs rfl (wrote_netDatagram s _ _ _))

theorem wrote_report (kind obj id frame own partner withheld : Nat) :
    wrote teamKey s (s.report kind obj id frame own partner withheld) := wrote_ymSend s _ _

theorem wrote_wheelSplit : wrote teamKey s s.wheelSplit := by
  have hmode : wrote teamKey s (s.wr tb TB_CTRL_MODE 1) := .wr (teamKey_tb (by decide) (by decide)) .refl
  have hservo : wrote teamKey s ((s.wr tb TB_CTRL_MODE 1).wr tb TB_SERVO_STATE 3) := .wr (teamKey_tb (by decide) (by decide)) hmode
  unfold State.wheelSplit
  exact .ite (.ite (wrote_setTbState (fun _ => teamKey_event) (teamKey_tb (by decide) (by decide)) 3 hservo) hmode) .refl

theorem wrote_ykState (new : Nat) : wrote teamKey s (s.ykState new) := by
  unfold State.ykState
  exact .ite .refl (.emit (isPage_pg .yk 0) (fun _ => teamKey_event) .refl)

theorem teamKey_credHeld (v : Nat) : teamKey (fkey ykP (YK_VC_CRED_HELD v)) :=
  teamKey_yk (by simp only [YK_VC_CRED_HELD]; omega) (by simp only [YK_VC_CRED_HELD]; omega)

theorem teamKey_credOut (v : Nat) : teamKey (fkey ykP (YK_VC_CRED_OUT v)) :=
  teamKey_yk (by simp only [YK_VC_CRED_OUT]; omega) (by simp only [YK_VC_CRED_OUT]; omega)

theorem wrote_ykClear : wrote teamKey s s.ykClear := by
  unfold State.ykClear
  exact wrote.trans (.regs_eq rfl) (wrote.foldl (fun u v => .wr (teamKey_credOut v) (.wr (teamKey_credHeld v) .refl)) _ _)

theorem wrote_toIngress (m : Nat) (x : PktSlot) : wrote teamKey s (s.toIngress m x) := by
  unfold State.toIngress
  exact .ite (.regs_eq rfl) (.regs_eq rfl)

theorem wrote_laterGo : wrote teamKey s s.laterGo := by
  unfold State.laterGo
  exact wrote.trans (.regs_eq rfl) (wrote.foldl (fun u (e : Nat × PktSlot) => wrote_toIngress u e.1 e.2) _ _)

theorem wrote_ykLost (cause t : Nat) : wrote teamKey s (s.ykLost cause t) := by
  have hdown : wrote teamKey s (s.ykClear.cnt ykP YK_DOWN_COUNT_COUNT 1) :=
    .wr (teamKey_yk (by decide) (by decide)) (wrote_ykClear s)
  have hemit := hdown.emit (code := 0x1802) (data := [cause]) (isPage_pg .yk 0) fun _ => teamKey_event
  have hvalid := hemit.wr (f := YK_PARTNER_VALID) (v := 0) (teamKey_yk (by decide) (by decide))
  exact .of_regs rfl (hvalid.wr (f := YK_CLAIM_PARTNER) (v := 0xFF) (teamKey_yk (by decide) (by decide)))

/-- After the loss come the split of a team and, where it had a partner, its report. -/
theorem wrote_ykDown (cause : Nat) : wrote teamKey s (s.ykDown cause) := by
  have hlost : ∀ t : Nat, wrote teamKey s (s.ykLost cause t) := wrote_ykLost s cause
  have hsplit : ∀ t : Nat, wrote teamKey s (((s.ykLost cause t).ykState 6).wheelSplit.laterGo.mergeSplit s.isSeq) := fun t =>
    .of_regs rfl ((((hlost t).trans (wrote_ykState _ 6)).trans (wrote_wheelSplit _)).trans (wrote_laterGo _))
  exact .ite (.trans (.ite (hsplit _) (hlost _)) (wrote_report _ _ _ _ _ _ _ _)) (.ite (hsplit _) (hlost _))

theorem wrote_ykEmitFor (x : YkFrame) (replay : Bool) (av : Option Nat) (cv : Nat) :
    wrote teamKey s (s.ykEmitFor x replay av cv) := by
  have hack : wrote teamKey s (match av with
      | some v => s.setVc v { s.vc v with ackDue := false, nak := false }
      | none => s) := by
    cases av
    · exact .refl
    · exact .regs_eq rfl
  have hreplay : ∀ u : State, wrote teamKey u (if replay then u.cnt ykP YK_REPLAY_COUNT 1 else u) := fun u =>
    .ite (.wr (teamKey_yk (by decide) (by decide)) .refl) .refl
  unfold State.ykEmitFor
  exact .of_regs rfl ((hack.trans (.regs_eq rfl)).trans (hreplay _))

theorem wrote_ykEmit (x : YkFrame) (replay : Bool) : wrote teamKey s (s.ykEmit x replay) := wrote_ykEmitFor s _ _ _ _

theorem wrote_ykPush (v typ : Nat) (data : List Nat) : wrote teamKey s (s.ykPush v typ data) := by
  unfold State.ykPush
  extract_lets n x f u since
  split
  · exact wrote_ykDown s 2
  · have hu : wrote teamKey s u := .wr (teamKey_credOut v) (.wr (teamKey_credHeld v) .refl)
    exact (hu.trans (wrote_setVc u _ _)).trans (wrote_ykEmit _ _ _)

theorem wrote_ykSend (v typ : Nat) (data : List Nat) : wrote teamKey s (s.ykSend v typ data) := by
  unfold State.ykSend
  extract_lets d
  split
  · exact .refl
  · split
    · exact wrote_ykPush s _ _ _
    · exact wrote_setVc s _ _

/-! ### Roles and claims -/

theorem wrote_forward (x : PktSlot) : wrote teamKey s (s.forward x) := (wrote_yk s _).trans (wrote_ykSend _ _ _ _)

theorem wrote_timeRole : wrote teamKey s s.timeRole := by
  unfold State.timeRole
  exact .ite .refl (.ite (.ite (.wr (teamKey_tb (by decide) (by decide)) .refl) .refl) (.wr (teamKey_tb (by decide) (by decide)) .refl))

theorem wrote_roleChange (was : Bool) : wrote teamKey s (s.roleChange was) := by
  unfold State.roleChange
  split
  · exact .refl
  · split
    · extract_lets t u mine v
      have hv : wrote teamKey s v := (wrote_ykSend s 0 4 _).trans (wrote_yk u _)
      exact (hv.trans (wrote.foldl (fun a (e : MergeEnt) => wrote_forward a e.pkt) _ _)).trans (wrote_timeRole _)
    · exact (wrote_yk s _).trans (wrote_timeRole _)

theorem wrote_claimShown (new old : Nat) : wrote teamKey s (s.claimShown new old) :=
  wrote.foldl (fun _ e => .ite .refl (.emit (isPage_pg .bl e) (fun _ => teamKey_event) .refl)) _ _

/-- The keys of a change of the claim. -/
def claimKey (k : Nat) : Prop := teamKey k ∨ k = fkey ykP YK_CLAIM_CLAIM

/-- The claim and its cause, set. -/
def State.claimPut (s : State) (new cause : Nat) : State := (s.wr ykP YK_CLAIM_CLAIM new).wr ykP YK_CLAIM_CAUSE cause

/-- What follows the change of the claim: records, the frame, the report and the change of role. -/
theorem wrote_claimSet_of_ne {new : Nat} (cause : Nat) (h : new ≠ s.claim) :
    wrote teamKey (s.claimPut new cause) (s.claimSet new cause) := by
  unfold State.claimSet
  rw [if_neg h]
  have hrec := (wrote.refl (s := s.claimPut new cause)).emit (code := 0x0801) (data := [new, s.claim, cause]) (isPage_pg .yk 0)
    fun _ => teamKey_event
  exact (((hrec.trans (wrote_ykSend _ 2 2 _)).trans (wrote_claimShown _ _ _)).trans (wrote_report _ _ _ _ _ _ _ _)).trans
    (wrote_roleChange _ _)

theorem claim_of_wrote {s t : State} (h : wrote teamKey s t) : t.claim = s.claim := h.rd not_teamKey_claim

theorem claim_claimSet {new : Nat} (cause : Nat) (h : new < 256) : (s.claimSet new cause).claim = new := by
  by_cases hne : new = s.claim
  · unfold State.claimSet
    rw [if_pos hne]
    exact hne.symm
  · rw [claim_of_wrote (wrote_claimSet_of_ne s cause hne)]
    have hput : (s.claimPut new cause).claim = (s.wr ykP YK_CLAIM_CLAIM new).claim := State.rd_wr_key (by decide)
    exact hput.trans ((State.rd_wr_self ..).trans (Nat.mod_eq_of_lt h))

theorem wrote_claimSet (new cause : Nat) : wrote claimKey s (s.claimSet new cause) := by
  by_cases hne : new = s.claim
  · unfold State.claimSet
    rw [if_pos hne]
    exact .refl
  · refine wrote.trans ?_ ((wrote_claimSet_of_ne s cause hne).mono fun _ => .inl)
    exact .wr (.inl (teamKey_yk (by decide) (by decide))) (.wr (.inr rfl) .refl)

end

end Sys2Proof.Machine
end

section
/-! PROOFS. The sag: detection, save, restart, the collapse of VHOLD, and the mirror (R397, R403 to R409). -/

set_option autoImplicit false

namespace Sys2Proof.Machine

/-! ### What passing time, records and the parts of a detection leave -/

/-- What reads neither the clock nor registers reads alike when time has passed. -/
theorem State.advanceRun_leaves {α : Type} (g : State → α)
    (hg : ∀ (u : State) (c : TimeSt) (r : Store Nat), g { u with time := c, regs := r } = g u) (s : State) (x : Nat) :
    g (s.advanceRun x) = g s := by
  obtain ⟨c, h, -⟩ := s.advanceRun_spec x
  rw [h]
  exact hg s c _

section
variable (s : State)

theorem State.dbk_ringAppend (p : Nat) (r : Rec) : (s.ringAppend p r).dbk = s.dbk := by
  unfold State.ringAppend State.ringPut State.loftPutLE
  dsimp only
  split
  · rfl
  · split
    · show (s.loftPut _ _).dbk = _
      rw [(State.loftPut_spec s _ _).1]
    · rw [(State.loftPut_spec _ _ _).1, (State.loftPut_spec s _ _).1]

theorem State.dbk_raisePage (p : Nat) : (s.raisePage p).dbk = s.dbk := by
  unfold State.raisePage State.raiseTarget State.raiseMsix
  dsimp only
  split
  · split <;> rfl
  · split
    · split <;> rfl
    · split <;> rfl

theorem length_put_le {α : Type} (k : Nat) (v : α) (m : Store α) : (Store.put k v m).length ≤ m.length + 1 := by
  induction m with
  | nil => exact Nat.le_refl _
  | cons e m ih =>
    unfold Store.put
    split
    · exact Nat.succ_le_succ ih
    · split
      · exact Nat.le_succ _
      · exact Nat.le_refl _

theorem State.length_dbk_dbkAppend (r : Rec) : (s.dbkAppend r).dbk.length ≤ s.dbk.length + 1 := by
  unfold State.dbkAppend
  dsimp only
  split
  · exact length_put_le ..
  · split
    · exact Nat.le_succ _
    · exact length_put_le ..

/-- An event writes at most one record to the daybook. -/
theorem State.length_dbk_emit (p code : Nat) (data : List Nat) : (s.emit p code data).dbk.length ≤ s.dbk.length + 1 := by
  have hraise : ∀ (c : Prop) [Decidable c] (u : State), (if c then u.raisePage p else u).dbk = u.dbk := by
    intro c _ u
    split
    · exact u.dbk_raisePage p
    · rfl
  have happ : ∀ (c : Prop) [Decidable c] (u : State) (r : Rec), (if c then u.dbkAppend r else u).dbk.length ≤ u.dbk.length + 1 := by
    intro c _ u r
    split
    · exact u.length_dbk_dbkAppend r
    · exact Nat.le_succ _
  unfold State.emit State.emitAt
  dsimp only
  rw [hraise, State.dbk_ringAppend]
  exact happ _ _ _

end

/-! ### Detection (R403, R404, R408) -/

section
variable (s : State)

@[simp] theorem State.rim_setBl (e l : Nat) (x : BlLane) : (s.setBl e l x).rim = s.rim := rfl

@[simp] theorem State.rim_blQueue (e l : Nat) (x : BlPkt) : (s.blQueue e l x).rim = s.rim := by
  simp [State.blQueue]

@[simp] theorem State.rim_sagIdle (e l : Nat) : (s.sagIdle e l).rim = s.rim := by
  unfold State.sagIdle
  split
  · rfl
  · exact State.rim_blQueue ..

theorem wrote_sagIdle (e l : Nat) : wrote teamKey s (s.sagIdle e l) := by
  have hqueue : ∀ x : BlPkt, wrote teamKey s (s.blQueue e l x) := by
    intro x
    unfold State.blQueue
    split
    · exact .regs_eq rfl
    · exact .wr (teamKey_above (by rw [show lnP l = pg .ln l from rfl, pg_ln]; omega)) .refl
  unfold State.sagIdle
  split
  · exact .refl
  · exact hqueue _

/-- The lanes of a packetiser get their IDLE packets. -/
def State.sagIdles (s : State) (e : Nat) : State :=
  if s.enabled (blP e) then (s.blRun e).foldl (fun s l => s.sagIdle e l) s else s

theorem State.rim_sagIdles (e : Nat) : (s.sagIdles e).rim = s.rim := by
  simp [State.sagIdles]

theorem wrote_sagIdles (e : Nat) : wrote teamKey s (s.sagIdles e) := by
  unfold State.sagIdles
  split
  · exact wrote.foldl (fun u l => wrote_sagIdle u e l) _ _
  · exact .refl

/-! #### A farrier's run and an update session end with it -/

theorem State.time_farOver : s.farOver.time = s.time := by
  unfold State.farOver
  dsimp only
  split <;> rfl

theorem State.time_farAbandon : s.farAbandon.time = s.time := by
  unfold State.farAbandon
  split
  · rfl
  · rw [State.time_farOver]
    exact eq_of_core State.time (fun _ => rfl) (by simp)

theorem State.time_updAbort : s.updAbort.time = s.time := by
  unfold State.updAbort
  split <;> rfl

/-- Keys outside of the pages of FAR, UPD and SAG are not those that the end of a run, of a session and the signs of a sag
write. -/
def sagKey (k : Nat) : Prop := eventKey k ∨ k / 32 / 0x1000 = 7 ∨ k / 32 / 0x1000 = 8 ∨ k / 32 / 0x1000 = 9

theorem sagKey_event {k : Nat} (h : eventKey k) : sagKey k := .inl h

theorem sagKey_far {f : Fld} (h : f.off < 0x1000 ∧ f.lo < 32) : sagKey (fkey farP f) := by
  simp only [sagKey, fkey, show farP = 0x7000 from rfl]
  omega

theorem sagKey_upd {f : Fld} (h : f.off < 0x1000 ∧ f.lo < 32) : sagKey (fkey updP f) := by
  simp only [sagKey, fkey, show updP = 0x8000 from rfl]
  omega

theorem sagKey_sag {f : Fld} (h : f.off < 0x1000 ∧ f.lo < 32) : sagKey (fkey sagP f) := by
  simp only [sagKey, fkey, show sagP = 0x9000 from rfl]
  omega

theorem not_sagKey_claim : ¬ sagKey (fkey ykP YK_CLAIM_CLAIM) := by
  simp only [sagKey, eventKey, fkey]
  decide

theorem wrote_farStart (t : Nat) : wrote sagKey s (s.farStart t) :=
  have hbusy : wrote sagKey s ((s.wb farP FAR_CTRL_RUN false).wb farP FAR_STATUS_BUSY true) :=
    .wr (sagKey_far (by decide)) (.wr (sagKey_far (by decide)) .refl)
  hbusy.of_regs rfl

theorem wrote_farOver : wrote sagKey s s.farOver := by
  have hover : wrote sagKey s (s.wb farP FAR_STATUS_BUSY false) := .wr (sagKey_far (by decide)) .refl
  unfold State.farOver
  dsimp only
  split
  · exact (hover.of_regs rfl).trans (wrote_farStart _ _)
  · exact hover.of_regs rfl

theorem wrote.foldl_mem {K : Nat → Prop} {α : Type} {step : State → α → State} {l : List α}
    (hstep : ∀ u, ∀ x ∈ l, wrote K u (step u x)) (s : State) : wrote K s (l.foldl step s) := by
  induction l generalizing s with
  | nil => exact .refl
  | cons x l ih =>
    exact (hstep s x List.mem_cons_self).trans (ih (fun u y hy => hstep u y (List.mem_cons_of_mem x hy)) _)

theorem wrote_farLoad (l : List Nat) : wrote sagKey s (s.farLoad l) := by
  refine wrote.foldl_mem (fun u x hx => .wr ?_ .refl) s
  have hidx : x.1 ∈ farIdx := (List.of_mem_zip hx).1
  simp only [farIdx, upTo, List.mem_append, List.mem_range, List.mem_map] at hidx
  refine sagKey_far ⟨?_, by simp only [FAR_VAL_VALUE]; omega⟩
  simp only [FAR_VAL_VALUE]
  omega

theorem wrote_farFallback (t : Nat) : wrote sagKey s (s.farFallback t) := by
  unfold State.farFallback
  split
  · exact .wr (sagKey_far (by decide)) (wrote_farLoad s _)
  · exact .refl

theorem wrote_farAbandon : wrote sagKey s s.farAbandon := by
  unfold State.farAbandon
  split
  · exact .refl
  · rename_i t _
    have hreject : wrote sagKey s (s.farReject t 3 0 0) :=
      .emit (isPage_pg .far 0) (fun _ => sagKey_event) (.wr (sagKey_far (by decide)) .refl)
    exact ((hreject.trans (wrote_farFallback _ t)).wr (sagKey_far (by decide))).trans (wrote_farOver _)

theorem wrote_updAbort : wrote sagKey s s.updAbort := by
  unfold State.updAbort
  split
  · exact .refl
  · have hgran : wrote sagKey s ((s.norErase 0x2000000 0x2001000).wr updP UPD_RECEIVED_GRANULES 0) :=
      .wr (sagKey_upd (by decide)) (.regs_eq rfl)
    have hstate := (hgran.wr (f := UPD_STATE_STATE) (v := 0) (sagKey_upd (by decide))).wr (f := UPD_STATE_PATH) (v := 0)
      (sagKey_upd (by decide))
    exact (hstate.wr (f := UPD_BLOCK_BUSY) (v := 0) (sagKey_upd (by decide))).of_regs rfl

end

section
variable (s : State) (c v : Nat)

/-- A detection up to the sensor's record: the claim lowered, IDLE on the lanes. -/
def State.sagLowered (s : State) : State := (upTo 4).foldl (fun s e => s.sagIdles e) (s.claimSet 0 2)

/-- A detection up to the switching on of NVM_VCC. -/
def State.sagSeen (s : State) (c v : Nat) : State :=
  ((s.sagLowered.emit sagP 0x0001 [c, v]).farAbandon.updAbort).nvmPower true

/-- What a detection leaves in the SAG page. -/
def State.sagMarked (s : State) : State :=
  ((s.wr sagP SAG_STAT_STATE 1).cnt sagP SAG_COUNT_COUNT 1).wr64 sagP SAG_LAST_LO_T SAG_LAST_HI_T s.now

theorem State.sagDetect_eq (h : s.sagState = 0) : ∃ (l : List Nat) (n : Nat) (w : Nat), s.sagDetect c v =
    { (s.sagSeen c v).sagMarked with
      sag := { (s.sagSeen c v).sagMarked.sag with
        cause := c, at_ := (s.sagSeen c v).sagMarked.time.run, tailed := false, cal := l, node := n,
        charging := decide (c = 2), upTo_ := w } } :=
  ⟨_, _, _, if_neg (not_not_intro h)⟩

theorem State.rim_sagLowered : s.sagLowered.rim = s.rim :=
  (State.rim_foldl _ _ fun u e => u.rim_sagIdles e).trans (s.rim_claimSet 0 2)

theorem State.claim_sagLowered : s.sagLowered.claim = 0 :=
  (claim_of_wrote (wrote.foldl (fun u e => wrote_sagIdles u e) _ _)).trans (claim_claimSet s 2 (by decide))

theorem State.time_nvmPower (on : Bool) : (s.nvmPower on).time = s.time := rfl

theorem State.run_sagSeen : (s.sagSeen c v).time.run = s.time.run := by
  unfold State.sagSeen
  rw [State.time_nvmPower, State.time_updAbort, State.time_farAbandon]
  exact rim_run ((State.rim_emit ..).trans s.rim_sagLowered)

theorem wrote_sagSeen : wrote sagKey s.sagLowered (s.sagSeen c v) := by
  have hemit : wrote sagKey s.sagLowered (s.sagLowered.emit sagP 0x0001 [c, v]) :=
    .emit (isPage_pg .sag 0) (fun _ => sagKey_event) .refl
  exact ((hemit.trans (wrote_farAbandon _)).trans (wrote_updAbort _)).of_regs rfl

theorem State.claim_sagSeen : (s.sagSeen c v).claim = 0 := ((wrote_sagSeen s c v).rd not_sagKey_claim).trans s.claim_sagLowered

/-- What STATE 1, the count and the time of a sag leave. -/
theorem State.sagMarked_spec : s.sagMarked.sagState = 1 ∧ s.sagMarked.sag = s.sag ∧ s.sagMarked.time = s.time ∧
    s.sagMarked.claim = s.claim := by
  refine ⟨?_, rfl, rfl, ?_⟩
  · unfold State.sagMarked State.wr64
    rw [State.sagState, State.rd_wr_key (by decide), State.rd_wr_key (by decide), State.cnt_eq, State.rd_wr_key (by decide)]
    exact State.rd_wr_self ..
  · unfold State.sagMarked State.wr64
    rw [State.claim, State.rd_wr_key (by decide), State.rd_wr_key (by decide), State.cnt_eq, State.rd_wr_key (by decide),
      State.rd_wr_key (by decide)]
    rfl

theorem State.vcc_nvmPower (on : Bool) : (s.nvmPower on).sag.nvmVcc = on := rfl

theorem State.vcc_sagSeen : (s.sagSeen c v).sag.nvmVcc = true := by
  unfold State.sagSeen
  exact State.vcc_nvmPower _ true

theorem State.sagDetect_spec (h : s.sagState = 0) (hc : c ≠ 2) :
    (s.sagDetect c v).sagState = 1 ∧ (s.sagDetect c v).sag.at_ = s.time.run ∧ (s.sagDetect c v).sag.tailed = false ∧
    (s.sagDetect c v).sag.charging = false ∧ (s.sagDetect c v).sag.nvmVcc = true ∧ (s.sagDetect c v).claim = 0 := by
  obtain ⟨l, n, w, heq⟩ := s.sagDetect_eq c v h
  obtain ⟨hstate, hsag, htime, hclaim⟩ := (s.sagSeen c v).sagMarked_spec
  have hrun := s.run_sagSeen c v
  have hvcc := s.vcc_sagSeen c v
  have hlow := s.claim_sagSeen c v
  rw [heq]
  generalize s.sagSeen c v = u at hstate hsag htime hclaim hrun hvcc hlow
  generalize u.sagMarked = m at hstate hsag htime hclaim
  refine ⟨hstate, ?_, rfl, decide_eq_false hc, ?_, hclaim.trans hlow⟩
  · exact (congrArg TimeSt.run htime).trans hrun
  · exact (congrArg SagSt.nvmVcc hsag).trans hvcc

end

section
variable {s : State} {r : Option (Fin 15)}

theorem exec_sagDetect_held (h : s.mss.hold = 1 ∨ s.mss.hold = 5) : exec (.sagDetect r) s = .next s :=
  congrArg Host.Outcome.next (if_pos h)

/-- The input is watched: PFAIL_N, or the rail. -/
def State.sagWatched (s : State) (r : Option (Fin 15)) : Bool :=
  match r with
  | none => s.on sagP SAG_CFG_PFAIL_EN
  | some v => s.on mssP (MSS_VS_SAG_WATCH v.val)

theorem exec_sagDetect (h1 : s.mss.hold ≠ 1) (h5 : s.mss.hold ≠ 5) : ∃ c v, c ≠ 2 ∧
    exec (.sagDetect r) s = .next (if s.sagWatched r then s.sagDetect c v else s) := by
  have hfree : ¬ (s.mss.hold = 1 ∨ s.mss.hold = 5) := fun h => h.elim h1 h5
  cases r with
  | none => exact ⟨0, 0, by decide, congrArg Host.Outcome.next (if_neg hfree)⟩
  | some v => exact ⟨1, v.val, by decide, congrArg Host.Outcome.next (if_neg hfree)⟩

theorem exec_sagDetect_again (h1 : s.mss.hold ≠ 1) (h5 : s.mss.hold ≠ 5) (hs : s.sagState ≠ 0) :
    exec (.sagDetect r) s = .next s := by
  obtain ⟨c, v, -, hexec⟩ := exec_sagDetect (r := r) h1 h5
  have hsame : s.sagDetect c v = s := if_pos hs
  rw [hexec, hsame, ite_self]

theorem sagDetect_detects (h1 : s.mss.hold ≠ 1) (h5 : s.mss.hold ≠ 5) (hs : s.sagState = 0) (hw : s.sagWatched r = true) :
    completes (.sagDetect r) s fun t => t.sagState = 1 ∧ t.sag.at_ = s.time.run ∧ t.sag.tailed = false ∧ t.sag.charging = false ∧
      t.sag.nvmVcc = true ∧ (s.blQuads = [] → t.claim = 0) := by
  obtain ⟨c, v, hc, hexec⟩ := exec_sagDetect (r := r) h1 h5
  rw [if_pos hw] at hexec
  obtain ⟨hstate, hat, htail, hcharge, hvcc, hclaim⟩ := s.sagDetect_spec c v hs hc
  exact completes_of hexec ⟨hstate, hat, htail, hcharge, hvcc, fun _ => hclaim⟩

end

/-! ### TAIL and the save (R404) -/

section
variable (s : State)

/-- A clear that the TAIL of a sag brings: what stands, and what is lost. -/
theorem State.clearSys_tail : (s.clearSys 4).mss.hold = 4 ∧ (s.clearSys 4).dram = [] ∧ (s.clearSys 4).heads = [] ∧
    (s.clearSys 4).dbk = s.dbk ∧ (s.clearSys 4).nvm = s.nvm := ⟨rfl, rfl, rfl, rfl, rfl⟩

/-- TAIL has passed. -/
def State.sagTailed (s : State) : State := { s.clearSys 4 with sag := { (s.clearSys 4).sag with tailed := true } }

theorem State.sagTailed_spec : s.sagTailed.sag.tailed = true ∧ s.sagTailed.mss = (s.clearSys 4).mss ∧
    s.sagTailed.dram = (s.clearSys 4).dram ∧ s.sagTailed.heads = (s.clearSys 4).heads ∧ s.sagTailed.dbk = (s.clearSys 4).dbk ∧
    s.sagTailed.nvm = (s.clearSys 4).nvm := ⟨rfl, rfl, rfl, rfl, rfl, rfl⟩

/-- What the end of a save shows: its time, its records, and what it came to. -/
def State.sagShown (s : State) (us : Nat) (r : Bool) (records last : Nat) : State :=
  ((((s.wr sagP SAG_SAVE_US (min us 0xFFFF)).wr sagP SAG_SAVE_RECORDS records).wr sagP SAG_STAT_LAST last).wb sagP SAG_STAT_NVM_OK
    r).wr sagP SAG_STAT_STATE 2

/-- The save has ended. -/
def State.sagSaved (s : State) (us : Nat) (r : Bool) (records last : Nat) : State :=
  { s.sagShown us r records last with
    sag := { (s.sagShown us r records last).sag with ended := (s.sagShown us r records last).time.run } }.nvmPower false

theorem State.sagShown_spec (us : Nat) (r : Bool) (records last : Nat) :
    (s.sagShown us r records last).rd sagP SAG_STAT_STATE = 2 ∧
    (s.sagShown us r records last).rd sagP SAG_SAVE_US = min us 0xFFFF ∧
    (s.sagShown us r records last).on sagP SAG_STAT_NVM_OK = r ∧
    (s.sagShown us r records last).rd sagP SAG_STAT_LAST = last % 4 := by
  unfold State.sagShown
  refine ⟨?_, ?_, ?_, ?_⟩
  · rw [State.rd_wr_self]
    rfl
  · rw [State.rd_wr_key (by decide), State.wb_eq, State.rd_wr_key (by decide), State.rd_wr_key (by decide),
      State.rd_wr_key (by decide), State.rd_wr_self]
    exact Nat.mod_eq_of_lt (Nat.lt_of_le_of_lt (Nat.min_le_right ..) (by decide))
  · rw [State.on_eq, State.rd_wr_key (by decide), ← State.on_eq]
    exact State.on_wb_self rfl r
  · rw [State.rd_wr_key (by decide), State.wb_eq, State.rd_wr_key (by decide), State.rd_wr_self]
    rfl

theorem State.sagSaved_spec (us : Nat) (r : Bool) (records last : Nat) :
    (s.sagSaved us r records last).sagState = 2 ∧ (s.sagSaved us r records last).rd sagP SAG_SAVE_US = min us 0xFFFF ∧
    (s.sagSaved us r records last).on sagP SAG_STAT_NVM_OK = r ∧ (s.sagSaved us r records last).sag.nvmVcc = false ∧
    (s.sagSaved us r records last).rd sagP SAG_STAT_LAST = last % 4 ∧ (s.sagSaved us r records last).nvm = s.nvm := by
  have hregs : (s.sagSaved us r records last).regs = (s.sagShown us r records last).regs := rfl
  have hrd : ∀ f, (s.sagSaved us r records last).rd sagP f = (s.sagShown us r records last).rd sagP f := fun f =>
    State.rd_congr (by rw [hregs])
  obtain ⟨hstate, htime, hok, hlast⟩ := s.sagShown_spec us r records last
  refine ⟨(hrd _).trans hstate, (hrd _).trans htime, ?_, rfl, (hrd _).trans hlast, rfl⟩
  rw [State.on_eq, hrd, ← State.on_eq]
  exact hok

/-- A record of the SAG page leaves what the save has left. -/
theorem State.sagSaved_emit (u : State) (code : Nat) (data : List Nat) :
    (u.emit sagP code data).sagState = u.sagState ∧ (u.emit sagP code data).rd sagP SAG_SAVE_US = u.rd sagP SAG_SAVE_US ∧
    (u.emit sagP code data).on sagP SAG_STAT_NVM_OK = u.on sagP SAG_STAT_NVM_OK ∧ (u.emit sagP code data).sag = u.sag ∧
    (u.emit sagP code data).rd sagP SAG_STAT_LAST = u.rd sagP SAG_STAT_LAST ∧ (u.emit sagP code data).nvm = u.nvm := by
  have hpage : isPage sagP := isPage_pg .sag 0
  have hown : ownPage sagP := ownPage_of (by decide)
  exact ⟨State.rd_emit_page hpage hown rfl, State.rd_emit_page hpage hown rfl, State.on_emit_page hpage hown rfl,
    rim_sag (State.rim_emit ..), State.rd_emit_page hpage hown rfl, rim_nvm (State.rim_emit ..)⟩

end

section
variable {s : State} {us : Nat} {r : Bool}

theorem exec_sagTail_not (h : s.sagState = 0 ∨ s.sag.tailed = true) : exec .sagTail s = .next s :=
  congrArg Host.Outcome.next (if_pos h)

theorem sagTail_clears (hs : s.sagState ≠ 0) (ht : s.sag.tailed = false) : completes .sagTail s fun t =>
    t.sag.tailed = true ∧ t.mss.hold = 4 ∧ t.dram = [] ∧ t.heads = [] ∧ t.dbk = s.dbk ∧ t.nvm = s.nvm := by
  have hexec : exec .sagTail s = .next (s.advanceRun (s.sag.at_ + ns (s.sagTail * 1000))).sagTailed :=
    congrArg Host.Outcome.next (if_neg (by simp [hs, ht]))
  have hdbk := s.advanceRun_leaves State.dbk (fun _ _ _ => rfl) (s.sag.at_ + ns (s.sagTail * 1000))
  have hnvm := s.advanceRun_leaves State.nvm (fun _ _ _ => rfl) (s.sag.at_ + ns (s.sagTail * 1000))
  generalize s.advanceRun (s.sag.at_ + ns (s.sagTail * 1000)) = u at hexec hdbk hnvm
  obtain ⟨htail, hmss, hdram, hheads, hdbk', hnvm'⟩ := u.sagTailed_spec
  obtain ⟨chold, cdram, cheads, cdbk, cnvm⟩ := u.clearSys_tail
  exact completes_of hexec ⟨htail, (congrArg MssSt.hold hmss).trans chold, hdram.trans cdram, hheads.trans cheads,
    hdbk'.trans (cdbk.trans hdbk), hnvm'.trans (cnvm.trans hnvm)⟩

theorem exec_saveDone_not (h : s.sagState ≠ 1) : exec (.saveDone us r) s = .next s := congrArg Host.Outcome.next (if_pos h)

/-- The moment at which the save ends. -/
def State.saveTime (s : State) (us : Nat) : State := s.advanceRun (s.sag.at_ + ns (us * 1000))

theorem exec_saveDone_fails (h : s.sagState = 1) (hf : r = false ∨ 5000 < us) :
    ∃ k, exec (.saveDone us r) s = .next (((s.saveTime us).sagSaved us r 0 3).emit sagP 0x0802 [k]) := by
  show ∃ k, execSaveDone us r s = _
  cases r with
  | false =>
    refine ⟨0, ?_⟩
    unfold execSaveDone
    exact congrArg Host.Outcome.next (if_neg (not_not_intro h))
  | true =>
    refine ⟨1, ?_⟩
    have hlate : 5000 < us := hf.resolve_left (by decide)
    unfold execSaveDone
    exact congrArg Host.Outcome.next ((if_neg (not_not_intro h)).trans (if_pos hlate))

/-- The save writes its image, and tells what it left out. -/
def State.sagWritten (s : State) (us : Nat) : State :=
  (s.sagSave.2.2.sagSaved us true s.sagSave.1 (if s.sagSave.2.1 = 0 then 1 else 2)).emit sagP 0x0801
    (le us 4 ++ le s.sagSave.1 2 ++ le s.sagSave.2.1 2)

theorem exec_saveDone_saves (h : s.sagState = 1) (hr : r = true) (hus : ¬ 5000 < us) :
    exec (.saveDone us r) s = .next ((s.saveTime us).sagWritten us) := by
  subst hr
  show execSaveDone us true s = _
  unfold execSaveDone
  exact congrArg Host.Outcome.next ((if_neg (not_not_intro h)).trans (if_neg hus))

theorem saveDone_ends (h : s.sagState = 1) : completes (.saveDone us r) s fun t =>
    t.sagState = 2 ∧ t.rd sagP SAG_SAVE_US = min us 0xFFFF ∧ t.on sagP SAG_STAT_NVM_OK = r ∧ t.sag.nvmVcc = false ∧
    ((r = false ∨ 5000 < us) → t.rd sagP SAG_STAT_LAST = 3 ∧ t.nvm = s.nvm) := by
  by_cases hf : r = false ∨ 5000 < us
  · obtain ⟨k, hexec⟩ := exec_saveDone_fails h hf
    have hnvm : (s.saveTime us).nvm = s.nvm := s.advanceRun_leaves State.nvm (fun _ _ _ => rfl) _
    generalize s.saveTime us = u at hexec hnvm
    obtain ⟨hstate, htime, hok, hvcc, hlast, hkept⟩ := u.sagSaved_spec us r 0 3
    obtain ⟨estate, etime, eok, esag, elast, envm⟩ := State.sagSaved_emit (u.sagSaved us r 0 3) 0x0802 [k]
    exact completes_of hexec ⟨estate.trans hstate, etime.trans htime, eok.trans hok, (congrArg SagSt.nvmVcc esag).trans hvcc,
      fun _ => ⟨elast.trans hlast, envm.trans (hkept.trans hnvm)⟩⟩
  · obtain ⟨hr, hus⟩ := not_or.1 hf
    obtain rfl : r = true := Bool.eq_true_of_not_eq_false hr
    have hexec := exec_saveDone_saves h rfl hus
    generalize s.saveTime us = u at hexec
    unfold State.sagWritten at hexec
    obtain ⟨hstate, htime, hok, hvcc, -, -⟩ := u.sagSave.2.2.sagSaved_spec us true u.sagSave.1 (if u.sagSave.2.1 = 0 then 1 else 2)
    obtain ⟨estate, etime, eok, esag, -, -⟩ := State.sagSaved_emit
      (u.sagSave.2.2.sagSaved us true u.sagSave.1 (if u.sagSave.2.1 = 0 then 1 else 2)) 0x0801
      (le us 4 ++ le u.sagSave.1 2 ++ le u.sagSave.2.1 2)
    exact completes_of hexec ⟨estate.trans hstate, etime.trans htime, eok.trans hok, (congrArg SagSt.nvmVcc esag).trans hvcc,
      fun hf' => absurd hf' hf⟩

end

/-! ### The restart, VHOLD and its collapse (R397, R407, R409) -/

section
variable (s : State)

/-- A clear of SYS disables the time pins of TIN and TOUT `i`. -/
def State.pinsOff (s : State) (i : Nat) : State :=
  ((s.wb tb (TB_TI_CTRL_EN i) false).wb tb (TB_TO_CTRL_EN i) false).wb tb (TB_TO_CTRL_ARM i) false

theorem State.dbk_pinsOff (i : Nat) : (s.pinsOff i).dbk = s.dbk := rfl

theorem State.dbk_clearSys (hold : Nat) : (s.clearSys hold).dbk = s.dbk := by
  have hpins : ∀ (c : Prop) [Decidable c] (u : State), State.dbk (if c then u else (upTo 8).foldl State.pinsOff u) = u.dbk := by
    intro c _ u
    split
    · rfl
    · exact foldl_leaves (g := State.dbk) (step := State.pinsOff) (fun v i _ => v.dbk_pinsOff i) u
  unfold State.clearSys
  extract_lets r m c b c' pins u v
  have hu : u.dbk = s.dbk := rfl
  have hv : v.dbk = u.dbk := hpins (hold = 4) u
  exact hv.trans hu

theorem State.dbk_resetSys (c hold : Nat) : (s.resetSys c hold).dbk = s.dbk := s.dbk_clearSys hold

theorem State.dbk_newNonce : s.newNonce.dbk = s.dbk := rfl

theorem State.mss_newNonce : s.newNonce.mss = s.mss := rfl

/-- Boot begins from stage 0, with at most one record. -/
theorem State.bootStart_spec : s.bootStart.mss.hold = 0 ∧ s.bootStart.dbk.length ≤ s.dbk.length + 1 := by
  unfold State.bootStart
  dsimp only
  rw [State.dbk_newNonce, State.mss_newNonce]
  exact ⟨congrArg MssSt.hold (rim_mss (State.rim_emit ..)), State.length_dbk_emit ..⟩

theorem State.restart_spec (c : Nat) : (s.restart c).mss.hold = 0 ∧ (s.restart c).dbk.length ≤ s.dbk.length + 1 := by
  obtain ⟨hhold, hdbk⟩ := (s.resetSys c 0).bootStart_spec
  rw [State.dbk_resetSys] at hdbk
  exact ⟨hhold, hdbk⟩

/-- The sag is over, and VHOLD is charged again. -/
def State.sagOver (s : State) : State := { s.wr sagP SAG_STAT_STATE 0 with sag := { s.sag with charging := true } }

theorem State.sagOver_spec : s.sagOver.sagState = 0 ∧ s.sagOver.sag.charging = true ∧ s.sagOver.mss = s.mss ∧ s.sagOver.dbk = s.dbk := by
  refine ⟨?_, rfl, rfl, rfl⟩
  have hrd : s.sagOver.sagState = (s.wr sagP SAG_STAT_STATE 0).rd sagP SAG_STAT_STATE := rfl
  rw [hrd, State.rd_wr_self]
  rfl

variable {s}

theorem exec_sagRestart_not (h : s.sagState ≠ 2 ∨ (s.sag.cause = 2 ∧ s.cooled = false)) : exec .sagRestart s = .next s :=
  congrArg Host.Outcome.next (if_pos (h.imp id fun ⟨hc, hcool⟩ => by simp [hc, hcool]))

/-- The supply has settled, or the device has cooled. -/
def State.sagSettled (s : State) (wait : Nat) : State := (s.advanceRun (s.sag.ended + wait)).wr sagP SAG_STAT_STATE 3

theorem State.dbk_sagSettled (s : State) (wait : Nat) : (s.sagSettled wait).dbk = s.dbk :=
  s.advanceRun_leaves State.dbk (fun _ _ _ => rfl) _

theorem exec_sagRestart (h : s.sagState = 2) (hc : s.sag.cause ≠ 2 ∨ s.cooled = true) :
    ∃ wait c, exec .sagRestart s = .next ((s.sagSettled wait).restart c).sagOver := by
  refine ⟨_, _, congrArg Host.Outcome.next (if_neg ?_)⟩
  rintro (hn | ⟨h2, hcool⟩)
  · exact hn h
  · simp only [decide_eq_true_eq] at h2
    exact absurd (hc.resolve_left (not_not_intro h2)) (by simpa using hcool)

theorem sagRestart_boots (h : s.sagState = 2) (hc : s.sag.cause ≠ 2 ∨ s.cooled = true) : completes .sagRestart s fun t =>
    t.sagState = 0 ∧ t.sag.charging = true ∧ t.mss.hold = 0 ∧ t.dbk.length ≤ s.dbk.length + 1 := by
  obtain ⟨wait, c, hexec⟩ := exec_sagRestart h hc
  have hsettled := s.dbk_sagSettled wait
  generalize s.sagSettled wait = u at hexec hsettled
  obtain ⟨hhold, hdbk⟩ := u.restart_spec c
  generalize u.restart c = v at hexec hhold hdbk
  obtain ⟨hstate, hcharge, hmss, hdbk'⟩ := v.sagOver_spec
  refine completes_of hexec ⟨hstate, hcharge, (congrArg MssSt.hold hmss).trans hhold, ?_⟩
  rw [hdbk', ← hsettled]
  exact hdbk

theorem vholdCollapse_keeps (s : State) : completes .vholdCollapse s fun t =>
    t.mss.hold = 5 ∧ t.regs = State.reset.regs ∧ t.dbk = [] ∧ t.time = State.reset.time ∧ t.nvm = s.nvm ∧
      (s.upd.path = 0 → t.nor = s.nor) := by
  have hkeep : s.upd.path = 0 → s.updAbort.nor = s.nor := fun h => congrArg State.nor (if_pos h)
  exact completes_of rfl ⟨rfl, rfl, rfl, rfl, rfl, hkeep⟩

theorem exec_vholdChargeChange_not {mv : Nat} (h : s.mss.hold = 5 ∨ (4500 ≤ mv ∧ mv < 4750)) :
    exec (.vholdChargeChange mv) s = .next s := by
  show execVholdChargeChange mv s = _
  unfold execVholdChargeChange
  by_cases h5 : s.mss.hold = 5
  · rw [if_pos h5]
  · obtain ⟨hlow, hhigh⟩ := h.resolve_left h5
    rw [if_neg h5, if_neg (by omega), if_neg (by omega)]

theorem exec_vholdChargeChange {mv : Nat} (h5 : s.mss.hold ≠ 5) (h : 4750 ≤ mv ∨ mv < 4500) :
    exec (.vholdChargeChange mv) s = .next (s.wb sagP SAG_STAT_CHARGED (decide (4750 ≤ mv))) := by
  show execVholdChargeChange mv s = _
  unfold execVholdChargeChange
  rw [if_neg h5]
  by_cases hmv : 4750 ≤ mv
  · rw [if_pos hmv, decide_eq_true hmv]
  · rw [if_neg hmv, if_pos (h.resolve_left hmv), decide_eq_false hmv]

end

/-! ### Batches to the mirror (R405, R406, R408) -/

section
variable (s : State)

/-- Writing to the NVM changes the NVM alone. -/
theorem State.nvmOnly_trans {t u : State} (h : t = { s with nvm := t.nvm }) (h' : u = { t with nvm := u.nvm }) :
    u = { s with nvm := u.nvm } := by
  rw [h'.trans (congrArg (fun x : State => { x with nvm := u.nvm }) h)]

theorem State.mirrorWrite_only (a n : Nat) : s.mirrorWrite a n = { s with nvm := (s.mirrorWrite a n).nvm } := by
  induction n generalizing s a with
  | zero => rfl
  | succ n ih =>
    unfold State.mirrorWrite
    dsimp only
    split
    · exact State.nvmOnly_trans s (t := s.nvmPut _ _) rfl (ih _ _)
    · exact ih s _

theorem State.nvmPuts_only (l : List (Nat × Nat)) :
    l.foldl (fun s x => s.nvmPut x.1 [x.2]) s = { s with nvm := (l.foldl (fun s x => s.nvmPut x.1 [x.2]) s).nvm } := by
  induction l generalizing s with
  | nil => rfl
  | cons x l ih => exact State.nvmOnly_trans s (t := s.nvmPut x.1 [x.2]) rfl (ih _)

end

section
variable (s : State)

/-- What a batch leaves of the SAG page and of the sag's books. -/
def batchLeft (s t : State) (ok vcc : Bool) (mirrored : Nat) : Prop :=
  t.on sagP SAG_STAT_NVM_OK = ok ∧ (ok = false → t.nvm = s.nvm) ∧ t.sag.mirrored = mirrored ∧ t.sag.nvmVcc = vcc

theorem batchLeft_failed :
    batchLeft s ((((s.nvmPower true).nvmPower false).wb sagP SAG_STAT_NVM_OK false).emit sagP 0x1001 [0]) false false
      s.sag.mirrored := by
  obtain ⟨-, -, hok, hsag, -, hnvm⟩ := State.sagSaved_emit (((s.nvmPower true).nvmPower false).wb sagP SAG_STAT_NVM_OK false) 0x1001 [0]
  exact ⟨hok.trans (State.on_wb_false ..), fun _ => hnvm, (congrArg SagSt.mirrored hsag).trans rfl, congrArg SagSt.nvmVcc hsag⟩

theorem batchLeft_cut (l : List (Nat × Nat)) :
    batchLeft s (l.foldl (fun s x => s.nvmPut x.1 [x.2]) ((s.nvmPower true).wb sagP SAG_STAT_NVM_OK true)) true true
      s.sag.mirrored := by
  have h := State.nvmPuts_only ((s.nvmPower true).wb sagP SAG_STAT_NVM_OK true) l
  generalize l.foldl (fun s x => s.nvmPut x.1 [x.2]) ((s.nvmPower true).wb sagP SAG_STAT_NVM_OK true) = t at h
  rw [h]
  exact ⟨State.on_wb_true _ _ _ rfl, (nomatch ·), rfl, rfl⟩

theorem batchLeft_whole (a n spare k : Nat) (hdr : List Nat) (hk : s.sag.mirrored = k) (t : State) :
    batchLeft t (((((s.nvmPower true).mirrorWrite a n).nvmPut spare hdr).wb sagP SAG_STAT_NVM_OK true).nvmPower false) true false k := by
  have h := (s.nvmPower true).mirrorWrite_only a n
  generalize (s.nvmPower true).mirrorWrite a n = u at h
  rw [h]
  exact ⟨State.on_wb_true (State.nvmPut _ _ _) _ _ rfl, (nomatch ·), hk, rfl⟩

theorem batchLeft_misread (a n spare : Nat) (hdr : List Nat) :
    batchLeft s ((((((s.nvmPower true).mirrorWrite a n).nvmPut spare hdr).nvmPower false).wb sagP SAG_STAT_NVM_OK true).emit sagP
      0x1001 [1]) true false s.sag.mirrored := by
  have h := (s.nvmPower true).mirrorWrite_only a n
  generalize (s.nvmPower true).mirrorWrite a n = u at h
  obtain ⟨-, -, hok, hsag, -, -⟩ := State.sagSaved_emit (((u.nvmPut spare hdr).nvmPower false).wb sagP SAG_STAT_NVM_OK true) 0x1001 [1]
  have hu : u.sag = (s.nvmPower true).sag := by rw [h]
  exact ⟨hok.trans (State.on_wb_true _ _ _ rfl), (nomatch ·), (congrArg SagSt.mirrored hsag).trans ((congrArg SagSt.mirrored hu).trans rfl), congrArg SagSt.nvmVcc hsag⟩

end

section
variable {s : State} {ok : Bool} {b : BatchEnd}

theorem exec_mirrorBatch_not (h : s.mirrors = false) : exec (.mirrorBatch ok b) s = .next s :=
  congrArg Host.Outcome.next (if_pos (by simp [h]))

/-- DBK_WR, up to which a batch mirrors the records. -/
abbrev State.dbkWr (s : State) : Nat := s.rd (pg .dbk 0) DBK_WR_COUNT

theorem mirrored_mirrorMark {a w : Nat} (h : a < w) : (s.mirrorMark a (w - a)).sag.mirrored = w := by
  show a + (w - a) = w
  omega

/-- Whether the records of a batch count as saved. -/
def State.batchMirrored (s : State) (ok : Bool) (b : BatchEnd) : Nat :=
  if ok && decide (b = .whole true) then s.dbkWr else s.sag.mirrored

/-- Whether NVM_VCC stays on: a sag in the middle leaves it on (log 108). -/
def batchVcc (ok : Bool) : BatchEnd → Bool
  | .whole _ => false
  | .cut _ => ok

theorem mirrorBatch_leaves (hm : s.mirrors = true) (hw : s.unsavedFrom s.dbkWr < s.dbkWr) :
    ∃ t, exec (.mirrorBatch ok b) s = .next t ∧ batchLeft s t ok (batchVcc ok b) (s.batchMirrored ok b) := by
  have hgo : ¬ ((!s.mirrors) = true ∨ s.dbkWr ≤ s.unsavedFrom s.dbkWr) := by
    rw [hm]
    simpa using hw
  cases ok with
  | false =>
    refine ⟨_, congrArg Host.Outcome.next ((if_neg hgo).trans (if_pos rfl)), ?_⟩
    cases b <;> exact batchLeft_failed s
  | true =>
    cases b with
    | cut n => exact ⟨_, congrArg Host.Outcome.next ((if_neg hgo).trans (if_neg (by decide))), batchLeft_cut s _⟩
    | whole good =>
      cases good with
      | true =>
        exact ⟨_, congrArg Host.Outcome.next ((if_neg hgo).trans (if_neg (by decide))),
          batchLeft_whole _ _ _ _ _ _ (mirrored_mirrorMark hw) s⟩
      | false =>
        exact ⟨_, congrArg Host.Outcome.next ((if_neg hgo).trans (if_neg (by decide))), batchLeft_misread s _ _ _ _⟩

end

/-- Settles O53: the sag from its detection to the restart, VHOLD and the mirror. A save that fails or comes late writes nothing
to the NVM (log 107), and a batch that a sag cuts off leaves NVM_VCC on (log 108). -/
theorem sagDetectToRestart : Obligations.SagDetectToRestart := by
  unfold Obligations.SagDetectToRestart
  refine fun s => ⟨fun r => exec_sagDetect_held, fun r => exec_sagDetect_again, fun r h1 h5 hs hw => ?_, exec_sagTail_not,
    sagTail_clears, fun us r => exec_saveDone_not, fun us r => saveDone_ends, exec_sagRestart_not, sagRestart_boots,
    vholdCollapse_keeps s, fun mv => exec_vholdChargeChange_not, fun mv h5 h => ?_, fun a b => exec_mirrorBatch_not,
    fun a b hm hw => ?_⟩
  · exact sagDetect_detects h1 h5 hs (by cases r <;> exact hw)
  · exact completes_of (exec_vholdChargeChange h5 h) ⟨State.on_wb_self rfl _, onlyRegs_wb List.mem_cons_self onlyRegs_refl⟩
  · obtain ⟨t, hexec, hok, hnvm, hmir, hvcc⟩ := mirrorBatch_leaves (ok := a) (b := b) hm hw
    refine completes_of hexec ⟨hok, hnvm, hmir, hvcc.trans ?_⟩
    cases b <;> rfl

end Sys2Proof.Machine
end

section
/-! PROOFS. Firmware updates: requests and replies, a session's life and the bytes of the NOR (R423 to R430). -/

set_option autoImplicit false

namespace Sys2Proof.Machine

/-! ### What a datagram on the Ethernet ports writes (R176, R180, R311) -/

section
variable (s : State)

theorem txKeys_frames {n : Nat} (h : n ∈ upTo 18) : fkey (pg .net n) NET_TX_FRAMES_COUNT ∈ s.txKeys :=
  List.mem_flatMap.2 ⟨n, h, List.mem_cons_self⟩

theorem txKeys_drop {n : Nat} (h : n ∈ upTo 18) : fkey (pg .ln (s.netLane n)) LN_TX_DROP_COUNT ∈ s.txKeys :=
  List.mem_flatMap.2 ⟨n, h, List.mem_cons_of_mem _ List.mem_cons_self⟩

theorem onlyRegs.netLane {l : List Nat} {t : State} (h : onlyRegs l s t) (n : Nat) : t.netLane n = s.netLane n := by
  rw [h.1]
  rfl

/-- A port that discards a frame counts it on its lane. -/
theorem onlyRegs_netDrop {t : State} {n : Nat} (hn : n ∈ upTo 18) (h : onlyRegs s.txKeys s t) : onlyRegs s.txKeys s (t.netDrop n) := by
  unfold State.netDrop
  split
  · exact onlyRegs_cnt (by rw [h.netLane]; exact txKeys_drop s hn) h
  · exact h

theorem onlyRegs_out {l : List Nat} {o : List Out} {t : State} (h : onlyRegs l { s with out := o } t) :
    onlyRegs l { s with out := t.out } t := by
  have ho : t.out = o := by rw [h.1]
  rw [ho]
  exact h

/-- Of the state with another list of emissions. -/
theorem State.txKeys_out (o : List Out) : State.txKeys { s with out := o } = s.txKeys := rfl

/-- Port `n` sends a datagram, of the ports `up` that can, or discards it, of the ports `nets` that should. -/
def State.portCount (up nets : Nat) (s : State) (n : Nat) : State :=
  if bit up n then s.cnt (pg .net n) NET_TX_FRAMES_COUNT 1 else if bit nets n then s.netDrop n else s

theorem onlyRegs_portCount {t : State} (up nets : Nat) {n : Nat} (hn : n ∈ upTo 18) (h : onlyRegs s.txKeys s t) :
    onlyRegs s.txKeys s (t.portCount up nets n) := by
  unfold State.portCount
  split
  · exact onlyRegs_cnt (txKeys_frames s hn) h
  · split
    · exact onlyRegs_netDrop s hn h
    · exact h

theorem State.netDatagram_eq (nets : Nat) (dest : Dest) (bytes : List Nat) : s.netDatagram nets dest bytes =
    (upTo 18).foldl (State.portCount (s.netsUp nets) nets)
      (if s.netsUp nets = 0 then s else s.emitOut (.datagram (s.netsUp nets) dest bytes)) := rfl

theorem onlyRegs_portCounts (up nets : Nat) : onlyRegs s.txKeys s ((upTo 18).foldl (State.portCount up nets) s) :=
  onlyRegs_foldl (fun _ _ hn h => onlyRegs_portCount s up nets hn h) onlyRegs_refl

theorem onlyRegs_netDatagram (nets : Nat) (dest : Dest) (bytes : List Nat) :
    onlyRegs s.txKeys { s with out := (s.netDatagram nets dest bytes).out } (s.netDatagram nets dest bytes) := by
  rw [State.netDatagram_eq]
  split
  · exact onlyRegs_out s (o := s.out) (onlyRegs_portCounts s _ _)
  · exact onlyRegs_out s (o := s.out ++ _) (onlyRegs_portCounts (s.emitOut _) _ _)

end

/-! ### Replies and refusals (R429, R430) -/

section
variable (s : State) (r : UpdReq) (typ c : Nat) (data : List Nat)

theorem onlyRegs_updReply : onlyRegs s.txKeys { s with out := (s.updReply r typ c data).out } (s.updReply r typ c data) := by
  unfold State.updReply
  dsimp only
  split
  · exact onlyRegs_netDatagram s _ _ _
  · exact onlyRegs_refl
  · exact onlyRegs_refl

theorem State.updReply_register (h : r.path.val = 1) : s.updReply r typ c data = s := by
  unfold State.updReply
  dsimp only
  split
  next h2 => omega
  next h3 => omega
  next => rfl

@[simp] theorem State.rim_setOut (o : List Out) : State.rim { s with out := o } = s.rim := rfl

@[simp] theorem State.rim_updReply : (s.updReply r typ c data).rim = s.rim := (onlyRegs_updReply s r typ c data).rim

theorem notMem_txKeys {k : Nat} (h : k < 32 * 0x3F000) : k ∉ s.txKeys := by
  simp only [State.txKeys, List.mem_flatMap, List.mem_cons, List.not_mem_nil, or_false, not_exists, not_and]
  simp only [fkey, pg_net, pg_ln]
  omega

/-- A reply leaves the UPD page. -/
theorem State.rd_updReply {p : Nat} {f : Fld} (h : fkey p f < 32 * 0x3F000) : (s.updReply r typ c data).rd p f = s.rd p f :=
  State.rd_congr ((onlyRegs_updReply s r typ c data).2 _ (notMem_txKeys s h))

theorem State.on_updReply {p : Nat} {f : Fld} (h : fkey p f < 32 * 0x3F000) : (s.updReply r typ c data).on p f = s.on p f := by
  rw [State.on_eq, State.on_eq, State.rd_updReply s r typ c data h]

end

/-! ### Bytes of the NOR -/

section
variable {s : State} {m : Mem}

theorem Mem.readD_keep {d : Byte} {p : Nat → Bool} {a : Nat} (h : p a = true) : Mem.readD d (Store.keep p m) a = Mem.readD d m a := by
  simp only [Mem.readD, Store.getD, Store.find_keep h]

theorem Mem.readD_keep_dropped {d : Byte} {p : Nat → Bool} {a : Nat} (h : p a = false) : Mem.readD d (Store.keep p m) a = d := by
  simp only [Mem.readD, Store.getD, Store.find_keep_dropped h, Option.getD_none]

/-- An erased byte reads 0xFF, any other as before. -/
theorem readD_norErase (a b k : Nat) :
    Mem.readD 0xFF (s.norErase a b).nor k = if a ≤ k ∧ k < b then 0xFF else Mem.readD 0xFF s.nor k := by
  have hnor : (s.norErase a b).nor = Store.keep (fun k => decide (k < a) || decide (b ≤ k)) s.nor := rfl
  rw [hnor]
  split
  · exact Mem.readD_keep_dropped (by simp; omega)
  · exact Mem.readD_keep (by simp; omega)

/-- Bytes written one after another from `a` on. -/
def norBytesPut (m : Mem) (a : Nat) (l : List (Nat × Nat)) : Mem :=
  l.foldl (fun m x => Mem.writeD 0xFF m (a + x.2) (BitVec.ofNat 8 x.1)) m

theorem readD_norBytesPut_notMem {a k : Nat} {l : List (Nat × Nat)} (h : ∀ x ∈ l, a + x.2 ≠ k) :
    Mem.readD 0xFF (norBytesPut m a l) k = Mem.readD 0xFF m k := by
  induction l generalizing m with
  | nil => rfl
  | cons x l ih =>
    obtain ⟨hx, hl⟩ := List.forall_mem_cons.1 h
    exact (ih hl).trans (Store.getD_setD_ne hx.symm _ _ _ _)

theorem readD_norBytesPut {a i n : Nat} {l : List Nat} (h : i < l.length) :
    Mem.readD 0xFF (norBytesPut m a (l.zipIdx n)) (a + n + i) = BitVec.ofNat 8 (l.getD i 0) := by
  induction l generalizing m n i with
  | nil => exact absurd h (Nat.not_lt_zero _)
  | cons x l ih =>
    rw [List.zipIdx_cons]
    cases i with
    | zero =>
      have hlater : ∀ y ∈ l.zipIdx (n + 1), a + y.2 ≠ a + n + 0 := fun y hy => by
        have hlow := List.le_snd_of_mem_zipIdx hy
        omega
      exact (readD_norBytesPut_notMem hlater).trans (Store.getD_setD_self ..)
    | succ i =>
      have hnext : a + n + (i + 1) = a + (n + 1) + i := by omega
      rw [hnext]
      exact ih (Nat.lt_of_succ_lt_succ h)

theorem readD_norPut {a i : Nat} {l : List Nat} (h : i < l.length) :
    Mem.readD 0xFF (s.norPut a l).nor (a + i) = BitVec.ofNat 8 (l.getD i 0) :=
  readD_norBytesPut (m := s.nor) (n := 0) h

theorem readD_norPut_out {a k : Nat} {l : List Nat} (h : k < a ∨ a + l.length ≤ k) :
    Mem.readD 0xFF (s.norPut a l).nor k = Mem.readD 0xFF s.nor k := by
  refine readD_norBytesPut_notMem (m := s.nor) fun x hx => ?_
  have hhigh := List.snd_lt_of_mem_zipIdx hx
  omega

end

/-! ### A session's messages (R427 to R429) -/

section
variable (s : State) (r : UpdReq)

/-- The registers of a session that opens. -/
def State.openShown (s : State) (r : UpdReq) : State :=
  ((((s.norErase 0x2000000 0x4000000).wb updP UPD_STAGED_VALID false).wr updP UPD_STATE_STATE 1).wr updP UPD_STATE_PATH r.path.val).wr
    updP UPD_RECEIVED_GRANULES 0

/-- A session of `len` bytes has opened. -/
def State.sessionOpened (s : State) (r : UpdReq) (len : Nat) : State :=
  { s.openShown r with upd := { (s.openShown r).upd with path := r.path.val, length := len, got := [], writing := [], replies := [] } }

theorem State.openShown_spec : (s.openShown r).updState = 1 ∧ (s.openShown r).on updP UPD_STAGED_VALID = false := by
  unfold State.openShown
  constructor
  · rw [State.updState, State.rd_wr_key (by decide), State.rd_wr_key (by decide), State.rd_wr_self]
    rfl
  · rw [State.on_eq, State.rd_wr_key (by decide), State.rd_wr_key (by decide), State.rd_wr_key (by decide), ← State.on_eq]
    exact State.on_wb_false ..

theorem State.sessionOpened_spec (len : Nat) : (s.sessionOpened r len).updState = 1 ∧ (s.sessionOpened r len).upd.path = r.path.val ∧
    (s.sessionOpened r len).upd.length = len ∧ (s.sessionOpened r len).upd.got = [] ∧ (s.sessionOpened r len).on updP UPD_STAGED_VALID = false ∧
    (s.sessionOpened r len).nor = (s.norErase 0x2000000 0x4000000).nor :=
  ⟨(s.openShown_spec r).1, rfl, rfl, rfl, (s.openShown_spec r).2, rfl⟩

variable {s r}

theorem exec_updateOpen_unheard (h : s.updHeard 1 r = false) : exec (.updateOpen r) s = .next s :=
  congrArg Host.Outcome.next (if_pos (by simp [h]))

theorem exec_updateOpen_refused (h : s.updHeard 1 r = true) {c : Nat} (hc : s.openCode r = some c) :
    exec (.updateOpen r) s = .next (s.updRefuse r 1 c) := by
  show execUpdateOpen r s = _
  unfold execUpdateOpen
  rw [if_neg (by simp [h]), hc]

theorem exec_updateOpen (h : s.updHeard 1 r = true) (hc : s.openCode r = none) :
    exec (.updateOpen r) s = .next ((s.sessionOpened r (s.openLength r)).updReply r 1 0 []) := by
  show execUpdateOpen r s = _
  unfold execUpdateOpen
  rw [if_neg (by simp [h]), hc]
  rfl

theorem updateOpen_opens (h : s.updHeard 1 r = true) (hc : s.openCode r = none) : completes (.updateOpen r) s fun t =>
    t.updState = 1 ∧ t.upd.path = r.path.val ∧ t.upd.length = s.openLength r ∧ t.upd.got = [] ∧
    t.on updP UPD_STAGED_VALID = false ∧
    ∀ a, Mem.readD 0xFF t.nor a = if 0x2000000 ≤ a ∧ a < 0x4000000 then 0xFF else Mem.readD 0xFF s.nor a := by
  have hexec := exec_updateOpen h hc
  obtain ⟨hstate, hpath, hlen, hgot, hvalid, hnor⟩ := s.sessionOpened_spec r (s.openLength r)
  generalize s.sessionOpened r (s.openLength r) = u at hexec hstate hpath hlen hgot hvalid hnor
  have hrim := u.rim_updReply r 1 0 []
  have hupd := rim_upd hrim
  refine completes_of hexec ⟨(State.rd_updReply u r 1 0 [] (by decide)).trans hstate, ?_, ?_, ?_,
    (State.on_updReply u r 1 0 [] (by decide)).trans hvalid, fun a => ?_⟩
  · exact (congrArg UpdSt.path hupd).trans hpath
  · exact (congrArg UpdSt.length hupd).trans hlen
  · exact (congrArg UpdSt.got hupd).trans hgot
  · rw [rim_nor hrim, hnor]
    exact readD_norErase ..

theorem exec_updateBlock_unheard (h : s.updHeard 2 r = false) : exec (.updateBlock r) s = .next s :=
  congrArg Host.Outcome.next (if_pos (by simp [h]))

theorem exec_updateBlock_again (h : s.updHeard 2 r = true) {c : Nat} (hc : s.firstReply r = some c) :
    exec (.updateBlock r) s = .next (s.updReply r 2 c []) := by
  show execUpdateBlock r s = _
  unfold execUpdateBlock
  rw [if_neg (by simp [h]), hc]

theorem exec_updateBlock (h : s.updHeard 2 r = true) (hf : s.firstReply r = none) :
    exec (.updateBlock r) s = .next (s.blockTake r) := by
  show execUpdateBlock r s = _
  unfold execUpdateBlock
  rw [if_neg (by simp [h]), hf]

theorem State.blockTake_refused {c : Nat} (hc : s.blockCode r = some c) : s.blockTake r = (s.updRefuse r 2 c).keepReply r c := by
  unfold State.blockTake
  rw [hc]

/-- A block is on its way to the NOR. -/
def State.blockQueued (s : State) (x : Nat × List Nat) : State :=
  ({ s with upd := { s.upd with writing := s.upd.writing ++ [x] } }).wb updP UPD_BLOCK_BUSY true

theorem State.blockTake_new (hc : s.blockCode r = none) (hg : s.granule (s.blockOf r).1 (s.blockOf r).2.length = none) :
    s.blockTake r = ((s.blockQueued (s.blockOf r)).updReply r 2 0 []).keepReply r 0 := by
  unfold State.blockTake
  rw [hc]
  dsimp only
  rw [hg]
  rfl

theorem State.keepReply_spec (u : State) (c : Nat) : (u.keepReply r c).upd.writing = u.upd.writing ∧
    (u.keepReply r c).regs = u.regs ∧ (u.keepReply r c).nor = u.nor := by
  unfold State.keepReply
  split <;> exact ⟨rfl, rfl, rfl⟩

theorem updateBlock_queues (h : s.updHeard 2 r = true) (hf : s.firstReply r = none) (hc : s.blockCode r = none)
    (hg : s.granule (s.blockOf r).1 (s.blockOf r).2.length = none) : completes (.updateBlock r) s fun t =>
    t.upd.writing = s.upd.writing ++ [s.blockOf r] ∧ t.on updP UPD_BLOCK_BUSY = true ∧ t.nor = s.nor := by
  have hexec := exec_updateBlock h hf
  rw [State.blockTake_new hc hg] at hexec
  have hwriting : (s.blockQueued (s.blockOf r)).upd.writing = s.upd.writing ++ [s.blockOf r] := rfl
  have hbusy : (s.blockQueued (s.blockOf r)).on updP UPD_BLOCK_BUSY = true := State.on_wb_true _ _ _ rfl
  have hnor : (s.blockQueued (s.blockOf r)).nor = s.nor := rfl
  generalize s.blockQueued (s.blockOf r) = u at hexec hwriting hbusy hnor
  obtain ⟨kwriting, kregs, knor⟩ := State.keepReply_spec (r := r) (u.updReply r 2 0 []) 0
  have hrim := u.rim_updReply r 2 0 []
  refine completes_of hexec ⟨kwriting.trans ((congrArg UpdSt.writing (rim_upd hrim)).trans hwriting), ?_,
    knor.trans ((rim_nor hrim).trans hnor)⟩
  rw [State.on_eq, State.rd_congr (congrArg _ kregs), ← State.on_eq, State.on_updReply u r 2 0 [] (by decide)]
  exact hbusy

theorem exec_updateClose_unheard (h : s.updHeard 3 r = false) : exec (.updateClose r) s = .next s :=
  congrArg Host.Outcome.next (if_pos (by simp [h]))

theorem exec_updateClose_refused (h : s.updHeard 3 r = true) {c : Nat} (hc : s.closeCode r = some c) :
    exec (.updateClose r) s = .next (s.updRefuse r 3 c) := by
  show execUpdateClose r s = _
  unfold execUpdateClose
  rw [if_neg (by simp [h]), hc]

theorem exec_updateClose (h : s.updHeard 3 r = true) (hc : s.closeCode r = none) :
    exec (.updateClose r) s = .next ((s.wr updP UPD_STATE_STATE 3).updReply r 3 0 []) := by
  show execUpdateClose r s = _
  unfold execUpdateClose
  rw [if_neg (by simp [h]), hc]

theorem onlyRegs_mono {l l' : List Nat} {s t : State} (hl : ∀ k ∈ l, k ∈ l') (h : onlyRegs l s t) : onlyRegs l' s t :=
  ⟨h.1, fun k hk => h.2 k fun hm => hk (hl k hm)⟩

/-- A field written, and a reply after it. -/
theorem onlyRegs_wr_updReply (f : Fld) (v typ c : Nat) (data : List Nat) :
    onlyRegs (fkey updP f :: s.txKeys) { s with out := ((s.wr updP f v).updReply r typ c data).out }
      ((s.wr updP f v).updReply r typ c data) := by
  obtain ⟨heq, hkeys⟩ := onlyRegs_updReply (s.wr updP f v) r typ c data
  refine ⟨heq, fun k hk => ?_⟩
  rw [List.mem_cons, not_or] at hk
  exact (hkeys k hk.2).trans (State.find_wr hk.1)

theorem updateClose_closes (h : s.updHeard 3 r = true) (hc : s.closeCode r = none) : completes (.updateClose r) s fun t =>
    t.updState = 3 ∧ onlyRegs (fkey updP UPD_STATE_STATE :: s.txKeys) { s with out := t.out } t := by
  refine completes_of (exec_updateClose h hc) ⟨?_, onlyRegs_wr_updReply ..⟩
  exact (State.rd_updReply _ r 3 0 [] (by decide)).trans (State.rd_wr_self ..)

theorem exec_updateAbort_unheard (h : s.updHeard 5 r = false) : exec (.updateAbort r) s = .next s :=
  congrArg Host.Outcome.next (if_pos (by simp [h]))

theorem exec_updateAbort_refused (h : s.updHeard 5 r = true) (hp : s.upd.path ≠ 0) (hr : s.upd.path ≠ r.path.val) :
    exec (.updateAbort r) s = .next (s.updRefuse r 5 1) :=
  congrArg Host.Outcome.next ((if_neg (by simp [h])).trans (if_pos ⟨hp, hr⟩))

theorem State.path_updAbort : s.updAbort.upd.path = 0 := by
  unfold State.updAbort
  split
  next h => exact h
  next => rfl

theorem updateAbort_ends (h : s.updHeard 5 r = true) (hp : s.upd.path = 0 ∨ s.upd.path = r.path.val) :
    completes (.updateAbort r) s fun t => t.upd.path = 0 := by
  have hexec : exec (.updateAbort r) s = .next (s.updAbort.updReply r 5 0 []) :=
    congrArg Host.Outcome.next ((if_neg (by simp [h])).trans (if_neg fun hn => hp.elim hn.1 hn.2))
  exact completes_of hexec ((congrArg UpdSt.path (rim_upd (State.rim_updReply ..))).trans State.path_updAbort)

theorem exec_updateStatus_unheard (h : s.updHeard 6 r = false) : exec (.updateStatus r) s = .next s :=
  congrArg Host.Outcome.next (if_neg (by simp [h]))

theorem updateStatus_answers (h : s.updHeard 6 r = true) : completes (.updateStatus r) s fun t =>
    onlyRegs s.txKeys { s with out := t.out } t ∧ (r.path.val = 1 → t = s) :=
  completes_of (congrArg Host.Outcome.next (if_pos h)) ⟨onlyRegs_updReply .., State.updReply_register s r 6 0 _⟩

end

/-! ### What the NOR completes (R423, R427, R428) -/

section
variable {s : State} {ok : Bool}

theorem slotEraseDone_fills (h : s.updState = 1) : completes .slotEraseDone s fun t =>
    t.updState = 2 ∧ onlyRegs [fkey updP UPD_STATE_STATE] s t :=
  completes_of (congrArg Host.Outcome.next (if_pos h)) ⟨State.rd_wr_self .., onlyRegs_wr List.mem_cons_self onlyRegs_refl⟩

theorem exec_slotEraseDone_not (h : s.updState ≠ 1) : exec .slotEraseDone s = .next s := congrArg Host.Outcome.next (if_neg h)

theorem exec_blockWriteDone_none (h : s.upd.writing = []) : exec .blockWriteDone s = .next s := by
  show execBlockWriteDone s = _
  unfold execBlockWriteDone
  rw [h]

/-- A block's bytes are in the NOR, and the blocks `l` wait. -/
def State.blockWritten (s : State) (x : Nat × List Nat) (l : List (Nat × List Nat)) : State :=
  { s.norPut (0x2000000 + x.1) x.2 with upd := { s.upd with writing := l, got := s.upd.got ++ [x.1 / 1024] } }

/-- What the registers show of it. -/
def State.blocksShown (s : State) : State :=
  (s.wr updP UPD_RECEIVED_GRANULES s.upd.got.length).wb updP UPD_BLOCK_BUSY (!s.upd.writing.isEmpty)

theorem exec_blockWriteDone {x : Nat × List Nat} {l : List (Nat × List Nat)} (h : s.upd.writing = x :: l) :
    exec .blockWriteDone s = .next (s.blockWritten x l).blocksShown := by
  show execBlockWriteDone s = _
  unfold execBlockWriteDone
  rw [h]
  rfl

theorem blockWriteDone_writes {x : Nat × List Nat} {l : List (Nat × List Nat)} (h : s.upd.writing = x :: l) :
    completes .blockWriteDone s fun t =>
      t.upd.writing = l ∧ t.upd.got = s.upd.got ++ [x.1 / 1024] ∧ t.on updP UPD_BLOCK_BUSY = !l.isEmpty ∧
      (∀ i, i < x.2.length → Mem.readD 0xFF t.nor (0x2000000 + x.1 + i) = BitVec.ofNat 8 (x.2.getD i 0)) ∧
      ∀ a, (a < 0x2000000 + x.1 ∨ 0x2000000 + x.1 + x.2.length ≤ a) → Mem.readD 0xFF t.nor a = Mem.readD 0xFF s.nor a := by
  have hnor : (s.blockWritten x l).blocksShown.nor = (s.norPut (0x2000000 + x.1) x.2).nor := rfl
  refine completes_of (exec_blockWriteDone h) ⟨rfl, rfl, State.on_wb_self rfl _, fun i hi => ?_, fun a ha => ?_⟩
  · rw [hnor]
    exact readD_norPut hi
  · rw [hnor]
    exact readD_norPut_out ha

theorem exec_verifyDone_not (h : s.updState ≠ 3) : exec (.verifyDone ok) s = .next s := congrArg Host.Outcome.next (if_pos h)

/-- The code and the component type with which the package in slot B fails, if it does. -/
def State.verifyBad (s : State) (ok : Bool) : Option (Nat × Nat) :=
  match s.pkgCode (slotBase true) with
  | some c => if 20 < c.1 ∧ s.norLE (slotBase true + 8) 4 ≠ s.upd.length then some (20, 0) else some c
  | none => if s.norLE (slotBase true + 8) 4 ≠ s.upd.length then some (20, 0) else if ok then none else some (23, 0)

/-- The package in slot B has failed. -/
def State.verifyFailed (s : State) (c t : Nat) : State := ((s.updOver 0).wr updP UPD_STATE_CODE c).emit updP 0x0802 [c, t]

/-- The package of version `v` is staged. -/
def State.verifyStaged (s : State) (v : Nat) : State :=
  (((s.updOver 4).wr updP UPD_STAGED_VERSION v).wb updP UPD_STAGED_VALID true).emit updP 0x0801 (le v 2)

theorem exec_verifyDone (h : s.updState = 3) : exec (.verifyDone ok) s = .next (match s.verifyBad ok with
    | some (c, t) => s.verifyFailed c t
    | none => s.verifyStaged (s.norLE (slotBase true + 0xC) 2)) :=
  congrArg Host.Outcome.next (if_neg (not_not_intro h))

theorem State.updOver_spec (s : State) (st : Nat) : (s.updOver st).updState = st % 16 ∧ (s.updOver st).upd.path = 0 ∧
    (s.updOver st).nor = s.nor := by
  have hstate : (s.updOver st).updState = ((s.wr updP UPD_STATE_STATE st).wr updP UPD_STATE_PATH 0).updState := rfl
  refine ⟨?_, rfl, rfl⟩
  rw [hstate, State.updState, State.rd_wr_key (by decide), State.rd_wr_self]
  rfl

/-- A record of the UPD page leaves its other fields, the session and the NOR. -/
theorem State.upd_emit (u : State) (code : Nat) (data : List Nat) : (u.emit updP code data).updState = u.updState ∧
    (u.emit updP code data).on updP UPD_STAGED_VALID = u.on updP UPD_STAGED_VALID ∧
    (u.emit updP code data).upd = u.upd ∧ (u.emit updP code data).nor = u.nor := by
  have hpage : isPage updP := isPage_pg .upd 0
  have hown : ownPage updP := ownPage_of (by decide)
  exact ⟨State.rd_emit_page hpage hown rfl, State.on_emit_page hpage hown rfl, rim_upd (State.rim_emit ..), rim_nor (State.rim_emit ..)⟩

theorem State.verifyFailed_spec (s : State) (c t : Nat) : (s.verifyFailed c t).upd.path = 0 ∧ (s.verifyFailed c t).updState = 0 ∧
    (s.verifyFailed c t).nor = s.nor := by
  obtain ⟨hstate, hpath, hnor⟩ := s.updOver_spec 0
  have hcode : ((s.updOver 0).wr updP UPD_STATE_CODE c).updState = (s.updOver 0).updState := State.rd_wr_key (by decide)
  obtain ⟨estate, -, eupd, enor⟩ := State.upd_emit ((s.updOver 0).wr updP UPD_STATE_CODE c) 0x0802 [c, t]
  exact ⟨(congrArg UpdSt.path eupd).trans hpath, estate.trans (hcode.trans hstate), enor.trans hnor⟩

theorem State.verifyStaged_spec (s : State) (v : Nat) : (s.verifyStaged v).upd.path = 0 ∧ (s.verifyStaged v).updState = 4 ∧
    (s.verifyStaged v).on updP UPD_STAGED_VALID = true ∧ (s.verifyStaged v).nor = s.nor := by
  obtain ⟨hstate, hpath, hnor⟩ := s.updOver_spec 4
  have hshown : (((s.updOver 4).wr updP UPD_STAGED_VERSION v).wb updP UPD_STAGED_VALID true).updState = (s.updOver 4).updState := by
    rw [State.updState, State.wb_eq, State.rd_wr_key (by decide), State.rd_wr_key (by decide)]
    rfl
  obtain ⟨estate, evalid, eupd, enor⟩ := State.upd_emit
    (((s.updOver 4).wr updP UPD_STAGED_VERSION v).wb updP UPD_STAGED_VALID true) 0x0801 (le v 2)
  exact ⟨(congrArg UpdSt.path eupd).trans hpath, estate.trans (hshown.trans hstate), evalid.trans (State.on_wb_true _ _ _ rfl),
    enor.trans hnor⟩

theorem verifyDone_ends (h : s.updState = 3) : completes (.verifyDone ok) s fun t =>
    t.upd.path = 0 ∧ (t.updState = 0 ∨ t.updState = 4 ∧ t.on updP UPD_STAGED_VALID = true) ∧ t.nor = s.nor := by
  have hexec := exec_verifyDone (ok := ok) h
  cases hbad : s.verifyBad ok with
  | some x =>
    rw [hbad] at hexec
    obtain ⟨hpath, hstate, hnor⟩ := s.verifyFailed_spec x.1 x.2
    exact completes_of hexec ⟨hpath, .inl hstate, hnor⟩
  | none =>
    rw [hbad] at hexec
    obtain ⟨hpath, hstate, hvalid, hnor⟩ := s.verifyStaged_spec (s.norLE (slotBase true + 0xC) 2)
    exact completes_of hexec ⟨hpath, .inr ⟨hstate, hvalid⟩, hnor⟩

end

/-- Settles O55: a session's messages and what the NOR completes. Of a request that has not the form of a message, or does not come
as it must, nothing is heard, and a message with the same bytes by the same path is a repeat (log 165); an OPEN erases the NOR's
bytes at once (log 113), and the codes of a refusal are judged in the order of R430 (log 112). -/
theorem updateSession : Obligations.UpdateSession := by
  unfold Obligations.UpdateSession
  exact fun r s => ⟨exec_updateOpen_unheard, exec_updateBlock_unheard, exec_updateClose_unheard, exec_updateAbort_unheard,
    exec_updateStatus_unheard, fun h => ⟨fun c => exec_updateOpen_refused h, updateOpen_opens h⟩,
    fun h => ⟨fun c => exec_updateBlock_again h,
      fun c hf hc => (exec_updateBlock h hf).trans (congrArg Host.Outcome.next (State.blockTake_refused hc)), updateBlock_queues h⟩,
    fun h => ⟨updateClose_closes h, fun c => exec_updateClose_refused h⟩,
    fun h => ⟨updateAbort_ends h, exec_updateAbort_refused h⟩, updateStatus_answers, slotEraseDone_fills, exec_slotEraseDone_not,
    exec_blockWriteDone_none, fun x l => blockWriteDone_writes, fun ok => exec_verifyDone_not, fun ok => verifyDone_ends⟩

end Sys2Proof.Machine
end

section
/-! PROOFS. Putting an update into force: activation, recovery, the copy of a slot, and the hot handover (R426, R431 to R435). -/

set_option autoImplicit false

namespace Sys2Proof.Machine

/-! ### Activation (R430, R431) -/

section
variable {r : UpdReq} {s : State} {ok : Bool}

theorem exec_updateActivate_unheard (h : s.updHeard 4 r = false) : exec (.updateActivate r ok) s = .next s :=
  congrArg Host.Outcome.next (if_pos (by simp [h]))

theorem exec_updateActivate_refused {c : Nat} (h : s.updHeard 4 r = true) (hc : s.activateCode = some c) :
    exec (.updateActivate r ok) s = .next (s.updRefuse r 4 c) := by
  show execUpdateActivate r ok s = _
  unfold execUpdateActivate
  rw [if_neg (by simp [h]), hc]

theorem exec_updateActivate_misread (h : s.updHeard 4 r = true) (hc : s.activateCode = none) :
    exec (.updateActivate r false) s = .next (s.updRefuse r 4 23) := by
  show execUpdateActivate r false s = _
  unfold execUpdateActivate
  rw [if_neg (by simp [h]), hc]
  rfl

/-- The activation marker stands, and UPD_STATE shows it. -/
def State.marked (s : State) : State :=
  ((s.norErase 0x3FFF000 0x4000000).norPut 0x3FFF000 s.markerBytes).wr updP UPD_STATE_STATE 5

/-- The claim has fallen, with a record of the activation. -/
def State.activated (s : State) : State :=
  (s.marked.claimSet 0 0).emit updP 0x1001 (le (s.marked.rd updP UPD_STAGED_VERSION) 2)

/-- GRACE runs from now on. -/
def State.graceFrom (s : State) : State := { s with upd := { s.upd with grace := some s.time.run } }

theorem exec_updateActivate (h : s.updHeard 4 r = true) (hc : s.activateCode = none) :
    exec (.updateActivate r true) s = .next (s.activated.graceFrom.updReply r 4 0 []) := by
  show execUpdateActivate r true s = _
  unfold execUpdateActivate
  rw [if_neg (by simp [h]), hc]
  rfl

theorem State.graceFrom_spec (u : State) : u.graceFrom.claim = u.claim ∧ u.graceFrom.updState = u.updState ∧
    u.graceFrom.upd.grace = some u.time.run := ⟨rfl, rfl, rfl⟩

theorem State.marked_spec (u : State) : u.marked.updState = 5 ∧ u.marked.time = u.time := ⟨State.rd_wr_self .., rfl⟩

theorem State.updState_claimSet (u : State) (new cause : Nat) : (u.claimSet new cause).updState = u.updState := by
  refine (wrote_claimSet u new cause).rd ?_
  rintro (h | h)
  · exact not_teamKey_low (ownPage_of (by decide)) rfl (by decide) (by decide) h
  · exact absurd h (by decide)

theorem State.activated_spec (u : State) : u.activated.claim = 0 ∧ u.activated.updState = 5 ∧ u.activated.time.run = u.time.run := by
  obtain ⟨hstate, htime⟩ := u.marked_spec
  have hclaim : (u.marked.claimSet 0 0).claim = 0 := claim_claimSet _ 0 (by decide)
  have hkept := u.marked.updState_claimSet 0 0
  have hrun : (u.marked.claimSet 0 0).time.run = u.marked.time.run := rim_run (State.rim_claimSet ..)
  unfold State.activated
  generalize u.marked.claimSet 0 0 = v at hclaim hkept hrun
  refine ⟨?_, (State.upd_emit v _ _).1.trans (hkept.trans hstate), (rim_run (State.rim_emit ..)).trans (hrun.trans (congrArg TimeSt.run htime))⟩
  exact (State.rd_emit_page (isPage_pg .upd 0) (ownPage_of (by decide)) rfl).trans hclaim

theorem updateActivate_lowers (h : s.updHeard 4 r = true) (hc : s.activateCode = none) : completes (.updateActivate r true) s fun t =>
    t.claim = 0 ∧ t.updState = 5 ∧ t.upd.grace = some s.time.run := by
  have hexec := exec_updateActivate h hc
  obtain ⟨hclaim, hstate, hrun⟩ := s.activated_spec
  generalize s.activated = u at hexec hclaim hstate hrun
  obtain ⟨gclaim, gstate, ggrace⟩ := u.graceFrom_spec
  refine completes_of hexec ⟨?_, ?_, ?_⟩
  · exact (State.rd_updReply _ r 4 0 [] (by decide)).trans (gclaim.trans hclaim)
  · exact (State.rd_updReply _ r 4 0 [] (by decide)).trans (gstate.trans hstate)
  · rw [congrArg UpdSt.grace (rim_upd (State.rim_updReply ..)), ggrace, hrun]

theorem exec_activateGraceExpire_none (h : s.upd.grace = none) : exec .activateGraceExpire s = .next s := by
  show execActivateGraceExpire s = _
  unfold execActivateGraceExpire
  rw [h]

/-- GRACE has passed. -/
def State.gracePassed (s : State) (a : Nat) : State := s.advanceRun (a + ns (max 1 (s.rd updP UPD_ACT_GRACE) * 1000000))

theorem exec_activateGraceExpire {a : Nat} (h : s.upd.grace = some a) :
    exec .activateGraceExpire s = .next ((s.gracePassed a).restart 6) := by
  show execActivateGraceExpire s = _
  unfold execActivateGraceExpire
  rw [h]
  rfl

end

/-! ### A restart (R449, R451) -/

section
variable (s : State)

theorem TimeSt.run_le_clock (t : TimeSt) (inc : Nat) : t.run ≤ (t.clock inc).run := Nat.le_add_right ..

/-- What no register shows is after a clear of SYS as it was before its pins were disabled. -/
theorem pinsOff_leaves {α : Type} {g : State → α} (hg : ∀ (u : State) (m : Store Nat), g { u with regs := m } = g u)
    (c : Prop) [Decidable c] (u : State) : g (if c then u else (upTo 8).foldl State.pinsOff u) = g u := by
  split
  · rfl
  · exact foldl_leaves (step := State.pinsOff) (fun v i _ => hg v (v.pinsOff i).regs) u

theorem State.clearSys_spec (hold : Nat) : s.time.run ≤ (s.clearSys hold).time.run ∧ (s.clearSys hold).upd = State.reset.upd := by
  unfold State.clearSys
  extract_lets r m' m c c' pins u v
  have hrun : s.time.run ≤ c.run := by
    show s.time.run ≤ TimeSt.run (if s.time.coarse then _ else _)
    split
    · exact TimeSt.run_le_clock ..
    · exact Nat.le_refl _
  have htime : v.time = u.time := pinsOff_leaves (g := State.time) (fun _ _ => rfl) (hold = 4) u
  have hupd : v.upd = u.upd := pinsOff_leaves (g := State.upd) (fun _ _ => rfl) (hold = 4) u
  have hu : u.time.run = c.run := rfl
  have hv : v.time.run = u.time.run := congrArg TimeSt.run htime
  exact ⟨hrun.trans (hv.trans hu).ge, hupd⟩

theorem State.resetSys_spec (c hold : Nat) : s.time.run ≤ (s.resetSys c hold).time.run ∧
    (s.resetSys c hold).upd = State.reset.upd ∧ (s.resetSys c hold).rd mssP MSS_RESET_CAUSE_CAUSE = 2 ^ c % 2 ^ 7 := by
  obtain ⟨hrun, hupd⟩ := s.clearSys_spec hold
  unfold State.resetSys
  generalize s.clearSys hold = u at hrun hupd
  refine ⟨hrun, hupd, ?_⟩
  exact (State.rd_wr_key (by decide)).trans (State.rd_wr_self ..)

/-- What the start of boot leaves, and what it shows. -/
theorem State.bootStart_shows : s.bootStart.mss.hold = 0 ∧ s.bootStart.mss.recover = s.mss.recover ∧ s.bootStart.bootStage = 0 ∧
    s.bootStart.time = s.time ∧ s.bootStart.upd = s.upd ∧
    s.bootStart.rd mssP MSS_RESET_CAUSE_CAUSE = s.rd mssP MSS_RESET_CAUSE_CAUSE := by
  have hnonce : ∀ u : State, u.newNonce.mss = u.mss ∧ u.newNonce.time = u.time ∧ u.newNonce.upd = u.upd ∧ u.newNonce.regs = u.regs :=
    fun _ => ⟨rfl, rfl, rfl, rfl⟩
  unfold State.bootStart
  extract_lets m u
  have hemit : ∀ d : List Nat, ((u.wr mssP MSS_BOOT_STAGE 0).emit mssP 0x0001 d).core = (u.wr mssP MSS_BOOT_STAGE 0).core :=
    fun d => State.core_emit ..
  have hrd : ∀ (d : List Nat) {f : Fld}, f.beyondRaw = true → ((u.wr mssP MSS_BOOT_STAGE 0).emit mssP 0x0001 d).newNonce.rd mssP f =
      (u.wr mssP MSS_BOOT_STAGE 0).rd mssP f := fun d f hf =>
    State.rd_emit_page (isPage_pg .mss 0) (ownPage_of (by decide)) hf
  obtain ⟨nmss, ntime, nupd, -⟩ := hnonce ((u.wr mssP MSS_BOOT_STAGE 0).emit mssP 0x0001 [u.rd mssP MSS_RESET_CAUSE_CAUSE])
  refine ⟨?_, ?_, (hrd _ rfl).trans (State.rd_wr_self ..), ?_, ?_, (hrd _ rfl).trans (State.rd_wr_key (by decide))⟩
  · rw [nmss, eq_of_core State.mss (fun _ => rfl) (hemit _)]
    rfl
  · rw [nmss, eq_of_core State.mss (fun _ => rfl) (hemit _)]
    rfl
  · rw [ntime, eq_of_core State.time (fun _ => rfl) (hemit _)]
    rfl
  · rw [nupd, eq_of_core State.upd (fun _ => rfl) (hemit _)]
    rfl

end

section
variable {s : State}

theorem activateGraceExpire_restarts {a : Nat} (h : s.upd.grace = some a) : completes .activateGraceExpire s fun t =>
    t.mss.hold = 0 ∧ t.bootStage = 0 ∧ t.upd.grace = none ∧ t.rd mssP MSS_RESET_CAUSE_CAUSE = 2 ^ 6 ∧
      a + ns (max 1 (s.rd updP UPD_ACT_GRACE) * 1000000) ≤ t.time.run := by
  have hexec := exec_activateGraceExpire h
  have hpast : a + ns (max 1 (s.rd updP UPD_ACT_GRACE) * 1000000) ≤ (s.gracePassed a).time.run := s.le_run_advanceRun _
  generalize s.gracePassed a = u at hexec hpast
  obtain ⟨hrun, hupd, hcause⟩ := u.resetSys_spec 6 0
  unfold State.restart at hexec
  generalize u.resetSys 6 0 = v at hexec hrun hupd hcause
  obtain ⟨bhold, -, bstage, btime, bupd, bcause⟩ := v.bootStart_shows
  refine completes_of hexec ⟨bhold, bstage, ?_, bcause.trans hcause, ?_⟩
  · rw [bupd, hupd]
    rfl
  · rw [btime]
    exact hpast.trans hrun

/-- A restart into recovery mode. -/
def State.recoverGo (s : State) : State :=
  { s.resetSys 6 0 with mss := { (s.resetSys 6 0).mss with recover := true } }.bootStart

theorem exec_updateRecover {w : Writer} (h : w = .host ∨ w = .mss) : exec (.updateRecover w) s = .next s.recoverGo := by
  obtain rfl | rfl := h <;> rfl

theorem updateRecover_restarts {w : Writer} (h : w = .host ∨ w = .mss) : completes (.updateRecover w) s fun t =>
    t.mss.recover = true ∧ t.mss.hold = 0 ∧ t.bootStage = 0 := by
  have hexec := exec_updateRecover (s := s) h
  unfold State.recoverGo at hexec
  obtain ⟨bhold, brecover, bstage, -⟩ :=
    State.bootStart_shows { s.resetSys 6 0 with mss := { (s.resetSys 6 0).mss with recover := true } }
  exact completes_of hexec ⟨brecover, bhold, bstage⟩

theorem exec_updateRecover_not {w : Writer} (hh : w ≠ .host) (hm : w ≠ .mss) : exec (.updateRecover w) s = .next s := by
  cases w with
  | host => exact absurd rfl hh
  | mss => exact absurd rfl hm
  | _ => rfl

theorem exec_updateHandover_not {w : Writer} (hh : w ≠ .host) (hm : w ≠ .mss) : exec (.updateHandover w) s = .next s := by
  have hunheard : s.updHeard 7 ⟨1, w, 0, 0, false, 0, 0, 0, []⟩ = false := by
    simp [State.updHeard, hh, hm]
  exact congrArg Host.Outcome.next (if_pos (by rw [hunheard]; rfl))

end

/-! ### The copy of slot B to slot A (R426) -/

section
variable {s : State}

theorem exec_slotCopyDone_not {f : Option (Fin 3)} (h : s.updState ≠ 6) : exec (.slotCopyDone f) s = .next s :=
  congrArg Host.Outcome.next (if_pos h)

/-- The copy has ended: UPD_STATE shows whether slot B holds a staged package. -/
def State.copyEnded (s : State) : State := s.wr updP UPD_STATE_STATE (if s.on updP UPD_STAGED_VALID then 4 else 0)

theorem State.copyEnded_spec (s : State) : s.copyEnded.updState = (if s.on updP UPD_STAGED_VALID then 4 else 0) ∧
    s.copyEnded.nor = s.nor := by
  refine ⟨?_, rfl⟩
  refine (State.rd_wr_self ..).trans ?_
  split <;> rfl

theorem exec_slotCopyDone_failed {k : Fin 3} (h : s.updState = 6) : exec (.slotCopyDone (some k)) s =
    .next ((s.copyEnded.norErase 0 0x1000).emit updP 0x1802 (le (s.norLE 0x200000C 2) 2 ++ [k.val])) :=
  congrArg Host.Outcome.next (if_neg (not_not_intro h))

theorem slotCopyDone_failed {k : Fin 3} (h : s.updState = 6) : completes (.slotCopyDone (some k)) s fun t =>
    t.updState = (if s.on updP UPD_STAGED_VALID then 4 else 0) ∧
      ∀ a, Mem.readD 0xFF t.nor a = if a < 0x1000 then 0xFF else Mem.readD 0xFF s.nor a := by
  obtain ⟨hstate, hnor⟩ := s.copyEnded_spec
  have hexec := exec_slotCopyDone_failed (k := k) h
  generalize s.copyEnded = u at hexec hstate hnor
  obtain ⟨estate, -, -, enor⟩ := (u.norErase 0 0x1000).upd_emit 0x1802 (le (s.norLE 0x200000C 2) 2 ++ [k.val])
  refine completes_of hexec ⟨estate.trans hstate, fun a => ?_⟩
  rw [enor, readD_norErase, hnor]
  simp only [Nat.zero_le, true_and]

/-- The bytes from `b` to `e`, moved to 0. -/
def movedDown (b e : Nat) (m : Mem) : Mem := (m.filter fun x => decide (b ≤ x.1) && decide (x.1 < e)).map fun x => (x.1 - b, x.2)

theorem find_movedDown {b e a : Nat} (h : b + a < e) (m : Mem) : Store.find a (movedDown b e m) = Store.find (b + a) m := by
  induction m with
  | nil => rfl
  | cons x m ih =>
    unfold movedDown at ih ⊢
    rw [List.filter_cons]
    by_cases hx : b ≤ x.1 ∧ x.1 < e
    · rw [if_pos (by simp [hx])]
      simp only [List.map_cons, Store.find]
      by_cases heq : x.1 = b + a
      · rw [if_pos (by omega), if_pos heq]
      · rw [if_neg (by omega), if_neg heq, ih]
    · rw [if_neg (by simp; omega), ih]
      simp only [Store.find]
      rw [if_neg (by omega)]

theorem find_append_of_none {α : Type} {k : Nat} {m m' : Store α} (h : Store.find k m' = none) :
    Store.find k (m ++ m') = Store.find k m := by
  induction m with
  | nil => exact h
  | cons x m ih =>
    simp only [List.cons_append, Store.find, ih]

/-- Slot A with the bytes of slot B, and the marker erased. -/
def State.slotCopied (s : State) (len : Nat) : State :=
  { s with nor := movedDown 0x2000000 (0x2000000 + min len 0x2000000) s.nor ++ (s.norErase 0 0x2000000).nor }

theorem readD_slotCopied {len a : Nat} (hlen : a < len) (ha : a < 0x2000000) :
    Mem.readD 0xFF ((s.slotCopied len).norErase 0x3FFF000 0x4000000).nor a = Mem.readD 0xFF s.nor (0x2000000 + a) := by
  have hnor : (s.slotCopied len).nor =
    movedDown 0x2000000 (0x2000000 + min len 0x2000000) s.nor ++ (s.norErase 0 0x2000000).nor := rfl
  have hdrop : (decide (a < 0) || decide (0x2000000 ≤ a)) = false := by simpa using ha
  have hgone : Store.find a (s.norErase 0 0x2000000).nor = none :=
    Store.find_keep_dropped (p := fun k => decide (k < 0) || decide (0x2000000 ≤ k)) hdrop _
  rw [readD_norErase, if_neg (by omega), hnor]
  simp only [Mem.readD, Store.getD]
  rw [find_append_of_none hgone, find_movedDown (by omega)]

theorem exec_slotCopyDone (h : s.updState = 6) : exec (.slotCopyDone none) s =
    .next ((((s.copyEnded.slotCopied (s.norLE 0x2000008 4)).norErase 0x3FFF000 0x4000000).wr updP UPD_COPY_MIB
      (s.norLE 0x2000008 4 / 2 ^ 20)).emit updP 0x1801 (le (s.norLE 0x200000C 2) 2)) :=
  congrArg Host.Outcome.next (if_neg (not_not_intro h))

theorem slotCopyDone_copies (h : s.updState = 6) : completes (.slotCopyDone none) s fun t =>
    t.updState = (if s.on updP UPD_STAGED_VALID then 4 else 0) ∧
      ∀ a, a < s.norLE 0x2000008 4 → a < 0x2000000 → Mem.readD 0xFF t.nor a = Mem.readD 0xFF s.nor (0x2000000 + a) := by
  obtain ⟨hstate, hnor⟩ := s.copyEnded_spec
  have hexec := exec_slotCopyDone h
  generalize s.copyEnded = u at hexec hstate hnor
  obtain ⟨estate, -, -, enor⟩ := State.upd_emit (((u.slotCopied (s.norLE 0x2000008 4)).norErase 0x3FFF000 0x4000000).wr updP UPD_COPY_MIB
      (s.norLE 0x2000008 4 / 2 ^ 20)) 0x1801 (le (s.norLE 0x200000C 2) 2)
  refine completes_of hexec ⟨estate.trans ?_, fun a hlen ha => ?_⟩
  · exact (State.rd_wr_key (by decide)).trans hstate
  · rw [enor, ← hnor]
    exact readD_slotCopied hlen ha

end

/-! ### The hot handover (R432, R433) -/

section
variable {s : State} {w : Writer}

/-- A request that came by a register write. -/
abbrev updRegister (w : Writer) : UpdReq := ⟨1, w, 0, 0, false, 0, 0, 0, []⟩

theorem updHeard_register (h : w = .host ∨ w = .mss) (typ : Nat) : s.updHeard typ (updRegister w) = true := by
  obtain rfl | rfl := h <;> rfl

theorem exec_updateHandover_refused (h : w = .host ∨ w = .mss) {c : Nat} (hc : s.handoverCode = some c) :
    exec (.updateHandover w) s = .next ((s.wr updP UPD_STATE_CODE c).emit updP 0x0001 [7, c, 1]) := by
  have hheard := updHeard_register (s := s) h 7
  show execUpdateHandover w s = _
  unfold execUpdateHandover
  dsimp only
  rw [if_neg (by rw [hheard]; decide), hc]
  rfl

theorem updateHandover_refused {c : Nat} (h : w = .host ∨ w = .mss) (hc : s.handoverCode = some c) :
    completes (.updateHandover w) s fun t =>
      t.rd updP UPD_STATE_CODE = c % 2 ^ UPD_STATE_CODE.w ∧ onlyRegsEv [fkey updP UPD_STATE_CODE] updP s t := by
  have hown : ownPage updP := ownPage_of (by decide)
  refine completes_of (exec_updateHandover_refused h hc) ⟨?_, ?_⟩
  · exact (State.rd_emit_page (isPage_pg .upd 0) hown rfl).trans (State.rd_wr_self ..)
  · refine onlyRegsEv_emit (ringKeysFree_fields (L := [UPD_STATE_CODE]) hown (by decide)) ?_
    exact onlyRegsEv_wr List.mem_cons_self onlyRegsEv_refl

/-- The staged component is in the other half of the code area. -/
def State.hoLoaded (s : State) (e : PkgEntry) : State :=
  (s.drvLoad (slotBase true) e (1 - s.rd 0 SYS_DRV_HALF_HALF)).wr updP UPD_STATE_STATE 7

/-- A handover has begun. -/
def State.hoBegun (s : State) (e : PkgEntry) : State :=
  { s with upd := { s.upd with ho := 1, hoFrom := s.drvVersion, hoTo := (e.len, e.digest, e.ver) } }

theorem exec_updateHandover (h : w = .host ∨ w = .mss) (hc : s.handoverCode = none) {e : PkgEntry}
    (he : s.pkgComp (slotBase true) 2 = some e) (hd : s.digestOk (slotBase true) e = true) :
    exec (.updateHandover w) s = .next ((s.hoLoaded e).hoBegun e) := by
  have hheard := updHeard_register (s := s) h 7
  show execUpdateHandover w s = _
  unfold execUpdateHandover
  dsimp only
  rw [if_neg (by rw [hheard]; decide), hc, he]
  dsimp only
  rw [if_neg (by rw [hd]; decide)]
  rfl

theorem updateHandover_loads {e : PkgEntry} (h : w = .host ∨ w = .mss) (hc : s.handoverCode = none)
    (he : s.pkgComp (slotBase true) 2 = some e) (hd : s.digestOk (slotBase true) e = true) :
    completes (.updateHandover w) s fun t =>
      t.updState = 7 ∧ t.upd.ho = 1 ∧ t.upd.hoFrom = s.drvVersion ∧ t.upd.hoTo = (e.len, e.digest, e.ver) := by
  have hexec := exec_updateHandover h hc he hd
  have hstate : (s.hoLoaded e).updState = 7 := State.rd_wr_self ..
  have hmss : (s.hoLoaded e).mss = s.mss := rim_mss ((State.rim_wr ..).trans (State.rim_hwRequests ..))
  generalize s.hoLoaded e = u at hexec hstate hmss
  have hver : u.drvVersion = s.drvVersion := by
    unfold State.drvVersion
    rw [hmss]
  exact completes_of hexec ⟨hstate, rfl, hver, rfl⟩

theorem exec_handoverInterrupt_not (h : s.upd.ho ≠ 1) : exec .handoverInterrupt s = .next s := congrArg Host.Outcome.next (if_pos h)

/-- The drovers are interrupted at cut `n`, which is at `x`. -/
def State.hoCutAt (s : State) (n x : Nat) : State :=
  { s with upd := { s.upd with ho := 2, hoEpoch := n, hoCut := x } }

theorem exec_handoverInterrupt (h : s.upd.ho = 1) {e : Nat} (he : s.cvEngine (s.rd updP UPD_HO_CFG_CANVAS) = some e) :
    ∃ n, exec .handoverInterrupt s =
      .next ((s.advanceTo ((s.cvAct e (s.rd updP UPD_HO_CFG_CANVAS)).cut n)).drvInterrupts.hoCutAt n
        ((s.cvAct e (s.rd updP UPD_HO_CFG_CANVAS)).cut n)) := by
  refine ⟨(s.cvAct e (s.rd updP UPD_HO_CFG_CANVAS)).firstAfter s.now, ?_⟩
  show execHandoverInterrupt s = _
  unfold execHandoverInterrupt
  dsimp only
  rw [if_neg (not_not_intro h), he]
  rfl

theorem State.drvIrqs_spec (line : Nat) (l : List Nat) (s : State) :
    (l.foldl (fun s d => s.emitOut (.drvIrq d line)) s).out = s.out ++ l.map (fun d => .drvIrq d line) ∧
    (l.foldl (fun s d => s.emitOut (.drvIrq d line)) s).time = s.time := by
  induction l generalizing s with
  | nil => exact ⟨(List.append_nil _).symm, rfl⟩
  | cons d l ih =>
    obtain ⟨hout, htime⟩ := ih (s.emitOut (.drvIrq d line))
    refine ⟨hout.trans ?_, htime⟩
    show (s.out ++ [_]) ++ _ = _
    rw [List.append_assoc]
    rfl

theorem State.drvInterrupts_spec (s : State) :
    s.drvInterrupts.out = s.out ++ (upTo 8).map (fun d => .drvIrq d (Config.free s.freeCtr)) ∧ s.drvInterrupts.time = s.time :=
  State.drvIrqs_spec (Config.free s.freeCtr) (upTo 8) s.draw.2

/-- What reads neither the clock nor registers reads alike when yard time has passed. -/
theorem State.advanceTo_leaves {α : Type} (g : State → α)
    (hg : ∀ (u : State) (c : TimeSt) (r : Store Nat), g { u with time := c, regs := r } = g u) (s : State) (x : Nat) :
    g (s.advanceTo x) = g s := by
  obtain ⟨c, h, -⟩ := s.advanceTo_spec x
  rw [h.1]
  exact hg s c _

theorem handoverInterrupt_cuts {e : Nat} (h : s.upd.ho = 1) (he : s.cvEngine (s.rd updP UPD_HO_CFG_CANVAS) = some e) :
    completes .handoverInterrupt s fun t =>
      t.upd.ho = 2 ∧ t.upd.hoCut = (s.cvAct e (s.rd updP UPD_HO_CFG_CANVAS)).cut t.upd.hoEpoch ∧ t.upd.hoCut ≤ t.now ∧
      t.out = s.out ++ (upTo 8).map fun d => .drvIrq d (Config.free s.freeCtr) := by
  obtain ⟨n, hexec⟩ := exec_handoverInterrupt h he
  generalize (s.cvAct e (s.rd updP UPD_HO_CFG_CANVAS)) = v at hexec ⊢
  have hnow : v.cut n ≤ (s.advanceTo (v.cut n)).now := State.le_now_advanceTo ..
  have hout := s.advanceTo_leaves State.out (fun _ _ _ => rfl) (v.cut n)
  have hfree := s.advanceTo_leaves State.freeCtr (fun _ _ _ => rfl) (v.cut n)
  generalize s.advanceTo (v.cut n) = u at hexec hnow hout hfree
  obtain ⟨dout, dtime⟩ := u.drvInterrupts_spec
  generalize u.drvInterrupts = x at hexec dout dtime
  refine completes_of hexec ⟨rfl, rfl, ?_, ?_⟩
  · exact hnow.trans (congrArg (fun c : TimeSt => c.yt / subNs) dtime).ge
  · rw [← hout, ← hfree]
    exact dout

theorem exec_handoverReady_late {d : Fin 8} (h : s.hoEnd < s.now) : exec (.handoverReady (.drover d)) s = .next s :=
  congrArg Host.Outcome.next (if_pos h)

theorem exec_handoverReady_other (h : w = .host ∨ w = .mss) : exec (.handoverReady w) s = .next s := by
  obtain rfl | rfl := h <;> rfl

/-- The drovers restart at the other half. -/
def State.hoHalf (s : State) : State := s.drvEpochs.wr 0 SYS_DRV_HALF_HALF (1 - s.rd 0 SYS_DRV_HALF_HALF)

theorem handoverReady_restarts {d : Fin 8} (h : s.upd.ho = 2) (hin : s.now ≤ s.hoEnd) :
    completes (.handoverReady (.drover d)) s fun t =>
      t.upd.ho = 3 ∧ t.rd 0 SYS_DRV_HALF_HALF = (1 - s.rd 0 SYS_DRV_HALF_HALF) % 2 := by
  have hexec : exec (.handoverReady (.drover d)) s = .next { s.hoHalf with upd := { s.hoHalf.upd with ho := 3 } } :=
    congrArg Host.Outcome.next ((if_neg (Nat.not_lt.2 hin)).trans (if_pos h))
  have hhalf : s.hoHalf.rd 0 SYS_DRV_HALF_HALF = (1 - s.rd 0 SYS_DRV_HALF_HALF) % 2 := State.rd_wr_self ..
  generalize s.hoHalf = u at hexec hhalf
  exact completes_of hexec ⟨rfl, hhalf⟩

/-- The new component is in service. -/
def State.hoInService (s : State) (x : Nat × List Nat × Nat) : State := { s.hoOver with mss := { s.hoOver.mss with drv := some x } }

theorem State.hoOver_spec (u : State) : u.hoOver.upd.ho = 0 ∧ u.hoOver.updState = 4 ∧ u.hoOver.time = u.time :=
  ⟨rfl, State.rd_wr_self u updP 4 UPD_STATE_STATE, rfl⟩

theorem State.hoInService_spec (u : State) (x : Nat × List Nat × Nat) : (u.hoInService x).upd.ho = 0 ∧
    (u.hoInService x).updState = 4 ∧ (u.hoInService x).mss.drv = some x := ⟨rfl, u.hoOver_spec.2.1, rfl⟩

theorem handoverReady_ends {d : Fin 8} (h : s.upd.ho = 3) (hin : s.now ≤ s.hoEnd) (ha : s.hoAccepted = true) :
    completes (.handoverReady (.drover d)) s fun t => t.upd.ho = 0 ∧ t.updState = 4 ∧ t.mss.drv = some s.upd.hoTo := by
  have hne : s.upd.ho ≠ 2 := by omega
  have hexec : exec (.handoverReady (.drover d)) s = .next ((s.emit updP 0x2001 s.hoData).hoInService (s.emit updP 0x2001 s.hoData).upd.hoTo) :=
    congrArg Host.Outcome.next ((if_neg (Nat.not_lt.2 hin)).trans ((if_neg hne).trans (if_pos ⟨h, ha⟩)))
  rw [rim_upd (State.rim_emit ..)] at hexec
  exact completes_of hexec (State.hoInService_spec ..)

theorem exec_handoverTimeout_not (h : s.upd.ho < 2) : exec .handoverTimeout s = .next s := congrArg Host.Outcome.next (if_pos h)

/-- Where the new image ran, the drovers run the old one again. -/
def State.hoBack (s : State) : State :=
  if s.upd.ho = 3 then s.wr 0 SYS_DRV_HALF_HALF (1 - s.rd 0 SYS_DRV_HALF_HALF) else s

theorem State.rim_hoBack (s : State) : s.hoBack.rim = s.rim := by
  simp [State.hoBack]

theorem State.rim_drvEpochs (s : State) : s.drvEpochs.rim = s.rim := by
  simp [State.drvEpochs]

theorem exec_handoverTimeout (h : 2 ≤ s.upd.ho) : ∃ data, exec .handoverTimeout s =
    .next ((((s.advanceTo s.hoEnd).hoBack.drvEpochs).emit updP 0x2002 data).hoOver) :=
  ⟨_, congrArg Host.Outcome.next (if_neg (Nat.not_lt.2 h))⟩

theorem handoverTimeout_ends (h : 2 ≤ s.upd.ho) : completes .handoverTimeout s fun t =>
    t.upd.ho = 0 ∧ t.updState = 4 ∧ s.upd.hoCut + max 1 (s.rd updP UPD_HO_CFG_LIMIT) * 1000000 ≤ t.now := by
  obtain ⟨data, hexec⟩ := exec_handoverTimeout h
  have hnow : s.hoEnd ≤ (s.advanceTo s.hoEnd).now := State.le_now_advanceTo ..
  have hkept : (((s.advanceTo s.hoEnd).hoBack.drvEpochs).emit updP 0x2002 data).now = (s.advanceTo s.hoEnd).now :=
    rim_now ((State.rim_emit ..).trans ((State.rim_drvEpochs _).trans (State.rim_hoBack _)))
  generalize ((s.advanceTo s.hoEnd).hoBack.drvEpochs).emit updP 0x2002 data = u at hexec hkept
  obtain ⟨hho, hstate, htime⟩ := u.hoOver_spec
  refine completes_of hexec ⟨hho, hstate, ?_⟩
  have hend : u.hoOver.now = u.now := congrArg (fun c : TimeSt => c.yt / subNs) htime
  rw [hend, hkept]
  exact hnow

end

/-- Settles O56: activation, recovery, the copy of a slot and the hot handover. A copy that fails leaves slot A without a header
(log 113), an activation whose marker does not read back is refused 23 (log 112), and of the two READYs of a handover the first
says that the record is written, the second ends it (log 115). -/
theorem updateActivation : Obligations.UpdateActivation := by
  unfold Obligations.UpdateActivation
  exact fun r w s => ⟨fun ok => exec_updateActivate_unheard, fun ok c => exec_updateActivate_refused, exec_updateActivate_misread,
    updateActivate_lowers, exec_activateGraceExpire_none, fun a => activateGraceExpire_restarts, updateRecover_restarts,
    fun hh hm => ⟨exec_updateRecover_not hh hm, exec_updateHandover_not hh hm⟩, fun f => exec_slotCopyDone_not,
    fun k => slotCopyDone_failed, slotCopyDone_copies, fun c => updateHandover_refused, fun e => updateHandover_loads,
    exec_handoverInterrupt_not, fun e => handoverInterrupt_cuts, fun d => exec_handoverReady_late,
    fun d => handoverReady_restarts, fun d => handoverReady_ends, exec_handoverReady_other, exec_handoverTimeout_not,
    handoverTimeout_ends⟩

end Sys2Proof.Machine
end

section
/-! PROOFS. Touch: scan frames, lost samples and key frames (R341 to R345, R354, R357, R383). -/

set_option autoImplicit false

namespace Sys2Proof.Machine

/-! ### Whether a scan frame is in progress (R342, R345) -/

/-- A scan frame of matrix page `p` is in progress. -/
def State.scans (s : State) (p : Nat) : Bool := (s.tchSt p).scanning

theorem scans_of_rim {s t : State} (h : t.rim = s.rim) (p : Nat) : t.scans p = s.scans p :=
  have hstill := rim_tchSt h p
  congrArg (f := TchSt.scanning) (a₁ := (t.tchSt p).still) (a₂ := (s.tchSt p).still) hstill

section
variable (s : State) (p : Nat)

@[simp] theorem State.scanning_tchSt : (s.tchSt p).scanning = s.scans p := rfl

@[simp] theorem State.scans_setTch (x : TchSt) : (s.setTch p x).scans p = x.scanning := by
  unfold State.scans
  rw [State.tchSt_setTch_self]

@[simp] theorem State.scans_wr (q v : Nat) (f : Fld) : (s.wr q f v).scans p = s.scans p := rfl
@[simp] theorem State.scans_wb (q : Nat) (f : Fld) (b : Bool) : (s.wb q f b).scans p = s.scans p := rfl
@[simp] theorem State.scans_cnt (q n : Nat) (f : Fld) : (s.cnt q f n).scans p = s.scans p := rfl
@[simp] theorem State.scans_draw : s.draw.2.scans p = s.scans p := rfl

@[simp] theorem State.scans_emit (q code : Nat) (data : List Nat) : (s.emit q code data).scans p = s.scans p :=
  scans_of_rim (State.rim_emit ..) p

@[simp] theorem State.scans_emitLimited (q key ms code : Nat) (data : List Nat) :
    (s.emitLimited q key ms code data).scans p = s.scans p := scans_of_rim (State.rim_emitLimited ..) p

@[simp] theorem State.scans_ite (c : Prop) [Decidable c] (t u : State) :
    (if c then t else u).scans p = if c then t.scans p else u.scans p := by
  split <;> rfl

theorem State.scans_foldl {α : Type} {step : State → α → State} (l : List α) (h : ∀ u x, (step u x).scans p = u.scans p) :
    (l.foldl step s).scans p = s.scans p := by
  induction l generalizing s with
  | nil => rfl
  | cons x l ih => rw [List.foldl_cons, ih, h]

/-! #### Measurements, positions and reports -/

@[simp] theorem State.scans_takeSamples (nodes : List Nat) (m : Array Nat) : (s.takeSamples p nodes m).scans p = s.scans p := by
  unfold State.takeSamples
  extract_lets u
  have hu : u.scans p = s.scans p := State.scans_foldl s p nodes fun _ _ => rfl
  split
  · exact (State.scans_emitLimited ..).trans hu
  · exact hu

@[simp] theorem State.scans_captureFrame (k : Nat) (nodes : List Nat) (m : Array Nat) :
    (s.captureFrame p k nodes m).scans p = s.scans p := by
  have hfold : ∀ (f : Nat → Fld × Nat), (nodes.foldl (fun s n => s.wr (touchE p n) (f n).1 (f n).2) s).scans p = s.scans p := fun f =>
    State.scans_foldl s p nodes fun _ _ => rfl
  unfold State.captureFrame
  dsimp only
  split
  · exact (State.scans_setTch ..).trans (hfold fun n => (TCHN_B_COMP, _))
  · split
    · exact (State.scans_emit ..).trans ((State.scans_setTch ..).trans (hfold fun n => (TCHN_A_BASE, _)))
    · exact State.scans_setTch ..

@[simp] theorem State.scans_judgePos (zones : List Zone) (t sx sy : Nat) : (s.judgePos p zones t sx sy).2.scans p = s.scans p := by
  unfold State.judgePos
  split <;> rfl

@[simp] theorem State.rim_raiseTarget (target vector : Nat) : (s.raiseTarget target vector).rim = s.rim :=
  State.rim_of_core (by simp [State.raiseTarget, State.raiseMsix])

@[simp] theorem State.rim_rptPut (q : Nat) (item : List Nat) : (s.rptPut q item).2.rim = s.rim := by
  simp [State.rptPut, State.ringPut, State.loftPutLE]

@[simp] theorem State.scans_rptPut (q : Nat) (item : List Nat) : (s.rptPut q item).2.scans p = s.scans p :=
  scans_of_rim (State.rim_rptPut ..) p

@[simp] theorem State.scans_contactReport (kind time : Nat) (mir : Bool) (c : Contact) (j : Judged) (sx sy strength : Nat)
    (coal : Bool) : (s.contactReport p kind time mir c j sx sy strength coal).scans p = s.scans p := by
  simp [State.contactReport]

@[simp] theorem State.scans_contactUpd (id : Nat) (f : Contact → Contact) : (s.contactUpd p id f).scans p = s.scans p := by
  simp [State.contactUpd]

@[simp] theorem State.scans_newContacts (t : Nat) (zones : List Zone) (ps : List Peak) (cs : List Contact) :
    (s.newContacts p t zones ps cs).2.scans p = s.scans p := by
  induction ps generalizing s cs with
  | nil => rfl
  | cons x ps ih =>
    unfold State.newContacts
    split
    · rfl
    · rw [ih, State.scans_judgePos]

/-! #### Contacts and baselines -/

@[simp] theorem State.scans_contactFrame (t : Nat) (zones : List Zone) (mir : Bool) (c : Contact) :
    (s.contactFrame p t zones mir c).scans p = s.scans p := by
  simp [State.contactFrame]

@[simp] theorem State.scans_contactLift (t : Nat) (zones : List Zone) (mir : Bool) (m : Array Nat) (c : Contact) :
    (s.contactLift p t zones mir m c).scans p = s.scans p := by
  have hfold : ∀ (u : State) (l : List Nat), (l.foldl (fun s n => (s.wr (touchE p n) TCHN_A_BASE (cap16 (m.getD n 0))).wb (touchE p n)
      TCHN_B_STUCK false) u).scans p = u.scans p := fun u l => State.scans_foldl u p l fun _ _ => rfl
  simp only [State.contactLift, State.scans_ite, State.scans_emit, hfold, State.scans_setTch, State.scanning_tchSt,
    State.scans_contactReport, State.scans_draw, State.scans_judgePos, ite_self]

@[simp] theorem State.scans_nodeUpdate (t n : Nat) (touched stuck driftNow : Bool) (m : Nat) (d : Int) :
    (s.nodeUpdate p t n touched stuck driftNow m d).scans p = s.scans p := by
  simp [State.nodeUpdate]

@[simp] theorem State.scans_baselines (t : Nat) (nodes : List Nat) (m : Array Nat) (d : Nat → Int) :
    (s.baselines p t nodes m d).scans p = s.scans p := by
  unfold State.baselines
  exact (State.scans_foldl _ p nodes fun u n => State.scans_nodeUpdate u p t n _ _ _ _ _).trans (State.scans_setTch ..)

@[simp] theorem State.scans_noiseStep (ci : Option Nat) (lcur lcand : Nat) : (s.noiseStep p ci lcur lcand).scans p = s.scans p := by
  unfold State.noiseStep
  extract_lets q cur mix u x v n l
  have hmix : ∀ (a : State) (k x : Nat), (mix a k x).scans p = a.scans p := fun _ _ _ => rfl
  have hv : v.scans p = s.scans p := by
    show (match ci with | some k => _ | none => _ : State).scans p = _
    split
    · exact (State.scans_setTch ..).trans (hmix s cur lcur)
    · exact hmix s cur lcur
  split
  · split
    · split
      · exact (State.scans_emit ..).trans hv
      · exact hv
    · exact hv
  · exact hv

end

/-! ### Frames (R342, R345, R348) -/

section
variable (s : State) (p : Nat)

/-- The contact `c` has lifted; where its ID is taken again, by `kept`, its report is still owed until now. -/
def State.contactGone (s : State) (p t : Nat) (zones : List Zone) (mir : Bool) (m : Array Nat) (c : Contact) (owes : Bool)
    (kept : Option Contact) : State :=
  let s := s.contactLift p t zones mir m c
  let s := if owes then s.setTch p { s.tchSt p with owed := (s.tchSt p).owed - 1 } else s
  match kept with
  | some a => s.setTch p { s.tchSt p with contacts := (s.tchSt p).contacts ++ [a] }
  | none => s

theorem State.scans_contactGone (t : Nat) (zones : List Zone) (mir : Bool) (m : Array Nat) (c : Contact) (owes : Bool)
    (kept : Option Contact) : (s.contactGone p t zones mir m c owes kept).scans p = s.scans p := by
  cases kept <;> simp [State.contactGone]

/-- One contact ID's part of a frame: the contact that has lifted, then the one that has a peak. -/
theorem State.scans_contactTurn {t : Nat} {zones : List Zone} {mir : Bool} {u v : State} (hv : v.scans p = u.scans p)
    (c : Option Contact) : (match c with
      | some c => v.contactFrame p t zones mir c
      | none => v).scans p = u.scans p := by
  cases c
  · exact hv
  · exact (State.scans_contactFrame ..).trans hv

theorem State.scans_contactsFrame (t : Nat) (mir : Bool) (nodes : List Nat) (m : Array Nat) (live : Nat → Bool) (d : Nat → Int) :
    (s.contactsFrame p t mir nodes m live d).scans p = s.scans p := by
  unfold State.contactsFrame
  dsimp only
  refine (State.scans_foldl _ p _ fun u i => ?_).trans ?_
  · refine State.scans_contactTurn p ?_ _
    split
    · exact State.scans_contactGone ..
    · rfl
  · exact (State.scans_setTch ..).trans ((State.scans_newContacts ..).trans (State.scans_cnt ..))

theorem State.scans_scanFrame (t : Nat) (mir : Bool) (m : List Nat) (ci : Option Nat) (lcur lcand : Nat) :
    (s.scanFrame p t mir m ci lcur lcand).scans p = s.scans p := by
  unfold State.scanFrame
  dsimp only
  split
  · rw [State.scans_noiseStep, State.scans_captureFrame]
    split
    · exact State.scans_foldl _ p _ fun _ _ => rfl
    · exact State.scans_takeSamples ..
  · rw [State.scans_noiseStep, State.scans_baselines, State.scans_contactsFrame, State.scans_takeSamples, State.scans_cnt]

/-- A frame of samples for the partner leaves whether the page scans. -/
theorem State.scans_ykSends (l : List (List Nat)) : (l.foldl (fun s d => s.ykSend 3 1 d) s).scans p = s.scans p :=
  scans_of_rim (State.rim_foldl _ _ fun _ _ => State.rim_ykSend ..) p

end

section
variable {s : State} {p : Fin 2} {m : List Nat} {a b : Nat}

theorem exec_scanFrameStart_not (h : s.enabled (tchP p.val) = false ∨ s.mirrorIn p.val = true ∨ (s.tchSt p.val).scanning = true ∨
    2 ≤ s.pwrState) : exec (.scanFrameStart p) s = .next s :=
  congrArg Host.Outcome.next (if_pos (h.imp (by simp [·]) id))

/-- The page's frame is a frame of the farrier's run (R413, R415). -/
def State.farFrame (s : State) (p : Nat) : Bool :=
  s.far.run.isSome && s.far.ports.contains p && decide (s.far.from_ ≤ s.time.run)

/-- The run counts the frame. -/
def State.frameCounted (s : State) (p : Nat) : State :=
  if s.farFrame p then { s with far := { s.far with frames := Store.put p (Store.getD 0 p s.far.frames + 1) s.far.frames } } else s

/-- The scan frame has begun, as the farrier's calibration frame or not. -/
def State.frameBegun (s : State) (p : Nat) (calib : Bool) : State := s.setTch p { s.tchSt p with scanning := true, calib := calib }

/-- Of every three frames of a run, the first is a calibration frame. -/
def State.frameCalib (s : State) (p : Nat) : Bool :=
  s.farFrame p && decide (Store.getD 0 p s.far.frames % 3 = 0) && decide (Store.getD 0 p s.far.frames ≤ 57)

theorem exec_scanFrameStart (hen : s.enabled (tchP p.val) = true) (hm : s.mirrorIn p.val = false)
    (hs : (s.tchSt p.val).scanning = false) (hp : s.pwrState < 2) : exec (.scanFrameStart p) s =
    .next (((s.latchFrame p.val).frameCounted p.val).frameBegun p.val ((s.latchFrame p.val).frameCalib p.val)) :=
  congrArg Host.Outcome.next (if_neg (by rw [hen, hm, hs]; simpa using hp))

theorem State.frameCounted_spec (s : State) (q : Nat) : s.frameCounted q = { s with far := (s.frameCounted q).far } := by
  unfold State.frameCounted
  split <;> rfl

theorem State.frameBegun_spec (s : State) (q : Nat) (calib : Bool) :
    (s.frameBegun q calib).tchSt q = { s.tchSt q with scanning := true, calib := calib } := State.tchSt_setTch_self ..

theorem scanFrameStart_begins (hen : s.enabled (tchP p.val) = true) (hm : s.mirrorIn p.val = false)
    (hs : (s.tchSt p.val).scanning = false) (hp : s.pwrState < 2) : completes (.scanFrameStart p) s fun t =>
      (t.tchSt p.val).scanning = true ∧
      (t.tchSt p.val).gains = (upTo 80).map (fun i => s.rd (pg .far 0) (FAR_VAL_VALUE (32 + 80 * p.val + i))) ∧
      (t.tchSt p.val).zones = s.zonesOf p.val ∧ (s.far.run = none → (t.tchSt p.val).calib = false) ∧
      t = { s with tch := t.tch, far := t.far } := by
  have hexec := exec_scanFrameStart hen hm hs hp
  have hlatch : (s.latchFrame p.val).tchSt p.val = { s.tchSt p.val with
      zones := s.zonesOf p.val, masks := (s.nodesOf p.val).filter fun n => s.on (touchE p.val n) TCHN_B_MASK
      gains := (upTo 80).map fun i => s.rd (pg .far 0) (FAR_VAL_VALUE (32 + 80 * p.val + i)) } := State.tchSt_setTch_self ..
  have hcalib : s.far.run = none → (s.latchFrame p.val).frameCalib p.val = false := fun h => by
    have hfar : (s.latchFrame p.val).far.run = none := h
    simp [State.frameCalib, State.farFrame, hfar]
  have hsame : s.latchFrame p.val = { s with tch := (s.latchFrame p.val).tch } := rfl
  generalize s.latchFrame p.val = u at hexec hlatch hcalib hsame
  have hcount := u.frameCounted_spec p.val
  generalize u.frameCounted p.val = v at hexec hcount
  have htch : v.tchSt p.val = u.tchSt p.val := by rw [hcount]; rfl
  have hbegun := v.frameBegun_spec p.val (u.frameCalib p.val)
  rw [htch, hlatch] at hbegun
  refine completes_of hexec ⟨?_, ?_, ?_, fun h => ?_, ?_⟩
  · rw [hbegun]
  · rw [hbegun]
  · rw [hbegun]
  · rw [hbegun]
    exact hcalib h
  · have hv : v = { s with tch := v.tch, far := v.far } := by
      rw [hcount, hsame]
    exact congrArg (fun x : State => x.frameBegun p.val (u.frameCalib p.val)) hv

theorem exec_scanFrameEnd_none (h : (s.tchSt p.val).scanning = false) : exec (.scanFrameEnd p m a b) s = .next s :=
  congrArg Host.Outcome.next (if_pos (by rw [h]; rfl))

/-- The scan frame is over. -/
def State.scanOver (s : State) (p : Nat) : State := s.setTch p { s.tchSt p with scanning := false }

theorem State.scans_scanOver (s : State) (q : Nat) : (s.scanOver q).scans q = false := State.scans_setTch ..

theorem exec_scanFrameEnd_calib (h : (s.tchSt p.val).scanning = true) (hc : (s.tchSt p.val).calib = true) :
    exec (.scanFrameEnd p m a b) s = .next (s.scanOver p.val) :=
  congrArg Host.Outcome.next ((if_neg (by rw [h]; decide)).trans (if_pos hc))

theorem exec_scanFrameEnd (h : (s.tchSt p.val).scanning = true) (hc : (s.tchSt p.val).calib = false) :
    ∃ (u : State) (c : Prop) (hd : Decidable c) (l : List (List Nat)), u.scans p.val = false ∧
      exec (.scanFrameEnd p m a b) s = .next (@ite _ c hd (l.foldl (fun s d => s.ykSend 3 1 d) u) u) :=
  ⟨_, _, _, _, (State.scans_scanFrame ..).trans (s.scans_scanOver p.val),
    congrArg Host.Outcome.next ((if_neg (by rw [h]; decide)).trans (if_neg (by rw [hc]; decide)))⟩

theorem scanFrameEnd_ends (h : (s.tchSt p.val).scanning = true) : completes (.scanFrameEnd p m a b) s fun t =>
    (t.tchSt p.val).scanning = false ∧ ((s.tchSt p.val).calib = true → t = { s with tch := t.tch }) := by
  cases hc : (s.tchSt p.val).calib with
  | true => exact completes_of (exec_scanFrameEnd_calib h hc) ⟨s.scans_scanOver p.val, fun _ => rfl⟩
  | false =>
    obtain ⟨u, c, hd, l, hu, hexec⟩ := exec_scanFrameEnd (m := m) (a := a) (b := b) h hc
    refine completes_of hexec ⟨?_, (nomatch ·)⟩
    by_cases hsend : c
    · rw [if_pos hsend]
      exact (State.scans_ykSends ..).trans hu
    · rw [if_neg hsend]
      exact hu

/-! ### Samples lost (R383) -/

theorem exec_samplesLost_not (h : s.enabled (tchP p.val) = false ∨ s.mirrorIn p.val = false ∨ (s.tchSt p.val).lost = true ∨
    2 ≤ s.pwrState) : exec (.samplesLost p) s = .next s :=
  congrArg Host.Outcome.next (if_pos (h.imp (by simp [·]) (Or.imp (by simp [·]) id)))

/-- The page is silent until a new capture completes. -/
def State.lostMarked (s : State) (p : Nat) : State := s.setTch p { s.tchSt p with lost := true }

theorem exec_samplesLost (hen : s.enabled (tchP p.val) = true) (hm : s.mirrorIn p.val = true) (hl : (s.tchSt p.val).lost = false)
    (hp : s.pwrState < 2) : ∃ u : State, exec (.samplesLost p) s = .next ((u.lostMarked p.val).captureStart p.val) :=
  ⟨_, congrArg Host.Outcome.next (if_neg (by rw [hen, hm, hl]; simpa using hp))⟩

theorem State.captureStart_spec (s : State) (q : Nat) : (s.captureStart q).tchSt q = { s.tchSt q with
    init := some 0, sums := [], anti := [], drift := 0, contacts := [], owed := 0, since := [] } := State.tchSt_setTch_self ..

theorem samplesLost_captures (hen : s.enabled (tchP p.val) = true) (hm : s.mirrorIn p.val = true)
    (hl : (s.tchSt p.val).lost = false) (hp : s.pwrState < 2) : completes (.samplesLost p) s fun t =>
      (t.tchSt p.val).lost = true ∧ (t.tchSt p.val).owed = 0 ∧ (t.tchSt p.val).contacts = [] ∧ (t.tchSt p.val).init = some 0 := by
  obtain ⟨u, hexec⟩ := exec_samplesLost hen hm hl hp
  have hmark : (u.lostMarked p.val).tchSt p.val = { u.tchSt p.val with lost := true } := State.tchSt_setTch_self ..
  generalize u.lostMarked p.val = v at hexec hmark
  have hstart := v.captureStart_spec p.val
  rw [hmark] at hstart
  refine completes_of hexec ?_
  rw [hstart]
  exact ⟨rfl, rfl, rfl, rfl⟩

end

/-! ### Key frames (R354 to R356) -/

section
variable (s : State)

/-- Where the drift period of the keys stands. -/
def State.keyDrift (s : State) : Nat := s.keys.drift

theorem keyDrift_of_rim {s t : State} (h : t.rim = s.rim) : t.keyDrift = s.keyDrift := congrArg KeySt.drift (rim_keys h)

@[simp] theorem State.keyDrift_wr (q v : Nat) (f : Fld) : (s.wr q f v).keyDrift = s.keyDrift := rfl
@[simp] theorem State.keyDrift_wb (q : Nat) (f : Fld) (b : Bool) : (s.wb q f b).keyDrift = s.keyDrift := rfl

@[simp] theorem State.keyDrift_emit (q code : Nat) (data : List Nat) : (s.emit q code data).keyDrift = s.keyDrift :=
  keyDrift_of_rim (State.rim_emit ..)

@[simp] theorem State.keyDrift_ite (c : Prop) [Decidable c] (t u : State) :
    (if c then t else u).keyDrift = if c then t.keyDrift else u.keyDrift := by
  split <;> rfl

@[simp] theorem State.keyDrift_setKeys (k : KeySt) : State.keyDrift { s with keys := k } = k.drift := rfl

@[simp] theorem State.drift_keys : s.keys.drift = s.keyDrift := rfl

theorem State.keyDrift_foldl {α : Type} {step : State → α → State} (h : ∀ u x, (step u x).keyDrift = u.keyDrift) (l : List α) :
    (l.foldl step s).keyDrift = s.keyDrift := foldl_leaves (g := State.keyDrift) (fun u x _ => h u x) s

@[simp] theorem State.keyDrift_keyReport (kind id : Nat) (q : Bool) (strength : Nat) :
    (s.keyReport kind id q strength).keyDrift = s.keyDrift := by
  have hput : ∀ (n q' : Nat) (item : List Nat), (State.rptPut { s with freeCtr := n } q' item).2.keyDrift = s.keyDrift :=
    fun n q' item => (keyDrift_of_rim (State.rim_rptPut ..)).trans rfl
  simp [State.keyReport, hput]

@[simp] theorem State.keyDrift_keyFirst (kind id key strength : Nat) :
    (s.keyFirst kind id key strength).keyDrift = s.keyDrift := by
  simp [State.keyFirst]

@[simp] theorem State.keyDrift_keyOff (k count : Nat) (d : Int) : (s.keyOff k count d).keyDrift = s.keyDrift := by
  unfold State.keyOff
  dsimp only
  split
  · exact (State.keyDrift_emit ..).trans rfl
  · split
    · rfl
    · exact (State.keyDrift_keyReport ..).trans rfl

@[simp] theorem State.keyDrift_keyChannel (k count : Nat) (driftNow : Bool) :
    (s.keyChannel k count driftNow).keyDrift = s.keyDrift := by
  unfold State.keyChannel
  extract_lets on off timeout u d
  have hu : u.keyDrift = s.keyDrift := rfl
  clear_value u
  split
  · split
    · exact (State.keyDrift_keyOff ..).trans hu
    · split
      · refine (State.keyDrift_emit ..).trans ((State.keyDrift_ite ..).trans ?_)
        rw [State.keyDrift_keyReport, ite_self, hu]
      · exact hu
  · split
    · refine Eq.trans (State.keyDrift_setKeys _ _) ((State.keyDrift_ite ..).trans ?_)
      rw [State.keyDrift_keyFirst, ite_self, hu]
    · split
      · exact hu
      · split
        · split
          · exact (State.keyDrift_emit ..).trans hu
          · exact hu
        · split
          · exact hu
          · exact hu

@[simp] theorem State.keyDrift_keyGroup (ds : Nat → Int) (g first n kind : Nat) :
    (s.keyGroup ds g first n kind).keyDrift = s.keyDrift := by
  unfold State.keyGroup
  extract_lets off on dOf k near den numr pos active supp
  clear_value pos
  split
  · split
    · refine Eq.trans (State.keyDrift_wb _ _ _ _) (Eq.trans (State.keyDrift_setKeys _ _) ?_)
      exact (State.keyDrift_ite ..).trans (by rw [State.keyDrift_keyReport, ite_self])
    · split
      · exact (State.keyDrift_ite ..).trans (by rw [State.keyDrift_keyReport, ite_self])
      · rfl
  · split
    · exact State.keyDrift_keyFirst ..
    · rfl

end

section
variable {s : State} {l : List Nat}

theorem exec_keyFrame_disabled (h : s.enabled keyP = false) : exec (.keyFrame l) s = .next s :=
  congrArg Host.Outcome.next (if_pos (by simp [h]))

theorem exec_keyFrame (h : s.enabled keyP = true) : ∃ (c : Prop) (hd : Decidable c),
    exec (.keyFrame l) s = .next (@ite _ c hd ((s.keyFrame l).wake 1) (s.keyFrame l)) :=
  ⟨_, _, congrArg Host.Outcome.next (if_neg (by simp [h]))⟩

theorem State.keys_wake (s : State) (cause : Nat) : (s.wake cause).keys = s.keys := by
  have hpin : ∀ (c : Prop) [Decidable c] (u : State) (o : Out), (if c then u.emitOut o else u).keys = u.keys := by
    intro c _ u o
    split <;> rfl
  unfold State.wake
  dsimp only
  split
  · rfl
  · split
    · exact (hpin _ _ _).trans rfl
    · split
      · exact (hpin _ _ _).trans rfl
      · exact (hpin _ _ _).trans rfl

/-- A wake leaves what a key frame has made of the keys. -/
theorem keyFrame_leaves (h : s.enabled keyP = true) : completes (.keyFrame l) s fun t => t.keys = (s.keyFrame l).keys := by
  obtain ⟨c, hd, hexec⟩ := exec_keyFrame (l := l) h
  refine completes_of hexec ?_
  by_cases hc : c
  · rw [if_pos hc]
    exact State.keys_wake ..
  · rw [if_neg hc]

theorem State.keyFrame_capture {i : Nat} (h : s.keys.init = some i) :
    (s.keyFrame l).keys.init = if keyInit ≤ i + 1 then none else some (i + 1) := by
  unfold State.keyFrame
  rw [h]
  dsimp only
  split
  · exact congrArg KeySt.init (rim_keys (State.rim_emit ..))
  · rfl

theorem State.keyFrame_drift (h : s.keys.init = none) : (s.keyFrame l).keyDrift =
    if max 1 (s.rd keyP TCH_KEY_ANTI_DRIFT) ≤ s.keys.drift + 1 then 0 else s.keys.drift + 1 := by
  unfold State.keyFrame
  rw [h]
  dsimp only
  refine (State.keyDrift_foldl _ (fun u g => State.keyDrift_keyGroup ..) _).trans ?_
  refine (State.keyDrift_foldl _ (fun u k => State.keyDrift_keyChannel ..) _).trans ?_
  simp only [State.keyDrift_setKeys, decide_eq_true_eq]

end

/-- Settles O47: scan frames, lost samples and key frames. That a key page captures its baselines over keyInit frames, and that one
count of frames paces the drift of all its channels, is the model's choice (log 92). -/
theorem touchFrames : Obligations.TouchFrames := by
  unfold Obligations.TouchFrames
  refine fun s => ⟨fun p => ⟨exec_scanFrameStart_not, scanFrameStart_begins, fun m a b => exec_scanFrameEnd_none,
    fun m a b => scanFrameEnd_ends, exec_samplesLost_not, samplesLost_captures⟩, fun l => exec_keyFrame_disabled,
    fun l i h hi => ?_, fun l h hi => ?_⟩
  · obtain ⟨t, hexec, hkeys⟩ := keyFrame_leaves (l := l) h
    exact completes_of hexec ((congrArg KeySt.init hkeys).trans (State.keyFrame_capture hi))
  · obtain ⟨t, hexec, hkeys⟩ := keyFrame_leaves (l := l) h
    exact completes_of hexec ((congrArg KeySt.drift hkeys).trans (State.keyFrame_drift hi))

end Sys2Proof.Machine
end

section
/-! PROOFS. Claims (O48): refuted by a heartbeat in a state whose frame counter stands past its 32 bits. -/

set_option autoImplicit false

namespace Sys2Proof.Machine

/-- The state after reset with the MSS in service and a site record that names NET port 0, which is not up; the frame counter of
that port holds 2 ^ 32, one more than its 32 bits can. -/
def overfullCounter : State :=
  { State.reset with
    mss := { State.reset.mss with hold := 0, site := List.replicate 0x30 0 ++ [1, 0, 0, 0] }
    regs := [(fkey 0 SYS_NODE_VALID, 1), (fkey mssP MSS_BOOT_STAGE, 6), (fkey (pg .net 0) NET_TX_FRAMES_COUNT, 2 ^ 32)] }

/-- What a command makes of a field, where it answers a state. -/
def readAfter (c : Instr) (s : State) (p : Nat) (f : Fld) : Option Nat :=
  match exec c s with
  | .next t => some (t.rd p f)
  | _ => none

theorem readAfter_of_exec {c : Instr} {s t : State} (h : exec c s = .next t) (p : Nat) (f : Fld) :
    readAfter c s p f = some (t.rd p f) := by
  unfold readAfter; rw [h]

/-- No port is up, so the heartbeat is not sent and the counter stays as it stands. -/
theorem readAfter_heartbeat_overfullCounter :
    readAfter .heartbeat overfullCounter (pg .net 0) NET_TX_FRAMES_COUNT = some (2 ^ 32) := by decide

theorem heartbeat_sent_overfullCounter :
    overfullCounter.on 0 SYS_NODE_VALID = true ∧ overfullCounter.siteNum 0x30 4 ≠ 0 ∧ overfullCounter.wrongSite = false := by
  decide

theorem satAdd_overfullCounter_lt (n : Nat) :
    satAdd NET_TX_FRAMES_COUNT.w (overfullCounter.rd (pg .net 0) NET_TX_FRAMES_COUNT) n < 2 ^ 32 :=
  satAdd_lt 32 _ n

/-- Refutes O48: its last clause says that after a heartbeat every NET port's frame counter reads the saturating sum of its old value and
0 or 1, also on a port that is not up. `State` allows a stored value past the field's width; on such a port nothing is written, the counter
goes on reading 2 ^ 32, and the saturating sum is at most 2 ^ 32 − 1. A write stores its value modulo the field's width, so the fault is the
clause's missing premise on the state, not a command's effect. The other clauses, among them the model's choices that they rest on (the heartbeat's interval
taken at the nearest value in range, log entry 164; what SET_CLAIM messages are heard, log entry 163; the two uses of SET_CLAIM, log
entries 100 and 101), have no part in the refutation. -/
theorem not_claims : ¬ Obligations.Claims := by
  intro h
  obtain ⟨-, -, -, -, -, -, -, -, -, -, -, -, hbeat⟩ := h .mss 0 overfullCounter
  obtain ⟨t, hexec, -, -, -, hsent, -⟩ := hbeat (by decide) (by decide)
  obtain ⟨hvalid, hnets, hsite⟩ := heartbeat_sent_overfullCounter
  obtain ⟨-, -, -, hcount⟩ := hsent hvalid hnets hsite
  have hread : t.rd (pg .net 0) NET_TX_FRAMES_COUNT = 2 ^ 32 :=
    Option.some.inj ((readAfter_of_exec hexec _ _).symm.trans readAfter_heartbeat_overfullCounter)
  exact (satAdd_overfullCounter_lt _).ne ((hcount 0 (by decide)).symm.trans hread)

end Sys2Proof.Machine
end

section
/-! PROOFS. What the team keeps while frames go out on the yoke, and what a frame sent changes of the channels (R370, R371). -/

set_option autoImplicit false

namespace Sys2Proof.Machine

/-! ### What the team keeps through its traffic -/

/-- What the traffic of the yoke leaves alone: check values that wait, the count of merged entries, the latest MARK and J. -/
structure Books where
  own : List ChkVal
  partner : List ChkVal
  k : Nat
  mark : Nat
  join : Option Nat

def State.books (s : State) : Books := ⟨s.yoke.own, s.yoke.partner, s.yoke.k, s.yoke.mark, s.yoke.join⟩

section
variable {s t : State}

theorem State.books_of_yoke (h : t.yoke = s.yoke) : t.books = s.books := by simp only [State.books, h]

variable (h : t.books = s.books)
include h

theorem books_own : t.yoke.own = s.yoke.own := congrArg Books.own h
theorem books_partner : t.yoke.partner = s.yoke.partner := congrArg Books.partner h
theorem books_k : t.yoke.k = s.yoke.k := congrArg Books.k h
theorem books_mark : t.yoke.mark = s.yoke.mark := congrArg Books.mark h
theorem books_join : t.yoke.join = s.yoke.join := congrArg Books.join h

end

section
variable (s : State) (n p v : Nat) (f : Fld)

@[simp] theorem State.books_wr : (s.wr p f v).books = s.books := rfl
@[simp] theorem State.books_wb (b : Bool) : (s.wb p f b).books = s.books := rfl
@[simp] theorem State.books_cnt : (s.cnt p f v).books = s.books := rfl
@[simp] theorem State.books_emitOut (o : Out) : (s.emitOut o).books = s.books := rfl
@[simp] theorem State.books_setVc (x : YkVc) : (s.setVc v x).books = s.books := rfl

@[simp] theorem State.books_emit (code : Nat) (data : List Nat) : (s.emit p code data).books = s.books :=
  State.books_of_yoke (State.yoke_emit s p code data)

@[simp] theorem State.books_ite (c : Prop) [Decidable c] (a b : State) :
    (if c then a else b).books = if c then a.books else b.books := by
  split <;> rfl

@[simp] theorem State.books_foldl {α : Type} {step : State → α → State} (l : List α)
    (h : ∀ u x, (step u x).books = u.books) : (l.foldl step s).books = s.books := by
  induction l generalizing s with
  | nil => rfl
  | cons x l ih => rw [List.foldl_cons, ih, h]

/-! #### Messages, and the loss of the link -/

@[simp] theorem State.books_netDrop : (s.netDrop n).books = s.books := by simp [State.netDrop]

@[simp] theorem State.books_netDatagram (dest : Dest) (bytes : List Nat) : (s.netDatagram n dest bytes).books = s.books := by
  simp [State.netDatagram]

@[simp] theorem State.books_ymSend (typ : Nat) (body : List Nat) : (s.ymSend typ body).books = s.books := by
  unfold State.ymSend
  split
  · rfl
  · exact s.books_netDatagram ..

@[simp] theorem State.books_report (kind obj id frame own partner withheld : Nat) :
    (s.report kind obj id frame own partner withheld).books = s.books := s.books_ymSend ..

@[simp] theorem State.books_setTbState : (s.setTbState n).books = s.books := by
  unfold State.setTbState
  dsimp only
  split
  · rfl
  · exact State.books_emit ..

@[simp] theorem State.books_wheelSplit : s.wheelSplit.books = s.books := by simp [State.wheelSplit]

@[simp] theorem State.books_ykState : (s.ykState n).books = s.books := by
  unfold State.ykState
  dsimp only
  split
  · rfl
  · exact State.books_emit ..

@[simp] theorem State.books_ykClear : s.ykClear.books = s.books := by
  unfold State.ykClear
  exact State.books_foldl _ _ fun u v => by simp

@[simp] theorem State.books_toIngress (x : PktSlot) : (s.toIngress n x).books = s.books := by
  unfold State.toIngress
  split <;> rfl

@[simp] theorem State.books_laterGo : s.laterGo.books = s.books := by
  unfold State.laterGo
  exact State.books_foldl _ _ fun u e => State.books_toIngress ..

@[simp] theorem State.books_mergeSplit (wasSeq : Bool) : (s.mergeSplit wasSeq).books = s.books := rfl

@[simp] theorem State.books_retryAt : (s.yk fun y => { y with retryAt := n }).books = s.books := rfl

@[simp] theorem State.books_ykDown (cause : Nat) : (s.ykDown cause).books = s.books := by simp [State.ykDown]

/-! #### Frames -/

@[simp] theorem State.books_ykEmitFor (x : YkFrame) (replay : Bool) (av : Option Nat) (cv : Nat) :
    (s.ykEmitFor x replay av cv).books = s.books := by
  have hreplay : ∀ u : State, (if replay then u.cnt ykP YK_REPLAY_COUNT 1 else u).books = u.books := fun u => by simp
  unfold State.ykEmitFor
  cases av <;> exact hreplay _

@[simp] theorem State.books_ykEmit (x : YkFrame) (replay : Bool) : (s.ykEmit x replay).books = s.books := State.books_ykEmitFor ..

@[simp] theorem State.books_ykPush (typ : Nat) (data : List Nat) : (s.ykPush v typ data).books = s.books := by
  simp [State.ykPush]

@[simp] theorem State.books_ykSend (typ : Nat) (data : List Nat) : (s.ykSend v typ data).books = s.books := by
  simp [State.ykSend]

/-! #### Divergences, and the end of a join -/

@[simp] theorem State.books_reportDiv (kind obj id frame own partner : Nat) :
    (s.reportDiv kind obj id frame own partner).books = s.books := by
  have hyk : ∀ g : YokeSt → Store RepRate, (s.yk fun y => { y with reports := g y }).books = s.books := fun _ => rfl
  unfold State.reportDiv
  extract_lets x y
  split
  · exact (State.books_report ..).trans (hyk _)
  · exact hyk _

@[simp] theorem State.books_divergeOn (c : Option Nat) (kind obj id n own partner : Nat) :
    (s.divergeOn c kind obj id n own partner).books = s.books := by
  unfold State.divergeOn
  extract_lets u w x
  have hw : w.books = s.books := State.books_emit ..
  have hx : x.books = s.books := by cases c <;> exact hw
  rw [State.books_ite, State.books_reportDiv, ite_self, hx]

@[simp] theorem State.books_missing (x : ChkVal) (mine : Bool) : (s.missing x mine).books = s.books := State.books_divergeOn ..

@[simp] theorem State.books_inStepCheck : s.inStepCheck.books = s.books := by
  unfold State.inStepCheck
  split
  · rfl
  · split
    · rfl
    · rfl
    · simp

end

/-! ### A feed's decode restarts: the team and the clock -/

/-- The yoke and the clock. -/
def State.teamClock (s : State) : YokeSt × TimeSt := (s.yoke, s.time)

section
variable (s : State) (f n g : Nat)

@[simp] theorem State.teamClock_wr (p v : Nat) (x : Fld) : (s.wr p x v).teamClock = s.teamClock := rfl
@[simp] theorem State.teamClock_wb (p : Nat) (x : Fld) (b : Bool) : (s.wb p x b).teamClock = s.teamClock := rfl
@[simp] theorem State.teamClock_setDecFeed (x : DecFeed) : (s.setDecFeed f x).teamClock = s.teamClock := rfl
@[simp] theorem State.teamClock_yardLedger (l : Store (Nat × Nat)) :
    State.teamClock { s with yardLedger := l } = s.teamClock := rfl

@[simp] theorem State.teamClock_ite (c : Prop) [Decidable c] (a b : State) :
    (if c then a else b).teamClock = if c then a.teamClock else b.teamClock := by
  split <;> rfl

@[simp] theorem State.teamClock_foldl {α : Type} {step : State → α → State} (l : List α)
    (h : ∀ u x, (step u x).teamClock = u.teamClock) : (l.foldl step s).teamClock = s.teamClock := by
  induction l generalizing s with
  | nil => rfl
  | cons x l ih => rw [List.foldl_cons, ih, h]

@[simp] theorem State.teamClock_loftPut (l : List Nat) : (s.loftPut n l).teamClock = s.teamClock :=
  eq_of_core State.teamClock (fun _ => rfl) (by simp)

@[simp] theorem State.teamClock_bayToFree : (s.bayToFree n).teamClock = s.teamClock := rfl

@[simp] theorem State.teamClock_holdDrop : (s.holdDrop n g).teamClock = s.teamClock := by simp [State.holdDrop]

@[simp] theorem State.teamClock_ledgerDrop : (s.ledgerDrop n).teamClock = s.teamClock := by
  unfold State.ledgerDrop
  split <;> simp

@[simp] theorem State.teamClock_bayReturn : (s.bayReturn n).teamClock = s.teamClock := by simp [State.bayReturn]

@[simp] theorem State.teamClock_ownerRelease : (s.ownerRelease n g).teamClock = s.teamClock := by simp [State.ownerRelease]

@[simp] theorem State.teamClock_marksClear (m : Nat) : (s.marksClear n g m).teamClock = s.teamClock := by simp [State.marksClear]

@[simp] theorem State.teamClock_ctxPut (off v : Nat) : (s.ctxPut f off v n).teamClock = s.teamClock := by
  unfold State.ctxPut State.loftPutLE
  split <;> simp

@[simp] theorem State.teamClock_decPrivPut (l : List Nat) : (s.decPrivPut f l).teamClock = s.teamClock := by
  unfold State.decPrivPut
  split <;> simp

@[simp] theorem State.teamClock_decPutState (st : Nat) (chain : Bool) : (s.decPutState f st chain).teamClock = s.teamClock := by
  simp [State.decPutState]

@[simp] theorem State.teamClock_decView : (s.decView f).teamClock = s.teamClock := by
  unfold State.decView
  dsimp only
  split <;> simp

@[simp] theorem State.teamClock_decRestart (flush : Bool) : (s.decRestart f flush).teamClock = s.teamClock := by
  simp [State.decRestart]

end


/-! ### The channels of the yoke, as frames go out (R370) -/

/-- A channel once a header has carried its ACK (`acked`) or its credit count (`counted`). -/
def YkVc.told (x : YkVc) (acked counted : Bool) : YkVc :=
  { x with ackDue := x.ackDue && !acked, nak := x.nak && !acked, owed := if counted then 0 else x.owed }

section
variable (x : YkVc) (a c : Bool)

@[simp] theorem YkVc.told_ff : x.told false false = x := by simp [YkVc.told]
theorem YkVc.told_next : (x.told a c).next = x.next := rfl
theorem YkVc.told_unacked : (x.told a c).unacked = x.unacked := rfl
theorem YkVc.told_wait : (x.told a c).wait = x.wait := rfl
theorem YkVc.told_progress : (x.told a c).progress = x.progress := rfl

end

section
variable {s : State} {u v : Nat}

@[simp] theorem State.vc_setVc_self (x : YkVc) : (s.setVc v x).vc v = x := Store.getD_setD_self _ _ _ _

theorem State.vc_setVc_ne (h : u ≠ v) (x : YkVc) : (s.setVc v x).vc u = s.vc u := Store.getD_setD_ne h _ _ _ _

theorem State.vc_congr {t : State} (h : t.yoke.vcs = s.yoke.vcs) (u : Nat) : t.vc u = s.vc u := by
  unfold State.vc
  rw [h]

/-- The ACK of a channel on its way. -/
def State.ackTold (s : State) : Option Nat → State
  | some v => s.setVc v { s.vc v with ackDue := false, nak := false }
  | none => s

theorem State.vc_ackTold (s : State) (av : Option Nat) (u : Nat) : (s.ackTold av).vc u = (s.vc u).told (decide (av = some u)) false := by
  cases av with
  | none => simp [State.ackTold]
  | some v =>
    unfold State.ackTold
    by_cases h : u = v
    · subst h
      simp [YkVc.told]
    · rw [State.vc_setVc_ne h]
      simp [Ne.symm h]

/-- The count of a channel's credits on its way. -/
def State.countTold (s : State) (cv : Nat) : State := s.setVc cv { s.vc cv with owed := 0 }

theorem State.vc_countTold (s : State) (cv u : Nat) : (s.countTold cv).vc u = (s.vc u).told false (decide (cv = u)) := by
  unfold State.countTold
  by_cases h : u = cv
  · subst h
    simp [YkVc.told]
  · rw [State.vc_setVc_ne h]
    simp [Ne.symm h]

/-- What a frame's header changes: what is due of its two channels, and the count of replays. -/
def State.headTold (s : State) (replay : Bool) (av : Option Nat) (cv : Nat) : State :=
  let t := (s.ackTold av).countTold cv
  if replay then t.cnt ykP YK_REPLAY_COUNT 1 else t

theorem State.ykEmitFor_eq (s : State) (f : YkFrame) (replay : Bool) (av : Option Nat) (cv : Nat) : s.ykEmitFor f replay av cv =
    ((s.headTold replay av cv).yk fun y => { y with rot := y.rot + 1 }).emitOut
      (.yokeFrame (s.rd ykP YK_CFG_QUAD * 4 + s.yoke.rot % max 1 s.yoke.width) (s.ykBytes f replay av cv)) := by
  cases av <;> rfl

theorem State.yoke_headTold (s : State) (replay : Bool) (av : Option Nat) (cv : Nat) :
    (s.headTold replay av cv).yoke = ((s.ackTold av).countTold cv).yoke := by
  cases replay <;> rfl

theorem State.out_headTold (s : State) (replay : Bool) (av : Option Nat) (cv : Nat) : (s.headTold replay av cv).out = s.out := by
  cases replay <;> cases av <;> rfl

theorem State.vc_ykEmitFor (s : State) (f : YkFrame) (replay : Bool) (av : Option Nat) (cv u : Nat) :
    (s.ykEmitFor f replay av cv).vc u = (s.vc u).told (decide (av = some u)) (decide (cv = u)) := by
  have hvc : (s.ykEmitFor f replay av cv).yoke.vcs = ((s.ackTold av).countTold cv).yoke.vcs := by
    rw [State.ykEmitFor_eq, ← State.yoke_headTold s replay]
    rfl
  rw [State.vc_congr hvc, State.vc_countTold, State.vc_ackTold]
  simp [YkVc.told]

theorem State.out_ykEmitFor (s : State) (f : YkFrame) (replay : Bool) (av : Option Nat) (cv : Nat) :
    ∃ a b, (s.ykEmitFor f replay av cv).out = s.out ++ [.yokeFrame a b] := by
  rw [State.ykEmitFor_eq, ← State.out_headTold s replay av cv]
  exact ⟨_, _, rfl⟩

theorem State.vc_ykEmit (s : State) (f : YkFrame) (replay : Bool) (u : Nat) :
    ∃ a c, (s.ykEmit f replay).vc u = (s.vc u).told a c := ⟨_, _, s.vc_ykEmitFor f replay _ _ u⟩

/-! #### A frame sent with credit (R371) -/

/-- The frame that a push sends, and the channel once it is kept for replay. -/
def State.pushed (s : State) (v typ : Nat) (data : List Nat) : YkVc :=
  let x := s.vc v
  { x with
    next := (x.next + 1) % 2 ^ 32
    unacked := x.unacked ++ [⟨v, typ, x.next, data, none, 0⟩]
    progress := if x.unacked.isEmpty then s.time.run else x.progress }

/-- The credits that a frame takes. -/
def State.credTaken (s : State) (v n : Nat) : State :=
  (s.wr ykP (YK_VC_CRED_HELD v) (s.rd ykP (YK_VC_CRED_HELD v) - n)).wr ykP (YK_VC_CRED_OUT v) (s.rd ykP (YK_VC_CRED_OUT v) + n)

variable {typ : Nat} {data : List Nat}

theorem State.ykPush_eq (h : creditSum (s.vc v).unacked + creditsOf data.length ≤ s.rd ykP (YK_VC_BUF_UNITS v)) :
    ∃ f n, s.ykPush v typ data = ((s.credTaken v n).setVc v (s.pushed v typ data)).ykEmit f false := by
  refine ⟨_, _, if_neg (by omega)⟩

theorem State.ykPush_spec (h : creditSum (s.vc v).unacked + creditsOf data.length ≤ s.rd ykP (YK_VC_BUF_UNITS v)) :
    (∃ a b, (s.ykPush v typ data).out = s.out ++ [.yokeFrame a b]) ∧
      ((s.ykPush v typ data).vc v).next = ((s.vc v).next + 1) % 2 ^ 32 ∧
      ((s.ykPush v typ data).vc v).unacked.length = (s.vc v).unacked.length + 1 := by
  obtain ⟨f, n, hpush⟩ := State.ykPush_eq (typ := typ) h
  obtain ⟨a, b, hout⟩ := State.out_ykEmitFor ((s.credTaken v n).setVc v (s.pushed v typ data)) f false _ _
  obtain ⟨d, c, hvc⟩ := ((s.credTaken v n).setVc v (s.pushed v typ data)).vc_ykEmit f false v
  rw [State.vc_setVc_self] at hvc
  rw [hpush, hvc]
  exact ⟨⟨a, b, hout⟩, rfl, List.length_append⟩

/-- With credit and nothing waiting, a payload goes out at once. -/
theorem State.ykSend_eq_ykPush (hlink : s.yoke.link = true) (hwait : (s.vc v).wait = [])
    (hcred : creditsOf (padTo ((data.length + 3) / 4 * 4) data).length ≤ s.rd ykP (YK_VC_CRED_HELD v)) :
    s.ykSend v typ data = s.ykPush v typ (padTo ((data.length + 3) / 4 * 4) data) := by
  unfold State.ykSend
  simp only [hlink, hwait, hcred, Bool.not_true, Bool.false_eq_true, if_false, List.isEmpty_nil, true_and, if_true]

end

end Sys2Proof.Machine
end

section
/-! PROOFS. The team (O50): time, joining, forwarding, merging, marks and check values (R374 to R378, R381). -/

set_option autoImplicit false

namespace Sys2Proof.Machine

/-! ### Time and marks sent (R376, R377) -/

section
variable {s : State}

theorem exec_yokeTimeSend_alone (h : s.yoke.link = false ∨ s.inTeam = false) : exec .yokeTimeSend s = .next s := by
  show execYokeTimeSend s = _
  exact congrArg Host.Outcome.next (if_pos (by simpa using h))

/-- The TIME payload. -/
def State.timeBytes (s : State) : List Nat :=
  le s.now 8 ++ le (s.yoke.t1p.getD (0, 0)).1 8 ++ le (s.yoke.t1p.getD (0, 0)).2 8

theorem exec_yokeTimeSend (hlink : s.yoke.link = true) (hteam : s.inTeam = true) :
    exec .yokeTimeSend s = .next (s.ykSend 2 3 s.timeBytes) := by
  show execYokeTimeSend s = _
  exact congrArg Host.Outcome.next (if_neg (by simp [hlink, hteam]))

end

section
variable {s : State}

theorem length_timeBytes : (padTo ((s.timeBytes.length + 3) / 4 * 4) s.timeBytes).length = 24 := by
  simp [State.timeBytes, padTo, leBytes_length]

theorem yokeTimeSend_sends (hlink : s.yoke.link = true) (hteam : s.inTeam = true) (hwait : (s.vc 2).wait = [])
    (hcred : 1 ≤ s.rd ykP (YK_VC_CRED_HELD 2)) (hroom : creditSum (s.vc 2).unacked + 1 ≤ s.rd ykP (YK_VC_BUF_UNITS 2)) :
    completes .yokeTimeSend s fun t => (∃ a b, t.out = s.out ++ [.yokeFrame a b]) ∧
      (t.vc 2).next = ((s.vc 2).next + 1) % 2 ^ 32 ∧ (t.vc 2).unacked.length = (s.vc 2).unacked.length + 1 := by
  have hunits : creditsOf (padTo ((s.timeBytes.length + 3) / 4 * 4) s.timeBytes).length = 1 :=
    congrArg creditsOf length_timeBytes
  have hsend := State.ykSend_eq_ykPush (typ := 3) hlink hwait (by rw [hunits]; exact hcred)
  exact completes_of ((exec_yokeTimeSend hlink hteam).trans (congrArg Host.Outcome.next hsend))
    (State.ykPush_spec (by rw [hunits]; exact hroom))

theorem exec_mergeMarkSend_quiet (h : s.inTeam = false ∨ s.isSeq = false ∨ s.yoke.hand = 1) :
    exec .mergeMarkSend s = .next s := by
  show execMergeMarkSend s = _
  exact congrArg Host.Outcome.next (if_pos (by simpa using h))

/-- In PAIRED the feeds' state at the mark is kept (R374). -/
def State.markKept (s : State) : State :=
  if s.yoke.state = 3 then s.yk fun y => { y with snaps := Store.put 20 s.snap2 y.snaps } else s

/-- A mark at `t`: marks never go back. -/
def State.markPut (s : State) (t : Nat) : State := s.yk fun y => { y with mark := max t y.mark }

theorem exec_mergeMarkSend (hteam : s.inTeam = true) (hseq : s.isSeq = true) (hhand : s.yoke.hand ≠ 1) :
    exec .mergeMarkSend s = .next ((s.markKept.markPut (s.now - 1000 * s.rd ykP YK_MERGE_WIN)).ykSend 0 3
      (le (s.now - 1000 * s.rd ykP YK_MERGE_WIN) 8 ++ le s.markKept.yoke.k 4 ++ le 0 4)) := by
  show execMergeMarkSend s = _
  exact congrArg Host.Outcome.next (if_neg (by simp [hteam, hseq, hhand]))

theorem State.mark_markKept (s : State) : s.markKept.yoke.mark = s.yoke.mark := by
  unfold State.markKept
  split <;> rfl

theorem State.mark_markPut_ykSend (s : State) (t v typ : Nat) (data : List Nat) :
    ((s.markPut t).ykSend v typ data).yoke.mark = max t s.yoke.mark := books_mark (State.books_ykSend ..)

theorem mergeMarkSend_mark (hteam : s.inTeam = true) (hseq : s.isSeq = true) (hhand : s.yoke.hand ≠ 1) :
    completes .mergeMarkSend s fun t => t.yoke.mark = max (s.now - 1000 * s.rd ykP YK_MERGE_WIN) s.yoke.mark := by
  have hexec := exec_mergeMarkSend hteam hseq hhand
  generalize le (s.now - 1000 * s.rd ykP YK_MERGE_WIN) 8 ++ le s.markKept.yoke.k 4 ++ le 0 4 = d at hexec
  generalize s.now - 1000 * s.rd ykP YK_MERGE_WIN = t at hexec ⊢
  exact completes_of hexec ((State.mark_markPut_ykSend _ _ _ _ _).trans (congrArg (max t) s.mark_markKept))

/-! ### Joining (R374, R375) -/

theorem State.state_ykState (s : State) (new : Nat) : (s.ykState new).yoke.state = new := by
  have hlook := s.ykLook_ykState new
  simp only [State.ykLook, Prod.mk.injEq] at hlook
  obtain ⟨-, hstate, -⟩ := hlook
  exact hstate

theorem exec_yokeJoinStart_early (h : s.yoke.offOk = none ∨ s.yoke.state ≠ 3 ∨ s.time.pend.isSome = true) :
    exec .yokeJoinStart s = .next s := by
  show execYokeJoinStart s = _
  unfold execYokeJoinStart
  split
  · rfl
  next t ht =>
    rw [ht] at h
    exact congrArg Host.Outcome.next (if_pos (by simpa using h))

/-- The wheel's feeds restart their decode. -/
def State.wheelRestart (s : State) : State :=
  if s.isSeq then s else s.feeds.foldl (fun s e => if (s.feedCtx e.1).isSome then s.decRestart e.1 false else s) s

/-- J is taken. -/
def State.joinTaken (s : State) (late : Option (List (Nat × PktSlot))) : State :=
  s.yk fun y => { y with join := some y.mark, clean := [], runs := [], later := late }

theorem State.time_joinTaken (s : State) (late : Option (List (Nat × PktSlot))) : (s.joinTaken late).time = s.time := rfl

theorem State.join_joinTaken (s : State) (late : Option (List (Nat × PktSlot))) :
    (s.joinTaken late).yoke.join = some s.yoke.mark := rfl

/-- The list of merged entries that wait for the feeds' state, where the wheel has not got it. -/
def State.joinLate (s : State) : Option (List (Nat × PktSlot)) :=
  if !s.isSeq && (Store.find 21 s.yoke.snaps).isNone then some [] else none

theorem exec_yokeJoinStart {a : Nat} (hoff : s.yoke.offOk = some a) (hstate : s.yoke.state = 3) (hpend : s.time.pend = none) :
    exec .yokeJoinStart s = .next (((s.advanceRun (a + ns 1000000000)).joinTaken
      (s.advanceRun (a + ns 1000000000)).joinLate).ykState 4).wheelRestart.inStepCheck := by
  show execYokeJoinStart s = _
  unfold execYokeJoinStart
  rw [hoff]
  exact congrArg Host.Outcome.next (if_neg (by simp [hstate, hpend]))

@[simp] theorem State.teamClock_wheelRestart (s : State) : s.wheelRestart.teamClock = s.teamClock := by
  simp [State.wheelRestart]

theorem State.yoke_wheelRestart (s : State) : s.wheelRestart.yoke = s.yoke := congrArg Prod.fst s.teamClock_wheelRestart

theorem State.run_wheelRestart (s : State) : s.wheelRestart.time.run = s.time.run :=
  congrArg (fun x : YokeSt × TimeSt => x.2.run) s.teamClock_wheelRestart

/-- The check of a joining unit leaves it joining, or in step. -/
theorem State.state_inStepCheck (h : s.yoke.state = 4) : s.inStepCheck.yoke.state = 4 ∨ s.inStepCheck.yoke.state = 5 := by
  unfold State.inStepCheck
  rw [if_neg (by simp [h])]
  split
  · exact .inl h
  · exact .inl h
  · have hlook : (((s.ykState 5).emit ykP 0x4001 ([0, 0, 0, 0] ++ le (s.yoke.join.getD 0) 4)).report 18 0xFF 0xFFFF 0 0 0 0).ykLook =
        (s.yoke.link, 5, s.contact) := by
      rw [State.ykLook_report, State.ykLook_emit _ _ _ _ rfl, State.ykLook_ykState]
    exact .inr (congrArg (fun l => l.2.1) hlook)

theorem State.rim_inStepCheck (s : State) : s.inStepCheck.rim = s.rim := by
  unfold State.inStepCheck
  split
  · rfl
  · split
    · rfl
    · rfl
    · simp

theorem yokeJoinStart_joins {a : Nat} (hoff : s.yoke.offOk = some a) (hstate : s.yoke.state = 3) (hpend : s.time.pend = none) :
    completes .yokeJoinStart s fun t =>
      t.yoke.join = some s.yoke.mark ∧ (t.yoke.state = 4 ∨ t.yoke.state = 5) ∧ a + ns 1000000000 ≤ t.time.run := by
  have hexec := exec_yokeJoinStart hoff hstate hpend
  have hrun := s.le_run_advanceRun (a + ns 1000000000)
  have hmark : (s.advanceRun (a + ns 1000000000)).yoke = s.yoke := State.advanceRun_leaves State.yoke (fun _ _ _ => rfl) s _
  generalize s.advanceRun (a + ns 1000000000) = u at hexec hrun hmark
  generalize u.joinLate = late at hexec
  have hjoin : ((u.joinTaken late).ykState 4).wheelRestart.yoke.join = some s.yoke.mark := 
    ((congrArg YokeSt.join (State.yoke_wheelRestart _)).trans (books_join (State.books_ykState (u.joinTaken late) 4))).trans
      ((u.join_joinTaken late).trans (congrArg (fun y : YokeSt => some y.mark) hmark))
  have hfour : ((u.joinTaken late).ykState 4).wheelRestart.yoke.state = 4 := 
    (congrArg YokeSt.state (State.yoke_wheelRestart _)).trans (State.state_ykState _ 4)
  have htime : ((u.joinTaken late).ykState 4).wheelRestart.time.run = u.time.run := 
    (State.run_wheelRestart _).trans ((rim_run (State.rim_ykState (u.joinTaken late) 4)).trans
      (congrArg TimeSt.run (u.time_joinTaken late)))
  exact completes_of hexec ⟨(books_join (State.books_inStepCheck _)).trans hjoin, State.state_inStepCheck hfour,
    hrun.trans_eq ((rim_run (State.rim_inStepCheck _)).trans htime).symm⟩

end

/-! ### The sequencer's timers (R377, R378) -/

section
variable {s : State}

theorem exec_fwdDrop_none (h : takeFirst (fun (e : Nat × List Nat × Nat) => decide (e.1 = 1)) (s.vc 0).wait = none) :
    exec .fwdDrop s = .next s := by
  show execFwdDrop s = _
  simp only [execFwdDrop, h, done]

theorem State.vc_cnt (s : State) (p : Nat) (f : Fld) (n v : Nat) : (s.cnt p f n).vc v = s.vc v := rfl

theorem State.rd_setVc (s : State) (v : Nat) (x : YkVc) (p : Nat) (f : Fld) : (s.setVc v x).rd p f = s.rd p f := rfl

/-- A frame that has waited is dropped and counted: `l` goes on waiting. -/
def State.fwdDropped (s : State) (x : YkVc) (l : List (Nat × List Nat × Nat)) : State :=
  (s.setVc 0 { x with wait := l }).cnt ykP YK_FWD_DROP_COUNT 1

section
variable (x : YkVc) (l : List (Nat × List Nat × Nat)) (s : State)

theorem State.wait_fwdDropped : ((s.fwdDropped x l).vc 0).wait = l :=
  congrArg YkVc.wait ((State.vc_cnt ..).trans (State.vc_setVc_self (s := s) _))

theorem State.time_fwdDropped : (s.fwdDropped x l).time = s.time := rfl

theorem State.count_fwdDropped :
    (s.fwdDropped x l).rd ykP YK_FWD_DROP_COUNT = satAdd YK_FWD_DROP_COUNT.w (s.rd ykP YK_FWD_DROP_COUNT) 1 :=
  State.rd_cnt_self ..

end

theorem exec_fwdDrop {e : Nat × List Nat × Nat} {l : List (Nat × List Nat × Nat)}
    (h : takeFirst (fun (e : Nat × List Nat × Nat) => decide (e.1 = 1)) (s.vc 0).wait = some (e, l)) :
    exec .fwdDrop s = .next ((s.advanceRun (e.2.2 + ns 1000000)).fwdDropped (s.vc 0) l) := by
  show execFwdDrop s = _
  simp only [execFwdDrop, h, done, State.fwdDropped]

theorem fwdDrop_drops {e : Nat × List Nat × Nat} {l : List (Nat × List Nat × Nat)}
    (h : takeFirst (fun (e : Nat × List Nat × Nat) => decide (e.1 = 1)) (s.vc 0).wait = some (e, l)) :
    completes .fwdDrop s fun t => (t.vc 0).wait = l ∧ e.2.2 + ns 1000000 ≤ t.time.run ∧
      t.rd ykP YK_FWD_DROP_COUNT = satAdd YK_FWD_DROP_COUNT.w (s.rd ykP YK_FWD_DROP_COUNT) 1 := by
  have hexec := exec_fwdDrop h
  have hrun := s.le_run_advanceRun (e.2.2 + ns 1000000)
  have hread : (s.advanceRun (e.2.2 + ns 1000000)).rd ykP YK_FWD_DROP_COUNT = s.rd ykP YK_FWD_DROP_COUNT :=
    s.rd_advanceRun_above _ (by decide) _
  generalize s.advanceRun (e.2.2 + ns 1000000) = u at hexec hrun hread
  refine completes_of hexec ⟨u.wait_fwdDropped _ l, ?_, ?_⟩
  · rw [State.time_fwdDropped]
    exact hrun
  · rw [State.count_fwdDropped, hread]

theorem exec_mergeEmit_none (h : s.yoke.merge = [] ∨ s.yoke.hand = 1) : exec .mergeEmit s = .next s := by
  have hnone : (if s.yoke.hand = 1 then [] else s.yoke.merge) = [] := by
    rcases h with h | h <;> simp [h]
  show execMergeEmit s = _
  unfold execMergeEmit
  rw [hnone]

/-- The first pending entry taken, the merged entries counted on. -/
def State.mergeTaken (s : State) (l : List MergeEnt) : State :=
  s.yk fun y => { y with k := (s.yoke.k + 1) % 2 ^ 32, merge := l }

/-- MERGE goes to the partner of a team. -/
def State.mergeSent (s : State) (data : List Nat) : State := if !s.inTeam then s else s.ykSend 0 2 data

theorem exec_mergeEmit {e : MergeEnt} {l : List MergeEnt} (h : s.yoke.merge = e :: l) (hhand : s.yoke.hand ≠ 1) :
    ∃ data, exec .mergeEmit s =
      .next ((((s.advanceTo (e.m + 1000 * s.rd ykP YK_MERGE_WIN)).mergeTaken l).mergeSent data).toIngress e.m e.pkt) := by
  have hsome : (if s.yoke.hand = 1 then [] else s.yoke.merge) = e :: l := by rw [if_neg hhand, h]
  show ∃ data, execMergeEmit s = _
  unfold execMergeEmit
  rw [hsome]
  exact ⟨_, rfl⟩

theorem State.k_mergeTaken (s : State) (l : List MergeEnt) : (s.mergeTaken l).yoke.k = (s.yoke.k + 1) % 2 ^ 32 := rfl

theorem State.rim_mergeTaken (s : State) (l : List MergeEnt) : (s.mergeTaken l).rim = s.rim := rfl

theorem State.merge_mergeTaken (s : State) (l : List MergeEnt) : (s.mergeTaken l).yoke.merge = l := rfl

theorem State.inTeam_mergeTaken (s : State) (l : List MergeEnt) : (s.mergeTaken l).inTeam = s.inTeam := rfl

theorem State.mergeSent_alone (h : s.inTeam = false) (data : List Nat) : s.mergeSent data = s := if_pos (by rw [h]; rfl)

theorem State.books_mergeSent (s : State) (data : List Nat) : (s.mergeSent data).books = s.books := by
  simp [State.mergeSent]

theorem State.rim_mergeSent (s : State) (data : List Nat) : (s.mergeSent data).rim = s.rim := by
  simp [State.mergeSent]

theorem State.merge_toIngress (s : State) (m : Nat) (x : PktSlot) : (s.toIngress m x).yoke.merge = s.yoke.merge := by
  unfold State.toIngress
  split <;> rfl

theorem mergeEmit_emits {e : MergeEnt} {l : List MergeEnt} (h : s.yoke.merge = e :: l) (hhand : s.yoke.hand ≠ 1) :
    completes .mergeEmit s fun t => t.yoke.k = (s.yoke.k + 1) % 2 ^ 32 ∧ e.m + 1000 * s.rd ykP YK_MERGE_WIN ≤ t.now ∧
      (s.inTeam = false → t.yoke.merge = l) := by
  obtain ⟨data, hexec⟩ := exec_mergeEmit h hhand
  have hnow := s.le_now_advanceTo (x := e.m + 1000 * s.rd ykP YK_MERGE_WIN)
  have hyoke : (s.advanceTo (e.m + 1000 * s.rd ykP YK_MERGE_WIN)).yoke = s.yoke :=
    State.advanceTo_leaves State.yoke (fun _ _ _ => rfl) s _
  generalize s.advanceTo (e.m + 1000 * s.rd ykP YK_MERGE_WIN) = u at hexec hnow hyoke
  generalize e.m + 1000 * s.rd ykP YK_MERGE_WIN = x at hnow ⊢
  refine completes_of hexec ⟨?_, ?_, fun hteam => ?_⟩
  · have hk := (books_k (State.books_toIngress _ e.m e.pkt)).trans (books_k ((u.mergeTaken l).books_mergeSent data))
    exact (hk.trans (u.k_mergeTaken l)).trans (by rw [hyoke])
  · have hrim := (State.rim_mergeSent _ data).trans (u.rim_mergeTaken l)
    exact hnow.trans_eq (rim_now ((State.rim_toIngress _ _ _).trans hrim)).symm
  · have halone : (u.mergeTaken l).inTeam = false :=
      (u.inTeam_mergeTaken l).trans ((State.inTeam_congr (congrArg YokeSt.state hyoke)).trans hteam)
    rw [State.merge_toIngress, State.mergeSent_alone halone, State.merge_mergeTaken]

/-! ### Check values that outlast their hold (R381) -/

/-- The values of this unit that still wait. -/
def State.ownLeft (s : State) (l : List ChkVal) : State := s.yk fun y => { y with own := l }

/-- The values of the partner that still wait. -/
def State.partnerLeft (s : State) (l : List ChkVal) : State := s.yk fun y => { y with partner := l }

theorem State.ownLeft_lists (s : State) (l : List ChkVal) :
    (s.ownLeft l).yoke.own = l ∧ (s.ownLeft l).yoke.partner = s.yoke.partner := ⟨rfl, rfl⟩

theorem State.partnerLeft_lists (s : State) (l : List ChkVal) :
    (s.partnerLeft l).yoke.partner = l ∧ (s.partnerLeft l).yoke.own = s.yoke.own := ⟨rfl, rfl⟩

theorem exec_checkHoldExpire_own {v : ChkVal} {l : List ChkVal} (h : takeFirst s.chkOld s.yoke.own = some (v, l)) :
    exec .checkHoldExpire s = .next ((s.ownLeft l).missing v true) := by
  show execCheckHoldExpire s = _
  unfold execCheckHoldExpire
  rw [h]
  rfl

theorem exec_checkHoldExpire_partner {v : ChkVal} {l : List ChkVal} (ho : takeFirst s.chkOld s.yoke.own = none)
    (h : takeFirst s.chkOld s.yoke.partner = some (v, l)) :
    exec .checkHoldExpire s = .next ((s.partnerLeft l).missing v false) := by
  show execCheckHoldExpire s = _
  unfold execCheckHoldExpire
  rw [ho, h]
  rfl

theorem exec_checkHoldExpire_none (ho : takeFirst s.chkOld s.yoke.own = none) (h : takeFirst s.chkOld s.yoke.partner = none) :
    exec .checkHoldExpire s = .next s := by
  show execCheckHoldExpire s = _
  unfold execCheckHoldExpire
  rw [ho, h]

theorem checkHoldExpire_own {v : ChkVal} {l : List ChkVal} (h : takeFirst s.chkOld s.yoke.own = some (v, l)) :
    completes .checkHoldExpire s fun t => t.yoke.own = l ∧ t.yoke.partner = s.yoke.partner := by
  have hbooks := (s.ownLeft l).books_missing v true
  obtain ⟨hown, hpartner⟩ := s.ownLeft_lists l
  exact completes_of (exec_checkHoldExpire_own h) ⟨(books_own hbooks).trans hown, (books_partner hbooks).trans hpartner⟩

theorem checkHoldExpire_partner {v : ChkVal} {l : List ChkVal} (ho : takeFirst s.chkOld s.yoke.own = none)
    (h : takeFirst s.chkOld s.yoke.partner = some (v, l)) :
    completes .checkHoldExpire s fun t => t.yoke.partner = l ∧ t.yoke.own = s.yoke.own := by
  have hbooks := (s.partnerLeft l).books_missing v false
  obtain ⟨hpartner, hown⟩ := s.partnerLeft_lists l
  exact completes_of (exec_checkHoldExpire_partner ho h)
    ⟨(books_partner hbooks).trans hpartner, (books_own hbooks).trans hown⟩

end

/-- Settles O50: each command by its own lemma; what the yoke's traffic and a divergence leave of the team's books is
`State.books_ykSend` and its relatives, and that a restarted decode leaves the team and the clock is `State.teamClock_decRestart`. That J
is the T of the latest MARK is the model's choice (log entry 96). -/
theorem teamWork : Obligations.TeamWork := by
  intro s
  exact ⟨exec_yokeTimeSend_alone, yokeTimeSend_sends, exec_yokeJoinStart_early, fun _ => yokeJoinStart_joins, exec_fwdDrop_none,
    fun _ _ => fwdDrop_drops, exec_mergeEmit_none, fun _ _ => mergeEmit_emits, exec_mergeMarkSend_quiet, mergeMarkSend_mark,
    fun _ _ => checkHoldExpire_own, exec_checkHoldExpire_none, fun _ _ => checkHoldExpire_partner⟩

end Sys2Proof.Machine
end

section
/-! PROOFS. The yoke link (O49): training, frames received, ACK, silence, replay and retry (R370, R371, R373). -/

set_option autoImplicit false

namespace Sys2Proof.Machine

/-! ### The link comes up (R373) -/

section
variable {s : State} {a : BitVec 4}

theorem length_helloBytes (s : State) : s.helloBytes.length = 24 := by
  simp [State.helloBytes, leBytes_length, upTo, List.range, List.range.loop]

theorem exec_yokeTrain_waits (h : s.yoke.state ≠ 2 ∨ s.on 0 SYS_NODE_VALID = false ∨ s.yoke.link = true ∨ a.toNat % 2 = 0 ∨
    s.time.run < s.yoke.retryAt) : exec (.yokeTrain a) s = .next s := by
  have hzero : a.toNat % 2 = 0 → (if a.toNat = 15 then 4 else if a.toNat % 4 = 3 then 2 else if a.toNat % 2 = 1 then 1 else 0) = 0 := by
    intro hev
    rw [if_neg (by omega), if_neg (by omega), if_neg (by omega)]
  show execYokeTrain a s = _
  refine congrArg Host.Outcome.next (if_pos ?_)
  rcases h with h | h | h | h | h
  · exact .inl h
  · exact .inr (.inl (by simp [h]))
  · exact .inr (.inr (.inl h))
  · exact .inr (.inr (.inr (.inl (hzero h))))
  · exact .inr (.inr (.inr (.inr h)))

/-- The width of the link over the aligned lanes. -/
def alignedWidth (a : Nat) : Nat := if a = 15 then 4 else if a % 4 = 3 then 2 else 1

/-- The link stands at `w` lanes. -/
def State.linked (s : State) (w : Nat) : State := s.yk fun y => { y with link := true, width := w, lastRx := s.time.run }

/-- A link of fewer than 4 lanes is recorded. -/
def State.narrowTold (s : State) (w : Nat) : State := if w < 4 then s.emit ykP 0x1801 [w] else s

theorem State.vc_linked (s : State) (w v : Nat) : (s.linked w).vc v = s.vc v := rfl

theorem exec_yokeTrain (hstate : s.yoke.state = 2) (hnode : s.on 0 SYS_NODE_VALID = true) (hlink : s.yoke.link = false)
    (ha : a.toNat % 2 = 1) (hretry : s.yoke.retryAt ≤ s.time.run) : exec (.yokeTrain a) s =
      .next (((s.linked (alignedWidth a.toNat)).narrowTold (alignedWidth a.toNat)).ykPush 2 1
        (s.linked (alignedWidth a.toNat)).helloBytes) := by
  have hw : (if a.toNat = 15 then 4 else if a.toNat % 4 = 3 then 2 else if a.toNat % 2 = 1 then 1 else 0) =
      alignedWidth a.toNat := by
    unfold alignedWidth
    rw [if_pos ha]
  have hpos : alignedWidth a.toNat ≠ 0 := by
    unfold alignedWidth
    split
    · decide
    · split <;> decide
  show execYokeTrain a s = _
  unfold execYokeTrain
  rw [hw]
  exact congrArg Host.Outcome.next (if_neg (by simp [hstate, hnode, hlink, hpos, hretry]))

theorem State.yoke_narrowTold (s : State) (w : Nat) : (s.narrowTold w).yoke = s.yoke := by
  unfold State.narrowTold
  split
  · exact State.yoke_emit ..
  · rfl

theorem State.rd_narrowTold (s : State) (w : Nat) :
    (s.narrowTold w).rd ykP (YK_VC_BUF_UNITS 2) = s.rd ykP (YK_VC_BUF_UNITS 2) := by
  unfold State.narrowTold
  split
  · exact State.rd_emit_page (isPage_pg .yk 0) (ownPage_of (by decide)) rfl
  · rfl

end

section
variable (s : State)

theorem State.width_ykEmitFor (f : YkFrame) (replay : Bool) (av : Option Nat) (cv : Nat) :
    (s.ykEmitFor f replay av cv).yoke.width = s.yoke.width := by
  have hhead : (s.headTold replay av cv).yoke.width = s.yoke.width := by
    rw [State.yoke_headTold]
    cases av <;> rfl
  rw [State.ykEmitFor_eq, ← hhead]
  rfl

theorem State.ykLook_credTaken (v n : Nat) : (s.credTaken v n).ykLook = s.ykLook := by
  unfold State.credTaken
  rw [State.ykLook_wr_yk (by simp only [YK_VC_CRED_OUT]; omega), State.ykLook_wr_yk (by simp only [YK_VC_CRED_HELD]; omega)]

end

/-- A push with room in the replay area keeps the link and its width. -/
theorem State.ykPush_link {s : State} {v : Nat} (typ : Nat) {data : List Nat}
    (h : creditSum (s.vc v).unacked + creditsOf data.length ≤ s.rd ykP (YK_VC_BUF_UNITS v)) :
    (s.ykPush v typ data).yoke.link = s.yoke.link ∧ (s.ykPush v typ data).yoke.width = s.yoke.width := by
  obtain ⟨f, n, hpush⟩ := State.ykPush_eq (typ := typ) h
  have hlook : (((s.credTaken v n).setVc v (s.pushed v typ data)).ykEmit f false).ykLook = s.ykLook :=
    ((State.ykLook_ykEmit ..).trans (State.ykLook_setVc ..)).trans (s.ykLook_credTaken v n)
  obtain ⟨hlink, -, -⟩ := ykLook_eq_iff.1 hlook
  rw [hpush]
  exact ⟨hlink, State.width_ykEmitFor ..⟩

theorem yokeTrain_trains {s : State} {a : BitVec 4} (hstate : s.yoke.state = 2) (hnode : s.on 0 SYS_NODE_VALID = true)
    (hlink : s.yoke.link = false) (ha : a.toNat % 2 = 1) (hretry : s.yoke.retryAt ≤ s.time.run)
    (hroom : creditSum (s.vc 2).unacked + creditsOf s.helloBytes.length ≤ s.rd ykP (YK_VC_BUF_UNITS 2)) :
    completes (.yokeTrain a) s fun t => t.yoke.link = true ∧ t.yoke.width = alignedWidth a.toNat := by
  have hexec := exec_yokeTrain hstate hnode hlink ha hretry
  generalize alignedWidth a.toNat = w at hexec ⊢
  have hyoke := (s.linked w).yoke_narrowTold w
  have hvc : ((s.linked w).narrowTold w).vc 2 = s.vc 2 := (State.vc_congr (congrArg YokeSt.vcs hyoke) 2).trans (s.vc_linked w 2)
  have hbuf : ((s.linked w).narrowTold w).rd ykP (YK_VC_BUF_UNITS 2) = s.rd ykP (YK_VC_BUF_UNITS 2) :=
    State.rd_narrowTold ..
  rw [length_helloBytes] at hroom
  obtain ⟨hl, hw⟩ := State.ykPush_link (s := (s.linked w).narrowTold w) (v := 2) 1 (data := (s.linked w).helloBytes)
    (by rw [length_helloBytes, hvc, hbuf]; exact hroom)
  exact completes_of hexec ⟨hl.trans (congrArg YokeSt.link hyoke), hw.trans (congrArg YokeSt.width hyoke)⟩

/-! ### Frames received (R370) -/

section
variable {s : State} {b : List Nat} {fr : Option NetFrame}

theorem exec_yokeFrameReceive_discards (h : s.yoke.link = false ∨ b.length ≠ 20 + num b 2 2) :
    exec (.yokeFrameReceive b fr) s = .next s := by
  show execYokeFrameReceive b fr s = _
  refine congrArg Host.Outcome.next (if_pos ?_)
  rcases h with h | h
  · simp [h]
  · simp [h]

/-- A valid frame renews the silence timer. -/
def State.heard (s : State) : State := s.yk fun y => { y with lastRx := s.time.run }

theorem exec_yokeFrameReceive_link (hlink : s.yoke.link = true) (hlocked : s.unlocked = false) (hvc : b.getD 0 0 % 8 = 7)
    (hver : b.getD 0 0 / 16 % 16 = 1) (hlen : b.length = 20 + num b 2 2)
    (hcrc : num b (16 + num b 2 2) 4 = crc32c (le s.teamMate 2 ++ le s.node 2 ++ le 0 4 ++ b.take (16 + num b 2 2)))
    (hack : bit (b.getD 12 0) 3 = false) (hcred : bit (b.getD 13 0) 7 = false) :
    exec (.yokeFrameReceive b fr) s = .next s.heard := by
  have hquiet : ∀ kind sel, s.perturb ykP kind sel = (false, s) := fun _ _ => s.perturb_locked ykP hlocked
  show execYokeFrameReceive b fr s = _
  simp [-List.getD_eq_getElem?_getD, execYokeFrameReceive, hquiet, hlink, hvc, hver, ← hlen, hcrc, hack, hcred, State.heard]

end

/-! ### What is owed goes out (R370) -/

section
variable {s : State}

theorem exec_yokeAckTimer_down (h : s.yoke.link = false) : exec .yokeAckTimer s = .next s := by
  show execYokeAckTimer s = _
  exact congrArg Host.Outcome.next (if_pos (by rw [h]; rfl))

/-- A LINK frame that carries ACK and credit count of channel `v`. -/
def State.linkFrame (s : State) (v : Nat) : State := s.ykEmitFor ⟨7, 1, 0, [], none, 0⟩ false (some v) v

theorem exec_yokeAckTimer (h : s.yoke.link = true) : exec .yokeAckTimer s = .next ((upTo 5).foldl State.linkFrame s) := by
  show execYokeAckTimer s = _
  exact congrArg Host.Outcome.next (if_neg (by rw [h]; simp))

theorem State.vc_linkFrame_self (s : State) (v : Nat) :
    ((s.linkFrame v).vc v).ackDue = false ∧ ((s.linkFrame v).vc v).owed = 0 := by
  unfold State.linkFrame
  rw [State.vc_ykEmitFor]
  simp [YkVc.told]

/-- A channel that owes nothing owes nothing after the frame of another. -/
theorem State.vc_linkFrame_quiet {v u : Nat} (h : (s.vc u).ackDue = false ∧ (s.vc u).owed = 0) :
    ((s.linkFrame v).vc u).ackDue = false ∧ ((s.linkFrame v).vc u).owed = 0 := by
  obtain ⟨hack, howed⟩ := h
  unfold State.linkFrame
  rw [State.vc_ykEmitFor]
  simp [YkVc.told, hack, howed]

theorem State.vc_linkFrames (l : List Nat) {s : State} {u : Nat} (h : u ∈ l ∨ ((s.vc u).ackDue = false ∧ (s.vc u).owed = 0)) :
    ((l.foldl State.linkFrame s).vc u).ackDue = false ∧ ((l.foldl State.linkFrame s).vc u).owed = 0 := by
  induction l generalizing s with
  | nil => exact h.resolve_left List.not_mem_nil
  | cons v l ih =>
    rw [List.foldl_cons]
    refine ih (s := s.linkFrame v) ?_
    rcases h with h | h
    · rcases List.mem_cons.1 h with rfl | h
      · exact .inr (s.vc_linkFrame_self u)
      · exact .inl h
    · exact .inr (State.vc_linkFrame_quiet h)

theorem State.out_linkFrames (l : List Nat) (s : State) :
    ∃ k : List Out, k.length = l.length ∧ (l.foldl State.linkFrame s).out = s.out ++ k := by
  induction l generalizing s with
  | nil => exact ⟨[], rfl, (List.append_nil _).symm⟩
  | cons v l ih =>
    obtain ⟨k, hk, hout⟩ := ih (s.linkFrame v)
    obtain ⟨a, b, hv⟩ := s.out_ykEmitFor ⟨7, 1, 0, [], none, 0⟩ false (some v) v
    refine ⟨.yokeFrame a b :: k, congrArg (· + 1) hk, ?_⟩
    rw [List.foldl_cons, hout, State.linkFrame, hv, List.append_assoc]
    rfl

theorem yokeAckTimer_tells (h : s.yoke.link = true) : completes .yokeAckTimer s fun t =>
    (∀ v, v < 5 → (t.vc v).ackDue = false ∧ (t.vc v).owed = 0) ∧ ∃ l, l.length = 5 ∧ t.out = s.out ++ l :=
  completes_of (exec_yokeAckTimer h)
    ⟨fun _ hv => State.vc_linkFrames _ (.inl (List.mem_range.2 hv)), State.out_linkFrames (upTo 5) s⟩

end

/-! ### Silence (R370) -/

section
variable (s : State) (n p v : Nat) (f : Fld)

/-- The books of the channels. -/
def State.vcBooks (s : State) : Store YkVc := s.yoke.vcs

theorem State.vcs_of_vcBooks {t : State} {l : Store YkVc} (h : t.vcBooks = l) : t.yoke.vcs = l := h

@[simp] theorem State.vcBooks_wr : (s.wr p f v).vcBooks = s.vcBooks := rfl
@[simp] theorem State.vcBooks_wb (b : Bool) : (s.wb p f b).vcBooks = s.vcBooks := rfl
@[simp] theorem State.vcBooks_cnt : (s.cnt p f v).vcBooks = s.vcBooks := rfl
@[simp] theorem State.vcBooks_emitOut (o : Out) : (s.emitOut o).vcBooks = s.vcBooks := rfl

@[simp] theorem State.vcBooks_emit (code : Nat) (data : List Nat) : (s.emit p code data).vcBooks = s.vcBooks :=
  congrArg YokeSt.vcs (State.yoke_emit s p code data)

@[simp] theorem State.vcBooks_ite (c : Prop) [Decidable c] (a b : State) :
    (if c then a else b).vcBooks = if c then a.vcBooks else b.vcBooks := by
  split <;> rfl

@[simp] theorem State.vcBooks_foldl {α : Type} {step : State → α → State} (l : List α)
    (h : ∀ u x, (step u x).vcBooks = u.vcBooks) : (l.foldl step s).vcBooks = s.vcBooks := by
  induction l generalizing s with
  | nil => rfl
  | cons x l ih => rw [List.foldl_cons, ih, h]

@[simp] theorem State.vcBooks_netDrop : (s.netDrop n).vcBooks = s.vcBooks := by simp [State.netDrop]

@[simp] theorem State.vcBooks_netDatagram (dest : Dest) (bytes : List Nat) :
    (s.netDatagram n dest bytes).vcBooks = s.vcBooks := by
  simp [State.netDatagram]

@[simp] theorem State.vcBooks_report (kind obj id frame own partner withheld : Nat) :
    (s.report kind obj id frame own partner withheld).vcBooks = s.vcBooks := by
  unfold State.report State.ymSend
  dsimp only
  split
  · rfl
  · exact s.vcBooks_netDatagram ..

@[simp] theorem State.vcBooks_setTbState : (s.setTbState n).vcBooks = s.vcBooks := by
  unfold State.setTbState
  dsimp only
  split
  · rfl
  · exact State.vcBooks_emit ..

@[simp] theorem State.vcBooks_wheelSplit : s.wheelSplit.vcBooks = s.vcBooks := by simp [State.wheelSplit]

@[simp] theorem State.vcBooks_ykState : (s.ykState n).vcBooks = s.vcBooks := by
  unfold State.ykState
  dsimp only
  split
  · rfl
  · exact State.vcBooks_emit ..

@[simp] theorem State.vcBooks_toIngress (x : PktSlot) : (s.toIngress n x).vcBooks = s.vcBooks := by
  unfold State.toIngress
  split <;> rfl

@[simp] theorem State.vcBooks_laterGo : s.laterGo.vcBooks = s.vcBooks := by
  unfold State.laterGo
  exact State.vcBooks_foldl _ _ fun u e => State.vcBooks_toIngress ..

@[simp] theorem State.vcBooks_mergeSplit (wasSeq : Bool) : (s.mergeSplit wasSeq).vcBooks = s.vcBooks := rfl

@[simp] theorem State.vcBooks_retryAt : (s.yk fun y => { y with retryAt := n }).vcBooks = s.vcBooks := rfl

theorem State.vcBooks_ykClear : s.ykClear.vcBooks = [] := by
  unfold State.ykClear
  exact State.vcBooks_foldl _ _ fun u v => by simp

/-- The loss of the link discards the books of every channel. -/
theorem State.vcBooks_ykDown (cause : Nat) : (s.ykDown cause).vcBooks = [] := by
  simp [State.ykDown, State.vcBooks_ykClear]

end

section
variable {s : State}

theorem exec_yokeSilenceTimeout_down (h : s.yoke.link = false) : exec .yokeSilenceTimeout s = .next s := by
  show execYokeSilenceTimeout s = _
  exact congrArg Host.Outcome.next (if_pos (by rw [h]; rfl))

theorem exec_yokeSilenceTimeout (h : s.yoke.link = true) :
    exec .yokeSilenceTimeout s = .next ((s.advanceRun (s.yoke.lastRx + ns 100000)).ykDown 0) := by
  show execYokeSilenceTimeout s = _
  exact congrArg Host.Outcome.next (if_neg (by rw [h]; simp))

theorem yokeSilenceTimeout_falls (h : s.yoke.link = true) : completes .yokeSilenceTimeout s fun t =>
    t.yoke.link = false ∧ t.contact = false ∧ t.yoke.vcs = [] ∧ s.yoke.lastRx + ns 100000 ≤ t.time.run := by
  have hexec := exec_yokeSilenceTimeout h
  have hrun := s.le_run_advanceRun (s.yoke.lastRx + ns 100000)
  generalize s.advanceRun (s.yoke.lastRx + ns 100000) = u at hexec hrun
  obtain ⟨hlink, hcontact, -⟩ := ykFell_ykDown u 0
  exact completes_of hexec ⟨hlink, hcontact, State.vcs_of_vcBooks (u.vcBooks_ykDown 0), hrun.trans_eq (rim_run (u.rim_ykDown 0)).symm⟩

/-! ### Replay (R370) -/

theorem exec_yokeReplayTimeout_idle {v : Fin 5} (h : s.yoke.link = false ∨ (s.vc v.val).unacked = []) :
    exec (.yokeReplayTimeout v) s = .next s := by
  show execYokeReplayTimeout v s = _
  exact congrArg Host.Outcome.next (if_pos (by simpa using h))

theorem exec_yokeReplayTimeout {v : Fin 5} (hlink : s.yoke.link = true) (h : (s.vc v.val).unacked ≠ []) :
    exec (.yokeReplayTimeout v) s = .next ((s.advanceRun ((s.vc v.val).progress + ns 50000)).ykResend v.val) := by
  show execYokeReplayTimeout v s = _
  exact congrArg Host.Outcome.next (if_neg (by simp [hlink, h]))

/-- The frames of a channel, each counted as resent once more. -/
def resentOnce (l : List YkFrame) : List YkFrame := l.map fun f => { f with resent := f.resent + 1 }

/-- The channel once its frames count as resent, and all of them sent again. -/
def State.replayed (s : State) (v : Nat) : State :=
  (resentOnce (s.vc v).unacked).foldl (fun s f => s.ykEmit f true)
    (s.setVc v { s.vc v with unacked := resentOnce (s.vc v).unacked, progress := s.time.run })

theorem State.ykResend_eq {v : Nat} (h : (s.vc v).unacked ≠ []) : s.ykResend v =
    if (resentOnce (s.vc v).unacked).any (fun f => decide (8 ≤ f.resent)) then (s.replayed v).ykDown 1 else s.replayed v :=
  if_neg (by simpa using h)

theorem State.vc_emits (l : List YkFrame) (s : State) (v : Nat) :
    ((l.foldl (fun s f => s.ykEmit f true) s).vc v).unacked = (s.vc v).unacked ∧
      ((l.foldl (fun s f => s.ykEmit f true) s).vc v).progress = (s.vc v).progress := by
  induction l generalizing s with
  | nil => exact ⟨rfl, rfl⟩
  | cons f l ih =>
    obtain ⟨a, c, h⟩ := s.vc_ykEmit f true v
    have hstep := ih (s.ykEmit f true)
    rwa [h] at hstep

theorem State.vc_replayed (s : State) (v : Nat) : ((s.replayed v).vc v).unacked = resentOnce (s.vc v).unacked ∧
    ((s.replayed v).vc v).progress = s.time.run := by
  have h := State.vc_emits (resentOnce (s.vc v).unacked)
    (s.setVc v { s.vc v with unacked := resentOnce (s.vc v).unacked, progress := s.time.run }) v
  rwa [State.vc_setVc_self] at h

theorem State.ykLook_replayed (s : State) (v : Nat) : (s.replayed v).ykLook = s.ykLook :=
  (State.ykLook_foldl (fun u f => u.ykLook_ykEmit f true) _ _).trans (State.ykLook_setVc ..)

theorem State.run_replayed (s : State) (v : Nat) : (s.replayed v).time.run = s.time.run :=
  rim_run ((State.rim_foldl _ _ fun u f => u.rim_ykEmit f true).trans (State.rim_setVc ..))

theorem any_resentOnce (l : List YkFrame) : (resentOnce l).any (fun f => decide (8 ≤ f.resent)) = l.any fun f => decide (7 ≤ f.resent) := by
  simp [resentOnce, List.any_map, Function.comp_def]

end

section
variable {s : State} {v : Fin 5}

theorem yokeReplayTimeout_resends (hlink : s.yoke.link = true) (h : (s.vc v.val).unacked ≠ [])
    (hfew : ∀ f ∈ (s.vc v.val).unacked, f.resent < 7) : completes (.yokeReplayTimeout v) s fun t =>
      (t.vc v.val).unacked = resentOnce (s.vc v.val).unacked ∧ t.yoke.link = true ∧
        (t.vc v.val).progress = t.time.run ∧ (s.vc v.val).progress + ns 50000 ≤ t.time.run := by
  have hexec := exec_yokeReplayTimeout hlink h
  have hrun := s.le_run_advanceRun ((s.vc v.val).progress + ns 50000)
  have hyoke : (s.advanceRun ((s.vc v.val).progress + ns 50000)).yoke = s.yoke :=
    State.advanceRun_leaves State.yoke (fun _ _ _ => rfl) s _
  generalize s.advanceRun ((s.vc v.val).progress + ns 50000) = u at hexec hrun hyoke
  have hvc : u.vc v.val = s.vc v.val := State.vc_congr (congrArg YokeSt.vcs hyoke) _
  have hnone : (resentOnce (u.vc v.val).unacked).any (fun f => decide (8 ≤ f.resent)) = false := by
    rw [any_resentOnce, hvc, List.any_eq_false]
    intro f hf
    simpa using hfew f hf
  have hresend : u.ykResend v.val = u.replayed v.val :=
    (State.ykResend_eq (by rw [hvc]; exact h)).trans (if_neg (by rw [hnone]; exact Bool.false_ne_true))
  rw [hresend] at hexec
  obtain ⟨hunacked, hprogress⟩ := u.vc_replayed v.val
  obtain ⟨hl, -, -⟩ := ykLook_eq_iff.1 (u.ykLook_replayed v.val)
  have htime := u.run_replayed v.val
  refine completes_of hexec ⟨?_, ?_, ?_, ?_⟩
  · rw [hunacked, hvc]
  · rw [hl, hyoke, hlink]
  · rw [hprogress, htime]
  · rw [htime]
    exact hrun

theorem yokeReplayTimeout_falls (hlink : s.yoke.link = true) (h : (s.vc v.val).unacked ≠ [])
    (hmany : ∃ f ∈ (s.vc v.val).unacked, 7 ≤ f.resent) : completes (.yokeReplayTimeout v) s fun t => t.yoke.link = false := by
  have hexec := exec_yokeReplayTimeout hlink h
  have hyoke : (s.advanceRun ((s.vc v.val).progress + ns 50000)).yoke = s.yoke :=
    State.advanceRun_leaves State.yoke (fun _ _ _ => rfl) s _
  generalize s.advanceRun ((s.vc v.val).progress + ns 50000) = u at hexec hyoke
  have hvc : u.vc v.val = s.vc v.val := State.vc_congr (congrArg YokeSt.vcs hyoke) _
  have hsome : (resentOnce (u.vc v.val).unacked).any (fun f => decide (8 ≤ f.resent)) = true := by
    obtain ⟨f, hf, hseven⟩ := hmany
    rw [any_resentOnce, hvc, List.any_eq_true]
    exact ⟨f, hf, decide_eq_true hseven⟩
  have hresend : u.ykResend v.val = (u.replayed v.val).ykDown 1 :=
    (State.ykResend_eq (by rw [hvc]; exact h)).trans (if_pos hsome)
  rw [hresend] at hexec
  obtain ⟨hl, -, -⟩ := ykFell_ykDown (u.replayed v.val) 1
  exact completes_of hexec hl

/-! ### Retry (R373, R375) -/

theorem exec_yokeRetry_not (h : s.yoke.link = true ∨ (s.yoke.state ≠ 2 ∧ s.yoke.state ≠ 6)) : exec .yokeRetry s = .next s := by
  show execYokeRetry s = _
  exact congrArg Host.Outcome.next (if_pos h)

/-- A split unit seeks again. -/
def State.seekAgain (s : State) : State := if s.yoke.state = 6 then s.ykState 2 else s

theorem State.state_seekAgain (h : s.yoke.state = 2 ∨ s.yoke.state = 6) : s.seekAgain.yoke.state = 2 := by
  unfold State.seekAgain
  split
  · exact s.state_ykState 2
  next hne => exact h.resolve_right hne

theorem State.rim_seekAgain (s : State) : s.seekAgain.rim = s.rim := by simp [State.seekAgain]

theorem exec_yokeRetry (hlink : s.yoke.link = false) (h : s.yoke.state = 2 ∨ s.yoke.state = 6) :
    exec .yokeRetry s = .next (s.advanceRun s.yoke.retryAt).seekAgain := by
  show execYokeRetry s = _
  refine congrArg Host.Outcome.next (if_neg ?_)
  rintro (hl | ⟨h2, h6⟩)
  · rw [hlink] at hl
    exact Bool.false_ne_true hl
  · exact h.elim h2 h6

theorem yokeRetry_seeks (hlink : s.yoke.link = false) (h : s.yoke.state = 2 ∨ s.yoke.state = 6) :
    completes .yokeRetry s fun t => t.yoke.state = 2 ∧ s.yoke.retryAt ≤ t.time.run := by
  have hexec := exec_yokeRetry hlink h
  have hrun := s.le_run_advanceRun s.yoke.retryAt
  have hyoke : (s.advanceRun s.yoke.retryAt).yoke = s.yoke := State.advanceRun_leaves State.yoke (fun _ _ _ => rfl) s _
  generalize s.advanceRun s.yoke.retryAt = u at hexec hrun hyoke
  refine completes_of hexec ⟨State.state_seekAgain (by rw [hyoke]; exact h), ?_⟩
  rw [rim_run u.rim_seekAgain]
  exact hrun

end

/-- Settles O49: one lemma per command. The books of a channel through the frames sent are `State.vc_ykEmitFor`; the loss of the link is
`ykFell_ykDown`. -/
theorem yokeLink : Obligations.YokeLink := by
  intro s
  exact ⟨fun _ => exec_yokeTrain_waits, fun _ => yokeTrain_trains, fun _ _ => exec_yokeFrameReceive_discards,
    fun _ _ hlink hlocked hvc hver hlen hcrc hack hcred =>
      completes_of (exec_yokeFrameReceive_link hlink hlocked hvc hver hlen hcrc hack hcred) rfl,
    fun h => ⟨exec_yokeAckTimer_down h, exec_yokeSilenceTimeout_down h⟩, yokeAckTimer_tells, yokeSilenceTimeout_falls,
    fun _ => exec_yokeReplayTimeout_idle,
    fun _ hlink h => ⟨yokeReplayTimeout_resends hlink h, yokeReplayTimeout_falls hlink h⟩, exec_yokeRetry_not, yokeRetry_seeks⟩

end Sys2Proof.Machine
end

section
/-! PROOFS. Rate control of a recorded picture (R333, R334): its bytes stay within the cap, and its modes never go back. -/

set_option autoImplicit false

namespace Sys2Proof.Machine

/-! ### Rate control (R333, R334) -/

/-- The bits of a unit's form under a mode. -/
def formSize (f : Nat × Nat × Nat) (m : Nat) : Nat := if m = 0 then f.1 else if m = 1 then f.2.1 else f.2.2

/-- The bits that the units of a row keep under their modes. -/
def rowUsed (fs : List (Nat × Nat × Nat)) (modes : List Nat) : Nat := ((fs.zip modes).map fun x => formSize x.1 x.2).sum

/-- The mode of the next unit: target, else ceiling, else fallback, and never back. -/
def nextMode (cap after mode u : Nat) (f : Nat × Nat × Nat) : Nat :=
  if mode = 0 ∧ u + f.1 + after ≤ cap then 0 else if mode ≤ 1 ∧ u + f.2.1 + after ≤ cap then 1 else 2

section
variable {cap w fb below : Nat}

theorem codeRow_cons (k mode u : Nat) (f : Nat × Nat × Nat) (t : List (Nat × Nat × Nat)) :
    codeRow cap w fb below k mode u (f :: t) =
      let m := nextMode cap ((w - 1 - k) * fb + below) mode u f
      let r := codeRow cap w fb below (k + 1) m (u + formSize f m) t
      (r.1, r.2.1, m :: r.2.2) := rfl

theorem le_nextMode {mode : Nat} (h : mode ≤ 2) (after u : Nat) (f : Nat × Nat × Nat) :
    mode ≤ nextMode cap after mode u f ∧ nextMode cap after mode u f ≤ 2 := by
  unfold nextMode
  split
  · omega
  · split <;> omega

/-- A fallback form that fits leaves room for what follows, whichever form is kept. -/
theorem formSize_nextMode_le {after mode u : Nat} {f : Nat × Nat × Nat} (h : u + f.2.2 + after ≤ cap) :
    u + formSize f (nextMode cap after mode u f) + after ≤ cap := by
  unfold nextMode
  split
  next hm => exact hm.2
  · split
    next hm => exact hm.2
    · exact h

theorem length_codeRow (fs : List (Nat × Nat × Nat)) (k mode u : Nat) :
    (codeRow cap w fb below k mode u fs).2.2.length = fs.length := by
  induction fs generalizing k mode u with
  | nil => rfl
  | cons f fs ih =>
    rw [codeRow_cons]
    exact congrArg (· + 1) (ih ..)

/-- The bits used grow by the forms kept. -/
theorem used_codeRow (fs : List (Nat × Nat × Nat)) (k mode u : Nat) :
    (codeRow cap w fb below k mode u fs).2.1 = u + rowUsed fs (codeRow cap w fb below k mode u fs).2.2 := by
  induction fs generalizing k mode u with
  | nil => rfl
  | cons f fs ih =>
    rw [codeRow_cons]
    dsimp only
    rw [ih]
    simp [rowUsed, Nat.add_assoc]

/-- The modes of a row go from the mode before it to the mode after it, and never back. -/
theorem modes_codeRow (fs : List (Nat × Nat × Nat)) (k : Nat) {mode : Nat} (u : Nat) (h : mode ≤ 2) :
    mode ≤ (codeRow cap w fb below k mode u fs).1 ∧ (codeRow cap w fb below k mode u fs).1 ≤ 2 ∧
      (codeRow cap w fb below k mode u fs).2.2.Pairwise (· ≤ ·) ∧
      ∀ m ∈ (codeRow cap w fb below k mode u fs).2.2, mode ≤ m ∧ m ≤ (codeRow cap w fb below k mode u fs).1 := by
  induction fs generalizing k mode u with
  | nil => exact ⟨le_rfl, h, .nil, fun _ hm => absurd hm List.not_mem_nil⟩
  | cons f fs ih =>
    rw [codeRow_cons]
    dsimp only
    obtain ⟨hle, htwo⟩ := le_nextMode (cap := cap) h ((w - 1 - k) * fb + below) u f
    generalize nextMode cap ((w - 1 - k) * fb + below) mode u f = m at hle htwo ⊢
    obtain ⟨hlow, hhigh, hpair, hmem⟩ := ih (k + 1) (u + formSize f m) htwo
    refine ⟨hle.trans hlow, hhigh, List.pairwise_cons.2 ⟨fun x hx => (hmem x hx).1, hpair⟩, fun x hx => ?_⟩
    rcases List.mem_cons.1 hx with rfl | hx
    · exact ⟨hle, hlow⟩
    · exact ⟨hle.trans (hmem x hx).1, (hmem x hx).2⟩

/-- With room for a fallback form of every unit, a row keeps room for the rows below it. -/
theorem codeRow_le (fs : List (Nat × Nat × Nat)) {k : Nat} (mode : Nat) {u : Nat} (hk : k + fs.length = w)
    (hfb : ∀ f ∈ fs, f.2.2 ≤ fb) (h : u + fs.length * fb + below ≤ cap) :
    (codeRow cap w fb below k mode u fs).2.1 + below ≤ cap := by
  induction fs generalizing k mode u with
  | nil => simpa [codeRow] using h
  | cons f fs ih =>
    obtain ⟨hf, hfs⟩ := List.forall_mem_cons.1 hfb
    rw [List.length_cons] at hk h
    have hleft : w - 1 - k = fs.length := by omega
    have hroom : u + f.2.2 + (fs.length * fb + below) ≤ cap := by
      rw [Nat.add_mul] at h
      omega
    rw [codeRow_cons]
    dsimp only
    rw [hleft]
    refine ih _ (by omega) hfs ?_
    have hnext := formSize_nextMode_le (mode := mode) hroom
    omega

/-! #### The rows of a picture -/

/-- A picture's bits: each row's slice overhead and the forms kept. -/
def picUsed (rows : List (List (Nat × Nat × Nat))) (modes : List (List Nat)) : Nat :=
  ((rows.zip modes).map fun x => 256 + rowUsed x.1 x.2).sum

variable {n : Nat}

theorem length_codeRows (rows : List (List (Nat × Nat × Nat))) (r mode u : Nat) :
    (codeRows cap w fb n r mode u rows).length = rows.length := by
  induction rows generalizing r mode u with
  | nil => rfl
  | cons row rows ih => exact congrArg (· + 1) (ih ..)

theorem length_of_mem_codeRows (rows : List (List (Nat × Nat × Nat))) (r mode u : Nat) (h : ∀ row ∈ rows, row.length = w) :
    ∀ l ∈ codeRows cap w fb n r mode u rows, l.length = w := by
  induction rows generalizing r mode u with
  | nil => exact fun _ hl => absurd hl List.not_mem_nil
  | cons row rows ih =>
    obtain ⟨hrow, hrows⟩ := List.forall_mem_cons.1 h
    exact List.forall_mem_cons.2 ⟨(length_codeRow ..).trans hrow, ih _ _ _ hrows⟩

theorem modes_codeRows (rows : List (List (Nat × Nat × Nat))) (r : Nat) {mode : Nat} (u : Nat) (h : mode ≤ 2) :
    (codeRows cap w fb n r mode u rows).flatten.Pairwise (· ≤ ·) ∧
      ∀ m ∈ (codeRows cap w fb n r mode u rows).flatten, mode ≤ m := by
  induction rows generalizing r mode u with
  | nil => exact ⟨.nil, fun _ hm => absurd hm List.not_mem_nil⟩
  | cons row rows ih =>
    obtain ⟨hlow, htwo, hpair, hmem⟩ := modes_codeRow (cap := cap) (w := w) (fb := fb)
      (below := (n - 1 - r) * (256 + w * fb)) row 0 (u + 256) h
    obtain ⟨hpairs, hmems⟩ := ih (r + 1) (codeRow cap w fb ((n - 1 - r) * (256 + w * fb)) 0 mode (u + 256) row).2.1 htwo
    rw [codeRows, List.flatten_cons]
    refine ⟨List.pairwise_append.2 ⟨hpair, hpairs, fun a ha b hb => (hmem a ha).2.trans (hmems b hb)⟩, fun m hm => ?_⟩
    rcases List.mem_append.1 hm with hm | hm
    · exact (hmem m hm).1
    · exact hlow.trans (hmems m hm)

/-- With room for the floor of every row, the picture stays within the cap. -/
theorem picUsed_codeRows_le (rows : List (List (Nat × Nat × Nat))) {r : Nat} (mode : Nat) {u : Nat} (hr : r + rows.length = n)
    (hrows : ∀ row ∈ rows, row.length = w ∧ ∀ f ∈ row, f.2.2 ≤ fb) (h : u + rows.length * (256 + w * fb) ≤ cap) :
    u + picUsed rows (codeRows cap w fb n r mode u rows) ≤ cap := by
  induction rows generalizing r mode u with
  | nil => simpa [codeRows, picUsed] using h
  | cons row rows ih =>
    obtain ⟨⟨hlen, hfb⟩, hrest⟩ := List.forall_mem_cons.1 hrows
    rw [List.length_cons] at hr h
    have hleft : n - 1 - r = rows.length := by omega
    have hroom : u + 256 + row.length * fb + rows.length * (256 + w * fb) ≤ cap := by
      rw [hlen]
      rw [Nat.add_mul] at h
      omega
    have hrow := codeRow_le (w := w) row (k := 0) mode (by omega) hfb hroom
    have hused := used_codeRow (cap := cap) (w := w) (fb := fb) (below := rows.length * (256 + w * fb)) row 0 mode (u + 256)
    rw [codeRows, hleft]
    have htail := ih (r := r + 1) (codeRow cap w fb (rows.length * (256 + w * fb)) 0 mode (u + 256) row).1 (by omega) hrest hrow
    simp only [picUsed, List.zip_cons_cons, List.map_cons, List.sum_cons] at htail ⊢
    omega

end

/-! #### Slice segments -/

theorem length_packBits (n : Nat) (l : List Bool) : (packBits n l).length = n := by
  induction n generalizing l with
  | zero => rfl
  | succ n ih => exact congrArg (· + 1) (ih _)

theorem length_rowKept (x : EncRow) (modes : List Nat) : (rowKept x modes).length = rowUsed (rowSizes x) modes := by
  unfold rowKept rowUsed rowSizes
  generalize x.ctbs = l
  induction l generalizing modes with
  | nil => rfl
  | cons u l ih =>
    cases modes with
    | nil => rfl
    | cons m modes =>
      simp only [List.zip_cons_cons, List.flatMap_cons, List.length_append, List.map_cons, List.sum_cons, ih, formSize]
      congr 1
      split
      · rfl
      · split <;> rfl

/-- A slice segment's bytes: at most 31 before its units, the bits kept, the stop bit and zeros up to the byte. -/
theorem length_sliceBytes_le {x : EncRow} (h : x.head.length ≤ 31) (modes : List Nat) :
    8 * (sliceBytes x modes).length ≤ 256 + rowUsed (rowSizes x) modes := by
  unfold sliceBytes
  simp only [List.length_append, length_packBits, length_rowKept, List.length_singleton]
  omega

theorem length_slices_le (rows : List EncRow) (modes : List (List Nat)) (h : ∀ x ∈ rows, x.head.length ≤ 31) :
    8 * ((rows.zip modes).flatMap fun x => sliceBytes x.1 x.2).length ≤ picUsed (rows.map rowSizes) modes := by
  induction rows generalizing modes with
  | nil => exact Nat.le_refl _
  | cons x rows ih =>
    obtain ⟨hx, hrows⟩ := List.forall_mem_cons.1 h
    cases modes with
    | nil => exact Nat.le_refl _
    | cons m modes =>
      have hslice := length_sliceBytes_le hx m
      have hrest := ih modes hrows
      simp only [picUsed, List.map_cons, List.zip_cons_cons, List.flatMap_cons, List.length_append, List.sum_cons] at hrest ⊢
      omega

/-! #### The rows that a coder gives, within their bounds -/

theorem length_unitRows (w fb n : Nat) (l : List EncRow) : (unitRows w fb n l).length = n := by
  induction n generalizing l with
  | zero => rfl
  | succ n ih => exact congrArg (· + 1) (ih _)

theorem mem_unitRows {w fb n : Nat} {l : List EncRow} {x : EncRow} (h : x ∈ unitRows w fb n l) :
    x.head.length ≤ 31 ∧ x.ctbs.length = w ∧ ∀ u ∈ x.ctbs, u.2.2.length ≤ fb := by
  induction n generalizing l with
  | zero => exact absurd h List.not_mem_nil
  | succ n ih =>
    rcases List.mem_cons.1 h with rfl | h
    · refine ⟨List.length_take_le _ _, ?_, fun u hu => ?_⟩
      · simp only [List.length_map, List.length_take, List.length_append, List.length_replicate]
        omega
      · obtain ⟨v, -, rfl⟩ := List.mem_map.1 hu
        exact List.length_take_le _ _
    · exact ih h

theorem rowSizes_unitRows {w fb n : Nat} {l : List EncRow} : ∀ row ∈ (unitRows w fb n l).map rowSizes,
    row.length = w ∧ ∀ f ∈ row, f.2.2 ≤ fb := by
  intro row hrow
  obtain ⟨x, hx, rfl⟩ := List.mem_map.1 hrow
  obtain ⟨-, hlen, hfb⟩ := mem_unitRows hx
  refine ⟨(List.length_map _).trans hlen, fun f hf => ?_⟩
  obtain ⟨u, hu, rfl⟩ := List.mem_map.1 hf
  exact hfb u hu

/-- What rate control makes of a coded picture (R333, R334). -/
theorem codePicture_spec (cap w n : Nat) (idr : Bool) (c : EncCoded) :
    (n * (256 + w * if idr then 48 else 16) ≤ cap → 8 * (codePicture cap w n idr c).2.length ≤ cap) ∧
      (codePicture cap w n idr c).1.length = n ∧ (∀ row ∈ (codePicture cap w n idr c).1, row.length = w) ∧
      (codePicture cap w n idr c).1.flatten.Pairwise (· ≤ ·) := by
  unfold codePicture
  dsimp only
  generalize (if idr then 48 else 16) = fb
  have hlen : ((unitRows w fb n c.rows).map rowSizes).length = n := (List.length_map _).trans (length_unitRows ..)
  refine ⟨fun hcap => ?_, (length_codeRows ..).trans hlen, length_of_mem_codeRows _ _ _ _ fun row hrow => (rowSizes_unitRows row hrow).1,
    (modes_codeRows _ _ _ (Nat.zero_le 2)).1⟩
  have hused := picUsed_codeRows_le (cap := cap) (n := n) _ 0 (r := 0) (u := 0) ((Nat.zero_add _).trans hlen) rowSizes_unitRows
    (by rw [hlen]; omega)
  have hbytes := length_slices_le (unitRows w fb n c.rows) (codeRows cap w fb n 0 0 0 ((unitRows w fb n c.rows).map rowSizes))
    fun x hx => (mem_unitRows hx).1
  omega

end Sys2Proof.Machine
end

section
/-! PROOFS. Recording channels (O46): enable, records, pictures and streams (R327, R330, R332, R336, R337, R339). -/

set_option autoImplicit false

namespace Sys2Proof.Machine

/-! ### A recording channel's entry -/

section
variable (s : State) (p k i : Nat)

theorem State.find_encUpd {x : EncCh} (h : Store.find (p * 32 + k) s.enc = some x) (g : EncCh → EncCh) :
    Store.find (p * 32 + k) (s.encUpd p k g).enc = some (g x) := by
  unfold State.encUpd
  rw [h]
  exact Store.find_put_self ..

/-- The queue of a channel that is listed. -/
def State.queueOf : Option (List TapRec) := (Store.find i s.enc).map EncCh.queue

variable {s i}

theorem State.queueOf_of_rim {t : State} (h : t.rim = s.rim) : t.queueOf i = s.queueOf i := by
  unfold State.queueOf
  rw [rim_enc h]

theorem State.queueOf_some {l : List TapRec} (h : s.queueOf i = some l) : ∃ y, Store.find i s.enc = some y ∧ y.queue = l :=
  Option.map_eq_some_iff.1 h

variable (s i)

/-- An update that leaves the queue alone leaves every channel's. -/
theorem State.queueOf_encUpd {g : EncCh → EncCh} (hg : ∀ y, (g y).queue = y.queue) : (s.encUpd p k g).queueOf i = s.queueOf i := by
  unfold State.encUpd
  split
  next x hx =>
    unfold State.queueOf
    by_cases hi : i = p * 32 + k
    · rw [hi]
      show (Store.find (p * 32 + k) (Store.put (p * 32 + k) (g x) s.enc)).map EncCh.queue = _
      rw [Store.find_put_self, hx]
      exact congrArg some (hg x)
    · exact congrArg (Option.map EncCh.queue) (Store.find_put_ne hi _ _)
  next => rfl

end

/-! ### ENC_CH_CTRL written (R327) -/

section
variable {w : Writer} {p : Fin 2} {k : Fin 32} {s : State} {v : Word}

theorem exec_encChannelEnable_fenced (h : s.pageFenced .enc p.val = true) :
    exec (.encChannelEnable w p k v) s = .next (s.fencedWrite w (encP p.val + 0x400 + 64 * k.val) v.toNat) := by
  show execEncChannelEnable w p k v s = _
  exact congrArg Host.Outcome.next (if_pos h)

theorem exec_encChannelEnable_on (hf : s.pageFenced .enc p.val = false) (hon : s.on (encP p.val) (ENC_CH_CTRL_EN k.val) = true) :
    exec (.encChannelEnable w p k v) s = .next (if bit v.toNat 0 then s else s.chEnd p.val k.val) := by
  show execEncChannelEnable w p k v s = _
  exact congrArg Host.Outcome.next ((if_neg (by simp [hf])).trans (if_pos hon))

/-- The fields of ENC_CH_CTRL as a write sets them. -/
def State.chFields (s : State) (p k v : Nat) : State := s.setFields (encP p) (chCtrlFields k) v

theorem exec_encChannelEnable_idle (hf : s.pageFenced .enc p.val = false)
    (hoff : s.on (encP p.val) (ENC_CH_CTRL_EN k.val) = false) (hv : bit v.toNat 0 = false) :
    exec (.encChannelEnable w p k v) s = .next (s.chFields p.val k.val v.toNat) := by
  show execEncChannelEnable w p k v s = _
  exact congrArg Host.Outcome.next ((if_neg (by simp [hf])).trans ((if_neg (by simp [hoff])).trans (if_pos (by simp [hv]))))

/-- The cause of a refusal shown and recorded. -/
def State.chRefused (s : State) (p k c : Nat) : State := (s.wr (encP p) (ENC_CH_STAT_REFUSE k) c).emit (encP p) 0x0001 [k, c]

theorem exec_encChannelEnable_judged (hf : s.pageFenced .enc p.val = false)
    (hoff : s.on (encP p.val) (ENC_CH_CTRL_EN k.val) = false) (hv : bit v.toNat 0 = true) :
    exec (.encChannelEnable w p k v) s = .next (match (s.chFields p.val k.val v.toNat).chRefusal p.val k.val with
      | some c => (s.chFields p.val k.val v.toNat).chRefused p.val k.val c
      | none => (s.chFields p.val k.val v.toNat).chStart p.val k.val) := by
  show execEncChannelEnable w p k v s = _
  exact congrArg Host.Outcome.next ((if_neg (by simp [hf])).trans ((if_neg (by simp [hoff])).trans (if_neg (by simp [hv]))))

end

section
variable (s : State) (p k v : Nat)

/-- The keys of a channel's fields differ. -/
theorem nodup_chCtrlFields : ((chCtrlFields k).map (fkey (encP p))).Nodup := by
  simp only [chCtrlFields, List.map_cons, List.map_nil, List.nodup_cons, List.mem_cons, List.not_mem_nil, not_or, not_false_eq_true,
    and_true, List.nodup_nil, fkey, ENC_CH_CTRL_HEAD, ENC_CH_CTRL_SEND_HIGH, ENC_CH_CTRL_DIV, ENC_CH_CTRL_QDEPTH,
    ENC_CH_CTRL_REC_CLASS, ENC_CH_CTRL_REF_CLASS, ENC_CH_CTRL_DROVER]
  omega

theorem State.rd_chFields {f : Fld} (h : f ∈ chCtrlFields k) : (s.chFields p k v).rd (encP p) f = fieldOf v f :=
  State.rd_setFields (nodup_chCtrlFields p k) h

theorem onlyRegs_chFields : onlyRegs ((chCtrlFields k).map (fkey (encP p))) s (s.chFields p k v) := onlyRegs_setFields

theorem State.on_chFields : (s.chFields p k v).on (encP p) (ENC_CH_CTRL_EN k) = s.on (encP p) (ENC_CH_CTRL_EN k) := by
  have hkey : fkey (encP p) (ENC_CH_CTRL_EN k) ∉ (chCtrlFields k).map (fkey (encP p)) := by
    simp only [chCtrlFields, List.map_cons, List.map_nil, List.mem_cons, List.not_mem_nil, not_or, not_false_eq_true,
      and_true, fkey, ENC_CH_CTRL_EN, ENC_CH_CTRL_HEAD, ENC_CH_CTRL_SEND_HIGH, ENC_CH_CTRL_DIV, ENC_CH_CTRL_QDEPTH,
      ENC_CH_CTRL_REC_CLASS, ENC_CH_CTRL_REF_CLASS, ENC_CH_CTRL_DROVER]
    omega
  rw [State.on_eq, (onlyRegs_chFields s p k v).rd hkey, ← State.on_eq]

theorem State.rim_chFields : (s.chFields p k v).rim = s.rim := (onlyRegs_chFields s p k v).rim

theorem encP_above : 0xF000 ≤ encP p := by
  simp only [encP, pg_enc]
  omega

/-- Fields of the pipeline's page outside the event words go through its events. -/
theorem State.rd_emit_encP {f : Fld} (h : f.off * 32 + f.lo ≠ 0x10 * 32) (code : Nat) (data : List Nat) :
    (s.emit (encP p) code data).rd (encP p) f = s.rd (encP p) f := State.rd_emit_above (encP_above p) h

theorem State.rd_wr_encP {f g : Fld} (h : f.off * 32 + f.lo ≠ g.off * 32 + g.lo) (x : Nat) :
    (s.wr (encP p) g x).rd (encP p) f = s.rd (encP p) f := State.rd_wr_key (fkey_ne_same_page h.symm)

theorem State.rd_chRefused {c : Nat} (hc : c < 16) :
    (s.chRefused p k c).rd (encP p) (ENC_CH_STAT_REFUSE k) = c ∧
      (s.chRefused p k c).on (encP p) (ENC_CH_CTRL_EN k) = s.on (encP p) (ENC_CH_CTRL_EN k) := by
  unfold State.chRefused
  refine ⟨?_, ?_⟩
  · rw [State.rd_emit_encP _ _ (by simp only [ENC_CH_STAT_REFUSE]; omega), State.rd_wr_self]
    exact Nat.mod_eq_of_lt hc
  · rw [State.on_eq, State.rd_emit_encP _ _ (by simp only [ENC_CH_CTRL_EN]; omega),
      State.rd_wr_encP _ _ (by simp only [ENC_CH_CTRL_EN, ENC_CH_STAT_REFUSE]; omega), ← State.on_eq]

theorem State.rim_chRefused (c : Nat) : (s.chRefused p k c).rim = s.rim := by simp [State.chRefused]

/-- The causes of R327 are 0 to 5. -/
theorem lt_of_chRefusal {c : Nat} (h : s.chRefusal p k = some c) : c < 16 := by
  have hcause : ∀ (b : Prop) [Decidable b] (n : Nat) (r : Option Nat), n < 16 → (r = some c → c < 16) →
      (if b then some n else r) = some c → c < 16 := by
    intro b _ n r hn hr hc
    split at hc
    · exact Option.some.inj hc ▸ hn
    · exact hr hc
  unfold State.chRefusal at h
  refine hcause _ _ _ (by decide) ?_ h
  refine hcause _ _ _ (by decide) ?_
  refine hcause _ _ _ (by decide) ?_
  refine hcause _ _ _ (by decide) ?_
  refine hcause _ _ _ (by decide) ?_
  exact hcause _ _ _ (by decide) fun hn => absurd hn (by simp)

/-- The channel's three bits as it starts. -/
def State.chBits (s : State) (p k : Nat) : State :=
  ((s.wb (encP p) (ENC_CH_CTRL_EN k) true).wb (encP p) (ENC_CH_CTRL_ACTIVE k) true).wb (encP p) (ENC_CH_STAT_IDR_NEXT k) true

theorem State.on_chBits : (s.chBits p k).on (encP p) (ENC_CH_CTRL_EN k) = true ∧
    (s.chBits p k).on (encP p) (ENC_CH_STAT_IDR_NEXT k) = true := by
  unfold State.chBits
  refine ⟨?_, State.on_wb_true _ _ _ rfl⟩
  rw [State.on_eq, State.wb_eq _ _ (ENC_CH_STAT_IDR_NEXT k),
    State.rd_wr_encP _ _ (by simp only [ENC_CH_CTRL_EN, ENC_CH_STAT_IDR_NEXT]; omega), State.wb_eq _ _ (ENC_CH_CTRL_ACTIVE k),
    State.rd_wr_encP _ _ (by simp only [ENC_CH_CTRL_EN, ENC_CH_CTRL_ACTIVE]; omega), ← State.on_eq]
  exact State.on_wb_true _ _ _ rfl

/-- A channel just started. -/
def chFresh (g : Geo) : EncCh := ⟨g, none, none, none, none, [], false, true, 0, [], [], (0, 0)⟩

/-- A channel listed. -/
def State.chList (s : State) (p k : Nat) (x : EncCh) : State := { s with enc := Store.put (p * 32 + k) x s.enc }

theorem State.chStart_eq : s.chStart p k =
    (s.chBits p k).chList p k (chFresh (s.geoAct (s.rd (encP p) (ENC_CH_CTRL_HEAD k)))) := rfl

theorem State.chStart_spec : (s.chStart p k).on (encP p) (ENC_CH_CTRL_EN k) = true ∧
    (s.chStart p k).on (encP p) (ENC_CH_STAT_IDR_NEXT k) = true ∧ (s.chStart p k).encRecs = s.encRecs ∧
    ∃ y, Store.find (p * 32 + k) (s.chStart p k).enc = some y ∧ y.queue = [] ∧ y.tap = none ∧ y.refs = [] := by
  rw [State.chStart_eq]
  obtain ⟨hen, hidr⟩ := s.on_chBits p k
  exact ⟨hen, hidr, rfl, _, Store.find_put_self .., rfl, rfl, rfl⟩

end

/-! ### The end of a channel -/

section
variable (s : State) (p k : Nat)

@[simp] theorem State.rim_dropRecs (l : List TapRec) : (s.dropRecs l).rim = s.rim := by simp [State.dropRecs]

/-- The bays that a channel holds are released. -/
def State.chBays (s : State) (x : EncCh) : State :=
  x.refs.foldl (fun s r => s.ownerRelease r.1 r.2) (s.dropRecs (x.tap.toList ++ x.ended.toList ++ x.queue))

/-- A picture in the pipeline is dropped where it is the channel's. -/
def State.chJob (s : State) (p k : Nat) : State :=
  match Store.find p s.encJobs with
  | some j => if j.ch = k then { s.dropRecs [j.rec_] with encJobs := Store.del p s.encJobs } else s
  | none => s

/-- The channel's bits clear and it is listed no more. -/
def State.chClear (s : State) (p k : Nat) : State :=
  let u := ((s.wb (encP p) (ENC_CH_CTRL_EN k) false).wb (encP p) (ENC_CH_CTRL_ACTIVE k) false).wr (encP p) (ENC_CH_STAT_QUEUED k) 0
  { u with enc := Store.del (p * 32 + k) u.enc }

variable {s p k}

theorem State.chEnd_eq {x : EncCh} (h : Store.find (p * 32 + k) s.enc = some x) :
    s.chEnd p k = ((s.chBays x).chJob p k).chClear p k := by
  unfold State.chEnd
  rw [h]
  rfl

theorem State.chClear_spec (s : State) (p k : Nat) : (s.chClear p k).on (encP p) (ENC_CH_CTRL_EN k) = false ∧
    Store.find (p * 32 + k) (s.chClear p k).enc = none ∧ (s.chClear p k).encJobs = s.encJobs := by
  refine ⟨?_, Store.find_del_self _ _, rfl⟩
  show (((s.wb (encP p) (ENC_CH_CTRL_EN k) false).wb (encP p) (ENC_CH_CTRL_ACTIVE k) false).wr (encP p) (ENC_CH_STAT_QUEUED k) 0).on
    (encP p) (ENC_CH_CTRL_EN k) = false
  rw [State.on_eq, State.rd_wr_encP _ _ (by simp only [ENC_CH_CTRL_EN, ENC_CH_STAT_QUEUED]; omega),
    State.wb_eq _ _ (ENC_CH_CTRL_ACTIVE k), State.rd_wr_encP _ _ (by simp only [ENC_CH_CTRL_EN, ENC_CH_CTRL_ACTIVE]; omega),
    ← State.on_eq]
  exact State.on_wb_false _ _ _

theorem State.rim_chBays (s : State) (x : EncCh) : (s.chBays x).rim = s.rim := by
  simp [State.chBays]

/-- The picture of the channel that ends leaves the pipeline. -/
theorem State.find_encJobs_chJob {j : EncJob} (h : Store.find p s.encJobs = some j) :
    Store.find p (s.chJob p j.ch).encJobs = none := by
  unfold State.chJob
  rw [h]
  dsimp only
  rw [if_pos rfl]
  exact Store.find_del_self _ _

theorem State.chEnd_spec {x : EncCh} (h : Store.find (p * 32 + k) s.enc = some x) :
    (s.chEnd p k).on (encP p) (ENC_CH_CTRL_EN k) = false ∧ Store.find (p * 32 + k) (s.chEnd p k).enc = none := by
  rw [State.chEnd_eq h]
  obtain ⟨hen, henc, -⟩ := ((s.chBays x).chJob p k).chClear_spec p k
  exact ⟨hen, henc⟩

theorem State.find_encJobs_chStop {x : EncCh} {j : EncJob} (hj : Store.find p s.encJobs = some j)
    (h : Store.find (p * 32 + j.ch) s.enc = some x) (cause : Nat) : Store.find p (s.chStop p j.ch cause).encJobs = none := by
  have hbays : Store.find p (s.chBays x).encJobs = some j := by rw [rim_encJobs (s.rim_chBays x), hj]
  obtain ⟨-, -, hjobs⟩ := ((s.chBays x).chJob p j.ch).chClear_spec p j.ch
  rw [State.chStop, rim_encJobs (State.rim_emit ..), State.chEnd_eq h, hjobs]
  exact State.find_encJobs_chJob hbays

end

/-! ### Records completed (R330) -/

section
variable {s : State} {p k : Nat}

@[simp] theorem State.rim_notRecCounts (s : State) (p k : Nat) :
    (((s.cnt (encP p) ENC_NOTREC_COUNT 1).inc (encP p) (ENC_CH_NOTREC_COUNT k) 1).wb (encP p) (ENC_CH_STAT_IDR_NEXT k) true).rim =
      s.rim := by simp

/-- The record of a completed bay: its stamp, its frame, READY. -/
def State.recReady (s : State) (r : TapRec) : State :=
  if s.bayHeld r.bay r.gen then
    ((s.wr64 (bayE r.bay) BAYD_TC_LO_TC BAYD_TC_HI_TC r.ts).wr (bayE r.bay) BAYD_FSEQ_FSEQ r.f).wb (bayE r.bay) BAYD_STAT_READY true
  else s

theorem State.rim_recReady (s : State) (r : TapRec) : (s.recReady r).rim = s.rim := by simp [State.recReady]

theorem State.enc_recReady (s : State) (r : TapRec) : (s.recReady r).enc = s.enc := rim_enc (s.rim_recReady r)

/-- A bay below 4096 has its descriptor apart from the pipelines' pages. -/
theorem State.rd_recReady {r : TapRec} (h : r.bay < 4096) (hp : p < 2) (hk : k < 32) :
    (s.recReady r).rd (encP p) (ENC_CH_CTRL_QDEPTH k) = s.rd (encP p) (ENC_CH_CTRL_QDEPTH k) := by
  have hkey : ∀ f : Fld, fkey (encP p) (ENC_CH_CTRL_QDEPTH k) ≠ fkey (bayE r.bay) f := by
    intro f
    simp only [fkey, bayE, encP, pg_enc, ENC_CH_CTRL_QDEPTH]
    omega
  unfold State.recReady
  split
  · rw [State.wb_eq, State.rd_wr_key (hkey _), State.rd_wr_key (hkey _), State.wr64, State.rd_wr_key (hkey _),
      State.rd_wr_key (hkey _)]
  · rfl

/-- The frame is not recorded: the channel is not told anew that a record is complete. -/
theorem State.find_notRec {x : EncCh} (h : Store.find (p * 32 + k) s.enc = some x) (f hd cause : Nat) :
    Store.find (p * 32 + k) (s.notRec p k f hd cause).enc = some { x with gap := true, idr := true } := by
  unfold State.notRec
  dsimp only
  rw [rim_enc (State.rim_emitLimited ..)]
  refine State.find_encUpd _ _ _ ?_ _
  rw [rim_enc (s.rim_notRecCounts p k)]
  exact h

theorem exec_tapRecordComplete_idle {p : Fin 2} {k : Fin 32} {x : EncCh} (h : Store.find (p.val * 32 + k.val) s.enc = some x)
    (he : x.ended = none) : exec (.tapRecordComplete p k) s = .next s := by
  show execTapRecordComplete p k s = _
  unfold execTapRecordComplete State.tapDone
  rw [h]
  dsimp only
  rw [he]

/-- The ended record leaves, and its bay shows what it holds. -/
def State.recEnded (s : State) (p k : Nat) (r : TapRec) : State := (s.encUpd p k fun y => { y with ended := none }).recReady r

theorem State.tapDone_eq {x : EncCh} {r : TapRec} (h : Store.find (p * 32 + k) s.enc = some x) (he : x.ended = some r) :
    s.tapDone p k = let u := s.recEnded p k r
      if u.rd (encP p) (ENC_CH_CTRL_QDEPTH k) + 1 ≤ x.queue.length then
        (u.ownerRelease r.bay r.gen).notRec p k r.f (u.rd (encP p) (ENC_CH_CTRL_HEAD k)) 2
      else (u.encUpd p k fun y => { y with queue := y.queue ++ [r] }).wr (encP p) (ENC_CH_STAT_QUEUED k) (x.queue.length + 1) := by
  unfold State.tapDone
  rw [h]
  dsimp only
  rw [he]
  rfl

theorem tapRecordComplete_completes {p : Fin 2} {k : Fin 32} {x : EncCh} {r : TapRec}
    (h : Store.find (p.val * 32 + k.val) s.enc = some x) (he : x.ended = some r) :
    completes (.tapRecordComplete p k) s fun t => ∃ y, Store.find (p.val * 32 + k.val) t.enc = some y ∧ y.ended = none ∧
      (r.bay < 4096 → x.queue.length ≤ s.rd (encP p.val) (ENC_CH_CTRL_QDEPTH k.val) → y.queue = x.queue ++ [r]) := by
  refine completes_of (congrArg Host.Outcome.next (State.tapDone_eq h he)) ?_
  have hdepth : r.bay < 4096 → (s.recEnded p.val k.val r).rd (encP p.val) (ENC_CH_CTRL_QDEPTH k.val) =
      s.rd (encP p.val) (ENC_CH_CTRL_QDEPTH k.val) := by
    intro hbay
    rw [State.recEnded, State.rd_recReady hbay p.isLt k.isLt]
    unfold State.encUpd
    split <;> rfl
  have hfind : Store.find (p.val * 32 + k.val) (s.recEnded p.val k.val r).enc = some { x with ended := none } := by
    rw [State.recEnded, State.enc_recReady]
    exact State.find_encUpd _ _ _ h _
  generalize s.recEnded p.val k.val r = u at hdepth hfind
  dsimp only
  split
  next hfull =>
    refine ⟨_, State.find_notRec (by rw [State.enc_ownerRelease]; exact hfind) _ _ _, rfl, fun hbay hroom => ?_⟩
    rw [hdepth hbay] at hfull
    omega
  · exact ⟨_, State.find_encUpd u _ _ hfind _, rfl, fun _ _ => rfl⟩

end

/-! ### The stream (R337) -/

section
variable {s : State} {p : Fin 2} {k : Fin 32} {port : Fin 18} {sr : Bool}

theorem exec_encStreamSend_idle (h : s.drvRuns = false ∨ Store.getD [] (p.val * 32 + k.val) s.encRecs = []) :
    exec (.encStreamSend p k port sr) s = .next s := by
  show execEncStreamSend p k port sr s = _
  unfold execEncStreamSend
  dsimp only
  by_cases hrun : s.drvRuns = true
  · rw [h.resolve_left (by simp [hrun])]
    exact congrArg Host.Outcome.next (if_neg (by simp [hrun]))
  · exact congrArg Host.Outcome.next (if_pos (by simpa using hrun))

@[simp] theorem State.rim_hwAccess (s : State) (m fid : Nat) (kd : AccKind) (tag : Option Tag) (a len : Nat) (data : List Nat) :
    (s.hwAccess m fid kd tag a len data).2.rim = s.rim := by
  simp [State.hwAccess]

@[simp] theorem State.rim_hwRead (s : State) (m fid a len : Nat) (tag : Option Tag) : (s.hwRead m fid a len tag).2.rim = s.rim :=
  State.rim_hwAccess ..

@[simp] theorem State.rim_hwWrite (s : State) (m fid a : Nat) (data : List Nat) (tag : Option Tag) :
    (s.hwWrite m fid a data tag).2.rim = s.rim :=
  State.rim_hwAccess ..

@[simp] theorem State.rim_setRtpSent (s : State) (x : Store (Nat × Nat)) : State.rim { s with rtpSent := x } = s.rim := rfl

@[simp] theorem State.rim_rtpSend (s : State) (u n stamp : Nat) (au : List Nat) : (s.rtpSend u n stamp au).rim = s.rim := by
  simp [State.rtpSend]

@[simp] theorem State.rim_rtcpReport (s : State) (u n ts : Nat) : (s.rtcpReport u n ts).rim = s.rim := by
  simp [State.rtcpReport]
end

section
variable {s : State} {p : Fin 2} {k : Fin 32} {port : Fin 18} {sr : Bool}

/-- The oldest record leaves the ring's list. -/
def State.recTaken (s : State) (u : Nat) (l : List RingRec) : State := { s with encRecs := Store.setD [] u l s.encRecs }

/-- The record's access unit goes out, with its report, unless the other unit sends. -/
def State.recSent (s : State) (p k port : Nat) (sr : Bool) (r : RingRec) : State :=
  let d := s.rd (encP p) (ENC_CH_CTRL_DROVER k)
  if s.on (encP p) (ENC_CH_CTRL_SEND_HIGH k) && !s.highClaim then s
  else
    let x := s.hwRead (2 + d) (0x1800 + d) (s.bayAddr r.bay r.off) r.len none
    match x.1 with
    | none => x.2
    | some b =>
      let u := x.2.rtpSend (p * 32 + k) port (rtpStamp (num b 0 8)) (b.drop 64)
      if sr && u.on (pg .tb 0) TB_UTC_VALID then u.rtcpReport (p * 32 + k) port (num b 0 8) else u

theorem State.rim_recSent (s : State) (p k port : Nat) (sr : Bool) (r : RingRec) : (s.recSent p k port sr r).rim = s.rim := by
  unfold State.recSent
  dsimp only
  split
  · rfl
  · split <;> simp

theorem exec_encStreamSend {r : RingRec} {l : List RingRec} (hrun : s.drvRuns = true)
    (h : Store.getD [] (p.val * 32 + k.val) s.encRecs = r :: l) : exec (.encStreamSend p k port sr) s =
      .next (((s.recTaken (p.val * 32 + k.val) l).recSent p.val k.val port.val sr r).wr (encP p.val) (ENC_CH_RD_OFFSET k.val)
        (r.off + r.len)) := by
  show execEncStreamSend p k port sr s = _
  unfold execEncStreamSend
  dsimp only
  rw [h, if_neg (by simp [hrun])]
  rfl

theorem encStreamSend_consumes {r : RingRec} {l : List RingRec} (hrun : s.drvRuns = true)
    (h : Store.getD [] (p.val * 32 + k.val) s.encRecs = r :: l) : completes (.encStreamSend p k port sr) s fun t =>
      Store.getD [] (p.val * 32 + k.val) t.encRecs = l ∧
        t.rd (encP p.val) (ENC_CH_RD_OFFSET k.val) = (r.off + r.len) % 2 ^ (ENC_CH_RD_OFFSET k.val).w := by
  refine completes_of (exec_encStreamSend hrun h) ⟨?_, State.rd_wr_self ..⟩
  rw [rim_encRecs (State.rim_wr ..), rim_encRecs (State.rim_recSent ..)]
  exact Store.getD_setD_self ..

end

/-! ### A picture starts (R339) -/

section
variable {s : State} {p : Fin 2}

theorem exec_encPictureStart_idle (h : s.enabled (encP p.val) = false ∨ s.pll 2 = false ∨
    (Store.find p.val s.encJobs).isSome = true) : exec (.encPictureStart p) s = .next s := by
  show execEncPictureStart p s = _
  exact congrArg Host.Outcome.next (if_pos (by simpa using h))

/-- The oldest record leaves the channel's queue. -/
theorem State.queueOf_encUpd_drop {s : State} {i k : Nat} {x : EncCh} (h : Store.find (i * 32 + k) s.enc = some x) :
    (s.encUpd i k fun y => { y with queue := y.queue.drop 1 }).queueOf (i * 32 + k) = some (x.queue.drop 1) := by
  unfold State.queueOf
  rw [State.find_encUpd s i k h]
  rfl

@[simp] theorem State.rim_recRead (s : State) (i : Nat) (r : TapRec) (off len : Nat) : (s.recRead i r off len).2.rim = s.rim :=
  State.rim_bayRead ..

@[simp] theorem State.rim_recTable (s : State) (i : Nat) (r : TapRec) : (s.recTable i r).2.rim = s.rim := by
  simp [State.recTable]

@[simp] theorem State.rim_refBay (s : State) (i k w h : Nat) : (s.refBay i k w h).2.rim = s.rim := by
  unfold State.refBay
  split
  next b t e =>
    have ht : t.rim = s.rim := State.rim_of_snd e (State.rim_alloc ..)
    split <;> simp [ht]
  next t e => exact State.rim_of_snd e (State.rim_alloc ..)

/-- A picture that finds no room is not recorded, and the next one is an IDR picture. -/
def State.picDropped (s : State) (i k : Nat) (r : TapRec) : State :=
  let q := encP i
  let u := (s.ownerRelease r.bay r.gen).emit q 0x1801 ([k, 0, 0, 0] ++ le r.f 4)
  (((u.cnt q ENC_NOTREC_COUNT 1).inc q (ENC_CH_NOTREC_COUNT k) 1).wb q (ENC_CH_STAT_IDR_NEXT k) true).encUpd i k
    fun y => { y with idr := true }

/-- A cap below its floor is counted and recorded. -/
def State.capTold (s : State) (i k cap0 floor : Nat) (r : TapRec) : State :=
  if cap0 < floor then
    (s.inc (encP i) (ENC_CH_WIN_OVER_COUNT k) 1).emit (encP i) 0x2801 ([k, 0, 0, 0] ++ le r.f 4 ++ le floor 4)
  else s

/-- A picture begins: the reconstruction's bay, and the job. -/
def State.picBegun (s : State) (i k : Nat) (x : EncCh) (r : TapRec) (idr : Bool) (cap : Nat) (past : Bool) (t : List Nat) : State :=
  let b := s.refBay i k (codedSize r).1 (codedSize r).2
  let u := b.2.encUpd i k fun y => { y with gap := false, idr := false }
  { u with encJobs := Store.put i ⟨k, r, idr, x.gap, cap, past, t, b.1⟩ u.encJobs }

theorem State.queueOf_picDropped (s : State) (i k j : Nat) (r : TapRec) : (s.picDropped i k r).queueOf j = s.queueOf j := by
  unfold State.picDropped
  dsimp only
  rw [State.queueOf_encUpd (g := fun y => { y with idr := true }) _ _ _ _ fun _ => rfl]
  exact State.queueOf_of_rim (by simp)

theorem State.rim_capTold (s : State) (i k cap0 floor : Nat) (r : TapRec) : (s.capTold i k cap0 floor r).rim = s.rim := by
  simp [State.capTold]

theorem State.queueOf_picBegun (s : State) (i k j : Nat) (x : EncCh) (r : TapRec) (idr : Bool) (cap : Nat) (past : Bool) (t : List Nat) :
    (s.picBegun i k x r idr cap past t).queueOf j = s.queueOf j := by
  have hupd := State.queueOf_encUpd (s.refBay i k (codedSize r).1 (codedSize r).2).2 i k j
    (g := fun y => { y with gap := false, idr := false }) fun _ => rfl
  exact hupd.trans (State.queueOf_of_rim (s.rim_refBay ..))

/-- The pipeline has taken the oldest record and read its table. -/
def State.picTaken (s : State) (i k : Nat) (x : EncCh) : State :=
  (s.encUpd i k fun y => { y with queue := y.queue.drop 1 }).wr (encP i) (ENC_CH_STAT_QUEUED k) (x.queue.length - 1)

theorem State.encBegin_eq (s : State) (i k : Nat) (x : EncCh) (r : TapRec) :
    let u := (s.picTaken i k x).recTable i r
    s.encBegin i k x r = u.2.picDropped i k r ∨
      ∃ cap0 floor idr cap past, s.encBegin i k x r = (u.2.capTold i k cap0 floor r).picBegun i k x r idr cap past u.1 := by
  unfold State.encBegin
  dsimp only
  split
  · exact .inl rfl
  · exact .inr ⟨_, _, _, _, _, rfl⟩

/-- Whether or not the picture finds room, the channel's queue is one record shorter. -/
theorem State.queueOf_encBegin {s : State} {i k : Nat} {x : EncCh} (h : Store.find (i * 32 + k) s.enc = some x) (r : TapRec) :
    (s.encBegin i k x r).queueOf (i * 32 + k) = some (x.queue.drop 1) := by
  have htaken : ((s.picTaken i k x).recTable i r).2.queueOf (i * 32 + k) = some (x.queue.drop 1) :=
    (State.queueOf_of_rim (State.rim_recTable ..)).trans (State.queueOf_encUpd_drop h)
  rcases s.encBegin_eq i k x r with hb | ⟨cap0, floor, idr, cap, past, hb⟩
  · rw [hb, State.queueOf_picDropped, htaken]
  · rw [hb, State.queueOf_picBegun, State.queueOf_of_rim (State.rim_capTold ..), htaken]

/-- What the snapshot says of a channel leaves its queue. -/
theorem State.queueOf_snapPicture (s : State) (i : Nat) : (s.snapPicture i).queueOf i = s.queueOf i := by
  unfold State.snapPicture
  split
  next d x _ hx =>
    unfold State.queueOf
    dsimp only
    rw [hx, Store.find_put_self]
    rfl
  next => rfl

/-- A picture of channel `k` begins from record bay `r`. -/
def State.picNext (s : State) (i k : Nat) (r : TapRec) : State :=
  match Store.find (i * 32 + k) s.enc with
  | some y => s.encBegin i k y r
  | none => s

theorem State.picNext_eq {s : State} {i k : Nat} {y : EncCh} (h : Store.find (i * 32 + k) s.enc = some y) (r : TapRec) :
    s.picNext i k r = s.encBegin i k y r := by
  unfold State.picNext
  rw [h]

theorem exec_encPictureStart {k : Nat} {r : TapRec} {x : EncCh} (hen : s.enabled (encP p.val) = true) (hpll : s.pll 2 = true)
    (hjob : Store.find p.val s.encJobs = none) (hnext : s.encNext p.val = some (k, r))
    (hx : Store.find (p.val * 32 + k) s.enc = some x) : exec (.encPictureStart p) s =
      .next (if !s.encRing p.val k then s.chStop p.val k 2
        else (s.snapPicture (p.val * 32 + k)).picNext p.val k r) := by
  show execEncPictureStart p s = _
  unfold execEncPictureStart
  dsimp only
  rw [if_neg (by simp [hen, hpll, hjob]), hnext]
  dsimp only
  rw [hx]
  rfl

theorem encPictureStart_takes {k : Nat} {r : TapRec} {x : EncCh} (hen : s.enabled (encP p.val) = true) (hpll : s.pll 2 = true)
    (hjob : Store.find p.val s.encJobs = none) (hnext : s.encNext p.val = some (k, r))
    (hx : Store.find (p.val * 32 + k) s.enc = some x) (hring : s.encRing p.val k = true) : completes (.encPictureStart p) s fun t =>
      ∃ y, Store.find (p.val * 32 + k) t.enc = some y ∧ y.queue = x.queue.drop 1 := by
  have hexec := exec_encPictureStart hen hpll hjob hnext hx
  have hqueue : (s.snapPicture (p.val * 32 + k)).queueOf (p.val * 32 + k) = some x.queue := by
    rw [State.queueOf_snapPicture, State.queueOf, hx]
    rfl
  generalize s.snapPicture (p.val * 32 + k) = u at hexec hqueue
  obtain ⟨y, hy, hq⟩ := State.queueOf_some hqueue
  rw [if_neg (by simp [hring]), State.picNext_eq hy] at hexec
  exact completes_of hexec (State.queueOf_some (hq ▸ State.queueOf_encBegin hy r))

theorem encPictureStart_stops {k : Nat} {r : TapRec} {x : EncCh} (hen : s.enabled (encP p.val) = true) (hpll : s.pll 2 = true)
    (hjob : Store.find p.val s.encJobs = none) (hnext : s.encNext p.val = some (k, r))
    (hx : Store.find (p.val * 32 + k) s.enc = some x) (hring : s.encRing p.val k = false) : completes (.encPictureStart p) s fun t =>
      Store.find (p.val * 32 + k) t.enc = none :=
  completes_of ((exec_encPictureStart hen hpll hjob hnext hx).trans (congrArg Host.Outcome.next (if_pos (by simp [hring]))))
    (s.find_enc_chStop p.val k 2)

end

/-! ### A picture is done (R336) -/

section
variable {s : State} {p : Fin 2} {c : EncCoded}

theorem exec_encPictureDone_none (h : Store.find p.val s.encJobs = none) : exec (.encPictureDone p c) s = .next s := by
  show execEncPictureDone p c s = _
  unfold execEncPictureDone
  dsimp only
  rw [h]

theorem exec_encPictureDone {j : EncJob} {x : EncCh} (hj : Store.find p.val s.encJobs = some j)
    (hx : Store.find (p.val * 32 + j.ch) s.enc = some x) : exec (.encPictureDone p c) s =
      .next (if !s.encRing p.val j.ch then s.chStop p.val j.ch 2
        else if c = Config.encCode (s.encRead p.val j x).1 then (s.encRead p.val j x).2.encFinish p.val j x c else s) := by
  show execEncPictureDone p c s = _
  unfold execEncPictureDone
  dsimp only
  rw [hj]
  dsimp only
  rw [hx]

/-- The picture leaves the pipeline, and its channel goes on as `y`. -/
def State.picEnded (s : State) (i k : Nat) (y : EncCh) : State :=
  { s with enc := Store.put (i * 32 + k) y s.enc, encJobs := Store.del i s.encJobs }

/-- The VCL bits of a job's picture. -/
def vclBits (j : EncJob) (c : EncCoded) : Nat :=
  8 * (codePicture j.cap (ctuDims j.rec_.w j.rec_.h).1 (ctuDims j.rec_.w j.rec_.h).2 j.idr c).2.length

/-- The channel after a picture. -/
def EncCh.coded (x : EncCh) (j : EncJob) (c : EncCoded) : EncCh :=
  { x with
    idr := x.idr || j.recon.isNone, sinceIdr := if j.idr then 0 else x.sinceIdr + 1, win := vclBits j c :: x.win.take 253,
    refs := j.recon.toList, size := codedSize j.rec_ }

theorem State.encFinish_eq (s : State) (i : Nat) (j : EncJob) (x : EncCh) (c : EncCoded) :
    ∃ (u : State) (b : Bool), s.encFinish i j x c =
      (u.picEnded i j.ch (x.coded j c)).wb (encP i) (ENC_CH_STAT_IDR_NEXT j.ch) b := by
  unfold State.encFinish
  exact ⟨_, _, rfl⟩

theorem encPictureDone_stops {j : EncJob} {x : EncCh} (hj : Store.find p.val s.encJobs = some j)
    (hx : Store.find (p.val * 32 + j.ch) s.enc = some x) (hring : s.encRing p.val j.ch = false) :
    completes (.encPictureDone p c) s fun t => Store.find p.val t.encJobs = none :=
  completes_of ((exec_encPictureDone hj hx).trans (congrArg Host.Outcome.next (if_pos (by simp [hring]))))
    (State.find_encJobs_chStop hj hx 2)

theorem exec_encPictureDone_other {j : EncJob} {x : EncCh} (hj : Store.find p.val s.encJobs = some j)
    (hx : Store.find (p.val * 32 + j.ch) s.enc = some x) (hring : s.encRing p.val j.ch = true)
    (hc : c ≠ Config.encCode (s.encRead p.val j x).1) : exec (.encPictureDone p c) s = .next s :=
  (exec_encPictureDone hj hx).trans (congrArg Host.Outcome.next ((if_neg (by simp [hring])).trans (if_neg hc)))

theorem encPictureDone_ends {j : EncJob} {x : EncCh} (hj : Store.find p.val s.encJobs = some j)
    (hx : Store.find (p.val * 32 + j.ch) s.enc = some x) (hring : s.encRing p.val j.ch = true)
    (hc : c = Config.encCode (s.encRead p.val j x).1) : completes (.encPictureDone p c) s fun t =>
      Store.find p.val t.encJobs = none ∧ ∃ y, Store.find (p.val * 32 + j.ch) t.enc = some y ∧
        y.win = vclBits j c :: x.win.take 253 ∧ y.sinceIdr = if j.idr then 0 else x.sinceIdr + 1 := by
  obtain ⟨u, b, hfinish⟩ := (s.encRead p.val j x).2.encFinish_eq p.val j x c
  have hexec := (exec_encPictureDone hj hx).trans
    (congrArg Host.Outcome.next ((if_neg (by simp [hring])).trans ((if_pos hc).trans hfinish)))
  exact completes_of hexec ⟨Store.find_del_self .., x.coded j c, Store.find_put_self .., rfl, rfl⟩

end

/-! ### ENC_CH_CTRL, judged (R327) -/

section
variable {w : Writer} {p : Fin 2} {k : Fin 32} {s : State} {v : Word}

theorem encChannelEnable_ends {x : EncCh} (hf : s.pageFenced .enc p.val = false)
    (hon : s.on (encP p.val) (ENC_CH_CTRL_EN k.val) = true) (hv : bit v.toNat 0 = false)
    (hx : Store.find (p.val * 32 + k.val) s.enc = some x) : completes (.encChannelEnable w p k v) s fun t =>
      t.on (encP p.val) (ENC_CH_CTRL_EN k.val) = false ∧ Store.find (p.val * 32 + k.val) t.enc = none :=
  completes_of ((exec_encChannelEnable_on hf hon).trans (congrArg Host.Outcome.next (if_neg (by simp [hv])))) (State.chEnd_spec hx)

theorem encChannelEnable_refuses {c : Nat} (hf : s.pageFenced .enc p.val = false)
    (hoff : s.on (encP p.val) (ENC_CH_CTRL_EN k.val) = false) (hv : bit v.toNat 0 = true)
    (hc : (s.chFields p.val k.val v.toNat).chRefusal p.val k.val = some c) : completes (.encChannelEnable w p k v) s fun t =>
      t.rd (encP p.val) (ENC_CH_STAT_REFUSE k.val) = c ∧ t.on (encP p.val) (ENC_CH_CTRL_EN k.val) = false ∧ t.enc = s.enc := by
  have hexec := exec_encChannelEnable_judged (w := w) hf hoff hv
  rw [hc] at hexec
  obtain ⟨hcause, hen⟩ := State.rd_chRefused (s.chFields p.val k.val v.toNat) p.val k.val (lt_of_chRefusal _ _ _ hc)
  exact completes_of hexec ⟨hcause, hen.trans ((s.on_chFields ..).trans hoff),
    rim_enc ((State.rim_chRefused ..).trans (s.rim_chFields ..))⟩

theorem encChannelEnable_starts (hf : s.pageFenced .enc p.val = false)
    (hoff : s.on (encP p.val) (ENC_CH_CTRL_EN k.val) = false) (hv : bit v.toNat 0 = true)
    (hc : (s.chFields p.val k.val v.toNat).chRefusal p.val k.val = none) : completes (.encChannelEnable w p k v) s fun t =>
      t.on (encP p.val) (ENC_CH_CTRL_EN k.val) = true ∧ t.on (encP p.val) (ENC_CH_STAT_IDR_NEXT k.val) = true ∧
        t.encRecs = s.encRecs ∧
        ∃ y, Store.find (p.val * 32 + k.val) t.enc = some y ∧ y.queue = [] ∧ y.tap = none ∧ y.refs = [] := by
  have hexec := exec_encChannelEnable_judged (w := w) hf hoff hv
  rw [hc] at hexec
  obtain ⟨hen, hidr, hkept, hlist⟩ := (s.chFields p.val k.val v.toNat).chStart_spec p.val k.val
  exact completes_of hexec ⟨hen, hidr, hkept.trans (rim_encRecs (s.rim_chFields ..)), hlist⟩

end

/-- Settles O46: the commands by their own lemmas, and rate control by `codePicture_spec`. That the records stay over an enable is the
model's choice (log entry 87), and that a picture ends with what `Config.encCode` gives is its form (log entry 180). -/
theorem recordingChannels : Obligations.RecordingChannels := by
  refine ⟨fun w p k s => ?_, codePicture_spec⟩
  exact ⟨fun _ => exec_encChannelEnable_fenced,
    fun _ hf hon hv => (exec_encChannelEnable_on hf hon).trans (congrArg Host.Outcome.next (if_pos hv)),
    fun _ _ => encChannelEnable_ends,
    fun v hf hoff hv => completes_of (exec_encChannelEnable_idle hf hoff hv)
      ⟨fun _ hmem => s.rd_chFields p.val k.val v.toNat hmem, onlyRegs_chFields ..⟩,
    fun _ hoff hv hf => ⟨fun _ => encChannelEnable_refuses hf hoff hv, encChannelEnable_starts hf hoff hv⟩,
    fun _ hx => ⟨exec_tapRecordComplete_idle hx, fun _ => tapRecordComplete_completes hx⟩,
    fun h _ _ => exec_encStreamSend_idle h, fun _ _ _ _ => encStreamSend_consumes, exec_encPictureStart_idle,
    fun hen hpll hjob _ _ hnext hx => ⟨encPictureStart_takes hen hpll hjob hnext hx, encPictureStart_stops hen hpll hjob hnext hx⟩,
    fun _ => exec_encPictureDone_none,
    fun _ _ _ hj hx => ⟨encPictureDone_stops hj hx, exec_encPictureDone_other hj hx, encPictureDone_ends hj hx⟩⟩

end Sys2Proof.Machine
end
